-- ==== Sys2Proof/Word.lean ====
section
/-! DEFINITION. The word and byte types, the two vats, and plain integer helpers. Registers are 32 bits wide (R9). -/

namespace Sys2Proof

abbrev Word := BitVec 32
abbrev Byte := BitVec 8

/-- The two control units of the device (00_scope.md, the seven levels). -/
inductive Vat where
  | A
  | B
  deriving DecidableEq, Repr

/-- The vat window's base address (00_scope.md, "Addresses"). -/
def Vat.base : Vat → Nat
  | .A => 0x50000000
  | .B => 0x60000000

/-- The vat's number in two-bit fields that encode 1 A, 2 B. -/
def Vat.code : Vat → Nat
  | .A => 1
  | .B => 2

def Vat.other : Vat → Vat
  | .A => .B
  | .B => .A

/-- A bit field of a register: its register's byte address, its low bit and its width. -/
structure Field where
  addr : Nat
  lo : Nat
  width : Nat
  deriving DecidableEq, Repr

/-- The bits of two fields of a register do not overlap, or they are fields of two registers. -/
def Field.apart (f g : Field) : Bool := f.addr != g.addr || f.lo + f.width ≤ g.lo || g.lo + g.width ≤ f.lo

/-- The field lies inside a word. -/
def Field.fits (f : Field) : Bool := f.lo + f.width ≤ 32

end Sys2Proof
end

