-- ==== Sys2Proof/Syntax.lean ====
section
/-! DEFINITION. The commands of the M72: one constructor for each row of the table of steps (95_what_each_step_holds.md,
opcode_table.json). The table gives no operand fields, so the operands are the model's: what the outside world, or hardware
below the spec's level, decides about the step (which vat, port or leg; a frame's bytes; a measured value). -/

namespace Sys2Proof

/-- The clock domains in their release order (R379). -/
inductive Domain where
  | T
  | CAN
  | VA
  | VB
  | N
  | C
  deriving DecidableEq, Repr

/-- The multiplying loops (R355). -/
inductive PllLoop where
  | SA
  | SB
  | T
  | N
  | C
  | CAN
  deriving DecidableEq, Repr

/-- How a flash slot reads at a start (R27): whether a whole octal read of it is free of error, and whether a single-SPI read is. -/
structure FlashRead where
  octal : Bool
  single : Bool
  deriving DecidableEq, Repr

/-- How slot 0 reads, and the capacity in bytes that the flash's JESD216 table gave before, if it could be read (R434). -/
structure FlashOpen where
  capacity : Option Nat
  read : FlashRead
  deriving DecidableEq, Repr

/-- How the SRAM check ends (R379 step 7); where it is good LOADING begins with the reading of the flash's JESD216 table (R434). -/
inductive SramCheck where
  | bad
  | good (capacity : Option Nat)
  deriving DecidableEq, Repr

/-- What the comparator found to differ (R246, KIND of R264): a commit signature of a graph, a reload decision or the state
of a port, a pin level of a leg. Pad levels are PAD_MISMATCH's. -/
inductive MismatchKind where
  | csig (engine : Fin 8) (slot : Fin 4) (port : Fin 8) (tick : BitVec 32)
  | reload (port : Fin 8) (tick : BitVec 32)
  | state (port : Fin 8)
  | level (leg : Fin 32)
  | auxOut (link : Fin 4)
  | ssiOut (input : Fin 4)
  deriving DecidableEq, Repr

/-- What passes to a new owner (R252): a leg, an AUX link or an SSI input. -/
inductive HandItem where
  | leg (n : Fin 32)
  | aux (k : Fin 4)
  | ssi (i : Fin 4)
  deriving DecidableEq, Repr

/-- An accepted event on an encoder's lines (R182): a quadrature edge up or down, a phase error, a rising edge of Z. -/
inductive EncEvent where
  | up
  | down
  | phaseError
  | index
  deriving DecidableEq, Repr

/-- An event that triggers injected sequences (R83): a tick of a port, or its carrier's valley or peak. Trips act when they
register. -/
inductive TrigEvent where
  | tick
  | valley
  | peak
  deriving DecidableEq, Repr

/-- Such an event of a port. -/
structure PortEvent where
  kind : TrigEvent
  port : Fin 8
  deriving DecidableEq, Repr

/-- What the pulse generator does on a leg (R203, R217, R232): a placed edge, or the carrier valley of the leg's port. -/
inductive GenEdge where
  | rise
  | fall
  | valley
  deriving DecidableEq, Repr

/-- What Brine finds in a word (R428). -/
inductive ScrubResult where
  | clean
  | single
  | double
  deriving DecidableEq, Repr

/-- A frame received on a CAN channel (R310, R322): identifier (11 or 29 bits), IDE, FD, a remote request, the DLC and the data
bytes, the first in bits [7:0]. -/
structure CanFrame where
  id : BitVec 29
  ide : Bool
  fd : Bool
  rtr : Bool
  dlc : BitVec 4
  data : BitVec 512
  deriving DecidableEq, Repr

/-- A bus error of a channel (R314): as transmitter, as receiver, or as receiver with a dominant bit after its error flag. A
transmitter's error ends the transmission that began at `sof` in CAN_TS; `tdcv`: the loop delay, where it got as far as to
measure it (R313). -/
inductive CanErr where
  | transmit (sof : BitVec 32) (tdcv : Option (BitVec 7))
  | receive
  | receiveFirst
  deriving DecidableEq, Repr

/-- The state of the PTP protocol (R336, R343): which port is in the slave state, or that the device is grandmaster. -/
inductive PtpRole where
  | listening
  | slave (p : Fin 2)
  | master
  deriving DecidableEq, Repr

/-- What IEEE 1588-2019, run by the supervisor, measures with a received frame (R335, R336, R342-R344): nothing, an offset from the
master in ns with the NT_FREQ that a slew calls for, or a mean link delay in ns. -/
inductive PtpResult where
  | nothing
  | offset (ns : Int) (freq : BitVec 32)
  | linkDelay (ns : Nat)
  deriving DecidableEq, Repr

/-- The messages the supervisor sends at its intervals (R342). -/
inductive PtpMessage where
  | sync
  | announce
  | delayReq
  deriving DecidableEq, Repr

/-- The bitstreams of the Rind's eight inputs over the output periods since its latest metering command (R290): each period 256
MTR_CLK edges, input i in bits [256i + 255:256i], the earliest edge lowest. -/
abbrev MeterBits := List (BitVec 2048)

/-- A metering input that becomes STALE or returns (R291), and the bits of all inputs up to then. -/
structure InputChange where
  input : Fin 8
  bits : MeterBits
  deriving DecidableEq, Repr

/-- The width of a bus access (R9). -/
inductive AccessWidth where
  | byte
  | half
  | word
  deriving DecidableEq, Repr

/-- How the fusing of an owner slot goes (R391, R464): all blows are made, and the hash reads back; or it reads back differing; or
VDDA is out of its range from blow `k` on, which are not made; or the power is lost before blow `k`. Blow 0 is the hash, 1 VALID, 2
the last: OWNED, or REVOKED of the old slot. -/
inductive FuseResult where
  | done
  | differs
  | notMade (k : Fin 3)
  | powerLoss (k : Fin 3)
  deriving DecidableEq, Repr

/-- The data of a bus write and its width: a byte or a halfword in the low bits. `landed`: the shadow writes of each burst of an engine
master that have landed, should the access freeze it (R213). -/
structure BusData where
  width : AccessWidth
  data : BitVec 32
  landed : Nat := 0
  deriving DecidableEq, Repr

/-- The direction of a denied access, and what its engine's bursts have landed (R213, R407). -/
structure BusDir where
  write : Bool
  landed : Nat := 0
  deriving DecidableEq, Repr

/-- A debug access or instruction (R402). EXTEST drives balls of the chain, by row from 1, A, and column, to levels. -/
inductive JtagOp where
  | idcode
  | bypass
  | sample
  | extest (cells : List (Nat × Nat × Bool))
  | read (a : BitVec 32)
  | write (a data : BitVec 32)
  deriving DecidableEq, Repr

/-- One command. -/
inductive Instr where
  /-- POWER_ON_RESET (R372): Supplies come into range after being absent; POR is held 2 ms and then the release sequence of R379 begins. `strap`: BOOT_MODE as sampled; `idFails`: failed rebuilds of the identity key in a row; `bank33`: bit k set, VDDIO_Bk senses as 3.3 V. -/
  | powerOnReset (strap : BitVec 2) (idFails : Fin 4) (bank33 : BitVec 8)
  /-- BROWN_OUT (R450): A core or I/O supply falls below its brown-out level, which starts a POR with cause 0x02. -/
  | brownOut
  /-- RESET_N_ASSERT (R378): RESET_N is low and stable for 10 µs, which starts a SYS reset with cause 0x03. -/
  | resetNAssert
  /-- RESET_N_HELD (R378): RESET_N stays low for more than 100 ms, so HELD is set and the recorded cause changes to 0x04. -/
  | resetNHeld
  /-- RESET_N_RELEASE (R378): RESET_N is high for 10 µs, which begins the release sequence and records HELDMS. `held`: the time RESET_N was low, in ms. -/
  | resetNRelease (held : Nat)
  /-- SYSREQ (R387): The supervisor writes 1 to RST_REQ.SYSREQ, which requests a SYS reset with cause 0x06. -/
  | sysreq (v : Vat)
  /-- VATREQ (R387): The supervisor writes 1 to RST_REQ.VATREQ, which requests a VAT reset of its own vat with cause 0x06. -/
  | vatreq (v : Vat)
  /-- VAT_WATCHDOG_EXPIRY (R374): A vat watchdog runs 2 ms without service, which sets FLT WDOG and gives that vat a VAT reset. -/
  | vatWatchdogExpiry (v : Vat)
  /-- CRITICAL_DOUBLE_BIT_ERROR (R375): A double-bit error in critical state gives a VAT reset for a vat's state or a SYS reset for common state. -/
  | criticalDoubleBitError (site : Option Vat)
  /-- CONFIG_PARITY_ERROR (R374): A configuration-register parity error gives a VAT reset for a vat register or a SYS reset for a common one. -/
  | configParityError (site : Option Vat)
  /-- CHECKER_SELF_TEST (R376): Every 100 ms the safety supervisor injects known errors into the ECC and parity checkers and requests a reset, cause 0x0D, if one fails. -/
  | checkerSelfTest (commonOk : Bool) (aOk : Bool) (bOk : Bool)
  /-- DOMAIN_RELEASE (R379): A domain's clock-good has held for 64 REFCLK cycles, so the domain is released; release of T makes the device STARTING. `r0`, `r1`: how the slots read, where this release begins RECOVERY. -/
  | domainRelease (d : Domain) (r0 : FlashOpen) (r1 : FlashRead)
  /-- DOMAIN_RELEASE_WITHDRAWN (R381): A domain's clock-good drops during its wait or release, so the release is withdrawn; the third withdrawal is a start failure. -/
  | domainReleaseWithdrawn (d : Domain)
  /-- SRAM_CHECK_COMPLETE (R379): The Starter finishes writing and verifying all SRAM, which fails the start on error and otherwise begins LOADING. -/
  | sramCheckComplete (ok : SramCheck)
  /-- WHEEL_LOADED (R42): The Starter has read and checked the slots; it applies an accepted wheel and ends LOADING, or records a failed start. `r0`, `r1`: how the slots read; `fuse0`, `fuse1`: how the fusing of an owner slot for the slot's wheel goes. -/
  | wheelLoaded (r0 : FlashRead) (r1 : FlashRead) (fuse0 : FuseResult) (fuse1 : FuseResult)
  /-- START_FAILS_CLEAR (R383): The device has held RUN or DEGRADED for 10 s, so START_FAILS clears and WHL_FLOOR and PATCH_FLOOR are raised. -/
  | startFailsClear
  /-- REFCLK_PRESENT (R356): REFCLK has been in tolerance for 64 µs, so REF_OK sets and any loop return begins. `pherr`: PHERR of PLL-T. -/
  | refclkPresent (pherr : BitVec 16)
  /-- REFCLK_LOST (R356): REFCLK is missing or out of frequency, so REF_OK clears and every loop enters holdover. -/
  | refclkLost
  /-- PHASE_SLEW_COMPLETE (R362): PLL-T finishes slewing back to its programmed phase, so PHASE_OK is declared and HOLD clears. `slewed`: the slewed phase in 62.5 ps; `pherr`: PHERR of PLL-T. -/
  | phaseSlewComplete (slewed : BitVec 32) (pherr : BitVec 16)
  /-- LOSS_OF_LOCK (R365): The monitor declares a loop's loss of lock and applies the reaction of R366 for that loop. `lost`: the loops lost in this cycle, bits as GOOD: SA, SB, T, N, C, CAN. -/
  | lossOfLock (lost : BitVec 6)
  /-- LOOP_GOOD (R365): A loop has been locked for 100 µs with REF_OK, so its GOOD bit sets and its domain recovers. -/
  | loopGood (l : PllLoop)
  /-- RO_CALIBRATION (R368): Every 1 ms the ring oscillator is calibrated; an out-of-range result sets ROFAIL_F and gives a SYS reset. `freq`: in units of 100 kHz. -/
  | roCalibration (freq : Nat)
  /-- RAMP_PROFILE_STEP (R358): Every 1 µs of VT, PLL-T's deviation y is updated from the ramp profile table. -/
  | rampProfileStep
  /-- DELAY_LINE_RECAL (R203): Every 50 µs each PULSE delay line is recalibrated against the PLL-T period at a moment with no pending edge. -/
  | delayLineRecal (v : Vat) (leg : Fin 32)
  /-- SLICE_OUTPUT (R57): A decimator slice produces a sample, which is trimmed, saturated, counted through settling and monitored for freeze. `bits` are the MDAT levels sampled in this output period, the first in bit 0; bit p of `arr` says that this output comes at or after tick + GD of the oldest evaluation of port p that awaits the channel (R97). -/
  | sliceOutput (v : Vat) (n : Fin 64) (bits : BitVec 256) (arr : BitVec 8)
  /-- FROZEN_SET (R67): The freeze count of a channel reaches FZ_COUNT × 16 while its move qualifier is true, so FROZEN sets. -/
  | frozenSet (v : Vat) (n : Fin 64)
  /-- FRESHNESS_STALE (R65): A channel's MDAT level is stuck for FR_LIMIT modulator clocks, or its slice gives no output for two periods, so STALE sets. -/
  | freshnessStale (v : Vat) (n : Fin 64)
  /-- STALE_CLEAR (R66): A stale channel's input changes level, so STALE clears and the channel settles before it is VALID again. -/
  | staleClear (v : Vat) (n : Fin 64)
  /-- SYNC_RESET_EFFECT (R60): A pending synchronising reset takes effect at the aligned tick or modulator edge, restarting the named slices and their settling. The operand is a vat that waits for it; the other takes its own at that instant. -/
  | syncResetEffect (v : Vat) (g : Fin 8)
  /-- SGRP_SYNC_GO (R63): The supervisor writes GO in SGRPg_SYNC, which requests a synchronising reset of the masked channels or merges with a pending one. -/
  | sgrpSyncGo (v : Vat) (g : Fin 8) (mask : BitVec 8)
  /-- GROUP_CLOCK_LOSS (R68): A group's modulator clock is not good, so every channel of the group sets CLKLOSS and clears VALID. -/
  | groupClockLoss (g : Fin 8)
  /-- GROUP_CLOCK_RETURN (R68): A group's clock is good again, which requests the synchronising reset of that group. -/
  | groupClockReturn (g : Fin 8)
  /-- ROTATION_STEP (R70): At a 20 ms boundary of PT the free slice of a group starts shadowing the next channel. The operand is a vat in which the step may begin; it begins in the other at that instant. -/
  | rotationStep (v : Vat) (g : Fin 8)
  /-- ROTATION_COMPARE (R71): The shadowing slice has settled and produced 16 outputs; on a match it takes over the channel, and on a mismatch R71 is applied. `same`: the 16 outputs agreed bit for bit. -/
  | rotationCompare (v : Vat) (g : Fin 8) (same : Bool)
  /-- SLICE_TEST_COMPLETE (R72): A free slice's 1,024-sample test window is compared with the ROM signature; a failed test retires the slice. `ok`: the signature agreed. -/
  | sliceTestComplete (v : Vat) (g : Fin 8) (ok : Bool)
  /-- GCAL_WINDOW (R74): At each 1 s window boundary the channel's RMS is compared with the Rind snapshot and GCAL is updated. -/
  | gcalWindow
  /-- AUX_FRAME_COMPLETE (R80): An AUX frame completes; a good result enters AUXk_DATA, and a bad frame counts toward LINK_FAIL. `echo`, `status` and `result` are the fields of AUXk_DI (R79). -/
  | auxFrameComplete (v : Vat) (k : Fin 4) (echo : BitVec 4) (status : BitVec 4) (result : BitVec 16)
  /-- AUXK_DATA_READ (R86): The transfer engine reads AUXk_DATA, consuming the result and writing it into the channel table. -/
  | auxkDataRead (v : Vat) (k : Fin 4)
  /-- INJECTED_TRIGGER (R84): An injected trigger (tick, carrier event or trip) starts the injected sequence, or is lost if one is already pending. A tick or carrier event of IPORT, as TRIG selects; trip triggers come with TRIP_REGISTRATION. -/
  | injectedTrigger (v : Vat) (e : PortEvent)
  /-- AUX_AGE_LIMIT (R88): A channel-table entry's age reaches AGE_LIMIT, so it goes STALE and not VALID. -/
  | auxAgeLimit (v : Vat) (n : Fin 64)
  /-- PORT_TICK (R96): A port ticks: samples are captured, guards and monitors test, the evaluation is selected and graphs enter or migrate. -/
  | portTick (v : Vat) (p : Fin 8)
  /-- ARRIVAL_TIMEOUT (R97): No output has arrived by tick + GD + one output period, so the arrival sample is found absent. -/
  | arrivalTimeout (v : Vat) (p : Fin 8) (n : Fin 64)
  /-- EVALUATION_END (R142): An evaluation ends at its verdict point; 12 cycles later it is committed, or it is squashed and re-run. The evaluation that the engine runs ends. -/
  | evaluationEnd (v : Vat) (c : Fin 8)
  /-- COMMIT_COMPLETE (R213): A commit's write-back and its shadow burst land, completing the commit, updating history and logging its events. -/
  | commitComplete (v : Vat) (c : Fin 8) (k : Fin 4)
  /-- DEADLINE_ABANDON (R122): An evaluation is not in time at its deadline, so it is abandoned with outcome MISSED and MISSRUN counts. `landed`: how many shadow writes of a commit in progress have landed before this cycle (R213). -/
  | deadlineAbandon (v : Vat) (c : Fin 8) (k : Fin 4) (landed : Nat)
  /-- WHEY_DOUBLE_BIT_ERROR (R141): A double-bit error in an open whey bank discards the evaluation, which is re-run plainly. -/
  | wheyDoubleBitError (v : Vat) (c : Fin 8) (k : Fin 4) (b : Bool)
  /-- SELF_TEST_DUE (R125): An engine's STPER period expires, so its ROM self-test is started in idle cycles. -/
  | selfTestDue (v : Vat) (c : Fin 8)
  /-- SELF_TEST_COMPLETE (R125): An engine's self-test ends; a wrong signature sets STFAIL and retires the engine. `landed`: how many shadow writes of a commit in progress have landed should the engine retire (R213). -/
  | selfTestComplete (v : Vat) (c : Fin 8) (ok : Bool) (landed : Nat)
  /-- SELF_TEST_LATE (R125): A self-test is not complete within 2 × STPER, so STLATE_F sets. -/
  | selfTestLate (v : Vat) (c : Fin 8)
  /-- WADDR_WRITE (R150): A write to WADDR selects the whey-buffer word that WDATA_LO and WDATA_HI return. -/
  | waddrWrite (v : Vat) (c : Fin 8) (a : BitVec 13)
  /-- RELOAD (R215): At a reload sampling edge the port takes a coherent tagged set, or keeps its set and counts a coherence error. `valley`: the reload is at a valley; `landed`: how many shadow writes of a commit in progress have landed by the edge (R213). -/
  | reload (v : Vat) (p : Fin 8) (valley : Bool) (landed : Nat)
  /-- TRIP_REGISTRATION (R221): A trip input's filtered level rises, so the trip registers and acts on the ports of PMASK. -/
  | tripRegistration (v : Vat) (idx : Fin 8)
  /-- SOFT_TRIP_RESOLUTION (R223): A latched soft trip is resolved at the window close or 4 µs, entering the fault pattern or being discarded. -/
  | softTripResolution (v : Vat) (p : Fin 8) (idx : Fin 8)
  /-- DST_FRAME (R229): A driver status frame is received; a good frame is checked and may raise DRV_FAULT or DRV_MISMATCH. `formed`: every bit is well formed; `enSteady`: EN at the pin did not change during the frame (R231). -/
  | dstFrame (v : Vat) (leg : Fin 32) (frame : BitVec 24) (formed : Bool) (enSteady : Bool)
  /-- FAULT_BREAK (R227): A DST low run reaches 140 ns and is registered as a fault break, which raises DRV_FAULT. -/
  | faultBreak (v : Vat) (leg : Fin 32)
  /-- DST_LINE_ERROR (R227): A DST low run outside a frame that is neither a sync nor a break is counted as a line error. -/
  | dstLineError (v : Vat) (leg : Fin 32)
  /-- DRIVER_LINK_LOSS (R230): No good frame arrives for FTO, or four frames in a row are bad, so LINKOK clears and DRV_LINK is present. -/
  | driverLinkLoss (v : Vat) (leg : Fin 32)
  /-- ASCT_EXPIRY (R238): An active short circuit has been held for ASCT, so it changes to all-off. -/
  | asctExpiry (v : Vat) (p : Fin 8)
  /-- ENCODER_EDGE (R182): An accepted quadrature or index edge on an encoder moves COUNT, sets REF or flags a phase or index error. -/
  | encoderEdge (v : Vat) (idx : Fin 4) (e : EncEvent)
  /-- SSI_FRAME_COMPLETE (R184): An SSI frame ends and is judged good or bad, updating COUNT, TEDGE, BADRUN and VALID. `noresp`: SSI_D was low at the start; `word`: the bits received, the last in bit 0. -/
  | ssiFrameComplete (v : Vat) (idx : Fin 4) (noresp : Bool) (word : BitVec 33)
  /-- SETP_EDGE (R112): A rising edge on a SETP pin completes a period measurement for SETP. A falling edge marks the high time of the period in progress. -/
  | setpEdge (v : Vat) (idx : Fin 8) (rising : Bool)
  /-- OPEN_LOOP_TIMEOUT (R164): OL_LEFT reaches zero, so the GRID port enters FAULT_PATTERN with cause VFB_TIMEOUT. -/
  | openLoopTimeout (v : Vat) (p : Fin 8)
  /-- OPEN_LOOP_RECOVERY (R165): Every voltage channel has been VALID for 100 ms, so the open-loop ride ends and OL clears. -/
  | openLoopRecovery (v : Vat) (p : Fin 8)
  /-- OBSERVER_RIDE_TIMEOUT (R197): OBS_LEFT reaches zero, so the observer ride ends in a zero-effort ramp. -/
  | observerRideTimeout (v : Vat) (p : Fin 8)
  /-- OBSERVER_RIDE_RECOVERY (R197): The position input has been VALID for 100 ms, so the observer ride ends in normal running. -/
  | observerRideRecovery (v : Vat) (p : Fin 8)
  /-- ZERO_EFFORT_TIMEOUT (R198): The zero-effort ramp exceeds TZR, so the port enters FAULT_PATTERN with cause PFB_LOSS. -/
  | zeroEffortTimeout (v : Vat) (p : Fin 8)
  /-- RESTORATION_BROADCAST (R176): At a PER boundary the restoration source computes DFR_next and enqueues a restoration frame. For port p at its PER boundary of NT. -/
  | restorationBroadcast (p : Fin 8)
  /-- RESTORATION_LOSS (R179): No frame is accepted for 3 × PER, or NT is unsynchronised, so RLIVE clears and DFR slews to 0. -/
  | restorationLoss (p : Fin 8)
  /-- HEARTBEAT_LOST (R244): A vat's heartbeat has not toggled for 3 µs, so the other vat sets PEER_LOST_F and this vat's HBLOST. -/
  | heartbeatLost (v : Vat)
  /-- VAT_FAULT_FLAG (R245): A vat's FLT sets, so a standby is reset or an owner loses ownership. -/
  | vatFaultFlag (v : Vat) (src : Fin 8)
  /-- COMPARE_MISMATCH (R246): The comparator finds two vats differing in CSIG, reload decision, port state or pin level. -/
  | compareMismatch (kind : MismatchKind)
  /-- ATTRIBUTION_WINDOW_END (R248): 2 µs after a mismatch the fault is attributed to a vat or counted as unattributed. -/
  | attributionWindowEnd
  /-- OWNERSHIP_CLAIM (R249): An eligible standby claims the pins, and the arbiter changes OWNER under its rules. -/
  | ownershipClaim (a : Bool) (b : Bool)
  /-- PAD_MISMATCH (R250): The pad readback differs from the owner's level, which counts as the owner's FLT or raises a safety fault. -/
  | padMismatch (leg : Fin 32)
  /-- LEG_HANDOVER (R252): A leg or link passes to the new owner, and HANDOVER clears when none is pending. -/
  | legHandover (item : HandItem)
  /-- VAT_RELEASE (R256): A vat leaves VAT reset and begins joining at one common T cycle. -/
  | vatRelease (v : Vat)
  /-- JOIN_COPY_COMPLETE (R256): The engine-local memory copy to a joining vat completes. -/
  | joinCopyComplete (v : Vat)
  /-- REJOIN_TIMEOUT (R258): SYNCOK is not reached within REJOIN_TO, so the join fails. -/
  | rejoinTimeout (v : Vat)
  /-- DRILL_CHECK_WINDOW_END (R260): A drill's 10 ms check window ends, which returns ownership or decides the drill's result. -/
  | drillCheckWindowEnd
  /-- UNATTR_WINDOW_EXPIRY (R248): UNATTR_WIN passes after an unattributed mismatch, after which a later one no longer retires the standby. -/
  | unattrWindowExpiry
  /-- HARP_IN_DEMAND (R270): A Harp input or pair demands, so STO makes the permit false or SS1 starts. -/
  | harpInDemand (idx : Fin 4)
  /-- HARP_IN_RELEASE (R269): A Harp input releases its demand, which may clear a pair discrepancy. -/
  | harpInRelease (idx : Fin 4)
  /-- DISCREPANCY_TIMEOUT (R269): A pair's channels disagree for longer than DISC, so the discrepancy latches. -/
  | discrepancyTimeout (pairB : Bool)
  /-- RAIL_FAULT (R267): A Harp rail pair is equal for two cycles, so RAIL latches and the device enters SAFE_STOP. -/
  | railFault
  /-- SS1_TIMEOUT (R271): SS1_TIME elapses, so STO is applied and the device enters SAFE_STOP. -/
  | ss1Timeout
  /-- HARP_OUT_OFF_DELAY (R274): OFFDLYn after the permit becomes false, HARP_OUTn goes low. -/
  | harpOutOffDelay (n : Fin 4)
  /-- TEST_PULSE_DUE (R276): TPPER elapses for a high output, so its test pulse starts or waits for another test. -/
  | testPulseDue (n : Fin 4)
  /-- TEST_PULSE_END (R277): A test pulse ends and its feedback is judged passed or failed, with cross-connections checked. -/
  | testPulseEnd (n : Fin 4) (offOk : Bool) (onOk : Bool) (changed : BitVec 4)
  /-- FEEDBACK_ERROR (R275): HARP_FB differs from its expected level for longer than FBTIME, which raises a safety fault. -/
  | feedbackError (n : Fin 4)
  /-- RIDE_EXPIRY (R280): DG_LEFT reaches zero, so RIDEEXP_F sets and SS1 starts. -/
  | rideExpiry
  /-- ORDER_RESOLUTION (R283): At each 10 µs VT boundary the order signals are resolved and act on ports and the device. -/
  | orderResolution
  /-- RIND_RESET (R289): The Rind's own POR or watchdog resets it; it restores from the commit slots and enters METER or ERROR. `watchdog`: its cause; `romOk`, `par0`, `par1`: the ROM and each parameter copy match their CRCs; `slots`: the commit slots whose CRC matches. -/
  | rindReset (watchdog : Bool) (romOk : Bool) (par0 : Bool) (par1 : Bool) (slots : BitVec 32)
  /-- RIND_BROWNOUT_WARNING (R289): The Rind's brown-out warning writes one commit slot within 20 µs. -/
  | rindBrownoutWarning
  /-- COMMIT_SLOT (R294): Every second of MT the Rind writes a commit slot and opens or closes sessions. -/
  | commitSlot (bits : MeterBits)
  /-- RIND_PUBLICATION (R304): Every 200 ms the Rind publishes its quantities to the window mirror under PUBSEQ. -/
  | rindPublication (bits : MeterBits)
  /-- RIND_INPUT_STALE (R291): A metering input has not changed level for 4,096 MTR_CLK periods, so it is STALE and contributes zero. -/
  | rindInputStale (x : InputChange)
  /-- RIND_INTEGRITY_CHECK (R301): The hourly and daily checks of the ROM and parameter copies may rewrite a copy or take the Rind to ERROR. -/
  | rindIntegrityCheck (daily : Bool) (romOk : Bool) (par0 : Bool) (par1 : Bool)
  /-- SEAL_ACCEPT (R300): MTR_SEAL_N has been low for 10 ms, so the seal is accepted for parameter writes. -/
  | sealAccept
  /-- ENERGY_IMPULSE (R303): An impulse falls due and is emitted on MTR_PULSE, or is queued in PULSEQ. -/
  | energyImpulse
  /-- RIND_READ (R302): Port command READ returns window words. -/
  | rindRead (offset : BitVec 16) (count : BitVec 8)
  /-- RECORD (R302): Port command RECORD returns a session record. -/
  | rindRecord (session : BitVec 32)
  /-- AUDITREC (R302): Port command AUDITREC returns an audit entry. -/
  | rindAuditrec (index : BitVec 8)
  /-- SEALWR (R300): Port command SEALWR writes a sealed parameter under the seal, incrementing AUDIT. `value`: the payload after the ID. -/
  | rindSealwr (id : BitVec 8) (value : List Byte)
  /-- MTSET (R300): Port command MTSET sets MT under the seal. -/
  | rindMtset (mt : BitVec 64)
  /-- MTCORR (R299): Port command MTCORR carries a correction message, which is verified and applied within BUDGET. The message, its first byte in bits [7:0]. -/
  | rindMtcorr (msg : BitVec 768)
  /-- MAILBOX_POLL (R309): Every 100 ms of MT the Rind reads MT_MAIL and processes the correction it holds. -/
  | mailboxPoll
  /-- TAP_SAMPLE (R306): The tap decimator produces a sample and presents it to both vats. The levels of the tapped bitstream in this output period, the first in bit 0. -/
  | tapSample (bits : BitVec 128)
  /-- RIND_DOWN (R308): VDD_MTR is absent or PUBSEQ is unchanged for 1 s, so RDOWN sets. `power`: VDD_MTR is absent. -/
  | rindDown (power : Bool)
  /-- CAN_FRAME_RX (R323): A CAN frame is received and matched, authenticated and unpacked into catalogue writers. `sof` is CAN_TS at the start-of-frame bit. -/
  | canFrameRx (c : Fin 6) (f : CanFrame) (sof : BitVec 32)
  /-- RX_TIMEOUT (R324): A receive entry accepts no frame for PERIOD_MS, so its signals take their DEFAULT. Entry `e` of channel `c`'s record. -/
  | rxTimeout (c : Fin 6) (e : Fin 64)
  /-- PERIODIC_TX_DUE (R317): A periodic transmit entry falls due and is enqueued or replaced in place. Entry `e` of channel `c`'s record; `onBus`: CAN_TS at the start of the frame that its serving channel is transmitting, if any. -/
  | periodicTxDue (c : Fin 6) (e : Fin 64) (onBus : Option (BitVec 32))
  /-- EVENT_TX_CHECK (R317): At a 10 µs boundary, event-driven entries whose values changed are enqueued. -/
  | eventTxCheck
  /-- CAN_TX_COMPLETE (R315): A transmission ends acknowledged or with an acknowledgement error, updating ACKRUN and BUS_ALONE. `sof` is CAN_TS at the start-of-frame bit, `tdcv` the loop delay measured in this transmission (R313). -/
  | canTxComplete (c : Fin 6) (acked : Bool) (sof : BitVec 32) (tdcv : BitVec 7)
  /-- BUS_OFF (R314): A channel goes bus-off, which starts recovery and may retire the channel. -/
  | busOff (c : Fin 6)
  /-- BUS_OFF_RECOVERY (R314): 128 occurrences of 11 recessive bits complete bus-off recovery. -/
  | busOffRecovery (c : Fin 6)
  /-- ENTRY_MOVE (R329): At the next 10 µs boundary a retired channel's entries join channel ALT. -/
  | entryMove (c : Fin 6)
  /-- LONELY_PROBE (R315): Every 100 ms in BUS_ALONE the channel probes once with its next frame. -/
  | lonelyProbe (c : Fin 6)
  /-- ETH_FRAME_RX (R333): An Ethernet frame is received, timestamped, learned and forwarded, with transparent-clock correction. On ETHp: the bytes from the destination address to the end of the payload, without FCS; `bad`: FCS or symbols are wrong; `residence`: how long the switch itself takes from the frame's receipt to its egress queue, in ns. -/
  | ethFrameRx (p : Fin 2) (frame : List Byte) (bad : Bool) (residence : Nat) (ptp : PtpResult)
  /-- ETH_LINK_LOSS (R352): A port's link is lost, so LINK clears and NT_SYNC may clear. -/
  | ethLinkLoss (p : Fin 2)
  /-- NT_SYNC_LOSS (R336): Sync messages are missing for LOSS intervals, so NT_SYNC clears and NT holds over. -/
  | ntSyncLoss
  /-- STEP_GO (R335): A write of STEP_GO applies NT_STEP to NT if NT_SYNC is 0. -/
  | stepGo
  /-- LAUNCH_TIME_DUE (R347): A launch-time queue head falls due and launches, or is judged late. -/
  | launchTimeDue (p : Fin 2) (q : Fin 8)
  /-- CTS_REQ (R339): A write of 1 to CTS_CTL.REQ captures NT, VT, PT and MT together. -/
  | ctsReq
  /-- PPS_IN_EDGE (R351): An accepted PPS_IN edge sets PPSIN_F and takes a capture if PPSCAP = 1. `req`: a capture request falls in the same cycle. -/
  | ppsInEdge (rising : Bool) (req : Bool)
  /-- PPS_OUT_SECOND (R350): At a whole second of NT, PPS_OUT rises for PPSW ms as OMODE allows. -/
  | ppsOutSecond
  /-- INTERNAL_CROSS_CAPTURE (R340): Every 1 ms of VT, NT and PT are captured for NT-to-PT conversion. -/
  | internalCrossCapture
  /-- SERVICE_SEGMENT (R396): A service request segment arrives on CAN0 and is assembled into a message. The frame's 64 data bytes, byte 0 in bits [7:0]. -/
  | serviceSegment (seg : BitVec 512)
  /-- SERVICE_SEGMENT_TIMEOUT (R396): More than 100 ms pass between segments, so the message is discarded with STATUS 2. -/
  | serviceSegmentTimeout
  /-- HELLO (R397): Service command HELLO returns identity, an ephemeral key and a signed nonce. -/
  | hello
  /-- AUTH (R397): Service command AUTH checks a certificate and opens a session. -/
  | auth
  /-- END (R399): Service command END closes the session. -/
  | endSession
  /-- SESSION_IDLE_TIMEOUT (R399): 60 s without a request ends the service session. -/
  | sessionIdleTimeout
  /-- READ (R405): Service command READ returns 1–1,000 words. -/
  | read
  /-- WHEY_SELECT (R150): Service command WHEY_SELECT sets an engine's WADDR. -/
  | wheySelect
  /-- ORDER (R282): Service command ORDER writes an order signal for resolution. -/
  | order
  /-- SENSE_SYNC (R63): Service command SENSE_SYNC requests synchronising resets, or is refused. -/
  | senseSync
  /-- HANDOVER_DRILL (R260): Service command HANDOVER_DRILL moves ownership on purpose to prove the standby path. -/
  | handoverDrill
  /-- VAT_RESET (R254): Service command VAT_RESET resets a vat, or is refused with no eligible standby. -/
  | vatReset
  /-- SYS_RESET (R374): Service command SYS_RESET issues a SYS reset with cause 0x0C. -/
  | sysReset
  /-- SAFETY_CLEAR (R281): Service command SAFETY_CLEAR zeroes SAFE_FAULT and ends the ride if no source is present. -/
  | safetyClear
  /-- CAN_FLUSH (R318): Service command CAN_FLUSH cancels the queued frames of one channel. `won`: CAN_TS at the start of the frame that has won arbitration, if any. -/
  | canFlush (won : Option (BitVec 32))
  /-- RECOVERY_EXIT (R386): Service command RECOVERY_EXIT clears START_FAILS and issues a SYS reset. -/
  | recoveryExit
  /-- WHEEL_ERASE (R45): Service command WHEEL_ERASE erases a flash slot. -/
  | wheelErase
  /-- WHEEL_WRITE (R401): Service command WHEEL_WRITE programs and reads back data in a flash slot. `readOk`: the data reads back as written. -/
  | wheelWrite (readOk : Bool)
  /-- SAFE_CONFIRM (R49): Service command SAFE_CONFIRM confirms the safety check value and ends the restriction. -/
  | safeConfirm
  /-- MT_CORRECT (R309): Service command MT_CORRECT writes a correction message into MT_MAIL. -/
  | mtCorrect
  /-- PATCH_WRITE (R394): Service command PATCH_WRITE checks and stores a firmware patch. -/
  | patchWrite
  /-- PATCH_ERASE (R394): Service command PATCH_ERASE empties the patch area. -/
  | patchErase
  /-- CERT_REVOKE (R398): Service command CERT_REVOKE raises CERT_MIN. -/
  | certRevoke
  /-- DEBUG_UNLOCK (R402): Service command DEBUG_UNLOCK sets the JTAG debug level. -/
  | debugUnlock
  /-- DEBUG_LOCK (R402): Service command DEBUG_LOCK returns debug access to level 0. -/
  | debugLock
  /-- OWNER_XFER (R392): Service command OWNER_XFER fuses a new owner slot and revokes the old one. `fuse`: how the fusing goes. -/
  | ownerXfer (fuse : FuseResult)
  /-- DECOMMISSION (R392): Service command DECOMMISSION blows the DECOMMISSIONED fuse. -/
  | decommission
  /-- JTAG_ACCESS (R402): A JTAG debug access or instruction is performed within the debug level in force. -/
  | jtagAccess (op : JtagOp)
  /-- FIREWALL_VIOLATION (R407): A denied access is not performed and freezes its master, with the access recorded. Master `m` of R403 and its aligned word access. -/
  | firewallViolation (m : BitVec 6) (addr : BitVec 32) (dir : BusDir)
  /-- BUS_ERROR_ACCESS (R433): A narrow, unaligned, Rind-window or untargeted access returns a bus error and is logged. Master `m` of R403. -/
  | busErrorAccess (m : BitVec 6) (addr : BitVec 32) (width : AccessWidth) (write : Bool)
  /-- REGISTER_WRITE (R10): A write to a register with no row of its own applies the access codes, ignoring or logging LK changes. Master `m` of R403. -/
  | registerWrite (m : BitVec 6) (addr : BitVec 32) (data : BusData)
  /-- LOG_RECORD_WRITE (R420): A queued event record enters the log ring at HEAD, and recorder triggers are matched against it. -/
  | logRecordWrite
  /-- CAPTURE_COMPLETE (R425): POST frames have been recorded after a trigger, so the capture completes and the next segment is armed. -/
  | captureComplete
  /-- TAIL_MIRROR (R423): At most every 250 µs the mirror copies the next record from the ring to the ferroelectric tail. -/
  | tailMirror
  /-- BRINE_SCRUB (R428): Brine reads a memory word, correcting single-bit errors and clearing double-bit errors. `m` is the memory as BRINEm numbers it, `off` the byte offset. -/
  | brineScrub (m : Fin 8) (off : Nat) (r : ScrubResult)
  /-- TRIM_STAGING_COMPLETE (R380): The OTP staging copy finishes its read and check; it is copied into use and TRIM_VALID sets, or it is read again, and the third failure is a start failure. -/
  | trimStagingComplete (ok : Bool)
  /-- XSPI_RESET_RELEASE (R443): 1 ms after the release of a POR or SYS reset, XSPI_RST_N rises. -/
  | xspiResetRelease
  /-- TRIP_LEVEL_RELEASE (R220): A trip input's filtered LEVEL deasserts, so the port's TRIP cause is no longer present and clear orders may be accepted. -/
  | tripLevelRelease (v : Vat) (idx : Fin 8)
  /-- GENERATOR_EDGE (R217): The carrier crosses a leg's threshold and the generator places an edge, applying the minimum-pulse filter, counting DROPS or STRETCHES and opening blanking windows. -/
  | generatorEdge (v : Vat) (leg : Fin 32) (e : GenEdge)
  /-- BLANKING_WINDOW_CLOSE (R222): A port's blanking window reaches the end of BLKLEN and closes, clearing BLK. -/
  | blankingWindowClose (v : Vat) (p : Fin 8)
  /-- FAULT_BREAK_END (R227): A DST line held low in a fault break returns high, so BREAK clears and the break-based DRV_FAULT cause ends. -/
  | faultBreakEnd (v : Vat) (leg : Fin 32)
  /-- PAD_RECURRENCE_WINDOW_END (R250): 1 s passes after a pad-level mismatch moved ownership, so a later pad mismatch is again treated as the owner's fault. -/
  | padRecurrenceWindowEnd
  /-- CAN_ERROR_DETECTED (R314): A channel detects a bus error such as a bit, stuff, CRC or form error, updating TEC or REC and the error-active or error-passive state. -/
  | canErrorDetected (c : Fin 6) (k : CanErr)
  /-- ETH_LINK_UP (R352): An Ethernet port's link comes up, so LINK sets and the protocol may run there again. `speed`: what the PHY reports, coded as SPEED. -/
  | ethLinkUp (p : Fin 2) (speed : BitVec 2)
  /-- ANNOUNCE_RECEIPT_TIMEOUT (R342): No Announce message arrives for ANNTO intervals, so NT holds over and the best master clock algorithm chooses again. -/
  | announceReceiptTimeout (p : Fin 2)
  /-- PTP_MESSAGE_INTERVAL (R342): A LOGSYNC, LOGANN or LOGDREQ interval expires and the supervisor sends Sync, Announce or delay-request messages. -/
  | ptpMessageInterval (m : PtpMessage)
  /-- ADDRESS_AGEING (R333): A learned source address reaches 300 s without renewal and leaves the switch's table. -/
  | addressAgeing (mac : BitVec 48)
  /-- SEAL_RELEASE (R300): MTR_SEAL_N goes high, so the seal closes and SEALWR and MTSET are refused again. -/
  | sealRelease
  /-- RIND_INPUT_RETURN (R291): A STALE metering input shows 3 samples with changing level, so it becomes valid again and contributes again. -/
  | rindInputReturn (x : InputChange)
  /-- RIND_PORT_FRAME_ERROR (R302): A Rind port frame with a bad CRC or malformed framing arrives and is answered with status 2. -/
  | rindPortFrameError (frame : List Byte)
  /-- NV_STORE_REFRESH (R462): After each 1,000 h of powered time, the store controller rewrites every word of its ferroelectric store. -/
  | nvStoreRefresh
  deriving DecidableEq, Repr

end Sys2Proof
end

