-- ==== Sys2Proof/Decode.lean ====
section
/-! DEFINITION. Commands as words: spec/opcode_table.json gives no row any bits, so no word spells a command. -/

namespace Sys2Proof

def decodeTableWord (_nbits _w : Nat) : Option Instr := none

end Sys2Proof
end

