-- ==== Sys2Proof/Config.lean ====
section
/-! DEFINITION. What one silicon implementation or one manufactured part fixes and the spec leaves open: opaque constants
with no value that Lean can see. A statement about one of them holds whatever it is (notes/assumptions/1.md). -/

namespace Sys2Proof.Config

/-- The free values of the model: the n-th one drawn (State.free counts them). -/
opaque freeWord : Nat → BitVec 32

/-- The Starter ROM's bytes (20_address_map.md R431 gives its place, not its contents). -/
opaque romByte : Nat → BitVec 8

/-- The Aged preset's FIR coefficients (R55: seven taps, symmetric; taps 0-3), in units of 1 / (firUnit + 1). -/
opaque firTap : Nat → Int

opaque firUnit : Nat

/-- The ROM library's function kernels (R467): the same in every M72, otherwise not stated; the model holds each of their results
within the 1 ulp that the rule allows. -/
opaque sinKernel : Word → Word
opaque cosKernel : Word → Word
opaque atanKernel : Word → Word
opaque atan2Kernel : Word → Word → Word
opaque wrapKernel : Word → Word

/-- Identification fixed at manufacture or in ROM (R436): SILICON, ROM_VER, the serial. -/
opaque silicon : Word
opaque romVer : Word
opaque serial : BitVec 64

/-- The bytes at 0x4000-0x4FFF of the ferroelectric store, whose arrangement is the supervisor ROM's (R435): a function of the
values kept there. -/
opaque storeByte : Nat → List Nat → BitVec 8

/-- The copy of a value whose bytes stand at an offset of 0x4000-0x47FF of the ferroelectric store, in the same arrangement. -/
opaque storeCopyAt : Nat → Nat

/-- The freshness value whose bytes stand at an offset of 0x4800-0x4FFF, in the same arrangement: 0 EPOCH, else 1 + 1024 × the channel
+ the receive entry of stored upper bits; and what it is once the byte at that offset is overwritten: offset, byte, value before. -/
opaque freshItemAt : Nat → Nat
opaque freshValue : Nat → BitVec 8 → Nat → Nat

/-- What a read at a VT finds in a SECDED word (R428, R429): 1 a single-bit error, 2 a double-bit error, else none. No row of the
table of steps brings an upset. -/
opaque wordUpset : Nat → Nat → Nat

/-- VDDA lies in its range of R449 at a VT, where a fuse is blown that no operand speaks of (R464). -/
opaque vddaInRange : Nat → Bool

/-- The private P-384 key of the identity that this part's PUF rebuilds (R388). -/
opaque identityKey : Nat

/-- Field `k` of the body of a request of service command `cmd`, where the spec names the field and not its place or width
(R400): command, field, body. -/
opaque bodyField : Nat → Nat → List (BitVec 8) → Nat

/-- Whether a request 0x34 erases, and the patch image it carries (R394, R400: "flag"; no layout is stated). -/
opaque patchErases : List (BitVec 8) → Bool
opaque patchImage : List (BitVec 8) → List (BitVec 8)

/-- The code recorded for a CANKEYS record that is a second one, or whose LEN is not that of its COUNT: no rule states one (R32). -/
opaque keysFormCode : BitVec 8

/-- The code recorded for a wheel that no owner slot is left to accept in BLANK: no rule states one (R391). -/
opaque noSlotCode : BitVec 8

/-- The Barvex patch key, held in ROM (R393): X then Y. -/
opaque barvexKey : BitVec 768

/-- The n-th draw's ephemeral private key and nonce, and the number that the identity key's n-th signature draws (R397). -/
opaque ephemeralKey : Nat → Nat
opaque nonce : Nat → BitVec 256
opaque signNonce : Nat → Nat

/-- The level of HARP_FB pin `n` at a VT: an input that no row of the table of steps brings (R275). -/
opaque fbPin : Nat → Nat → Bool

/-- The device's own Ethernet address, which no rule gives. -/
opaque macAddr : BitVec 48

/-- What a frame of the device's own carries that no rule states: the Ethernet address of an IPv4 group, the IPv4 address, type of
service, identification, fragment and time-to-live fields, and the checksums of IPv4 and UDP headers (R342, R348); the PTP group
addresses, Ethernet and IPv4, for peer delay messages and for the others (R342). -/
opaque groupMac : BitVec 32 → BitVec 48
opaque ipAddr : BitVec 32
opaque ipFields : BitVec 56
opaque ipSum : List (BitVec 8) → BitVec 16
opaque ptpMac : Bool → BitVec 48
opaque ptpGroup : Bool → BitVec 32

/-- The device's clock identity and clock quality in the sense of IEEE 1588-2019 (R341). -/
opaque clockIdentity : BitVec 64
opaque clockQuality : BitVec 32

/-- The Rind's firmware version word and its mask ROM (R301), its signing key and the number its n-th signature draws (R296), and the CRC-32C of its sealed
parameters in their store layout, which is not stated (R294, R301). -/
opaque rindFw : BitVec 16
opaque rindRom : List (BitVec 8)
opaque rindKey : Nat
opaque rindNonce : Nat → Nat
/-- What the metering inputs sent between the latest metering command and a brown-out warning, which brings no bits of its own. -/
opaque lastBits : Nat → List (BitVec 2048)
opaque rindParSum : List (BitVec 32) → BitVec 32

/-- The single-bin DFT of R292 as one implementation computes it: the twiddle factor, cosine and minus sine in 2^-30, of a frequency
(binary32) and a sample's number in its window, which the model holds to one of the two integers next to the true value; the
frequency tracked after a window, from FNOM, the frequency until then and the window's phasors; and the nominal voltage's amplitude
in units of a phasor. The spec states neither that rounding nor the other two. -/
opaque rindTwiddle : BitVec 32 → Nat → Int × Int
opaque rindTrack : Nat → BitVec 32 → List (Int × Int) → BitVec 32
opaque rindNominal : Nat

/-- An audit entry's 32 bytes from its fields (R300): their places are not stated. -/
opaque auditBytes : List Nat → List (BitVec 8)

end Sys2Proof.Config
end

