-- ==== Sys2Proof/Machine/RegMap.lean ====
section
/-! DEFINITION. The register map: one row for every register of the spec's register tables (the "Bits, Field, Access,
At POR" tables of each chapter, collected by 20_address_map.md R431, R432), with the access masks of R10, the value at POR
and the parts that survive a reset (R13). The names are in `Sys2Proof.Machine.R` (Regs.lean). -/

namespace Sys2Proof.Machine

/-- How the value at POR depends on the instance: not at all, rising by a step for each instance of the first index, or
the slice-mode rule of SLICE_PHYS (03_sense_path.md: slices 0-63 serve their own channel, 64-71 are free). -/
inductive PorKind where
  | const
  | linear (step : Nat)
  | slicePhys
  deriving DecidableEq, Repr

/-- One row of the register map. `base` is an offset in the vat window or an absolute address; `dims` are
(stride, count) pairs, the widest stride first. The masks say which bits have each access code of R10; a bit in none is RO or
reserved. `keepVat`, `keepSys`, `keepPor` are the bits that survive that reset beside the LK rule of R13. -/
structure RegRow where
  base : Nat
  dims : List (Nat × Nat)
  por : Nat
  kind : PorKind
  lk : Nat
  w1c : Nat
  rw : Nat
  sv : Nat
  wo : Nat
  keepVat : Nat
  keepSys : Nat
  keepPor : Nat
  deriving DecidableEq, Repr

/-- The registers of the 64 KiB block 0x4000000 of a vat window. -/
def regBlock400 : List RegRow := [
  ⟨0x4000000, [(0x400, 8)], 0x0, .const, 0xf01f7, 0x0, 0x0, 0x0, 0x0, 0x0, 0x0, 0x0⟩,  -- PORT_CFG
  ⟨0x4000004, [(0x400, 8)], 0x83828180, .linear 0x04040404, 0x9f9f9f9f, 0x0, 0x0, 0x0, 0x0, 0x0, 0x0, 0x0⟩,  -- PORT_LEGS
  ⟨0x4000008, [(0x400, 8)], 0x1, .const, 0x0, 0x0, 0x0, 0x0, 0x0, 0xf0000, 0x0, 0x0⟩,  -- PORT_STATE
  ⟨0x4000300, [(0x400, 8)], 0x0, .const, 0xffffff07, 0x0, 0x0, 0x0, 0x0, 0x0, 0x0, 0x0⟩,  -- GRID_CFG
  ⟨0x4000304, [(0x400, 8)], 0x0, .const, 0xffffffff, 0x0, 0x0, 0x0, 0x0, 0x0, 0x0, 0x0⟩,  -- GRID_VNOM
  ⟨0x4000308, [(0x400, 8)], 0x0, .const, 0xbfbfbf, 0x0, 0x0, 0x0, 0x0, 0x0, 0x0, 0x0⟩,  -- GRID_VCH
  ⟨0x400030c, [(0x400, 8)], 0x0, .const, 0xbfbfbfbf, 0x0, 0x0, 0x0, 0x0, 0x0, 0x0, 0x0⟩,  -- GRID_ICH
  ⟨0x4000310, [(0x400, 8)], 0x0, .const, 0x8fffffff, 0x0, 0x0, 0x0, 0x0, 0x0, 0x0, 0x0⟩,  -- GRID_INST
  ⟨0x4000314, [(0x400, 8)], 0x0, .const, 0x7ff, 0x0, 0x0, 0x0, 0x0, 0x0, 0x0, 0x0⟩,  -- GRID_OLT
  ⟨0x4000318, [(0x400, 8)], 0x0, .const, 0x0, 0x1e, 0x0, 0x0, 0x0, 0x0, 0x0, 0x0⟩,  -- GRID_STAT
  ⟨0x400031c, [(0x400, 8)], 0x0, .const, 0xffffff03, 0x0, 0x0, 0x0, 0x0, 0x0, 0x0, 0x0⟩,  -- GRID_REST
  ⟨0x4000320, [(0x400, 8)], 0x0, .const, 0xffffffff, 0x0, 0x0, 0x0, 0x0, 0x0, 0x0, 0x0⟩,  -- GRID_SET
  ⟨0x4000324, [(0x400, 8)], 0x0, .const, 0xffffffff, 0x0, 0x0, 0x0, 0x0, 0x0, 0x0, 0x0⟩,  -- GRID_PER
  ⟨0x4000328, [(0x400, 8)], 0x0, .const, 0xffffffff, 0x0, 0x0, 0x0, 0x0, 0x0, 0x0, 0x0⟩,  -- GRID_KR
  ⟨0x400032c, [(0x400, 8)], 0x0, .const, 0xffffffff, 0x0, 0x0, 0x0, 0x0, 0x0, 0x0, 0x0⟩,  -- GRID_RMAX
  ⟨0x4000330, [(0x400, 8)], 0x0, .const, 0x0, 0xe, 0x0, 0x0, 0x0, 0x0, 0x0, 0x0⟩,  -- GRID_RSTAT
  ⟨0x4000334, [(0x400, 8)], 0x0, .const, 0x0, 0x0, 0x0, 0x0, 0x0, 0x0, 0x0, 0x0⟩,  -- GRID_DFR
  ⟨0x4000380, [(0x400, 8)], 0x0, .const, 0xffff001f, 0x0, 0x0, 0x0, 0x0, 0x0, 0x0, 0x0⟩,  -- DRV_CFG
  ⟨0x4000384, [(0x400, 8)], 0x0, .const, 0xffffffff, 0x0, 0x0, 0x0, 0x0, 0x0, 0x0, 0x0⟩,  -- DRV_VMASK_LO
  ⟨0x4000388, [(0x400, 8)], 0x0, .const, 0xffffffff, 0x0, 0x0, 0x0, 0x0, 0x0, 0x0, 0x0⟩,  -- DRV_VMASK_HI
  ⟨0x400038c, [(0x400, 8)], 0x0, .const, 0xffffffff, 0x0, 0x0, 0x0, 0x0, 0x0, 0x0, 0x0⟩,  -- DRV_IMASK_LO
  ⟨0x4000390, [(0x400, 8)], 0x0, .const, 0xffffffff, 0x0, 0x0, 0x0, 0x0, 0x0, 0x0, 0x0⟩,  -- DRV_IMASK_HI
  ⟨0x4000394, [(0x400, 8)], 0x0, .const, 0xffffffff, 0x0, 0x0, 0x0, 0x0, 0x0, 0x0, 0x0⟩,  -- DRV_INST
  ⟨0x4000398, [(0x400, 8)], 0x0, .const, 0xffffffff, 0x0, 0x0, 0x0, 0x0, 0x0, 0x0, 0x0⟩,  -- DRV_RATING
  ⟨0x400039c, [(0x400, 8)], 0x0, .const, 0xffffffff, 0x0, 0x0, 0x0, 0x0, 0x0, 0x0, 0x0⟩,  -- DRV_EZERO
  ⟨0x40003a0, [(0x400, 8)], 0x0, .const, 0xffffffff, 0x0, 0x0, 0x0, 0x0, 0x0, 0x0, 0x0⟩,  -- DRV_WSW
  ⟨0x40003a4, [(0x400, 8)], 0x0, .const, 0xfffffff, 0x0, 0x0, 0x0, 0x0, 0x0, 0x0, 0x0⟩,  -- DRV_OBST
  ⟨0x40003a8, [(0x400, 8)], 0x0, .const, 0x0, 0xfc, 0x0, 0x0, 0x0, 0x0, 0x0, 0x0⟩,  -- DRV_STAT
  ⟨0x4000010, [(0x400, 8)], 0xa, .const, 0xffff001f, 0x0, 0x0, 0x0, 0x0, 0x0, 0x0, 0x0⟩,  -- PORT_CARCFG
  ⟨0x4000014, [(0x400, 8)], 0x61a8, .const, 0xffff, 0x0, 0x0, 0x0, 0x0, 0x0, 0x0, 0x0⟩,  -- PORT_PERIOD
  ⟨0x4000018, [(0x400, 8)], 0x61a861a8, .const, 0xffffffff, 0x0, 0x0, 0x0, 0x0, 0x0, 0x0, 0x0⟩,  -- PORT_PERLIM
  ⟨0x400001c, [(0x400, 8)], 0x0, .const, 0xfffff, 0x0, 0x0, 0x0, 0x0, 0x0, 0x0, 0x0⟩,  -- PORT_BLKCFG
  ⟨0x4000020, [(0x400, 8)], 0x0, .const, 0x0, 0x0, 0x0, 0x0, 0x0, 0x0, 0x0, 0x0⟩,  -- PORT_TICKNUM
  ⟨0x4000024, [(0x400, 8)], 0x0, .const, 0x0, 0x0, 0x0, 0x0, 0x0, 0x0, 0x0, 0x0⟩,  -- PORT_SETTAG
  ⟨0x4000028, [(0x400, 8)], 0x61a8, .const, 0x0, 0x0, 0x0, 0x0, 0x0, 0x0, 0x0, 0x0⟩,  -- PORT_PERACT
  ⟨0x400002c, [(0x400, 8)], 0x61a8, .const, 0x0, 0x0, 0x0, 0x0, 0x0, 0x0, 0x0, 0x0⟩,  -- PORT_PERSHD
  ⟨0x4000030, [(0x400, 8)], 0x0, .const, 0x0, 0x0, 0x0, 0x0, 0x0, 0x0, 0x0, 0x0⟩,  -- PORT_PERTAG
  ⟨0x4000034, [(0x400, 8)], 0x0, .const, 0x0, 0x4, 0x0, 0x0, 0x0, 0x0, 0x0, 0x0⟩,  -- PORT_PWMSTAT
  ⟨0x4000040, [(0x400, 8)], 0x0, .const, 0xffff03, 0x0, 0x0, 0x0, 0x0, 0x0, 0x0, 0x0⟩]  -- PORT_FPCFG

/-- The registers of the 64 KiB block 0x4020000 of a vat window. -/
def regBlock402 : List RegRow := [
  ⟨0x4020000, [(0x40, 32)], 0x0, .const, 0x1f, 0x0, 0x0, 0x0, 0x0, 0x0, 0x0, 0x0⟩,  -- LEG_CFG
  ⟨0x4020004, [(0x40, 32)], 0x0, .const, 0x0, 0x0, 0x0, 0x0, 0x0, 0x0, 0x0, 0x0⟩,  -- LEG_SHD
  ⟨0x4020008, [(0x40, 32)], 0x0, .const, 0x0, 0x0, 0x0, 0x0, 0x0, 0x0, 0x0, 0x0⟩,  -- LEG_SHTAG
  ⟨0x402000c, [(0x40, 32)], 0x0, .const, 0x0, 0x0, 0x0, 0x0, 0x0, 0x0, 0x0, 0x0⟩,  -- LEG_DUTY
  ⟨0x4020010, [(0x40, 32)], 0xc3500, .const, 0x0, 0x0, 0x0, 0x0, 0x0, 0x0, 0x0, 0x0⟩,  -- LEG_CMP
  ⟨0x4020014, [(0x40, 32)], 0x0, .const, 0x0, 0x0, 0x0, 0x0, 0x0, 0x0, 0x0, 0x0⟩,  -- LEG_MINP
  ⟨0x4020018, [(0x40, 32)], 0x0, .const, 0x0, 0x0, 0x0, 0x0, 0x0, 0x0, 0x0, 0x0⟩,  -- LEG_PIN
  ⟨0x4020800, [], 0x0, .const, 0x0, 0xffff, 0x0, 0x0, 0x0, 0x0, 0x0, 0x0⟩,  -- PWM_COHERR
  ⟨0x4020900, [(0x10, 8)], 0x0, .const, 0xff03ff, 0x0, 0x0, 0x0, 0x0, 0x0, 0x0, 0x0⟩,  -- TRIP_CFG
  ⟨0x4020904, [(0x10, 8)], 0x0, .const, 0x0, 0x6, 0x0, 0x0, 0x0, 0x0, 0x0, 0x0⟩,  -- TRIP_STAT
  ⟨0x4020908, [(0x10, 8)], 0x0, .const, 0x0, 0x0, 0x0, 0x0, 0x0, 0x0, 0x0, 0x0⟩]  -- TRIP_COUNT

/-- The registers of the 64 KiB block 0x4100000 of a vat window. -/
def regBlock410 : List RegRow := [
  ⟨0x4101400, [(0x20, 8)], 0x19, .const, 0xf7fff, 0x0, 0x0, 0x0, 0x0, 0x0, 0x0, 0x0⟩,  -- SGRP_CLK
  ⟨0x4101404, [(0x20, 8)], 0x4000, .linear 0x100, 0x1, 0x4, 0x0, 0x0, 0x0, 0x2, 0x0, 0x0⟩,  -- SGRP_ROT
  ⟨0x4101408, [(0x20, 8)], 0x0, .const, 0x0, 0x0, 0x0, 0x800000ff, 0x0, 0x0, 0x0, 0x0⟩,  -- SGRP_SYNC
  ⟨0x410140c, [(0x20, 8)], 0x0, .const, 0x0, 0x2, 0x0, 0x0, 0x0, 0x0, 0x0, 0x0⟩,  -- SGRP_STAT
  ⟨0x4100000, [(0x40, 64)], 0x0, .const, 0x11ff7, 0x0, 0x0, 0x0, 0x0, 0x0, 0x0, 0x0⟩,  -- SLICE_CFG
  ⟨0x4100018, [(0x40, 64)], 0x0, .linear 0x10000, 0x0, 0xf, 0x0, 0x0, 0x0, 0x7f0000, 0x0, 0x0⟩,  -- SLICE_STAT
  ⟨0x4100020, [(0x40, 64)], 0x0, .const, 0x0, 0x0, 0x0, 0x0, 0x0, 0x0, 0x0, 0x0⟩,  -- SLICE_SEQ
  ⟨0x4100028, [(0x40, 72)], 0x0, .slicePhys, 0x0, 0x0, 0x0, 0x0, 0x0, 0x10000, 0x0, 0x0⟩,  -- SLICE_PHYS
  ⟨0x4100004, [(0x40, 64)], 0x0, .const, 0xffffffff, 0x0, 0x0, 0x0, 0x0, 0x0, 0x0, 0x0⟩,  -- SLICE_TRIM
  ⟨0x4100014, [(0x40, 64)], 0x0, .const, 0x0, 0x0, 0x0, 0x0, 0x0, 0x0, 0x0, 0x0⟩,  -- SLICE_DATA
  ⟨0x4100008, [(0x40, 64)], 0x0, .const, 0xffff8fff, 0x0, 0x0, 0x0, 0x0, 0x0, 0x0, 0x0⟩,  -- SLICE_MON
  ⟨0x410000c, [(0x40, 64)], 0x0, .const, 0xffffff0f, 0x0, 0x0, 0x0, 0x0, 0x0, 0x0, 0x0⟩,  -- SLICE_CAL
  ⟨0x4100010, [(0x40, 64)], 0x0, .const, 0xffffffff, 0x0, 0x0, 0x0, 0x0, 0x0, 0x0, 0x0⟩,  -- SLICE_RATIO
  ⟨0x410001c, [(0x40, 64)], 0x0, .const, 0x0, 0x0, 0x0, 0x0, 0x0, 0x0, 0x0, 0x0⟩,  -- SLICE_GCAL
  ⟨0x4101800, [(0x20, 16)], 0xffff, .const, 0xffb7ffff, 0x0, 0x0, 0x0, 0x0, 0x0, 0x0, 0x0⟩,  -- PP_CFG
  ⟨0x4101804, [(0x20, 16)], 0x0, .const, 0xffffffff, 0x0, 0x0, 0x0, 0x0, 0x0, 0x0, 0x0⟩,  -- PP_GAIN_A
  ⟨0x4101808, [(0x20, 16)], 0x0, .const, 0xffffffff, 0x0, 0x0, 0x0, 0x0, 0x0, 0x0, 0x0⟩,  -- PP_GAIN_B
  ⟨0x410180c, [(0x20, 16)], 0x0, .const, 0xffffffff, 0x0, 0x0, 0x0, 0x0, 0x0, 0x0, 0x0⟩,  -- PP_OFFS
  ⟨0x4101810, [(0x20, 16)], 0x0, .const, 0xffffffff, 0x0, 0x0, 0x0, 0x0, 0x0, 0x0, 0x0⟩,  -- PP_THR
  ⟨0x4101814, [(0x20, 16)], 0x0, .const, 0x0, 0x100, 0x0, 0x0, 0x0, 0x0, 0x0, 0x0⟩,  -- PP_STAT
  ⟨0x4101818, [(0x20, 16)], 0x0, .const, 0x0, 0x0, 0x0, 0x0, 0x0, 0x0, 0x0, 0x0⟩]  -- PP_LAST_D

/-- The registers of the 64 KiB block 0x4200000 of a vat window. -/
def regBlock420 : List RegRow := [
  ⟨0x4200000, [(0x400, 4)], 0x14, .const, 0x1f07ff, 0x0, 0x0, 0x0, 0x0, 0x0, 0x0, 0x0⟩,  -- AUX_CFG
  ⟨0x4200004, [(0x400, 4)], 0x0, .const, 0xffffffff, 0x0, 0x0, 0x0, 0x0, 0x0, 0x0, 0x0⟩,  -- AUX_RSEQ0
  ⟨0x4200008, [(0x400, 4)], 0x0, .const, 0xffffffff, 0x0, 0x0, 0x0, 0x0, 0x0, 0x0, 0x0⟩,  -- AUX_RSEQ1
  ⟨0x420000c, [(0x400, 4)], 0x0, .const, 0x3f77ffff, 0x0, 0x0, 0x0, 0x0, 0x0, 0x0, 0x0⟩,  -- AUX_INJ
  ⟨0x4200010, [(0x400, 4)], 0x0, .const, 0x0, 0x0, 0x0, 0x0, 0x0, 0x0, 0x0, 0x0⟩,  -- AUX_DATA
  ⟨0x4200014, [(0x400, 4)], 0x0, .const, 0x0, 0x0, 0x0, 0x0, 0x0, 0x0, 0x0, 0x0⟩,  -- AUX_PEEK
  ⟨0x4200018, [(0x400, 4)], 0x0, .const, 0x0, 0x1b, 0x0, 0x0, 0x0, 0x0, 0x0, 0x0⟩,  -- AUX_STAT
  ⟨0x420001c, [(0x400, 4)], 0x0, .const, 0xffffffff, 0x0, 0x0, 0x0, 0x0, 0x0, 0x0, 0x0⟩,  -- AUX_CODING
  ⟨0x4201000, [(0x4, 64)], 0x0, .const, 0x0, 0x0, 0x0, 0x0, 0x0, 0x0, 0x0, 0x0⟩,  -- AX
  ⟨0x4202000, [(0x40, 8)], 0x0, .const, 0xffffff7f, 0x0, 0x0, 0x0, 0x0, 0x0, 0x0, 0x0⟩,  -- POS_CFG
  ⟨0x4202004, [(0x40, 8)], 0x0, .const, 0xffffffff, 0x0, 0x0, 0x0, 0x0, 0x0, 0x0, 0x0⟩,  -- POS_COUNTS
  ⟨0x4202008, [(0x40, 8)], 0x0, .const, 0xffffffff, 0x0, 0x0, 0x0, 0x0, 0x0, 0x0, 0x0⟩,  -- POS_ZPOS
  ⟨0x420200c, [(0x40, 8)], 0x0, .const, 0xffff01ff, 0x0, 0x0, 0x0, 0x0, 0x0, 0x0, 0x0⟩,  -- POS_FZ
  ⟨0x4202010, [(0x40, 8)], 0x0, .const, 0x0, 0x0, 0x0, 0x0, 0x0, 0x0, 0x0, 0x0⟩,  -- POS_COUNT
  ⟨0x4202014, [(0x40, 8)], 0x0, .const, 0x0, 0x0, 0x0, 0x0, 0x0, 0x0, 0x0, 0x0⟩,  -- POS_TEDGE
  ⟨0x4202018, [(0x40, 8)], 0x0, .const, 0x0, 0xf0, 0x0, 0x0, 0x0, 0x0, 0x0, 0x0⟩]  -- POS_STAT

/-- The registers of the 64 KiB block 0x4300000 of a vat window. -/
def regBlock430 : List RegRow := [
  ⟨0x4300000, [(0x1000, 8)], 0x0, .const, 0x0, 0x8, 0x0, 0x0, 0x0, 0x4, 0x0, 0x0⟩,  -- CE_STAT
  ⟨0x4300004, [(0x1000, 8)], 0x32, .const, 0xff, 0x0, 0x0, 0x0, 0x0, 0x0, 0x0, 0x0⟩,  -- CE_STPER
  ⟨0x4300008, [(0x1000, 8)], 0x0, .const, 0x0, 0x0, 0x0, 0x0, 0x0, 0x0, 0x0, 0x0⟩,  -- CE_LOAD
  ⟨0x430000c, [(0x1000, 8)], 0x0, .const, 0x0, 0x0, 0x0, 0x0, 0x0, 0x0, 0x0, 0x0⟩,  -- CE_WORDS
  ⟨0x4300010, [(0x1000, 8)], 0x0, .const, 0x0, 0xfff, 0x0, 0x0, 0x0, 0x0, 0x0, 0x0⟩,  -- CE_TICKSTAT
  ⟨0x4300100, [(0x1000, 8), (0x20, 4)], 0x0, .const, 0x0, 0x0, 0x0, 0x0, 0x0, 0x0, 0x0, 0x0⟩,  -- GS_BIND
  ⟨0x4300104, [(0x1000, 8), (0x20, 4)], 0x0, .const, 0x0, 0x0, 0x0, 0x0, 0x0, 0x0, 0x0, 0x0⟩,  -- GS_COST
  ⟨0x4300108, [(0x1000, 8), (0x20, 4)], 0x0, .const, 0x0, 0x0, 0x0, 0x0, 0x0, 0x0, 0x0, 0x0⟩,  -- GS_TICK
  ⟨0x430010c, [(0x1000, 8), (0x20, 4)], 0x0, .const, 0x0, 0x0, 0x0, 0x0, 0x0, 0x0, 0x0, 0x0⟩,  -- GS_OUT
  ⟨0x4300110, [(0x1000, 8), (0x20, 4)], 0x0, .const, 0x0, 0x0, 0x0, 0x0, 0x0, 0x0, 0x0, 0x0⟩,  -- GS_MISSES
  ⟨0x4300200, [(0x1000, 8), (0x40, 4), (0x10, 4)], 0x0, .const, 0x803fffff, 0x0, 0x0, 0x0, 0x0, 0x0, 0x0, 0x0⟩,  -- MDL_CFG
  ⟨0x4300204, [(0x1000, 8), (0x40, 4), (0x10, 4)], 0x0, .const, 0xffffffff, 0x0, 0x0, 0x0, 0x0, 0x0, 0x0, 0x0⟩]  -- MDL_IFS

/-- The registers of the 64 KiB block 0x4380000 of a vat window. -/
def regBlock438 : List RegRow := [
  ⟨0x4380000, [(0x1000, 8), (0x200, 4)], 0x0, .const, 0x0, 0x0, 0x0, 0x0, 0x0, 0x0, 0x0, 0x0⟩,  -- WHEY_STAT
  ⟨0x4380004, [(0x1000, 8), (0x200, 4)], 0x0, .const, 0x0, 0x0, 0x0, 0x0, 0x0, 0x0, 0x0, 0x0⟩,  -- WHEY_TICK
  ⟨0x4380008, [(0x1000, 8), (0x200, 4)], 0x0, .const, 0x0, 0x0, 0x0, 0x0, 0x0, 0x0, 0x0, 0x0⟩,  -- WHEY_NCOMMIT
  ⟨0x438000c, [(0x1000, 8), (0x200, 4)], 0x0, .const, 0x0, 0x0, 0x0, 0x0, 0x0, 0x0, 0x0, 0x0⟩,  -- WHEY_NSQUASH
  ⟨0x4380010, [(0x1000, 8), (0x200, 4)], 0x0, .const, 0x0, 0x0, 0x0, 0x0, 0x0, 0x0, 0x0, 0x0⟩,  -- WHEY_NDEFER
  ⟨0x4380014, [(0x1000, 8), (0x200, 4)], 0x0, .const, 0x0, 0x0, 0x0, 0x0, 0x0, 0x0, 0x0, 0x0⟩,  -- WHEY_NPLAIN
  ⟨0x4380018, [(0x1000, 8), (0x200, 4)], 0x0, .const, 0x0, 0x0, 0x0, 0x0, 0x0, 0x0, 0x0, 0x0⟩,  -- WHEY_SIZE
  ⟨0x438001c, [(0x1000, 8), (0x200, 4)], 0x0, .const, 0x0, 0x0, 0x0, 0x0, 0x0, 0x0, 0x0, 0x0⟩,  -- WHEY_BASE
  ⟨0x4380040, [(0x1000, 8), (0x200, 4), (0x10, 16)], 0x0, .const, 0x0, 0x0, 0x0, 0x0, 0x0, 0x0, 0x0, 0x0⟩,  -- WE_CFG
  ⟨0x4380044, [(0x1000, 8), (0x200, 4), (0x10, 16)], 0x0, .const, 0x0, 0x0, 0x0, 0x0, 0x0, 0x0, 0x0, 0x0⟩,  -- WE_TOL
  ⟨0x4380048, [(0x1000, 8), (0x200, 4), (0x10, 16)], 0x0, .const, 0x0, 0x0, 0x0, 0x0, 0x0, 0x0, 0x0, 0x0⟩,  -- WE_XHAT
  ⟨0x438004c, [(0x1000, 8), (0x200, 4), (0x10, 16)], 0x0, .const, 0x0, 0x0, 0x0, 0x0, 0x0, 0x0, 0x0, 0x0⟩,  -- WE_RESID
  ⟨0x4380800, [(0x1000, 8)], 0x0, .const, 0x0, 0x0, 0x1fff, 0x0, 0x0, 0x0, 0x0, 0x0⟩,  -- WADDR
  ⟨0x4380804, [(0x1000, 8)], 0x0, .const, 0x0, 0x0, 0x0, 0x0, 0x0, 0x0, 0x0, 0x0⟩,  -- WDATA_LO
  ⟨0x4380808, [(0x1000, 8)], 0x0, .const, 0x0, 0x0, 0x0, 0x0, 0x0, 0x0, 0x0, 0x0⟩]  -- WDATA_HI

/-- The registers of the 64 KiB block 0x4400000 of a vat window. -/
def regBlock440 : List RegRow := [
  ⟨0x4400000, [(0x10, 16)], 0x0, .const, 0xfffff001, 0x0, 0x0, 0x0, 0x0, 0x0, 0x0, 0x0⟩,  -- FW_BASE
  ⟨0x4400004, [(0x10, 16)], 0x0, .const, 0xfffff000, 0x0, 0x0, 0x0, 0x0, 0x0, 0x0, 0x0⟩,  -- FW_LIMIT
  ⟨0x4400008, [(0x10, 16)], 0x0, .const, 0xff, 0x0, 0x0, 0x0, 0x0, 0x0, 0x0, 0x0⟩,  -- FW_RMASK
  ⟨0x4400100, [], 0x0, .const, 0x0, 0x0, 0x0, 0x0, 0x0, 0x0, 0x0, 0x0⟩,  -- FW_FROZEN
  ⟨0x4400104, [], 0x0, .const, 0x0, 0x0, 0x0, 0x0, 0x0, 0xffffffff, 0x0, 0x0⟩,  -- FW_ADDR
  ⟨0x4400108, [], 0x0, .const, 0x0, 0x40, 0x0, 0x0, 0x0, 0xffff004f, 0x0, 0x0⟩]  -- FW_INFO

/-- The registers of the 64 KiB block 0x4500000 of a vat window. -/
def regBlock450 : List RegRow := [
  ⟨0x4500000, [], 0x3, .const, 0x0, 0x0, 0x0, 0x0, 0x0, 0xf0000, 0x0, 0x0⟩,  -- VAT_ROLE
  ⟨0x4500004, [], 0x0, .const, 0x0, 0x1, 0x0, 0x0, 0x0, 0x0, 0x0, 0x0⟩,  -- VAT_HB
  ⟨0x4500008, [], 0x0, .const, 0x0, 0x80, 0x0, 0x0, 0x0, 0xffff0000, 0x0, 0x0⟩]  -- VAT_JOIN

/-- The registers of the 64 KiB block 0x4600000 of a vat window. -/
def regBlock460 : List RegRow := [
  ⟨0x4600000, [(0x20, 32)], 0x2864050, .const, 0xfffffff, 0x0, 0x0, 0x0, 0x0, 0x0, 0x0, 0x0⟩,  -- DLR_CFG
  ⟨0x4600004, [(0x20, 32)], 0x0, .const, 0x0, 0x0, 0x0, 0x0, 0x0, 0x0, 0x0, 0x0⟩,  -- DLR_FRAME
  ⟨0x4600008, [(0x20, 32)], 0x0, .const, 0x0, 0x1f0, 0x0, 0x0, 0x0, 0x0, 0x0, 0x0⟩,  -- DLR_STAT
  ⟨0x460000c, [(0x20, 32)], 0x0, .const, 0x0, 0x0, 0x0, 0x0, 0x0, 0x0, 0x0, 0x0⟩,  -- DLR_CNT
  ⟨0x4600010, [(0x20, 32)], 0x0, .const, 0x0, 0x0, 0x0, 0x0, 0x0, 0x0, 0x0, 0x0⟩]  -- DLR_H

/-- The registers of the 64 KiB block 0x40000000. -/
def regBlock4000 : List RegRow := [
  ⟨0x40000000, [], 0x0, .const, 0x0, 0x0, 0x0, 0x0, 0x0, 0x0, 0x0, 0x0⟩,  -- CLK_STAT
  ⟨0x40000004, [], 0x0, .const, 0x0, 0xff, 0x0, 0x0, 0x0, 0x0, 0x88, 0x0⟩,  -- CLK_FLAGS
  ⟨0x40000008, [], 0x0, .const, 0x0, 0x0, 0x0, 0x0, 0x0, 0x0, 0x0, 0x0⟩,  -- CLK_PHASE
  ⟨0x40000010, [], 0x0, .const, 0x1f03, 0x0, 0x0, 0x0, 0x0, 0x0, 0x0, 0x0⟩,  -- VAT_SSC
  ⟨0x40000014, [], 0x0, .const, 0xfff1, 0x0, 0x0, 0x0, 0x0, 0x0, 0x0, 0x0⟩,  -- PLLT_RAMP
  ⟨0x40000018, [], 0x0, .const, 0x0, 0x0, 0x0, 0x0, 0x0, 0x0, 0x0, 0x0⟩,  -- PLLT_DEV
  ⟨0x40000020, [(0x4, 4)], 0x0, .const, 0x1ff3f, 0x0, 0x0, 0x0, 0x0, 0x0, 0x0, 0x0⟩,  -- CKO_CFG
  ⟨0x40000040, [(0x4, 8)], 0x0, .const, 0xf, 0x0, 0x0, 0x0, 0x0, 0x0, 0x0, 0x0⟩,  -- MCLK_CFG
  ⟨0x40000060, [(0x4, 12)], 0x0, .const, 0xfff, 0x0, 0x0, 0x0, 0x0, 0x0, 0x0, 0x0⟩]  -- SYN

/-- The registers of the 64 KiB block 0x40010000. -/
def regBlock4001 : List RegRow := [
  ⟨0x40010100, [], 0xffff00, .const, 0x0, 0x0, 0x0, 0x0, 0x0, 0x0, 0x70, 0x70⟩,  -- WHL_STAT
  ⟨0x40010104, [], 0x0, .const, 0x0, 0x0, 0x0, 0x0, 0x0, 0x0, 0x0, 0x0⟩,  -- WHL_ID
  ⟨0x40010108, [], 0x0, .const, 0x0, 0x0, 0x0, 0x0, 0x0, 0x0, 0x0, 0x0⟩,  -- WHL_VER_LO
  ⟨0x4001010c, [], 0x0, .const, 0x0, 0x0, 0x0, 0x0, 0x0, 0x0, 0x0, 0x0⟩,  -- WHL_VER_HI
  ⟨0x40010110, [], 0x0, .const, 0x0, 0x0, 0x0, 0x0, 0x0, 0x0, 0xffffffff, 0xffffffff⟩,  -- WHL_FLOOR_LO
  ⟨0x40010114, [], 0x0, .const, 0x0, 0x0, 0x0, 0x0, 0x0, 0x0, 0xffffffff, 0xffffffff⟩,  -- WHL_FLOOR_HI
  ⟨0x40010118, [], 0x0, .const, 0x0, 0x0, 0x0, 0x0, 0x0, 0x0, 0x0, 0x0⟩,  -- SAFE_CRC
  ⟨0x4001011c, [], 0x0, .const, 0x0, 0x0, 0x0, 0x0, 0x0, 0x0, 0xffffffff, 0xffffffff⟩,  -- SAFE_CONF0
  ⟨0x40010120, [], 0x0, .const, 0x0, 0x0, 0x0, 0x0, 0x0, 0x0, 0xffffffff, 0xffffffff⟩,  -- SAFE_CONF1
  ⟨0x40010000, [], 0x1, .const, 0x0, 0x0, 0x0, 0x0, 0x0, 0x0, 0x0, 0x0⟩,  -- DEV_STATE
  ⟨0x40010004, [], 0x401, .const, 0x0, 0x0, 0x0, 0x0, 0x0, 0x0, 0xffff0fff, 0x0⟩,  -- RST_CAUSE
  ⟨0x40010008, [], 0x0, .const, 0x0, 0x0, 0x0, 0x0, 0x0, 0x0, 0xf, 0xf⟩,  -- START_FAILS
  ⟨0x4001000c, [], 0x0, .const, 0x0, 0x1, 0x0, 0x0, 0x0, 0x0, 0xffff0001, 0x0⟩,  -- HELD_RESET
  ⟨0x40010010, [], 0x0, .const, 0x0, 0x0, 0x0, 0x0, 0x0, 0x0, 0x0, 0x0⟩,  -- START_STAT
  ⟨0x40010014, [], 0x0, .const, 0x0, 0x0, 0x0, 0x3, 0x0, 0x0, 0x0, 0x0⟩]  -- RST_REQ

/-- The registers of the 64 KiB block 0x40020000. -/
def regBlock4002 : List RegRow := [
  ⟨0x40020000, [], 0x0, .const, 0x0, 0x0, 0x0, 0x0, 0x0, 0x0, 0x0, 0x0⟩,  -- OWN_STAT
  ⟨0x40020004, [], 0x0, .const, 0x0, 0x0, 0x0, 0x0, 0x0, 0x0, 0x0, 0x0⟩,  -- OWN_LEGPEND
  ⟨0x40020008, [], 0x643c03, .const, 0x3ffff0f, 0x0, 0x0, 0x0, 0x0, 0x0, 0x0, 0x0⟩,  -- OWN_CFG
  ⟨0x4002000c, [], 0x0, .const, 0xffff, 0x0, 0x0, 0x0, 0x0, 0x0, 0x0, 0x0⟩,  -- OWN_FP
  ⟨0x40020010, [], 0x0, .const, 0x0, 0x7f, 0x0, 0x0, 0x0, 0x0, 0x0, 0x0⟩,  -- OWN_MMF
  ⟨0x40020014, [], 0x0, .const, 0x0, 0x0, 0x0, 0x0, 0x0, 0x0, 0x0, 0x0⟩,  -- OWN_MMINFO
  ⟨0x40020018, [], 0x0, .const, 0x0, 0x0, 0x0, 0x0, 0x0, 0x0, 0x0, 0x0⟩,  -- OWN_MMTICK
  ⟨0x4002001c, [], 0x0, .const, 0x0, 0x7, 0x0, 0x0, 0x0, 0x0, 0x0, 0x0⟩,  -- OWN_DRILL
  ⟨0x40020020, [], 0x0, .const, 0x0, 0x0, 0x0, 0x0, 0x0, 0x0, 0x0, 0x0⟩]  -- OWN_DEG

/-- The registers of the 64 KiB block 0x40030000. -/
def regBlock4003 : List RegRow := [
  ⟨0x40030000, [], 0x0, .const, 0x0, 0x0, 0x0, 0x0, 0x0, 0x0, 0x0, 0x0⟩,  -- HARP_STAT
  ⟨0x40030004, [], 0x6400fa, .const, 0xffff3fff, 0x0, 0x0, 0x0, 0x0, 0x0, 0x0, 0x0⟩,  -- HARP_CFG
  ⟨0x40030010, [(0x4, 4)], 0x0, .const, 0xfffffff7, 0x0, 0x0, 0x0, 0x0, 0x0, 0x0, 0x0⟩,  -- HARP_OUT
  ⟨0x40030020, [], 0x0, .const, 0xffffffff, 0x0, 0x0, 0x0, 0x0, 0x0, 0x0, 0x0⟩,  -- HARP_OUTDLY
  ⟨0x40030024, [], 0x1388078, .const, 0xffff7ff, 0x0, 0x0, 0x0, 0x0, 0x0, 0x0, 0x0⟩,  -- SAFE_CFG
  ⟨0x40030028, [], 0x0, .const, 0x0, 0x0, 0x0, 0x0, 0x0, 0x0, 0x0, 0x0⟩,  -- SAFE_STAT
  ⟨0x4003002c, [], 0x0, .const, 0x0, 0xfff, 0x0, 0x0, 0x0, 0x0, 0x0, 0x0⟩,  -- SAFE_FLAGS
  ⟨0x40030030, [], 0x0, .const, 0x0, 0x0, 0x0, 0x0, 0x0, 0x0, 0x0, 0x0⟩,  -- HARP_CNT
  ⟨0x40030034, [], 0x0, .const, 0x0, 0x0, 0x0, 0x0, 0x0, 0x0, 0x0, 0x0⟩,  -- ORD_LOST
  ⟨0x40030038, [], 0x0, .const, 0x0, 0x0, 0x0, 0x0, 0x0, 0x0, 0x0, 0x0⟩,  -- SAFE_FAULT
  ⟨0x4003003c, [], 0x7, .const, 0x7, 0x0, 0x0, 0x0, 0x0, 0x0, 0x0, 0x0⟩]  -- ORD_CFG

/-- The registers of the 64 KiB block 0x40100000. -/
def regBlock4010 : List RegRow := [
  ⟨0x40100000, [(0x1000, 6)], 0x4000, .const, 0xff0fff03, 0x0, 0x0, 0x0, 0x0, 0x0, 0x0, 0x0⟩,  -- CAN_CFG
  ⟨0x40100004, [(0x1000, 6)], 0x10103f01, .const, 0x7f7fff3f, 0x0, 0x0, 0x0, 0x0, 0x0, 0x0, 0x0⟩,  -- CAN_BTNOM
  ⟨0x40100008, [(0x1000, 6)], 0x4040b01, .const, 0xf0f1f3f, 0x0, 0x0, 0x0, 0x0, 0x0, 0x0, 0x0⟩,  -- CAN_BTDATA
  ⟨0x4010000c, [(0x1000, 6)], 0x0, .const, 0xff, 0x0, 0x0, 0x0, 0x0, 0x0, 0x0, 0x0⟩,  -- CAN_TDC
  ⟨0x40100010, [(0x1000, 6)], 0x0, .const, 0x0, 0x0, 0x0, 0x0, 0x0, 0x0, 0x0, 0x0⟩,  -- CAN_STAT
  ⟨0x40100014, [(0x1000, 6)], 0x0, .const, 0x0, 0x1ff, 0x0, 0x0, 0x0, 0x0, 0x0, 0x0⟩,  -- CAN_FLAGS
  ⟨0x40100018, [(0x1000, 6)], 0x0, .const, 0x0, 0x0, 0x0, 0x0, 0x0, 0x0, 0x0, 0x0⟩,  -- CAN_CNT
  ⟨0x4010001c, [(0x1000, 6)], 0x0, .const, 0x0, 0x0, 0x0, 0x0, 0x0, 0x0, 0x0, 0x0⟩,  -- CAN_ERRS
  ⟨0x40100020, [(0x1000, 6)], 0x0, .const, 0x0, 0x0, 0x0, 0x0, 0x0, 0x0, 0x0, 0x0⟩,  -- CAN_TXQ
  ⟨0x40100024, [(0x1000, 6)], 0x0, .const, 0x0, 0x0, 0x0, 0x0, 0x0, 0x0, 0x0, 0x0⟩,  -- CAN_TSNOW
  ⟨0x40100400, [(0x1000, 6), (0x8, 64)], 0x0, .const, 0x0, 0x0, 0x0, 0x0, 0x0, 0x0, 0x0, 0x0⟩,  -- CANE_TS
  ⟨0x40100404, [(0x1000, 6), (0x8, 64)], 0x0, .const, 0x0, 0x0, 0x0, 0x0, 0x0, 0x0, 0x0, 0x0⟩,  -- CANE_STAT
  ⟨0x40108000, [(0x10, 1024)], 0x0, .const, 0x1fffff1f, 0x0, 0x0, 0x0, 0x0, 0x0, 0x0, 0x0⟩,  -- SIGDEF
  ⟨0x40108004, [(0x10, 1024)], 0x0, .const, 0xffffffff, 0x0, 0x0, 0x0, 0x0, 0x0, 0x0, 0x0⟩,  -- SIGDEF_ADDR
  ⟨0x40108008, [(0x10, 1024)], 0x0, .const, 0xffffffff, 0x0, 0x0, 0x0, 0x0, 0x0, 0x0, 0x0⟩,  -- SIGDEF_SCALE
  ⟨0x4010800c, [(0x10, 1024)], 0x0, .const, 0xffffffff, 0x0, 0x0, 0x0, 0x0, 0x0, 0x0, 0x0⟩]  -- SIGDEF_OFFSET

/-- The registers of the 64 KiB block 0x40200000. -/
def regBlock4020 : List RegRow := [
  ⟨0x40200000, [(0x100, 2)], 0x0, .const, 0xffff1f, 0x0, 0x0, 0x0, 0x0, 0x0, 0x0, 0x0⟩,  -- ETH_CFG
  ⟨0x40200004, [(0x100, 2)], 0x0, .const, 0x0, 0x18, 0x0, 0x0, 0x0, 0x0, 0x0, 0x0⟩,  -- ETH_STAT
  ⟨0x40200040, [(0x100, 2), (0x4, 8)], 0x0, .const, 0xff03, 0x0, 0x0, 0x0, 0x0, 0x0, 0x0, 0x0⟩,  -- ETH_LTQ
  ⟨0x40200800, [], 0x80800002, .const, 0xffffffff, 0x0, 0x0, 0x0, 0x0, 0x0, 0x0, 0x0⟩,  -- PTP_CFG
  ⟨0x40200804, [], 0x30001fd, .const, 0xffffffff, 0x0, 0x0, 0x0, 0x0, 0x0, 0x0, 0x0⟩,  -- PTP_INT
  ⟨0x40200808, [], 0x640303e8, .const, 0xffffffff, 0x0, 0x0, 0x0, 0x0, 0x0, 0x0, 0x0⟩,  -- SYNC_CFG
  ⟨0x4020080c, [], 0x88b5, .const, 0xffffffff, 0x0, 0x0, 0x0, 0x0, 0x0, 0x0, 0x0⟩,  -- REST_ETYPE
  ⟨0x40200810, [], 0x0, .const, 0xffffffff, 0x0, 0x0, 0x0, 0x0, 0x0, 0x0, 0x0⟩,  -- REST_DST
  ⟨0x40200814, [], 0x0, .const, 0xffffffff, 0x0, 0x0, 0x0, 0x0, 0x0, 0x0, 0x0⟩,  -- REST_MAC_LO
  ⟨0x40200818, [], 0x0, .const, 0xffff, 0x0, 0x0, 0x0, 0x0, 0x0, 0x0, 0x0⟩,  -- REST_MAC_HI
  ⟨0x4020081c, [], 0xc807, .const, 0x3ff07, 0x0, 0x0, 0x0, 0x0, 0x0, 0x0, 0x0⟩,  -- REST_Q
  ⟨0x40200820, [], 0x0, .const, 0x0, 0x0, 0x0, 0x0, 0x0, 0x0, 0x0, 0x0⟩]  -- TC_STAT

/-- The registers of the 64 KiB block 0x40300000. -/
def regBlock4030 : List RegRow := [
  ⟨0x40300000, [], 0x0, .const, 0x0, 0x0, 0x0, 0x0, 0x0, 0x0, 0x0, 0x0⟩,  -- NT_LO
  ⟨0x40300004, [], 0x0, .const, 0x0, 0x0, 0x0, 0x0, 0x0, 0x0, 0x0, 0x0⟩,  -- NT_HI
  ⟨0x40300008, [], 0x0, .const, 0x0, 0x0, 0x0, 0xffffffff, 0x0, 0x0, 0x0, 0x0⟩,  -- NT_FREQ
  ⟨0x4030000c, [], 0x0, .const, 0x0, 0x0, 0x0, 0xffffffff, 0x0, 0x0, 0x0, 0x0⟩,  -- NT_STEP_LO
  ⟨0x40300010, [], 0x0, .const, 0x0, 0x0, 0x0, 0xffffffff, 0x0, 0x0, 0x0, 0x0⟩,  -- NT_STEP_HI
  ⟨0x40300014, [], 0x0, .const, 0x0, 0x0, 0x0, 0x1, 0x0, 0x0, 0x0, 0x0⟩,  -- NT_CTL
  ⟨0x40300018, [], 0x0, .const, 0x0, 0x30, 0x0, 0x0, 0x0, 0x0, 0x0, 0x0⟩,  -- NT_STAT
  ⟨0x40300020, [], 0x0, .const, 0x0, 0x0, 0x0, 0x0, 0x0, 0x0, 0xffffffff, 0x0⟩,  -- VT_LO
  ⟨0x40300024, [], 0x0, .const, 0x0, 0x0, 0x0, 0x0, 0x0, 0x0, 0xffffffff, 0x0⟩,  -- VT_HI
  ⟨0x40300028, [], 0x0, .const, 0x0, 0x0, 0x0, 0x0, 0x0, 0x0, 0x0, 0x0⟩,  -- PT_LO
  ⟨0x4030002c, [], 0x0, .const, 0x0, 0x0, 0x0, 0x0, 0x0, 0x0, 0x0, 0x0⟩,  -- PT_HI
  ⟨0x40300040, [], 0x0, .const, 0x6, 0x0, 0x0, 0x0, 0x1, 0x0, 0x0, 0x0⟩,  -- CTS_CTL
  ⟨0x40300044, [], 0x0, .const, 0x0, 0x0, 0x0, 0x0, 0x0, 0x0, 0x0, 0x0⟩,  -- CTS_STAT
  ⟨0x40300048, [(0x4, 6)], 0x0, .const, 0x0, 0x0, 0x0, 0x0, 0x0, 0x0, 0x0, 0x0⟩,  -- CTS_CAP
  ⟨0x40300060, [], 0x0, .const, 0x0, 0x0, 0x0, 0x0, 0x0, 0x0, 0x0, 0x0⟩,  -- CTS_MT_LO
  ⟨0x40300064, [], 0x0, .const, 0x0, 0x0, 0x0, 0x0, 0x0, 0x0, 0x0, 0x0⟩,  -- CTS_MT_HI
  ⟨0x40300068, [], 0x0, .const, 0x0, 0x0, 0x0, 0x0, 0x0, 0x0, 0x0, 0x0⟩,  -- CTS_MTFRAC
  ⟨0x40300070, [], 0x190, .const, 0x7ff, 0x0, 0x0, 0x0, 0x0, 0x0, 0x0, 0x0⟩,  -- PPS_CFG
  ⟨0x40300074, [], 0x0, .const, 0x0, 0x1, 0x0, 0x0, 0x0, 0x0, 0x0, 0x0⟩]  -- PPS_STAT

/-- The registers of the 64 KiB block 0x40400000. -/
def regBlock4040 : List RegRow := [
  ⟨0x40400000, [], 0x0, .const, 0x0, 0x0, 0x0, 0x0, 0x0, 0x0, 0x4, 0x0⟩,  -- TRUST_STAT
  ⟨0x40400004, [], 0x0, .const, 0x0, 0x7, 0x0, 0x0, 0x0, 0x0, 0x0, 0x0⟩,  -- TRUST_FLAGS
  ⟨0x40400040, [(0x4, 24)], 0x0, .const, 0x0, 0x0, 0x0, 0x0, 0x0, 0x0, 0x0, 0x0⟩,  -- DEVID_PUB
  ⟨0x404000a0, [(0x4, 12)], 0x0, .const, 0x0, 0x0, 0x0, 0x0, 0x0, 0x0, 0x0, 0x0⟩,  -- OWNER_HASH
  ⟨0x40400100, [], 0x0, .const, 0x0, 0x0, 0x0, 0x0, 0x0, 0x0, 0x0, 0x0⟩,  -- PATCH_STAT
  ⟨0x40400104, [(0x4, 2)], 0x0, .const, 0x0, 0x0, 0x0, 0x0, 0x0, 0x0, 0x0, 0x0⟩,  -- PVER
  ⟨0x4040010c, [(0x4, 2)], 0x0, .const, 0x0, 0x0, 0x0, 0x0, 0x0, 0x0, 0xffffffff, 0xffffffff⟩,  -- PATCH_FLOOR
  ⟨0x40400114, [], 0x0, .const, 0x0, 0x0, 0x0, 0x0, 0x0, 0x0, 0xffffffff, 0xffffffff⟩,  -- CERT_MIN
  ⟨0x40400200, [], 0x0, .const, 0x0, 0x0, 0x0, 0x0, 0x0, 0x0, 0x0, 0x0⟩,  -- CFW_FROZEN
  ⟨0x40400204, [], 0x0, .const, 0x0, 0x0, 0x0, 0x0, 0x0, 0x0, 0x0, 0x0⟩,  -- CFW_ADDR
  ⟨0x40400208, [], 0x0, .const, 0x0, 0x80, 0x0, 0x0, 0x0, 0x0, 0x0, 0x0⟩]  -- CFW_INFO

/-- The registers of the 64 KiB block 0x40500000. -/
def regBlock4050 : List RegRow := [
  ⟨0x40500000, [], 0x0, .const, 0x0, 0x0, 0x0, 0x0, 0x0, 0x0, 0x0, 0x0⟩,  -- LOG_HEAD
  ⟨0x40500004, [], 0x0, .const, 0x0, 0x1, 0x0, 0x0, 0x0, 0x0, 0x0, 0x0⟩,  -- LOG_STAT
  ⟨0x40500008, [], 0x0, .const, 0x0, 0x0, 0x0, 0x0, 0x0, 0x0, 0xc00, 0xc00⟩,  -- LOG_TAIL
  ⟨0x40500100, [], 0x0, .const, 0xffff3f7f, 0x0, 0x0, 0x0, 0x0, 0x0, 0x0, 0x0⟩,  -- REC_CFG
  ⟨0x40500104, [], 0x0, .const, 0xffff, 0x0, 0x0, 0x0, 0x0, 0x0, 0x0, 0x0⟩,  -- REC_POST
  ⟨0x40500108, [(0x4, 8)], 0x0, .const, 0xffffffff, 0x0, 0x0, 0x0, 0x0, 0x0, 0x0, 0x0⟩,  -- REC_CH
  ⟨0x40500130, [(0x8, 4)], 0x0, .const, 0xffffffff, 0x0, 0x0, 0x0, 0x0, 0x0, 0x0, 0x0⟩,  -- REC_TRIG
  ⟨0x40500134, [(0x8, 4)], 0x0, .const, 0x3ff, 0x0, 0x0, 0x0, 0x0, 0x0, 0x0, 0x0⟩,  -- REC_TRIGSRC
  ⟨0x40500150, [], 0x0, .const, 0x0, 0x0, 0x0, 0x0, 0x0, 0x0, 0x0, 0x0⟩,  -- REC_STAT
  ⟨0x40500200, [(0x10, 8)], 0x0, .const, 0x0, 0x0, 0x0, 0x0, 0x0, 0x0, 0x0, 0x0⟩,  -- BRINE_SBE
  ⟨0x40500204, [(0x10, 8)], 0x0, .const, 0x0, 0x0, 0x0, 0x0, 0x0, 0x0, 0x0, 0x0⟩,  -- BRINE_DBE
  ⟨0x40500208, [(0x10, 8)], 0x0, .const, 0x0, 0x0, 0x0, 0x0, 0x0, 0x0, 0x0, 0x0⟩,  -- BRINE_LAST
  ⟨0x4050020c, [(0x10, 8)], 0x0, .const, 0x0, 0x3, 0x0, 0x0, 0x0, 0x0, 0x0, 0x0⟩]  -- BRINE_FLAGS

/-- The registers of the 64 KiB block 0x40700000. -/
def regBlock4070 : List RegRow := [
  ⟨0x40700000, [], 0xb720001, .const, 0x0, 0x0, 0x0, 0x0, 0x0, 0x0, 0x0, 0x0⟩,  -- DEVICE_ID
  ⟨0x40700004, [], 0x0, .const, 0x0, 0x0, 0x0, 0x0, 0x0, 0x0, 0x0, 0x0⟩,  -- SILICON
  ⟨0x40700008, [], 0x0, .const, 0x0, 0x0, 0x0, 0x0, 0x0, 0x0, 0x0, 0x0⟩,  -- ROM_VER
  ⟨0x4070000c, [], 0x2003, .const, 0x0, 0x0, 0x0, 0x0, 0x0, 0x0, 0x0, 0x0⟩,  -- FEATURES
  ⟨0x40700010, [], 0x0, .const, 0x0, 0x0, 0x0, 0x0, 0x0, 0x0, 0x0, 0x0⟩,  -- SERIAL_LO
  ⟨0x40700014, [], 0x0, .const, 0x0, 0x0, 0x0, 0x0, 0x0, 0x0, 0x0, 0x0⟩]  -- SERIAL_HI

/-- The registers of the 64 KiB block 0x70000000. -/
def regBlock7000 : List RegRow := [
  ⟨0x70000000, [], 0x0, .const, 0x0, 0x0, 0x0, 0x0, 0x0, 0x0, 0xffff, 0xffff⟩,  -- R_FW
  ⟨0x70000004, [], 0x0, .const, 0x0, 0x0, 0x0, 0x0, 0x0, 0x0, 0xffffffff, 0xffffffff⟩,  -- R_FWSUM
  ⟨0x70000008, [], 0x0, .const, 0x0, 0x0, 0x0, 0x0, 0x0, 0x0, 0xffffffff, 0xffffffff⟩,  -- R_PARSUM
  ⟨0x7000000c, [], 0x200, .const, 0x0, 0x0, 0x0, 0x0, 0x0, 0x0, 0xffff07ff, 0xffff07ff⟩,  -- R_STAT
  ⟨0x70000010, [], 0x0, .const, 0x0, 0x0, 0x0, 0x0, 0x0, 0x0, 0xffffffff, 0xffffffff⟩,  -- R_AUDIT
  ⟨0x70000014, [], 0x0, .const, 0x0, 0x0, 0x0, 0x0, 0x0, 0x0, 0xffffffff, 0xffffffff⟩,  -- R_SESSNUM
  ⟨0x70000018, [], 0x0, .const, 0x0, 0x0, 0x0, 0x0, 0x0, 0x0, 0xffffffff, 0xffffffff⟩,  -- R_MT_LO
  ⟨0x7000001c, [], 0x0, .const, 0x0, 0x0, 0x0, 0x0, 0x0, 0x0, 0xffffffff, 0xffffffff⟩,  -- R_MT_HI
  ⟨0x70000020, [], 0x0, .const, 0x0, 0x0, 0x0, 0x0, 0x0, 0x0, 0xffffffff, 0xffffffff⟩,  -- R_CORR
  ⟨0x70000024, [], 0x0, .const, 0x0, 0x0, 0x0, 0x0, 0x0, 0x0, 0xffffffff, 0xffffffff⟩,  -- R_MT_PEND
  ⟨0x70000028, [], 0x0, .const, 0x0, 0x0, 0x0, 0x0, 0x0, 0x0, 0x7, 0x7⟩,  -- R_LASTCORR
  ⟨0x7000002c, [], 0x0, .const, 0x0, 0x0, 0x0, 0x0, 0x0, 0x0, 0xffff, 0xffff⟩,  -- R_PULSEQ
  ⟨0x70000040, [(0x4, 12)], 0x0, .const, 0x0, 0x0, 0x0, 0x0, 0x0, 0x0, 0xffffffff, 0xffffffff⟩,  -- R_E
  ⟨0x70000080, [(0x10, 8)], 0x0, .const, 0x0, 0x0, 0x0, 0x0, 0x0, 0x0, 0xffffffff, 0xffffffff⟩,  -- R_IN
  ⟨0x70000084, [(0x10, 8)], 0x0, .const, 0x0, 0x0, 0x0, 0x0, 0x0, 0x0, 0xffffffff, 0xffffffff⟩,  -- R_IN200
  ⟨0x70000088, [(0x10, 8)], 0x0, .const, 0x0, 0x0, 0x0, 0x0, 0x0, 0x0, 0x7, 0x7⟩,  -- R_INST
  ⟨0x70000100, [], 0x0, .const, 0x0, 0x0, 0x0, 0x0, 0x0, 0x0, 0xffffffff, 0xffffffff⟩,  -- R_PAC
  ⟨0x70000104, [], 0x0, .const, 0x0, 0x0, 0x0, 0x0, 0x0, 0x0, 0xffffffff, 0xffffffff⟩,  -- R_QAC
  ⟨0x70000108, [], 0x0, .const, 0x0, 0x0, 0x0, 0x0, 0x0, 0x0, 0xffffffff, 0xffffffff⟩,  -- R_FAC
  ⟨0x7000010c, [], 0x0, .const, 0x0, 0x0, 0x0, 0x0, 0x0, 0x0, 0xffffffff, 0xffffffff⟩,  -- R_PDC
  ⟨0x70000140, [(0x4, 16)], 0x0, .const, 0x0, 0x0, 0x0, 0x0, 0x0, 0x0, 0xffffffff, 0xffffffff⟩,  -- R_PUBKEY
  ⟨0x70000180, [(0x4, 32)], 0x0, .const, 0x0, 0x0, 0x0, 0x0, 0x0, 0x0, 0xffffffff, 0xffffffff⟩,  -- R_PAR
  ⟨0x70000200, [(0x4, 48)], 0x0, .const, 0x0, 0x0, 0x0, 0x0, 0x0, 0x0, 0xffffffff, 0xffffffff⟩]  -- R_LASTREC

/-- The registers of the 64 KiB block 0x70010000. -/
def regBlock7001 : List RegRow := [
  ⟨0x70010000, [], 0x8000000, .const, 0x0, 0x0, 0x0, 0x0, 0x0, 0x0, 0x0, 0x0⟩,  -- TAP_DATA
  ⟨0x70010004, [], 0x0, .const, 0x0, 0x3, 0x0, 0x0, 0x0, 0x0, 0x0, 0x0⟩,  -- TAP_STAT
  ⟨0x70010100, [(0x4, 24)], 0x0, .const, 0x0, 0x0, 0x0, 0xffffffff, 0x0, 0x0, 0x0, 0x0⟩]  -- MT_MAIL

/-- The register map: the rows of each 64 KiB block that holds registers, by block number. -/
def regBlocks : List (Nat × List RegRow) :=
  [(0x400, regBlock400),
   (0x402, regBlock402),
   (0x410, regBlock410),
   (0x420, regBlock420),
   (0x430, regBlock430),
   (0x438, regBlock438),
   (0x440, regBlock440),
   (0x450, regBlock450),
   (0x460, regBlock460),
   (0x4000, regBlock4000),
   (0x4001, regBlock4001),
   (0x4002, regBlock4002),
   (0x4003, regBlock4003),
   (0x4010, regBlock4010),
   (0x4020, regBlock4020),
   (0x4030, regBlock4030),
   (0x4040, regBlock4040),
   (0x4050, regBlock4050),
   (0x4070, regBlock4070),
   (0x7000, regBlock7000),
   (0x7001, regBlock7001)]

/-- The instance numbers of byte offset `off` in a register array, if `off` is the address of one of its registers. -/
def splitIndex : List (Nat × Nat) → Nat → Option (List Nat)
  | [], off => if off = 0 then some [] else none
  | (stride, count) :: ds, off =>
    if off / stride < count then (splitIndex ds (off % stride)).map (fun is => off / stride :: is) else none

/-- What `base` counts from for address `a`: offsets in the vat windows, absolute addresses elsewhere. -/
def mapOffset (a : Nat) : Nat :=
  if 0x50000000 ≤ a ∧ a < 0x60000000 then a - 0x50000000
  else if 0x60000000 ≤ a ∧ a < 0x70000000 then a - 0x60000000
  else a

/-- The rows of the block that holds an offset. -/
def blockRows (off : Nat) : List (Nat × List RegRow) → List RegRow
  | [] => []
  | (k, rows) :: l => if off / 65536 = k then rows else blockRows off l

/-- The instance of `row` at offset `off`. -/
def rowInstance (row : RegRow) (off : Nat) : Option (List Nat) :=
  if row.base ≤ off then splitIndex row.dims (off - row.base) else none

/-- The first row of a list that has a register at an offset. -/
def findRow (off : Nat) : List RegRow → Option (RegRow × List Nat)
  | [] => none
  | row :: l => match rowInstance row off with
    | some is => some (row, is)
    | none => findRow off l

/-- The row and instance at a byte address: `none` where no register is listed (R12). A block below 0x1000 is a vat's, and
decodes only inside a vat window. -/
def findReg (a : Nat) : Option (RegRow × List Nat) :=
  let off := mapOffset a
  if a = off ∧ off < 0x10000000 then none else findRow off (blockRows off regBlocks)

/-- The value at POR of the register at `a` (0 where none is listed, R12). -/
def porOf (row : RegRow) (is : List Nat) : Nat :=
  match row.kind with
  | .const => row.por
  | .linear step => row.por + step * is.headD 0
  | .slicePhys => if is.headD 0 < 64 then 1 + is.headD 0 * 0x100 else 0

def porValue (a : Nat) : Word :=
  match findReg a with
  | some (row, is) => BitVec.ofNat 32 (porOf row is)
  | none => 0

end Sys2Proof.Machine
end

