-- ==== Sys2Proof/Machine/Bits.lean ====
section
/-! DEFINITION. Bit fields of words, the register file as a canonical list, and the byte memory as a canonical list
(R9: 32-bit registers, little-endian). Every register read and write of the model goes through `RegFile.get` and
`RegFile.set`, every memory access through `Memory.read` and `Memory.write`. -/

namespace Sys2Proof.Machine

/-- Bits [lo + width - 1 : lo] of a word, as a number. -/
def getBits (x : Word) (lo width : Nat) : Nat := x.toNat / 2 ^ lo % 2 ^ width

/-- The word with bits [lo + width - 1 : lo] replaced by `n` (modulo the width). -/
def setBits (x : Word) (lo width n : Nat) : Word :=
  BitVec.ofNat 32
    (x.toNat / 2 ^ (lo + width) * 2 ^ (lo + width) + n % 2 ^ width * 2 ^ lo + x.toNat % 2 ^ lo)

/-- Bit `i` of a number. -/
def bitOf (n i : Nat) : Bool := n / 2 ^ i % 2 == 1

/-- `n` with bit `i` set or cleared. -/
def setBit (n i : Nat) (b : Bool) : Nat :=
  if bitOf n i = b then n else if b then n + 2 ^ i else n - 2 ^ i

def boolNat (b : Bool) : Nat := if b then 1 else 0

/-- A field value of `w` bits read as two's complement. -/
def signedOf (w n : Nat) : Int := if n % 2 ^ w < 2 ^ (w - 1) then (n % 2 ^ w : Nat) else (n % 2 ^ w : Nat) - (2 ^ w : Nat)

/-- Two's complement of `i` in `w` bits. -/
def unsignedOf (w : Nat) (i : Int) : Nat := (i % (2 ^ w : Nat)).toNat

def clampInt (lo hi x : Int) : Int := if x < lo then lo else if hi < x then hi else x

/-- Saturation to Q15, −32,768 to 32,767. -/
def sat15 (x : Int) : Int := clampInt (-32768) 32767 x

/-- Division rounded to nearest, ties to even (`d` positive). -/
def roundEvenDiv (n : Int) (d : Nat) : Int :=
  let q := n / (d : Int)
  let r := n % (d : Int)
  if 2 * r < d then q else if (d : Int) < 2 * r then q + 1 else if q % 2 = 0 then q else q + 1

/-- Division rounded to nearest, ties upwards (`d` positive). -/
def roundUpDiv (n : Int) (d : Nat) : Int := (2 * n + d) / (2 * (d : Int))

def natClamp (lo hi x : Nat) : Nat := if x < lo then lo else if hi < x then hi else x

/-- Element `i` of a list, or the default. -/
def nth {α : Type} (l : List α) (i : Nat) (d : α) : α := l.getD i d

/-- The list with element `i` changed. -/
def modNth {α : Type} (l : List α) (i : Nat) (f : α → α) : List α := l.modify i f

/-! Memories and register files: sorted association lists. -/

/-- Insert a pair in front of the first greater key. -/
def insertKey {α : Type} (k : Nat) (v : α) : List (Nat × α) → List (Nat × α)
  | [] => [(k, v)]
  | (j, w) :: l => if k < j then (k, v) :: (j, w) :: l else (j, w) :: insertKey k v l

/-- The value listed for a key. -/
def lookupKey {α : Type} (k : Nat) : List (Nat × α) → Option α
  | [] => none
  | (j, w) :: l => if j = k then some w else lookupKey k l

/-- The list without a key. -/
def eraseKey {α : Type} (k : Nat) : List (Nat × α) → List (Nat × α)
  | [] => []
  | (j, w) :: l => if j = k then eraseKey k l else (j, w) :: eraseKey k l

/-- Every key of the list is above `k`. -/
def keysAbove {α : Type} (k : Nat) : List (Nat × α) → Bool
  | [] => true
  | (j, _) :: l => decide (k < j) && keysAbove k l

/-- The canonical form: keys strictly rising, no entry equal to what an unlisted key reads as. -/
def canonical {α : Type} [DecidableEq α] (dflt : Nat → α) : List (Nat × α) → Bool
  | [] => true
  | (j, w) :: l => decide (w ≠ dflt j) && keysAbove j l && canonical dflt l

/-- Write one key, keeping the canonical form. -/
def putKey {α : Type} [DecidableEq α] (dflt : Nat → α) (k : Nat) (v : α) (l : List (Nat × α)) : List (Nat × α) :=
  if v = dflt k then eraseKey k l else insertKey k v (eraseKey k l)

/-- Read one key. -/
def getKey {α : Type} (dflt : Nat → α) (k : Nat) (l : List (Nat × α)) : α := (lookupKey k l).getD (dflt k)

abbrev RegFile := List (Nat × Word)

/-- The register at a byte address: what is listed, else its value at POR. -/
def RegFile.get (r : RegFile) (a : Nat) : Word := getKey porValue a r

/-- Write a register. -/
def RegFile.set (r : RegFile) (a : Nat) (w : Word) : RegFile := putKey porValue a w r

/-- Change every listed register, keeping the canonical form (used by the resets, R13). -/
def RegFile.mapRegs (r : RegFile) (f : Nat → Word → Word) : RegFile :=
  r.filterMap (fun e => if f e.1 e.2 = porValue e.1 then none else some (e.1, f e.1 e.2))

end Sys2Proof.Machine
end

