-- ==== Sys2Proof/Machine/Float32.lean ====
section
/-! DEFINITION. binary32 arithmetic (05_control_engines.md R103, R104, R467): round to nearest, ties to even, one rounding
per operation or fused multiply-add, subnormal inputs and results flushed to zero with their sign kept; and the conversions
to and from the fixed-point formats. -/

namespace Sys2Proof.Machine

open Sys2Proof

abbrev F32 := BitVec 32

/-- An unpacked binary32 value: `fin neg m e` is (-1)^neg * m * 2^e. -/
inductive Fl where
  | nan
  | inf (neg : Bool)
  | fin (neg : Bool) (m : Nat) (e : Int)
  deriving DecidableEq, Repr

def signBits (neg : Bool) : Nat := if neg then 2 ^ 31 else 0

def F32.nan : F32 := 0x7FC00000
def F32.zero (neg : Bool) : F32 := BitVec.ofNat 32 (signBits neg)
def F32.inf (neg : Bool) : F32 := BitVec.ofNat 32 (signBits neg + 0x7F800000)

/-- Unpack, flushing a subnormal to zero with its sign (R103). -/
def F32.unpack (x : F32) : Fl :=
  let n := x.toNat
  let neg := bitOf n 31
  let ex : Nat := n / 2 ^ 23 % 256
  let fr : Nat := n % 2 ^ 23
  if ex = 255 then (if fr = 0 then .inf neg else .nan)
  else if ex = 0 then .fin neg 0 0
  else .fin neg (8388608 + fr) (Int.ofNat ex - 150)

/-- `n` * 2^`sh` for a shift of either sign, rounded to nearest even; `sticky` says the exact value lies strictly above `n`
(and below `n` + 1). -/
def shiftRoundEven (n : Nat) (sh : Int) (sticky : Bool) : Nat :=
  if 0 ≤ sh then n * 2 ^ sh.toNat else
    let k := (-sh).toNat
    let q := n / 2 ^ k
    let r := n % 2 ^ k
    let h := 2 ^ (k - 1)
    if h < r || (r == h && (sticky || q % 2 == 1)) then q + 1 else q

/-- Round (-1)^neg * n * 2^e to binary32; a result below the least normal number is zero (R103). -/
def roundFl (neg : Bool) (n : Nat) (e : Int) (sticky : Bool) : F32 :=
  if n = 0 then F32.zero neg else
    let top : Int := (Nat.log2 n : Int) + e
    if top < -126 then
      (if shiftRoundEven n (e + 149) sticky = 2 ^ 23 then BitVec.ofNat 32 (signBits neg + 2 ^ 23) else F32.zero neg)
    else
      let m := shiftRoundEven n (23 - (Nat.log2 n : Int)) sticky
      let top := if m = 2 ^ 24 then top + 1 else top
      let m := if m = 2 ^ 24 then 2 ^ 23 else m
      if 127 < top then F32.inf neg
      else BitVec.ofNat 32 (signBits neg + (top + 127).toNat * 2 ^ 23 + (m - 2 ^ 23))

/-- The exact sum of two finite values, as a signed integer and an exponent. -/
def addExact (n1 : Bool) (m1 : Nat) (e1 : Int) (n2 : Bool) (m2 : Nat) (e2 : Int) : Int × Int :=
  let e := if e1 < e2 then e1 else e2
  let a : Int := (m1 * 2 ^ (e1 - e).toNat : Nat)
  let b : Int := (m2 * 2 ^ (e2 - e).toNat : Nat)
  ((if n1 then -a else a) + (if n2 then -b else b), e)

/-- Round a signed integer times 2^e; `zneg` is the sign of an exact zero. -/
def roundInt (i : Int) (e : Int) (zneg : Bool) : F32 :=
  if i = 0 then F32.zero zneg else roundFl (decide (i < 0)) i.natAbs e false

/-- The sum of an unpacked pair, rounded once. -/
def flAdd : Fl → Fl → F32
  | .nan, _ => F32.nan
  | _, .nan => F32.nan
  | .inf a, .inf b => if a = b then F32.inf a else F32.nan
  | .inf a, _ => F32.inf a
  | _, .inf b => F32.inf b
  | .fin n1 m1 e1, .fin n2 m2 e2 =>
    let s := addExact n1 m1 e1 n2 m2 e2
    roundInt s.1 s.2 (m1 == 0 && m2 == 0 && n1 && n2)

/-- The exact product of an unpacked pair. -/
def flMul : Fl → Fl → Fl
  | .nan, _ => .nan
  | _, .nan => .nan
  | .inf a, .inf b => .inf (a != b)
  | .inf a, .fin b m _ => if m = 0 then .nan else .inf (a != b)
  | .fin a m _, .inf b => if m = 0 then .nan else .inf (a != b)
  | .fin a m e, .fin b k f => .fin (a != b) (m * k) (e + f)

def flPack : Fl → F32
  | .nan => F32.nan
  | .inf a => F32.inf a
  | .fin n m e => roundFl n m e false

def F32.neg (x : F32) : F32 := x ^^^ 0x80000000
def F32.abs (x : F32) : F32 := x &&& 0x7FFFFFFF
def F32.add (x y : F32) : F32 := flAdd x.unpack y.unpack
def F32.sub (x y : F32) : F32 := flAdd x.unpack (F32.neg y).unpack
def F32.mul (x y : F32) : F32 := flPack (flMul x.unpack y.unpack)

/-- x * y + z, rounded once (R467). -/
def F32.fma (x y z : F32) : F32 := flAdd (flMul x.unpack y.unpack) z.unpack

/-- x * y - z, rounded once. -/
def F32.fms (x y z : F32) : F32 := F32.fma x y (F32.neg z)

/-- z - x * y, rounded once. -/
def F32.fnma (x y z : F32) : F32 := F32.fma (F32.neg x) y z

def F32.div (x y : F32) : F32 :=
  match x.unpack, y.unpack with
  | .nan, _ => F32.nan
  | _, .nan => F32.nan
  | .inf _, .inf _ => F32.nan
  | .inf a, .fin b _ _ => F32.inf (a != b)
  | .fin a _ _, .inf b => F32.zero (a != b)
  | .fin a m e, .fin b k f =>
    if k = 0 then (if m = 0 then F32.nan else F32.inf (a != b))
    else roundFl (a != b) (m * 2 ^ 60 / k) (e - f - 60) (m * 2 ^ 60 % k != 0)

/-- Integer square root, bit by bit from 2^(fuel - 1). -/
def isqrt : Nat → Nat → Nat → Nat
  | 0, _, r => r
  | k + 1, n, r => if (r + 2 ^ k) * (r + 2 ^ k) ≤ n then isqrt k n (r + 2 ^ k) else isqrt k n r

/-- Correctly rounded square root (R467). -/
def F32.sqrt (x : F32) : F32 :=
  match x.unpack with
  | .nan => F32.nan
  | .inf neg => if neg then F32.nan else F32.inf false
  | .fin neg m e =>
    if m = 0 then F32.zero neg else if neg then F32.nan else
      let odd := e % 2 != 0
      let n := m * 2 ^ (if odd then 31 else 30)
      let r := isqrt 32 n 0
      roundFl false r ((e - (if odd then 31 else 30)) / 2) (r * r != n)

/-- An order key for numbers: -0 and 0 and flushed subnormals have key 0. -/
def F32.key (x : F32) : Int :=
  let n := x.toNat
  let m : Nat := n % 2 ^ 31
  let k : Nat := if m < 2 ^ 23 then 0 else m
  if bitOf n 31 then -Int.ofNat k else Int.ofNat k

def F32.isNan (x : F32) : Bool := x.unpack == .nan

def F32.finite (x : F32) : Bool := x.toNat / 2 ^ 23 % 256 != 255

def F32.lt (x y : F32) : Bool := !x.isNan && !y.isNan && decide (x.key < y.key)
def F32.le (x y : F32) : Bool := !x.isNan && !y.isNan && decide (x.key ≤ y.key)
def F32.isZero (x : F32) : Bool := !x.isNan && x.key == 0
def F32.min (x y : F32) : F32 := if x.lt y then x else y
def F32.max (x y : F32) : F32 := if y.lt x then x else y

/-- Flush a subnormal word to zero with its sign: what a binary32 input reads as, and what a result becomes (R103). -/
def F32.flush (x : F32) : F32 := flPack x.unpack

def F32.clamp (x lo hi : F32) : F32 := F32.flush (if x.lt lo then lo else if hi.lt x then hi else x)

/-- An integer times 2^e as binary32, rounded to nearest even. -/
def F32.ofScaled (i : Int) (e : Int) : F32 := roundInt i e false

def F32.ofNat (n : Nat) : F32 := F32.ofScaled n 0
def F32.ofInt (i : Int) : F32 := F32.ofScaled i 0

/-- The binary32 number nearest to a positive fraction (R467: constants). -/
def F32.ofRat (n d : Nat) : F32 := roundFl false (n * 2 ^ 200 / d) (-200) (n * 2 ^ 200 % d != 0)

def F32.one : F32 := 0x3F800000
def F32.two : F32 := 0x40000000
def F32.half : F32 := 0x3F000000
def F32.pi : F32 := 0x40490FDB
def F32.twoPi : F32 := 0x40C90FDB

/-- x * 2^k rounded to an integer, ties to even; an infinity gives a number beyond every format, and NaN gives 0
(notes/assumptions/20.md). -/
def F32.toInt (x : F32) (k : Int) : Int :=
  match x.unpack with
  | .nan => 0
  | .inf neg => if neg then -(2 ^ 200 : Int) else (2 ^ 200 : Int)
  | .fin neg m e => let n : Int := (shiftRoundEven m (e + k) false : Nat)
    if neg then -n else n

/-- binary32 to Q15 (R104). -/
def F32.toQ15 (x : F32) : Int := sat15 (x.toInt 15)

/-- binary32 to Q9.30 (R104): saturated to the accumulator's range. -/
def F32.toQ930 (x : F32) : Int := clampInt (-(2 ^ 39)) (2 ^ 39 - 1) (x.toInt 30)

/-- Q15 to binary32, exact. -/
def F32.ofQ15 (q : Int) : F32 := F32.ofScaled q (-15)

/-- Q9.30 to binary32, to nearest even. -/
def F32.ofQ930 (a : Int) : F32 := F32.ofScaled a (-30)

/-- A flag in binary32 (R105). -/
def F32.ofBool (b : Bool) : F32 := if b then F32.one else 0

/-! ## Q lanes (R101, R102) -/

/-- Right shift by `k`, rounded to nearest with ties towards plus infinity. -/
def roundShift (x : Int) (k : Nat) : Int := if k = 0 then x else (x + 2 ^ (k - 1)) / (2 ^ k : Int)

/-- Saturation of a Q9.30 accumulator. -/
def satAcc (x : Int) : Int := clampInt (-(2 ^ 39)) (2 ^ 39 - 1) x

/-- A Q9.30 accumulator reduced to Q15. -/
def accToQ15 (a : Int) : Int := sat15 (roundShift a 15)

/-- The mantissa and exponent of a gain word (R101). -/
def gainM (w : Word) : Int := signedOf 16 w.toNat
def gainE (w : Word) : Int := signedOf 5 (w.toNat / 2 ^ 16)

/-- gain * x for a Q15 x, in Q30: the exact product shifted by the gain's exponent (R102). -/
def gainMul (w : Word) (x : Int) : Int :=
  let p := gainM w * x
  let e := gainE w
  if 0 ≤ e then satAcc (p * 2 ^ e.toNat) else roundShift p (-e).toNat

end Sys2Proof.Machine
end

