-- ==== Sys2Proof/Machine/Angles.lean ====
section
/-! DEFINITION. The function kernels of the ROM library (05_control_engines.md R467): sin, cos, atan, atan2 and the wrapping of an
angle to (−π, π]. The spec bounds their error by 1 ulp and says no more, so each is a free value held between the two numbers
that the bound admits; the function itself is evaluated here in fixed point, far finer than an ulp. -/

namespace Sys2Proof.Machine

open Sys2Proof

/-- A binary32 number's sign and magnitude in units of 2^-320 (exact); none for NaN and infinity, which no block passes on. -/
def fixOf (x : F32) : Option (Bool × Nat) :=
  match x.unpack with
  | .fin neg m e => some (neg, if m = 0 then 0 else m * 2 ^ (e + 320).toNat)
  | _ => none

/-- π, π/2 and 2π in units of 2^-320. -/
def fixPi : Nat := 0x3243f6a8885a308d313198a2e03707344a4093822299f31d0082efa98ec4e6c89452821e638d01377
def fixHalfPi : Nat := fixPi / 2
def fixTwoPi : Nat := 2 * fixPi

/-- t - t r2 / (i+1)(i+2) + ...: `k` terms of the alternating series of sin (from i = 1) or cos (from i = 0). -/
def altSeries : Nat → Nat → Nat → Nat → Int
  | 0, _, _, _ => 0
  | k + 1, r2, t, i => (t : Int) - altSeries k r2 (t * r2 / 2 ^ 320 / ((i + 1) * (i + 2))) (i + 2)

/-- sin and cos of 0 ≤ r < π/2. -/
def fixSin (r : Nat) : Int := altSeries 45 (r * r / 2 ^ 320) r 1
def fixCos (r : Nat) : Int := altSeries 45 (r * r / 2 ^ 320) (2 ^ 320) 0

/-- sin and cos of a magnitude, by its quadrant. -/
def fixSinCos (x : Nat) : Int × Int :=
  let r := x % fixHalfPi
  match x / fixHalfPi % 4 with
  | 0 => (fixSin r, fixCos r)
  | 1 => (fixCos r, -fixSin r)
  | 2 => (-fixSin r, -fixCos r)
  | _ => (-fixCos r, fixSin r)

/-- Euler's series of atan: `k` terms from `t`, each the last times u (2n + 2) / (2n + 3). -/
def eulerSeries : Nat → Nat → Nat → Nat → Nat
  | 0, _, _, _ => 0
  | k + 1, u, t, n => t + eulerSeries k u (t * u / 2 ^ 320 * (2 * n + 2) / (2 * n + 3)) (n + 1)

/-- atan of 0 ≤ t ≤ 1. -/
def fixAtan (t : Nat) : Nat :=
  let d := 2 ^ 320 + t * t / 2 ^ 320
  eulerSeries 120 (t * t / d) (t * 2 ^ 320 / d) 0

/-- The angle of the first quadrant with legs `y` and `x`. -/
def fixAngle (y x : Nat) : Nat :=
  if y ≤ x then (if x = 0 then 0 else fixAtan (y * 2 ^ 320 / x)) else fixHalfPi - fixAtan (x * 2 ^ 320 / y)

/-- The binary32 numbers within 1 ulp of a magnitude, as the least and the greatest; below the least normal number both
neighbours are admitted, as results there flush to zero (R103). -/
def magBounds (n : Nat) : F32 × F32 :=
  if n = 0 then (0, 0)
  else if Nat.log2 n < 194 then (0, 0x00800000)
  else
    let k := Nat.log2 n - 23
    let q := n / 2 ^ k
    let r := n % 2 ^ k
    let near := 2 ^ (k - 60)
    let lo := if r ≤ near then q - 1 else q
    let hi := if 2 ^ k - r ≤ near then q + 2 else q + 1
    (roundFl false lo ((k : Int) - 320) false, roundFl false hi ((k : Int) - 320) false)

def ulpBounds (neg : Bool) (n : Nat) : F32 × F32 :=
  let b := magBounds n
  if neg then (F32.neg b.2, F32.neg b.1) else b

/-- The kernel's result `k` where the bounds admit it, else the lesser bound. -/
def admitted (k : F32) (b : F32 × F32) : F32 := if F32.le b.1 k && F32.le k b.2 then k else b.1

/-- The bounds cut to (−π, π]: no binary32 number is π, so both ends are the numbers next inside. -/
def cutToPi (b : F32 × F32) : F32 × F32 := (F32.max b.1 0xC0490FDA, F32.min b.2 0x40490FDA)

def signedBounds (i : Int) : F32 × F32 := ulpBounds (decide (i < 0)) i.natAbs

def sinAngle (x : F32) : F32 :=
  match fixOf x with
  | some (neg, n) => let i := (fixSinCos n).1
    admitted (Config.sinKernel x) (signedBounds (if neg then -i else i))
  | none => Config.sinKernel x

def cosAngle (x : F32) : F32 :=
  match fixOf x with
  | some (_, n) => admitted (Config.cosKernel x) (signedBounds (fixSinCos n).2)
  | none => Config.cosKernel x

def atanAngle (x : F32) : F32 :=
  match fixOf x with
  | some (neg, n) => admitted (Config.atanKernel x) (ulpBounds neg (fixAngle n (2 ^ 320)))
  | none => Config.atanKernel x

def atan2Angle (y x : F32) : F32 :=
  match fixOf y, fixOf x with
  | some (ny, y'), some (nx, x') =>
    let a := fixAngle y' x'
    admitted (Config.atan2Kernel y x) (cutToPi (ulpBounds ny (if nx && x' != 0 then fixPi - a else a)))
  | _, _ => Config.atan2Kernel y x

/-- The angle wrapped to (−π, π]. -/
def wrapAngle (x : F32) : F32 :=
  match fixOf x with
  | some (neg, n) =>
    let r := n % fixTwoPi
    admitted (Config.wrapKernel x) (cutToPi (if r ≤ fixPi then ulpBounds neg r else ulpBounds (!neg) (fixTwoPi - r)))
  | none => Config.wrapKernel x

end Sys2Proof.Machine
end

