-- ==== Sys2Proof/Machine/Regs.lean ====
section
/-! DEFINITION. The names of the registers and of their fields: an address for each register, and for each field its
register's address, low bit and width, as the register tables of the spec give them. Indices are in the order of the
addresses' strides, widest first. -/

namespace Sys2Proof.Machine.R

/-- Register PORT_CFG (01_ports_and_vehicles.md: PORTn_CFG, offset 0x000). -/
def PORT_CFG (v : Vat) (i : Nat) : Nat := v.base + 0x04000000 + i * 0x400
def PORT_CFG_TYPE (v : Vat) (i : Nat) : Field := ⟨PORT_CFG v i, 0, 3⟩
def PORT_CFG_LINK (v : Vat) (i : Nat) : Field := ⟨PORT_CFG v i, 4, 3⟩
def PORT_CFG_LNK_EN (v : Vat) (i : Nat) : Field := ⟨PORT_CFG v i, 7, 1⟩
def PORT_CFG_ROLE (v : Vat) (i : Nat) : Field := ⟨PORT_CFG v i, 8, 1⟩
def PORT_CFG_FAULT_LIMIT (v : Vat) (i : Nat) : Field := ⟨PORT_CFG v i, 16, 4⟩
/-- Register PORT_LEGS (01_ports_and_vehicles.md: PORTn_LEGS, offset 0x004). -/
def PORT_LEGS (v : Vat) (i : Nat) : Nat := v.base + 0x04000004 + i * 0x400
def PORT_LEGS_SLOT0 (v : Vat) (i : Nat) : Field := ⟨PORT_LEGS v i, 0, 5⟩
def PORT_LEGS_V0 (v : Vat) (i : Nat) : Field := ⟨PORT_LEGS v i, 7, 1⟩
def PORT_LEGS_SLOT1 (v : Vat) (i : Nat) : Field := ⟨PORT_LEGS v i, 8, 5⟩
def PORT_LEGS_V1 (v : Vat) (i : Nat) : Field := ⟨PORT_LEGS v i, 15, 1⟩
def PORT_LEGS_SLOT2 (v : Vat) (i : Nat) : Field := ⟨PORT_LEGS v i, 16, 5⟩
def PORT_LEGS_V2 (v : Vat) (i : Nat) : Field := ⟨PORT_LEGS v i, 23, 1⟩
def PORT_LEGS_SLOT3 (v : Vat) (i : Nat) : Field := ⟨PORT_LEGS v i, 24, 5⟩
def PORT_LEGS_V3 (v : Vat) (i : Nat) : Field := ⟨PORT_LEGS v i, 31, 1⟩
/-- Register PORT_STATE (01_ports_and_vehicles.md: PORTn_STATE, offset 0x008). -/
def PORT_STATE (v : Vat) (i : Nat) : Nat := v.base + 0x04000008 + i * 0x400
def PORT_STATE_STATE (v : Vat) (i : Nat) : Field := ⟨PORT_STATE v i, 0, 3⟩
def PORT_STATE_DEGR (v : Vat) (i : Nat) : Field := ⟨PORT_STATE v i, 4, 1⟩
def PORT_STATE_CAUSE (v : Vat) (i : Nat) : Field := ⟨PORT_STATE v i, 8, 8⟩
def PORT_STATE_ENTRIES (v : Vat) (i : Nat) : Field := ⟨PORT_STATE v i, 16, 4⟩
/-- Register WHL_STAT (02_wheel.md: WHL_STAT, 0x4001_0100). -/
def WHL_STAT : Nat := 0x40010100
def WHL_STAT_SLOT : Field := ⟨WHL_STAT, 0, 1⟩
def WHL_STAT_FALLBACK : Field := ⟨WHL_STAT, 1, 1⟩
def WHL_STAT_ENC : Field := ⟨WHL_STAT, 2, 1⟩
def WHL_STAT_RESTRICT : Field := ⟨WHL_STAT, 3, 1⟩
def WHL_STAT_CONF0V : Field := ⟨WHL_STAT, 4, 1⟩
def WHL_STAT_CONF1V : Field := ⟨WHL_STAT, 5, 1⟩
def WHL_STAT_NEXTCONF : Field := ⟨WHL_STAT, 6, 1⟩
def WHL_STAT_REJ0 : Field := ⟨WHL_STAT, 8, 8⟩
def WHL_STAT_REJ1 : Field := ⟨WHL_STAT, 16, 8⟩
/-- Register WHL_ID (02_wheel.md: Other wheel registers). -/
def WHL_ID : Nat := 0x40010104
def WHL_ID_VAL : Field := ⟨WHL_ID, 0, 32⟩
/-- Register WHL_VER_LO (02_wheel.md: Other wheel registers). -/
def WHL_VER_LO : Nat := 0x40010108
def WHL_VER_LO_VAL : Field := ⟨WHL_VER_LO, 0, 32⟩
/-- Register WHL_VER_HI (02_wheel.md: Other wheel registers). -/
def WHL_VER_HI : Nat := 0x4001010c
def WHL_VER_HI_VAL : Field := ⟨WHL_VER_HI, 0, 32⟩
/-- Register WHL_FLOOR_LO (02_wheel.md: Other wheel registers). -/
def WHL_FLOOR_LO : Nat := 0x40010110
def WHL_FLOOR_LO_VAL : Field := ⟨WHL_FLOOR_LO, 0, 32⟩
/-- Register WHL_FLOOR_HI (02_wheel.md: Other wheel registers). -/
def WHL_FLOOR_HI : Nat := 0x40010114
def WHL_FLOOR_HI_VAL : Field := ⟨WHL_FLOOR_HI, 0, 32⟩
/-- Register SAFE_CRC (02_wheel.md: Other wheel registers). -/
def SAFE_CRC : Nat := 0x40010118
def SAFE_CRC_VAL : Field := ⟨SAFE_CRC, 0, 32⟩
/-- Register SAFE_CONF0 (02_wheel.md: Other wheel registers). -/
def SAFE_CONF0 : Nat := 0x4001011c
def SAFE_CONF0_VAL : Field := ⟨SAFE_CONF0, 0, 32⟩
/-- Register SAFE_CONF1 (02_wheel.md: Other wheel registers). -/
def SAFE_CONF1 : Nat := 0x40010120
def SAFE_CONF1_VAL : Field := ⟨SAFE_CONF1, 0, 32⟩
/-- Register SGRP_CLK (03_sense_path.md: SGRPg_CLK, offset 0x00). -/
def SGRP_CLK (v : Vat) (i : Nat) : Nat := v.base + 0x04101400 + i * 0x20
def SGRP_CLK_DIV (v : Vat) (i : Nat) : Field := ⟨SGRP_CLK v i, 0, 7⟩
def SGRP_CLK_SRC (v : Vat) (i : Nat) : Field := ⟨SGRP_CLK v i, 7, 1⟩
def SGRP_CLK_SDLY (v : Vat) (i : Nat) : Field := ⟨SGRP_CLK v i, 8, 6⟩
def SGRP_CLK_EDGE (v : Vat) (i : Nat) : Field := ⟨SGRP_CLK v i, 14, 1⟩
def SGRP_CLK_ALIGN_PORT (v : Vat) (i : Nat) : Field := ⟨SGRP_CLK v i, 16, 3⟩
def SGRP_CLK_ALIGN_EN (v : Vat) (i : Nat) : Field := ⟨SGRP_CLK v i, 19, 1⟩
/-- Register SGRP_ROT (03_sense_path.md: SGRPg_ROT, offset 0x04). -/
def SGRP_ROT (v : Vat) (i : Nat) : Nat := v.base + 0x04101404 + i * 0x20
def SGRP_ROT_ROT_EN (v : Vat) (i : Nat) : Field := ⟨SGRP_ROT v i, 0, 1⟩
def SGRP_ROT_ROT_STOP (v : Vat) (i : Nat) : Field := ⟨SGRP_ROT v i, 1, 1⟩
def SGRP_ROT_MISM_F (v : Vat) (i : Nat) : Field := ⟨SGRP_ROT v i, 2, 1⟩
def SGRP_ROT_FREE (v : Vat) (i : Nat) : Field := ⟨SGRP_ROT v i, 8, 7⟩
def SGRP_ROT_STEPS (v : Vat) (i : Nat) : Field := ⟨SGRP_ROT v i, 16, 16⟩
/-- Register SGRP_SYNC (03_sense_path.md: SGRPg_SYNC, offset 0x08). -/
def SGRP_SYNC (v : Vat) (i : Nat) : Nat := v.base + 0x04101408 + i * 0x20
def SGRP_SYNC_MASK (v : Vat) (i : Nat) : Field := ⟨SGRP_SYNC v i, 0, 8⟩
def SGRP_SYNC_GO (v : Vat) (i : Nat) : Field := ⟨SGRP_SYNC v i, 31, 1⟩
/-- Register SGRP_STAT (03_sense_path.md: SGRPg_STAT, offset 0x0C). -/
def SGRP_STAT (v : Vat) (i : Nat) : Nat := v.base + 0x0410140c + i * 0x20
def SGRP_STAT_CLKLOSS (v : Vat) (i : Nat) : Field := ⟨SGRP_STAT v i, 0, 1⟩
def SGRP_STAT_CLKLOSS_F (v : Vat) (i : Nat) : Field := ⟨SGRP_STAT v i, 1, 1⟩
/-- Register SLICE_CFG (03_sense_path.md: SLICEn_CFG, offset 0x00). -/
def SLICE_CFG (v : Vat) (i : Nat) : Nat := v.base + 0x04100000 + i * 0x40
def SLICE_CFG_PRESET (v : Vat) (i : Nat) : Field := ⟨SLICE_CFG v i, 0, 3⟩
def SLICE_CFG_OSR_C (v : Vat) (i : Nat) : Field := ⟨SLICE_CFG v i, 4, 9⟩
def SLICE_CFG_INV (v : Vat) (i : Nat) : Field := ⟨SLICE_CFG v i, 16, 1⟩
/-- Register SLICE_STAT (03_sense_path.md: SLICEn_STAT, offset 0x18). -/
def SLICE_STAT (v : Vat) (i : Nat) : Nat := v.base + 0x04100018 + i * 0x40
def SLICE_STAT_STALE_F (v : Vat) (i : Nat) : Field := ⟨SLICE_STAT v i, 0, 1⟩
def SLICE_STAT_FROZEN_F (v : Vat) (i : Nat) : Field := ⟨SLICE_STAT v i, 1, 1⟩
def SLICE_STAT_CLKLOSS_F (v : Vat) (i : Nat) : Field := ⟨SLICE_STAT v i, 2, 1⟩
def SLICE_STAT_SAT_F (v : Vat) (i : Nat) : Field := ⟨SLICE_STAT v i, 3, 1⟩
def SLICE_STAT_SETTLE_LEFT (v : Vat) (i : Nat) : Field := ⟨SLICE_STAT v i, 8, 8⟩
def SLICE_STAT_SERVED_BY (v : Vat) (i : Nat) : Field := ⟨SLICE_STAT v i, 16, 7⟩
/-- Register SLICE_SEQ (03_sense_path.md: SLICEn_SEQ, offset 0x20). -/
def SLICE_SEQ (v : Vat) (i : Nat) : Nat := v.base + 0x04100020 + i * 0x40
def SLICE_SEQ_SEQ (v : Vat) (i : Nat) : Field := ⟨SLICE_SEQ v i, 0, 16⟩
/-- Register SLICE_PHYS (03_sense_path.md: SLICEn_PHYS, offset 0x28). -/
def SLICE_PHYS (v : Vat) (i : Nat) : Nat := v.base + 0x04100028 + i * 0x40
def SLICE_PHYS_MODE (v : Vat) (i : Nat) : Field := ⟨SLICE_PHYS v i, 0, 2⟩
def SLICE_PHYS_CHAN (v : Vat) (i : Nat) : Field := ⟨SLICE_PHYS v i, 8, 6⟩
def SLICE_PHYS_RETIRED (v : Vat) (i : Nat) : Field := ⟨SLICE_PHYS v i, 16, 1⟩
def SLICE_PHYS_TFAIL (v : Vat) (i : Nat) : Field := ⟨SLICE_PHYS v i, 17, 1⟩
def SLICE_PHYS_TPASS (v : Vat) (i : Nat) : Field := ⟨SLICE_PHYS v i, 24, 8⟩
/-- Register SLICE_TRIM (03_sense_path.md: SLICEn_TRIM, offset 0x04). -/
def SLICE_TRIM (v : Vat) (i : Nat) : Nat := v.base + 0x04100004 + i * 0x40
def SLICE_TRIM_GAIN_W (v : Vat) (i : Nat) : Field := ⟨SLICE_TRIM v i, 0, 16⟩
def SLICE_TRIM_OFFS_W (v : Vat) (i : Nat) : Field := ⟨SLICE_TRIM v i, 16, 16⟩
/-- Register SLICE_DATA (03_sense_path.md: SLICEn_DATA, offset 0x14). -/
def SLICE_DATA (v : Vat) (i : Nat) : Nat := v.base + 0x04100014 + i * 0x40
def SLICE_DATA_SAMPLE (v : Vat) (i : Nat) : Field := ⟨SLICE_DATA v i, 0, 24⟩
def SLICE_DATA_VALID (v : Vat) (i : Nat) : Field := ⟨SLICE_DATA v i, 24, 1⟩
def SLICE_DATA_SUPP (v : Vat) (i : Nat) : Field := ⟨SLICE_DATA v i, 25, 1⟩
def SLICE_DATA_STALE (v : Vat) (i : Nat) : Field := ⟨SLICE_DATA v i, 26, 1⟩
def SLICE_DATA_FROZEN (v : Vat) (i : Nat) : Field := ⟨SLICE_DATA v i, 27, 1⟩
def SLICE_DATA_CLKLOSS (v : Vat) (i : Nat) : Field := ⟨SLICE_DATA v i, 28, 1⟩
/-- Register SLICE_MON (03_sense_path.md: SLICEn_MON, offset 0x08). -/
def SLICE_MON (v : Vat) (i : Nat) : Nat := v.base + 0x04100008 + i * 0x40
def SLICE_MON_FR_LIMIT (v : Vat) (i : Nat) : Field := ⟨SLICE_MON v i, 0, 12⟩
def SLICE_MON_FZ_EN (v : Vat) (i : Nat) : Field := ⟨SLICE_MON v i, 15, 1⟩
def SLICE_MON_FZ_BAND (v : Vat) (i : Nat) : Field := ⟨SLICE_MON v i, 16, 8⟩
def SLICE_MON_FZ_COUNT (v : Vat) (i : Nat) : Field := ⟨SLICE_MON v i, 24, 8⟩
/-- Register SLICE_CAL (03_sense_path.md: SLICEn_CAL, offset 0x0C). -/
def SLICE_CAL (v : Vat) (i : Nat) : Nat := v.base + 0x0410000c + i * 0x40
def SLICE_CAL_GCAL_EN (v : Vat) (i : Nat) : Field := ⟨SLICE_CAL v i, 0, 1⟩
def SLICE_CAL_MTR_CH (v : Vat) (i : Nat) : Field := ⟨SLICE_CAL v i, 1, 3⟩
def SLICE_CAL_TAU (v : Vat) (i : Nat) : Field := ⟨SLICE_CAL v i, 8, 8⟩
def SLICE_CAL_MINLVL (v : Vat) (i : Nat) : Field := ⟨SLICE_CAL v i, 16, 16⟩
/-- Register SLICE_RATIO (03_sense_path.md: SLICEn_RATIO, offset 0x10). -/
def SLICE_RATIO (v : Vat) (i : Nat) : Nat := v.base + 0x04100010 + i * 0x40
def SLICE_RATIO_VAL (v : Vat) (i : Nat) : Field := ⟨SLICE_RATIO v i, 0, 32⟩
/-- Register SLICE_GCAL (03_sense_path.md: SLICEn_GCAL, offset 0x1C). -/
def SLICE_GCAL (v : Vat) (i : Nat) : Nat := v.base + 0x0410001c + i * 0x40
def SLICE_GCAL_GCAL (v : Vat) (i : Nat) : Field := ⟨SLICE_GCAL v i, 0, 16⟩
def SLICE_GCAL_AT_LIMIT (v : Vat) (i : Nat) : Field := ⟨SLICE_GCAL v i, 16, 1⟩
def SLICE_GCAL_CAL_ACTIVE (v : Vat) (i : Nat) : Field := ⟨SLICE_GCAL v i, 17, 1⟩
/-- Register PP_CFG (03_sense_path.md: PPk registers). -/
def PP_CFG (v : Vat) (i : Nat) : Nat := v.base + 0x04101800 + i * 0x20
def PP_CFG_SRC_A (v : Vat) (i : Nat) : Field := ⟨PP_CFG v i, 0, 8⟩
def PP_CFG_SRC_B (v : Vat) (i : Nat) : Field := ⟨PP_CFG v i, 8, 8⟩
def PP_CFG_PORT (v : Vat) (i : Nat) : Field := ⟨PP_CFG v i, 16, 3⟩
def PP_CFG_ACTION (v : Vat) (i : Nat) : Field := ⟨PP_CFG v i, 20, 2⟩
def PP_CFG_EN (v : Vat) (i : Nat) : Field := ⟨PP_CFG v i, 23, 1⟩
def PP_CFG_PERSIST (v : Vat) (i : Nat) : Field := ⟨PP_CFG v i, 24, 8⟩
/-- Register PP_GAIN_A (03_sense_path.md: PPk registers). -/
def PP_GAIN_A (v : Vat) (i : Nat) : Nat := v.base + 0x04101804 + i * 0x20
def PP_GAIN_A_VAL (v : Vat) (i : Nat) : Field := ⟨PP_GAIN_A v i, 0, 32⟩
/-- Register PP_GAIN_B (03_sense_path.md: PPk registers). -/
def PP_GAIN_B (v : Vat) (i : Nat) : Nat := v.base + 0x04101808 + i * 0x20
def PP_GAIN_B_VAL (v : Vat) (i : Nat) : Field := ⟨PP_GAIN_B v i, 0, 32⟩
/-- Register PP_OFFS (03_sense_path.md: PPk registers). -/
def PP_OFFS (v : Vat) (i : Nat) : Nat := v.base + 0x0410180c + i * 0x20
def PP_OFFS_VAL (v : Vat) (i : Nat) : Field := ⟨PP_OFFS v i, 0, 32⟩
/-- Register PP_THR (03_sense_path.md: PPk registers). -/
def PP_THR (v : Vat) (i : Nat) : Nat := v.base + 0x04101810 + i * 0x20
def PP_THR_VAL (v : Vat) (i : Nat) : Field := ⟨PP_THR v i, 0, 32⟩
/-- Register PP_STAT (03_sense_path.md: PPk registers). -/
def PP_STAT (v : Vat) (i : Nat) : Nat := v.base + 0x04101814 + i * 0x20
def PP_STAT_COUNT (v : Vat) (i : Nat) : Field := ⟨PP_STAT v i, 0, 8⟩
def PP_STAT_FAULT_F (v : Vat) (i : Nat) : Field := ⟨PP_STAT v i, 8, 1⟩
def PP_STAT_INVAL (v : Vat) (i : Nat) : Field := ⟨PP_STAT v i, 9, 1⟩
/-- Register PP_LAST_D (03_sense_path.md: PPk registers). -/
def PP_LAST_D (v : Vat) (i : Nat) : Nat := v.base + 0x04101818 + i * 0x20
def PP_LAST_D_VAL (v : Vat) (i : Nat) : Field := ⟨PP_LAST_D v i, 0, 32⟩
/-- Register AUX_CFG (04_aux_conversion.md: AUXk registers). -/
def AUX_CFG (v : Vat) (i : Nat) : Nat := v.base + 0x04200000 + i * 0x400
def AUX_CFG_DIV (v : Vat) (i : Nat) : Field := ⟨AUX_CFG v i, 0, 6⟩
def AUX_CFG_EN (v : Vat) (i : Nat) : Field := ⟨AUX_CFG v i, 6, 1⟩
def AUX_CFG_RMODE (v : Vat) (i : Nat) : Field := ⟨AUX_CFG v i, 7, 1⟩
def AUX_CFG_RPORT (v : Vat) (i : Nat) : Field := ⟨AUX_CFG v i, 8, 3⟩
def AUX_CFG_RLEN (v : Vat) (i : Nat) : Field := ⟨AUX_CFG v i, 16, 5⟩
/-- Register AUX_RSEQ0 (04_aux_conversion.md: AUXk registers). -/
def AUX_RSEQ0 (v : Vat) (i : Nat) : Nat := v.base + 0x04200004 + i * 0x400
def AUX_RSEQ0_VAL (v : Vat) (i : Nat) : Field := ⟨AUX_RSEQ0 v i, 0, 32⟩
/-- Register AUX_RSEQ1 (04_aux_conversion.md: AUXk registers). -/
def AUX_RSEQ1 (v : Vat) (i : Nat) : Nat := v.base + 0x04200008 + i * 0x400
def AUX_RSEQ1_VAL (v : Vat) (i : Nat) : Field := ⟨AUX_RSEQ1 v i, 0, 32⟩
/-- Register AUX_INJ (04_aux_conversion.md: AUXk registers). -/
def AUX_INJ (v : Vat) (i : Nat) : Nat := v.base + 0x0420000c + i * 0x400
def AUX_INJ_ISEQ (v : Vat) (i : Nat) : Field := ⟨AUX_INJ v i, 0, 16⟩
def AUX_INJ_ILEN (v : Vat) (i : Nat) : Field := ⟨AUX_INJ v i, 16, 3⟩
def AUX_INJ_TRIG (v : Vat) (i : Nat) : Field := ⟨AUX_INJ v i, 20, 2⟩
def AUX_INJ_EVT (v : Vat) (i : Nat) : Field := ⟨AUX_INJ v i, 22, 1⟩
def AUX_INJ_IPORT (v : Vat) (i : Nat) : Field := ⟨AUX_INJ v i, 24, 3⟩
def AUX_INJ_TRIPSEL (v : Vat) (i : Nat) : Field := ⟨AUX_INJ v i, 27, 3⟩
/-- Register AUX_DATA (04_aux_conversion.md: AUXk registers). -/
def AUX_DATA (v : Vat) (i : Nat) : Nat := v.base + 0x04200010 + i * 0x400
def AUX_DATA_RESULT (v : Vat) (i : Nat) : Field := ⟨AUX_DATA v i, 0, 16⟩
def AUX_DATA_CHAN (v : Vat) (i : Nat) : Field := ⟨AUX_DATA v i, 16, 4⟩
def AUX_DATA_INJ (v : Vat) (i : Nat) : Field := ⟨AUX_DATA v i, 20, 1⟩
def AUX_DATA_FULL (v : Vat) (i : Nat) : Field := ⟨AUX_DATA v i, 21, 1⟩
/-- Register AUX_PEEK (04_aux_conversion.md: AUXk registers). -/
def AUX_PEEK (v : Vat) (i : Nat) : Nat := v.base + 0x04200014 + i * 0x400
def AUX_PEEK_VAL (v : Vat) (i : Nat) : Field := ⟨AUX_PEEK v i, 0, 32⟩
/-- Register AUX_STAT (04_aux_conversion.md: AUXk registers). -/
def AUX_STAT (v : Vat) (i : Nat) : Nat := v.base + 0x04200018 + i * 0x400
def AUX_STAT_OVR_F (v : Vat) (i : Nat) : Field := ⟨AUX_STAT v i, 0, 1⟩
def AUX_STAT_LINK_ERR_F (v : Vat) (i : Nat) : Field := ⟨AUX_STAT v i, 1, 1⟩
def AUX_STAT_LINK_FAIL (v : Vat) (i : Nat) : Field := ⟨AUX_STAT v i, 2, 1⟩
def AUX_STAT_INJ_LOST_F (v : Vat) (i : Nat) : Field := ⟨AUX_STAT v i, 3, 1⟩
def AUX_STAT_SEQ_LATE_F (v : Vat) (i : Nat) : Field := ⟨AUX_STAT v i, 4, 1⟩
def AUX_STAT_OVR_TAG (v : Vat) (i : Nat) : Field := ⟨AUX_STAT v i, 8, 4⟩
def AUX_STAT_ERRCNT (v : Vat) (i : Nat) : Field := ⟨AUX_STAT v i, 16, 16⟩
/-- Register AUX_CODING (04_aux_conversion.md: AUXk registers). -/
def AUX_CODING (v : Vat) (i : Nat) : Nat := v.base + 0x0420001c + i * 0x400
def AUX_CODING_CODING (v : Vat) (i : Nat) : Field := ⟨AUX_CODING v i, 0, 16⟩
def AUX_CODING_AGE_LIMIT (v : Vat) (i : Nat) : Field := ⟨AUX_CODING v i, 16, 16⟩
/-- Register AX (04_aux_conversion.md: Channel table, AXn at vat base + 0x0420_1000 + n × 4, n = 0–63). -/
def AX (v : Vat) (i : Nat) : Nat := v.base + 0x04201000 + i * 0x4
def AX_VALUE (v : Vat) (i : Nat) : Field := ⟨AX v i, 0, 16⟩
def AX_VALID (v : Vat) (i : Nat) : Field := ⟨AX v i, 16, 1⟩
def AX_STALE (v : Vat) (i : Nat) : Field := ⟨AX v i, 17, 1⟩
def AX_LINKF (v : Vat) (i : Nat) : Field := ⟨AX v i, 18, 1⟩
def AX_UPD (v : Vat) (i : Nat) : Field := ⟨AX v i, 24, 8⟩
/-- Register CE_STAT (05_control_engines.md: CEc engine registers). -/
def CE_STAT (v : Vat) (i : Nat) : Nat := v.base + 0x04300000 + i * 0x1000
def CE_STAT_STATE (v : Vat) (i : Nat) : Field := ⟨CE_STAT v i, 0, 2⟩
def CE_STAT_STFAIL (v : Vat) (i : Nat) : Field := ⟨CE_STAT v i, 2, 1⟩
def CE_STAT_STLATE_F (v : Vat) (i : Nat) : Field := ⟨CE_STAT v i, 3, 1⟩
def CE_STAT_STPASS (v : Vat) (i : Nat) : Field := ⟨CE_STAT v i, 16, 16⟩
/-- Register CE_STPER (05_control_engines.md: CEc engine registers). -/
def CE_STPER (v : Vat) (i : Nat) : Nat := v.base + 0x04300004 + i * 0x1000
def CE_STPER_STPER (v : Vat) (i : Nat) : Field := ⟨CE_STPER v i, 0, 8⟩
/-- Register CE_LOAD (05_control_engines.md: CEc engine registers). -/
def CE_LOAD (v : Vat) (i : Nat) : Nat := v.base + 0x04300008 + i * 0x1000
def CE_LOAD_NINST (v : Vat) (i : Nat) : Field := ⟨CE_LOAD v i, 0, 12⟩
def CE_LOAD_NGRAPH (v : Vat) (i : Nat) : Field := ⟨CE_LOAD v i, 12, 3⟩
def CE_LOAD_UTIL (v : Vat) (i : Nat) : Field := ⟨CE_LOAD v i, 20, 12⟩
/-- Register CE_WORDS (05_control_engines.md: CEc engine registers). -/
def CE_WORDS (v : Vat) (i : Nat) : Nat := v.base + 0x0430000c + i * 0x1000
def CE_WORDS_WORDS (v : Vat) (i : Nat) : Field := ⟨CE_WORDS v i, 0, 16⟩
/-- Register CE_TICKSTAT (05_control_engines.md: CEc engine registers). -/
def CE_TICKSTAT (v : Vat) (i : Nat) : Nat := v.base + 0x04300010 + i * 0x1000
def CE_TICKSTAT_MISS_F (v : Vat) (i : Nat) : Field := ⟨CE_TICKSTAT v i, 0, 4⟩
def CE_TICKSTAT_MIGR_F (v : Vat) (i : Nat) : Field := ⟨CE_TICKSTAT v i, 4, 4⟩
def CE_TICKSTAT_INVOUT_F (v : Vat) (i : Nat) : Field := ⟨CE_TICKSTAT v i, 8, 4⟩
/-- Register GS_BIND (05_control_engines.md: CEc graph slot registers, at 0x100 + s × 0x20). -/
def GS_BIND (v : Vat) (i j : Nat) : Nat := v.base + 0x04300100 + i * 0x1000 + j * 0x20
def GS_BIND_PORT (v : Vat) (i j : Nat) : Field := ⟨GS_BIND v i j, 0, 3⟩
def GS_BIND_BOUND (v : Vat) (i j : Nat) : Field := ⟨GS_BIND v i j, 3, 1⟩
def GS_BIND_FALLBACK (v : Vat) (i j : Nat) : Field := ⟨GS_BIND v i j, 4, 3⟩
def GS_BIND_FB_EN (v : Vat) (i j : Nat) : Field := ⟨GS_BIND v i j, 7, 1⟩
def GS_BIND_ORIGIN (v : Vat) (i j : Nat) : Field := ⟨GS_BIND v i j, 8, 3⟩
def GS_BIND_SPEC (v : Vat) (i j : Nat) : Field := ⟨GS_BIND v i j, 11, 1⟩
def GS_BIND_NBLK (v : Vat) (i j : Nat) : Field := ⟨GS_BIND v i j, 12, 12⟩
/-- Register GS_COST (05_control_engines.md: CEc graph slot registers, at 0x100 + s × 0x20). -/
def GS_COST (v : Vat) (i j : Nat) : Nat := v.base + 0x04300104 + i * 0x1000 + j * 0x20
def GS_COST_CYCLES (v : Vat) (i j : Nat) : Field := ⟨GS_COST v i j, 0, 16⟩
/-- Register GS_TICK (05_control_engines.md: CEc graph slot registers, at 0x100 + s × 0x20). -/
def GS_TICK (v : Vat) (i j : Nat) : Nat := v.base + 0x04300108 + i * 0x1000 + j * 0x20
def GS_TICK_VAL (v : Vat) (i j : Nat) : Field := ⟨GS_TICK v i j, 0, 32⟩
/-- Register GS_OUT (05_control_engines.md: CEc graph slot registers, at 0x100 + s × 0x20). -/
def GS_OUT (v : Vat) (i j : Nat) : Nat := v.base + 0x0430010c + i * 0x1000 + j * 0x20
def GS_OUT_OUTCOME (v : Vat) (i j : Nat) : Field := ⟨GS_OUT v i j, 0, 3⟩
def GS_OUT_SPECLAST (v : Vat) (i j : Nat) : Field := ⟨GS_OUT v i j, 3, 1⟩
def GS_OUT_MISSRUN (v : Vat) (i j : Nat) : Field := ⟨GS_OUT v i j, 4, 4⟩
def GS_OUT_DONE (v : Vat) (i j : Nat) : Field := ⟨GS_OUT v i j, 16, 16⟩
/-- Register GS_MISSES (05_control_engines.md: CEc graph slot registers, at 0x100 + s × 0x20). -/
def GS_MISSES (v : Vat) (i j : Nat) : Nat := v.base + 0x04300110 + i * 0x1000 + j * 0x20
def GS_MISSES_VAL (v : Vat) (i j : Nat) : Field := ⟨GS_MISSES v i j, 0, 32⟩
/-- Register MDL_CFG (06_run_ahead.md: MDLs_m registers). -/
def MDL_CFG (v : Vat) (i j k : Nat) : Nat := v.base + 0x04300200 + i * 0x1000 + j * 0x40 + k * 0x10
def MDL_CFG_VINST (v : Vat) (i j k : Nat) : Field := ⟨MDL_CFG v i j k, 0, 12⟩
def MDL_CFG_VOUT (v : Vat) (i j k : Nat) : Field := ⟨MDL_CFG v i j k, 12, 4⟩
def MDL_CFG_LSLOT (v : Vat) (i j k : Nat) : Field := ⟨MDL_CFG v i j k, 16, 2⟩
def MDL_CFG_LSEC (v : Vat) (i j k : Nat) : Field := ⟨MDL_CFG v i j k, 18, 1⟩
def MDL_CFG_DREF (v : Vat) (i j k : Nat) : Field := ⟨MDL_CFG v i j k, 19, 2⟩
def MDL_CFG_NEG (v : Vat) (i j k : Nat) : Field := ⟨MDL_CFG v i j k, 21, 1⟩
def MDL_CFG_EN (v : Vat) (i j k : Nat) : Field := ⟨MDL_CFG v i j k, 31, 1⟩
/-- Register MDL_IFS (06_run_ahead.md: MDLs_m registers). -/
def MDL_IFS (v : Vat) (i j k : Nat) : Nat := v.base + 0x04300204 + i * 0x1000 + j * 0x40 + k * 0x10
def MDL_IFS_VAL (v : Vat) (i j k : Nat) : Field := ⟨MDL_IFS v i j k, 0, 32⟩
/-- Register WHEY_STAT (06_run_ahead.md: WHEYc slot registers, at 0x000 + s × 0x200). -/
def WHEY_STAT (v : Vat) (i j : Nat) : Nat := v.base + 0x04380000 + i * 0x1000 + j * 0x200
def WHEY_STAT_PHASE (v : Vat) (i j : Nat) : Field := ⟨WHEY_STAT v i j, 0, 3⟩
def WHEY_STAT_BANK (v : Vat) (i j : Nat) : Field := ⟨WHEY_STAT v i j, 3, 1⟩
def WHEY_STAT_READY (v : Vat) (i j : Nat) : Field := ⟨WHEY_STAT v i j, 4, 1⟩
def WHEY_STAT_INH (v : Vat) (i j : Nat) : Field := ⟨WHEY_STAT v i j, 8, 4⟩
def WHEY_STAT_SPEC (v : Vat) (i j : Nat) : Field := ⟨WHEY_STAT v i j, 31, 1⟩
/-- Register WHEY_TICK (06_run_ahead.md: WHEYc slot registers, at 0x000 + s × 0x200). -/
def WHEY_TICK (v : Vat) (i j : Nat) : Nat := v.base + 0x04380004 + i * 0x1000 + j * 0x200
def WHEY_TICK_TICK (v : Vat) (i j : Nat) : Field := ⟨WHEY_TICK v i j, 0, 31⟩
def WHEY_TICK_SPEC (v : Vat) (i j : Nat) : Field := ⟨WHEY_TICK v i j, 31, 1⟩
/-- Register WHEY_NCOMMIT (06_run_ahead.md: WHEYc slot registers, at 0x000 + s × 0x200). -/
def WHEY_NCOMMIT (v : Vat) (i j : Nat) : Nat := v.base + 0x04380008 + i * 0x1000 + j * 0x200
def WHEY_NCOMMIT_NCOMMIT (v : Vat) (i j : Nat) : Field := ⟨WHEY_NCOMMIT v i j, 0, 31⟩
def WHEY_NCOMMIT_SPEC (v : Vat) (i j : Nat) : Field := ⟨WHEY_NCOMMIT v i j, 31, 1⟩
/-- Register WHEY_NSQUASH (06_run_ahead.md: WHEYc slot registers, at 0x000 + s × 0x200). -/
def WHEY_NSQUASH (v : Vat) (i j : Nat) : Nat := v.base + 0x0438000c + i * 0x1000 + j * 0x200
def WHEY_NSQUASH_NSQUASH (v : Vat) (i j : Nat) : Field := ⟨WHEY_NSQUASH v i j, 0, 31⟩
def WHEY_NSQUASH_SPEC (v : Vat) (i j : Nat) : Field := ⟨WHEY_NSQUASH v i j, 31, 1⟩
/-- Register WHEY_NDEFER (06_run_ahead.md: WHEYc slot registers, at 0x000 + s × 0x200). -/
def WHEY_NDEFER (v : Vat) (i j : Nat) : Nat := v.base + 0x04380010 + i * 0x1000 + j * 0x200
def WHEY_NDEFER_NDEFER (v : Vat) (i j : Nat) : Field := ⟨WHEY_NDEFER v i j, 0, 31⟩
def WHEY_NDEFER_SPEC (v : Vat) (i j : Nat) : Field := ⟨WHEY_NDEFER v i j, 31, 1⟩
/-- Register WHEY_NPLAIN (06_run_ahead.md: WHEYc slot registers, at 0x000 + s × 0x200). -/
def WHEY_NPLAIN (v : Vat) (i j : Nat) : Nat := v.base + 0x04380014 + i * 0x1000 + j * 0x200
def WHEY_NPLAIN_NPLAIN (v : Vat) (i j : Nat) : Field := ⟨WHEY_NPLAIN v i j, 0, 31⟩
def WHEY_NPLAIN_SPEC (v : Vat) (i j : Nat) : Field := ⟨WHEY_NPLAIN v i j, 31, 1⟩
/-- Register WHEY_SIZE (06_run_ahead.md: WHEYc slot registers, at 0x000 + s × 0x200). -/
def WHEY_SIZE (v : Vat) (i j : Nat) : Nat := v.base + 0x04380018 + i * 0x1000 + j * 0x200
def WHEY_SIZE_WSZ (v : Vat) (i j : Nat) : Field := ⟨WHEY_SIZE v i j, 0, 13⟩
def WHEY_SIZE_CT (v : Vat) (i j : Nat) : Field := ⟨WHEY_SIZE v i j, 16, 9⟩
def WHEY_SIZE_NPRED (v : Vat) (i j : Nat) : Field := ⟨WHEY_SIZE v i j, 25, 5⟩
/-- Register WHEY_BASE (06_run_ahead.md: WHEYc slot registers, at 0x000 + s × 0x200). -/
def WHEY_BASE (v : Vat) (i j : Nat) : Nat := v.base + 0x0438001c + i * 0x1000 + j * 0x200
def WHEY_BASE_BASE (v : Vat) (i j : Nat) : Field := ⟨WHEY_BASE v i j, 0, 13⟩
/-- Register WE_CFG (06_run_ahead.md: WHEYc entry registers, at slot + 0x040 + p × 0x10). -/
def WE_CFG (v : Vat) (i j k : Nat) : Nat := v.base + 0x04380040 + i * 0x1000 + j * 0x200 + k * 0x10
def WE_CFG_INST (v : Vat) (i j k : Nat) : Field := ⟨WE_CFG v i j k, 0, 12⟩
def WE_CFG_PTYPE (v : Vat) (i j k : Nat) : Field := ⟨WE_CFG v i j k, 12, 3⟩
def WE_CFG_FOLD (v : Vat) (i j k : Nat) : Field := ⟨WE_CFG v i j k, 15, 1⟩
def WE_CFG_HIST (v : Vat) (i j k : Nat) : Field := ⟨WE_CFG v i j k, 16, 2⟩
def WE_CFG_OUT (v : Vat) (i j k : Nat) : Field := ⟨WE_CFG v i j k, 18, 1⟩
def WE_CFG_ABSENT (v : Vat) (i j k : Nat) : Field := ⟨WE_CFG v i j k, 19, 1⟩
/-- Register WE_TOL (06_run_ahead.md: WHEYc entry registers, at slot + 0x040 + p × 0x10). -/
def WE_TOL (v : Vat) (i j k : Nat) : Nat := v.base + 0x04380044 + i * 0x1000 + j * 0x200 + k * 0x10
def WE_TOL_TOL (v : Vat) (i j k : Nat) : Field := ⟨WE_TOL v i j k, 0, 15⟩
def WE_TOL_PEND (v : Vat) (i j k : Nat) : Field := ⟨WE_TOL v i j k, 16, 15⟩
def WE_TOL_SPEC (v : Vat) (i j k : Nat) : Field := ⟨WE_TOL v i j k, 31, 1⟩
/-- Register WE_XHAT (06_run_ahead.md: WHEYc entry registers, at slot + 0x040 + p × 0x10). -/
def WE_XHAT (v : Vat) (i j k : Nat) : Nat := v.base + 0x04380048 + i * 0x1000 + j * 0x200 + k * 0x10
def WE_XHAT_XHAT (v : Vat) (i j k : Nat) : Field := ⟨WE_XHAT v i j k, 0, 16⟩
def WE_XHAT_SPEC (v : Vat) (i j k : Nat) : Field := ⟨WE_XHAT v i j k, 31, 1⟩
/-- Register WE_RESID (06_run_ahead.md: WHEYc entry registers, at slot + 0x040 + p × 0x10). -/
def WE_RESID (v : Vat) (i j k : Nat) : Nat := v.base + 0x0438004c + i * 0x1000 + j * 0x200 + k * 0x10
def WE_RESID_RESID (v : Vat) (i j k : Nat) : Field := ⟨WE_RESID v i j k, 0, 16⟩
/-- Register WADDR (06_run_ahead.md: WHEYc bank access). -/
def WADDR (v : Vat) (i : Nat) : Nat := v.base + 0x04380800 + i * 0x1000
def WADDR_WADDR (v : Vat) (i : Nat) : Field := ⟨WADDR v i, 0, 13⟩
/-- Register WDATA_LO (06_run_ahead.md: WHEYc bank access). -/
def WDATA_LO (v : Vat) (i : Nat) : Nat := v.base + 0x04380804 + i * 0x1000
def WDATA_LO_WDATA_LO (v : Vat) (i : Nat) : Field := ⟨WDATA_LO v i, 0, 16⟩
def WDATA_LO_WSLOT (v : Vat) (i : Nat) : Field := ⟨WDATA_LO v i, 16, 2⟩
def WDATA_LO_WBANK (v : Vat) (i : Nat) : Field := ⟨WDATA_LO v i, 18, 1⟩
def WDATA_LO_INUSE (v : Vat) (i : Nat) : Field := ⟨WDATA_LO v i, 19, 1⟩
def WDATA_LO_SPEC (v : Vat) (i : Nat) : Field := ⟨WDATA_LO v i, 31, 1⟩
/-- Register WDATA_HI (06_run_ahead.md: WHEYc bank access). -/
def WDATA_HI (v : Vat) (i : Nat) : Nat := v.base + 0x04380808 + i * 0x1000
def WDATA_HI_WDATA_HI (v : Vat) (i : Nat) : Field := ⟨WDATA_HI v i, 0, 16⟩
def WDATA_HI_SPEC (v : Vat) (i : Nat) : Field := ⟨WDATA_HI v i, 31, 1⟩
/-- Register GRID_CFG (07_grid_forming.md: GRIDn registers). -/
def GRID_CFG (v : Vat) (i : Nat) : Nat := v.base + 0x04000300 + i * 0x400
def GRID_CFG_FSEL (v : Vat) (i : Nat) : Field := ⟨GRID_CFG v i, 0, 1⟩
def GRID_CFG_BSEN (v : Vat) (i : Nat) : Field := ⟨GRID_CFG v i, 1, 1⟩
def GRID_CFG_OLEN (v : Vat) (i : Nat) : Field := ⟨GRID_CFG v i, 2, 1⟩
def GRID_CFG_DEADLV (v : Vat) (i : Nat) : Field := ⟨GRID_CFG v i, 8, 8⟩
def GRID_CFG_TDB (v : Vat) (i : Nat) : Field := ⟨GRID_CFG v i, 16, 16⟩
/-- Register GRID_VNOM (07_grid_forming.md: GRIDn registers). -/
def GRID_VNOM (v : Vat) (i : Nat) : Nat := v.base + 0x04000304 + i * 0x400
def GRID_VNOM_VAL (v : Vat) (i : Nat) : Field := ⟨GRID_VNOM v i, 0, 32⟩
/-- Register GRID_VCH (07_grid_forming.md: GRIDn registers). -/
def GRID_VCH (v : Vat) (i : Nat) : Nat := v.base + 0x04000308 + i * 0x400
def GRID_VCH_VCH0 (v : Vat) (i : Nat) : Field := ⟨GRID_VCH v i, 0, 6⟩
def GRID_VCH_VE0 (v : Vat) (i : Nat) : Field := ⟨GRID_VCH v i, 7, 1⟩
def GRID_VCH_VCH1 (v : Vat) (i : Nat) : Field := ⟨GRID_VCH v i, 8, 6⟩
def GRID_VCH_VE1 (v : Vat) (i : Nat) : Field := ⟨GRID_VCH v i, 15, 1⟩
def GRID_VCH_VCH2 (v : Vat) (i : Nat) : Field := ⟨GRID_VCH v i, 16, 6⟩
def GRID_VCH_VE2 (v : Vat) (i : Nat) : Field := ⟨GRID_VCH v i, 23, 1⟩
/-- Register GRID_ICH (07_grid_forming.md: GRIDn registers). -/
def GRID_ICH (v : Vat) (i : Nat) : Nat := v.base + 0x0400030c + i * 0x400
def GRID_ICH_ICH0 (v : Vat) (i : Nat) : Field := ⟨GRID_ICH v i, 0, 6⟩
def GRID_ICH_IE0 (v : Vat) (i : Nat) : Field := ⟨GRID_ICH v i, 7, 1⟩
def GRID_ICH_ICH1 (v : Vat) (i : Nat) : Field := ⟨GRID_ICH v i, 8, 6⟩
def GRID_ICH_IE1 (v : Vat) (i : Nat) : Field := ⟨GRID_ICH v i, 15, 1⟩
def GRID_ICH_ICH2 (v : Vat) (i : Nat) : Field := ⟨GRID_ICH v i, 16, 6⟩
def GRID_ICH_IE2 (v : Vat) (i : Nat) : Field := ⟨GRID_ICH v i, 23, 1⟩
def GRID_ICH_ICH3 (v : Vat) (i : Nat) : Field := ⟨GRID_ICH v i, 24, 6⟩
def GRID_ICH_IE3 (v : Vat) (i : Nat) : Field := ⟨GRID_ICH v i, 31, 1⟩
/-- Register GRID_INST (07_grid_forming.md: GRIDn registers). -/
def GRID_INST (v : Vat) (i : Nat) : Nat := v.base + 0x04000310 + i * 0x400
def GRID_INST_RAMPI (v : Vat) (i : Nat) : Field := ⟨GRID_INST v i, 0, 12⟩
def GRID_INST_TRIPI (v : Vat) (i : Nat) : Field := ⟨GRID_INST v i, 12, 12⟩
def GRID_INST_TRIPO (v : Vat) (i : Nat) : Field := ⟨GRID_INST v i, 24, 4⟩
def GRID_INST_TRIP_EN (v : Vat) (i : Nat) : Field := ⟨GRID_INST v i, 31, 1⟩
/-- Register GRID_OLT (07_grid_forming.md: GRIDn registers). -/
def GRID_OLT (v : Vat) (i : Nat) : Nat := v.base + 0x04000314 + i * 0x400
def GRID_OLT_OLTIME (v : Vat) (i : Nat) : Field := ⟨GRID_OLT v i, 0, 11⟩
/-- Register GRID_STAT (07_grid_forming.md: GRIDn registers). -/
def GRID_STAT (v : Vat) (i : Nat) : Nat := v.base + 0x04000318 + i * 0x400
def GRID_STAT_OL (v : Vat) (i : Nat) : Field := ⟨GRID_STAT v i, 0, 1⟩
def GRID_STAT_VLOSS_F (v : Vat) (i : Nat) : Field := ⟨GRID_STAT v i, 1, 1⟩
def GRID_STAT_ILOSS_F (v : Vat) (i : Nat) : Field := ⟨GRID_STAT v i, 2, 1⟩
def GRID_STAT_OLEXP_F (v : Vat) (i : Nat) : Field := ⟨GRID_STAT v i, 3, 1⟩
def GRID_STAT_GTRIP_F (v : Vat) (i : Nat) : Field := ⟨GRID_STAT v i, 4, 1⟩
def GRID_STAT_DEAD (v : Vat) (i : Nat) : Field := ⟨GRID_STAT v i, 5, 1⟩
def GRID_STAT_OL_LEFT (v : Vat) (i : Nat) : Field := ⟨GRID_STAT v i, 16, 16⟩
/-- Register GRID_REST (07_grid_forming.md: GRIDn registers). -/
def GRID_REST (v : Vat) (i : Nat) : Nat := v.base + 0x0400031c + i * 0x400
def GRID_REST_REN (v : Vat) (i : Nat) : Field := ⟨GRID_REST v i, 0, 1⟩
def GRID_REST_RSRC (v : Vat) (i : Nat) : Field := ⟨GRID_REST v i, 1, 1⟩
def GRID_REST_RFINST (v : Vat) (i : Nat) : Field := ⟨GRID_REST v i, 8, 12⟩
def GRID_REST_RFOUT (v : Vat) (i : Nat) : Field := ⟨GRID_REST v i, 20, 4⟩
def GRID_REST_RDECAY (v : Vat) (i : Nat) : Field := ⟨GRID_REST v i, 24, 8⟩
/-- Register GRID_SET (07_grid_forming.md: GRIDn registers). -/
def GRID_SET (v : Vat) (i : Nat) : Nat := v.base + 0x04000320 + i * 0x400
def GRID_SET_SET_ID (v : Vat) (i : Nat) : Field := ⟨GRID_SET v i, 0, 16⟩
def GRID_SET_SRC_ID (v : Vat) (i : Nat) : Field := ⟨GRID_SET v i, 16, 16⟩
/-- Register GRID_PER (07_grid_forming.md: GRIDn registers). -/
def GRID_PER (v : Vat) (i : Nat) : Nat := v.base + 0x04000324 + i * 0x400
def GRID_PER_PER (v : Vat) (i : Nat) : Field := ⟨GRID_PER v i, 0, 16⟩
def GRID_PER_LEAD (v : Vat) (i : Nat) : Field := ⟨GRID_PER v i, 16, 16⟩
/-- Register GRID_KR (07_grid_forming.md: GRIDn registers). -/
def GRID_KR (v : Vat) (i : Nat) : Nat := v.base + 0x04000328 + i * 0x400
def GRID_KR_VAL (v : Vat) (i : Nat) : Field := ⟨GRID_KR v i, 0, 32⟩
/-- Register GRID_RMAX (07_grid_forming.md: GRIDn registers). -/
def GRID_RMAX (v : Vat) (i : Nat) : Nat := v.base + 0x0400032c + i * 0x400
def GRID_RMAX_VAL (v : Vat) (i : Nat) : Field := ⟨GRID_RMAX v i, 0, 32⟩
/-- Register GRID_RSTAT (07_grid_forming.md: GRIDn registers). -/
def GRID_RSTAT (v : Vat) (i : Nat) : Nat := v.base + 0x04000330 + i * 0x400
def GRID_RSTAT_RLIVE (v : Vat) (i : Nat) : Field := ⟨GRID_RSTAT v i, 0, 1⟩
def GRID_RSTAT_RLOSS_F (v : Vat) (i : Nat) : Field := ⟨GRID_RSTAT v i, 1, 1⟩
def GRID_RSTAT_RCONF_F (v : Vat) (i : Nat) : Field := ⟨GRID_RSTAT v i, 2, 1⟩
def GRID_RSTAT_RLATE_F (v : Vat) (i : Nat) : Field := ⟨GRID_RSTAT v i, 3, 1⟩
def GRID_RSTAT_RXCNT (v : Vat) (i : Nat) : Field := ⟨GRID_RSTAT v i, 16, 16⟩
/-- Register GRID_DFR (07_grid_forming.md: GRIDn registers). -/
def GRID_DFR (v : Vat) (i : Nat) : Nat := v.base + 0x04000334 + i * 0x400
def GRID_DFR_VAL (v : Vat) (i : Nat) : Field := ⟨GRID_DFR v i, 0, 32⟩
/-- Register POS_CFG (08_traction_and_dc.md: POSi registers). -/
def POS_CFG (v : Vat) (i : Nat) : Nat := v.base + 0x04202000 + i * 0x40
def POS_CFG_EN (v : Vat) (i : Nat) : Field := ⟨POS_CFG v i, 0, 1⟩
def POS_CFG_PORT (v : Vat) (i : Nat) : Field := ⟨POS_CFG v i, 1, 3⟩
def POS_CFG_FILT (v : Vat) (i : Nat) : Field := ⟨POS_CFG v i, 8, 8⟩
def POS_CFG_ZMODE (v : Vat) (i : Nat) : Field := ⟨POS_CFG v i, 16, 2⟩
def POS_CFG_ERRBIT (v : Vat) (i : Nat) : Field := ⟨POS_CFG v i, 18, 5⟩
def POS_CFG_BADMAX (v : Vat) (i : Nat) : Field := ⟨POS_CFG v i, 23, 3⟩
def POS_CFG_TMONO (v : Vat) (i : Nat) : Field := ⟨POS_CFG v i, 26, 6⟩
def POS_CFG_GRAY (v : Vat) (i : Nat) : Field := ⟨POS_CFG v i, 4, 1⟩
def POS_CFG_PAR (v : Vat) (i : Nat) : Field := ⟨POS_CFG v i, 5, 1⟩
def POS_CFG_ERREN (v : Vat) (i : Nat) : Field := ⟨POS_CFG v i, 6, 1⟩
def POS_CFG_NBITS1 (v : Vat) (i : Nat) : Field := ⟨POS_CFG v i, 8, 5⟩
def POS_CFG_POSLSB_LO (v : Vat) (i : Nat) : Field := ⟨POS_CFG v i, 13, 3⟩
def POS_CFG_POSLSB_HI (v : Vat) (i : Nat) : Field := ⟨POS_CFG v i, 16, 2⟩
/-- Register POS_COUNTS (08_traction_and_dc.md: POSi registers). -/
def POS_COUNTS (v : Vat) (i : Nat) : Nat := v.base + 0x04202004 + i * 0x40
def POS_COUNTS_COUNTS (v : Vat) (i : Nat) : Field := ⟨POS_COUNTS v i, 0, 24⟩
def POS_COUNTS_ZTOL (v : Vat) (i : Nat) : Field := ⟨POS_COUNTS v i, 24, 8⟩
/-- Register POS_ZPOS (08_traction_and_dc.md: POSi registers). -/
def POS_ZPOS (v : Vat) (i : Nat) : Nat := v.base + 0x04202008 + i * 0x40
def POS_ZPOS_ZPOS (v : Vat) (i : Nat) : Field := ⟨POS_ZPOS v i, 0, 24⟩
def POS_ZPOS_DIV (v : Vat) (i : Nat) : Field := ⟨POS_ZPOS v i, 0, 10⟩
def POS_ZPOS_CDLY (v : Vat) (i : Nat) : Field := ⟨POS_ZPOS v i, 10, 6⟩
def POS_ZPOS_JUMP (v : Vat) (i : Nat) : Field := ⟨POS_ZPOS v i, 16, 16⟩
/-- Register POS_FZ (08_traction_and_dc.md: POSi registers). -/
def POS_FZ (v : Vat) (i : Nat) : Nat := v.base + 0x0420200c + i * 0x40
def POS_FZ_FZ_COUNT (v : Vat) (i : Nat) : Field := ⟨POS_FZ v i, 0, 8⟩
def POS_FZ_FZ_EN (v : Vat) (i : Nat) : Field := ⟨POS_FZ v i, 8, 1⟩
def POS_FZ_MQO (v : Vat) (i : Nat) : Field := ⟨POS_FZ v i, 16, 4⟩
def POS_FZ_MQI (v : Vat) (i : Nat) : Field := ⟨POS_FZ v i, 20, 12⟩
/-- Register POS_COUNT (08_traction_and_dc.md: POSi registers). -/
def POS_COUNT (v : Vat) (i : Nat) : Nat := v.base + 0x04202010 + i * 0x40
def POS_COUNT_COUNT (v : Vat) (i : Nat) : Field := ⟨POS_COUNT v i, 0, 24⟩
/-- Register POS_TEDGE (08_traction_and_dc.md: POSi registers). -/
def POS_TEDGE (v : Vat) (i : Nat) : Nat := v.base + 0x04202014 + i * 0x40
def POS_TEDGE_VAL (v : Vat) (i : Nat) : Field := ⟨POS_TEDGE v i, 0, 32⟩
/-- Register POS_STAT (08_traction_and_dc.md: POSi registers). -/
def POS_STAT (v : Vat) (i : Nat) : Nat := v.base + 0x04202018 + i * 0x40
def POS_STAT_VALID (v : Vat) (i : Nat) : Field := ⟨POS_STAT v i, 0, 1⟩
def POS_STAT_STALE (v : Vat) (i : Nat) : Field := ⟨POS_STAT v i, 1, 1⟩
def POS_STAT_FROZEN (v : Vat) (i : Nat) : Field := ⟨POS_STAT v i, 2, 1⟩
def POS_STAT_REF (v : Vat) (i : Nat) : Field := ⟨POS_STAT v i, 3, 1⟩
def POS_STAT_PHERR_F (v : Vat) (i : Nat) : Field := ⟨POS_STAT v i, 4, 1⟩
def POS_STAT_IDXERR_F (v : Vat) (i : Nat) : Field := ⟨POS_STAT v i, 5, 1⟩
def POS_STAT_NORESP_F (v : Vat) (i : Nat) : Field := ⟨POS_STAT v i, 6, 1⟩
def POS_STAT_SKIP_F (v : Vat) (i : Nat) : Field := ⟨POS_STAT v i, 7, 1⟩
def POS_STAT_BADRUN (v : Vat) (i : Nat) : Field := ⟨POS_STAT v i, 8, 3⟩
def POS_STAT_ERRCNT (v : Vat) (i : Nat) : Field := ⟨POS_STAT v i, 16, 16⟩
/-- Register DRV_CFG (08_traction_and_dc.md: DRVn registers). -/
def DRV_CFG (v : Vat) (i : Nat) : Nat := v.base + 0x04000380 + i * 0x400
def DRV_CFG_PSRC (v : Vat) (i : Nat) : Field := ⟨DRV_CFG v i, 0, 3⟩
def DRV_CFG_PEN (v : Vat) (i : Nat) : Field := ⟨DRV_CFG v i, 3, 1⟩
def DRV_CFG_OBSEN (v : Vat) (i : Nat) : Field := ⟨DRV_CFG v i, 4, 1⟩
def DRV_CFG_TZR (v : Vat) (i : Nat) : Field := ⟨DRV_CFG v i, 16, 16⟩
/-- Register DRV_VMASK_LO (08_traction_and_dc.md: DRVn registers). -/
def DRV_VMASK_LO (v : Vat) (i : Nat) : Nat := v.base + 0x04000384 + i * 0x400
def DRV_VMASK_LO_VAL (v : Vat) (i : Nat) : Field := ⟨DRV_VMASK_LO v i, 0, 32⟩
/-- Register DRV_VMASK_HI (08_traction_and_dc.md: DRVn registers). -/
def DRV_VMASK_HI (v : Vat) (i : Nat) : Nat := v.base + 0x04000388 + i * 0x400
def DRV_VMASK_HI_VAL (v : Vat) (i : Nat) : Field := ⟨DRV_VMASK_HI v i, 0, 32⟩
/-- Register DRV_IMASK_LO (08_traction_and_dc.md: DRVn registers). -/
def DRV_IMASK_LO (v : Vat) (i : Nat) : Nat := v.base + 0x0400038c + i * 0x400
def DRV_IMASK_LO_VAL (v : Vat) (i : Nat) : Field := ⟨DRV_IMASK_LO v i, 0, 32⟩
/-- Register DRV_IMASK_HI (08_traction_and_dc.md: DRVn registers). -/
def DRV_IMASK_HI (v : Vat) (i : Nat) : Nat := v.base + 0x04000390 + i * 0x400
def DRV_IMASK_HI_VAL (v : Vat) (i : Nat) : Field := ⟨DRV_IMASK_HI v i, 0, 32⟩
/-- Register DRV_INST (08_traction_and_dc.md: DRVn registers). -/
def DRV_INST (v : Vat) (i : Nat) : Nat := v.base + 0x04000394 + i * 0x400
def DRV_INST_EFFI (v : Vat) (i : Nat) : Field := ⟨DRV_INST v i, 0, 12⟩
def DRV_INST_EFFO (v : Vat) (i : Nat) : Field := ⟨DRV_INST v i, 12, 4⟩
def DRV_INST_WOI (v : Vat) (i : Nat) : Field := ⟨DRV_INST v i, 16, 12⟩
def DRV_INST_WOO (v : Vat) (i : Nat) : Field := ⟨DRV_INST v i, 28, 4⟩
/-- Register DRV_RATING (08_traction_and_dc.md: DRVn registers). -/
def DRV_RATING (v : Vat) (i : Nat) : Nat := v.base + 0x04000398 + i * 0x400
def DRV_RATING_VAL (v : Vat) (i : Nat) : Field := ⟨DRV_RATING v i, 0, 32⟩
/-- Register DRV_EZERO (08_traction_and_dc.md: DRVn registers). -/
def DRV_EZERO (v : Vat) (i : Nat) : Nat := v.base + 0x0400039c + i * 0x400
def DRV_EZERO_VAL (v : Vat) (i : Nat) : Field := ⟨DRV_EZERO v i, 0, 32⟩
/-- Register DRV_WSW (08_traction_and_dc.md: DRVn registers). -/
def DRV_WSW (v : Vat) (i : Nat) : Nat := v.base + 0x040003a0 + i * 0x400
def DRV_WSW_VAL (v : Vat) (i : Nat) : Field := ⟨DRV_WSW v i, 0, 32⟩
/-- Register DRV_OBST (08_traction_and_dc.md: DRVn registers). -/
def DRV_OBST (v : Vat) (i : Nat) : Nat := v.base + 0x040003a4 + i * 0x400
def DRV_OBST_OBSTIME (v : Vat) (i : Nat) : Field := ⟨DRV_OBST v i, 0, 11⟩
def DRV_OBST_TRIP_EN (v : Vat) (i : Nat) : Field := ⟨DRV_OBST v i, 11, 1⟩
def DRV_OBST_TRIPI (v : Vat) (i : Nat) : Field := ⟨DRV_OBST v i, 12, 12⟩
def DRV_OBST_TRIPO (v : Vat) (i : Nat) : Field := ⟨DRV_OBST v i, 24, 4⟩
/-- Register DRV_STAT (08_traction_and_dc.md: DRVn registers). -/
def DRV_STAT (v : Vat) (i : Nat) : Nat := v.base + 0x040003a8 + i * 0x400
def DRV_STAT_OBS (v : Vat) (i : Nat) : Field := ⟨DRV_STAT v i, 0, 1⟩
def DRV_STAT_ZR (v : Vat) (i : Nat) : Field := ⟨DRV_STAT v i, 1, 1⟩
def DRV_STAT_PLOSS_F (v : Vat) (i : Nat) : Field := ⟨DRV_STAT v i, 2, 1⟩
def DRV_STAT_ILOSS_F (v : Vat) (i : Nat) : Field := ⟨DRV_STAT v i, 3, 1⟩
def DRV_STAT_VLOSS_F (v : Vat) (i : Nat) : Field := ⟨DRV_STAT v i, 4, 1⟩
def DRV_STAT_OBSEXP_F (v : Vat) (i : Nat) : Field := ⟨DRV_STAT v i, 5, 1⟩
def DRV_STAT_ZRTO_F (v : Vat) (i : Nat) : Field := ⟨DRV_STAT v i, 6, 1⟩
def DRV_STAT_GTRIP_F (v : Vat) (i : Nat) : Field := ⟨DRV_STAT v i, 7, 1⟩
def DRV_STAT_OBS_LEFT (v : Vat) (i : Nat) : Field := ⟨DRV_STAT v i, 16, 16⟩
/-- Register PORT_CARCFG (09_pulse_generation.md: PORTn pulse registers). -/
def PORT_CARCFG (v : Vat) (i : Nat) : Nat := v.base + 0x04000010 + i * 0x400
def PORT_CARCFG_MODE (v : Vat) (i : Nat) : Field := ⟨PORT_CARCFG v i, 0, 1⟩
def PORT_CARCFG_TICKSEL (v : Vat) (i : Nat) : Field := ⟨PORT_CARCFG v i, 1, 2⟩
def PORT_CARCFG_RELSEL (v : Vat) (i : Nat) : Field := ⟨PORT_CARCFG v i, 3, 2⟩
def PORT_CARCFG_PHOFS (v : Vat) (i : Nat) : Field := ⟨PORT_CARCFG v i, 16, 16⟩
/-- Register PORT_PERIOD (09_pulse_generation.md: PORTn pulse registers). -/
def PORT_PERIOD (v : Vat) (i : Nat) : Nat := v.base + 0x04000014 + i * 0x400
def PORT_PERIOD_PERIOD (v : Vat) (i : Nat) : Field := ⟨PORT_PERIOD v i, 0, 16⟩
/-- Register PORT_PERLIM (09_pulse_generation.md: PORTn pulse registers). -/
def PORT_PERLIM (v : Vat) (i : Nat) : Nat := v.base + 0x04000018 + i * 0x400
def PORT_PERLIM_PERMIN (v : Vat) (i : Nat) : Field := ⟨PORT_PERLIM v i, 0, 16⟩
def PORT_PERLIM_PERMAX (v : Vat) (i : Nat) : Field := ⟨PORT_PERLIM v i, 16, 16⟩
/-- Register PORT_BLKCFG (09_pulse_generation.md: PORTn pulse registers). -/
def PORT_BLKCFG (v : Vat) (i : Nat) : Nat := v.base + 0x0400001c + i * 0x400
def PORT_BLKCFG_BLKDLY (v : Vat) (i : Nat) : Field := ⟨PORT_BLKCFG v i, 0, 8⟩
def PORT_BLKCFG_BLKLEN (v : Vat) (i : Nat) : Field := ⟨PORT_BLKCFG v i, 8, 8⟩
def PORT_BLKCFG_BLKLEGS (v : Vat) (i : Nat) : Field := ⟨PORT_BLKCFG v i, 16, 4⟩
/-- Register PORT_TICKNUM (09_pulse_generation.md: PORTn pulse registers). -/
def PORT_TICKNUM (v : Vat) (i : Nat) : Nat := v.base + 0x04000020 + i * 0x400
def PORT_TICKNUM_VAL (v : Vat) (i : Nat) : Field := ⟨PORT_TICKNUM v i, 0, 32⟩
/-- Register PORT_SETTAG (09_pulse_generation.md: PORTn pulse registers). -/
def PORT_SETTAG (v : Vat) (i : Nat) : Nat := v.base + 0x04000024 + i * 0x400
def PORT_SETTAG_VAL (v : Vat) (i : Nat) : Field := ⟨PORT_SETTAG v i, 0, 32⟩
/-- Register PORT_PERACT (09_pulse_generation.md: PORTn pulse registers). -/
def PORT_PERACT (v : Vat) (i : Nat) : Nat := v.base + 0x04000028 + i * 0x400
def PORT_PERACT_PERACT (v : Vat) (i : Nat) : Field := ⟨PORT_PERACT v i, 0, 16⟩
/-- Register PORT_PERSHD (09_pulse_generation.md: PORTn pulse registers). -/
def PORT_PERSHD (v : Vat) (i : Nat) : Nat := v.base + 0x0400002c + i * 0x400
def PORT_PERSHD_PERSHD (v : Vat) (i : Nat) : Field := ⟨PORT_PERSHD v i, 0, 16⟩
/-- Register PORT_PERTAG (09_pulse_generation.md: PORTn pulse registers). -/
def PORT_PERTAG (v : Vat) (i : Nat) : Nat := v.base + 0x04000030 + i * 0x400
def PORT_PERTAG_VAL (v : Vat) (i : Nat) : Field := ⟨PORT_PERTAG v i, 0, 32⟩
/-- Register PORT_PWMSTAT (09_pulse_generation.md: PORTn pulse registers). -/
def PORT_PWMSTAT (v : Vat) (i : Nat) : Nat := v.base + 0x04000034 + i * 0x400
def PORT_PWMSTAT_BURST (v : Vat) (i : Nat) : Field := ⟨PORT_PWMSTAT v i, 0, 1⟩
def PORT_PWMSTAT_BLK (v : Vat) (i : Nat) : Field := ⟨PORT_PWMSTAT v i, 1, 1⟩
def PORT_PWMSTAT_PERCLAMP_F (v : Vat) (i : Nat) : Field := ⟨PORT_PWMSTAT v i, 2, 1⟩
def PORT_PWMSTAT_COHRUN (v : Vat) (i : Nat) : Field := ⟨PORT_PWMSTAT v i, 3, 2⟩
def PORT_PWMSTAT_TRIPLAT (v : Vat) (i : Nat) : Field := ⟨PORT_PWMSTAT v i, 8, 8⟩
def PORT_PWMSTAT_COHERRS (v : Vat) (i : Nat) : Field := ⟨PORT_PWMSTAT v i, 16, 16⟩
/-- Register LEG_CFG (09_pulse_generation.md: LEGn registers, at vat base + 0x0402_0000 + n × 0x40). -/
def LEG_CFG (v : Vat) (i : Nat) : Nat := v.base + 0x04020000 + i * 0x40
def LEG_CFG_TDT (v : Vat) (i : Nat) : Field := ⟨LEG_CFG v i, 0, 2⟩
def LEG_CFG_MPSET (v : Vat) (i : Nat) : Field := ⟨LEG_CFG v i, 2, 2⟩
def LEG_CFG_MPMODE (v : Vat) (i : Nat) : Field := ⟨LEG_CFG v i, 4, 1⟩
/-- Register LEG_SHD (09_pulse_generation.md: LEGn registers, at vat base + 0x0402_0000 + n × 0x40). -/
def LEG_SHD (v : Vat) (i : Nat) : Nat := v.base + 0x04020004 + i * 0x40
def LEG_SHD_SHD (v : Vat) (i : Nat) : Field := ⟨LEG_SHD v i, 0, 16⟩
/-- Register LEG_SHTAG (09_pulse_generation.md: LEGn registers, at vat base + 0x0402_0000 + n × 0x40). -/
def LEG_SHTAG (v : Vat) (i : Nat) : Nat := v.base + 0x04020008 + i * 0x40
def LEG_SHTAG_VAL (v : Vat) (i : Nat) : Field := ⟨LEG_SHTAG v i, 0, 32⟩
/-- Register LEG_DUTY (09_pulse_generation.md: LEGn registers, at vat base + 0x0402_0000 + n × 0x40). -/
def LEG_DUTY (v : Vat) (i : Nat) : Nat := v.base + 0x0402000c + i * 0x40
def LEG_DUTY_DUTY (v : Vat) (i : Nat) : Field := ⟨LEG_DUTY v i, 0, 16⟩
/-- Register LEG_CMP (09_pulse_generation.md: LEGn registers, at vat base + 0x0402_0000 + n × 0x40). -/
def LEG_CMP (v : Vat) (i : Nat) : Nat := v.base + 0x04020010 + i * 0x40
def LEG_CMP_CMP (v : Vat) (i : Nat) : Field := ⟨LEG_CMP v i, 0, 21⟩
/-- Register LEG_MINP (09_pulse_generation.md: LEGn registers, at vat base + 0x0402_0000 + n × 0x40). -/
def LEG_MINP (v : Vat) (i : Nat) : Nat := v.base + 0x04020014 + i * 0x40
def LEG_MINP_DROPS (v : Vat) (i : Nat) : Field := ⟨LEG_MINP v i, 0, 16⟩
def LEG_MINP_STRETCHES (v : Vat) (i : Nat) : Field := ⟨LEG_MINP v i, 16, 16⟩
/-- Register LEG_PIN (09_pulse_generation.md: LEGn registers, at vat base + 0x0402_0000 + n × 0x40). -/
def LEG_PIN (v : Vat) (i : Nat) : Nat := v.base + 0x04020018 + i * 0x40
def LEG_PIN_PULSE (v : Vat) (i : Nat) : Field := ⟨LEG_PIN v i, 0, 1⟩
def LEG_PIN_EN (v : Vat) (i : Nat) : Field := ⟨LEG_PIN v i, 1, 1⟩
/-- Register PWM_COHERR (09_pulse_generation.md: PWM_COHERR, at vat base + 0x0402_0800). -/
def PWM_COHERR (v : Vat) : Nat := v.base + 0x04020800
def PWM_COHERR_COHERR_F (v : Vat) : Field := ⟨PWM_COHERR v, 0, 8⟩
def PWM_COHERR_COHESC_F (v : Vat) : Field := ⟨PWM_COHERR v, 8, 8⟩
/-- Register TRIP_CFG (09_pulse_generation.md: TRIPi registers, at vat base + 0x0402_0900 + i × 0x10). -/
def TRIP_CFG (v : Vat) (i : Nat) : Nat := v.base + 0x04020900 + i * 0x10
def TRIP_CFG_EN (v : Vat) (i : Nat) : Field := ⟨TRIP_CFG v i, 0, 1⟩
def TRIP_CFG_POL (v : Vat) (i : Nat) : Field := ⟨TRIP_CFG v i, 1, 1⟩
def TRIP_CFG_CLASS (v : Vat) (i : Nat) : Field := ⟨TRIP_CFG v i, 2, 1⟩
def TRIP_CFG_FILT (v : Vat) (i : Nat) : Field := ⟨TRIP_CFG v i, 3, 7⟩
def TRIP_CFG_PMASK (v : Vat) (i : Nat) : Field := ⟨TRIP_CFG v i, 16, 8⟩
/-- Register TRIP_STAT (09_pulse_generation.md: TRIPi registers, at vat base + 0x0402_0900 + i × 0x10). -/
def TRIP_STAT (v : Vat) (i : Nat) : Nat := v.base + 0x04020904 + i * 0x10
def TRIP_STAT_LEVEL (v : Vat) (i : Nat) : Field := ⟨TRIP_STAT v i, 0, 1⟩
def TRIP_STAT_TRIP_F (v : Vat) (i : Nat) : Field := ⟨TRIP_STAT v i, 1, 1⟩
def TRIP_STAT_BLKD_F (v : Vat) (i : Nat) : Field := ⟨TRIP_STAT v i, 2, 1⟩
def TRIP_STAT_BLKD (v : Vat) (i : Nat) : Field := ⟨TRIP_STAT v i, 16, 16⟩
/-- Register TRIP_COUNT (09_pulse_generation.md: TRIPi registers, at vat base + 0x0402_0900 + i × 0x10). -/
def TRIP_COUNT (v : Vat) (i : Nat) : Nat := v.base + 0x04020908 + i * 0x10
def TRIP_COUNT_VAL (v : Vat) (i : Nat) : Field := ⟨TRIP_COUNT v i, 0, 32⟩
/-- Register DLR_CFG (10_driver_link.md: DLRn registers). -/
def DLR_CFG (v : Vat) (i : Nat) : Nat := v.base + 0x04600000 + i * 0x20
def DLR_CFG_CLASS (v : Vat) (i : Nat) : Field := ⟨DLR_CFG v i, 0, 1⟩
def DLR_CFG_TBS_MAX (v : Vat) (i : Nat) : Field := ⟨DLR_CFG v i, 1, 11⟩
def DLR_CFG_TBS_REF (v : Vat) (i : Nat) : Field := ⟨DLR_CFG v i, 12, 9⟩
def DLR_CFG_FTO (v : Vat) (i : Nat) : Field := ⟨DLR_CFG v i, 21, 7⟩
/-- Register DLR_FRAME (10_driver_link.md: DLRn registers). -/
def DLR_FRAME (v : Vat) (i : Nat) : Nat := v.base + 0x04600004 + i * 0x20
def DLR_FRAME_FRAME (v : Vat) (i : Nat) : Field := ⟨DLR_FRAME v i, 0, 16⟩
/-- Register DLR_STAT (10_driver_link.md: DLRn registers). -/
def DLR_STAT (v : Vat) (i : Nat) : Nat := v.base + 0x04600008 + i * 0x20
def DLR_STAT_LINKOK (v : Vat) (i : Nat) : Field := ⟨DLR_STAT v i, 0, 1⟩
def DLR_STAT_BREAK (v : Vat) (i : Nat) : Field := ⟨DLR_STAT v i, 1, 1⟩
def DLR_STAT_CAUSE (v : Vat) (i : Nat) : Field := ⟨DLR_STAT v i, 2, 1⟩
def DLR_STAT_HUVMASK (v : Vat) (i : Nat) : Field := ⟨DLR_STAT v i, 3, 1⟩
def DLR_STAT_FRERR_F (v : Vat) (i : Nat) : Field := ⟨DLR_STAT v i, 4, 1⟩
def DLR_STAT_LINKLOSS_F (v : Vat) (i : Nat) : Field := ⟨DLR_STAT v i, 5, 1⟩
def DLR_STAT_DRVF_F (v : Vat) (i : Nat) : Field := ⟨DLR_STAT v i, 6, 1⟩
def DLR_STAT_MISM_F (v : Vat) (i : Nat) : Field := ⟨DLR_STAT v i, 7, 1⟩
def DLR_STAT_REFUV_F (v : Vat) (i : Nat) : Field := ⟨DLR_STAT v i, 8, 1⟩
def DLR_STAT_FRERRS (v : Vat) (i : Nat) : Field := ⟨DLR_STAT v i, 16, 16⟩
/-- Register DLR_CNT (10_driver_link.md: DLRn registers). -/
def DLR_CNT (v : Vat) (i : Nat) : Nat := v.base + 0x0460000c + i * 0x20
def DLR_CNT_REFRESH (v : Vat) (i : Nat) : Field := ⟨DLR_CNT v i, 0, 16⟩
def DLR_CNT_BREAKS (v : Vat) (i : Nat) : Field := ⟨DLR_CNT v i, 16, 16⟩
/-- Register DLR_H (10_driver_link.md: DLRn registers). -/
def DLR_H (v : Vat) (i : Nat) : Nat := v.base + 0x04600010 + i * 0x20
def DLR_H_HNOW (v : Vat) (i : Nat) : Field := ⟨DLR_H v i, 0, 12⟩
/-- Register PORT_FPCFG (10_driver_link.md: PORTn_FPCFG, offset 0x040). -/
def PORT_FPCFG (v : Vat) (i : Nat) : Nat := v.base + 0x04000040 + i * 0x400
def PORT_FPCFG_FP (v : Vat) (i : Nat) : Field := ⟨PORT_FPCFG v i, 0, 2⟩
def PORT_FPCFG_FB (v : Vat) (i : Nat) : Field := ⟨PORT_FPCFG v i, 2, 1⟩
def PORT_FPCFG_ASCT (v : Vat) (i : Nat) : Field := ⟨PORT_FPCFG v i, 8, 16⟩
def PORT_FPCFG_PATNOW (v : Vat) (i : Nat) : Field := ⟨PORT_FPCFG v i, 24, 2⟩
/-- Register OWN_STAT (11_vats_and_takeover.md: Ownership arbiter registers). -/
def OWN_STAT : Nat := 0x40020000
def OWN_STAT_OWNER : Field := ⟨OWN_STAT, 0, 2⟩
def OWN_STAT_HANDOVER : Field := ⟨OWN_STAT, 2, 1⟩
def OWN_STAT_DRILL : Field := ⟨OWN_STAT, 3, 1⟩
def OWN_STAT_CAUSE : Field := ⟨OWN_STAT, 4, 4⟩
def OWN_STAT_CHANGES : Field := ⟨OWN_STAT, 16, 16⟩
/-- Register OWN_LEGPEND (11_vats_and_takeover.md: Ownership arbiter registers). -/
def OWN_LEGPEND : Nat := 0x40020004
def OWN_LEGPEND_VAL : Field := ⟨OWN_LEGPEND, 0, 32⟩
/-- Register OWN_CFG (11_vats_and_takeover.md: Ownership arbiter registers). -/
def OWN_CFG : Nat := 0x40020008
def OWN_CFG_FAILMAX : Field := ⟨OWN_CFG, 0, 4⟩
def OWN_CFG_UNATTR_WIN : Field := ⟨OWN_CFG, 8, 8⟩
def OWN_CFG_REJOIN_TO : Field := ⟨OWN_CFG, 16, 10⟩
/-- Register OWN_FP (11_vats_and_takeover.md: Ownership arbiter registers). -/
def OWN_FP : Nat := 0x4002000c
def OWN_FP_FP0 : Field := ⟨OWN_FP, 0, 2⟩
def OWN_FP_FP1 : Field := ⟨OWN_FP, 2, 2⟩
def OWN_FP_FP2 : Field := ⟨OWN_FP, 4, 2⟩
def OWN_FP_FP3 : Field := ⟨OWN_FP, 6, 2⟩
def OWN_FP_FP4 : Field := ⟨OWN_FP, 8, 2⟩
def OWN_FP_FP5 : Field := ⟨OWN_FP, 10, 2⟩
def OWN_FP_FP6 : Field := ⟨OWN_FP, 12, 2⟩
def OWN_FP_FP7 : Field := ⟨OWN_FP, 14, 2⟩
/-- Register OWN_MMF (11_vats_and_takeover.md: Ownership arbiter registers). -/
def OWN_MMF : Nat := 0x40020010
def OWN_MMF_CSIG_F : Field := ⟨OWN_MMF, 0, 1⟩
def OWN_MMF_RELOAD_F : Field := ⟨OWN_MMF, 1, 1⟩
def OWN_MMF_STATE_F : Field := ⟨OWN_MMF, 2, 1⟩
def OWN_MMF_LEVEL_F : Field := ⟨OWN_MMF, 3, 1⟩
def OWN_MMF_PADERR_F : Field := ⟨OWN_MMF, 4, 1⟩
def OWN_MMF_ASYM_F : Field := ⟨OWN_MMF, 5, 1⟩
def OWN_MMF_UNATTR_F : Field := ⟨OWN_MMF, 6, 1⟩
def OWN_MMF_MISMATCHES : Field := ⟨OWN_MMF, 16, 16⟩
/-- Register OWN_MMINFO (11_vats_and_takeover.md: Ownership arbiter registers). -/
def OWN_MMINFO : Nat := 0x40020014
def OWN_MMINFO_KIND : Field := ⟨OWN_MMINFO, 0, 3⟩
def OWN_MMINFO_ATTR : Field := ⟨OWN_MMINFO, 3, 2⟩
def OWN_MMINFO_LEG : Field := ⟨OWN_MMINFO, 8, 5⟩
def OWN_MMINFO_PORT : Field := ⟨OWN_MMINFO, 13, 3⟩
def OWN_MMINFO_ENGINE : Field := ⟨OWN_MMINFO, 16, 3⟩
def OWN_MMINFO_SLOT : Field := ⟨OWN_MMINFO, 19, 2⟩
/-- Register OWN_MMTICK (11_vats_and_takeover.md: Ownership arbiter registers). -/
def OWN_MMTICK : Nat := 0x40020018
def OWN_MMTICK_VAL : Field := ⟨OWN_MMTICK, 0, 32⟩
/-- Register OWN_DRILL (11_vats_and_takeover.md: Ownership arbiter registers). -/
def OWN_DRILL : Nat := 0x4002001c
def OWN_DRILL_OK_F : Field := ⟨OWN_DRILL, 0, 1⟩
def OWN_DRILL_FAIL_F : Field := ⟨OWN_DRILL, 1, 1⟩
def OWN_DRILL_ABORT_F : Field := ⟨OWN_DRILL, 2, 1⟩
def OWN_DRILL_DRILLS : Field := ⟨OWN_DRILL, 16, 16⟩
/-- Register OWN_DEG (11_vats_and_takeover.md: Ownership arbiter registers). -/
def OWN_DEG : Nat := 0x40020020
def OWN_DEG_DEG_CAUSE : Field := ⟨OWN_DEG, 0, 10⟩
/-- Register VAT_ROLE (11_vats_and_takeover.md: Vat role registers, offsets from vat base + 0x0450_0000). -/
def VAT_ROLE (v : Vat) : Nat := v.base + 0x04500000
def VAT_ROLE_ROLE (v : Vat) : Field := ⟨VAT_ROLE v, 0, 3⟩
def VAT_ROLE_SYNCOK (v : Vat) : Field := ⟨VAT_ROLE v, 3, 1⟩
def VAT_ROLE_FLT (v : Vat) : Field := ⟨VAT_ROLE v, 4, 1⟩
def VAT_ROLE_FLTSRC (v : Vat) : Field := ⟨VAT_ROLE v, 8, 8⟩
def VAT_ROLE_FAILS (v : Vat) : Field := ⟨VAT_ROLE v, 16, 4⟩
def VAT_ROLE_JOINING (v : Vat) : Field := ⟨VAT_ROLE v, 20, 1⟩
/-- Register VAT_HB (11_vats_and_takeover.md: Vat role registers, offsets from vat base + 0x0450_0000). -/
def VAT_HB (v : Vat) : Nat := v.base + 0x04500004
def VAT_HB_PEER_LOST_F (v : Vat) : Field := ⟨VAT_HB v, 0, 1⟩
def VAT_HB_HBCNT (v : Vat) : Field := ⟨VAT_HB v, 16, 16⟩
/-- Register VAT_JOIN (11_vats_and_takeover.md: Vat role registers, offsets from vat base + 0x0450_0000). -/
def VAT_JOIN (v : Vat) : Nat := v.base + 0x04500008
def VAT_JOIN_GLEFT (v : Vat) : Field := ⟨VAT_JOIN v, 0, 3⟩
def VAT_JOIN_GENG (v : Vat) : Field := ⟨VAT_JOIN v, 4, 3⟩
def VAT_JOIN_JOINFAIL_F (v : Vat) : Field := ⟨VAT_JOIN v, 7, 1⟩
def VAT_JOIN_JOINS (v : Vat) : Field := ⟨VAT_JOIN v, 16, 16⟩
/-- Register HARP_STAT (12_safety_functions.md: Harp and safety registers). -/
def HARP_STAT : Nat := 0x40030000
def HARP_STAT_IN : Field := ⟨HARP_STAT, 0, 4⟩
def HARP_STAT_DEM : Field := ⟨HARP_STAT, 4, 4⟩
def HARP_STAT_OUT : Field := ⟨HARP_STAT, 8, 4⟩
def HARP_STAT_FB : Field := ⟨HARP_STAT, 12, 4⟩
def HARP_STAT_TP : Field := ⟨HARP_STAT, 16, 4⟩
def HARP_STAT_GATE : Field := ⟨HARP_STAT, 20, 1⟩
/-- Register HARP_CFG (12_safety_functions.md: Harp and safety registers). -/
def HARP_CFG : Nat := 0x40030004
def HARP_CFG_FILT : Field := ⟨HARP_CFG, 0, 4⟩
def HARP_CFG_INEN : Field := ⟨HARP_CFG, 4, 4⟩
def HARP_CFG_PAIRA : Field := ⟨HARP_CFG, 8, 1⟩
def HARP_CFG_PAIRB : Field := ⟨HARP_CFG, 9, 1⟩
def HARP_CFG_FUNC : Field := ⟨HARP_CFG, 10, 4⟩
def HARP_CFG_DISC : Field := ⟨HARP_CFG, 16, 16⟩
/-- Register HARP_OUT (12_safety_functions.md: Harp and safety registers). -/
def HARP_OUT (i : Nat) : Nat := 0x40030010 + i * 0x4
def HARP_OUT_EN (i : Nat) : Field := ⟨HARP_OUT i, 0, 1⟩
def HARP_OUT_FBEN (i : Nat) : Field := ⟨HARP_OUT i, 1, 1⟩
def HARP_OUT_FBINV (i : Nat) : Field := ⟨HARP_OUT i, 2, 1⟩
def HARP_OUT_TPW (i : Nat) : Field := ⟨HARP_OUT i, 4, 8⟩
def HARP_OUT_TPPER (i : Nat) : Field := ⟨HARP_OUT i, 12, 11⟩
def HARP_OUT_FBTIME (i : Nat) : Field := ⟨HARP_OUT i, 23, 9⟩
/-- Register HARP_OUTDLY (12_safety_functions.md: Harp and safety registers). -/
def HARP_OUTDLY : Nat := 0x40030020
def HARP_OUTDLY_OFFDLY0 : Field := ⟨HARP_OUTDLY, 0, 8⟩
def HARP_OUTDLY_OFFDLY1 : Field := ⟨HARP_OUTDLY, 8, 8⟩
def HARP_OUTDLY_OFFDLY2 : Field := ⟨HARP_OUTDLY, 16, 8⟩
def HARP_OUTDLY_OFFDLY3 : Field := ⟨HARP_OUTDLY, 24, 8⟩
/-- Register SAFE_CFG (12_safety_functions.md: Harp and safety registers). -/
def SAFE_CFG : Nat := 0x40030024
def SAFE_CFG_DEGRADE_TIME : Field := ⟨SAFE_CFG, 0, 11⟩
def SAFE_CFG_SS1_TIME : Field := ⟨SAFE_CFG, 12, 16⟩
/-- Register SAFE_STAT (12_safety_functions.md: Harp and safety registers). -/
def SAFE_STAT : Nat := 0x40030028
def SAFE_STAT_SS1_ACT : Field := ⟨SAFE_STAT, 0, 1⟩
def SAFE_STAT_STO : Field := ⟨SAFE_STAT, 1, 1⟩
def SAFE_STAT_RIDE : Field := ⟨SAFE_STAT, 2, 1⟩
def SAFE_STAT_RAIL : Field := ⟨SAFE_STAT, 3, 1⟩
def SAFE_STAT_DISC_A : Field := ⟨SAFE_STAT, 4, 1⟩
def SAFE_STAT_DISC_B : Field := ⟨SAFE_STAT, 5, 1⟩
def SAFE_STAT_SS1SRC : Field := ⟨SAFE_STAT, 6, 2⟩
def SAFE_STAT_STOSRC : Field := ⟨SAFE_STAT, 8, 3⟩
def SAFE_STAT_DG_LEFT : Field := ⟨SAFE_STAT, 16, 16⟩
/-- Register SAFE_FLAGS (12_safety_functions.md: Harp and safety registers). -/
def SAFE_FLAGS : Nat := 0x4003002c
def SAFE_FLAGS_DEMAND_F : Field := ⟨SAFE_FLAGS, 0, 1⟩
def SAFE_FLAGS_SS1_F : Field := ⟨SAFE_FLAGS, 1, 1⟩
def SAFE_FLAGS_STO_F : Field := ⟨SAFE_FLAGS, 2, 1⟩
def SAFE_FLAGS_RIDE_F : Field := ⟨SAFE_FLAGS, 3, 1⟩
def SAFE_FLAGS_RIDEEXP_F : Field := ⟨SAFE_FLAGS, 4, 1⟩
def SAFE_FLAGS_TPFAIL_F : Field := ⟨SAFE_FLAGS, 5, 1⟩
def SAFE_FLAGS_FBERR_F : Field := ⟨SAFE_FLAGS, 6, 1⟩
def SAFE_FLAGS_XSHORT_F : Field := ⟨SAFE_FLAGS, 7, 1⟩
def SAFE_FLAGS_TPABND_F : Field := ⟨SAFE_FLAGS, 8, 1⟩
def SAFE_FLAGS_DISC_F : Field := ⟨SAFE_FLAGS, 9, 1⟩
def SAFE_FLAGS_RAIL_F : Field := ⟨SAFE_FLAGS, 10, 1⟩
def SAFE_FLAGS_ORDLOST_F : Field := ⟨SAFE_FLAGS, 11, 1⟩
/-- Register HARP_CNT (12_safety_functions.md: Harp and safety registers). -/
def HARP_CNT : Nat := 0x40030030
def HARP_CNT_TESTS : Field := ⟨HARP_CNT, 0, 16⟩
def HARP_CNT_ABANDONED : Field := ⟨HARP_CNT, 16, 16⟩
/-- Register ORD_LOST (12_safety_functions.md: Harp and safety registers). -/
def ORD_LOST : Nat := 0x40030034
def ORD_LOST_SIGNAL : Field := ⟨ORD_LOST, 0, 16⟩
def ORD_LOST_LCHAN : Field := ⟨ORD_LOST, 16, 3⟩
def ORD_LOST_LRANK : Field := ⟨ORD_LOST, 19, 3⟩
def ORD_LOST_BYCLASS : Field := ⟨ORD_LOST, 22, 1⟩
def ORD_LOST_WCHAN : Field := ⟨ORD_LOST, 24, 3⟩
def ORD_LOST_WRANK : Field := ⟨ORD_LOST, 27, 3⟩
/-- Register SAFE_FAULT (12_safety_functions.md: Harp and safety registers). -/
def SAFE_FAULT : Nat := 0x40030038
def SAFE_FAULT_PP : Field := ⟨SAFE_FAULT, 0, 1⟩
def SAFE_FAULT_UNATTR : Field := ⟨SAFE_FAULT, 1, 1⟩
def SAFE_FAULT_PADREC : Field := ⟨SAFE_FAULT, 2, 1⟩
def SAFE_FAULT_TPFAIL : Field := ⟨SAFE_FAULT, 3, 1⟩
def SAFE_FAULT_FBERR : Field := ⟨SAFE_FAULT, 4, 1⟩
def SAFE_FAULT_XSHORT : Field := ⟨SAFE_FAULT, 5, 1⟩
def SAFE_FAULT_PPMASK : Field := ⟨SAFE_FAULT, 16, 16⟩
/-- Register ORD_CFG (12_safety_functions.md: Harp and safety registers). -/
def ORD_CFG : Nat := 0x4003003c
def ORD_CFG_SVC_RANK : Field := ⟨ORD_CFG, 0, 3⟩
/-- Register R_FW (13_rind.md: Rind window, offsets from 0x7000_0000). -/
def R_FW : Nat := 0x70000000
def R_FW_FWMINOR : Field := ⟨R_FW, 0, 8⟩
def R_FW_FWMAJOR : Field := ⟨R_FW, 8, 8⟩
/-- Register R_FWSUM (13_rind.md: Rind window, offsets from 0x7000_0000). -/
def R_FWSUM : Nat := 0x70000004
def R_FWSUM_VAL : Field := ⟨R_FWSUM, 0, 32⟩
/-- Register R_PARSUM (13_rind.md: Rind window, offsets from 0x7000_0000). -/
def R_PARSUM : Nat := 0x70000008
def R_PARSUM_VAL : Field := ⟨R_PARSUM, 0, 32⟩
/-- Register R_STAT (13_rind.md: Rind window, offsets from 0x7000_0000). -/
def R_STAT : Nat := 0x7000000c
def R_STAT_STATE : Field := ⟨R_STAT, 0, 2⟩
def R_STAT_SEAL : Field := ⟨R_STAT, 2, 1⟩
def R_STAT_FWERR : Field := ⟨R_STAT, 3, 1⟩
def R_STAT_PARERR : Field := ⟨R_STAT, 4, 1⟩
def R_STAT_NVERR : Field := ⟨R_STAT, 5, 1⟩
def R_STAT_TAPEN : Field := ⟨R_STAT, 6, 1⟩
def R_STAT_SESSION : Field := ⟨R_STAT, 7, 1⟩
def R_STAT_WDRST : Field := ⟨R_STAT, 8, 1⟩
def R_STAT_MTUNSET : Field := ⟨R_STAT, 9, 1⟩
def R_STAT_PULSOVF : Field := ⟨R_STAT, 10, 1⟩
def R_STAT_PUBSEQ : Field := ⟨R_STAT, 16, 16⟩
/-- Register R_AUDIT (13_rind.md: Rind window, offsets from 0x7000_0000). -/
def R_AUDIT : Nat := 0x70000010
def R_AUDIT_VAL : Field := ⟨R_AUDIT, 0, 32⟩
/-- Register R_SESSNUM (13_rind.md: Rind window, offsets from 0x7000_0000). -/
def R_SESSNUM : Nat := 0x70000014
def R_SESSNUM_VAL : Field := ⟨R_SESSNUM, 0, 32⟩
/-- Register R_MT_LO (13_rind.md: Rind window, offsets from 0x7000_0000). -/
def R_MT_LO : Nat := 0x70000018
def R_MT_LO_VAL : Field := ⟨R_MT_LO, 0, 32⟩
/-- Register R_MT_HI (13_rind.md: Rind window, offsets from 0x7000_0000). -/
def R_MT_HI : Nat := 0x7000001c
def R_MT_HI_VAL : Field := ⟨R_MT_HI, 0, 32⟩
/-- Register R_CORR (13_rind.md: Rind window, offsets from 0x7000_0000). -/
def R_CORR : Nat := 0x70000020
def R_CORR_BUDGET : Field := ⟨R_CORR, 0, 16⟩
def R_CORR_CORRSEQ : Field := ⟨R_CORR, 16, 16⟩
/-- Register R_MT_PEND (13_rind.md: Rind window, offsets from 0x7000_0000). -/
def R_MT_PEND : Nat := 0x70000024
def R_MT_PEND_VAL : Field := ⟨R_MT_PEND, 0, 32⟩
/-- Register R_LASTCORR (13_rind.md: Rind window, offsets from 0x7000_0000). -/
def R_LASTCORR : Nat := 0x70000028
def R_LASTCORR_LASTCORR : Field := ⟨R_LASTCORR, 0, 3⟩
/-- Register R_PULSEQ (13_rind.md: Rind window, offsets from 0x7000_0000). -/
def R_PULSEQ : Nat := 0x7000002c
def R_PULSEQ_PULSEQ : Field := ⟨R_PULSEQ, 0, 16⟩
/-- Register R_E (13_rind.md: Rind window, offsets from 0x7000_0000). -/
def R_E (i : Nat) : Nat := 0x70000040 + i * 0x4
def R_E_VAL (i : Nat) : Field := ⟨R_E i, 0, 32⟩
/-- Register R_IN (13_rind.md: Rind window, offsets from 0x7000_0000). -/
def R_IN (i : Nat) : Nat := 0x70000080 + i * 0x10
def R_IN_VAL (i : Nat) : Field := ⟨R_IN i, 0, 32⟩
/-- Register R_IN200 (13_rind.md: Rind window, offsets from 0x7000_0000). -/
def R_IN200 (i : Nat) : Nat := 0x70000084 + i * 0x10
def R_IN200_VAL (i : Nat) : Field := ⟨R_IN200 i, 0, 32⟩
/-- Register R_INST (13_rind.md: Rind window, offsets from 0x7000_0000). -/
def R_INST (i : Nat) : Nat := 0x70000088 + i * 0x10
def R_INST_VALID (i : Nat) : Field := ⟨R_INST i, 0, 1⟩
def R_INST_STALE (i : Nat) : Field := ⟨R_INST i, 1, 1⟩
def R_INST_SAT (i : Nat) : Field := ⟨R_INST i, 2, 1⟩
/-- Register R_PAC (13_rind.md: Rind window, offsets from 0x7000_0000). -/
def R_PAC : Nat := 0x70000100
def R_PAC_VAL : Field := ⟨R_PAC, 0, 32⟩
/-- Register R_QAC (13_rind.md: Rind window, offsets from 0x7000_0000). -/
def R_QAC : Nat := 0x70000104
def R_QAC_VAL : Field := ⟨R_QAC, 0, 32⟩
/-- Register R_FAC (13_rind.md: Rind window, offsets from 0x7000_0000). -/
def R_FAC : Nat := 0x70000108
def R_FAC_VAL : Field := ⟨R_FAC, 0, 32⟩
/-- Register R_PDC (13_rind.md: Rind window, offsets from 0x7000_0000). -/
def R_PDC : Nat := 0x7000010c
def R_PDC_VAL : Field := ⟨R_PDC, 0, 32⟩
/-- Register R_PUBKEY (13_rind.md: Rind window, offsets from 0x7000_0000). -/
def R_PUBKEY (i : Nat) : Nat := 0x70000140 + i * 0x4
def R_PUBKEY_VAL (i : Nat) : Field := ⟨R_PUBKEY i, 0, 32⟩
/-- Register R_PAR (13_rind.md: Rind window, offsets from 0x7000_0000). -/
def R_PAR (i : Nat) : Nat := 0x70000180 + i * 0x4
def R_PAR_VAL (i : Nat) : Field := ⟨R_PAR i, 0, 32⟩
/-- Register R_LASTREC (13_rind.md: Rind window, offsets from 0x7000_0000). -/
def R_LASTREC (i : Nat) : Nat := 0x70000200 + i * 0x4
def R_LASTREC_VAL (i : Nat) : Field := ⟨R_LASTREC i, 0, 32⟩
/-- Register TAP_DATA (13_rind.md: Tap and mailbox registers). -/
def TAP_DATA : Nat := 0x70010000
def TAP_DATA_SAMPLE : Field := ⟨TAP_DATA, 0, 24⟩
def TAP_DATA_VALID : Field := ⟨TAP_DATA, 24, 1⟩
def TAP_DATA_SUPP : Field := ⟨TAP_DATA, 25, 1⟩
def TAP_DATA_STALE : Field := ⟨TAP_DATA, 26, 1⟩
def TAP_DATA_RDOWN : Field := ⟨TAP_DATA, 27, 1⟩
/-- Register TAP_STAT (13_rind.md: Tap and mailbox registers). -/
def TAP_STAT : Nat := 0x70010004
def TAP_STAT_STALE_F : Field := ⟨TAP_STAT, 0, 1⟩
def TAP_STAT_RDOWN_F : Field := ⟨TAP_STAT, 1, 1⟩
def TAP_STAT_SETTLE_LEFT : Field := ⟨TAP_STAT, 8, 8⟩
def TAP_STAT_SEQ : Field := ⟨TAP_STAT, 16, 16⟩
/-- Register MT_MAIL (13_rind.md: Tap and mailbox registers). -/
def MT_MAIL (i : Nat) : Nat := 0x70010100 + i * 0x4
def MT_MAIL_VAL (i : Nat) : Field := ⟨MT_MAIL i, 0, 32⟩
/-- Register CAN_CFG (14_can_fd.md: CANn registers). -/
def CAN_CFG (i : Nat) : Nat := 0x40100000 + i * 0x1000
def CAN_CFG_MODE (i : Nat) : Field := ⟨CAN_CFG i, 0, 2⟩
def CAN_CFG_LONELY_LIMIT (i : Nat) : Field := ⟨CAN_CFG i, 8, 8⟩
def CAN_CFG_RETMAX (i : Nat) : Field := ⟨CAN_CFG i, 16, 4⟩
def CAN_CFG_KEYID (i : Nat) : Field := ⟨CAN_CFG i, 24, 8⟩
/-- Register CAN_BTNOM (14_can_fd.md: CANn registers). -/
def CAN_BTNOM (i : Nat) : Nat := 0x40100004 + i * 0x1000
def CAN_BTNOM_BRP (i : Nat) : Field := ⟨CAN_BTNOM i, 0, 6⟩
def CAN_BTNOM_SEG1 (i : Nat) : Field := ⟨CAN_BTNOM i, 8, 8⟩
def CAN_BTNOM_SEG2 (i : Nat) : Field := ⟨CAN_BTNOM i, 16, 7⟩
def CAN_BTNOM_SJW (i : Nat) : Field := ⟨CAN_BTNOM i, 24, 7⟩
/-- Register CAN_BTDATA (14_can_fd.md: CANn registers). -/
def CAN_BTDATA (i : Nat) : Nat := 0x40100008 + i * 0x1000
def CAN_BTDATA_BRP (i : Nat) : Field := ⟨CAN_BTDATA i, 0, 6⟩
def CAN_BTDATA_SEG1 (i : Nat) : Field := ⟨CAN_BTDATA i, 8, 5⟩
def CAN_BTDATA_SEG2 (i : Nat) : Field := ⟨CAN_BTDATA i, 16, 4⟩
def CAN_BTDATA_SJW (i : Nat) : Field := ⟨CAN_BTDATA i, 24, 4⟩
/-- Register CAN_TDC (14_can_fd.md: CANn registers). -/
def CAN_TDC (i : Nat) : Nat := 0x4010000c + i * 0x1000
def CAN_TDC_TDCO (i : Nat) : Field := ⟨CAN_TDC i, 0, 7⟩
def CAN_TDC_TDCEN (i : Nat) : Field := ⟨CAN_TDC i, 7, 1⟩
def CAN_TDC_TDCV (i : Nat) : Field := ⟨CAN_TDC i, 8, 7⟩
/-- Register CAN_STAT (14_can_fd.md: CANn registers). -/
def CAN_STAT (i : Nat) : Nat := 0x40100010 + i * 0x1000
def CAN_STAT_STATE (i : Nat) : Field := ⟨CAN_STAT i, 0, 2⟩
def CAN_STAT_BUS_ALONE (i : Nat) : Field := ⟨CAN_STAT i, 2, 1⟩
def CAN_STAT_RETIRED (i : Nat) : Field := ⟨CAN_STAT i, 3, 1⟩
def CAN_STAT_PRIV (i : Nat) : Field := ⟨CAN_STAT i, 4, 1⟩
def CAN_STAT_TEC (i : Nat) : Field := ⟨CAN_STAT i, 8, 8⟩
def CAN_STAT_REC (i : Nat) : Field := ⟨CAN_STAT i, 16, 8⟩
def CAN_STAT_ACKRUN (i : Nat) : Field := ⟨CAN_STAT i, 24, 8⟩
/-- Register CAN_FLAGS (14_can_fd.md: CANn registers). -/
def CAN_FLAGS (i : Nat) : Nat := 0x40100014 + i * 0x1000
def CAN_FLAGS_BOFF_F (i : Nat) : Field := ⟨CAN_FLAGS i, 0, 1⟩
def CAN_FLAGS_ALONE_F (i : Nat) : Field := ⟨CAN_FLAGS i, 1, 1⟩
def CAN_FLAGS_CANCEL_LATE_F (i : Nat) : Field := ⟨CAN_FLAGS i, 2, 1⟩
def CAN_FLAGS_AUTHERR_F (i : Nat) : Field := ⟨CAN_FLAGS i, 3, 1⟩
def CAN_FLAGS_TIMEOUT_F (i : Nat) : Field := ⟨CAN_FLAGS i, 4, 1⟩
def CAN_FLAGS_DLCERR_F (i : Nat) : Field := ⟨CAN_FLAGS i, 5, 1⟩
def CAN_FLAGS_TXLATE_F (i : Nat) : Field := ⟨CAN_FLAGS i, 6, 1⟩
def CAN_FLAGS_TXOVR_F (i : Nat) : Field := ⟨CAN_FLAGS i, 7, 1⟩
def CAN_FLAGS_RETIRE_F (i : Nat) : Field := ⟨CAN_FLAGS i, 8, 1⟩
/-- Register CAN_CNT (14_can_fd.md: CANn registers). -/
def CAN_CNT (i : Nat) : Nat := 0x40100018 + i * 0x1000
def CAN_CNT_BOFFS (i : Nat) : Field := ⟨CAN_CNT i, 0, 16⟩
def CAN_CNT_CANCEL_LATES (i : Nat) : Field := ⟨CAN_CNT i, 16, 16⟩
/-- Register CAN_ERRS (14_can_fd.md: CANn registers). -/
def CAN_ERRS (i : Nat) : Nat := 0x4010001c + i * 0x1000
def CAN_ERRS_AUTHERRS (i : Nat) : Field := ⟨CAN_ERRS i, 0, 16⟩
def CAN_ERRS_TIMEOUTS (i : Nat) : Field := ⟨CAN_ERRS i, 16, 16⟩
/-- Register CAN_TXQ (14_can_fd.md: CANn registers). -/
def CAN_TXQ (i : Nat) : Nat := 0x40100020 + i * 0x1000
def CAN_TXQ_DEPTH (i : Nat) : Field := ⟨CAN_TXQ i, 0, 5⟩
def CAN_TXQ_XBUSY (i : Nat) : Field := ⟨CAN_TXQ i, 5, 1⟩
/-- Register CAN_TSNOW (14_can_fd.md: CANn registers). -/
def CAN_TSNOW (i : Nat) : Nat := 0x40100024 + i * 0x1000
def CAN_TSNOW_VAL (i : Nat) : Field := ⟨CAN_TSNOW i, 0, 32⟩
/-- Register CANE_TS (14_can_fd.md: Entry status, at 0x400 + e × 8). -/
def CANE_TS (i j : Nat) : Nat := 0x40100400 + i * 0x1000 + j * 0x8
def CANE_TS_VAL (i j : Nat) : Field := ⟨CANE_TS i j, 0, 32⟩
/-- Register CANE_STAT (14_can_fd.md: Entry status, at 0x400 + e × 8). -/
def CANE_STAT (i j : Nat) : Nat := 0x40100404 + i * 0x1000 + j * 0x8
def CANE_STAT_TIMEDOUT (i j : Nat) : Field := ⟨CANE_STAT i j, 0, 1⟩
def CANE_STAT_WAITING (i j : Nat) : Field := ⟨CANE_STAT i j, 1, 1⟩
def CANE_STAT_MOVED (i j : Nat) : Field := ⟨CANE_STAT i j, 2, 1⟩
def CANE_STAT_FRAMES (i j : Nat) : Field := ⟨CANE_STAT i j, 16, 16⟩
/-- Register SIGDEF (14_can_fd.md: SIGDEFk, at 0x4010_8000 + k × 0x10). -/
def SIGDEF (i : Nat) : Nat := 0x40108000 + i * 0x10
def SIGDEF_KIND (i : Nat) : Field := ⟨SIGDEF i, 0, 2⟩
def SIGDEF_ENGINE (i : Nat) : Field := ⟨SIGDEF i, 2, 3⟩
def SIGDEF_INST (i : Nat) : Field := ⟨SIGDEF i, 8, 12⟩
def SIGDEF_OUT (i : Nat) : Field := ⟨SIGDEF i, 20, 4⟩
def SIGDEF_BITPOS (i : Nat) : Field := ⟨SIGDEF i, 24, 5⟩
/-- Register SIGDEF_ADDR (14_can_fd.md: SIGDEFk, at 0x4010_8000 + k × 0x10). -/
def SIGDEF_ADDR (i : Nat) : Nat := 0x40108004 + i * 0x10
def SIGDEF_ADDR_VAL (i : Nat) : Field := ⟨SIGDEF_ADDR i, 0, 32⟩
/-- Register SIGDEF_SCALE (14_can_fd.md: SIGDEFk, at 0x4010_8000 + k × 0x10). -/
def SIGDEF_SCALE (i : Nat) : Nat := 0x40108008 + i * 0x10
def SIGDEF_SCALE_VAL (i : Nat) : Field := ⟨SIGDEF_SCALE i, 0, 32⟩
/-- Register SIGDEF_OFFSET (14_can_fd.md: SIGDEFk, at 0x4010_8000 + k × 0x10). -/
def SIGDEF_OFFSET (i : Nat) : Nat := 0x4010800c + i * 0x10
def SIGDEF_OFFSET_VAL (i : Nat) : Field := ⟨SIGDEF_OFFSET i, 0, 32⟩
/-- Register ETH_CFG (15_network_time.md: ETHp registers, p = 0, 1, at 0x4020_0000 + p × 0x100). -/
def ETH_CFG (i : Nat) : Nat := 0x40200000 + i * 0x100
def ETH_CFG_EN (i : Nat) : Field := ⟨ETH_CFG i, 0, 1⟩
def ETH_CFG_IF (i : Nat) : Field := ⟨ETH_CFG i, 1, 1⟩
def ETH_CFG_SPEED (i : Nat) : Field := ⟨ETH_CFG i, 2, 2⟩
def ETH_CFG_TXDLY (i : Nat) : Field := ⟨ETH_CFG i, 4, 1⟩
def ETH_CFG_INLAT (i : Nat) : Field := ⟨ETH_CFG i, 8, 8⟩
def ETH_CFG_EGLAT (i : Nat) : Field := ⟨ETH_CFG i, 16, 8⟩
/-- Register ETH_STAT (15_network_time.md: ETHp registers, p = 0, 1, at 0x4020_0000 + p × 0x100). -/
def ETH_STAT (i : Nat) : Nat := 0x40200004 + i * 0x100
def ETH_STAT_LINK (i : Nat) : Field := ⟨ETH_STAT i, 0, 1⟩
def ETH_STAT_SPNOW (i : Nat) : Field := ⟨ETH_STAT i, 1, 2⟩
def ETH_STAT_LINKDN_F (i : Nat) : Field := ⟨ETH_STAT i, 3, 1⟩
def ETH_STAT_RXERR_F (i : Nat) : Field := ⟨ETH_STAT i, 4, 1⟩
def ETH_STAT_RXERRS (i : Nat) : Field := ⟨ETH_STAT i, 16, 16⟩
/-- Register ETH_LTQ (15_network_time.md: ETHp registers, p = 0, 1, at 0x4020_0000 + p × 0x100). -/
def ETH_LTQ (i j : Nat) : Nat := 0x40200040 + i * 0x100 + j * 0x4
def ETH_LTQ_LT_EN (i j : Nat) : Field := ⟨ETH_LTQ i j, 0, 1⟩
def ETH_LTQ_LATEMODE (i j : Nat) : Field := ⟨ETH_LTQ i j, 1, 1⟩
def ETH_LTQ_LATEWIN (i j : Nat) : Field := ⟨ETH_LTQ i j, 8, 8⟩
def ETH_LTQ_LATES (i j : Nat) : Field := ⟨ETH_LTQ i j, 16, 16⟩
/-- Register PTP_CFG (15_network_time.md: PTP, transparent clock and restoration registers). -/
def PTP_CFG : Nat := 0x40200800
def PTP_CFG_ROLE : Field := ⟨PTP_CFG, 0, 2⟩
def PTP_CFG_PROFILE : Field := ⟨PTP_CFG, 2, 1⟩
def PTP_CFG_TRANS : Field := ⟨PTP_CFG, 3, 1⟩
def PTP_CFG_DELAY : Field := ⟨PTP_CFG, 4, 1⟩
def PTP_CFG_ONESTEP : Field := ⟨PTP_CFG, 5, 1⟩
def PTP_CFG_GMCAP : Field := ⟨PTP_CFG, 6, 1⟩
def PTP_CFG_GM_OK : Field := ⟨PTP_CFG, 7, 1⟩
def PTP_CFG_DOMAIN : Field := ⟨PTP_CFG, 8, 8⟩
def PTP_CFG_PRIO1 : Field := ⟨PTP_CFG, 16, 8⟩
def PTP_CFG_PRIO2 : Field := ⟨PTP_CFG, 24, 8⟩
/-- Register PTP_INT (15_network_time.md: PTP, transparent clock and restoration registers). -/
def PTP_INT : Nat := 0x40200804
def PTP_INT_LOGSYNC : Field := ⟨PTP_INT, 0, 8⟩
def PTP_INT_LOGANN : Field := ⟨PTP_INT, 8, 8⟩
def PTP_INT_LOGDREQ : Field := ⟨PTP_INT, 16, 8⟩
def PTP_INT_ANNTO : Field := ⟨PTP_INT, 24, 8⟩
/-- Register SYNC_CFG (15_network_time.md: PTP, transparent clock and restoration registers). -/
def SYNC_CFG : Nat := 0x40200808
def SYNC_CFG_SYNC_THR : Field := ⟨SYNC_CFG, 0, 16⟩
def SYNC_CFG_LOSS : Field := ⟨SYNC_CFG, 16, 8⟩
def SYNC_CFG_STEPTHR : Field := ⟨SYNC_CFG, 24, 8⟩
/-- Register REST_ETYPE (15_network_time.md: PTP, transparent clock and restoration registers). -/
def REST_ETYPE : Nat := 0x4020080c
def REST_ETYPE_REST_ETYPE : Field := ⟨REST_ETYPE, 0, 16⟩
def REST_ETYPE_REST_UDP : Field := ⟨REST_ETYPE, 16, 16⟩
/-- Register REST_DST (15_network_time.md: PTP, transparent clock and restoration registers). -/
def REST_DST : Nat := 0x40200810
def REST_DST_VAL : Field := ⟨REST_DST, 0, 32⟩
/-- Register REST_MAC_LO (15_network_time.md: PTP, transparent clock and restoration registers). -/
def REST_MAC_LO : Nat := 0x40200814
def REST_MAC_LO_VAL : Field := ⟨REST_MAC_LO, 0, 32⟩
/-- Register REST_MAC_HI (15_network_time.md: PTP, transparent clock and restoration registers). -/
def REST_MAC_HI : Nat := 0x40200818
def REST_MAC_HI_REST_MAC_HI : Field := ⟨REST_MAC_HI, 0, 16⟩
/-- Register REST_Q (15_network_time.md: PTP, transparent clock and restoration registers). -/
def REST_Q : Nat := 0x4020081c
def REST_Q_REST_Q : Field := ⟨REST_Q, 0, 3⟩
def REST_Q_REST_LNCH : Field := ⟨REST_Q, 8, 10⟩
/-- Register TC_STAT (15_network_time.md: PTP, transparent clock and restoration registers). -/
def TC_STAT : Nat := 0x40200820
def TC_STAT_TCMISS : Field := ⟨TC_STAT, 0, 16⟩
def TC_STAT_TCOVR : Field := ⟨TC_STAT, 16, 16⟩
/-- Register NT_LO (15_network_time.md: Time-base registers). -/
def NT_LO : Nat := 0x40300000
def NT_LO_VAL : Field := ⟨NT_LO, 0, 32⟩
/-- Register NT_HI (15_network_time.md: Time-base registers). -/
def NT_HI : Nat := 0x40300004
def NT_HI_VAL : Field := ⟨NT_HI, 0, 32⟩
/-- Register NT_FREQ (15_network_time.md: Time-base registers). -/
def NT_FREQ : Nat := 0x40300008
def NT_FREQ_VAL : Field := ⟨NT_FREQ, 0, 32⟩
/-- Register NT_STEP_LO (15_network_time.md: Time-base registers). -/
def NT_STEP_LO : Nat := 0x4030000c
def NT_STEP_LO_VAL : Field := ⟨NT_STEP_LO, 0, 32⟩
/-- Register NT_STEP_HI (15_network_time.md: Time-base registers). -/
def NT_STEP_HI : Nat := 0x40300010
def NT_STEP_HI_VAL : Field := ⟨NT_STEP_HI, 0, 32⟩
/-- Register NT_CTL (15_network_time.md: Time-base registers). -/
def NT_CTL : Nat := 0x40300014
def NT_CTL_STEP_GO : Field := ⟨NT_CTL, 0, 1⟩
/-- Register NT_STAT (15_network_time.md: Time-base registers). -/
def NT_STAT : Nat := 0x40300018
def NT_STAT_SYNC : Field := ⟨NT_STAT, 0, 1⟩
def NT_STAT_GM : Field := ⟨NT_STAT, 1, 1⟩
def NT_STAT_HOLD : Field := ⟨NT_STAT, 2, 1⟩
def NT_STAT_FB : Field := ⟨NT_STAT, 3, 1⟩
def NT_STAT_SYNCLOSS_F : Field := ⟨NT_STAT, 4, 1⟩
def NT_STAT_STEP_F : Field := ⟨NT_STAT, 5, 1⟩
def NT_STAT_STEPS : Field := ⟨NT_STAT, 16, 8⟩
/-- Register VT_LO (15_network_time.md: Time-base registers). -/
def VT_LO : Nat := 0x40300020
def VT_LO_VAL : Field := ⟨VT_LO, 0, 32⟩
/-- Register VT_HI (15_network_time.md: Time-base registers). -/
def VT_HI : Nat := 0x40300024
def VT_HI_VAL : Field := ⟨VT_HI, 0, 32⟩
/-- Register PT_LO (15_network_time.md: Time-base registers). -/
def PT_LO : Nat := 0x40300028
def PT_LO_VAL : Field := ⟨PT_LO, 0, 32⟩
/-- Register PT_HI (15_network_time.md: Time-base registers). -/
def PT_HI : Nat := 0x4030002c
def PT_HI_VAL : Field := ⟨PT_HI, 0, 32⟩
/-- Register CTS_CTL (15_network_time.md: Time-base registers). -/
def CTS_CTL : Nat := 0x40300040
def CTS_CTL_REQ : Field := ⟨CTS_CTL, 0, 1⟩
def CTS_CTL_PPSCAP : Field := ⟨CTS_CTL, 1, 1⟩
def CTS_CTL_PPSPOL : Field := ⟨CTS_CTL, 2, 1⟩
/-- Register CTS_STAT (15_network_time.md: Time-base registers). -/
def CTS_STAT : Nat := 0x40300044
def CTS_STAT_SREQ : Field := ⟨CTS_STAT, 0, 1⟩
def CTS_STAT_SPPS : Field := ⟨CTS_STAT, 1, 1⟩
def CTS_STAT_MTVAL : Field := ⟨CTS_STAT, 2, 1⟩
def CTS_STAT_SEQ : Field := ⟨CTS_STAT, 16, 16⟩
/-- Register CTS_CAP (15_network_time.md: Time-base registers). -/
def CTS_CAP (i : Nat) : Nat := 0x40300048 + i * 0x4
def CTS_CAP_VAL (i : Nat) : Field := ⟨CTS_CAP i, 0, 32⟩
/-- Register CTS_MT_LO (15_network_time.md: Time-base registers). -/
def CTS_MT_LO : Nat := 0x40300060
def CTS_MT_LO_VAL : Field := ⟨CTS_MT_LO, 0, 32⟩
/-- Register CTS_MT_HI (15_network_time.md: Time-base registers). -/
def CTS_MT_HI : Nat := 0x40300064
def CTS_MT_HI_VAL : Field := ⟨CTS_MT_HI, 0, 32⟩
/-- Register CTS_MTFRAC (15_network_time.md: Time-base registers). -/
def CTS_MTFRAC : Nat := 0x40300068
def CTS_MTFRAC_MTFRAC : Field := ⟨CTS_MTFRAC, 0, 14⟩
/-- Register PPS_CFG (15_network_time.md: Time-base registers). -/
def PPS_CFG : Nat := 0x40300070
def PPS_CFG_OMODE : Field := ⟨PPS_CFG, 0, 2⟩
def PPS_CFG_PPSW : Field := ⟨PPS_CFG, 2, 9⟩
/-- Register PPS_STAT (15_network_time.md: Time-base registers). -/
def PPS_STAT : Nat := 0x40300074
def PPS_STAT_PPSIN_F : Field := ⟨PPS_STAT, 0, 1⟩
def PPS_STAT_PPSINS : Field := ⟨PPS_STAT, 16, 16⟩
/-- Register CLK_STAT (16_clocks.md: Clock registers). -/
def CLK_STAT : Nat := 0x40000000
def CLK_STAT_REF_OK : Field := ⟨CLK_STAT, 0, 1⟩
def CLK_STAT_GOOD : Field := ⟨CLK_STAT, 1, 6⟩
def CLK_STAT_HOLD : Field := ⟨CLK_STAT, 7, 1⟩
def CLK_STAT_PHASE_OK : Field := ⟨CLK_STAT, 8, 1⟩
def CLK_STAT_SLEW : Field := ⟨CLK_STAT, 9, 1⟩
def CLK_STAT_RAMP : Field := ⟨CLK_STAT, 10, 1⟩
def CLK_STAT_RO_OK : Field := ⟨CLK_STAT, 11, 1⟩
def CLK_STAT_RO_FREQ : Field := ⟨CLK_STAT, 16, 16⟩
/-- Register CLK_FLAGS (16_clocks.md: Clock registers). -/
def CLK_FLAGS : Nat := 0x40000004
def CLK_FLAGS_REFLOST_F : Field := ⟨CLK_FLAGS, 0, 1⟩
def CLK_FLAGS_LOSS_F : Field := ⟨CLK_FLAGS, 1, 6⟩
def CLK_FLAGS_ROFAIL_F : Field := ⟨CLK_FLAGS, 7, 1⟩
def CLK_FLAGS_HOLDS : Field := ⟨CLK_FLAGS, 16, 16⟩
/-- Register CLK_PHASE (16_clocks.md: Clock registers). -/
def CLK_PHASE : Nat := 0x40000008
def CLK_PHASE_PHERR : Field := ⟨CLK_PHASE, 0, 16⟩
/-- Register VAT_SSC (16_clocks.md: Clock registers). -/
def VAT_SSC : Nat := 0x40000010
def VAT_SSC_SSEN : Field := ⟨VAT_SSC, 0, 1⟩
def VAT_SSC_SSMODE : Field := ⟨VAT_SSC, 1, 1⟩
def VAT_SSC_DEPTH : Field := ⟨VAT_SSC, 8, 5⟩
/-- Register PLLT_RAMP (16_clocks.md: Clock registers). -/
def PLLT_RAMP : Nat := 0x40000014
def PLLT_RAMP_EN : Field := ⟨PLLT_RAMP, 0, 1⟩
def PLLT_RAMP_TABLE_ID : Field := ⟨PLLT_RAMP, 4, 12⟩
/-- Register PLLT_DEV (16_clocks.md: Clock registers). -/
def PLLT_DEV : Nat := 0x40000018
def PLLT_DEV_VAL : Field := ⟨PLLT_DEV, 0, 32⟩
/-- Register CKO_CFG (16_clocks.md: Clock registers). -/
def CKO_CFG (i : Nat) : Nat := 0x40000020 + i * 0x4
def CKO_CFG_FMT (i : Nat) : Field := ⟨CKO_CFG i, 0, 2⟩
def CKO_CFG_DRV (i : Nat) : Field := ⟨CKO_CFG i, 2, 2⟩
def CKO_CFG_SRC (i : Nat) : Field := ⟨CKO_CFG i, 4, 2⟩
def CKO_CFG_DIV (i : Nat) : Field := ⟨CKO_CFG i, 8, 9⟩
/-- Register MCLK_CFG (16_clocks.md: Clock registers). -/
def MCLK_CFG (i : Nat) : Nat := 0x40000040 + i * 0x4
def MCLK_CFG_FMT (i : Nat) : Field := ⟨MCLK_CFG i, 0, 2⟩
def MCLK_CFG_DRV (i : Nat) : Field := ⟨MCLK_CFG i, 2, 2⟩
/-- Register SYN (16_clocks.md: Clock registers). -/
def SYN (i : Nat) : Nat := 0x40000060 + i * 0x4
def SYN_N (i : Nat) : Field := ⟨SYN i, 0, 8⟩
def SYN_F (i : Nat) : Field := ⟨SYN i, 8, 4⟩
/-- Register DEV_STATE (17_reset_and_start.md: Reset and start registers). -/
def DEV_STATE : Nat := 0x40010000
def DEV_STATE_STATE : Field := ⟨DEV_STATE, 0, 4⟩
def DEV_STATE_BOOT : Field := ⟨DEV_STATE, 4, 2⟩
def DEV_STATE_TRIM_VALID : Field := ⟨DEV_STATE, 6, 1⟩
def DEV_STATE_RECSTRAP : Field := ⟨DEV_STATE, 7, 1⟩
/-- Register RST_CAUSE (17_reset_and_start.md: Reset and start registers). -/
def RST_CAUSE : Nat := 0x40010004
def RST_CAUSE_CODE : Field := ⟨RST_CAUSE, 0, 8⟩
def RST_CAUSE_VAT : Field := ⟨RST_CAUSE, 8, 2⟩
def RST_CAUSE_LEVEL : Field := ⟨RST_CAUSE, 10, 2⟩
def RST_CAUSE_RESETS : Field := ⟨RST_CAUSE, 16, 16⟩
/-- Register START_FAILS (17_reset_and_start.md: Reset and start registers). -/
def START_FAILS : Nat := 0x40010008
def START_FAILS_COUNT : Field := ⟨START_FAILS, 0, 4⟩
def START_FAILS_NVBAD : Field := ⟨START_FAILS, 4, 1⟩
def START_FAILS_BYCOUNT : Field := ⟨START_FAILS, 5, 1⟩
/-- Register HELD_RESET (17_reset_and_start.md: Reset and start registers). -/
def HELD_RESET : Nat := 0x4001000c
def HELD_RESET_HELD : Field := ⟨HELD_RESET, 0, 1⟩
def HELD_RESET_HELDMS : Field := ⟨HELD_RESET, 16, 16⟩
/-- Register START_STAT (17_reset_and_start.md: Reset and start registers). -/
def START_STAT : Nat := 0x40010010
def START_STAT_DOMAIN : Field := ⟨START_STAT, 0, 3⟩
def START_STAT_TRIES : Field := ⟨START_STAT, 3, 2⟩
def START_STAT_TRIMERR : Field := ⟨START_STAT, 5, 1⟩
def START_STAT_MEMERR : Field := ⟨START_STAT, 6, 1⟩
def START_STAT_RDY : Field := ⟨START_STAT, 16, 16⟩
/-- Register RST_REQ (17_reset_and_start.md: Reset and start registers). -/
def RST_REQ : Nat := 0x40010014
def RST_REQ_SYSREQ : Field := ⟨RST_REQ, 0, 1⟩
def RST_REQ_VATREQ : Field := ⟨RST_REQ, 1, 1⟩
/-- Register TRUST_STAT (18_trust_and_access.md: Trust and crypto registers). -/
def TRUST_STAT : Nat := 0x40400000
def TRUST_STAT_LIFE : Field := ⟨TRUST_STAT, 0, 2⟩
def TRUST_STAT_IDOK : Field := ⟨TRUST_STAT, 2, 1⟩
def TRUST_STAT_OSLOT : Field := ⟨TRUST_STAT, 3, 2⟩
def TRUST_STAT_DBG : Field := ⟨TRUST_STAT, 5, 2⟩
def TRUST_STAT_SESSION : Field := ⟨TRUST_STAT, 7, 1⟩
def TRUST_STAT_SLEVELS : Field := ⟨TRUST_STAT, 8, 5⟩
def TRUST_STAT_SESSIONS : Field := ⟨TRUST_STAT, 16, 16⟩
/-- Register TRUST_FLAGS (18_trust_and_access.md: Trust and crypto registers). -/
def TRUST_FLAGS : Nat := 0x40400004
def TRUST_FLAGS_AUTHFAIL_F : Field := ⟨TRUST_FLAGS, 0, 1⟩
def TRUST_FLAGS_PATCHREJ_F : Field := ⟨TRUST_FLAGS, 1, 1⟩
def TRUST_FLAGS_DBGWR_F : Field := ⟨TRUST_FLAGS, 2, 1⟩
def TRUST_FLAGS_AUTHFAILS : Field := ⟨TRUST_FLAGS, 16, 16⟩
/-- Register DEVID_PUB (18_trust_and_access.md: Trust and crypto registers). -/
def DEVID_PUB (i : Nat) : Nat := 0x40400040 + i * 0x4
def DEVID_PUB_VAL (i : Nat) : Field := ⟨DEVID_PUB i, 0, 32⟩
/-- Register OWNER_HASH (18_trust_and_access.md: Trust and crypto registers). -/
def OWNER_HASH (i : Nat) : Nat := 0x404000a0 + i * 0x4
def OWNER_HASH_VAL (i : Nat) : Field := ⟨OWNER_HASH i, 0, 32⟩
/-- Register PATCH_STAT (18_trust_and_access.md: Trust and crypto registers). -/
def PATCH_STAT : Nat := 0x40400100
def PATCH_STAT_APPLIED : Field := ⟨PATCH_STAT, 0, 1⟩
def PATCH_STAT_REJ : Field := ⟨PATCH_STAT, 8, 8⟩
/-- Register PVER (18_trust_and_access.md: Trust and crypto registers). -/
def PVER (i : Nat) : Nat := 0x40400104 + i * 0x4
def PVER_VAL (i : Nat) : Field := ⟨PVER i, 0, 32⟩
/-- Register PATCH_FLOOR (18_trust_and_access.md: Trust and crypto registers). -/
def PATCH_FLOOR (i : Nat) : Nat := 0x4040010c + i * 0x4
def PATCH_FLOOR_VAL (i : Nat) : Field := ⟨PATCH_FLOOR i, 0, 32⟩
/-- Register CERT_MIN (18_trust_and_access.md: Trust and crypto registers). -/
def CERT_MIN : Nat := 0x40400114
def CERT_MIN_VAL : Field := ⟨CERT_MIN, 0, 32⟩
/-- Register CFW_FROZEN (18_trust_and_access.md: Trust and crypto registers). -/
def CFW_FROZEN : Nat := 0x40400200
def CFW_FROZEN_FROZEN : Field := ⟨CFW_FROZEN, 0, 5⟩
/-- Register CFW_ADDR (18_trust_and_access.md: Trust and crypto registers). -/
def CFW_ADDR : Nat := 0x40400204
def CFW_ADDR_VAL : Field := ⟨CFW_ADDR, 0, 32⟩
/-- Register CFW_INFO (18_trust_and_access.md: Trust and crypto registers). -/
def CFW_INFO : Nat := 0x40400208
def CFW_INFO_MASTER : Field := ⟨CFW_INFO, 0, 6⟩
def CFW_INFO_WRITE : Field := ⟨CFW_INFO, 6, 1⟩
def CFW_INFO_REC_F : Field := ⟨CFW_INFO, 7, 1⟩
def CFW_INFO_VIOLS : Field := ⟨CFW_INFO, 16, 16⟩
/-- Register FW_BASE (18_trust_and_access.md: Vat firewall, offsets from vat base + 0x0440_0000). -/
def FW_BASE (v : Vat) (i : Nat) : Nat := v.base + 0x04400000 + i * 0x10
def FW_BASE_EN (v : Vat) (i : Nat) : Field := ⟨FW_BASE v i, 0, 1⟩
def FW_BASE_BASE (v : Vat) (i : Nat) : Field := ⟨FW_BASE v i, 12, 20⟩
/-- Register FW_LIMIT (18_trust_and_access.md: Vat firewall, offsets from vat base + 0x0440_0000). -/
def FW_LIMIT (v : Vat) (i : Nat) : Nat := v.base + 0x04400004 + i * 0x10
def FW_LIMIT_LIMIT (v : Vat) (i : Nat) : Field := ⟨FW_LIMIT v i, 12, 20⟩
/-- Register FW_RMASK (18_trust_and_access.md: Vat firewall, offsets from vat base + 0x0440_0000). -/
def FW_RMASK (v : Vat) (i : Nat) : Nat := v.base + 0x04400008 + i * 0x10
def FW_RMASK_RMASK (v : Vat) (i : Nat) : Field := ⟨FW_RMASK v i, 0, 8⟩
/-- Register FW_FROZEN (18_trust_and_access.md: Vat firewall, offsets from vat base + 0x0440_0000). -/
def FW_FROZEN (v : Vat) : Nat := v.base + 0x04400100
def FW_FROZEN_FROZEN (v : Vat) : Field := ⟨FW_FROZEN v, 0, 10⟩
/-- Register FW_ADDR (18_trust_and_access.md: Vat firewall, offsets from vat base + 0x0440_0000). -/
def FW_ADDR (v : Vat) : Nat := v.base + 0x04400104
def FW_ADDR_VAL (v : Vat) : Field := ⟨FW_ADDR v, 0, 32⟩
/-- Register FW_INFO (18_trust_and_access.md: Vat firewall, offsets from vat base + 0x0440_0000). -/
def FW_INFO (v : Vat) : Nat := v.base + 0x04400108
def FW_INFO_MASTER (v : Vat) : Field := ⟨FW_INFO v, 0, 4⟩
def FW_INFO_WRITE (v : Vat) : Field := ⟨FW_INFO v, 4, 1⟩
def FW_INFO_BYREGION (v : Vat) : Field := ⟨FW_INFO v, 5, 1⟩
def FW_INFO_REC_F (v : Vat) : Field := ⟨FW_INFO v, 6, 1⟩
def FW_INFO_VIOLS (v : Vat) : Field := ⟨FW_INFO v, 16, 16⟩
/-- Register LOG_HEAD (19_readback_and_records.md: Event log, recorder and Brine registers). -/
def LOG_HEAD : Nat := 0x40500000
def LOG_HEAD_HEAD : Field := ⟨LOG_HEAD, 0, 14⟩
def LOG_HEAD_WRAPS : Field := ⟨LOG_HEAD, 16, 16⟩
/-- Register LOG_STAT (19_readback_and_records.md: Event log, recorder and Brine registers). -/
def LOG_STAT : Nat := 0x40500004
def LOG_STAT_LOST_F : Field := ⟨LOG_STAT, 0, 1⟩
def LOG_STAT_LOST : Field := ⟨LOG_STAT, 16, 16⟩
/-- Register LOG_TAIL (19_readback_and_records.md: Event log, recorder and Brine registers). -/
def LOG_TAIL : Nat := 0x40500008
def LOG_TAIL_MLAG : Field := ⟨LOG_TAIL, 0, 9⟩
def LOG_TAIL_TAILSEL : Field := ⟨LOG_TAIL, 10, 2⟩
/-- Register REC_CFG (19_readback_and_records.md: Event log, recorder and Brine registers). -/
def REC_CFG : Nat := 0x40500100
def REC_CFG_EN : Field := ⟨REC_CFG, 0, 1⟩
def REC_CFG_SEGS : Field := ⟨REC_CFG, 1, 2⟩
def REC_CFG_OVWR : Field := ⟨REC_CFG, 3, 1⟩
def REC_CFG_RPORT : Field := ⟨REC_CFG, 4, 3⟩
def REC_CFG_NCH : Field := ⟨REC_CFG, 8, 6⟩
def REC_CFG_PRE : Field := ⟨REC_CFG, 16, 16⟩
/-- Register REC_POST (19_readback_and_records.md: Event log, recorder and Brine registers). -/
def REC_POST : Nat := 0x40500104
def REC_POST_POST : Field := ⟨REC_POST, 0, 16⟩
def REC_POST_TRIGLOST : Field := ⟨REC_POST, 16, 16⟩
/-- Register REC_CH (19_readback_and_records.md: Event log, recorder and Brine registers). -/
def REC_CH (i : Nat) : Nat := 0x40500108 + i * 0x4
def REC_CH_VAL (i : Nat) : Field := ⟨REC_CH i, 0, 32⟩
/-- Register REC_TRIG (19_readback_and_records.md: Event log, recorder and Brine registers). -/
def REC_TRIG (i : Nat) : Nat := 0x40500130 + i * 0x8
def REC_TRIG_TCODE (i : Nat) : Field := ⟨REC_TRIG i, 0, 16⟩
def REC_TRIG_TMASK (i : Nat) : Field := ⟨REC_TRIG i, 16, 16⟩
/-- Register REC_TRIGSRC (19_readback_and_records.md: Event log, recorder and Brine registers). -/
def REC_TRIGSRC (i : Nat) : Nat := 0x40500134 + i * 0x8
def REC_TRIGSRC_SOURCE (i : Nat) : Field := ⟨REC_TRIGSRC i, 0, 8⟩
def REC_TRIGSRC_SRCANY (i : Nat) : Field := ⟨REC_TRIGSRC i, 8, 1⟩
def REC_TRIGSRC_TEN (i : Nat) : Field := ⟨REC_TRIGSRC i, 9, 1⟩
/-- Register REC_STAT (19_readback_and_records.md: Event log, recorder and Brine registers). -/
def REC_STAT : Nat := 0x40500150
def REC_STAT_ARMSEG : Field := ⟨REC_STAT, 0, 3⟩
/-- Register BRINE_SBE (19_readback_and_records.md: Event log, recorder and Brine registers). -/
def BRINE_SBE (i : Nat) : Nat := 0x40500200 + i * 0x10
def BRINE_SBE_VAL (i : Nat) : Field := ⟨BRINE_SBE i, 0, 32⟩
/-- Register BRINE_DBE (19_readback_and_records.md: Event log, recorder and Brine registers). -/
def BRINE_DBE (i : Nat) : Nat := 0x40500204 + i * 0x10
def BRINE_DBE_DBE (i : Nat) : Field := ⟨BRINE_DBE i, 0, 16⟩
/-- Register BRINE_LAST (19_readback_and_records.md: Event log, recorder and Brine registers). -/
def BRINE_LAST (i : Nat) : Nat := 0x40500208 + i * 0x10
def BRINE_LAST_VAL (i : Nat) : Field := ⟨BRINE_LAST i, 0, 32⟩
/-- Register BRINE_FLAGS (19_readback_and_records.md: Event log, recorder and Brine registers). -/
def BRINE_FLAGS (i : Nat) : Nat := 0x4050020c + i * 0x10
def BRINE_FLAGS_SBE_F (i : Nat) : Field := ⟨BRINE_FLAGS i, 0, 1⟩
def BRINE_FLAGS_DBE_F (i : Nat) : Field := ⟨BRINE_FLAGS i, 1, 1⟩
/-- Register DEVICE_ID (20_address_map.md: Identification registers). -/
def DEVICE_ID : Nat := 0x40700000
def DEVICE_ID_VARIANT : Field := ⟨DEVICE_ID, 0, 8⟩
def DEVICE_ID_FAMILY : Field := ⟨DEVICE_ID, 16, 16⟩
/-- Register SILICON (20_address_map.md: Identification registers). -/
def SILICON : Nat := 0x40700004
def SILICON_MINOR : Field := ⟨SILICON, 0, 4⟩
def SILICON_MAJOR : Field := ⟨SILICON, 4, 4⟩
/-- Register ROM_VER (20_address_map.md: Identification registers). -/
def ROM_VER : Nat := 0x40700008
def ROM_VER_SUPROM : Field := ⟨ROM_VER, 0, 16⟩
def ROM_VER_STARTER : Field := ⟨ROM_VER, 16, 16⟩
/-- Register FEATURES (20_address_map.md: Identification registers). -/
def FEATURES : Nat := 0x4070000c
def FEATURES_VATB : Field := ⟨FEATURES, 0, 1⟩
def FEATURES_RIND : Field := ⟨FEATURES, 1, 1⟩
def FEATURES_LEGS : Field := ⟨FEATURES, 8, 8⟩
/-- Register SERIAL_LO (20_address_map.md: Identification registers). -/
def SERIAL_LO : Nat := 0x40700010
def SERIAL_LO_VAL : Field := ⟨SERIAL_LO, 0, 32⟩
/-- Register SERIAL_HI (20_address_map.md: Identification registers). -/
def SERIAL_HI : Nat := 0x40700014
def SERIAL_HI_VAL : Field := ⟨SERIAL_HI, 0, 32⟩

end Sys2Proof.Machine.R
end

