-- ==== Sys2Proof/Machine/State.lean ====
section
/-! DEFINITION. The state of the M72: the register file (every register of the spec's tables), the byte memory, the waiting
commands, and the state the spec gives the machine outside its registers. Plain data throughout. Every field has the value at
reset as its default; where the spec states none, the log entry named in INVENTORY.md does. -/

namespace Sys2Proof.Machine

open Sys2Proof

/-- The device states (R6). -/
inductive DevState where
  | off
  | starting
  | loading
  | ready
  | run
  | degraded
  | safeStop
  | recovery
  deriving DecidableEq, Repr

/-- The ordering variants (00_scope.md, "Variants"). -/
inductive Variant where
  | DM
  | D
  | SM
  | S
  deriving DecidableEq, Repr

/-- Where the release sequence of R379 stands. -/
inductive ResetPhase where
  /-- POR in force: supplies absent or out of range (R372). -/
  | por
  /-- SYS reset in force with RESET_N low (R378). -/
  | held
  /-- Trims are being staged (step 2). -/
  | trims
  /-- Waiting for REFCLK and the loops (steps 3 and 4). -/
  | clocks
  /-- Domains are being released (step 5). -/
  | domains
  /-- SRAM is written and checked (step 7). -/
  | memory
  /-- The Starter reads and checks the wheel (step 8). -/
  | loading
  /-- The sequence is over. -/
  | done
  deriving DecidableEq, Repr

/-- Reset and start state outside the registers (17_reset_and_start.md). -/
structure ResetSt where
  phase : ResetPhase := .por
  /-- The POR in force came from a brown-out (cause 0x02). -/
  brown : Bool := false
  /-- Failed trim loads of this start (R380). -/
  trimFails : Nat := 0
  /-- Domains released in this start. -/
  released : List Domain := []
  /-- Withdrawn releases of each domain in this start, in release order (R381). -/
  withdrawn : List Nat := [0, 0, 0, 0, 0, 0]
  /-- BOOT_MODE as sampled at the last POR (R384). -/
  strap : Nat := 0
  /-- The flash's capacity as its JESD216 table gave it in this start (R434); none while it has not been read, or not well. -/
  flashCap : Option Nat := none
  /-- The level of each VDDIO_Bk sensed at the last POR release: bit k set is 3.3 V (R440). -/
  bank33 : Nat := 0
  /-- Trims have been accepted since the last POR (R373). -/
  trimsEver : Bool := false
  /-- The REFCLK detector and the loops have been enabled (R379 steps 2 to 4): not since a POR, nor since a SYS reset for clock
  loss. -/
  loopsOn : Bool := false
  /-- VT at the release that began this start. -/
  startVt : Nat := 0
  /-- F, the failed starts before this one (R383). -/
  failsBefore : Nat := 0
  /-- VT at which the latest VAT reset was recorded (R377). -/
  causeVt : Option Nat := none
  /-- RESET_N has been low for more than 100 ms in this hold (R378). -/
  heldLong : Bool := false
  /-- READY has been reached since the last POR (FAULT_N, R373). -/
  reachedReady : Bool := false
  /-- Level of XSPI_RST_N (R443). -/
  xspiHigh : Bool := false
  /-- The next SYS reset waits for STO: no vat is left to own the pins (R377), or PLL-T is lost (R367). -/
  sysAfterSto : Option Nat := none
  deriving DecidableEq, Repr

/-- Clock state outside the registers (16_clocks.md). -/
structure ClockSt where
  /-- Microseconds of VT since the start of the ramp profile (R358). -/
  rampUs : Nat := 0
  /-- Spread spectrum runs (R357). -/
  spreadOn : Bool := false
  /-- Clock outputs on (R363). -/
  outputsOn : Bool := false
  /-- The loops whose loss was logged and that are not good again, bits as GOOD. -/
  lost : Nat := 0
  /-- A calibration of the ring oscillator has been taken (R368 compares with the previous one). -/
  roHave : Bool := false
  /-- What is left of PLL-T's return to its programmed phase, in units of 2^-44 of its cycle; positive is forward (R362). -/
  slewQ : Int := 0
  deriving DecidableEq, Repr

/-- The four time bases but MT (15_network_time.md). `vt` is in ns; `ntQ` is NT in units of 2^-37 ns, so that NT_FREQ's
2^-40 of 40 ns is exact; `ptQ` is PT in units of 2^-44 cycles. -/
structure TimeSt where
  vt : Nat := 0
  ntQ : Nat := 0
  ptQ : Nat := 0
  /-- Real time by PT's cycles: what PT would be without the ramp profile, in 2^-44 of 2 ns (R99, R206). -/
  realQ : Nat := 0
  /-- The internal captures of NT and PT, newest first (R340). -/
  caps : List (Nat × Nat) := []
  deriving DecidableEq, Repr

/-- An event record (R413). -/
structure LogRec where
  source : Nat
  seq : Nat
  code : Nat
  era : Nat
  ns : Nat
  data : Nat
  deriving DecidableEq, Repr

/-- The event log outside its registers and ring: the 64-record queue, the next SEQ of each source, the records lost since
the last 0x1601 record (R415, R420, R421), and the tail mirror's position (R423). The records of the queue from `mark` on were
raised in the present cycle. -/
structure LogSt where
  queue : List LogRec := []
  mark : Nat := 0
  seqs : List Nat := List.replicate 0x60 0
  lostPend : Nat := 0
  /-- Records written to the ring since SYS reset, and the number of the next one to mirror. -/
  written : Nat := 0
  mirror : Nat := 0
  /-- Slots mirrored into this start's tail area. -/
  mirrored : Nat := 0
  deriving DecidableEq, Repr

/-- The attribution window of R248: which vats raised or held FLT in it. -/
structure AttrWindow where
  fltA : Bool
  fltB : Bool
  deriving DecidableEq, Repr

/-- A handover drill (R260): who owned before, whether ownership is to return, whether it has returned, and whether the
10 ms check window runs. -/
structure DrillSt where
  origin : Vat
  back : Bool
  returned : Bool
  checking : Bool
  deriving DecidableEq, Repr

/-- The last outcome of a graph's tick as the comparator sees it (R247). -/
structure TickSeen where
  vat : Vat
  port : Nat
  tick : Nat
  /-- 0 committed, 1 missed, 2 migrate. -/
  outcome : Nat
  /-- The commit signature of a committed tick (R246). -/
  csig : Nat
  deriving DecidableEq, Repr

/-- A reload's decision as the comparator sees it (R246): the sampling edge in PT, and SETTAG with the CRC-32C over what was
taken. -/
structure ReloadSeen where
  vat : Vat
  port : Nat
  edge : Nat
  sig : Nat × Nat
  deriving DecidableEq, Repr

/-- What the vats' port states or leg levels differ in, from which instant of VT on, and whether that has been found (R246). -/
structure Difference where
  item : MismatchKind
  since : Nat
  found : Bool
  deriving DecidableEq, Repr

/-- The ownership arbiter and comparator outside their registers (11_vats_and_takeover.md). -/
structure ArbSt where
  attr : Option AttrWindow := none
  /-- An unattributed mismatch arose within UNATTR_WIN (R248). -/
  unattrOpen : Bool := false
  /-- The vat that owned at a pad-level mismatch within the last second (R250). -/
  padFrom : Option Vat := none
  prevOwner : Option Vat := none
  /-- PT at the latest change of OWNER (R252). -/
  changePt : Nat := 0
  auxPend : Nat := 0
  ssiPend : Nat := 0
  drill : Option DrillSt := none
  seen : List TickSeen := []
  reloads : List ReloadSeen := []
  diffs : List Difference := []
  /-- Asymmetric misses in a row: vat, port of the graph, count. -/
  asym : List (Vat × Nat × Nat) := []
  /-- The latest tick of each port that only one vat has committed (R247), and the reload decisions that differ by a tick whose
  outcome in the other vat is still to come: port and tick. -/
  excused : List (Nat × Nat) := []
  doubts : List (Nat × Nat) := []
  /-- The arbiter or the clock monitor holds the ports' patterns at the pins (R254, R367): the pattern of each port,
  coded as PATNOW. -/
  hold : Option (List Nat) := none
  deriving DecidableEq, Repr

/-- Why SS1 runs. -/
inductive Ss1Kind where
  /-- R271. -/
  | normal
  /-- No standby (R273) or PLL-T lost (R367). -/
  | patterns
  deriving DecidableEq, Repr

/-- One two-channel pair of Harp inputs (R269). -/
structure PairSt where
  /-- One channel has changed and the other has not yet followed. -/
  waiting : Bool := false
  /-- Both channels have been seen demanding together since the latch. -/
  bothSeen : Bool := false
  deriving DecidableEq, Repr

/-- The end of a test pulse: its output and VT, and what stood before the test was judged: TESTS, TPFAIL_F, its bit of
SAFE_FAULT, and RIDE_F (R277, R278). -/
structure TestEnd where
  out : Nat
  vt : Nat
  tests : Nat
  failed : Bool
  fault : Bool
  ride : Bool
  deriving DecidableEq, Repr

/-- The Harp path outside its registers (12_safety_functions.md). -/
structure HarpSt where
  pairA : PairSt := {}
  pairB : PairSt := {}
  ss1Kind : Ss1Kind := .normal
  /-- Outputs whose permit has gone false and whose OFFDLY still runs. -/
  offPend : List Bool := [false, false, false, false]
  /-- Outputs whose test waits for another output's test (R276). -/
  testWait : List Bool := [false, false, false, false]
  /-- The latest end of a test pulse, which a demand of the same cycle still abandons (R278). -/
  tested : Option TestEnd := none
  /-- VT at which each bit of SAFE_FAULT was last raised (R281). -/
  raised : List Nat := [0, 0, 0, 0, 0, 0]
  /-- Ride time remaining, ns of VT (DG_LEFT shows tenths of seconds). -/
  rideNs : Nat := 0
  deriving DecidableEq, Repr

/-- A writer of an order signal (R283): its signal, channel (6 is the service path), rank, its latest value and the 10 µs
interval of VT that value came in. -/
structure Writer where
  signal : Nat
  chan : Nat
  entry : Nat
  rank : Nat
  value : Int
  time : Nat
  /-- The entry's CLASS: 0 run, 1 stop. -/
  cls : Nat
  deriving DecidableEq, Repr

/-- Order resolution outside its registers: the writers, the resolved value of each signal, the run-class orders that have
to rise again before they count (R272, R382), and the losers logged. -/
structure OrderSt where
  writers : List Writer := []
  resolved : List (Nat × Int) := []
  mustRise : List Nat := []
  losers : List (Nat × Nat × Nat × Int) := []
  deriving DecidableEq, Repr

/-! ### One vat: pulse generator and driver links -/

/-- A port outside its registers (01_ports_and_vehicles.md, 09_pulse_generation.md). -/
structure PortSt where
  /-- The port's graph found no place after its engine retired (R127). -/
  engineLost : Bool := false
  /-- The instance numbers in the port's registers are those of the fallback engine (R470). -/
  renum : Bool := false
  /-- The COHERENCE cause is present (R215). -/
  cohCause : Bool := false
  /-- In RUN, the pins follow the set in force (from the first reload after the entry, R219), and PT of that reload. -/
  followSet : Bool := false
  followPt : Nat := 0
  /-- The period of the set in force, which applies from the next valley (R210). -/
  perSet : Nat := 25000
  /-- The graph reports its stop ramp complete (R168, R200). -/
  stopDone : Bool := false
  /-- PT of the latest valley of the port's carrier, which gives its counter (R204); none before the carriers start. A linked
  secondary's counter is its primary's (R205). -/
  carPt : Option Int := none
  /-- Carrier events of the port between the latest change of OWNER and the latest one commanded (R252). -/
  carEvents : Nat := 0
  /-- A burst of the owner's is being mirrored into this port's shadows (R256). -/
  mirrored : Bool := false
  /-- PT at which blanking windows open that wait for BLKDLY (R222). -/
  blkPend : List Nat := []
  /-- Since the first stage of a join the port has passed a reload (R257). -/
  reloadSeen : Bool := false
  /-- The port has been in RUN since the boundary of the calibration window (R74). -/
  ranWindow : Bool := false
  /-- The port has ticked since the carriers started (R207). -/
  ticked : Bool := false
  /-- Real time at the previous tick of the port, for TS (R99); none since the port left IDLE. -/
  lastTick : Option Nat := none
  /-- The port has been in RUN since its latest tick (R134). -/
  runSince : Bool := false
  /-- The shadows, and the set in force, come from a commit of the port's graph (R134). -/
  shdByGraph : Bool := false
  setByGraph : Bool := false
  /-- The channels whose arrival samples the port's ticks still await, oldest first (R97, R164). -/
  await : List Nat := []
  deriving DecidableEq, Repr

/-- A leg outside its registers: bootstrap charge (R232, R234) and the interval being emitted (R217). Instants are PT. -/
structure LegSt where
  /-- The instant from which H of R232 counts. -/
  hFrom : Int := 0
  /-- A refresh is being emitted, and ends at this instant; `under` is the level that the set's own edges give meanwhile. -/
  refEnd : Option Nat := none
  under : Bool := false
  /-- The refresh of the coming valley has begun before it. -/
  ahead : Bool := false
  /-- The leading edge of the interval being emitted, and the instant of a trailing edge that waits for TMIN. -/
  edgePt : Nat := 0
  due : Option Nat := none
  /-- A low interval of at least TBS_REF has been emitted since EN rose. -/
  charged : Bool := false
  /-- VT at which the disregard of HUV ends (R234). -/
  huvEnd : Option Nat := none
  /-- VT at the end of the latest inserted refresh. -/
  refreshVt : Option Nat := none
  deriving DecidableEq, Repr

/-- A driver-link receiver outside its registers (10_driver_link.md). -/
structure DlrSt where
  goodRun : Nat := 0
  badRun : Nat := 0
  lastSeq : Option Nat := none
  /-- Bits [10:3] that the next good frame is compared with (R235). -/
  prevBits : Nat := 0
  /-- The latest good frame reported HUV outside the disregard. -/
  huvFault : Bool := false
  /-- DRV_MISMATCH is present (R231). -/
  mismatch : Bool := false
  deriving DecidableEq, Repr

/-- What a VAT reset leaves of a port: what its engine's retirement did (R127, R470). -/
def PortSt.kept (q : PortSt) : PortSt := { engineLost := q.engineLost, renum := q.renum }

/-! ### One vat: sense path, aux links, position inputs and set-point pins -/

/-- A sense channel outside its registers (03_sense_path.md): the sinc3 integrators and combs (modulo 2^32), the last seven
sinc3 sums (newest first, for the Aged preset's FIR), the freeze monitor, the move qualifier, and the calibration window. -/
structure ChanSt where
  i1 : Nat := 0
  i2 : Nat := 0
  i3 : Nat := 0
  d1 : Nat := 0
  d2 : Nat := 0
  d3 : Nat := 0
  fir : List Nat := []
  /-- The freeze monitor's reference, the Q15 view of a run's first sample (R67). -/
  fzRef : Option Int := none
  fzCnt : Nat := 0
  /-- The move qualifier (R67, R120): true until a graph's first commit. (DESIGN CHOICE: notes/assumptions/50.md.) -/
  qual : Bool := true
  /-- The joining vat takes the owner's freeze monitor when settling ends (R64). -/
  copyMon : Bool := false
  /-- R74: the sum of squares of the Q15 samples of this window, their number, and whether a condition has failed in it. -/
  sumSq : Nat := 0
  num : Nat := 0
  winBad : Bool := true
  deriving DecidableEq, Repr

/-- Where a group's rotation stands (R70-R72). -/
inductive RotPhase where
  | idle
  /-- Slice `f` shadows channel `c`; `rep` says that this is the repeat of R71. -/
  | shadowing (f c : Nat) (rep : Bool)
  /-- Slice `f` runs its test window; after a mismatch on channel `c` the parallel run is repeated (R71). -/
  | testing (f : Nat) (again : Option Nat)
  deriving DecidableEq, Repr

/-- A clock group outside its registers. -/
structure GrpSt where
  /-- An automatic synchronising reset is pending (R59): the channels it covers. -/
  autoPend : Nat := 0
  rot : RotPhase := .idle
  /-- The channel of the group (0 to 7) rotated last: 7 at reset, so that the first step takes channel 0.
  (DESIGN CHOICE: notes/assumptions/50.md.) -/
  lastRot : Nat := 7
  /-- The phase of the MCLK divider as the latest aligned reset set it (R60): a sampling edge, in half cycles of PT. -/
  edgeAt : Option Nat := none
  deriving DecidableEq, Repr

/-- An aux link outside its registers (04_aux_conversion.md). -/
structure AuxSt where
  /-- The frame in progress: the channel commanded, and whether it belongs to the injected sequence. -/
  cur : Option (Nat × Bool) := none
  /-- The regular entry due next, while a pass runs. -/
  reg : Option Nat := none
  /-- The injected entry due next, while an injected sequence is pending or running. -/
  inj : Option Nat := none
  badRun : Nat := 0
  goodRun : Nat := 0
  /-- PT of the latest injected trigger, and of the start of a pass, while no frame has completed since (R85). -/
  trigPt : Option Nat := none
  passPt : Option Nat := none
  /-- The channels that have given a good result since the vat's last reset, as a mask (R88). -/
  got : Nat := 0
  /-- The frame in progress began before this vat joined (R81): its result is the owner's alone. -/
  skip : Bool := false
  deriving DecidableEq, Repr

/-- A position input outside its registers (08_traction_and_dc.md R182-R186). -/
structure PosSt where
  cnt : Nat := 0
  tedge : Nat := 0
  /-- The first index has come (R182). -/
  indexed : Bool := false
  /-- A phase error has come since the latest capture. -/
  errSince : Bool := false
  /-- Consecutive error-free captures, and whether a phase error has cleared VALID (R183). -/
  clean : Nat := 0
  lost : Bool := false
  lastCap : Option Nat := none
  fzCnt : Nat := 0
  /-- SSI: consecutive good frames, the last good position, the frame in progress (its latch instant), the end of the
  monoflop time, and the frames skipped for it. -/
  goodRun : Nat := 0
  lastGood : Option Nat := none
  frame : Option Nat := none
  monoEnd : Nat := 0
  skips : Nat := 0
  /-- SSI: four good frames have not followed the start, or BADRUN reaching BADMAX (R185). -/
  ssiLost : Bool := true
  deriving DecidableEq, Repr

/-- A SETP pin (R112): PT of the latest rising and falling edges, and the latest complete period and high time, in PT. -/
structure SetpSt where
  rise : Option Nat := none
  fall : Option Nat := none
  period : Option (Nat × Nat) := none
  deriving DecidableEq, Repr

/-! ### One vat: control engines (05_control_engines.md, 06_run_ahead.md) and guards (07_grid_forming.md, 08) -/

/-- A block instance as its graph wires it: the block type, the inputs (instance number in this engine and output; none is
unconnected), the parameters, and the word offsets of its descriptor, parameters, state and outputs in engine-local
memory (R93). -/
structure InstDef where
  btype : Nat
  ins : List (Option (Nat × Nat))
  pars : List Word
  desc : Nat
  parOff : Nat
  stOff : Nat
  outOff : Nat
  deriving DecidableEq, Repr

/-- An entry of a PREDICT record (R131). -/
structure PredDef where
  inst : Nat
  ptype : Nat
  fold : Bool
  tol : Nat
  eInst : Nat
  eOut : Nat
  ind : Word
  deriving DecidableEq, Repr

/-- What a source block of an evaluation reads: a value, a second value, its validity, and whether it is known yet (an
arrival sample may still be awaited, R97). -/
structure Cap where
  inst : Nat
  x : Int
  y : Nat
  ok : Bool
  known : Bool
  deriving DecidableEq, Repr

/-- One shadow write of a commit (R213): a leg's duty, or a port's period. -/
inductive ShadowWrite where
  | duty (leg d : Nat)
  | period (port per : Nat)
  deriving DecidableEq, Repr

/-- How an evaluation began, and where it stands. -/
inductive EvMode where
  | spec
  | plain
  | rerun
  deriving DecidableEq, Repr

inductive EvPhase where
  /-- Not ready: an arrival sample is awaited (R98). -/
  | waiting
  /-- Ready, waiting for the engine or a bank (R100, R139). -/
  | ready
  | running
  /-- Ended, the verdict waits for the last arrival sample (R142). -/
  | ended
  | committing
  deriving DecidableEq, Repr

/-- An evaluation (R95-R100, R142). -/
structure EvalSt where
  tick : Nat
  mode : EvMode
  phase : EvPhase
  /-- The evaluation of this tick began speculatively; it has been squashed. -/
  began : EvMode
  squashed : Bool
  bank : Nat
  tickPt : Nat
  deadline : Nat
  ts : Word
  period : Nat
  caps : List Cap
  /-- The predictions, in PREDICT order (R131). -/
  xhat : List Int
  /-- Reloads of the port since the tick (R144). -/
  reloads : Nat
  /-- Results, once the evaluation has run: VALID bits of each instance's outputs, events, whether a PWMOUT withheld, the
  shadow writes and how many have landed, the clamped periods' ports, the move qualifiers, SYNC's dead bus, the seen bits. -/
  valids : List Nat
  events : List (Nat × Nat)
  invout : Bool
  writes : List ShadowWrite
  landed : Nat
  clamped : List Nat
  moves : List (Nat × Bool)
  dead : Option Bool
  seen : List Bool
  /-- Past its deadline in a frozen engine, which keeps it as it was (R124). -/
  missed : Bool := false
  /-- START as the port's RAMPI instance read it in this evaluation (R168). -/
  start : Bool := false
  deriving DecidableEq, Repr

/-- A commit that a reload has not yet judged (R144). -/
structure Landing where
  tick : Nat
  spec : Bool
  squashed : Bool
  reloads : Nat
  deriving DecidableEq, Repr

/-- A graph slot of an engine: the graph bound to it and its committed state outside engine-local memory. -/
structure GraphSt where
  /-- The number of its first instance in this engine (R470). -/
  first : Nat := 0
  defs : List InstDef := []
  preds : List PredDef := []
  /-- The graph has a PREDICT record, be its COUNT 0 (R137). -/
  hasPred : Bool := false
  /-- The graph has committed (R36). -/
  committed : Bool := false
  /-- Hidden start marks of the blocks of R468, one per instance. -/
  seen : List Bool := []
  /-- START as the port's RAMPI instance read it in the latest commit (R168). -/
  start : Bool := false
  /-- The bank of the latest commit (R150). -/
  lastBank : Nat := 0
  evals : List EvalSt := []
  landing : Option Landing := none
  /-- The graph is migrating: the engine has retired, and the port's next tick is the MIGRATE tick (R126). -/
  migrating : Bool := false
  /-- The MIGRATE tick has passed; the graph starts in the fallback at the next tick. -/
  migrated : Bool := false
  /-- The graph evaluates in this vat: at once after LOADING, from its entry in a joining vat (R256). -/
  entered : Bool := true
  /-- Arrival samples of the MIGRATE tick (R136). -/
  migCaps : List Cap := []
  deriving DecidableEq, Repr

/-- An engine outside its registers. -/
structure EngSt where
  slots : List GraphSt := [{}, {}, {}, {}]
  /-- The whey buffer: word address and content (R139). -/
  whey : List (Nat × Word) := []
  /-- A self-test is running (R125). -/
  testing : Bool := false
  deriving DecidableEq, Repr

/-- The grid and drive guards of a port outside their registers, and restoration. -/
structure GuardSt where
  /-- PT cycles left of an open-loop ride, or of an observer ride (R164, R197). -/
  olPt : Nat := 0
  obsPt : Nat := 0
  /-- Every voltage channel (the position input) was VALID at the latest tick (R165, R197). -/
  okTick : Bool := false
  /-- Restoration (R176-R179): the last accepted SRC_ID and SEQ; the accepted offsets that wait for their apply instant (in PT,
  µHz); the offset last applied, none since the loss; frames accepted in a row since the loss; DFR still slews to the received
  value. -/
  lastRx : Option (Nat × Nat) := none
  pend : List (Nat × Int) := []
  target : Option Word := none
  inRow : Nat := 0
  slewing : Bool := false
  /-- The source's next offset and sequence number (R176). -/
  dfrNext : Word := 0
  seqOut : Nat := 0
  deriving DecidableEq, Repr

/-- One vat outside its registers. -/
structure VatSt where
  /-- The vat is in VAT reset. -/
  inReset : Bool := true
  /-- The vat computes: LOADING has ended, or the vat has been released from a VAT reset since. -/
  started : Bool := false
  /-- The pulse generator, AUX sequencers and SSI clocking run on until HANDOVER clears (R251). -/
  pulseHeld : Bool := false
  /-- A join's second stage, the copy of engine-local memory, is complete (R256). -/
  copied : Bool := false
  ports : List PortSt := List.replicate 8 {}
  legs : List LegSt := List.replicate 32 {}
  dlrs : List DlrSt := List.replicate 32 {}
  chans : List ChanSt := List.replicate 64 {}
  groups : List GrpSt := List.replicate 8 {}
  aux : List AuxSt := List.replicate 4 {}
  pos : List PosSt := List.replicate 8 {}
  setps : List SetpSt := List.replicate 8 {}
  engines : List EngSt := List.replicate 8 {}
  guards : List GuardSt := List.replicate 8 {}
  deriving DecidableEq, Repr

/-- The vat is released, out of reset and past LOADING. -/
def VatSt.live (x : VatSt) : Bool := x.started && !x.inReset

/-- What a VAT reset leaves of a vat (R13, R372): the content of the wheel and what is marked as surviving. -/
def VatSt.keepWheel (x : VatSt) : VatSt :=
  { started := x.started }

/-! ### CAN (14_can_fd.md) -/

/-- A signal of a catalogue entry (02_wheel.md, CATALOGUE). -/
structure CanSig where
  signal : Nat
  start : Nat
  len : Nat
  signed : Bool
  cls : Nat
  rank : Nat
  dflt : Word
  deriving DecidableEq, Repr

/-- A catalogue entry: the channel and position its record gives, its position among the channel's transmit entries, the
channel and place it is served at now (R329), what the record says, and the raw values last sent, the frames sent under this
epoch, and the last accepted freshness value (R317, R328). -/
structure CanEntry where
  chan : Nat
  pos : Nat
  txPos : Nat
  home : Nat
  place : Nat
  transmit : Bool
  auth : Bool
  express : Bool
  fd : Bool
  brs : Bool
  ide : Bool
  dlc : Nat
  id : Nat
  period : Nat
  sigs : List CanSig
  sent : Option (List Int) := none
  count : Nat := 0
  lastFv : Nat := 0
  deriving DecidableEq, Repr

/-- A frame that waits for transmission: the entry it comes from (none is a response of the service path), its payload, the raw
values in it, and the time of its arrival, as CAN_TS counts it but without its wrap. -/
structure TxFrame where
  entry : Option (Nat × Nat)
  data : List Byte
  vals : List Int := []
  came : Nat := 0
  deriving DecidableEq, Repr

/-- A channel outside its registers: the queue and the express slot with what waits for it (R316), VT of the bus-offs of the
last 60 s and the frames that a retirement cancelled (R329), whether a probe is on its way and VT of the last one (R315), and the frame it has sent
last: identifier, whether extended, and data. -/
structure CanChan where
  queue : List TxFrame := []
  express : List TxFrame := []
  boffs : List Nat := []
  moved : Bool := false
  cancelled : List TxFrame := []
  cancelledX : List TxFrame := []
  probing : Bool := false
  probedAt : Option Nat := none
  alt : Option Nat := none
  out : Option (Nat × Bool × List Byte) := none
  deriving DecidableEq, Repr

structure CanSt where
  entries : List CanEntry := []
  chans : List CanChan := List.replicate 6 {}
  deriving DecidableEq, Repr

/-- A TABLE record (R38). -/
structure TableDef where
  id : Nat
  kind : Nat
  fmt : Nat
  xs : List Word
  ys : List Word
  vals : List Word
  deriving DecidableEq, Repr

/-- A GRAPH record as loaded (R35), with its PREDICT record and what the Starter computed: the graph in its own engine and in
its fallback engine's reserve (R93, R470), its bank words there (R139), its cost (R109), and its utilisation as a fraction
(R128). -/
structure WheelGraph where
  engine : Nat
  slot : Nat
  port : Nat
  fallback : Nat
  fbEn : Bool
  first : Nat
  defs : List InstDef
  preds : List PredDef
  hasPred : Bool
  base : Nat
  fbFirst : Nat
  fbDefs : List InstDef
  fbBase : Nat
  wsz : Nat
  cycles : Nat
  loadN : Nat
  loadD : Nat
  deriving DecidableEq, Repr

/-- What the wheel gives outside the registers and engine-local memory (02_wheel.md). -/
structure WheelSt where
  tables : List TableDef := []
  graphs : List WheelGraph := []
  /-- Engine-local memory words in use, by engine (CEc_WORDS). -/
  words : List Nat := []
  deriving DecidableEq, Repr

/-- Where a recorder segment stands (R426, word 0 of its header). -/
inductive SegPhase where
  | off
  | armed
  | post (left : Nat)
  deriving DecidableEq, Repr

/-- The disturbance recorder outside its registers and memory (R424-R426): the armed segment's phase, the next slot of its
ring, the frames taken since arming, the trigger's NPRE, the last tick recorded, and the complete segments, oldest first. -/
structure RecSt where
  phase : SegPhase := .off
  next : Nat := 0
  taken : Nat := 0
  npre : Nat := 0
  lastTick : Option Nat := none
  complete : List Nat := []
  deriving DecidableEq, Repr

/-! ### The Rind (13_rind.md) -/

/-- A commit slot (R294): the six energy registers in Wh, MT, its sequence number, and the CRC-32C stored with them. -/
structure RindSlot where
  energy : List Nat
  mt : Nat
  seq : Nat
  crc : Nat
  deriving DecidableEq, Repr

/-- Sums over the samples since a boundary (R292): their number, AC power and its magnitude, DC power of either sign, in 2^-346 W,
and the squares of each input, in 2^-346 A² or V². -/
structure MeterAcc where
  n : Nat := 0
  ac : Int := 0
  acAbs : Nat := 0
  dcPos : Nat := 0
  dcNeg : Nat := 0
  sq : List Nat := List.replicate 8 0
  deriving DecidableEq, Repr

/-- The open session (R295): START_MT, the energy registers then, the record's FLAGS so far, and the whole seconds below
SESS_PMIN in a row. -/
structure RindSession where
  startMt : Nat
  startE : List Nat
  flags : Nat
  below : Nat
  deriving DecidableEq, Repr

/-- An audit entry (R300): parameter ID, PARSUM before and after, MT and AUDIT. -/
structure AuditRec where
  id : Nat
  old : Word
  new : Word
  mt : Nat
  audit : Nat
  deriving DecidableEq, Repr

/-- The Rind beside its window (whose registers hold what it has published), and the tap decimator of the common domain.
Energies are in units of 2^-32 Wh;
MT and what is still to slew in units of which 25,000,000 are 1 ms. -/
structure RindSt where
  powered : Bool := false
  /-- 0 INIT, 1 METER, 2 ERROR. -/
  state : Nat := 0
  sealOpen : Bool := false
  fwErr : Bool := false
  parErr : Bool := false
  nvErr : Bool := false
  wdRst : Bool := false
  /-- The inputs that are STALE and at full scale, as masks (R291). -/
  stale : Nat := 0
  sat : Nat := 0
  /-- The inputs whose VALID has been published at 1 since the boundary of the calibration window (R74), as a mask. -/
  validAll : Nat := 0
  /-- The decimators of the eight inputs (R290), and the sums of the second and of the 200 ms window (R292). -/
  filt : List ChanSt := List.replicate 8 {}
  sec : MeterAcc := {}
  win : MeterAcc := {}
  /-- The sums of the second as they stood when a brown-out warning entered their energy (R289). -/
  paid : MeterAcc := {}
  /-- The DFT's sums over the window, real and imaginary of each input, and the frequency it tracks: none until one is, FNOM (R292). -/
  dft : List (Int × Int) := List.replicate 8 (0, 0)
  freq : Option Word := none
  energy : List Nat := [0, 0, 0, 0, 0, 0]
  /-- The energy registers at the latest commit. -/
  commitE : List Nat := [0, 0, 0, 0, 0, 0]
  mtQ : Nat := 0
  pendQ : Int := 0
  mtSet : Bool := false
  slots : List (Option RindSlot) := some ⟨[0, 0, 0, 0, 0, 0], 0, 0, 1510671665⟩ :: List.replicate 31 none
  /-- MT at the latest slot (R289). -/
  slotAt : Option Nat := none
  /-- The two copies of the sealed parameters, 32 words as in the window from 0x180 (R300, R301), and FWSUM. -/
  par0 : List Word := List.replicate 32 0
  par1 : List Word := List.replicate 32 0
  fwSum : Nat := 0
  sess : Option RindSession := none
  sessNum : Nat := 0
  /-- The session ring, newest last: number and record. -/
  ring : List (Nat × List Byte) := []
  audit : Nat := 0
  audits : List AuditRec := []
  corrSeq : Nat := 0
  budget : Nat := 2000
  /-- MT from which BUDGET refills next. -/
  refillMt : Nat := 0
  lastCorr : Nat := 0
  pulseQ : Nat := 0
  pulseOvf : Bool := false
  /-- Energy of the register that PULSE_SRC selects, times PULSE_K, that no impulse stands for yet (R303). -/
  pulseAcc : Nat := 0
  /-- MT at which the latest impulse began. -/
  pulseAt : Option Int := none
  /-- The latest response on MTR_TX. -/
  tx : List Byte := []
  /-- The tap: available, its filter, the latest level, and the MTR_CLK periods it has lasted. -/
  tapOn : Bool := false
  tap : ChanSt := {}
  tapLevel : Bool := false
  tapSame : Nat := 0
  deriving DecidableEq, Repr

/-! ### Ethernet and network time (15_network_time.md) -/

/-- A frame in an egress queue, and for a PTP message that the transparent clock passes on its ingress port and corrected ingress
instant of NT (R344). -/
structure QFrame where
  frame : List Byte
  since : Option (Nat × Int) := none
  deriving DecidableEq, Repr

/-- A PTP frame that has reached the host while no supervisor runs the protocol (R343): its port, its bytes, its receive timestamp, and
what it measures. -/
structure HeldPtp where
  port : Nat
  frame : List Byte
  stamp : Nat
  result : PtpResult
  deriving DecidableEq, Repr

/-- The block outside its registers: the switch's learned addresses with their ports and VT of the latest frame from them (R333),
each port's latest receive and transmit timestamps (R334), the launch-time queues (queue q of
port p at 8p + q: launch time and frame, the head first), the transparent clock's two-step table (R344), the latest frame
that left each switch port (2 is the host), the frames in the other queues of each port, oldest first, VT at which each port's
transmission with its interframe gap ends (R333, R346), the PTP role, the offsets in a row inside and outside SYNC_THR, each port's mean
link delay in ns, the PTP frames held for a supervisor, oldest first (R343), the sequence counter of each port for Sync, Delay_Req,
Pdelay_Req and Announce (R342), VT of the latest accepted
PPS_IN edge, and VT at which PPS_OUT falls. -/
structure NetSt where
  table : List (Nat × Nat × Nat) := []
  rxStamp : List Nat := [0, 0]
  txStamp : List Nat := [0, 0]
  ltq : List (List (Nat × List Byte)) := List.replicate 16 []
  twoStep : List (Nat × Int) := []
  out : List (List Byte) := [[], [], []]
  waiting : List (List QFrame) := List.replicate 16 []
  freeAt : List Nat := [0, 0]
  role : PtpRole := .listening
  inRow : Nat := 0
  outRow : Nat := 0
  linkDelay : List Nat := [0, 0]
  /-- The best foreign master heard on each port, as the best master clock algorithm compares it (R341). -/
  foreign : List (Option (List Nat)) := [none, none]
  held : List HeldPtp := []
  sent : List Nat := [0, 0, 0, 0, 0, 0, 0, 0]
  ppsIn : Option Nat := none
  ppsEnd : Option Nat := none
  deriving DecidableEq, Repr

/-- One owner slot of OTP (R390): a SHA-384 hash, whether it has been written, and its two fuses. -/
structure OwnerSlot where
  hash : Nat := 0
  written : Bool := false
  valid : Bool := false
  revoked : Bool := false
  deriving DecidableEq, Repr

/-- An open service session (R399). -/
structure Session where
  key : BitVec 256
  levels : Nat
  serial : Nat
  /-- CTR of the last request accepted and of the last response sent. -/
  ctrIn : Nat
  ctrOut : Nat
  deriving DecidableEq, Repr

/-- A service request held by the device (R396): CMD, CTR, the body in plain text, and whether it came in the session. -/
structure Request where
  cmd : Nat
  ctr : Nat
  body : List Byte
  inSession : Bool
  deriving DecidableEq, Repr

/-- Trust, identity and the service path outside their registers (18_trust_and_access.md). -/
structure TrustSt where
  slots : List OwnerSlot := [{}, {}, {}, {}]
  ownedFuse : Bool := false
  decomFuse : Bool := false
  /-- Debug level set by DEBUG_UNLOCK (R402). -/
  dbg : Nat := 0
  /-- A pin-driving instruction is in force at the debug access, and the balls it drives: row, column, level. -/
  extest : Bool := false
  cells : List (Nat × Nat × Bool) := []
  session : Option Session := none
  /-- The ephemeral key's and nonce's draw number of the last HELLO (R397). -/
  hello : Option Nat := none
  /-- Segments of a request received so far: the next index and the bytes. -/
  rxNext : Nat := 0
  rxBytes : List Byte := []
  request : Option Request := none
  /-- The last response message (STATUS at byte 3), as it was put in CAN0's queue. -/
  response : List Byte := []
  /-- Segments of responses that CAN0's queue has not yet taken. -/
  txSegs : List (List Byte) := []
  /-- CANKEYS: KEY_ID and key (R40). -/
  canKeys : List (Nat × Nat) := []
  deriving DecidableEq, Repr

/-- What a SYS reset spares: OTP and the debug logic (R372, R409). -/
def TrustSt.afterSys (t : TrustSt) : TrustSt :=
  { slots := t.slots, ownedFuse := t.ownedFuse, decomFuse := t.decomFuse, extest := t.extest, cells := t.cells }

def TrustSt.afterPor (t : TrustSt) : TrustSt := { t.afterSys with extest := false, cells := [] }

/-- Two copies of a counter, each with a CRC-32C (R44, R383); none is a copy whose CRC fails. -/
structure Twin where
  c0 : Option Nat := some 0
  c1 : Option Nat := some 0
  deriving DecidableEq, Repr

/-- One copy of the confirmed check values, their marks and NEXTCONF (R48, R49). -/
structure ConfCopy where
  conf0 : Nat := 0
  conf1 : Nat := 0
  mark0 : Bool := false
  mark1 : Bool := false
  next : Bool := false
  deriving DecidableEq, Repr

/-- What the ferroelectric store holds beside the registers that show it and the windows of memory (R435): the two copies
of START_FAILS (none is a copy whose CRC fails, R383), of the floors and CERT_MIN (R44), of the confirmed values (R49), of TAILSEL
and the count of starts (R422), and CAN freshness (R328); and of the flash the slots in which a WHEEL_WRITE has read back a
difference since their last erasure (R401). -/
structure NvSt where
  fails0 : Option Nat := some 0
  fails1 : Option Nat := some 0
  floor : Twin := {}
  patchFloor : Twin := {}
  certMin : Twin := {}
  conf0 : Option ConfCopy := some {}
  conf1 : Option ConfCopy := some {}
  tailSel : Twin := {}
  starts : Twin := {}
  badSlots : List Nat := []
  /-- Bytes at 0x4000-0x4FFF of the store that a bus write or Brine has overwritten: offset and byte (R429, R435). -/
  raw : List (Nat × Byte) := []
  epoch : Nat := 0
  /-- Upper 12 bits of each receive entry's last accepted FV: channel, entry, value. -/
  fvUpper : List (Nat × Nat × Nat) := []
  deriving DecidableEq, Repr

/-- What decides between accesses of one cycle: VT of the cycle that the next two belong to, the registers written in it with the
highest master of each (R403), and the flags that the hardware has set in it, by address and bit (R11); and VT of the violation
that each firewall's INFO holds, of Vat A's, Vat B's and the common one (R407). -/
structure BusSt where
  vt : Nat := 0
  writes : List (Nat × Nat) := []
  sets : List (Nat × Nat) := []
  violA : Nat := 0
  violB : Nat := 0
  violC : Nat := 0
  deriving DecidableEq, Repr

/-- No command stops the machine with a fault: where the spec refuses an access or a command, it says what happens instead
(a bus error and its record, a STATUS, a count), and that is a next state (R9, R400, R433). The type has no constructor, so
no meaning can raise one; safe. -/
inductive Fault where
  deriving DecidableEq, Repr

/-- Refusals: a command with no meaning in the model, rejected by its mnemonic (raised by `exec`'s arms only; safe). -/
inductive Refusal where
  | notModelled (mnemonic : String)
  deriving DecidableEq, Repr

/-- The state of the M72. -/
structure State where
  /-- Commands waiting, first in, first out. -/
  pending : List Instr := []
  variant : Variant := .DM
  dev : DevState := .off
  regs : RegFile := []
  mem : List Host.Cell := []
  time : TimeSt := {}
  rst : ResetSt := {}
  clk : ClockSt := {}
  vatA : VatSt := {}
  vatB : VatSt := {}
  arb : ArbSt := {}
  harp : HarpSt := {}
  ord : OrderSt := {}
  log : LogSt := {}
  whl : WheelSt := {}
  trust : TrustSt := {}
  rind : RindSt := {}
  nv : NvSt := {}
  rcd : RecSt := {}
  can : CanSt := {}
  net : NetSt := {}
  bus : BusSt := {}
  /-- The number of free values drawn so far (the model's own; notes/assumptions/1.md). -/
  free : Nat := 0
  deriving DecidableEq, Repr

/-- The machine at reset: POR in force, every register at its value at POR. (DESIGN CHOICE: notes/assumptions/5.md.) -/
def State.reset : State := {}

end Sys2Proof.Machine
end

