-- ==== Sys2Proof/Machine/Ops.lean ====
section
/-! DEFINITION. The shared operations over the state: register fields, memory, the event log, flags and free values. -/

namespace Sys2Proof.Machine

open Sys2Proof

/-! ## Register fields -/

/-- The value of a register field. -/
def State.rd (s : State) (f : Field) : Nat := getBits (s.regs.get f.addr) f.lo f.width

/-- Write a register field, its other bits unchanged. -/
def State.wr (s : State) (f : Field) (n : Nat) : State :=
  { s with regs := s.regs.set f.addr (setBits (s.regs.get f.addr) f.lo f.width n) }

/-- Write a register whole. -/
def State.wrWord (s : State) (a : Nat) (w : Word) : State := { s with regs := s.regs.set a w }

/-- The field is not zero. -/
def State.is (s : State) (f : Field) : Bool := s.rd f != 0

def State.signedRd (s : State) (f : Field) : Int := signedOf f.width (s.rd f)

/-- What the cycle of `vt` holds so far: nothing, where the latest entries are of an earlier one. -/
def BusSt.cycle (b : BusSt) (vt : Nat) : BusSt := if b.vt = vt then b else { b with vt, writes := [], sets := [] }

/-- The hardware sets bit `i` of the register at `a` in this cycle (R11). -/
def State.mark (s : State) (a i : Nat) : State :=
  let b := s.bus.cycle s.time.vt
  { s with bus := { b with sets := if b.sets.contains (a, i) then b.sets else (a, i) :: b.sets } }

/-- The bits of the register at `a` that the hardware has set in this cycle. -/
def State.marked (s : State) (a : Nat) : Nat :=
  (s.bus.cycle s.time.vt).sets.foldl (fun m e => if e.1 = a then Nat.lor m (2 ^ e.2) else m) 0

/-- A master of a higher number has written the register at `a` in this cycle (R403). -/
def State.overtaken (s : State) (m a : Nat) : Bool :=
  (s.bus.cycle s.time.vt).writes.any (fun w => w.1 == a && decide (m < w.2))

/-- Master `m` writes the register at `a` in this cycle. -/
def State.noteWrite (s : State) (m a : Nat) : State :=
  if s.overtaken m a then s else
    let b := s.bus.cycle s.time.vt
    { s with bus := { b with writes := (a, m) :: b.writes.filter (fun w => w.1 != a) } }

/-- Master `m` writes a field of a register of its own: a higher master's write of this cycle stands (R403). -/
def State.wrAs (s : State) (m : Nat) (f : Field) (n : Nat) : State :=
  (if s.overtaken m f.addr then s else s.wr f n).noteWrite m f.addr

/-- Set a one-bit field. -/
def State.set1 (s : State) (f : Field) : State := (s.wr f 1).mark f.addr f.lo

def State.clr (s : State) (f : Field) : State := s.wr f 0

/-- Bit `i` of a field that holds one bit per unit. -/
def State.rdBit (s : State) (f : Field) (i : Nat) : Bool := bitOf (s.rd f) i

def State.wrBit (s : State) (f : Field) (i : Nat) (b : Bool) : State := s.wr f (setBit (s.rd f) i b)

/-- Set bit `i` of a field that holds one flag per unit. -/
def State.setBit1 (s : State) (f : Field) (i : Nat) : State := (s.wrBit f i true).mark f.addr (f.lo + i)

/-- Count up, saturating at the field's greatest value. (DESIGN CHOICE: notes/assumptions/36.md.) -/
def State.incSat (s : State) (f : Field) (by_ : Nat := 1) : State :=
  s.wr f (min (s.rd f + by_) (2 ^ f.width - 1))

/-- Count up, wrapping. -/
def State.incWrap (s : State) (f : Field) : State := s.wr f (s.rd f + 1)

/-! ## Vats -/

def State.vat (s : State) : Vat → VatSt
  | .A => s.vatA
  | .B => s.vatB

def State.setVat (s : State) (v : Vat) (x : VatSt) : State :=
  match v with
  | .A => { s with vatA := x }
  | .B => { s with vatB := x }

def State.modVat (s : State) (v : Vat) (f : VatSt → VatSt) : State := s.setVat v (f (s.vat v))

/-- The variant has two vats (00_scope.md, "Variants"). -/
def Variant.dual : Variant → Bool
  | .DM | .D => true
  | .SM | .S => false

/-- The variant has the Rind. -/
def Variant.metered : Variant → Bool
  | .DM | .SM => true
  | .D | .S => false

/-- The low byte of DEVICE_ID (R2). -/
def Variant.code : Variant → Nat
  | .DM => 1
  | .D => 2
  | .SM => 3
  | .S => 4

def State.hasVat (s : State) (v : Vat) : Bool := v == .A || s.variant.dual

/-- The vats the variant has. -/
def State.vats (s : State) : List Vat := if s.variant.dual then [.A, .B] else [.A]

/-- The vat that owns the pins (OWN_STAT.OWNER). -/
def State.owner (s : State) : Option Vat :=
  match s.rd R.OWN_STAT_OWNER with
  | 1 => some .A
  | 2 => some .B
  | _ => none

/-- The vat whose port states the device shows: the owner (R24). While no vat owns (OWNER = 0), which the spec leaves open, it is
Vat A. (DESIGN CHOICE: notes/assumptions/19.md.) -/
def State.viewVat (s : State) : Vat := s.owner.getD .A

/-- A vat that computes: present, released and out of VAT reset. (DEDUCED: notes/assumptions/11.md.) -/
def State.vatLive (s : State) (v : Vat) : Bool := s.hasVat v && (s.vat v).live

def forVats (s : State) (f : State → Vat → State) : State := s.vats.foldl f s

/-- Apply `f` for 0, 1, ..., n - 1 in turn. -/
def forN (n : Nat) (s : State) (f : State → Nat → State) : State := (List.range n).foldl f s

/-! ## Free values -/

/-- Draw a free value (notes/assumptions/1.md). -/
def State.freeVal (s : State) : Word := Config.freeWord s.free

def State.useFree (s : State) : State := { s with free := s.free + 1 }

/-! ## Identity and lifecycle (R390) -/

/-- The slot that is VALID and not REVOKED. -/
def TrustSt.ownerSlot (t : TrustSt) : Option Nat :=
  (List.range 4).find? (fun i => let q := nth t.slots i {}; q.valid && !q.revoked)

/-- 0 BLANK, 1 OWNED, 2 DECOMMISSIONED. -/
def TrustSt.life (t : TrustSt) : Nat :=
  if t.decomFuse then 2 else if t.ownedFuse || t.ownerSlot.isSome then 1 else 0

/-- The owner-key hash in force. -/
def TrustSt.ownerHash (t : TrustSt) : Option Nat := t.ownerSlot.map (fun i => (nth t.slots i {}).hash)

/-- The debug level (R402): 2 in BLANK. -/
def TrustSt.debugLevel (t : TrustSt) : Nat := if t.life = 0 then 2 else t.dbg

/-- EXTEST ends with the unlocking that admits it (R402). -/
def TrustSt.relock (t : TrustSt) : TrustSt := 
  { t with extest := t.life == 0 && t.extest, cells := if t.life = 0 then t.cells else [] }

/-! ## Memory -/

/-- What an unlisted byte reads as: erased flash reads 0xFF, every other memory 0 (notes/assumptions/3.md). -/
def memDefault (a : Nat) : Byte := if 0x80000000 ≤ a then 0xFF else 0

abbrev Memory := List Host.Cell

def Memory.read (m : Memory) (a : Nat) : Byte := getKey memDefault a m

def Memory.write (m : Memory) (a : Nat) (b : Byte) : Memory := putKey memDefault a b m

/-- The canonical form of the memory. -/
abbrev Memory.wf (m : Memory) : Bool := canonical memDefault m

/-- One byte at an address: the Starter ROM is fixed at manufacture (R431). -/
def State.readByte (s : State) (a : Nat) : Byte :=
  if a < 0x40000 then Config.romByte a else Memory.read s.mem a

def State.writeByte (s : State) (a : Nat) (b : Byte) : State := { s with mem := Memory.write s.mem a b }

/-- `n` bytes from an address. -/
def State.readBytes (s : State) (a n : Nat) : List Byte := (List.range n).map (fun i => s.readByte (a + i))

def State.writeBytes (s : State) (a : Nat) : List Byte → State
  | [] => s
  | b :: bs => (s.writeByte a b).writeBytes (a + 1) bs

/-- The little-endian value of bytes (R9). -/
def leValue : List Byte → Nat
  | [] => 0
  | b :: bs => b.toNat + 256 * leValue bs

/-- `n` little-endian bytes of a value. -/
def leBytes : Nat → Nat → List Byte
  | 0, _ => []
  | n + 1, x => BitVec.ofNat 8 x :: leBytes n (x / 256)

/-- The big-endian value of bytes (R28). -/
def beValue (bs : List Byte) : Nat := leValue bs.reverse

def beBytes (n x : Nat) : List Byte := (leBytes n x).reverse

/-- One byte of a CRC-32C (R47). -/
def crc32cByte (c b : Nat) : Nat :=
  (List.range 8).foldl (fun c _ => if bitOf c 0 then Nat.xor (c / 2) 0x82F63B78 else c / 2) (Nat.xor c b)

def crc32c (bs : List Byte) : Nat := Nat.xor (bs.foldl (fun c b => crc32cByte c b.toNat) 0xFFFFFFFF) 0xFFFFFFFF

/-! ## Two copies in the ferroelectric store (R44) -/

/-- An update writes copy 0 and then copy 1. -/
def Twin.put (_ : Twin) (x : Nat) : Twin := { c0 := some x, c1 := some x }

/-- The higher of the copies whose CRC is good. -/
def Twin.higher (t : Twin) : Option Nat :=
  match t.c0, t.c1 with
  | some a, some b => some (max a b)
  | some a, none => some a
  | none, b => b

/-- The first copy whose CRC is good. -/
def Twin.first (t : Twin) : Option Nat := t.c0.or t.c1

/-- EPOCH is written in the store (R328). -/
def NvSt.setEpoch (x : NvSt) (n : Nat) : NvSt :=
  { x with epoch := n, raw := x.raw.filter (fun r => r.1 < 0x4800 || Config.freshItemAt r.1 != 0) }

/-- The upper bits of the last accepted FV of entry `e` of channel `c` are written in the store (R328). -/
def NvSt.setUpper (x : NvSt) (c e n : Nat) : NvSt :=
  { x with
    fvUpper := x.fvUpper.filter (fun q => !(q.1 == c && q.2.1 == e)) ++ [(c, e, n)]
    raw := x.raw.filter (fun r => r.1 < 0x4800 || Config.freshItemAt r.1 != 1 + 1024 * c + e) }

/-- The stored upper bits of an entry's last accepted FV: 0 where none are stored. -/
def NvSt.upper (x : NvSt) (c e : Nat) : Nat :=
  ((x.fvUpper.find? (fun q => q.1 == c && q.2.1 == e)).map (fun q => q.2.2)).getD 0

/-- A 64-bit value into a low and a high word. -/
def State.wrPair (s : State) (lo hi : Field) (x : Nat) : State := (s.wr lo x).wr hi (x / 2 ^ 32)

/-- A 32-bit word of memory, little-endian. -/
def State.readMem (s : State) (a : Nat) : Word := BitVec.ofNat 32 (leValue (s.readBytes a 4))

def State.writeMem (s : State) (a : Nat) (w : Word) : State := s.writeBytes a (leBytes 4 w.toNat)

/-- Drop what memory holds in [lo, hi), so that it reads as unlisted. -/
def Memory.clear (m : Memory) (lo hi : Nat) : Memory := m.filter (fun c => c.1 < lo || hi ≤ c.1)

/-! ## Time -/

/-- NT in ns (64 bits). -/
def State.nt (s : State) : Nat := s.time.ntQ / 2 ^ 37 % 2 ^ 64

/-- PT in PLL-T cycles (64 bits). -/
def State.pt (s : State) : Nat := s.time.ptQ / 2 ^ 44 % 2 ^ 64

/-! ## The event log (R413-R421) -/

/-- The queue's room: 64 records (R415). -/
def LogSt.full (l : LogSt) : Bool := 64 ≤ l.queue.length

/-- A record is numbered for its source, and enters the queue or is lost. (DEDUCED: notes/assumptions/103.md.) -/
def LogSt.enter (l : LogSt) (r : LogRec) : LogSt :=
  { l with
    seqs := modNth l.seqs r.source (fun n => (n + 1) % 2 ^ 16)
    queue := if l.full then l.queue else l.queue ++ [r]
    lostPend := if l.full then l.lostPend + 1 else l.lostPend }

/-- A lost record is counted. -/
def State.countLost (s : State) (lost : Bool) : State :=
  if lost then (s.incSat R.LOG_STAT_LOST).set1 R.LOG_STAT_LOST_F else s

/-- Raise an event: number it, stamp it with NT, and enter it in the queue, or count it lost where the queue is full. -/
def State.event (s : State) (source code data : Nat) : State :=
  ({ s with log := s.log.enter { source, seq := nth s.log.seqs source 0, code, era := s.nt / 2 ^ 32 % 2 ^ 16, ns := s.nt % 2 ^ 32
                                 data := data % 2 ^ 32 } } : State).countLost s.log.full

/-- The master number of a vat's supervisor (R403). -/
def supMaster : Vat → Nat
  | .A => 8
  | .B => 24

/-- The source number of unit `u` of a vat (R414). (DEDUCED: notes/assumptions/7.md.) -/
def vatSource (v : Vat) (u : Nat) : Nat :=
  match v with
  | .A => 0x20 + u
  | .B => 0x40 + u

/-- Raise an event of a vat unit: a vat in reset logs nothing (R417). -/
def State.vatEvent (s : State) (v : Vat) (u code data : Nat) : State :=
  if (s.vat v).inReset then s else s.event (vatSource v u) code data

/-- DATA of code 0x1700: the offset of the flag's register from the base of its own kind of source, and the bit (R418): a vat's source
that sets a flag of a common register gives its common offset. (DEDUCED: notes/assumptions/6.md.) -/
def flagData (f : Field) : Nat := f.addr % 2 ^ 27 + f.lo * 2 ^ 27

/-- A record takes its place among those of its cycle, behind the sources up to its own. -/
def LogRec.insert (r : LogRec) : List LogRec → List LogRec
  | [] => [r]
  | x :: xs => if r.source < x.source then r :: x :: xs else x :: r.insert xs

/-- The records of the cycle that ends stand in ascending SOURCE order (R420). -/
def LogSt.endCycle (l : LogSt) : LogSt :=
  { l with queue := l.queue.take l.mark ++ (l.queue.drop l.mark).foldl (fun q r => r.insert q) [], mark := l.queue.length }

/-- The cycle of the log ends. -/
def State.endLog (s : State) : State := { s with log := s.log.endCycle }

/-- Set a W1C flag that has no code of its own: code 0x1700 accompanies its setting (R418; notes/assumptions/6.md). -/
def State.flag (s : State) (source : Nat) (f : Field) : State :=
  if s.is f then s.mark f.addr f.lo else (s.set1 f).event source 0x1700 (flagData f)

def State.vatFlag (s : State) (v : Vat) (u : Nat) (f : Field) : State :=
  if (s.vat v).inReset then s else s.flag (vatSource v u) f

/-- Set a W1C flag whose every rising cause is logged (R69). -/
def State.vatFlagEdge (s : State) (v : Vat) (u : Nat) (f : Field) : State :=
  (s.set1 f).vatEvent v u 0x1700 (flagData f)

/-- Set bit `i` of a field of W1C flags that have no code of their own. -/
def State.vatFlagBit (s : State) (v : Vat) (u : Nat) (f : Field) (i : Nat) : State :=
  s.vatFlag v u { f with lo := f.lo + i, width := 1 }

end Sys2Proof.Machine
end

