-- ==== Sys2Proof/Machine/Ports.lean ====
section
/-! DEFINITION. Ports and legs: assignment (R15), links (R18, R19), port states and their transitions (R20-R23), the fault
patterns and their change to all-off (R236-R238), and the levels each vat drives before the arbiter (R21, R219). -/

namespace Sys2Proof.Machine

open Sys2Proof

/-! ## Port states and causes, as PORTn_STATE codes them -/

abbrev IDLE : Nat := 1
abbrev ARMED : Nat := 2
abbrev RUN : Nat := 3
abbrev FAULTPAT : Nat := 4
abbrev RETIRED : Nat := 5

/-- CAUSE codes (R419). -/
abbrev causeTRIP : Nat := 0x01
abbrev causeDRVFAULT : Nat := 0x02
abbrev causeDRVLINK : Nat := 0x03
abbrev causeDRVMISMATCH : Nat := 0x04
abbrev causeCOHERENCE : Nat := 0x05
abbrev causeIFBLOSS : Nat := 0x06
abbrev causeVFBLOSS : Nat := 0x07
abbrev causeVFBTIMEOUT : Nat := 0x08
abbrev causePFBLOSS : Nat := 0x09
abbrev causeGRAPHTRIP : Nat := 0x0A
abbrev causePLAUSIBILITY : Nat := 0x0B
abbrev causeENGINELOST : Nat := 0x0C
abbrev causePARTNER : Nat := 0x0D
abbrev causeRETIRE : Nat := 0x0E

def portState (s : State) (v : Vat) (p : Nat) : Nat := s.rd (R.PORT_STATE_STATE v p)

/-- The port is in RUN or ARMED. -/
def portActive (s : State) (v : Vat) (p : Nat) : Bool := portState s v p == RUN || portState s v p == ARMED

/-! ## Legs and links -/

/-- The leg in slot `k` of port `p`, if the slot is filled; a port of TYPE 0 names no legs (R15). -/
def slotLeg (s : State) (v : Vat) (p k : Nat) : Option Nat :=
  let w := R.PORT_LEGS v p
  if s.is (R.PORT_CFG_TYPE v p) && s.is ⟨w, 8 * k + 7, 1⟩ then some (s.rd ⟨w, 8 * k, 5⟩) else none

/-- The legs of a port, in slot order. -/
def portLegs (s : State) (v : Vat) (p : Nat) : List Nat := (List.range 4).filterMap (slotLeg s v p)

/-- The port that names a leg. -/
def legPort (s : State) (v : Vat) (n : Nat) : Option Nat :=
  (List.range 8).find? (fun p => (portLegs s v p).contains n)

/-- The slot of a leg in its port. -/
def legSlot (s : State) (v : Vat) (p n : Nat) : Option Nat :=
  (List.range 4).find? (fun k => slotLeg s v p k == some n)

/-- The linked partner of a port (R18). -/
def partner (s : State) (v : Vat) (p : Nat) : Option Nat :=
  if s.is (R.PORT_CFG_LNK_EN v p) then some (s.rd (R.PORT_CFG_LINK v p)) else none

/-- The port is the secondary of a linked pair. -/
def isSecondary (s : State) (v : Vat) (p : Nat) : Bool := s.is (R.PORT_CFG_LNK_EN v p) && s.is (R.PORT_CFG_ROLE v p)

/-- The primary of a port: itself, unless it is a linked secondary. -/
def primaryOf (s : State) (v : Vat) (p : Nat) : Nat := if isSecondary s v p then s.rd (R.PORT_CFG_LINK v p) else p

/-- A port and its linked partner: what changes state together (R19). (DEDUCED: notes/assumptions/13.md.) -/
def portUnit (s : State) (v : Vat) (p : Nat) : List Nat := p :: (partner s v p).toList

def modPort (s : State) (v : Vat) (p : Nat) (f : PortSt → PortSt) : State :=
  s.modVat v (fun x => { x with ports := modNth x.ports p f })

def getPort (s : State) (v : Vat) (p : Nat) : PortSt := nth (s.vat v).ports p {}

def modLeg (s : State) (v : Vat) (n : Nat) (f : LegSt → LegSt) : State :=
  s.modVat v (fun x => { x with legs := modNth x.legs n f })

def getLeg (s : State) (v : Vat) (n : Nat) : LegSt := nth (s.vat v).legs n {}

def modDlr (s : State) (v : Vat) (n : Nat) (f : DlrSt → DlrSt) : State :=
  s.modVat v (fun x => { x with dlrs := modNth x.dlrs n f })

def getDlr (s : State) (v : Vat) (n : Nat) : DlrSt := nth (s.vat v).dlrs n {}

/-! ## Graphs and what they consume -/

def getEng (s : State) (v : Vat) (c : Nat) : EngSt := nth (s.vat v).engines c {}

def getSlot (s : State) (v : Vat) (c k : Nat) : GraphSt := nth (getEng s v c).slots k {}

/-- The engine and slot of the graph bound to a port. -/
def portGraph (s : State) (v : Vat) (p : Nat) : Option (Nat × Nat) :=
  ((List.range 32).find? (fun i => s.is (R.GS_BIND_BOUND v (i / 4) (i % 4)) && s.rd (R.GS_BIND_PORT v (i / 4) (i % 4)) == p)).map
    (fun i => (i / 4, i % 4))

/-- A source block's input is VALID now: a sense channel, a position input, or an auxiliary channel. -/
def sourceValid (s : State) (v : Vat) (d : InstDef) : Bool :=
  let cfg := (nth d.pars 0 0).toNat
  match d.btype with
  | 0x26 => s.is (R.POS_STAT_VALID v (cfg % 8))
  | 0x27 => s.is (R.SLICE_DATA_VALID v (cfg % 64))
  | 0x28 => s.is (R.AX_VALID v (cfg % 64))
  | 0x29 => !bitOf cfg 0 || s.is (R.AX_VALID v (cfg / 256 % 64))
  | _ => true

/-- Every input that the port's graph consumes is VALID (R20), in the owning vat, which the ports follow (R24). -/
def inputsValid (s : State) (v : Vat) (p : Nat) : Bool :=
  let w := s.owner.getD v
  match portGraph s w p with
  | some (c, k) => (getSlot s w c k).defs.all (sourceValid s w)
  | none => true

/-! ## Causes present (R20, R22) -/

/-- DRV_FAULT on a leg (R235): a break in progress, or the latest good frame reports HDS, LDS, LUV, PUV, or HUV outside
the disregard of R234. -/
def drvFault (s : State) (v : Vat) (n : Nat) : Bool :=
  let f := s.rd (R.DLR_FRAME_FRAME v n)
  s.is (R.DLR_STAT_BREAK v n) || bitOf f 3 || bitOf f 4 || bitOf f 6 || bitOf f 7 || (getDlr s v n).huvFault

def drvLink (s : State) (v : Vat) (n : Nat) : Bool := !s.is (R.DLR_STAT_LINKOK v n)

/-- The trips whose LEVEL is asserted with port `p` in their PMASK. -/
def tripsOn (s : State) (v : Vat) (p : Nat) : List Nat :=
  (List.range 8).filter (fun i =>
    s.is (R.TRIP_CFG_EN v i) && s.rdBit (R.TRIP_CFG_PMASK v i) p && s.is (R.TRIP_STAT_LEVEL v i))

/-- The causes present on one port, lowest code first: those that outlive the port's stay in RUN (R20, R215, R221, R235,
R127). -/
def ownCauses (s : State) (v : Vat) (p : Nat) : List Nat :=
  let legs := portLegs s v p
  (if tripsOn s v p = [] then [] else [causeTRIP])
    ++ (if legs.any (drvFault s v) then [causeDRVFAULT] else [])
    ++ (if legs.any (drvLink s v) then [causeDRVLINK] else [])
    ++ (if legs.any (fun n => (getDlr s v n).mismatch) then [causeDRVMISMATCH] else [])
    ++ (if (getPort s v p).cohCause then [causeCOHERENCE] else [])
    ++ (if (getPort s v p).engineLost then [causeENGINELOST] else [])

/-- The causes present on a port or, as PARTNER, on its linked partner (R19). -/
def causesPresent (s : State) (v : Vat) (p : Nat) : List Nat :=
  ownCauses s v p ++ ((partner s v p).toList.flatMap (fun q => if ownCauses s v q = [] then [] else [causePARTNER]))

/-! ## Levels driven before the arbiter -/

/-- EN of a BS leg rises: its HUV is disregarded while the bootstrap first charges (R234). -/
def enRises (s : State) (v : Vat) (n : Nat) : State :=
  if s.is (R.DLR_CFG_CLASS v n) then
    (modLeg s v n (fun x => { x with charged := false, huvEnd := none })).set1 (R.DLR_STAT_HUVMASK v n)
  else s

/-- No refresh and no delayed edge waits on a leg. -/
def LegSt.quiet (x : LegSt) : LegSt := { x with refEnd := none, ahead := false, due := none }

/-- Levels forced on a leg end its interval and a refresh at once (R217, R232). -/
def setPins (s : State) (v : Vat) (n : Nat) (pulse en : Bool) : State :=
  let s := if en && !s.is (R.LEG_PIN_EN v n) then enRises s v n else s
  let s := modLeg s v n LegSt.quiet
  (s.wr (R.LEG_PIN_PULSE v n) (boolNat pulse)).wr (R.LEG_PIN_EN v n) (boolNat en)

/-- Drive every leg of a port to one level pair. -/
def setPortPins (s : State) (v : Vat) (p : Nat) (pulse en : Bool) : State :=
  (portLegs s v p).foldl (fun s n => setPins s v n pulse en) s

/-- A switch of an active short circuit is faulted (R237): `high` says which side of the leg. -/
def switchFaulted (s : State) (v : Vat) (n : Nat) (high : Bool) : Bool :=
  let f := s.rd (R.DLR_FRAME_FRAME v n)
  s.is (R.DLR_STAT_BREAK v n) || !s.is (R.DLR_STAT_LINKOK v n) || bitOf f 7
    || (if high then bitOf f 3 || bitOf f 9 || bitOf f 5 else bitOf f 4 || bitOf f 10 || bitOf f 6)

/-- A switch that pattern `fp` turns on is faulted, on any leg of the listed ports. -/
def patternFaulted (s : State) (v : Vat) (ps : List Nat) (fp : Nat) : Bool :=
  fp != 0 && ps.any (fun q => (portLegs s v q).any (fun n => switchFaulted s v n (fp == 2)))

/-- Put pattern `fp` (R236) at the pins of a port: PATNOW, PULSE and EN. -/
def drivePattern (s : State) (v : Vat) (p fp : Nat) : State :=
  setPortPins (s.wr (R.PORT_FPCFG_PATNOW v p) (fp + 1)) v p (fp == 2) (fp != 0)

/-- Change a port's active short circuit to all-off (R237, R238): FB sets and one event is logged. -/
def toAllOff (s : State) (v : Vat) (p : Nat) : State :=
  ((drivePattern s v p 0).set1 (R.PORT_FPCFG_FB v p)).vatEvent v 0x0C 0x0B05 p

/-- The port holds an active short circuit. -/
def holdsShort (s : State) (v : Vat) (p : Nat) : Bool := 2 ≤ s.rd (R.PORT_FPCFG_PATNOW v p)

/-- A needed switch has become faulted while the pattern is held: the unit changes to all-off (R237). -/
def ascFallback (s : State) (v : Vat) (p : Nat) : State :=
  let u := portUnit s v p
  let fp := s.rd (R.PORT_FPCFG_FP v p)
  if u.any (holdsShort s v) && patternFaulted s v u fp then u.foldl (fun s q => if holdsShort s v q then toAllOff s v q else s) s
  else s

/-! ## Transitions -/

/-- The allowance of a ride in seconds: the lesser of its limit (0 selects DEGRADE_TIME) and DEGRADE_TIME (R164, R196). -/
def rideSeconds (s : State) (limit : Nat) : Nat :=
  let d := s.rd R.SAFE_CFG_DEGRADE_TIME
  if limit = 0 then d else min limit d

def olAllowance (s : State) (v : Vat) (p : Nat) : Nat := rideSeconds s (s.rd (R.GRID_OLT_OLTIME v p))

def modGuard (s : State) (v : Vat) (p : Nat) (f : GuardSt → GuardSt) : State :=
  s.modVat v (fun x => { x with guards := modNth x.guards p f })

/-- OL_LEFT is restored (R164, R165). -/
def restoreOl (s : State) (v : Vat) (p : Nat) : State :=
  modGuard (s.wr (R.GRID_STAT_OL_LEFT v p) (olAllowance s v p * 10)) v p (fun g => { g with olPt := 0 })

/-- What leaves with RUN: DEGR (R23), the rides and the ramp of the guards (R164, R197, R198), and the pins' set (R219). -/
def leaveRun (s : State) (v : Vat) (p : Nat) : State :=
  let s := modPort (s.clr (R.PORT_STATE_DEGR v p)) v p (fun x => { x with
    followSet := false, stopDone := false, runSince := false, ranWindow := false })
  let s := (portLegs s v p).foldl (fun s n => modLeg s v n LegSt.quiet) s
  let s := if s.rd (R.PORT_CFG_TYPE v p) = 1 then restoreOl s v p else s
  let s := s.clr (R.GRID_STAT_OL v p)
  (s.clr (R.DRV_STAT_OBS v p)).clr (R.DRV_STAT_ZR v p)

/-- The carrier period in 62.5 ps (R204). -/
def carrierUnits (mode1 : Bool) (per : Nat) : Nat := if mode1 then 32 * per else 64 * per

/-- The port's carrier runs in MODE 1 (R204). -/
def portMode1 (s : State) (v : Vat) (p : Nat) : Bool := s.is (R.PORT_CARCFG_MODE v p)

/-- PHOFS of a port in 62.5 ps: its share of the period in force, rounded with ties upwards (R205). -/
def phofsUnits (s : State) (v : Vat) (p : Nat) : Nat :=
  (roundUpDiv (s.rd (R.PORT_CARCFG_PHOFS v p) * carrierUnits (portMode1 s v p) (s.rd (R.PORT_PERACT_PERACT v p)) : Nat) 65536).toNat

/-- Since a valley of its own carrier, in 62.5 ps: a linked secondary's carrier is its primary's, advanced by its PHOFS (R203-R205).
Nothing before the carriers start. -/
def sinceValley (s : State) (v : Vat) (p : Nat) : Nat :=
  match (getPort s v (primaryOf s v p)).carPt with
  | some t =>
    let n := (32 * ((s.pt : Int) - t)).toNat
    if isSecondary s v p then (n + phofsUnits s v p) % max (carrierUnits (portMode1 s v p) (s.rd (R.PORT_PERACT_PERACT v p))) 1
    else n
  | none => 0

/-- What begins with RUN: H of the BS legs starts at TBS_MAX, in µs of 500 cycles (R232). -/
def enterRun (s : State) (v : Vat) (p : Nat) : State :=
  (portLegs s v p).foldl (fun s n =>
    modLeg s v n (fun x => { x.quiet with hFrom := (s.pt : Int) - (500 * s.rd (R.DLR_CFG_TBS_MAX v n) : Nat) })) s

/-- Take one port of one vat to a state: the pins follow (R21, R219), latched soft trips drop when both RUN and ARMED are
left (R223), and one event is logged (code 0x0501). -/
def setPortState (s : State) (v : Vat) (p new cause : Nat) : State :=
  let old := portState s v p
  if old = new then s else
    let s := if old = RUN then leaveRun s v p else s
    let s := if old = IDLE then modPort s v p (fun x => { x with lastTick := none }) else s
    let s := if new = RUN then modPort s v p (fun x => { x with stopDone := false }) else s
    let s := if old = FAULTPAT then s.clr (R.PORT_FPCFG_FB v p) else s
    let s := if old = FAULTPAT && new != RETIRED then s.clr (R.PORT_FPCFG_PATNOW v p) else s
    let s := if new = RUN || new = ARMED then s else s.clr (R.PORT_PWMSTAT_TRIPLAT v p)
    let s := if new = IDLE || new = ARMED then setPortPins s v p false false else s
    let s := if new = RUN then enterRun s v p else s
    (s.wr (R.PORT_STATE_STATE v p) new).vatEvent v 0x10 0x0501 (p + new * 16 + cause * 256)

/-- One port's entry into FAULT_PATTERN: CAUSE and ENTRIES (R20). -/
def enterPattern1 (s : State) (v : Vat) (p cause fp : Nat) (fallback : Bool) : State :=
  let s := setPortState s v p FAULTPAT cause
  let s := (s.wr (R.PORT_STATE_CAUSE v p) cause).incSat (R.PORT_STATE_ENTRIES v p)
  if fallback then toAllOff s v p else drivePattern s v p fp

/-- ENTRIES of any port of the unit has reached its FAULT_LIMIT. -/
def limitReached (s : State) (v : Vat) (u : List Nat) : Bool :=
  u.any (fun q => let l := s.rd (R.PORT_CFG_FAULT_LIMIT v q)
    l != 0 && l ≤ s.rd (R.PORT_STATE_ENTRIES v q))

/-- The unit of port `p` enters FAULT_PATTERN, each port with its own cause (R19, R20), with one pattern for the unit
(R235-R237), and retires where FAULT_LIMIT is reached. -/
def enterUnitPattern (s : State) (v : Vat) (p : Nat) (cause : Nat → Nat) : State :=
  if !portActive s v p then s else
    let u := portUnit s v p
    let fp := s.rd (R.PORT_FPCFG_FP v p)
    let fb := patternFaulted s v u fp
    let s := u.foldl (fun s q => enterPattern1 s v q (cause q) fp fb) s
    if limitReached s v u then u.foldl (fun s q => setPortState s v q RETIRED causeRETIRE) s else s

/-- A fault of port `p` with code `cause`; its linked partner takes cause PARTNER. -/
def enterFaultPattern (s : State) (v : Vat) (p cause : Nat) : State :=
  enterUnitPattern s v p (fun q => if q = p then cause else causePARTNER)

/-- Trip `i` acts on port `q` at once: hard, or soft outside a blanking window (R221). -/
def tripActs (s : State) (v : Vat) (i q : Nat) : Bool := s.is (R.TRIP_CFG_CLASS v i) || !s.is (R.PORT_PWMSTAT_BLK v q)

/-- The lowest of a port's own causes that acts as it arms (R20, R221). -/
def armCause (s : State) (v : Vat) (q : Nat) : Option Nat :=
  ((ownCauses s v q).filter (fun c => c != causeTRIP || (tripsOn s v q).any (fun i => tripActs s v i q))).head?

/-- What registers with a cause that acts at arming as if it had just arisen: a soft trip inside an open window is latched
(R221), DRVF_F of the legs that report (R235), COHESC_F (R215). -/
def armEffects (s : State) (v : Vat) (q : Nat) : State :=
  match armCause s v q with
  | none => (tripsOn s v q).foldl (fun s i => s.wrBit (R.PORT_PWMSTAT_TRIPLAT v q) i true) s
  | some c =>
    if c = causeCOHERENCE then s.vatFlagBit v 0x0B (R.PWM_COHERR_COHESC_F v) q
    else if c = causeDRVFAULT || c = causeDRVLINK || c = causeDRVMISMATCH then
      ((portLegs s v q).filter (fun n => drvFault s v n || drvLink s v n || (getDlr s v n).mismatch)).foldl
        (fun s n => s.vatFlagEdge v 0x0C (R.DLR_STAT_DRVF_F v n)) s
    else s

/-- Act on the causes present as a unit arms (R20): each port takes its own, or PARTNER. -/
def actOnCauses (s : State) (v : Vat) (p : Nat) : State :=
  let u := portUnit s v p
  let cause (q : Nat) : Nat := (armCause s v q).getD causePARTNER
  let any := u.any (fun q => (armCause s v q).isSome)
  let s := u.foldl (fun s q => armEffects s v q) s
  if any then enterUnitPattern s v p cause else s

/-- Take a unit of ports to a fault-free state together (R19). -/
def setUnitState (s : State) (v : Vat) (p new : Nat) : State :=
  (portUnit s v p).foldl (fun s q => setPortState s v q new 0) s

/-- IDLE to ARMED (R20): causes already present act in the same cycle. -/
def armUnit (s : State) (v : Vat) (p : Nat) : State :=
  let s := setUnitState s v p ARMED
  if portState s v p = ARMED then actOnCauses s v p else s

/-! ## Pins after the arbiter and the Harp gate -/

/-- The vat whose levels reach a leg's pins: the previous owner while the leg is pending (R252), else the owner. -/
def drivingVat (s : State) (n : Nat) : Option Vat :=
  if s.rdBit R.OWN_LEGPEND_VAL n then s.arb.prevOwner else s.owner

/-- PULSE and EN of leg `n` at the pins: patterns the arbiter or the monitor holds (R254, R367), else the driving vat's
levels; EN behind the Harp gate (R265). -/
def pinLevels (s : State) (n : Nat) : Bool × Bool :=
  let gate := s.is R.HARP_STAT_GATE
  match s.arb.hold with
  | some pats =>
    match legPort s s.viewVat n with
    | some p => let q := nth pats p 0
      (q == 3, 2 ≤ q && gate)
    | none => (false, false)
  | none =>
    match drivingVat s n with
    | some v => (s.is (R.LEG_PIN_PULSE v n), s.is (R.LEG_PIN_EN v n) && gate)
    | none => (false, false)

end Sys2Proof.Machine
end

