-- ==== Sys2Proof/Machine/Safe.lean ====
section
/-! DEFINITION. Device states (R6-R8), the Harp gate and outputs (R265, R274, R278), STO and SAFE_STOP (R270-R273), SS1
(R271), safety faults and their ride (R279, R280), the effect of the resolved orders on the ports (R20, R282), and
DEG_CAUSE (R263). -/

namespace Sys2Proof.Machine

open Sys2Proof

def DevState.code : DevState → Nat
  | .off => 0
  | .starting => 1
  | .loading => 2
  | .ready => 3
  | .run => 4
  | .degraded => 5
  | .safeStop => 6
  | .recovery => 7

/-- READY, RUN or DEGRADED. -/
def DevState.operating : DevState → Bool
  | .ready | .run | .degraded => true
  | _ => false

/-- READY, RUN, DEGRADED or SAFE_STOP: "READY onward" (R400). -/
def DevState.onward : DevState → Bool
  | .ready | .run | .degraded | .safeStop => true
  | _ => false

/-- Change the device state; a change between states other than OFF is logged (code 0x0102; OFF has no encoding, R6). -/
def setDev (s : State) (d : DevState) : State :=
  if s.dev = d then s else
    let old := s.dev
    let s := { s with dev := d, rst := { s.rst with reachedReady := s.rst.reachedReady || d == .ready } }
    if old = .off || d = .off then s else s.event 0x01 0x0102 (d.code + old.code * 16)

/-! ## The Harp gate and outputs -/

/-- Output `n` is in use. -/
def outUsed (s : State) (n : Nat) : Bool := s.is (R.HARP_OUT_EN n)

/-- A test that has ended in this cycle is taken back: its output is low again, and neither its count nor its failure stands, nor a ride
that the failure alone began (R278; notes/assumptions/101.md). -/
def takeBackTest (s : State) (t : TestEnd) : State :=
  let s := (s.wrBit R.HARP_STAT_OUT t.out false).wr R.HARP_CNT_TESTS t.tests
  let s := (s.wr R.SAFE_FLAGS_TPFAIL_F (boolNat t.failed)).wr ⟨R.SAFE_FAULT, 3, 1⟩ (boolNat t.fault)
  if s.rd ⟨R.SAFE_FAULT, 0, 6⟩ = 0 then s.wr R.SAFE_FLAGS_RIDE_F (boolNat t.ride) else s

/-- The test of output `n` whose pulse has ended in this cycle. -/
def endedTest (s : State) (n : Nat) : Option TestEnd := s.harp.tested.filter (fun t => t.out == n && t.vt == s.time.vt)

/-- A test gives way to a demand. -/
def countAbandoned (s : State) (n : Nat) : State :=
  ((s.set1 R.SAFE_FLAGS_TPABND_F).incSat R.HARP_CNT_ABANDONED).event 0x05 0x0607 n

/-- Abandon for a demand the test of output `n` that runs, or whose pulse ends in this cycle (R278): its check is neither passed nor
failed. -/
def abandonTest (s : State) (n : Nat) : State :=
  if s.rdBit R.HARP_STAT_TP n then countAbandoned (s.wrBit R.HARP_STAT_TP n false) n
  else
    match endedTest s n with
    | some t => countAbandoned { (takeBackTest s t) with harp := { s.harp with tested := none } } n
    | none => s

/-- The gate goes false (R265): tests are abandoned (R278) and each output goes low at once or after its OFFDLY (R274). -/
def gateOff (s : State) : State :=
  if !s.is R.HARP_STAT_GATE then s else
    let s := forN 4 s abandonTest
    let s := { s with harp := { s.harp with testWait := [false, false, false, false] } }
    let s := forN 4 s (fun s n =>
      if s.rd ⟨R.HARP_OUTDLY, 8 * n, 8⟩ = 0 then s.wrBit R.HARP_STAT_OUT n false
      else { s with harp := { s.harp with offPend := modNth s.harp.offPend n (fun _ => s.rdBit R.HARP_STAT_OUT n) } })
    s.clr R.HARP_STAT_GATE

/-- The gate goes true: the outputs in use rise (R272, R274). -/
def gateOn (s : State) : State :=
  let s := { s with harp := { s.harp with offPend := [false, false, false, false] } }
  let s := forN 4 s (fun s n => if outUsed s n then s.wrBit R.HARP_STAT_OUT n true else s)
  s.set1 R.HARP_STAT_GATE

/-- Every port that is not RETIRED goes to IDLE, in both vats (R20: the device enters SAFE_STOP). A RETIRED port keeps its pattern
behind the closed gate (R21), so an active short circuit returns to the pins with the gate after SAFE_RESTART, which the spec
leaves open (R271). (DESIGN CHOICE: notes/assumptions/13.md.) -/
def idlePorts (s : State) : State :=
  forVats s (fun s v => forN 8 s (fun s p => if portState s v p = RETIRED then s else setPortState s v p IDLE 0))

/-- The ride of a safety fault ends (DEG_CAUSE bit 9 lasts until safe stop 1 or clearance, R263). -/
def endRide (s : State) : State :=
  { ((s.clr R.SAFE_STAT_RIDE).clr R.SAFE_STAT_DG_LEFT) with harp := { s.harp with rideNs := 0 } }

/-- STO taken with a source, and SAFE_STOP entered (R265, R270-R273): the permit is false, SS1 and the ride are over, the
patterns held at the pins end, the ports are IDLE. -/
def enterSafeStop (s : State) (src : Nat) : State :=
  let s := gateOff s
  let s := ((s.set1 R.SAFE_STAT_STO).wr R.SAFE_STAT_STOSRC src).clr R.SAFE_STAT_SS1_ACT
  let s := (s.set1 R.SAFE_FLAGS_STO_F).event 0x05 0x0603 src
  let s := endRide s
  let s := idlePorts { s with arb := { s.arb with hold := none } }
  setDev s .safeStop

/-- An STO cause: SAFE_STOP from READY, RUN or DEGRADED. In the other states the permit is false already (R265), and R382
judges the cause at the end of LOADING. -/
def takeSto (s : State) (src : Nat) : State := if s.dev.operating then enterSafeStop s src else s

/-- SS1 starts (R271), or is treated as started while the arbiter's patterns are held (R273). A second start changes
nothing. -/
def startSs1 (s : State) (src : Nat) (kind : Ss1Kind) : State :=
  if !s.dev.operating || s.is R.SAFE_STAT_SS1_ACT then s else
    let s := (s.set1 R.SAFE_STAT_SS1_ACT).wr R.SAFE_STAT_SS1SRC src
    let s := (s.set1 R.SAFE_FLAGS_SS1_F).event 0x05 0x0602 src
    { (endRide s) with harp := { (endRide s).harp with ss1Kind := kind } }

/-! ## Safety faults (R279, R280) -/

/-- The source of a bit of SAFE_FAULT is present now (R281). -/
def notePresent (s : State) (bit : Nat) : State :=
  { s with harp := { s.harp with raised := modNth s.harp.raised bit (fun _ => s.time.vt) } }

/-- HARP_FBn differs from its expected level, which is HARP_OUTn, or its inverse with FBINV; outside a test pulse (R275). -/
def feedbackDiffers (s : State) (n : Nat) : Bool :=
  s.is (R.HARP_OUT_FBEN n) && !s.rdBit R.HARP_STAT_TP n
    && (Config.fbPin n s.time.vt != (s.rdBit R.HARP_STAT_OUT n != s.is (R.HARP_OUT_FBINV n)))

/-- A safety fault sets its bit of SAFE_FAULT; the first (no bit was set) starts the ride, but not in SAFE_STOP (R281). -/
def safetyFault (s : State) (bit : Nat) : State :=
  let first := s.rd ⟨R.SAFE_FAULT, 0, 6⟩ == 0
  let s := notePresent (s.wrBit ⟨R.SAFE_FAULT, 0, 32⟩ bit true) bit
  if !first || s.is R.SAFE_STAT_RIDE || !s.dev.operating then s else
    let t := s.rd R.SAFE_CFG_DEGRADE_TIME
    let s := (s.set1 R.SAFE_STAT_RIDE).wr R.SAFE_STAT_DG_LEFT (t * 10)
    let s := { s with harp := { s.harp with rideNs := t * 1000000000 } }
    (s.set1 R.SAFE_FLAGS_RIDE_F).event 0x05 0x0604 (s.rd ⟨R.SAFE_FAULT, 0, 32⟩)

/-! ## Orders acting on ports (R20, R282, R271) -/

/-- The resolved value of an order signal (R283): 0 where it has no writer. -/
def orderValue (s : State) (sig : Nat) : Int := (lookupKey sig s.ord.resolved).getD 0

/-- The number of order `o` on port `p` (R320): 0 ARM, 1 RUN, 2 CLEAR, 3 STOP, 4 DISARM, 5 PATTERN_RELEASE. -/
def orderSignal (o p : Nat) : Nat := 0x0010 + 8 * o + p

/-- A resolved order is asserted, and has risen since the last restart where it must (R272, R382). -/
def ordered (s : State) (o p : Nat) : Bool :=
  orderValue s (orderSignal o p) != 0 && !s.ord.mustRise.contains (orderSignal o p)

/-- The unit's ARM order: asserted on either port of a linked pair (R19), not withdrawn by DISARM or SS1.
(DEDUCED: notes/assumptions/14.md.) -/
def armOrdered (s : State) (v : Vat) (p : Nat) : Bool :=
  let u := portUnit s v p
  u.any (ordered s 0) && !u.any (ordered s 4) && !s.is R.SAFE_STAT_SS1_ACT

def runOrdered (s : State) (v : Vat) (p : Nat) : Bool :=
  let u := portUnit s v p
  u.any (ordered s 1) && !u.any (ordered s 3) && !s.is R.SAFE_STAT_SS1_ACT

/-- A graph is bound to the port in this vat (GS_BIND; R95). -/
def portHasGraph (s : State) (v : Vat) (p : Nat) : Bool :=
  (List.range 8).any (fun c => (List.range 4).any (fun k =>
    s.is (R.GS_BIND_BOUND v c k) && s.rd (R.GS_BIND_PORT v c k) == p))

/-- The stop ramp is complete: the graph reports it, or the port has no graph to ramp (notes/assumptions/12.md). -/
def rampDone (s : State) (v : Vat) (p : Nat) : Bool := !portHasGraph s v p || (getPort s v p).stopDone

/-- The level orders act on one port unit of one vat (R20). -/
def ordersOnUnit (s : State) (v : Vat) (p : Nat) : State :=
  let s := if portState s v p = RUN && !runOrdered s v p && rampDone s v p then setUnitState s v p ARMED else s
  let s := if portState s v p = ARMED && !armOrdered s v p then setUnitState s v p IDLE else s
  let s := if portState s v p = IDLE && s.dev.operating && armOrdered s v p && s.is (R.PORT_CFG_TYPE v p)
    then armUnit s v p else s
  if portState s v p = ARMED && s.dev.operating && runOrdered s v p && inputsValid s v p
    then setUnitState s v p RUN else s

/-- The level orders act on every port of every computing vat, except where the arbiter holds patterns. -/
def ordersOnPorts (s : State) : State :=
  if s.arb.hold.isSome then s else
    forVats s (fun s v => if s.vatLive v then
      forN 8 s (fun s p => if isSecondary s v p then s else ordersOnUnit s v p) else s)

/-! ## DEG_CAUSE (R263) -/

/-- A unit retires: its bit of DEG_CAUSE sets, logged (code 0x0106). -/
def degSet (s : State) (bit : Nat) : State :=
  if s.rdBit R.OWN_DEG_DEG_CAUSE bit then s else
    let s := s.wrBit R.OWN_DEG_DEG_CAUSE bit true
    s.event 0x01 0x0106 (s.rd R.OWN_DEG_DEG_CAUSE)

/-- The bits of DEG_CAUSE that the state shows now. Bits 0, 1 and 5 are set where an engine, a slice or a channel
retires (`degSet`). -/
def degNow (s : State) : Nat :=
  let w := s.viewVat
  let port (f : Nat → Bool) := (List.range 8).any f
  let b (i : Nat) (c : Bool) := if c then 2 ^ i else 0
  b 2 (port (fun p => portState s w p == RETIRED))
    + b 3 (s.vats.any (fun v => s.rd (R.VAT_ROLE_ROLE v) == 4))
    + b 4 (s.variant.dual && s.vats.any (fun v => s.rd (R.VAT_ROLE_ROLE v) == 3 || s.is (R.VAT_ROLE_JOINING v)))
    + b 6 (port (fun p => portState s w p == RUN && s.is (R.PORT_STATE_DEGR w p)))
    + b 7 (port (fun p => s.is (R.GRID_STAT_OL w p)))
    + b 8 (port (fun p => s.is (R.DRV_STAT_OBS w p)))
    + b 9 (s.is R.SAFE_STAT_RIDE)

/-- Bits 0 to 3 and 5 last until a SYS reset. -/
def degKeep (old : Nat) : Nat := old % 16 + (if bitOf old 5 then 32 else 0)

def orBits (a b : Nat) : Nat := Nat.lor a b

/-- Refresh DEG_CAUSE while the device operates or is in SAFE_STOP; a change is logged (code 0x0106). -/
def refreshDeg (s : State) : State :=
  if !s.dev.onward then s else
    let old := s.rd R.OWN_DEG_DEG_CAUSE
    let new := orBits (degNow s) (degKeep old)
    if new = old then s else (s.wr R.OWN_DEG_DEG_CAUSE new).event 0x01 0x0106 new

def anyPortIn (s : State) (sts : List Nat) : Bool :=
  (List.range 8).any (fun p => sts.contains (portState s s.viewVat p))

/-- READY and RUN follow the ports, DEGRADED follows DEG_CAUSE (R7, R8, R263); while SS1 runs the device keeps its state (R271). -/
def refreshDev (s : State) : State :=
  if !s.dev.operating || s.is R.SAFE_STAT_SS1_ACT then s else
    if s.rd R.OWN_DEG_DEG_CAUSE != 0 then setDev s .degraded
    else if anyPortIn s [RUN] then setDev s .run else setDev s .ready

/-- STO at the end of SS1: no port left in RUN or ARMED (R271), or, where patterns are held, no active short circuit left
(R273, R367). -/
def ss1End (s : State) : State :=
  if !s.is R.SAFE_STAT_SS1_ACT then s else
    match s.harp.ss1Kind with
    | .normal => if anyPortIn s [RUN, ARMED] then s else enterSafeStop s 3
    | .patterns =>
      match s.arb.hold with
      | some pats => if pats.any (fun q => 2 ≤ q) then s else enterSafeStop s 6
      | none => enterSafeStop s 6

end Sys2Proof.Machine
end

