-- ==== Sys2Proof/Machine/ResetCore.lean ====
section
/-! DEFINITION. What the reset levels clear and spare (R13, R372), and RST_CAUSE (R374). -/

namespace Sys2Proof.Machine

open Sys2Proof

/-- A register's value after a reset that keeps the bits of `mask`. -/
def keepBits (por w : Word) (mask : Nat) : Word :=
  let m := BitVec.ofNat 32 mask
  (w &&& m) ||| (por &&& ~~~m)

/-- The register file after a reset, each register keeping the bits its row's mask says. -/
def RegFile.resetBy (r : RegFile) (mask : RegRow → Nat) : RegFile :=
  r.mapRegs (fun a w =>
    match findReg a with
    | some (row, is) => keepBits (BitVec.ofNat 32 (porOf row is)) w (mask row)
    | none => 0)

/-- Address `a` lies in the vat window of `v`. -/
def inWindow (v : Vat) (a : Nat) : Bool := v.base ≤ a && a < v.base + 0x10000000

/-- The register belongs to the pulse generator, the driver links, the AUX sequencers or VAT_ROLE: not reset with the
supervisor and engines of an owner while HANDOVER is pending (R251), and VAT_ROLE never by a VAT reset (R241). -/
def pulseBlock (v : Vat) (a : Nat) : Bool :=
  let off := a - v.base
  (0x04000000 ≤ off && off < 0x04030000) || (0x04200000 ≤ off && off < 0x04201000) || (0x04600000 ≤ off && off < 0x04600400)

/-- The register holds the state, the pattern or the pin levels of a RETIRED port, which stay until a SYS reset (R20, R21). -/
def retiredHolds (s : State) (v : Vat) (a : Nat) : Bool :=
  (List.range 8).any (fun p => portState s v p == RETIRED &&
    (a == R.PORT_STATE v p || a == R.PORT_FPCFG v p || (portLegs s v p).any (fun n => a == R.LEG_PIN v n)))

/-- The registers of one vat after its VAT reset: LK fields, the fields marked keep (R13), and what a RETIRED port holds. -/
def vatRegsReset (s : State) (v : Vat) (pick : Nat → Bool) : State :=
  { s with regs := s.regs.mapRegs (fun a w =>
      if inWindow v a && a != R.VAT_ROLE v && pick a && !retiredHolds s v a then
        match findReg a with
        | some (row, is) =>
          let m := Nat.lor row.lk row.keepVat
          -- RETIRED survives as the engine's state (CE_STAT.STATE)
          let m := if row.base = 0x04300000 && getBits w 0 2 = 3 then Nat.lor m 3 else m
          keepBits (BitVec.ofNat 32 (porOf row is)) w m
        | none => 0
      else w) }

/-- Drop the contents of every SRAM: a SYS reset and a POR clear them (R372). -/
def clearSrams (m : Memory) : Memory :=
  let m := Memory.clear m 0x10000000 0x10180000
  let m := Memory.clear (Memory.clear m 0x50000000 0x50400000) 0x51000000 0x51100000
  Memory.clear (Memory.clear m 0x60000000 0x60400000) 0x61000000 0x61100000

/-- Record a reset in RST_CAUSE (R374): code, level (1 POR, 2 SYS, 3 VAT) and vat. -/
def recordCause (s : State) (code level vat : Nat) : State :=
  let s := ((s.wr R.RST_CAUSE_CODE code).wr R.RST_CAUSE_LEVEL level).wr R.RST_CAUSE_VAT vat
  if level = 1 then s else s.incSat R.RST_CAUSE_RESETS

/-- The state a SYS reset leaves: the always-on domain, VT, the ferroelectric store, OTP and the Rind are spared, and the loops
stay locked, or in holdover or on their return from it, except after clock loss (R362, R372): REF_OK, GOOD, HOLD and SLEW show it. -/
def sysCleared (s : State) (clockLoss : Bool) : State :=
  let clk := s.regs.get R.CLK_STAT &&& 0x2FF
  let regs := s.regs.resetBy (fun row => row.keepSys)
  { State.reset with
    pending := s.pending
    variant := s.variant
    regs := if clockLoss then regs else regs.set R.CLK_STAT clk
    mem := clearSrams s.mem
    time := { vt := s.time.vt }
    clk := { slewQ := if clockLoss then 0 else s.clk.slewQ }
    rst := { phase := .trims, strap := s.rst.strap, bank33 := s.rst.bank33
             trimsEver := s.rst.trimsEver, loopsOn := s.rst.loopsOn && !clockLoss, startVt := s.time.vt
             heldLong := s.rst.heldLong, reachedReady := s.rst.reachedReady }
    trust := s.trust.afterSys.relock
    rind := { s.rind with tapOn := false }
    nv := s.nv
    free := s.free }

/-- A SYS reset has begun in this cycle: neither VT nor the release sequence has gone on since (R377).
(DEDUCED: notes/assumptions/35.md.) -/
def sysJustBegun (s : State) : Bool :=
  s.dev == .off && (s.rst.phase == .trims || s.rst.phase == .held) && s.rst.trimFails == 0 && s.rst.startVt == s.time.vt
    && s.rd R.RST_CAUSE_LEVEL == 2

/-- A SYS reset is recorded: of the requests of one cycle the lowest CODE, counted once (R377). -/
def recordSys (s : State) (code : Nat) (again : Bool) : State :=
  if again then s.wr R.RST_CAUSE_CODE (min (s.rd R.RST_CAUSE_CODE) code) else recordCause s code 2 0

/-- A SYS reset with its cause, then the release sequence from its first step (R372, R377, R379). While a POR is in force the
request is absorbed. -/
def sysReset (s : State) (code : Nat) : State :=
  if s.rst.phase = .por then s else
    let held := s.rst.phase = .held
    let s' := recordSys (sysCleared s (code == 0x0A)) code (sysJustBegun s)
    if held then { s' with rst := { s'.rst with phase := .held } } else s'

/-- A POR is releasing: its release sequence has not yet released the common domain. -/
def porReleasing (s : State) : Bool := s.dev == .off && s.rst.phase != .held && s.rd R.RST_CAUSE_LEVEL == 1

/-- A request for a SYS reset from outside the release sequence: while a POR is releasing it is absorbed (R377).
(DEDUCED: notes/assumptions/35.md.) -/
def requestSys (s : State) (code : Nat) : State := if porReleasing s then s else sysReset s code

/-- The state a POR leaves (R372): everything outside the Rind and the non-volatile stores. -/
def porCleared (s : State) : State :=
  { State.reset with
    pending := s.pending
    variant := s.variant
    regs := s.regs.resetBy (fun row => row.keepPor)
    mem := clearSrams s.mem
    trust := s.trust.afterPor
    rind := { s.rind with tapOn := false }
    nv := s.nv
    free := s.free }

/-- A core or I/O supply leaves its range (R450): POR is in force until the next POWER_ON_RESET. -/
def brownOut (s : State) : State :=
  let s := recordCause (porCleared s) 2 1 0
  { s with rst := { s.rst with brown := true } }

end Sys2Proof.Machine
end

