-- ==== Sys2Proof/Machine/Vats.lean ====
section
/-! DEFINITION. Vat roles, fault flags, ownership and VAT resets (11_vats_and_takeover.md R241-R254), and what follows
every command in the same cycle: the orders on the ports, the end of SS1, the device state and DEG_CAUSE (`settle`). -/

namespace Sys2Proof.Machine

open Sys2Proof

/-! ## Roles -/

abbrev roleACTIVE : Nat := 1
abbrev roleSTANDBY : Nat := 2
abbrev roleHALTED : Nat := 3
abbrev roleRETIRED : Nat := 4

def role (s : State) (v : Vat) : Nat := s.rd (R.VAT_ROLE_ROLE v)

/-- Change a vat's role; logged (code 0x0403). -/
def setRole (s : State) (v : Vat) (r : Nat) : State :=
  if role s v = r then s else (s.wr (R.VAT_ROLE_ROLE v) r).event 0x04 0x0403 (v.code + r * 16)

/-- Eligible to take over: a STANDBY with SYNCOK = 1 and FLT = 0 (R242). -/
def eligible (s : State) (v : Vat) : Bool :=
  s.hasVat v && role s v == roleSTANDBY && s.is (R.VAT_ROLE_SYNCOK v) && !s.is (R.VAT_ROLE_FLT v)

/-- PLL-T has been lost, and the sequence of R367 runs. -/
def lostT (s : State) : Bool := s.rst.sysAfterSto == some 0x0A

/-! ## Handover (R251, R252) -/

/-- The legs that some port names, as a mask. -/
def assignedLegs (s : State) : Nat :=
  (List.range 32).foldl (fun m n => if (legPort s s.viewVat n).isSome then m + 2 ^ n else m) 0

/-- The AUX links in use, as a mask. -/
def auxLinks (s : State) : Nat :=
  (List.range 4).foldl (fun m k => if s.is (R.AUX_CFG_EN s.viewVat k) then m + 2 ^ k else m) 0

/-- The SSI inputs in use (position inputs 4-7), as a mask (R184). -/
def ssiInputs (s : State) : Nat :=
  (List.range 4).foldl (fun m i => if s.is (R.POS_CFG_EN s.viewVat (4 + i)) then m + 2 ^ i else m) 0

/-- The pulse generator, AUX sequencers and SSI clocking of a vat whose reset was deferred enter reset (R251). -/
def resetPulse (s : State) (v : Vat) : State :=
  let s := vatRegsReset s v (pulseBlock v)
  s.modVat v (fun x => { x with
    pulseHeld := false
    ports := x.ports.map PortSt.kept
    legs := List.replicate 32 {}
    dlrs := List.replicate 32 {}
    aux := List.replicate 4 {}
    pos := List.replicate 8 {} })

/-- HANDOVER clears when nothing is pending: a deferred reset of the previous owner's pulse generator takes effect, and a
drill's check window begins (R251, R252, R260). -/
def finishHandover (s : State) : State :=
  if s.is R.OWN_STAT_HANDOVER && s.rd R.OWN_LEGPEND_VAL = 0 && s.arb.auxPend = 0 && s.arb.ssiPend = 0 then
    let prev := s.arb.prevOwner
    let s := s.clr R.OWN_STAT_HANDOVER
    let s := { s with arb := { s.arb with
      prevOwner := none
      drill := s.arb.drill.map (fun d => { d with checking := true }) } }
    match prev with
    | some v => if (s.vat v).pulseHeld then resetPulse s v else s
    | none => s
  else s

/-- The time between carrier events at the period in force: in MODE 0 half of it (R204). -/
def eventUnits (s : State) (v : Vat) (p : Nat) : Int := (32 * max (s.rd (R.PORT_PERACT_PERACT v p)) 1 : Nat)

/-- The carrier events of port `p` up to PT `x` from the one that set the counter, at PT `t`: a valley each period, and in MODE 0 a peak; a
linked secondary's come its PHOFS before its primary's (R205). -/
def eventIndex (s : State) (v : Vat) (p : Nat) (t x : Int) : Int :=
  (32 * (x - t) + (if isSecondary s v p then phofsUnits s v p else 0 : Nat)) / eventUnits s v p

/-- Carrier events of port `p` after PT `t0`, the latest change of OWNER, by its counter in vat `v`: those under earlier settings of the
counter, and those since the latest. -/
def eventsSince (s : State) (v : Vat) (p t0 : Nat) : Nat :=
  match (getPort s v (primaryOf s v p)).carPt with
  | some t => (getPort s v p).carEvents + (eventIndex s v p t s.pt - eventIndex s v p t (max (t0 : Int) t)).toNat
  | none => 0

/-- The carrier event that comes now, `peak` or a valley, sets the counter anew: during a handover the events of the setting that ends are
counted at its own period (R252). -/
def foldEvents (s : State) (v : Vat) (p : Nat) (peak : Bool) : State :=
  match (getPort s v (primaryOf s v p)).carPt with
  | some t =>
    let unit := eventUnits s v p
    let k := max 1 ((32 * ((s.pt : Int) - t) + unit / 2) / unit)
    let last := k + eventIndex s v p 0 0 - boolNat peak
    modPort s v p (fun q => { q with carEvents := q.carEvents + (last - eventIndex s v p t (max (s.arb.changePt : Int) t)).toNat })
  | none => s

/-- A pending leg passes: both vats drive it equally, the new owner drives its EN low, or the second carrier event after the
change has come (R252). -/
def legPasses (s : State) (n : Nat) : Bool :=
  match s.owner, s.arb.prevOwner with
  | some v, some w =>
    !s.is (R.LEG_PIN_EN v n)
      || (s.rd (R.LEG_PIN_EN v n) == s.rd (R.LEG_PIN_EN w n) && s.rd (R.LEG_PIN_PULSE v n) == s.rd (R.LEG_PIN_PULSE w n))
      || (match legPort s v n with
        | some p => 2 ≤ eventsSince s v p s.arb.changePt
        | none => true)
  | _, _ => true

/-- Both vats agree on an AUX link's outputs: the frame in progress and its channel (R252). -/
def auxPasses (s : State) (k : Nat) : Bool :=
  let out (v : Vat) : Option Nat := (nth (s.vat v).aux k {}).cur.map (fun c => c.1)
  out .A == out .B

/-- Both vats agree on an SSI input's clock: the frame in progress. -/
def ssiPasses (s : State) (i : Nat) : Bool :=
  let out (v : Vat) : Option Nat := (nth (s.vat v).pos (4 + i) {}).frame
  out .A == out .B

/-- The bits of a mask whose items still wait. -/
def stillWaiting (mask : Nat) (passes : Nat → Bool) : Nat :=
  (List.range 32).foldl (fun m n => if bitOf mask n && !passes n then m + 2 ^ n else m) 0

/-- Every item whose condition holds passes in this cycle (R252). -/
def passPending (s : State) : State :=
  if !s.is R.OWN_STAT_HANDOVER then s else
    let a := s.arb
    finishHandover { (s.wr R.OWN_LEGPEND_VAL (stillWaiting (s.rd R.OWN_LEGPEND_VAL) (legPasses s))) with
      arb := { a with auxPend := stillWaiting a.auxPend (auxPasses s), ssiPend := stillWaiting a.ssiPend (ssiPasses s) } }

/-- Every pending item passes at once. -/
def passAll (s : State) : State :=
  finishHandover { (s.wr R.OWN_LEGPEND_VAL 0) with arb := { s.arb with auxPend := 0, ssiPend := 0 } }

/-- A drill in progress ends without a result (R262). -/
def abortDrill (s : State) : State :=
  match s.arb.drill with
  | none => s
  | some _ =>
    let s := { s with arb := { s.arb with drill := none } }
    ((s.clr R.OWN_STAT_DRILL).set1 R.OWN_DRILL_ABORT_F).event 0x04 0x0404 3

/-- SIGDEF, graph inputs and graph outputs, names port `p`'s instances by their numbers in the engine that runs its graph in the
owning vat (R470, R255, R321): entries that name the other of its two places move. -/
def sigdefMove (s : State) (e i n e' i' : Nat) : State :=
  forN 1024 s (fun s k =>
    let j := s.rd (R.SIGDEF_INST k)
    let kind := s.rd (R.SIGDEF_KIND k)
    if (kind = 1 || kind = 2) && s.rd (R.SIGDEF_ENGINE k) = e && i ≤ j && j < i + n then
      (s.wr (R.SIGDEF_INST k) (j - i + i')).wr (R.SIGDEF_ENGINE k) e'
    else s)

/-- The engine in which a vat runs port `p`'s graph. -/
def graphEngine (s : State) (v : Vat) (p : Nat) : Option Nat :=
  (List.range 8).find? (fun c => (List.range 4).any (fun k =>
    s.is (R.GS_BIND_BOUND v c k) && s.rd (R.GS_BIND_PORT v c k) == p))

/-- SIGDEF follows the owning vat: `v` now owns. -/
def sigdefFollow (s : State) (v : Vat) : State :=
  s.whl.graphs.foldl (fun s w =>
    if !w.fbEn then s
    else if graphEngine s v w.port == some w.engine then sigdefMove s w.fallback w.fbFirst w.defs.length w.engine w.first
    else if graphEngine s v w.port == some w.fallback then sigdefMove s w.engine w.first w.defs.length w.fallback w.fbFirst
    else s) s

/-- The bits of `m` that are not in `k`. -/
def lessBits (m k : Nat) : Nat := m - Nat.land m k

/-- What is still with the new owner, from which it had not yet passed when ownership returned to it (R252). -/
def stillWith (s : State) (new : Vat) (mask : Nat) : Nat :=
  if s.is R.OWN_STAT_HANDOVER && s.arb.prevOwner == some new then mask else 0

/-- Every assigned leg, AUX link and SSI input stays with the previous owner, if there is one, until it passes, in this cycle where
its condition holds (R252); one that had not yet passed to the previous owner is with the new one already.
(DEDUCED: notes/assumptions/16.md.) -/
def stayWith (s : State) (old : Option Vat) (new : Vat) : State :=
  match old with
  | none => s
  | some o =>
    let legs := lessBits (assignedLegs s) (stillWith s new (s.rd R.OWN_LEGPEND_VAL))
    let a := lessBits (auxLinks s) (stillWith s new s.arb.auxPend)
    let i := lessBits (ssiInputs s) (stillWith s new s.arb.ssiPend)
    let s := { s with arb := { s.arb with prevOwner := some o, changePt := s.pt, auxPend := a, ssiPend := i } }
    let s := forVats s (fun s v => forN 8 s (fun s p => modPort s v p (fun q => { q with carEvents := 0 })))
    passPending ((s.wr R.OWN_LEGPEND_VAL legs).set1 R.OWN_STAT_HANDOVER)

/-- The previous owner becomes STANDBY. -/
def standDown (s : State) (old : Option Vat) : State :=
  match old with
  | some o => if role s o = roleACTIVE then setRole s o roleSTANDBY else s
  | none => s

/-- OWNER changes to `new` with a cause (R249, CAUSE of R264): the roles follow, and every assigned leg, AUX link and SSI
input stays with the previous owner until it passes (R252). After a loss of PLL-T OWNER keeps its value (R369).
(DEDUCED: notes/assumptions/16.md.) -/
def takeover (s : State) (new : Vat) (cause : Nat) : State :=
  if lostT s then s else
  let old := s.owner
  let s := ((s.wr R.OWN_STAT_OWNER new.code).wr R.OWN_STAT_CAUSE cause).incSat R.OWN_STAT_CHANGES
  let s := s.event 0x04 0x0401 (new.code + cause * 16)
  let s := sigdefFollow (setRole (standDown s old) new roleACTIVE) new
  stayWith s old new

/-! ## No standby (R5, R254, R273) -/

/-- The pattern the arbiter or the monitor puts at a port's pins, coded as PATNOW: OWN_FP, all-off when FB is set, none for
a port that is not running. -/
def heldPattern (s : State) (p : Nat) : Nat :=
  let st := portState s s.viewVat p
  if st = RUN || st = FAULTPAT || st = RETIRED then
    (if s.is (R.PORT_FPCFG_FB s.viewVat p) || (st = RETIRED && s.rd (R.PORT_FPCFG_PATNOW s.viewVat p) = 1) then 1 else s.rd ⟨R.OWN_FP, 2 * p, 2⟩ + 1)
  else 0

def heldPatterns (s : State) : List Nat := (List.range 8).map (heldPattern s)

/-- A takeover cause meets no eligible standby: the arbiter applies the patterns, no vat owns, and the Harp path treats the
event as SS1 with source 2 (R254, R273). After a loss of PLL-T the monitor holds the pads, and OWNER keeps its value (R367, R369).
(DEDUCED: notes/assumptions/19.md.) -/
def noStandby (s : State) (cause : Nat) : State :=
  if lostT s then s else
  let s := abortDrill s
  let pats := heldPatterns s
  let s := { s with arb := { s.arb with hold := if s.dev.operating then some pats else none } }
  let s := passAll s
  let s := if s.owner.isSome then
      (((s.wr R.OWN_STAT_OWNER 0).wr R.OWN_STAT_CAUSE cause).incSat R.OWN_STAT_CHANGES).event 0x04 0x0401 (cause * 16)
    else s
  -- an SS1 already running keeps its timer and goes on under R273
  if s.is R.SAFE_STAT_SS1_ACT then { s with harp := { s.harp with ss1Kind := .patterns } } else startSs1 s 2 .patterns

/-! ## VAT reset (R372, R377) -/

/-- What a VAT reset leaves of a vat outside the registers: the wheel's content, engine-local memory's wiring, retirements. -/
def VatSt.afterReset (x : VatSt) (deferPulse : Bool) : VatSt :=
  let y : VatSt := x.keepWheel
  if deferPulse then
    { y with
      pulseHeld := true, ports := x.ports, legs := x.legs, dlrs := x.dlrs, aux := x.aux
      pos := x.pos.map (fun q => { frame := q.frame, monoEnd := q.monoEnd }) }
  else { y with ports := x.ports.map PortSt.kept }

/-- A vat enters VAT reset (R372): supervisor, engines, slices and position inputs at once, the pulse generator of a
previous owner when HANDOVER clears (R251). Its role is HALTED, or RETIRED where it stays so. -/
def putInReset (s : State) (v : Vat) : State :=
  let defer := s.is R.OWN_STAT_HANDOVER && s.arb.prevOwner == some v
  let s := if role s v = roleRETIRED then s else setRole s v roleHALTED
  let s := vatRegsReset s v (fun a => !defer || !pulseBlock v a)
  let s := (s.clr (R.VAT_ROLE_SYNCOK v)).clr (R.VAT_ROLE_JOINING v)
  let s := s.setVat v ((s.vat v).afterReset defer)
  { s with log := { s.log with seqs := (List.range 32).foldl (fun l u => modNth l (vatSource v u) (fun _ => 0)) s.log.seqs } }

/-- Count one failure of a vat (R245); at FAILMAX it is RETIRED (R258). -/
def failVat (s : State) (v : Vat) : State :=
  let s := s.incSat (R.VAT_ROLE_FAILS v)
  if s.variant.dual && s.rd R.OWN_CFG_FAILMAX ≤ s.rd (R.VAT_ROLE_FAILS v) then setRole s v roleRETIRED else s

/-- Every vat of the variant but `v` is HALTED or RETIRED (R377). -/
def aloneVat (s : State) (v : Vat) : Bool :=
  s.vats.all (fun w => w == v || role s w == roleHALTED || role s w == roleRETIRED)

/-- A VAT reset with a lower code has been recorded in this cycle (R377). -/
def lowerRecorded (s : State) (code : Nat) : Bool :=
  s.rst.causeVt == some s.time.vt && s.rd R.RST_CAUSE_LEVEL == 3 && decide (s.rd R.RST_CAUSE_CODE < code)

/-- The code RST_CAUSE records for a VAT reset: the reset's own, or, for a reset the arbiter imposes, to which R374 gives
no code, a free value (notes/assumptions/15.md); of the requests of one cycle the lowest (R377). -/
def recordVatCause (s : State) (v : Vat) (code : Option Nat) : State :=
  let c := code.getD s.freeVal.toNat
  let s := if code.isSome then s else s.useFree
  let s := if lowerRecorded s c then s.incSat R.RST_CAUSE_RESETS else recordCause s c 3 v.code
  { s with rst := { s.rst with causeVt := some s.time.vt } }

/-- A VAT reset of `v` with its cause (R374, R377): before READY it is taken as a SYS reset; in OFF it is absorbed; an owner
hands over first (R249, R254), or, with no takeover, leaves every port that is not RETIRED in IDLE (R20); where no vat is left a
SYS reset with cause 0x0F follows STO, unless one for clock loss does (R367). `count` says whether the failure
still has to be counted (R245). -/
def vatReset (s : State) (v : Vat) (code : Option Nat) (ownCause : Nat) (count : Bool) : State :=
  if !s.hasVat v then s else
    match s.dev with
    | .off => s
    | .starting | .loading => sysReset s (code.getD 0x06)
    | .recovery => recordVatCause s v code
    | _ =>
      if (s.vat v).inReset then recordVatCause s v code else
        let last := aloneVat s v
        let owned := s.owner == some v
        let s := if count then failVat s v else s
        let s := if owned then
            (if eligible s v.other then takeover (abortDrill s) v.other ownCause else noStandby s ownCause)
          else s
        let s := putInReset (recordVatCause s v code) v
        let s := if owned && s.owner.isNone then idlePorts s else s
        if last then { s with rst := { s.rst with sysAfterSto := some (s.rst.sysAfterSto.getD 0x0F) } } else s

/-! ## Fault flags (R243, R245, R249) -/

/-- The reset that a source of FLT also causes, by its code in RST_CAUSE (R243, R374). -/
def fltResetCode (src : Nat) : Option Nat :=
  match src with
  | 1 => some 0x0B
  | 2 => some 0x07
  | 4 => some 0x05
  | _ => none

/-- The CAUSE of OWN_STAT for a source of FLT (R264): 2 heartbeat, 3 reset of the owner, 4 owner flag. -/
def fltOwnCause (src : Nat) : Nat := if src = 0 then 2 else if src = 1 || src = 2 || src = 4 || src = 7 then 3 else 4

/-- Note FLT of a vat in the attribution window, if one is open (R248). -/
def noteFlt (s : State) (v : Vat) : State :=
  { s with arb := { s.arb with attr := s.arb.attr.map (fun w =>
      match v with
      | .A => { w with fltA := true }
      | .B => { w with fltB := true }) } }

/-- A join fails (R258): JOINFAIL_F, one failure, and another VAT reset. -/
def failJoin (s : State) (v : Vat) : State :=
  if !s.is (R.VAT_ROLE_JOINING v) then s else
    let s := s.event 0x04 0x0405 (v.code + 4)
    let s := vatReset s v none 3 true
    s.set1 (R.VAT_JOIN_JOINFAIL_F v)

/-- A source of FLT sets (R243) and the flag is acted on (R245, R249): a standby is reset, an owner loses the pins to an
eligible standby, and where there is none only a source with a reset of its own takes effect, but that on a variant with one vat
every source puts the patterns at the pins, takes the device to SAFE_STOP and resets the vat (R5, R245). `code` is the code of the reset, `ownCause` the CAUSE of an ownership change. -/
def raiseFltWith (s : State) (v : Vat) (src : Nat) (code : Option Nat) (ownCause : Nat) : State :=
  if !s.hasVat v then s else
    let s := (s.wrBit (R.VAT_ROLE_FLTSRC v) src true).set1 (R.VAT_ROLE_FLT v)
    let s := noteFlt s v
    if !s.dev.onward then (if code.isSome then vatReset s v code ownCause true else s)
    else if s.is (R.VAT_ROLE_JOINING v) then failJoin s v
    else if s.owner == some v then
      (if eligible s v.other || code.isSome || !s.variant.dual then vatReset s v code ownCause true else abortDrill s)
    else vatReset s v code ownCause true

def raiseFlt (s : State) (v : Vat) (src : Nat) : State := raiseFltWith s v src (fltResetCode src) (fltOwnCause src)

/-! ## Comparison (R246, R248) -/

/-- Record a mismatch: its flag, the count, MMINFO and MMTICK (R264). -/
def noteMismatch (s : State) (k : MismatchKind) : State :=
  let s := s.incSat R.OWN_MMF_MISMATCHES
  let info (s : State) (kind leg port engine slot : Nat) : State :=
    let s := ((s.wrWord R.OWN_MMINFO 0).wr R.OWN_MMINFO_KIND kind).wr R.OWN_MMINFO_LEG leg
    ((s.wr R.OWN_MMINFO_PORT port).wr R.OWN_MMINFO_ENGINE engine).wr R.OWN_MMINFO_SLOT slot
  match k with
  | .csig e q p t => (info (s.set1 R.OWN_MMF_CSIG_F) 1 0 p.val e.val q.val).wrWord R.OWN_MMTICK t
  | .reload p t => (info (s.set1 R.OWN_MMF_RELOAD_F) 2 0 p.val 0 0).wrWord R.OWN_MMTICK t
  | .state p => info (s.set1 R.OWN_MMF_STATE_F) 3 0 p.val 0 0
  | .level n => info (s.set1 R.OWN_MMF_LEVEL_F) 4 n.val ((legPort s s.viewVat n.val).getD 0) 0 0
  | .auxOut _ | .ssiOut _ => info (s.set1 R.OWN_MMF_LEVEL_F) 4 0 0 0 0

/-- The record of a mismatch (code 0x0402): bits [20:0] of MMINFO. -/
def logMismatch (s : State) : State := s.event 0x04 0x0402 ((s.regs.get R.OWN_MMINFO).toNat % 2 ^ 21)

/-- The vat that joins, if one does. -/
def joiningVat (s : State) : Option Vat := s.vats.find? (fun v => s.is (R.VAT_ROLE_JOINING v))

/-- A port runs, in the view of either vat (R246). -/
def portRuns (s : State) (p : Nat) : Bool := portState s .A p == RUN || portState s .B p == RUN

/-- The graph of a port evaluates in both vats (R256). -/
def bothEvaluate (s : State) (p : Nat) : Bool :=
  [Vat.A, Vat.B].all (fun v => match portGraph s v p with
    | some (c, k) => (getSlot s v c k).entered
    | none => false)

/-- The comparator compares the item now: of a running port, of an assigned leg, of a link or input in use, of a graph that
evaluates in both vats (R246, R247). -/
def compared (s : State) (k : MismatchKind) : Bool :=
  s.variant.dual && s.vatLive .A && s.vatLive .B &&
    (match k with
    | .csig _ _ p _ => portRuns s p.val && bothEvaluate s p.val
    | .reload p _ | .state p => portRuns s p.val
    | .level n => (legPort s s.viewVat n.val).isSome
    | .auxOut k => s.is (R.AUX_CFG_EN s.viewVat k.val)
    | .ssiOut i => s.is (R.POS_CFG_EN s.viewVat (4 + i.val)))

/-- A mismatch aborts a drill (R262); a join fails by it (R258), else the attribution window opens (R248). -/
def compareMismatch (s : State) (k : MismatchKind) : State :=
  if !compared s k then s else
    let s := abortDrill (noteMismatch s k)
    match joiningVat s with
    | some v => failJoin (logMismatch s) v
    | none =>
      if s.arb.attr.isSome then s else
        { s with arb := { s.arb with attr := some ⟨s.is (R.VAT_ROLE_FLT .A), s.is (R.VAT_ROLE_FLT .B)⟩ } }

/-- The vats differ in an item now: PORTn_STATE and PATNOW, or PULSE and EN, or what an AUX link or SSI input sends, before the
arbiter (R246). -/
def differs (s : State) : MismatchKind → Bool
  | .state p => portState s .A p.val != portState s .B p.val
    || s.rd (R.PORT_FPCFG_PATNOW .A p.val) != s.rd (R.PORT_FPCFG_PATNOW .B p.val)
  | .level n => s.rd (R.LEG_PIN_PULSE .A n.val) != s.rd (R.LEG_PIN_PULSE .B n.val)
    || s.rd (R.LEG_PIN_EN .A n.val) != s.rd (R.LEG_PIN_EN .B n.val)
  | .auxOut k => !auxPasses s k.val
  | .ssiOut i => !ssiPasses s i.val
  | _ => false

/-- The items of which a lasting difference is a mismatch. -/
def watchedItems : List MismatchKind :=
  (List.range 8).map (fun p => .state (Fin.ofNat 8 p)) ++ (List.range 32).map (fun n => .level (Fin.ofNat 32 n))
    ++ (List.range 4).map (fun k => .auxOut (Fin.ofNat 4 k)) ++ (List.range 4).map (fun i => .ssiOut (Fin.ofNat 4 i))

/-- One item: a difference that has lasted more than 64 ns is a mismatch, once. -/
def watchItem (s : State) (k : MismatchKind) : State :=
  let rest := s.arb.diffs.filter (fun d => d.item != k)
  if !(compared s k && differs s k) then { s with arb := { s.arb with diffs := rest } }
  else
    match s.arb.diffs.find? (fun d => d.item == k) with
    | none => { s with arb := { s.arb with diffs := rest ++ [⟨k, s.time.vt, false⟩] } }
    | some d =>
      if d.found || s.time.vt ≤ d.since + 64 then s
      else compareMismatch { s with arb := { s.arb with diffs := rest ++ [{ d with found := true }] } } k

/-- The comparator watches the vats' port states and levels as time passes. (DEDUCED: notes/assumptions/29.md.) -/
def watchVats (s : State) : State :=
  if s.variant.dual && s.vatLive .A && s.vatLive .B then watchedItems.foldl watchItem s
  else { s with arb := { s.arb with diffs := [], reloads := [], excused := [], doubts := [] } }

/-! ## The cycle's consequences -/

/-- A SYS reset that waits for STO (R367, R377) is issued once STO is in force. -/
def dueSysReset (s : State) : State :=
  match s.rst.sysAfterSto with
  | some c => if s.dev.operating then s else sysReset s c
  | none => s

/-- What follows a command in the same cycle: level orders on the ports (R20), the end of SS1 (R271, R273), DEG_CAUSE and
the device state (R7, R263), a SYS reset that waited for STO, and the order of the cycle's records (R420). (DEDUCED: notes/assumptions/10.md.) -/
def settle (s : State) : State :=
  State.endLog (if s.dev = .off then s else dueSysReset (refreshDev (refreshDeg (ss1End (ordersOnPorts s)))))

end Sys2Proof.Machine
end

