-- ==== Sys2Proof/Machine/Sense.lean ====
section
/-! DEFINITION. The sense path of one vat (03_sense_path.md): filters and samples (R55, R57), validity and settling (R61,
R65-R69), synchronising resets (R59, R60, R63), group clocks (R68) and slice rotation (R70-R73). -/

namespace Sys2Proof.Machine

open Sys2Proof

/-- The sense path's unit number in the source codes (R414). -/
abbrev uSENSE : Nat := 0x09

def getChan (s : State) (v : Vat) (n : Nat) : ChanSt := nth (s.vat v).chans n {}

def modChan (s : State) (v : Vat) (n : Nat) (f : ChanSt → ChanSt) : State :=
  s.modVat v (fun x => { x with chans := modNth x.chans n f })

def getGrp (s : State) (v : Vat) (g : Nat) : GrpSt := nth (s.vat v).groups g {}

def modGrp (s : State) (v : Vat) (g : Nat) (f : GrpSt → GrpSt) : State :=
  s.modVat v (fun x => { x with groups := modNth x.groups g f })

/-! ## Filters and samples -/

/-- The oversampling ratio of a channel (R55). -/
def chanOsr (s : State) (v : Vat) (n : Nat) : Nat :=
  match s.rd (R.SLICE_CFG_PRESET v n) with
  | 1 => 25
  | 2 => 50
  | 3 => 100
  | 4 => 200
  | 5 => s.rd (R.SLICE_CFG_OSR_C v n)
  | _ => 0

/-- The settling count of a channel (R55). -/
def settleCount (s : State) (v : Vat) (n : Nat) : Nat := if s.rd (R.SLICE_CFG_PRESET v n) = 4 then 10 else 3

/-- The three integrators take one bit, modulo 2^32. -/
def cicBit (c : ChanSt) (b : Bool) : ChanSt :=
  let i1 := (c.i1 + boolNat b) % 2 ^ 32
  let i2 := (c.i2 + i1) % 2 ^ 32
  { c with i1, i2, i3 := (c.i3 + i2) % 2 ^ 32 }

/-- The three combs at the decimated rate: the sinc3 sum of the window, 0 to OSR^3. -/
def cicOut (c : ChanSt) : ChanSt × Nat :=
  let a := (c.i3 + 2 ^ 32 - c.d1) % 2 ^ 32
  let b := (a + 2 ^ 32 - c.d2) % 2 ^ 32
  let y := (b + 2 ^ 32 - c.d3) % 2 ^ 32
  ({ c with d1 := c.i3, d2 := a, d3 := b, fir := (y :: c.fir).take 7 }, y)

/-- One output period of a slice: `osr` bits through the sinc3 filter. -/
def cicPeriod (c : ChanSt) (bits : BitVec 256) (osr : Nat) (inv : Bool) : ChanSt × Nat :=
  cicOut ((List.range osr).foldl (fun c i => cicBit c (bits.getLsbD i != inv)) c)

/-- The Aged preset's symmetric FIR over the last seven sums, each as twice its distance from half scale; the coefficients are
not stated (notes/assumptions/1.md), in units of 1 / firUnit. -/
def firSum (full : Nat) (xs : List Nat) : Int :=
  ((List.range 7).map (fun k => Config.firTap (if k ≤ 3 then k else 6 - k) * (2 * ((nth xs k 0 : Nat) : Int) - (full : Int)))).foldl (· + ·) 0

/-- The raw value of an output as a fraction: numerator and denominator; a ones density of 0 is -1, of 1 is +1 (R57). -/
def rawValue (aged : Bool) (osr : Nat) (c : ChanSt) (sum : Nat) : Int × Nat :=
  let full := osr ^ 3
  if aged then (firSum full c.fir, full * (Config.firUnit + 1)) else (2 * (sum : Int) - full, full)

/-- The trimmed sample in Q23 and whether it saturated (R57). -/
def trimmed (num : Int) (den : Nat) (gain offs : Int) : Int × Bool :=
  let x := roundUpDiv (num * 8 * (2 ^ 20 + gain)) den + offs * 256
  let y := clampInt (-(2 ^ 23)) (2 ^ 23 - 1) x
  (y, y != x)

/-- The Q15 view of a Q23 sample (R57). -/
def q15View (x : Int) : Int := sat15 ((x + 128) / 256)

/-- The latest sample of a channel in Q15. -/
def chanQ15 (s : State) (v : Vat) (n : Nat) : Int := q15View (s.signedRd (R.SLICE_DATA_SAMPLE v n))

def chanValid (s : State) (v : Vat) (n : Nat) : Bool := s.is (R.SLICE_DATA_VALID v n)

/-- VALID follows the four causes and PRESET (SLICEn_DATA). -/
def refreshValid (s : State) (v : Vat) (n : Nat) : State :=
  s.wr (R.SLICE_DATA_VALID v n)
    (boolNat (s.is (R.SLICE_CFG_PRESET v n) && !s.is (R.SLICE_DATA_SUPP v n) && !s.is (R.SLICE_DATA_STALE v n)
      && !s.is (R.SLICE_DATA_FROZEN v n) && !s.is (R.SLICE_DATA_CLKLOSS v n)))

/-- A channel begins its settling count (R61, R66). -/
def beginSettle (s : State) (v : Vat) (n : Nat) : State :=
  refreshValid ((s.wr (R.SLICE_STAT_SETTLE_LEFT v n) (settleCount s v n)).set1 (R.SLICE_DATA_SUPP v n)) v n

/-- A synchronising reset takes effect on a channel (R60, R61, R67). -/
def restartChan (s : State) (v : Vat) (n : Nat) : State :=
  if !s.is (R.SLICE_CFG_PRESET v n) then s else
    let s := modChan s v n (fun c => { c with
      i1 := 0, i2 := 0, i3 := 0, d1 := 0, d2 := 0, d3 := 0, fir := [], fzRef := none, fzCnt := 0, copyMon := false, winBad := true })
    let s := ((s.clr (R.SLICE_DATA_FROZEN v n)).clr (R.SLICE_DATA_CLKLOSS v n)).wr (R.SLICE_SEQ_SEQ v n) 0
    beginSettle s v n

/-! ## Synchronising resets (R59, R60, R63) -/

/-- The step of a group is abandoned without fault (R63). -/
def abandonRotation (s : State) (v : Vat) (g : Nat) : State :=
  match (getGrp s v g).rot with
  | .idle => s
  | .shadowing f _ _ | .testing f _ =>
    modGrp (s.wr (R.SLICE_PHYS_MODE v f) 0) v g (fun x => { x with rot := .idle })

/-- An automatic request for every channel of a group (R59). -/
def requestAuto (s : State) (v : Vat) (g : Nat) : State :=
  modGrp (abandonRotation s v g) v g (fun x => { x with autoPend := 0xFF })

/-- A request through SGRPg_SYNC (R63). -/
def requestSync (s : State) (v : Vat) (g mask : Nat) : State :=
  let m := if s.is (R.SGRP_SYNC_GO v g) then orBits (s.rd (R.SGRP_SYNC_MASK v g)) mask else mask
  (s.wr (R.SGRP_SYNC_MASK v g) m).set1 (R.SGRP_SYNC_GO v g)

/-- A request of a group is pending: GO, whatever its mask, or an automatic one. -/
def syncPending (s : State) (v : Vat) (g : Nat) : Bool := s.is (R.SGRP_SYNC_GO v g) || (getGrp s v g).autoPend != 0

/-- The channels a pending request of a group covers. -/
def pendingSync (s : State) (v : Vat) (g : Nat) : Nat :=
  orBits (if s.is (R.SGRP_SYNC_GO v g) then s.rd (R.SGRP_SYNC_MASK v g) else 0) (getGrp s v g).autoPend

/-- The pending synchronising reset of a group takes effect: all its channels start together, and GO clears. An automatic one
has abandoned a rotation step; under a requested one the step goes on. (DESIGN CHOICE: notes/assumptions/50.md.) -/
def takeSync (s : State) (v : Vat) (g : Nat) : State :=
  let m := pendingSync s v g
  let s := forN 8 s (fun s i => if bitOf m i then restartChan s v (8 * g + i) else s)
  modGrp (s.clr (R.SGRP_SYNC_GO v g)) v g (fun x => { x with autoPend := 0 })

/-- The group's synchronising resets wait for a tick of ALIGN_PORT (R60). -/
def alignedGroup (s : State) (v : Vat) (g : Nat) : Bool := s.is (R.SGRP_CLK_ALIGN_EN v g) && !s.is (R.SGRP_CLK_SRC v g)

/-- The group's request can take effect in this vat: it is pending, and the group's clock is good (R68). -/
def syncDue (s : State) (v : Vat) (g : Nat) : Bool := s.vatLive v && syncPending s v g && !s.is (R.SGRP_STAT_CLKLOSS v g)

/-- R60: the phase of the MCLK divider is set, so that the tick falls on a sampling edge, or midway between two where
1.5 × (OSR − 1) is no integer for a channel of the request: a sampling edge, in half cycles of PT. -/
def setMclkPhase (s : State) (v : Vat) (g : Nat) : State :=
  let m := pendingSync s v g
  let mid := (List.range 8).any (fun i => bitOf m i && chanOsr s v (8 * g + i) % 2 == 0 && s.is (R.SLICE_CFG_PRESET v (8 * g + i)))
  modGrp s v g (fun x => { x with edgeAt := some (2 * s.pt + if mid then s.rd (R.SGRP_CLK_DIV v g) else 0) })

/-- Aligned groups whose ALIGN_PORT, or its primary, ticks take their pending resets, in both vats at this instant (R59, R60). -/
def syncAtTick (s : State) (p : Nat) : State :=
  forN 8 s (fun s g => forVats s (fun s v =>
    if alignedGroup s v g && primaryOf s v (s.rd (R.SGRP_CLK_ALIGN_PORT v g)) == p && syncDue s v g
    then takeSync (setMclkPhase s v g) v g else s))

/-! ## Group clocks (R68) -/

/-- A channel of a group without clock: CLKLOSS with its flag and event (R68, R69); a channel that is off shows nothing (R54). -/
def loseChan (s : State) (v : Vat) (n : Nat) : State :=
  if !s.is (R.SLICE_CFG_PRESET v n) then s else
    let s := if s.is (R.SLICE_DATA_CLKLOSS v n) then s else
      (s.set1 (R.SLICE_DATA_CLKLOSS v n)).vatFlagEdge v uSENSE (R.SLICE_STAT_CLKLOSS_F v n)
    modChan (refreshValid s v n) v n (fun c => { c with winBad := true })

def groupLoss (s : State) (v : Vat) (g : Nat) : State :=
  if !s.vatLive v || s.is (R.SGRP_STAT_CLKLOSS v g) then s else
    let s := (s.set1 (R.SGRP_STAT_CLKLOSS v g)).vatFlag v uSENSE (R.SGRP_STAT_CLKLOSS_F v g)
    forN 8 s (fun s i => loseChan s v (8 * g + i))

def groupReturn (s : State) (v : Vat) (g : Nat) : State :=
  if !s.vatLive v || !s.is (R.SGRP_STAT_CLKLOSS v g) then s else
    requestAuto (s.clr (R.SGRP_STAT_CLKLOSS v g)) v g

/-- The command: both vats sense by the same clock pin. -/
def execGroupClockLoss (g : Fin 8) (s : State) : Host.Outcome State Fault Refusal :=
  .next (settle (forVats s (fun s v => groupLoss s v g.val)))

def execGroupClockReturn (g : Fin 8) (s : State) : Host.Outcome State Fault Refusal :=
  .next (settle (forVats s (fun s v => groupReturn s v g.val)))

def execSgrpSyncGo (v : Vat) (g : Fin 8) (mask : BitVec 8) (s : State) : Host.Outcome State Fault Refusal :=
  .next (settle (if s.vatLive v then requestSync s v g.val mask.toNat else s))

/-- A reset of the group, which is not aligned, may take effect in the vat now; an aligned group takes its reset at the tick. -/
def syncMay (s : State) (v : Vat) (g : Nat) : Bool := !alignedGroup s v g && syncDue s v g

/-- The modulator edge at which the reset that vat `v` waits for takes effect: in both vats that wait, at one instant (R59, R60). -/
def syncEffect (s : State) (v : Vat) (g : Nat) : State :=
  if syncMay s v g then forVats s (fun s v => if syncMay s v g then takeSync s v g else s) else s

def execSyncResetEffect (v : Vat) (g : Fin 8) (s : State) : Host.Outcome State Fault Refusal := .next (settle (syncEffect s v g.val))

/-! ## Monitors (R65-R67) -/

/-- FROZEN sets where the count has been reached and the move qualifier is true (R67). -/
def tryFreeze (s : State) (v : Vat) (n : Nat) : State :=
  let c := getChan s v n
  if s.is (R.SLICE_MON_FZ_EN v n) && s.rd (R.SLICE_MON_FZ_COUNT v n) * 16 ≤ c.fzCnt && c.fzRef.isSome && c.qual
      && !s.is (R.SLICE_DATA_FROZEN v n) && !s.is (R.SLICE_DATA_CLKLOSS v n) then
    modChan (refreshValid ((s.set1 (R.SLICE_DATA_FROZEN v n)).vatFlagEdge v uSENSE (R.SLICE_STAT_FROZEN_F v n)) v n) v n
      (fun c => { c with winBad := true })
  else s

/-- The freeze monitor takes a sample that is neither suppressed, stale nor without clock (R67, R69). The first sample of a run
counts. (DESIGN CHOICE: notes/assumptions/50.md.) -/
def freezeSample (s : State) (v : Vat) (n : Nat) (q : Int) : State :=
  if !s.is (R.SLICE_MON_FZ_EN v n) then s else
    let c := getChan s v n
    let band : Int := s.rd (R.SLICE_MON_FZ_BAND v n)
    let stay := match c.fzRef with
      | some r => decide (-band ≤ q - r ∧ q - r ≤ band)
      | none => false
    if stay then tryFreeze (modChan s v n (fun c => { c with fzCnt := min (c.fzCnt + 1) 4080 })) v n
    else modChan (refreshValid (s.clr (R.SLICE_DATA_FROZEN v n)) v n) v n (fun c => { c with fzRef := some q, fzCnt := 1 })

def execFrozenSet (v : Vat) (n : Fin 64) (s : State) : Host.Outcome State Fault Refusal :=
  .next (settle (if s.vatLive v && s.is (R.SLICE_CFG_PRESET v n.val) then tryFreeze s v n.val else s))

def goStale (s : State) (v : Vat) (n : Nat) : State :=
  if s.is (R.SLICE_CFG_PRESET v n) && s.is (R.SLICE_MON_FR_LIMIT v n) && !s.is (R.SLICE_DATA_CLKLOSS v n)
      && !s.is (R.SLICE_DATA_STALE v n) then
    modChan (refreshValid ((s.set1 (R.SLICE_DATA_STALE v n)).vatFlagEdge v uSENSE (R.SLICE_STAT_STALE_F v n)) v n) v n
      (fun c => { c with winBad := true })
  else s

def execFreshnessStale (v : Vat) (n : Fin 64) (s : State) : Host.Outcome State Fault Refusal :=
  .next (settle (if s.vatLive v then goStale s v n.val else s))

/-- DEDUCED: notes/assumptions/50.md. -/
def endStale (s : State) (v : Vat) (n : Nat) : State :=
  if s.is (R.SLICE_DATA_STALE v n) && !s.is (R.SLICE_DATA_CLKLOSS v n) then
    beginSettle (s.clr (R.SLICE_DATA_STALE v n)) v n else s

def execStaleClear (v : Vat) (n : Fin 64) (s : State) : Host.Outcome State Fault Refusal :=
  .next (settle (if s.vatLive v then endStale s v n.val else s))

/-! ## Slice rotation (R70-R73) -/

/-- The channel may be shadowed now (R70). -/
def rotatable (s : State) (v : Vat) (n : Nat) : Bool :=
  s.is (R.SLICE_CFG_PRESET v n) && !s.is (R.SLICE_DATA_SUPP v n) && !s.is (R.SLICE_DATA_STALE v n)
    && !s.is (R.SLICE_DATA_CLKLOSS v n)

/-- The next channel of a group after the last one rotated, as its number in the group. -/
def nextRotated (s : State) (v : Vat) (g : Nat) : Option Nat :=
  ((List.range 8).map (fun i => ((getGrp s v g).lastRot + 1 + i) % 8)).find? (fun i => rotatable s v (8 * g + i))

/-- Slice `f` shadows channel `c` of the group. -/
def shadow (s : State) (v : Vat) (g f c : Nat) (rep : Bool) : State :=
  let s := (s.wr (R.SLICE_PHYS_MODE v f) 2).wr (R.SLICE_PHYS_CHAN v f) (8 * g + c)
  modGrp s v g (fun x => { x with rot := .shadowing f c rep })

/-- A step of the group may begin in this vat. -/
def mayRotate (s : State) (v : Vat) (g : Nat) : Bool :=
  s.vatLive v && s.is (R.SGRP_ROT_ROT_EN v g) && !s.is (R.SGRP_ROT_ROT_STOP v g) && (getGrp s v g).rot == .idle
    && !s.is (R.SGRP_STAT_CLKLOSS v g)

/-- The vat whose flags choose the step's channel: the one that owns the pins, where a step may begin in it, else the other.
(DEDUCED: notes/assumptions/50.md.) -/
def rotationLead (s : State) (g : Nat) : Vat := if mayRotate s s.viewVat g then s.viewVat else s.viewVat.other

/-- A 20 ms boundary of PT at which a step may begin in vat `v`: it begins in both vats, on one choice of channel (R70). -/
def rotationStep (s : State) (v : Vat) (g : Nat) : State :=
  match if mayRotate s v g then nextRotated s (rotationLead s g) g else none with
  | none => s
  | some c => forVats s (fun s v => if mayRotate s v g then shadow s v g (s.rd (R.SGRP_ROT_FREE v g)) c false else s)

def execRotationStep (v : Vat) (g : Fin 8) (s : State) : Host.Outcome State Fault Refusal := .next (settle (rotationStep s v g.val))

/-- The slice of a group that serves no channel and is not RETIRED, if there is one. -/
def freeSlice (s : State) (v : Vat) (g : Nat) : Option Nat :=
  ((List.range 8).map (fun i => 8 * g + i) ++ [64 + g]).find? (fun f => s.rd (R.SLICE_PHYS_MODE v f) == 0 && !s.is (R.SLICE_PHYS_RETIRED v f))

/-- A slice retires: it was the group's last free one, so rotation stops and the device degrades (R73). -/
def retireSlice (s : State) (v : Vat) (g f : Nat) : State :=
  let s := ((s.set1 (R.SLICE_PHYS_RETIRED v f)).wr (R.SLICE_PHYS_MODE v f) 0).vatEvent v uSENSE 0x0702 f
  let s := modGrp (s.set1 (R.SGRP_ROT_ROT_STOP v g)) v g (fun x => { x with rot := .idle })
  degSet s 1

/-- Slice `f` takes channel `c` over from slice `o` (R70). -/
def handChannel (s : State) (v : Vat) (g f c : Nat) : State :=
  let n := 8 * g + c
  let s := ((s.wr (R.SLICE_PHYS_MODE v f) 1).wr (R.SLICE_PHYS_CHAN v f) n).wr (R.SLICE_STAT_SERVED_BY v n) f
  modGrp s v g (fun x => { x with lastRot := c })

/-- A slice's test window begins (R72). -/
def testSlice (s : State) (v : Vat) (g f : Nat) (again : Option Nat) : State :=
  let s := (s.wr (R.SLICE_PHYS_MODE v f) 3).wr (R.SGRP_ROT_FREE v g) f
  modGrp s v g (fun x => { x with rot := .testing f again })

/-- The 16 outputs are compared (R70, R71, R73). After a retirement the group has no free slice, and FREE keeps its last value.
(DESIGN CHOICE: notes/assumptions/50.md.) -/
def rotationCompare (s : State) (v : Vat) (g : Nat) (same : Bool) : State :=
  match (getGrp s v g).rot with
  | .shadowing f c rep =>
    let o := s.rd (R.SLICE_STAT_SERVED_BY v (8 * g + c))
    if same then testSlice (handChannel s v g f c) v g o none
    else
      let s := (s.set1 (R.SGRP_ROT_MISM_F v g)).vatEvent v uSENSE 0x0701 g
      if rep then retireSlice (handChannel s v g f c) v g o
      else testSlice (modGrp s v g (fun x => { x with lastRot := c })) v g f (some c)
  | _ => s

def execRotationCompare (v : Vat) (g : Fin 8) (same : Bool) (s : State) : Host.Outcome State Fault Refusal :=
  .next (settle (if s.vatLive v then rotationCompare s v g.val same else s))

/-- The end of a slice's test (R72, R73). Only a step whose test has passed counts in STEPS. (DESIGN CHOICE: notes/assumptions/50.md.) -/
def sliceTested (s : State) (v : Vat) (g : Nat) (ok : Bool) : State :=
  match (getGrp s v g).rot with
  | .testing f again =>
    if ok then
      let s := (s.incSat (R.SLICE_PHYS_TPASS v f)).clr (R.SLICE_PHYS_TFAIL v f)
      match again with
      | some c => shadow s v g f c true
      | none =>
        modGrp ((s.wr (R.SLICE_PHYS_MODE v f) 0).incWrap (R.SGRP_ROT_STEPS v g)) v g (fun x => { x with rot := .idle })
    else retireSlice (s.set1 (R.SLICE_PHYS_TFAIL v f)) v g f
  | _ => s

def execSliceTestComplete (v : Vat) (g : Fin 8) (ok : Bool) (s : State) : Host.Outcome State Fault Refusal :=
  .next (settle (if s.vatLive v then sliceTested s v g.val ok else s))

end Sys2Proof.Machine
end

