-- ==== Sys2Proof/Machine/AuxLink.lean ====
section
/-! DEFINITION. The auxiliary conversion sequencer (04_aux_conversion.md): frames (R80), regular and injected sequences
(R82-R85), the data register and the channel table (R86-R88). -/

namespace Sys2Proof.Machine

open Sys2Proof

abbrev uAUX : Nat := 0x0A

def getAux (s : State) (v : Vat) (k : Nat) : AuxSt := nth (s.vat v).aux k {}

def modAux (s : State) (v : Vat) (k : Nat) (f : AuxSt → AuxSt) : State :=
  s.modVat v (fun x => { x with aux := modNth x.aux k f })

/-- The sequencers run: in a live vat, and in a previous owner whose pulse generator runs on (R251). -/
def auxRuns (s : State) (v : Vat) (k : Nat) : Bool :=
  (s.vatLive v || (s.vat v).pulseHeld) && s.is (R.AUX_CFG_EN v k)

/-- Regular entry `r` (RSEQ0, RSEQ1). -/
def regEntry (s : State) (v : Vat) (k r : Nat) : Nat :=
  if r < 8 then getBits (s.regs.get (R.AUX_RSEQ0 v k)) (4 * r) 4 else getBits (s.regs.get (R.AUX_RSEQ1 v k)) (4 * (r - 8)) 4

/-- At a frame boundary the next frame begins: an injected entry first, else the regular entry due next (R82, R84). -/
def auxNext (s : State) (v : Vat) (k : Nat) : State :=
  let a := getAux s v k
  if a.cur.isSome || !auxRuns s v k then s else
    match a.inj with
    | some j => modAux s v k (fun a => { a with
        cur := some (getBits (BitVec.ofNat 32 (s.rd (R.AUX_INJ_ISEQ v k))) (4 * j) 4, true), inj := some (j + 1) })
    | none =>
      match a.reg with
      | some r => modAux s v k (fun a => { a with cur := some (regEntry s v k r, false), reg := some (r + 1) })
      | none => s

/-- The continuous regular sequence starts (end of LOADING, RMODE = 0). -/
def auxStart (s : State) (v : Vat) (k : Nat) : State :=
  if auxRuns s v k && !s.is (R.AUX_CFG_RMODE v k) && s.is (R.AUX_CFG_RLEN v k) then
    auxNext (modAux s v k (fun a => { a with reg := some 0 })) v k
  else s

/-- A regular pass starts at this instant. -/
def auxPass (s : State) (v : Vat) (k : Nat) : State :=
  let idle := (getAux s v k).cur.isNone
  auxNext (modAux s v k (fun a => { a with reg := some 0, passPt := if idle then some s.pt else none })) v k

/-- A tick of RPORT starts a pass, or finds one still running (R82, R85). -/
def auxTick (s : State) (v : Vat) (p : Nat) : State :=
  forN 4 s (fun s k =>
    if auxRuns s v k && s.is (R.AUX_CFG_RMODE v k) && s.rd (R.AUX_CFG_RPORT v k) == p && s.is (R.AUX_CFG_RLEN v k) then
      if (getAux s v k).reg.isSome then s.vatFlagEdge v uAUX (R.AUX_STAT_SEQ_LATE_F v k)
      else auxPass s v k
    else s)

/-- An injected sequence becomes pending; a pass that began in this very cycle waits for its end (R85). -/
def injStart (s : State) (v : Vat) (k : Nat) : State :=
  let undo := (getAux s v k).passPt == some s.pt
  auxNext (modAux s v k (fun a => { a with
    inj := some 0, trigPt := some s.pt, cur := if undo then none else a.cur, reg := if undo then some 0 else a.reg, passPt := none })) v k

/-- An injected trigger (R84, R85): triggers of one cycle start one sequence, a later one is lost while it is pending or runs.
Commands between which no cycle passes belong to one cycle. (DEDUCED: notes/assumptions/52.md.) -/
def injTrigger (s : State) (v : Vat) (k : Nat) : State :=
  if !auxRuns s v k || !s.is (R.AUX_INJ_ILEN v k) then s
  else if !(getAux s v k).inj.isSome then injStart s v k
  else if (getAux s v k).trigPt == some s.pt then s
  else s.vatFlagEdge v uAUX (R.AUX_STAT_INJ_LOST_F v k)

/-- The link's TRIG, IPORT and EVT select this event of port `p` (R83). -/
def injSelected (s : State) (v : Vat) (k : Nat) (e : TrigEvent) (p : Nat) : Bool :=
  s.rd (R.AUX_INJ_IPORT v k) == p &&
    (match e with
    | .tick => s.rd (R.AUX_INJ_TRIG v k) == 1
    | .valley => s.rd (R.AUX_INJ_TRIG v k) == 2 && !s.is (R.AUX_INJ_EVT v k)
    | .peak => s.rd (R.AUX_INJ_TRIG v k) == 2 && s.is (R.AUX_INJ_EVT v k))

/-- The triggers of a port's tick, valley or peak (R83). -/
def injEvent (s : State) (v : Vat) (e : TrigEvent) (p : Nat) : State :=
  forN 4 s (fun s k => if injSelected s v k e p then injTrigger s v k else s)

/-- The triggers of a registered trip (R83). -/
def injTrip (s : State) (v : Vat) (i : Nat) : State :=
  forN 4 s (fun s k =>
    if s.rd (R.AUX_INJ_TRIG v k) == 3 && s.rd (R.AUX_INJ_TRIPSEL v k) == i then injTrigger s v k else s)

def execInjectedTrigger (v : Vat) (e : PortEvent) (s : State) : Host.Outcome State Fault Refusal :=
  .next (settle (injEvent s v e.kind e.port.val))

/-- LINK_FAIL of a link changes: its table entries show it (R80, R88). -/
def setLinkFail (s : State) (v : Vat) (k : Nat) (b : Bool) : State :=
  let s := s.wr (R.AUX_STAT_LINK_FAIL v k) (boolNat b)
  forN 16 s (fun s c =>
    let s := s.wr (R.AX_LINKF v (16 * k + c)) (boolNat b)
    if b then s.clr (R.AX_VALID v (16 * k + c)) else s)

/-- A result enters AUXk_DATA, overwriting one not yet consumed (R86, R87). -/
def auxDeliver (s : State) (v : Vat) (k chan : Nat) (inj : Bool) (result : BitVec 16) : State :=
  let s := if s.is (R.AUX_DATA_FULL v k) then
      (s.wr (R.AUX_STAT_OVR_TAG v k) (s.rd (R.AUX_DATA_CHAN v k))).vatFlagEdge v uAUX (R.AUX_STAT_OVR_F v k)
    else s
  let s := (s.wr (R.AUX_DATA_RESULT v k) result.toNat).wr (R.AUX_DATA_CHAN v k) chan
  (s.wr (R.AUX_DATA_INJ v k) (boolNat inj)).set1 (R.AUX_DATA_FULL v k)

/-- A bad frame (R80). The event of LINK_FAIL has no code of its own; R418 lists no group for the aux links, and the model takes
group 0x08, event 0x00. (DESIGN CHOICE: notes/assumptions/7.md.) -/
def auxBad (s : State) (v : Vat) (k : Nat) : State :=
  let s := (s.vatFlag v uAUX (R.AUX_STAT_LINK_ERR_F v k)).incSat (R.AUX_STAT_ERRCNT v k)
  let run := (getAux s v k).badRun + 1
  let s := modAux s v k (fun a => { a with badRun := min run 3, goodRun := 0 })
  if run = 3 && !s.is (R.AUX_STAT_LINK_FAIL v k) then (setLinkFail s v k true).vatEvent v uAUX 0x0800 0 else s

/-- A good frame (R80). The 16th clears LINK_FAIL before its own result enters, which so makes its channel VALID again.
(DESIGN CHOICE: notes/assumptions/52.md.) -/
def auxGood (s : State) (v : Vat) (k chan : Nat) (inj : Bool) (result : BitVec 16) : State :=
  let run := min ((getAux s v k).goodRun + 1) 16
  let s := modAux s v k (fun a => { a with badRun := 0, goodRun := run })
  let s := if run = 16 && s.is (R.AUX_STAT_LINK_FAIL v k) then setLinkFail s v k false else s
  auxDeliver s v k chan inj result

/-- The sequences after a completed frame: an injected sequence or a pass that has run its last entry is over; a continuous
sequence goes round (R82, R84). -/
def auxAfter (s : State) (v : Vat) (k : Nat) (a : AuxSt) : AuxSt :=
  match a.cur with
  | some (_, true) =>
    { a with
      cur := none, skip := false, trigPt := none, passPt := none
      inj := a.inj.bind (fun j => if s.rd (R.AUX_INJ_ILEN v k) ≤ j then none else some j) }
  | _ =>
    { a with
      cur := none, skip := false, trigPt := none, passPt := none
      reg := a.reg.bind (fun r =>
        if r < s.rd (R.AUX_CFG_RLEN v k) then some r else if s.is (R.AUX_CFG_RMODE v k) then none else some 0) }

/-- A frame ends: its result, unless this vat joined within it (R81), and the next frame begins.
(DEDUCED: notes/assumptions/52.md.) -/
def auxFrame (s : State) (v : Vat) (k : Nat) (echo status : BitVec 4) (result : BitVec 16) : State :=
  match (getAux s v k).cur with
  | none => s
  | some (chan, inj) =>
    let s := if (getAux s v k).skip then s
      else if echo.toNat = chan && status = 0 then auxGood s v k chan inj result else auxBad s v k
    auxNext (modAux s v k (auxAfter s v k)) v k

def execAuxFrameComplete (v : Vat) (k : Fin 4) (echo status : BitVec 4) (result : BitVec 16) (s : State) :
    Host.Outcome State Fault Refusal :=
  .next (settle (if auxRuns s v k.val then auxFrame s v k.val echo status result else s))

/-- The consuming read of the aux transfer engine, the vat DMA (R86, R88): it does nothing while frozen (R87). -/
def auxRead (s : State) (v : Vat) (k : Nat) : State :=
  if s.is (R.AUX_DATA_FULL v k) && !s.rdBit (R.FW_FROZEN_FROZEN v) 9 then
    let c := s.rd (R.AUX_DATA_CHAN v k)
    let n := 16 * k + c
    let x := s.rd (R.AUX_DATA_RESULT v k)
    let s := modAux s v k (fun a => { a with got := setBit a.got c true })
    let x := if s.rdBit (R.AUX_CODING_CODING v k) c then (x + 2 ^ 15) % 2 ^ 16 else x
    let s := ((s.wr (R.AX_VALUE v n) x).incWrap (R.AX_UPD v n)).clr (R.AX_STALE v n)
    (s.wr (R.AX_VALID v n) (boolNat (!s.is (R.AUX_STAT_LINK_FAIL v k)))).clr (R.AUX_DATA_FULL v k)
  else s

def execAuxkDataRead (v : Vat) (k : Fin 4) (s : State) : Host.Outcome State Fault Refusal :=
  .next (settle (if s.vatLive v then auxRead s v k.val else s))

/-- An entry's age reaches AGE_LIMIT (R88): it has held a good result since the vat's last reset. -/
def auxAge (s : State) (v : Vat) (n : Nat) : State :=
  if s.is (R.AUX_CODING_AGE_LIMIT v (n / 16)) && bitOf (getAux s v (n / 16)).got (n % 16)
      && !s.is (R.AX_STALE v n) then
    (s.set1 (R.AX_STALE v n)).clr (R.AX_VALID v n)
  else s

def execAuxAgeLimit (v : Vat) (n : Fin 64) (s : State) : Host.Outcome State Fault Refusal :=
  .next (settle (if s.vatLive v then auxAge s v n.val else s))

end Sys2Proof.Machine
end

