-- ==== Sys2Proof/Machine/Position.lean ====
section
/-! DEFINITION. Position inputs (08_traction_and_dc.md R182-R186) and set-point pins (05_control_engines.md R112). Inputs
0-3 are encoders, 4-7 SSI channels. -/

namespace Sys2Proof.Machine

open Sys2Proof

/-- The unit number of the guards and position inputs (R414). -/
abbrev uGUARD : Nat := 0x0D

def getPos (s : State) (v : Vat) (i : Nat) : PosSt := nth (s.vat v).pos i {}

def modPos (s : State) (v : Vat) (i : Nat) (f : PosSt → PosSt) : State :=
  s.modVat v (fun x => { x with pos := modNth x.pos i f })

/-- PT as 32-bit time stamps show it. -/
def State.pt32 (s : State) : Nat := s.pt % 2 ^ 32

/-- The circular distance of two counts modulo `m`. -/
def circDist (m a b : Nat) : Nat :=
  let d := (a + m - b % m) % m
  min d (m - d)

/-! ## Encoders -/

/-- An encoder's VALID and STALE (R183): STALE marks an invalidity through errors. -/
def encInvalid (s : State) (v : Vat) (i : Nat) : State :=
  (s.clr (R.POS_STAT_VALID v i)).set1 (R.POS_STAT_STALE v i)

def encPhaseError (s : State) (v : Vat) (i : Nat) : State :=
  let s := (s.vatFlag v uGUARD (R.POS_STAT_PHERR_F v i)).incSat (R.POS_STAT_ERRCNT v i)
  let s := modPos s v i (fun x => { x with errSince := true, clean := 0, lost := true })
  encInvalid (s.clr (R.POS_STAT_REF v i)) v i

/-- An index (R182, R183): the first sets the reference, every later one has its distance checked. COUNT is set to ZPOS either
way. An index error clears a reference that is held; without one the index sets it. (DEDUCED: notes/assumptions/53.md.) -/
def encIndex (s : State) (v : Vat) (i : Nat) : State :=
  if s.rd (R.POS_CFG_ZMODE v i) != 1 then s else
    let z := s.rd (R.POS_ZPOS_ZPOS v i)
    let x := getPos s v i
    let bad := x.indexed && decide (s.rd (R.POS_COUNTS_ZTOL v i) < circDist (s.rd (R.POS_COUNTS_COUNTS v i)) x.cnt z)
    let held := s.is (R.POS_STAT_REF v i)
    let s := modPos s v i (fun x => { x with cnt := z, indexed := true })
    let s := if bad then (s.vatFlag v uGUARD (R.POS_STAT_IDXERR_F v i)).incSat (R.POS_STAT_ERRCNT v i) else s
    if bad && held then encInvalid (s.clr (R.POS_STAT_REF v i)) v i
    else
      let s := (s.set1 (R.POS_STAT_REF v i)).clr (R.POS_STAT_STALE v i)
      s.wr (R.POS_STAT_VALID v i) (boolNat (!s.is (R.POS_STAT_FROZEN v i)))

def encStep (s : State) (v : Vat) (i : Nat) (up : Bool) : State :=
  let m := s.rd (R.POS_COUNTS_COUNTS v i)
  modPos s v i (fun x => { x with cnt := (x.cnt + (if up then 1 else m - 1)) % m, tedge := s.pt32 })

def execEncoderEdge (v : Vat) (i : Fin 4) (e : EncEvent) (s : State) : Host.Outcome State Fault Refusal :=
  .next (settle (if !s.vatLive v || !s.is (R.POS_CFG_EN v i.val) then s else
    match e with
    | .up => encStep s v i.val true
    | .down => encStep s v i.val false
    | .phaseError => encPhaseError s v i.val
    | .index => encIndex s v i.val))

/-! ## Capture at a tick of PORT (R182-R186) -/

/-- The freeze monitor at a capture; `mq` is the move qualifier. -/
def posFreeze (s : State) (v : Vat) (i : Nat) (mq : Bool) : State :=
  if !s.is (R.POS_FZ_FZ_EN v i) then s else
    let x := getPos s v i
    let c := s.rd (R.POS_COUNT_COUNT v i)
    if x.lastCap = some c then
      let n := min (x.fzCnt + boolNat mq) 255
      let s := modPos s v i (fun x => { x with fzCnt := n })
      if s.rd (R.POS_FZ_FZ_COUNT v i) ≤ n then (s.set1 (R.POS_STAT_FROZEN v i)).clr (R.POS_STAT_VALID v i) else s
    else (modPos s v i (fun x => { x with fzCnt := 0 })).clr (R.POS_STAT_FROZEN v i)

/-- An encoder's VALID at a capture (R183). -/
def encValid (s : State) (v : Vat) (i : Nat) : Bool :=
  if s.rd (R.POS_CFG_ZMODE v i) = 1 then s.is (R.POS_STAT_REF v i) else !(getPos s v i).lost

def encCapture (s : State) (v : Vat) (i : Nat) : State :=
  modPos s v i (fun x =>
    let clean := if x.errSince then 0 else min (x.clean + 1) 16
    { x with clean, errSince := false, lost := x.lost && clean < 16 })

/-- An SSI frame starts at the tick, unless the previous one or its monoflop time still runs (R184). -/
def ssiStart (s : State) (v : Vat) (i : Nat) : State :=
  let x := getPos s v i
  if x.frame.isSome || s.pt < x.monoEnd then
    modPos (s.vatFlag v uGUARD (R.POS_STAT_SKIP_F v i)) v i (fun x => { x with skips := x.skips + 1 })
  else modPos s v i (fun x => { x with frame := some s.pt })

/-- An SSI input's VALID (R185): four consecutive good frames, and BADMAX not reached since. -/
def ssiValid (s : State) (v : Vat) (i : Nat) : Bool := !(getPos s v i).ssiLost && (getPos s v i).lastGood.isSome

def posCapture (s : State) (v : Vat) (i : Nat) (mq : Bool) : State :=
  if !s.is (R.POS_CFG_EN v i) then s else
    let s := if i < 4 then encCapture s v i else s
    let x := getPos s v i
    let s := (s.wr (R.POS_COUNT_COUNT v i) x.cnt).wr (R.POS_TEDGE_VAL v i) x.tedge
    let ok := if i < 4 then encValid s v i else ssiValid s v i
    let s := if ok then s.clr (R.POS_STAT_STALE v i) else s
    let s := posFreeze s v i mq
    let s := s.wr (R.POS_STAT_VALID v i) (boolNat (ok && !s.is (R.POS_STAT_FROZEN v i)))
    let s := modPos s v i (fun y => { y with lastCap := some x.cnt })
    if i < 4 then s else ssiStart s v i

/-! ## SSI frames -/

/-- Gray code to binary, `w` bits. -/
def grayToBin (w g : Nat) : Nat := (List.range w).foldl (fun b i => Nat.xor b (g / 2 ^ i)) 0

def onesOf (w n : Nat) : Nat := ((List.range w).filter (bitOf n)).length

/-- The position field of a received word (R184). -/
def ssiPosition (s : State) (v : Vat) (i w : Nat) : Nat :=
  let k := Nat.log2 (s.rd (R.POS_COUNTS_COUNTS v i))
  let g := w / 2 ^ (s.rd (R.POS_CFG_POSLSB_LO v i) + 8 * s.rd (R.POS_CFG_POSLSB_HI v i)) % 2 ^ k
  if s.is (R.POS_CFG_GRAY v i) then grayToBin k g else g

/-- The position jumps by more than JUMP from the last good one. -/
def ssiJump (s : State) (v : Vat) (i pos : Nat) : Bool :=
  match (getPos s v i).lastGood with
  | some g => s.is (R.POS_ZPOS_JUMP v i)
      && s.rd (R.POS_ZPOS_JUMP v i) < circDist (s.rd (R.POS_COUNTS_COUNTS v i)) pos g
  | none => false

def ssiBad (s : State) (v : Vat) (i : Nat) : State :=
  let s := ((s.vatFlag v uGUARD (R.POS_STAT_PHERR_F v i)).incSat (R.POS_STAT_ERRCNT v i)).incSat (R.POS_STAT_BADRUN v i)
  let s := modPos s v i (fun x => { x with goodRun := 0 })
  if s.rd (R.POS_STAT_BADRUN v i) = s.rd (R.POS_CFG_BADMAX v i) then
    encInvalid (modPos s v i (fun x => { x with ssiLost := true })) v i
  else s

def ssiGood (s : State) (v : Vat) (i pos t : Nat) : State :=
  let n := min ((getPos s v i).goodRun + 1) 4
  modPos (s.wr (R.POS_STAT_BADRUN v i) 0) v i (fun x => { x with
    goodRun := n, cnt := pos, tedge := t % 2 ^ 32, lastGood := some pos, ssiLost := x.ssiLost && n < 4 })

def ssiFrame (s : State) (v : Vat) (i : Nat) (noresp : Bool) (word : Nat) : State :=
  match (getPos s v i).frame with
  | none => s
  | some t =>
    let par := s.is (R.POS_CFG_PAR v i)
    let len := s.rd (R.POS_CFG_NBITS1 v i) + 1 + boolNat par
    let w := word % 2 ^ len
    let pos := ssiPosition s v i w
    let jump := !noresp && ssiJump s v i pos
    let s := modPos s v i (fun x => { x with frame := none, monoEnd := s.pt + 500 * s.rd (R.POS_CFG_TMONO v i) })
    let s := if noresp then s.vatFlag v uGUARD (R.POS_STAT_NORESP_F v i) else s
    let s := if jump then s.vatFlag v uGUARD (R.POS_STAT_IDXERR_F v i) else s
    if noresp || jump || (par && onesOf len w % 2 == 1)
        || (s.is (R.POS_CFG_ERREN v i) && bitOf w (s.rd (R.POS_CFG_ERRBIT v i))) then ssiBad s v i
    else ssiGood s v i pos t

/-- A previous owner in reset only clocks: its frame ends and the monoflop time begins (R251). -/
def ssiClock (s : State) (v : Vat) (i : Nat) : State :=
  if (getPos s v i).frame.isNone then s
  else modPos s v i (fun x => { x with frame := none, monoEnd := s.pt + 500 * s.rd (R.POS_CFG_TMONO v i) })

/-- SSI clocking runs in a live vat, and in a previous owner until its reset takes effect (R251). -/
def execSsiFrameComplete (v : Vat) (i : Fin 4) (noresp : Bool) (word : BitVec 33) (s : State) :
    Host.Outcome State Fault Refusal :=
  .next (settle (
    if !s.is (R.POS_CFG_EN v (4 + i.val)) then s
    else if s.vatLive v then ssiFrame s v (4 + i.val) noresp word.toNat
    else if (s.vat v).pulseHeld then ssiClock s v (4 + i.val)
    else s))

/-! ## Set-point pins -/

/-- An edge on SETPi: a rising edge completes a measurement of the period and its high time, in PT (R112). -/
def setpEdge (x : SetpSt) (pt : Nat) (rising : Bool) : SetpSt :=
  if rising then
    { rise := some pt, fall := none,
      period := match x.rise with
        | some r => some (pt - r, match x.fall with | some f => f - r | none => 0)
        | none => x.period }
  else { x with fall := some pt }

def execSetpEdge (v : Vat) (i : Fin 8) (rising : Bool) (s : State) : Host.Outcome State Fault Refusal :=
  .next (settle (if s.vatLive v then
    s.modVat v (fun x => { x with setps := modNth x.setps i.val (fun y => setpEdge y s.pt rising) }) else s))

end Sys2Proof.Machine
end

