-- ==== Sys2Proof/Machine/Pulse.lean ====
section
/-! DEFINITION. The pulse generator of one vat (09_pulse_generation.md): thresholds (R209), edges and minimum pulses (R217),
bootstrap refresh (10_driver_link.md R232), blanking and trips (R220-R223), and the parts of a reload that need no graph
(R210, R214, R215). Lengths are in the 62.5 ps units of R203. -/

namespace Sys2Proof.Machine

open Sys2Proof

abbrev uPULSE : Nat := 0x0B
abbrev uDRIVER : Nat := 0x0C

/-- The pulse generator runs: in a live vat, and in a previous owner until HANDOVER clears (R251). -/
def pulseRuns (s : State) (v : Vat) : Bool := s.vatLive v || (s.vat v).pulseHeld

/-! ## Thresholds and intervals -/

/-- THF of a duty (R209). -/
def thfOf (mode1 : Bool) (per d : Nat) : Nat :=
  (roundUpDiv (32 * per * (if mode1 then d else 32767 - d) : Nat) 32767).toNat

/-- The high interval's length in a carrier period at a threshold. -/
def highUnits (mode1 : Bool) (per thf : Nat) : Nat := if mode1 then thf else 2 * (32 * per - thf)

def lowUnits (mode1 : Bool) (per thf : Nat) : Nat := carrierUnits mode1 per - highUnits mode1 per thf

/-! ## The carrier (R204, R205) -/

/-- The counter of a port's carrier: it rises from a valley to PERIOD, and in MODE 0 falls back. -/
def carrierCount (s : State) (v : Vat) (p : Nat) : Nat :=
  let per := s.rd (R.PORT_PERACT_PERACT v p)
  let n := sinceValley s v p / 32
  if portMode1 s v p then n % max per 1
  else let m := n % max (2 * per) 1; min m (2 * per - m)

/-- The carrier of port `p` starts at S, where it would stand had it started at a valley PHOFS × 2^-16 × Tc before, in whole
cycles; a linked secondary's is its primary's (R205). H of the port's legs begins (R232). -/
def startCarrier (s : State) (v : Vat) (p : Nat) : State :=
  if !s.is (R.PORT_CFG_TYPE v p) then s else
    let tc := carrierUnits (portMode1 s v p) (s.rd (R.PORT_PERACT_PERACT v p)) / 32
    let adv := roundUpDiv (s.rd (R.PORT_CARCFG_PHOFS v p) * tc : Nat) 65536
    (portLegs s v p).foldl (fun s n => modLeg s v n (fun x => { x with hFrom := s.pt }))
      (modPort s v p (fun q => { q with carPt := some (s.pt - adv) }))

/-- A carrier event of primary or unlinked port `p` now: a valley, or in MODE 0 the peak half a period after one. It sets the counter.
(DEDUCED: notes/assumptions/54.md.) -/
def carrierEvent (s : State) (v : Vat) (p : Nat) (valley : Bool) : State :=
  let s := if s.is R.OWN_STAT_HANDOVER then
      (portUnit s v p).foldl (fun s q => if q = p || isSecondary s v q then foldEvents s v q (!valley) else s) s
    else s
  modPort s v p (fun q => { q with
    carPt := some (if valley then s.pt else (s.pt : Int) - (s.rd (R.PORT_PERACT_PERACT v p) : Int)) })

/-- By how much a slot's compare carrier is behind slot 0's: a DCDC slot's by its share of the carrier period (R205). -/
def slotLag (s : State) (v : Vat) (p slot : Nat) : Nat :=
  let tc := carrierUnits (portMode1 s v p) (s.rd (R.PORT_PERACT_PERACT v p))
  let n := (portLegs s v p).length
  if s.rd (R.PORT_CFG_TYPE v p) = 3 && n != 0 then (roundUpDiv (slot * tc : Nat) n).toNat else 0

/-- PULSE's level in the middle of a period, where the port's carrier stands (R205, R209). -/
def levelAt (s : State) (v : Vat) (p slot thf d : Nat) : Bool :=
  if d = 0 then false else if d = 32767 then true else
    let m := portMode1 s v p
    let tc := carrierUnits m (s.rd (R.PORT_PERACT_PERACT v p))
    let x := (sinceValley s v p + (tc - slotLag s v p slot % (tc + 1))) % (if tc = 0 then 1 else tc)
    if m then x < thf else decide (thf < min x (tc - x))

/-- THF of every leg of a port follows the duty and the period in force (R210). -/
def refreshCmp (s : State) (v : Vat) (p : Nat) : State :=
  (portLegs s v p).foldl (fun s n =>
    s.wr (R.LEG_CMP_CMP v n) (thfOf (portMode1 s v p) (s.rd (R.PORT_PERACT_PERACT v p)) (s.rd (R.LEG_DUTY_DUTY v n)))) s

/-- TMIN of a leg, 0 for no filter (R217); TDT is 200, 300, 400 or 600 ns. -/
def tdtNs (code : Nat) : Nat := if code = 3 then 600 else 200 + 100 * code

def tminUnits (s : State) (v : Vat) (n : Nat) : Nat :=
  match s.rd (R.LEG_CFG_MPSET v n) with
  | 1 => 16 * (tdtNs (s.rd (R.LEG_CFG_TDT v n)) + 100)
  | 2 => 16 * (tdtNs (s.rd (R.LEG_CFG_TDT v n)) + 250)
  | _ => 0

/-! ## Bootstrap refresh (R232, R234) -/

/-- TBS_REF in units: 8 ns are 128 units. -/
def tbsRef (s : State) (v : Vat) (n : Nat) : Nat := 128 * s.rd (R.DLR_CFG_TBS_REF v n)

/-- The emitted length of a low interval of commanded length `w`. -/
def emittedLow (s : State) (v : Vat) (n w : Nat) : Nat :=
  let t := tminUnits s v n
  if w = 0 then 0 else if t ≤ w then w else if s.is (R.LEG_CFG_MPMODE v n) then t else 0

/-- The first low interval of at least TBS_REF has ended `ago` cycles before now: HUV is disregarded until 10 µs after (R234). -/
def chargeDone (s : State) (v : Vat) (n ago : Nat) : State :=
  if (getLeg s v n).charged then s else
    modLeg s v n (fun x => { x with charged := true, huvEnd := some (s.time.vt + 10000 - 2 * ago) })

/-- H of a leg at PT `t` (R232). -/
def LegSt.h (x : LegSt) (t : Nat) : Int := (t : Int) - x.hFrom

/-- An edge at PT `t` on a slot in BLKLEGS: the port's blanking window opens BLKDLY after it (R222). -/
def openBlanking (s : State) (v : Vat) (p n t : Nat) : State :=
  match legSlot s v p n with
  | some k =>
    if s.is (R.PORT_BLKCFG_BLKLEN v p) && s.rdBit (R.PORT_BLKCFG_BLKLEGS v p) k then
      let d := s.rd (R.PORT_BLKCFG_BLKDLY v p)
      if d = 0 then s.set1 (R.PORT_PWMSTAT_BLK v p)
      else modPort s v p (fun q => { q with blkPend := q.blkPend ++ [t + 4 * d] })
    else s
  | none => s

/-- The windows whose BLKDLY has passed open; those that overlap are one (R222). -/
def openWindows (s : State) (v : Vat) (p : Nat) : State :=
  if (getPort s v p).blkPend.any (fun t => decide (t ≤ s.pt)) then
    modPort (s.set1 (R.PORT_PWMSTAT_BLK v p)) v p (fun q => { q with blkPend := q.blkPend.filter (fun t => decide (s.pt < t)) })
  else s

/-- A low interval of at least TBS_REF ends at PT `t`: H begins again (R232), and the bootstrap has charged (R234). -/
def endLow (s : State) (v : Vat) (n t : Nat) : State :=
  if s.is (R.DLR_CFG_CLASS v n) && tbsRef s v n ≤ 32 * (t - (getLeg s v n).edgePt) then
    chargeDone (modLeg s v n (fun x => { x with hFrom := t })) v n (s.pt - t)
  else s

/-- An edge of the generator at PT `t`: the pin changes, an interval begins, and blanking opens. -/
def emitEdge (s : State) (v : Vat) (p n : Nat) (high : Bool) (t : Nat) : State :=
  let s := if high then endLow s v n t else s
  let s := modLeg (s.wr (R.LEG_PIN_PULSE v n) (boolNat high)) v n (fun x => { x with edgePt := t, due := none })
  openBlanking s v p n t

/-- A refresh begins at PT `t` and lasts `len` cycles: PULSE goes low, merged with an emitted low interval (R232). What waits on the leg
gives the level after it. -/
def insertRefresh (s : State) (v : Vat) (p n t len : Nat) : State :=
  let pin := s.is (R.LEG_PIN_PULSE v n)
  let up := pin == (getLeg s v n).due.isNone
  let s := s.incSat (R.DLR_CNT_REFRESH v n)
  let s := if pin then emitEdge s v p n false t else s
  modLeg s v n (fun x => { x with refEnd := some (t + len), under := up })

/-- A refresh that has run out: H begins again, HUV is watched for 10 µs, and PULSE takes the level of the set's edges, but not before a
stretched low interval that it was merged with has ended. -/
def endRefresh (s : State) (v : Vat) (p n : Nat) : State :=
  match (getLeg s v n).refEnd with
  | none => s
  | some t =>
    if s.pt < t then s else
      let up := (getLeg s v n).under
      let s := endLow s v n t
      let s := modLeg s v n (fun x => { x with hFrom := t, refEnd := none, refreshVt := some (s.time.vt - 2 * (s.pt - t)) })
      if up && (getLeg s v n).due.all (fun d => decide (d ≤ t)) then emitEdge s v p n true t else s

/-- The legs of a BS class in RUN that follow their set: those R232 refreshes. -/
def refreshes (s : State) (v : Vat) (p n : Nat) : Bool :=
  s.is (R.DLR_CFG_CLASS v n) && portState s v p == RUN && (getPort s v p).followSet

/-- The low interval that the set in force emits containing the valley `left` units from now is at least TBS_REF long. Its part before
the valley is by threshold and period until the valley, and no longer than the pins have followed the set. In MODE 0 it is centred on
the valley of the leg's own carrier, `late` after the port's or before it; in MODE 1 it ends there, unless the leg is held low.
(DEDUCED: notes/assumptions/54.md.) -/
def lowAtValley (s : State) (v : Vat) (p n perOld cmpOld left : Nat) : Bool :=
  let m := portMode1 s v p
  let per := s.rd (R.PORT_PERACT_PERACT v p)
  let since := 32 * (s.pt - (getPort s v p).followPt) + left
  let thf := s.rd (R.LEG_CMP_CMP v n)
  let old : Int := lowUnits m perOld cmpOld
  let next : Int := lowUnits m per thf
  let covers (late : Int) : Bool :=
    let before := (if m then old else old / 2) - late
    let after := late + (if !m then next / 2 else if thf = 0 then next else 0)
    decide (0 ≤ before ∧ 0 ≤ after ∧ (m → late ≤ next)) && decide (tbsRef s v n ≤ emittedLow s v n ((min before since + after).toNat))
  let lag : Int := slotLag s v p ((legSlot s v p n).getD 0)
  covers lag || (!m && covers (lag - carrierUnits m per))

/-- With no refresh at the valley `left` units from now, H would pass TBS_MAX before the next. -/
def refreshDue (s : State) (v : Vat) (p n left : Nat) : Bool :=
  decide ((16000 * s.rd (R.DLR_CFG_TBS_MAX v n) : Nat)
    < 32 * (getLeg s v n).h s.pt + left + (carrierUnits (portMode1 s v p) (s.rd (R.PORT_PERACT_PERACT v p)) : Int))

/-- In MODE 0 a refresh begins TBS_REF/2 before its valley (R232). -/
def refreshAhead (s : State) (v : Vat) (p n : Nat) : State :=
  let per := s.rd (R.PORT_PERACT_PERACT v p)
  let tc := carrierUnits false per
  let left := tc - sinceValley s v p % max tc 1
  let half := tbsRef s v n / 2
  if !refreshes s v p n || portMode1 s v p || (getLeg s v n).ahead || (getLeg s v n).refEnd.isSome || half < left
      || lowAtValley s v p n per (s.rd (R.LEG_CMP_CMP v n)) left || !refreshDue s v p n left then s
  else
    let s := insertRefresh s v p n (s.pt - (half - left) / 32) (tbsRef s v n / 32)
    modLeg s v n (fun x => { x with ahead := true })

/-- The valley of a BS leg's port (R232): a refresh that began before it, a qualifying low interval, an inserted refresh, or none. `perOld` and
`cmpOld` are PERIOD and THF until this valley. -/
def bootstrapValley (s : State) (v : Vat) (p n perOld cmpOld : Nat) : State :=
  if !refreshes s v p n then s
  else if (getLeg s v n).ahead then modLeg s v n (fun x => { x with ahead := false })
  else if lowAtValley s v p n perOld cmpOld 0 || !refreshDue s v p n 0 then s
  else insertRefresh s v p n s.pt (tbsRef s v n / (if portMode1 s v p then 32 else 64))

/-- A valley of a port's carrier: the period of the set in force applies (R210). -/
def takePeriod (s : State) (v : Vat) (p : Nat) : State :=
  (portUnit s v p).foldl (fun s q => if q = p || isSecondary s v q then
      refreshCmp (s.wr (R.PORT_PERACT_PERACT v q) (getPort s v p).perSet) v q else s) s

/-- The bootstraps of a port at its valley; `old` gives a leg's threshold until now. -/
def refreshLegs (s : State) (v : Vat) (p perOld : Nat) (old : Nat → Nat) : State :=
  (portLegs s v p).foldl (fun s n => bootstrapValley s v p n perOld (old n)) s

/-- A valley that is no reload. -/
def portValley (s : State) (v : Vat) (p : Nat) : State :=
  let per := s.rd (R.PORT_PERACT_PERACT v p)
  refreshLegs (takePeriod (carrierEvent s v p true) v p) v p per (fun n => s.rd (R.LEG_CMP_CMP v n))

/-! ## Placed edges (R217) -/

/-- TMIN has not yet passed since the leading edge of the interval being emitted. -/
def tooSoon (s : State) (v : Vat) (n : Nat) : Bool :=
  decide (32 * (s.pt - (getLeg s v n).edgePt) < tminUnits s v n)

/-- The trailing edge of an emitted interval comes now, or at leading edge + TMIN. -/
def trailEdge (s : State) (v : Vat) (p n : Nat) (rise : Bool) : State :=
  if tooSoon s v n then modLeg s v n (fun x => { x with due := some (x.edgePt + tminUnits s v n / 32) })
  else emitEdge s v p n rise s.pt

/-- The commanded length of the interval that an edge opens. -/
def opensUnits (s : State) (v : Vat) (p n : Nat) (rise : Bool) : Nat :=
  let m := portMode1 s v p
  let per := s.rd (R.PORT_PERACT_PERACT v p)
  let thf := s.rd (R.LEG_CMP_CMP v n)
  if rise then highUnits m per thf else lowUnits m per thf

/-- An edge as the set in force places it: the level that the pin takes at the edge, or under a refresh after it. -/
def applyEdge (s : State) (v : Vat) (p n : Nat) (rise : Bool) : State :=
  if (getLeg s v n).refEnd.isSome then modLeg s v n (fun x => { x with under := rise, due := none }) else trailEdge s v p n rise

/-- An edge in the middle of the duty's range: the interval it opens is judged by the minimum-pulse filter. -/
def filterEdge (s : State) (v : Vat) (p n : Nat) (rise : Bool) : State :=
  if tminUnits s v n ≤ opensUnits s v p n rise then applyEdge s v p n rise
  else if s.is (R.LEG_CFG_MPMODE v n) then applyEdge (s.incSat (R.LEG_MINP_STRETCHES v n)) v p n rise
  else s.incSat (R.LEG_MINP_DROPS v n)

/-- The level that the set's edges have given a leg. -/
def setLevel (s : State) (v : Vat) (n : Nat) : Bool :=
  if (getLeg s v n).refEnd.isSome then (getLeg s v n).under else s.is (R.LEG_PIN_PULSE v n)

/-- The generator places an edge on a leg (R217): it opens an interval by the filter, and ends the one being emitted no sooner than
TMIN after its leading edge. (DEDUCED: notes/assumptions/54.md.) -/
def placeEdge (s : State) (v : Vat) (p n : Nat) (rise : Bool) : State :=
  let d := s.rd (R.LEG_DUTY_DUTY v n)
  if portState s v p != RUN || !(getPort s v p).followSet || setLevel s v n == rise then s
  else if (d = 0 && rise) || (d = 32767 && !rise) then s
  else if d = 0 || d = 32767 then applyEdge s v p n rise
  else filterEdge s v p n rise

/-- What waits for a time on a leg in RUN: the trailing edge of an interval of TMIN, the end of a refresh, and the beginning of one in
MODE 0. -/
def legTime (s : State) (v : Vat) (p n : Nat) : State :=
  let s := endRefresh s v p n
  let s := match (getLeg s v n).due, (getLeg s v n).refEnd with
    | some t, none => if t ≤ s.pt then emitEdge s v p n (!s.is (R.LEG_PIN_PULSE v n)) t else s
    | _, _ => s
  refreshAhead s v p n

/-- The time-driven edges of a port (R217, R232). -/
def portTime (s : State) (v : Vat) (p : Nat) : State :=
  if portState s v p == RUN && (getPort s v p).followSet then (portLegs s v p).foldl (fun s n => legTime s v p n) s else s

/-- The first leg of a port, which carries a command about the port's carrier. -/
def headLeg (s : State) (v : Vat) (p n : Nat) : Bool := (portLegs s v p).head? == some n

/-- An edge of a leg, or a valley: of a secondary's carrier at its leg, or of a primary's where it is no reload. A valley may start an
injected sequence (R83). -/
def generatorEdge (s : State) (v : Vat) (p n : Nat) : GenEdge → State
  | .rise => placeEdge s v p n true
  | .fall => placeEdge s v p n false
  | .valley =>
    if isSecondary s v p then
      let s := bootstrapValley s v p n (s.rd (R.PORT_PERACT_PERACT v p)) (s.rd (R.LEG_CMP_CMP v n))
      if headLeg s v p n then injEvent s v .valley p else s
    else if s.rd (R.PORT_CARCFG_RELSEL v p) = 2 && headLeg s v p n then injEvent (portValley s v p) v .valley p
    else s

def execGeneratorEdge (v : Vat) (leg : Fin 32) (e : GenEdge) (s : State) : Host.Outcome State Fault Refusal :=
  .next (settle (match legPort s v leg.val with
    | none => s
    | some p => if pulseRuns s v then passPending (generatorEdge s v p leg.val e) else s))

/-- A recalibration moves no edge and no state (R203). -/
def execDelayLineRecal (_v : Vat) (_leg : Fin 32) (s : State) : Host.Outcome State Fault Refusal :=
  .next (settle s)

/-! ## Reload (R210, R214, R215, R219) -/

/-- The ports that a reload of `p` decides over: `p` and its linked secondary. -/
def reloadPorts (s : State) (v : Vat) (p : Nat) : List Nat := portUnit s v p

/-- The tags of the shadows of `p` and its secondary. -/
def shadowTags (s : State) (v : Vat) (p : Nat) : List Nat :=
  ((reloadPorts s v p).flatMap (portLegs s v)).map (fun n => s.rd (R.LEG_SHTAG_VAL v n)) ++ [s.rd (R.PORT_PERTAG_VAL v p)]

/-- Every tag has one value. -/
def coherentTag (ts : List Nat) : Option Nat :=
  match ts with
  | [] => none
  | t :: l => if l.all (fun x => x == t) then some t else none

/-- The shadows become the set in force. -/
def takeSet (s : State) (v : Vat) (p k : Nat) : State :=
  let s := (reloadPorts s v p).foldl (fun s q =>
    let s := (portLegs s v q).foldl (fun s n => s.wr (R.LEG_DUTY_DUTY v n) (s.rd (R.LEG_SHD_SHD v n))) s
    modPort (s.wr (R.PORT_SETTAG_VAL v q) k) v q (fun x => { x with perSet := s.rd (R.PORT_PERSHD_PERSHD v p) })) s
  let s := modPort (s.wr (R.PORT_PWMSTAT_COHRUN v p) 0) v p (fun x => { x with setByGraph := x.shdByGraph })
  (reloadPorts s v p).foldl (fun s q => modPort s v q (fun x => { x with cohCause := false })) s

/-- A coherence error, and its escalation at the third in a row. -/
def coherenceError (s : State) (v : Vat) (p : Nat) : State :=
  let s := (s.setBit1 (R.PWM_COHERR_COHERR_F v) p).incSat (R.PORT_PWMSTAT_COHERRS v p)
  let run := min (s.rd (R.PORT_PWMSTAT_COHRUN v p) + 1) 3
  let s := s.wr (R.PORT_PWMSTAT_COHRUN v p) run
  let s := s.vatEvent v uPULSE 0x0A03 (p + s.rd (R.PORT_SETTAG_VAL v p) % 65536 * 65536)
  if run < 3 then s else
    let s := modPort s v p (fun x => { x with cohCause := true })
    if portActive s v p then
      enterUnitPattern (s.vatFlagBit v uPULSE (R.PWM_COHERR_COHESC_F v) p) v p (fun _ => causeCOHERENCE)
    else s

/-- The decision at a sampling edge: no set while a burst is open, a coherent set, or an error. -/
def reloadDecision (s : State) (v : Vat) (p : Nat) : State :=
  if s.is (R.PORT_PWMSTAT_BURST v p) then s else
    match coherentTag (shadowTags s v p) with
    | some k => takeSet s v p k
    | none => coherenceError s v p

/-- At the first reload in RUN a leg takes EN and the level of the set in force. -/
def firstLevel (s : State) (v : Vat) (p n : Nat) : State :=
  let now := levelAt s v p ((legSlot s v p n).getD 0) (s.rd (R.LEG_CMP_CMP v n)) (s.rd (R.LEG_DUTY_DUTY v n))
  let s := modLeg (setPins s v n (s.is (R.LEG_PIN_PULSE v n)) true) v n (fun x => { x with edgePt := s.pt })
  if s.is (R.LEG_PIN_PULSE v n) == now then s else emitEdge s v p n now s.pt

/-- The level of a leg follows the set in force. At a later reload a duty at an extreme ends the other level's interval, once it has lasted
TMIN, and a set that wants the level the leg has takes back an edge that still waits (R217), but not the end of a low interval that a
refresh has been merged with. -/
def followLeg (s : State) (v : Vat) (p n : Nat) (first : Bool) : State :=
  let d := s.rd (R.LEG_DUTY_DUTY v n)
  let pin := setLevel s v n
  if first then firstLevel s v p n
  else if (d = 0 && pin) || (d = 32767 && !pin) then applyEdge s v p n (!pin)
  else if levelAt s v p ((legSlot s v p n).getD 0) (s.rd (R.LEG_CMP_CMP v n)) d == pin then
    modLeg s v n (fun x => { x with due := if x.refEnd.isSome && x.under then x.due else none })
  else s

/-- In RUN, EN and PULSE follow the set in force from this reload on (R219); a leg held at an extreme takes its level. -/
def followReload (s : State) (v : Vat) (p : Nat) : State :=
  if portState s v p != RUN then s else
    let first := !(getPort s v p).followSet
    let s := modPort s v p (fun x => { x with followSet := true, followPt := if first then s.pt else x.followPt })
    (portLegs s v p).foldl (fun s n => followLeg s v p n first) s

/-- A reload of a primary or unlinked port, after the burst's landed writes: the decision, the carrier event, the pins, and at a
valley the bootstraps. -/
def reloadPort (s : State) (v : Vat) (p : Nat) (valley : Bool) : State :=
  let per := s.rd (R.PORT_PERACT_PERACT v p)
  let old (n : Nat) : Nat := s.rd (R.LEG_CMP_CMP v n)
  let s := carrierEvent (reloadDecision s v p) v p valley
  let s := if valley then takePeriod s v p else (reloadPorts s v p).foldl (fun s q => refreshCmp s v q) s
  let s := (reloadPorts s v p).foldl (fun s q => followReload s v q) s
  if valley then refreshLegs s v p per old else s

/-! ## Trips and blanking (R220-R223) -/

/-- Latched soft trips of a port are resolved at one moment (R223): those released are discarded, one that is still asserted takes
the port's pattern. -/
def resolveTrips (s : State) (v : Vat) (p : Nat) (is : List Nat) : State :=
  let is := is.filter (fun i => s.rdBit (R.PORT_PWMSTAT_TRIPLAT v p) i)
  let up (i : Nat) : Bool := s.is (R.TRIP_STAT_LEVEL v i)
  let pattern := is.any up
  let s := is.foldl (fun s i =>
    let s := s.wrBit (R.PORT_PWMSTAT_TRIPLAT v p) i false
    if s.is (R.TRIP_STAT_LEVEL v i) then s
    else ((s.set1 (R.TRIP_STAT_BLKD_F v i)).incSat (R.TRIP_STAT_BLKD v i)).vatEvent v uPULSE 0x0A02 (i + p * 256)) s
  if pattern then enterFaultPattern s v p causeTRIP else s

def resolveTrip (s : State) (v : Vat) (p i : Nat) : State := resolveTrips s v p [i]

def execSoftTripResolution (v : Vat) (p i : Fin 8) (s : State) : Host.Outcome State Fault Refusal :=
  .next (settle (if pulseRuns s v then resolveTrip s v p.val i.val else s))

/-- The window closes, and what is latched in it is resolved. -/
def closeWindow (s : State) (v : Vat) (p : Nat) : State :=
  if !s.is (R.PORT_PWMSTAT_BLK v p) then s else
    resolveTrips (s.clr (R.PORT_PWMSTAT_BLK v p)) v p (List.range 8)

def execBlankingWindowClose (v : Vat) (p : Fin 8) (s : State) : Host.Outcome State Fault Refusal :=
  .next (settle (if pulseRuns s v then closeWindow s v p.val else s))

/-- A registered trip at one port of its mask (R221): a linked partner on which the trip acts too takes the same cause. -/
def tripAtPort (s : State) (v : Vat) (i p : Nat) : State :=
  if !portActive s v p then s
  else if tripActs s v i p then
    enterUnitPattern s v p (fun q => if s.rdBit (R.TRIP_CFG_PMASK v i) q && tripActs s v i q then causeTRIP else causePARTNER)
  else s.wrBit (R.PORT_PWMSTAT_TRIPLAT v p) i true

def registerTrip (s : State) (v : Vat) (i : Nat) : State :=
  if !s.is (R.TRIP_CFG_EN v i) || s.is (R.TRIP_STAT_LEVEL v i) then s else
    let s := ((s.set1 (R.TRIP_STAT_LEVEL v i)).set1 (R.TRIP_STAT_TRIP_F v i)).incSat (R.TRIP_COUNT_VAL v i)
    let s := injTrip (s.vatEvent v uPULSE 0x0A01 i) v i
    forN 8 s (fun s p => if s.rdBit (R.TRIP_CFG_PMASK v i) p then tripAtPort s v i p else s)

def execTripRegistration (v : Vat) (i : Fin 8) (s : State) : Host.Outcome State Fault Refusal :=
  .next (settle (if pulseRuns s v then registerTrip s v i.val else s))

def execTripLevelRelease (v : Vat) (i : Fin 8) (s : State) : Host.Outcome State Fault Refusal :=
  .next (settle (if pulseRuns s v then s.clr (R.TRIP_STAT_LEVEL v i.val) else s))

end Sys2Proof.Machine
end

