-- ==== Sys2Proof/Machine/DriverLink.lean ====
section
/-! DEFINITION. The driver links of one vat (10_driver_link.md): frames and their checks (R227-R231), breaks, link loss,
DRV_FAULT, DRV_LINK and DRV_MISMATCH (R235), and the end of an active short circuit (R237, R238). -/

namespace Sys2Proof.Machine

open Sys2Proof

/-- CRC-8, polynomial 0x07, over one byte, most significant bit first (R229). -/
def crc8Byte (crc b : Nat) : Nat :=
  (List.range 8).foldl (fun c _ => if bitOf c 7 then Nat.xor (c * 2 % 256) 7 else c * 2 % 256) (Nat.xor crc b)

/-- The CRC-8 of bytes in order. -/
def crc8 (bs : List Nat) : Nat := bs.foldl crc8Byte 0

/-- A frame is good: well formed, its CRC matches, and bit 15 is zero (R229). -/
def frameGood (frame : Nat) (formed : Bool) : Bool :=
  formed && crc8 [frame % 256, frame / 256 % 256] == frame / 65536 && !bitOf frame 15

/-- The driver causes of a leg: DRV_FAULT, DRV_LINK, DRV_MISMATCH present. -/
def legCauses (s : State) (v : Vat) (n : Nat) : Bool × Bool × Bool :=
  (drvFault s v n, drvLink s v n, (getDlr s v n).mismatch)

/-- The lowest code among causes that have just risen. -/
def risenCause (a b : Bool × Bool × Bool) : Option Nat :=
  if b.1 && !a.1 then some causeDRVFAULT
  else if b.2.1 && !a.2.1 then some causeDRVLINK
  else if b.2.2 && !a.2.2 then some causeDRVMISMATCH
  else none

/-- The arbiter's or monitor's short circuit at a port's unit becomes all-off. -/
def holdOff (s : State) (v : Vat) (p : Nat) : State :=
  { s with arb := { s.arb with hold := s.arb.hold.map (fun pats => (portUnit s v p).foldl (fun l q => modNth l q (fun x => min x 1)) pats) } }

/-- The arbiter's or monitor's short circuit at a port whose needed switch is faulted becomes all-off (R273, R367). -/
def holdFallback (s : State) (v : Vat) (p : Nat) : State :=
  match s.arb.hold with
  | none => s
  | some pats =>
    let fp := nth pats p 0
    if 2 ≤ fp && patternFaulted s v (portUnit s v p) (fp - 1) then holdOff s v p else s

/-- After a loss of PLL-T the monitor sees a low run on a leg's DST, though its vat is in reset: a short circuit becomes all-off
(R367 step 2). -/
def monitorBreak (s : State) (v : Vat) (n : Nat) : State :=
  match legPort s v n with
  | some p => if lostT s then holdOff s v p else s
  | none => s

/-- What a change of a leg's report does to its port (R235, R237): a risen cause in RUN or ARMED takes the pattern; a held
short circuit whose switch is faulted ends. -/
def actOnLeg (s : State) (v : Vat) (n : Nat) (before : Bool × Bool × Bool) : State :=
  match legPort s v n with
  | none => s
  | some p =>
    let now := legCauses s v n
    let s := s.wr (R.DLR_STAT_CAUSE v n) (boolNat (now.1 || now.2.1 || now.2.2))
    let s := match risenCause before now with
      | some c => if portActive s v p then
          enterFaultPattern (s.vatFlagEdge v uDRIVER (R.DLR_STAT_DRVF_F v n)) v p c else s
      | none => s
    holdFallback (ascFallback s v p) v p

/-- The link is lost (R230). -/
def linkLost (s : State) (v : Vat) (n : Nat) : State :=
  if !s.is (R.DLR_STAT_LINKOK v n) then s else
    let s := ((s.clr (R.DLR_STAT_LINKOK v n)).set1 (R.DLR_STAT_LINKLOSS_F v n)).vatEvent v uDRIVER 0x0B03 n
    modDlr s v n (fun x => { x with goodRun := 0 })

/-- A bad frame or line error counts in FRERRS (R227, R229). -/
def countBad (s : State) (v : Vat) (n : Nat) : State :=
  (s.vatFlag v uDRIVER (R.DLR_STAT_FRERR_F v n)).incSat (R.DLR_STAT_FRERRS v n)

def badFrame (s : State) (v : Vat) (n : Nat) : State :=
  let s := countBad s v n
  let run := min ((getDlr s v n).badRun + 1) 4
  let s := modDlr s v n (fun x => { x with badRun := run, goodRun := 0 })
  if run = 4 then linkLost s v n else s

/-- The disregard of HUV ends (R234). -/
def endDisregard (s : State) (v : Vat) (n : Nat) : State :=
  match (getLeg s v n).huvEnd with
  | some t => if t ≤ s.time.vt then s.clr (R.DLR_STAT_HUVMASK v n) else s
  | none => s

/-- HUV of a good frame (R234): disregarded while the bootstrap first charges, else a fault; after a refresh REFUV_F. -/
def huvReport (s : State) (v : Vat) (n : Nat) (huv : Bool) : State :=
  let l := getLeg s v n
  let s := endDisregard s v n
  let late := match l.refreshVt with | some t => decide (t ≤ s.time.vt) && decide (s.time.vt ≤ t + 10000) | none => false
  let s := if huv && late then s.vatFlag v uDRIVER (R.DLR_STAT_REFUV_F v n) else s
  modDlr s v n (fun x => { x with huvFault := huv && !s.is (R.DLR_STAT_HUVMASK v n) })

/-- The checks of R231: a frame that fails one makes DRV_MISMATCH present, one that passes all three ends it. -/
def checkFrame (s : State) (v : Vat) (n f : Nat) (enSteady : Bool) : State :=
  let fits := f % 4 == s.rd (R.LEG_CFG_TDT v n) && bitOf f 2 == s.is (R.DLR_CFG_CLASS v n)
  let ens := bitOf f 11 == (pinLevels s n).2
  let s := if fits && (!enSteady || ens) then s else
    let s := s.set1 (R.DLR_STAT_MISM_F v n)
    let s := if (getDlr s v n).mismatch then s else s.vatEvent v uDRIVER 0x0B04 n
    modDlr s v n (fun x => { x with mismatch := true })
  if fits && enSteady && ens then modDlr s v n (fun x => { x with mismatch := false }) else s

/-- The log of changed report bits [10:3] (R235). -/
def logBits (s : State) (v : Vat) (n f : Nat) : State :=
  let b := f / 8 % 256
  let s := if (getDlr s v n).prevBits = b then s else s.vatEvent v uDRIVER 0x0B02 (n + f * 65536)
  modDlr s v n (fun x => { x with prevBits := b })

/-- A good frame (R229-R235). -/
def goodFrame (s : State) (v : Vat) (n f : Nat) (enSteady : Bool) : State :=
  let d := getDlr s v n
  let seq := f / 4096 % 8
  let missing := match d.lastSeq with | some q => (seq + 15 - q) % 8 | none => 0
  let s := s.incSat (R.DLR_STAT_FRERRS v n) missing
  let s := s.wr (R.DLR_FRAME_FRAME v n) f
  let s := logBits s v n f
  let s := modDlr s v n (fun x => { x with badRun := 0, goodRun := min (x.goodRun + 1) 2, lastSeq := some seq })
  let s := if !s.is (R.DLR_STAT_LINKOK v n) && d.goodRun ≥ 1 then
      modDlr (s.set1 (R.DLR_STAT_LINKOK v n)) v n (fun x => { x with prevBits := 0 }) else s
  checkFrame (huvReport s v n (bitOf f 5)) v n f enSteady

/-- Reports of unassigned legs are ignored (R235). -/
def legHeard (s : State) (v : Vat) (n : Nat) : Bool := pulseRuns s v && (legPort s v n).isSome

def execDstFrame (v : Vat) (leg : Fin 32) (frame : BitVec 24) (formed enSteady : Bool) (s : State) :
    Host.Outcome State Fault Refusal :=
  let n := leg.val
  .next (settle (if !legHeard s v n then s else
    let before := legCauses s v n
    let s := if frameGood frame.toNat formed then goodFrame s v n (frame.toNat % 65536) enSteady else badFrame s v n
    actOnLeg s v n before))

def execFaultBreak (v : Vat) (leg : Fin 32) (s : State) : Host.Outcome State Fault Refusal :=
  let n := leg.val
  .next (settle (if !legHeard s v n then monitorBreak s v n else if s.is (R.DLR_STAT_BREAK v n) then s else
    let before := legCauses s v n
    let s := ((s.set1 (R.DLR_STAT_BREAK v n)).incSat (R.DLR_CNT_BREAKS v n)).vatEvent v uDRIVER 0x0B01 n
    actOnLeg s v n before))

def execFaultBreakEnd (v : Vat) (leg : Fin 32) (s : State) : Host.Outcome State Fault Refusal :=
  let n := leg.val
  .next (settle (if !legHeard s v n then s else actOnLeg (s.clr (R.DLR_STAT_BREAK v n)) v n (true, true, true)))

def execDstLineError (v : Vat) (leg : Fin 32) (s : State) : Host.Outcome State Fault Refusal :=
  .next (settle (if legHeard s v leg.val then countBad s v leg.val else s))

def execDriverLinkLoss (v : Vat) (leg : Fin 32) (s : State) : Host.Outcome State Fault Refusal :=
  let n := leg.val
  .next (settle (if !legHeard s v n then s else
    let before := legCauses s v n
    actOnLeg (linkLost s v n) v n before))

/-- ASCT has run out on a held short circuit (R238), the vat's own or the one the arbiter or the monitor holds. -/
def asctOver (s : State) (v : Vat) (p : Nat) : State :=
  let u := portUnit s v p
  holdOff (u.foldl (fun s q => if holdsShort s v q then toAllOff s v q else s) s) v p

def execAsctExpiry (v : Vat) (p : Fin 8) (s : State) : Host.Outcome State Fault Refusal :=
  .next (settle (if s.is (R.PORT_FPCFG_ASCT v p.val) then asctOver s v p.val else s))

end Sys2Proof.Machine
end

