-- ==== Sys2Proof/Machine/Library.lean ====
section
/-! DEFINITION. The ROM block library as data (05_control_engines.md R107-R109): counts of inputs, outputs, parameters and
state words, cycle costs, optional inputs, and the formats of inputs and outputs. -/

namespace Sys2Proof.Machine

open Sys2Proof

/-- The format of a value between blocks (R104). -/
inductive Fmt where
  | q
  | f
  deriving DecidableEq, Repr

/-- One row of the library tables. `opt` is the mask of optional inputs. -/
structure BlockInfo where
  nin : Nat
  nout : Nat
  npar : Nat
  cycles : Nat
  state : Nat
  opt : Nat
  deriving DecidableEq, Repr

/-- The rows of both library tables, BTYPE 0x00 first. -/
def blockTable : List BlockInfo := [
  ⟨0, 1, 2, 1, 0, 0⟩,      -- 0x00 CONST
  ⟨2, 1, 0, 4, 0, 0⟩,      -- 0x01 ADD2
  ⟨2, 1, 0, 4, 0, 0⟩,      -- 0x02 SUB2
  ⟨4, 1, 0, 8, 0, 0⟩,      -- 0x03 ADD4
  ⟨2, 1, 0, 4, 0, 0⟩,      -- 0x04 MUL2
  ⟨1, 1, 1, 4, 0, 0⟩,      -- 0x05 GAIN
  ⟨2, 1, 0, 30, 0, 0⟩,     -- 0x06 DIVF
  ⟨1, 1, 0, 2, 0, 0⟩,      -- 0x07 ABS
  ⟨1, 1, 0, 2, 0, 0⟩,      -- 0x08 NEG
  ⟨2, 1, 0, 3, 0, 0⟩,      -- 0x09 MIN2
  ⟨2, 1, 0, 3, 0, 0⟩,      -- 0x0A MAX2
  ⟨3, 1, 0, 4, 0, 0⟩,      -- 0x0B LIMIT
  ⟨1, 1, 1, 5, 0, 0⟩,      -- 0x0C DEADB
  ⟨3, 1, 0, 3, 0, 0⟩,      -- 0x0D SEL2
  ⟨2, 1, 1, 3, 0, 0⟩,      -- 0x0E CMP
  ⟨2, 1, 0, 2, 0, 0⟩,      -- 0x0F AND2
  ⟨2, 1, 0, 2, 0, 0⟩,      -- 0x10 OR2
  ⟨1, 1, 0, 2, 0, 0⟩,      -- 0x11 NOT
  ⟨1, 1, 2, 4, 1, 0⟩,      -- 0x12 HYST
  ⟨2, 1, 3, 6, 1, 2⟩,      -- 0x13 INTEG
  ⟨1, 1, 1, 6, 1, 0⟩,      -- 0x14 DIFF
  ⟨1, 1, 1, 4, 0, 0⟩,      -- 0x15 DELAY: N state words
  ⟨1, 1, 0, 26, 0, 0⟩,     -- 0x16 SQRTF
  ⟨1, 2, 0, 36, 0, 0⟩,     -- 0x17 SINCOS
  ⟨2, 1, 0, 44, 0, 0⟩,     -- 0x18 ATAN2
  ⟨2, 1, 0, 30, 0, 0⟩,     -- 0x19 MAG
  ⟨1, 1, 1, 32, 1, 0⟩,     -- 0x1A RMS
  ⟨1, 1, 1, 8, 1, 0⟩,      -- 0x1B AVG: N + 1 state words
  ⟨1, 1, 1, 24, 0, 0⟩,     -- 0x1C LUT1D: and 4 ceil(log2 NX) cycles
  ⟨1, 1, 2, 5, 1, 0⟩,      -- 0x1D TIMER
  ⟨2, 1, 1, 5, 2, 0⟩,      -- 0x1E COUNT
  ⟨1, 1, 1, 3, 1, 0⟩,      -- 0x1F EDGE
  ⟨2, 1, 0, 3, 1, 0⟩,      -- 0x20 LATCH
  ⟨1, 1, 1, 3, 0, 0⟩,      -- 0x21 Q2F
  ⟨1, 1, 1, 4, 0, 0⟩,      -- 0x22 F2Q
  ⟨5, 1, 0, 4, 0, 0⟩,      -- 0x23 MUX4
  ⟨2, 1, 5, 48, 2, 0⟩,     -- 0x24 PRES
  ⟨2, 2, 5, 28, 2, 0⟩,     -- 0x25 THERM
  ⟨0, 3, 3, 12, 4, 0⟩]     -- 0x26 POSIN

/-- The second library table, BTYPE 0x27 first. -/
def blockTable2 : List BlockInfo := [
  ⟨0, 2, 1, 6, 3, 0⟩,      -- 0x27 SRC
  ⟨0, 2, 1, 6, 0, 0⟩,      -- 0x28 AUXIN
  ⟨0, 2, 8, 30, 3, 0⟩,     -- 0x29 SETP
  ⟨3, 2, 8, 40, 4, 4⟩,     -- 0x2A PID
  ⟨1, 1, 1, 14, 2, 0⟩,     -- 0x2B LPF1
  ⟨1, 1, 5, 22, 4, 0⟩,     -- 0x2C BIQ
  ⟨3, 3, 0, 16, 0, 0⟩,     -- 0x2D CLARKE
  ⟨3, 2, 0, 34, 0, 0⟩,     -- 0x2E PARK
  ⟨3, 2, 0, 34, 0, 0⟩,     -- 0x2F IPARK
  ⟨3, 4, 1, 48, 0, 0⟩,     -- 0x30 SVM
  ⟨6, 3, 2, 36, 0, 0⟩,     -- 0x31 DTC
  ⟨5, 0, 1, 20, 0, 31⟩,    -- 0x32 PWMOUT
  ⟨3, 2, 4, 90, 3, 0⟩,     -- 0x33 VSM
  ⟨4, 2, 4, 30, 0, 0⟩,     -- 0x34 DROOP
  ⟨3, 2, 3, 28, 0, 0⟩,     -- 0x35 VIMP
  ⟨3, 4, 4, 70, 1, 0⟩,     -- 0x36 CLIM
  ⟨2, 2, 1, 16, 2, 0⟩,     -- 0x37 RAMP
  ⟨6, 2, 5, 96, 2, 0⟩,     -- 0x38 SYNC
  ⟨1, 1, 2, 14, 1, 0⟩,     -- 0x39 SLEW
  ⟨2, 1, 1, 40, 0, 0⟩,     -- 0x3A LUT2D: and 4 (ceil(log2 NX) + ceil(log2 NY)) cycles
  ⟨4, 3, 4, 110, 4, 0⟩,    -- 0x3B FLUXOBS
  ⟨2, 2, 3, 70, 3, 0⟩,     -- 0x3C SPDOBS
  ⟨3, 3, 3, 56, 0, 0⟩,     -- 0x3D MTPA: and 8 (...) of the larger table
  ⟨3, 4, 4, 160, 6, 0⟩,    -- 0x3E GMON
  ⟨3, 1, 2, 12, 1, 4⟩]     -- 0x3F MON

def blockInfo (bt : Nat) : Option BlockInfo := if bt < 0x27 then blockTable[bt]? else blockTable2[bt - 0x27]?

/-- The state words of an instance: DELAY and AVG size theirs by N. -/
def stateWords (bt : Nat) (pars : List Word) : Nat :=
  let n := (nth pars 0 0).toNat
  match bt with
  | 0x15 => n
  | 0x1B => n + 1
  | _ => ((blockInfo bt).map (fun b => b.state)).getD 0

/-- The smallest k with n ≤ 2^k. -/
def log2Ceil (n : Nat) : Nat := if n ≤ 1 then 0 else Nat.log2 (n - 1) + 1

def findTable (ts : List TableDef) (id : Nat) : Option TableDef := ts.find? (fun t => t.id == id)

/-- The search cycles a table of this size adds, per unit of the cost formulas. -/
def tableBits (ts : List TableDef) (id : Word) : Nat :=
  match findTable ts id.toNat with
  | some t => log2Ceil t.xs.length + log2Ceil t.ys.length
  | none => 0

/-- The table cycles of an instance (R90, R109). -/
def blockCycles (ts : List TableDef) (bt : Nat) (pars : List Word) : Nat :=
  let base := ((blockInfo bt).map (fun b => b.cycles)).getD 0
  match bt with
  | 0x1C | 0x3A => base + 4 * tableBits ts (nth pars 0 0)
  | 0x3D => base + 8 * max (tableBits ts (nth pars 0 0)) (tableBits ts (nth pars 1 0))
  | _ => base

/-- The format of output `i` of an instance. -/
def outFmt (bt : Nat) (pars : List Word) (_i : Nat) : Fmt :=
  match bt with
  | 0x00 => if bitOf (nth pars 0 0).toNat 0 then .f else .q
  | 0x22 | 0x27 | 0x28 | 0x2A | 0x2B | 0x2C | 0x30 | 0x31 => .q
  | _ => .f

/-- The format of input `i`. -/
def inFmt (bt i : Nat) : Fmt :=
  match bt with
  | 0x21 | 0x2A | 0x2B | 0x2C => .q
  | 0x31 => if i < 3 then .q else .f
  | 0x32 => if i < 4 then .q else .f
  | _ => .f

/-- The flag outputs V, LOS and CLOSE of source and monitor blocks, and FLUXOBS's V, are always VALID (R106, R188). -/
def alwaysValid (bt i : Nat) : Bool :=
  match bt with
  | 0x27 | 0x28 | 0x29 | 0x38 => i == 1
  | 0x26 | 0x3B => i == 2
  | _ => false

/-- State words that are numbers in binary32: those a non-finite value may not enter (R103). -/
def floatState (bt i : Nat) : Bool :=
  match bt with
  | 0x12 | 0x1E | 0x1F | 0x20 | 0x27 | 0x2A | 0x2B | 0x2C | 0x3F => false
  | 0x1B => true
  | 0x26 => i == 2
  | 0x29 | 0x38 => i == 0
  | 0x33 => i != 1
  | _ => true

end Sys2Proof.Machine
end

