-- ==== Sys2Proof/Machine/Kernels.lean ====
section
/-! DEFINITION. The kernels of the block library (05_control_engines.md R107-R120, R467, R468; 07_grid_forming.md R153-R161;
08_traction_and_dc.md R187-R192; 09_pulse_generation.md R218): what one instance computes at one evaluation from its inputs,
parameters and state. -/

namespace Sys2Proof.Machine

open Sys2Proof

/-! ## Short names of the binary32 operations (R467) -/

def fadd (x y : Word) : Word := F32.add x y
def fsub (x y : Word) : Word := F32.sub x y
def fmul (x y : Word) : Word := F32.mul x y
def fdiv (x y : Word) : Word := F32.div x y
/-- x y + z, x y - z and z - x y, each rounded once. -/
def ffma (x y z : Word) : Word := F32.fma x y z
def ffms (x y z : Word) : Word := F32.fms x y z
def ffnma (x y z : Word) : Word := F32.fnma x y z
def fabs (x : Word) : Word := F32.abs x
def fneg (x : Word) : Word := F32.neg x
def fmin (x y : Word) : Word := F32.min x y
def fmax (x y : Word) : Word := F32.max x y
def flt (x y : Word) : Bool := F32.lt x y
def fle (x y : Word) : Bool := F32.le x y
def fclamp (x lo hi : Word) : Word := F32.clamp x lo hi

/-- The sign of a number as 1, 0 or -1. -/
def fsign (x : Word) : Word := if flt 0 x then F32.one else if flt x 0 then fneg F32.one else 0

def fconst (n d : Nat) : Word := F32.ofRat n d

def fsqrt (x : Word) : Word := F32.sqrt x

def fflag (b : Bool) : Word := F32.ofBool b

/-- An input used as a flag is TRUE above zero (R105). -/
def ftrue (x : Word) : Bool := flt 0 x

/-- √3 in binary32. -/
def sqrt3 : Word := 0x3FDDB3D7

/-! ## Q words -/

/-- A Q15 value in a word, sign-extended (R93). -/
def qWord (x : Int) : Word := BitVec.ofNat 32 (unsignedOf 32 x)

def qOf (w : Word) : Int := signedOf 32 w.toNat

def qTrue (w : Word) : Bool := decide (0 < qOf w)

def qFlag (b : Bool) : Word := if b then 32767 else 0

/-- A 40-bit accumulator in two words (R93). -/
def accOf (lo hi : Word) : Int := signedOf 40 (lo.toNat + hi.toNat % 256 * 2 ^ 32)

def accWords (a : Int) : List Word := [BitVec.ofNat 32 (unsignedOf 32 a), BitVec.ofNat 32 (unsignedOf 32 (a / 2 ^ 32))]

/-! ## Environment and result -/

/-- What a kernel reads beside its inputs: TS (R99), the tick time, the graph's port, the tables, and the restriction. -/
structure KEnv where
  ts : Word
  tickPt : Nat
  restrict : Bool
  /-- GRIDn of the graph's port: DFR, the nominal frequency in Hz, VNOM, BSEN, TDB in ms, DEADLV in %. -/
  dfr : Word
  fnom : Nat
  vnom : Word
  bsen : Bool
  tdb : Nat
  deadlv : Nat
  /-- PERIOD in force at the tick, and the carrier mode of the graph's port. -/
  period : Nat
  mode1 : Bool
  tables : List TableDef
  deriving DecidableEq, Repr

/-- An instance's results. -/
structure KOut where
  st : List Word
  outs : List (Word × Bool)
  /-- The start mark of R468 after this evaluation. -/
  seen : Bool
  /-- A loss of signal begins (R112). -/
  los : Bool := false
  /-- SYNC sees a dead bus (R169). -/
  dead : Option Bool := none
  deriving DecidableEq, Repr

/-- ω0 of a nominal frequency. -/
def omega0 (fnom : Word) : Word := fmul F32.twoPi fnom

/-! ## Tables (R119) -/

/-- The interval of sorted breakpoints that holds `x`, and `x` held at the ends. -/
def tableFind (xs : List Word) (x : Word) : Nat × Word :=
  let lo := nth xs 0 0
  let hi := nth xs (xs.length - 1) 0
  let x := fclamp x lo hi
  let k := ((List.range (xs.length - 2)).filter (fun i => fle (nth xs (i + 1) 0) x)).length
  (k, x)

/-- Linear interpolation between two points, in the order the model fixes (notes/assumptions/21.md). -/
def lerp (x x0 x1 y0 y1 : Word) : Word :=
  if F32.isZero (fsub x x0) then F32.flush y0 else fadd y0 (fdiv (fmul (fsub y1 y0) (fsub x x0)) (fsub x1 x0))

/-- Row `j` of a table at the interval `k`. -/
def tableRow (t : TableDef) (j k : Nat) (x : Word) : Word :=
  let n := t.xs.length
  if n < 2 then F32.flush (nth t.vals (j * n) 0)
  else lerp x (nth t.xs k 0) (nth t.xs (k + 1) 0) (nth t.vals (j * n + k) 0) (nth t.vals (j * n + k + 1) 0)

def lookup1 (t : TableDef) (x : Word) : Word :=
  let r := tableFind t.xs x
  tableRow t 0 r.1 r.2

/-- Bilinear interpolation: along X in both rows, then along Y. (DESIGN CHOICE: notes/assumptions/21.md.) -/
def lookup2 (t : TableDef) (x y : Word) : Word :=
  let r := tableFind t.xs x
  let q := tableFind t.ys y
  if t.ys.length < 2 then tableRow t 0 r.1 r.2
  else lerp q.2 (nth t.ys q.1 0) (nth t.ys (q.1 + 1) 0) (tableRow t q.1 r.1 r.2) (tableRow t (q.1 + 1) r.1 r.2)

/-! ## General blocks: every input VALID -/

/-- The result of a block whose inputs are all VALID: state and outputs, or none where the outputs are not VALID. -/
abbrev KRes := Option (List Word × List Word)

def kDeadb (x w : Word) : Word := if fle (fabs x) w then 0 else if flt 0 x then fsub x w else fadd x w

def kLimit (x lo hi : Word) : Word := if flt hi lo then lo else fclamp x lo hi

def kCmp (mode : Nat) (a b : Word) : Bool :=
  match mode % 4 with
  | 0 => flt b a
  | 1 => flt a b
  | 2 => fle b a
  | _ => fle a b

/-- AVG (R468): the values and their count. The state words hold the values newest first, and the sum takes them in that order.
(DESIGN CHOICE: notes/assumptions/21.md, and so DELAY's state words.) -/
def kAvg (n : Nat) (st : List Word) (x : Word) : List Word × Word :=
  let vals := (x :: st.take n).take n
  let cnt := min ((nth st n 0).toNat + 1) n
  let sum := (vals.take cnt).foldl fadd 0
  (vals ++ [BitVec.ofNat 32 cnt], fdiv sum (F32.ofNat cnt))

/-- TIMER (R468): elapsed time and the flag. -/
def kTimer (ts tOn tOff t : Word) (out x : Bool) : Word × Bool :=
  if x = out then (0, out) else
    let t := fadd t ts
    if (x && fle tOn t) || (!x && fle tOff t) then (0, x) else (t, out)

/-- RMS: the mean square and the output. -/
def kRms (ts tau m x : Word) : Word × Word :=
  let m := fadd m (fdiv (fmul (ffms x x m) ts) tau)
  (m, fsqrt m)

/-- MUX4's selector: rounded and clamped to 0-3. -/
def muxIndex (x : Word) : Nat := (clampInt 0 3 (F32.toInt x 0)).toNat

/-- THERM (R191). -/
def kTherm (ts : Word) (p st x : List Word) : List Word × List Word :=
  let r1 := nth p 0 0
  let r2 := nth p 2 0
  let x1 := nth st 0 0
  let x2 := nth st 1 0
  let y1 := fadd x1 (fdiv (fmul ts (fsub (nth x 0 0) (fdiv (fsub x1 x2) r1))) (nth p 1 0))
  let y2 := fadd x2 (fdiv (fmul ts (fsub (fdiv (fsub y1 x2) r1) (fdiv x2 r2))) (nth p 3 0))
  let t := fadd (nth x 1 0) y1
  ([y1, y2], [t, fflag (fle (nth p 4 0) t)])

/-- PRES: KP + 2 KR WC s / (s² + 2 WC s + W²) with s = (W / tan(W TS / 2)) (1 − z⁻¹) / (1 + z⁻¹), in direct form II transposed. The
table names the controller and its discretisation; the form of the resonant term and the realisation are the family's.
(PRESUMED: notes/assumptions/21.md.) -/
def kPres (ts : Word) (p st : List Word) (e w : Word) : List Word × Word :=
  let h := fdiv (fmul w ts) F32.two
  let k := fdiv w (fdiv (sinAngle h) (cosAngle h))
  let m := fmul (fmul F32.two (nth p 2 0)) k
  let a0 := ffma w w (ffma k k m)
  let a1 := fmul F32.two (ffms w w (fmul k k))
  let a2 := ffma w w (ffms k k m)
  let b := fdiv (fmul (fmul (fmul F32.two (nth p 1 0)) (nth p 2 0)) k) a0
  let r := ffma b e (nth st 0 0)
  let z1 := ffnma (fdiv a1 a0) r (nth st 1 0)
  let z2 := ffnma (fdiv a2 a0) r (fneg (fmul b e))
  ([z1, z2], ffma (nth p 0 0) e r)

/-- CLARKE's AL and BE (R116). -/
def kClarke (a b c : Word) : Word × Word :=
  (fdiv (fsub (ffms F32.two a b) c) (F32.ofNat 3), fdiv (fsub b c) sqrt3)

/-- Rotation by TH: PARK, and with the angle reversed IPARK (R116; the order of the sums: notes/assumptions/21.md). -/
def kPark (al be th : Word) : Word × Word :=
  let c := cosAngle th
  let s := sinAngle th
  (ffma al c (fmul be s), ffms be c (fmul al s))

def kIpark (d q th : Word) : Word × Word :=
  let c := cosAngle th
  let s := sinAngle th
  (ffms d c (fmul q s), ffma d s (fmul q c))

/-! ## SVM (R116) -/

/-- The zero-sequence voltage of a mode: min-max injection, none, or the clamp of the phase at its peak, of two with equal |v| the first.
(DESIGN CHOICE: notes/assumptions/21.md, and so the order of the operations here and in the two below.) -/
def svmZero (mode : Nat) (a b c vdc : Word) : Word :=
  match mode with
  | 0 => fneg (fmul F32.half (fadd (fmax a (fmax b c)) (fmin a (fmin b c))))
  | 2 =>
    let top := if flt (fabs a) (fabs b) then b else a
    let top := if flt (fabs top) (fabs c) then c else top
    fsub (if flt top 0 then fneg (fmul F32.half vdc) else fmul F32.half vdc) top
  | _ => 0

/-- The phase voltages of a vector. -/
def svmPhases (al be : Word) : Word × Word × Word :=
  let h := fmul F32.half al
  let r := fmul F32.half sqrt3
  (al, ffms r be h, fneg (ffma r be h))

/-- The duties of a vector. -/
def svmDuties (mode : Nat) (al be vdc : Word) : List Word :=
  let (a, b, c) := svmPhases al be
  let z := svmZero mode a b c vdc
  [a, b, c].map (fun v => fadd F32.half (fdiv (fadd v z) vdc))

/-- The factor that brings the vector's duties within [0, 1]: the phase differences fit VDC with a zero sequence, and each
phase fits half of it without. -/
def svmScale (mode : Nat) (al be vdc : Word) : Word :=
  let (a, b, c) := svmPhases al be
  let reach := if mode = 1 then fmul F32.two (fmax (fabs a) (fmax (fabs b) (fabs c)))
    else fsub (fmax a (fmax b c)) (fmin a (fmin b c))
  if flt vdc reach then fdiv vdc reach else F32.one

/-- SVM: duties in Q15 on the scale of R209, and SAT. -/
def kSvm (mode : Nat) (al be vdc : Word) : Option (List Word) :=
  if fle vdc 0 then none else
    let out (d : Word) : Bool := flt d 0 || flt F32.one d
    let ds := svmDuties mode al be vdc
    let sat := ds.any out
    let k := svmScale mode al be vdc
    let ds := if sat then svmDuties mode (fmul al k) (fmul be k) vdc else ds
    some (ds.map (fun d => qWord (clampInt 0 32767 (F32.toInt (fmul d (F32.ofNat 32767)) 0))) ++ [qFlag sat])

/-- DTC for one phase (R218). -/
def kDtc (tdt iband tc : Word) (d : Word) (i : Word) : Word :=
  let q := qOf d
  if q = 0 || q = 32767 then d else
    let s := fclamp (fdiv i iband) (fneg F32.one) F32.one
    let x := fadd (F32.ofInt q) (fdiv (fmul (fmul (F32.ofNat 32767) s) tdt) tc)
    qWord (clampInt 0 32767 (F32.toInt x 0))

/-- The carrier period of DTC: 4 ns or 2 ns times PERIOD. -/
def dtcPeriod (e : KEnv) : Word := fmul (fconst (if e.mode1 then 2 else 4) 1000000000) (F32.ofNat e.period)

/-! ## Grid blocks (07_grid_forming.md) -/

/-- VSM's angle from its turn count (R153). -/
def vsmAngle (turn : Word) : Word :=
  wrapAngle (fdiv (fmul (fmul (F32.ofNat turn.toNat) F32.two) F32.pi) (fconst (2 ^ 32) 1))

/-- VSM's step (R153): w, turn, a. -/
def kVsm (ts : Word) (p st x : List Word) : List Word × List Word :=
  let w0 := omega0 (nth p 3 0)
  let w := nth st 0 0
  let a := fsub (fdiv (fsub (nth x 0 0) (nth x 1 0)) (nth p 2 0))
    (fdiv (fmul (nth p 1 0) (fsub w (nth x 2 0))) w0)
  let w := fadd w (fdiv (fmul (fmul ts w0) a) (fmul F32.two (nth p 0 0)))
  let w := fclamp w (fmul (fconst 9 10) w0) (fmul (fconst 11 10) w0)
  let inc := F32.toInt (fdiv (fmul (fmul w ts) (fconst (2 ^ 32) 1)) F32.twoPi) 0
  let turn : Word := BitVec.ofNat 32 (unsignedOf 32 ((nth st 1 0).toNat + inc))
  ([w, turn, a], [vsmAngle turn, w])

/-- DROOP (R155; the restriction of R180). -/
def kDroop (e : KEnv) (p x : List Word) : List Word :=
  let pref := if e.restrict then fmin (nth x 2 0) 0 else nth x 2 0
  [ffnma (nth p 0 0) (fsub (nth x 0 0) pref) (ffma F32.twoPi e.dfr (omega0 (nth p 2 0))),
   ffnma (nth p 1 0) (fsub (nth x 1 0) (nth x 3 0)) (nth p 3 0)]

/-- VIMP (R156). -/
def kVimp (e : KEnv) (p x : List Word) : List Word :=
  let rv := nth p 0 0
  let xw := fmul (nth p 1 0) (fdiv (nth x 2 0) (omega0 (F32.ofNat e.fnom)))
  let id := nth x 0 0
  let iq := nth x 1 0
  [fmul (nth p 2 0) (ffms rv id (fmul xw iq)), fmul (nth p 2 0) (ffma rv iq (fmul xw id))]

/-- The larger-axis clamp of CLIM: the priority axis, then what is left for the other (R157). -/
def climPriority (imax pri other : Word) : Word × Word :=
  let a := fclamp pri (fneg imax) imax
  (a, fmul (fsign other) (fmin (fabs other) (fsqrt (ffms imax imax (fmul a a)))))

/-- CLIM (R157; the restriction of R180). -/
def kClim (e : KEnv) (p st x : List Word) : List Word × List Word :=
  let k := fconst 5 100
  let imax := if e.restrict then fmul k (nth p 0 0) else nth p 0 0
  let ivi := if e.restrict then fmul k (nth p 1 0) else nth p 1 0
  let id := nth x 0 0
  let iq := nth x 1 0
  let target := fmul (nth p 2 0) (fmax 0 (fsub (nth x 2 0) ivi))
  let radd := fmax target (fmul (nth st 0 0) (fsub F32.one (fdiv e.ts (fconst 2 100))))
  let m := fsqrt (ffma id id (fmul iq iq))
  let r := if fle m imax then (id, iq) else
    match (nth p 3 0).toNat with
    | 0 => (fdiv (fmul id imax) m, fdiv (fmul iq imax) m)
    | 1 => let q := climPriority imax iq id; (q.2, q.1)
    | _ => climPriority imax id iq
  ([radd], [r.1, r.2, radd, fflag (flt 0 radd || flt imax m)])

/-- RAMP (R158): Y and DONE; at the first evaluation Y is 0. -/
def kRamp (ts tramp : Word) (st : List Word) (start : Bool) (target : Word) (seen : Bool) : List Word × List Word :=
  let goal := if start then target else 0
  let step := fdiv (fmul (fabs target) ts) tramp
  let y := if seen then fadd (nth st 0 0) (fclamp (fsub goal (nth st 0 0)) (fneg step) step) else 0
  let done := F32.isZero (fsub y goal)
  ([y, fflag done], [y, fflag done])

/-- SLEW (R192): at the first evaluation Y is X. -/
def kSlew (ts rise fall y x : Word) (seen : Bool) : Word :=
  if seen then fadd y (fclamp (fsub x y) (fneg (fmul fall ts)) (fmul rise ts)) else x

/-- GMON (R159): th, wi, vmag, F_prev, r, okt. -/
def kGmon (ts : Word) (p st x : List Word) (seen : Bool) : List Word × List Word :=
  let fnom := nth p 0 0
  let vnom := nth p 1 0
  let (al, be) := kClarke (nth x 0 0) (nth x 1 0) (nth x 2 0)
  let th := nth st 0 0
  let (vd, vq) := kPark al be th
  let n := fdiv vq vnom
  let vmag := nth st 2 0
  let wi := if fle (fmul (fconst 1 10) vnom) vmag then ffma (fmul (F32.ofNat 15791) n) ts (nth st 1 0) else nth st 1 0
  let w := ffma (fconst 1777 10) n (fadd (omega0 fnom) wi)
  let th := wrapAngle (ffma w ts th)
  let f := fdiv w F32.twoPi
  let fp := if seen then nth st 3 0 else fnom
  let vmag := fadd vmag (fdiv (fmul (fsub (fsqrt (ffma vd vd (fmul vq vq))) vmag) ts) (fconst 5 1000))
  let r := nth st 4 0
  let r := fadd r (fdiv (fmul (fsub (fdiv (fsub f fp) ts) r) ts) (fconst 1 10))
  let inb := fle (fabs (fsub f fnom)) (nth p 3 0) && fle (fabs (fsub vmag vnom)) (fmul (nth p 2 0) vnom)
  let okt := if inb then fadd (nth st 5 0) ts else 0
  ([th, wi, vmag, f, r, okt], [f, vmag, r, fflag (fle (fconst 1 10) okt)])

/-- SYNC (R160, R174; the restriction of R180); the state word 2 holds tdead in 1/16 µs in [31:2] and win in [1:0]. -/
def kSync (e : KEnv) (p st x : List Word) : List Word × List Word × Bool :=
  let tho := nth x 0 0
  let thg := nth x 1 0
  let vo := nth x 2 0
  let vg := nth x 3 0
  let fo := nth x 4 0
  let fg := nth x 5 0
  let fomax := nth p 3 0
  let rocof := nth p 4 0
  let foff := nth st 0 0
  let tdead := (nth st 1 0).toNat / 4
  let win := (nth st 1 0).toNat % 4
  let dl := fmul (fdiv (F32.ofNat e.deadlv) (F32.ofNat 100)) e.vnom
  let dth := wrapAngle (fsub thg tho)
  let dfb := fsub fg (fsub fo foff)
  let dead := flt vg dl
  -- TS to the nearest 1/16 µs, ties upwards: half-units, then halved
  let tsu := ((F32.toInt (fmul e.ts (F32.ofNat 16000000)) 24 + 2 ^ 23) / (2 ^ 24 : Int)).toNat
  let tdead := if dead then min (tdead + tsu) (2 ^ 30 - 1) else 0
  let walk := fmul (fsign dth) (fmin (fmax (fsub fomax (fabs dfb)) 0)
    (fsqrt (fdiv (fmul (fmul F32.two rocof) (fabs dth)) F32.twoPi)))
  let target := if dead then 0 else fclamp (fadd dfb walk) (fneg fomax) fomax
  let lim := fmul rocof e.ts
  let foff := fadd foff (fclamp (fsub target foff) (fneg lim) lim)
  let inwin := fle dl vg && fle (fabs dth) (nth p 0 0) && fle (fabs (fsub fg fo)) (nth p 1 0)
    && fle (fabs (fsub vo vg)) (fmul (nth p 2 0) vg)
  let win := if inwin then min (win + 1) 3 else 0
  let close := win == 3 || (decide (e.tdb * 16000 ≤ tdead) && e.bsen && !e.restrict && flt vo dl)
  ([foff, BitVec.ofNat 32 (tdead * 4 + win)], [fmul F32.twoPi foff, fflag close], dead)

/-! ## Motor blocks (08_traction_and_dc.md) -/

/-- FLUXOBS (R188): xa, xb, th_prev, we. -/
def kFluxobs (ts : Word) (p st x : List Word) : List Word × List Word :=
  let rs := nth p 0 0
  let ls := nth p 1 0
  let wc := nth p 2 0
  let ial := nth x 2 0
  let ibe := nth x 3 0
  let step (v i xo : Word) : Word := ffma ts (ffnma wc xo (ffnma rs i v)) xo
  let xa := step (nth x 0 0) ial (nth st 0 0)
  let xb := step (nth x 1 0) ibe (nth st 1 0)
  let pa := ffnma ls ial xa
  let pb := ffnma ls ibe xb
  let thr := atan2Angle pb pa
  let we := fdiv (wrapAngle (fsub thr (nth st 2 0))) ts
  let c := fdiv wc (fmax (fabs we) wc)
  let th := wrapAngle (ffnma (fsign we) (atanAngle c) thr)
  let psi := fmul (fsqrt (ffma pa pa (fmul pb pb))) (fsqrt (ffma c c F32.one))
  ([xa, xb, thr, we], [th, psi, fflag (fle (nth p 3 0) psi && fle (fmul F32.two wc) (fabs we))])

/-- SPDOBS (R189): thf, wi, W. -/
def kSpdobs (ts : Word) (p st x : List Word) (seen : Bool) : List Word × List Word :=
  let th := nth x 0 0
  let thf := if seen then nth st 0 0 else th
  let wi := if seen then nth st 1 0 else 0
  let e := wrapAngle (fsub th thf)
  let wi := ffma ts (ffma (nth p 1 0) e (fdiv (nth x 1 0) (nth p 2 0))) wi
  let w := ffma (nth p 0 0) e wi
  let thf := wrapAngle (ffma ts w thf)
  ([thf, wi, w], [w, thf])

/-- MTPA (R190). -/
def kMtpa (tables : List TableDef) (p x : List Word) : Option (List Word) :=
  let vdc := nth x 2 0
  if fle vdc 0 then none else
    match findTable tables (nth p 0 0).toNat, findTable tables (nth p 1 0).toNat with
    | some tid, some tiq =>
      let tref := nth x 0 0
      let imax := nth p 2 0
      let y := fdiv (fabs (nth x 1 0)) vdc
      let id := fclamp (lookup2 tid (fabs tref) y) (fneg imax) imax
      let iq := fmul (fsign tref) (lookup2 tiq (fabs tref) y)
      let iq := if flt imax (fsqrt (ffma id id (fmul iq iq))) then
          fmul (fsign iq) (fsqrt (ffms imax imax (fmul id id))) else iq
      some [id, iq, fflag (flt (nth tid.ys 0 0) y)]
    | _, _ => none

/-- Seconds of a span of PT. -/
def ptSeconds (n : Nat) : Word := fconst n 500000000

/-- POSIN (R187): c_prev, te_prev, w, first-sample flag. `c`, `te` come from the capture. -/
def kPosin (e : KEnv) (p st : List Word) (c te : Nat) : List Word × List Word :=
  let cfg := (nth p 0 0).toNat
  let counts := (nth p 1 0).toNat
  let ssi := decide (4 ≤ cfg % 8)
  let k := fdiv (fmul F32.twoPi (F32.ofNat (cfg / 256 % 256))) (F32.ofNat counts)
  let span (a b : Nat) : Word := ptSeconds ((a + 2 ^ 32 - b) % 2 ^ 32)
  let tk := e.tickPt % 2 ^ 32
  let cp := (nth st 0 0).toNat
  let tp := (nth st 1 0).toNat
  let r := if (nth st 3 0) = 0 then (0, c, te)
    else if c != cp then
      let dc : Int := ((c + 2 * counts - cp + counts / 2) % counts : Nat) - (counts / 2 : Nat)
      (fdiv (fmul k (F32.ofInt dc)) (span te tp), c, te)
    else
      let w := nth st 2 0
      (fmul (fsign w) (fmin (fabs w) (fdiv k (span tk tp))), cp, tp)
  let w : Word := r.1
  let dt := if ssi then span tk te else 0
  let th := wrapAngle (ffma w dt (ffma k (F32.ofNat c) (nth p 2 0)))
  ([BitVec.ofNat 32 r.2.1, BitVec.ofNat 32 r.2.2, w, 1], [th, w])

/-! ## Q-lane blocks -/

/-- PID (R113) with `iPrev` the fold-in already added to I_prev (R145). X − X_prev, to which the rule writes no saturation, goes
into KDD's product as it is. (DESIGN CHOICE: notes/assumptions/21.md.) -/
def kPid (p st : List Word) (iPrev : Int) (ref fb ff : Int) : List Word × List Word :=
  let lo := signedOf 16 (nth p 5 0).toNat
  let hi := signedOf 16 (nth p 6 0).toNat
  let mode := (nth p 7 0).toNat
  let e := sat15 (ref - fb)
  let prop := gainMul (nth p 0 0) e
  let x := if bitOf mode 2 then sat15 (-fb) else e
  let dPrev := qOf (nth st 2 0)
  let xPrev := qOf (nth st 3 0)
  let d := accToQ15 (satAcc (gainMul (nth p 3 0) dPrev + gainMul (nth p 2 0) (x - xPrev)))
  let i1 := satAcc (iPrev + gainMul (nth p 1 0) e)
  let un := satAcc (satAcc (satAcc (prop + i1) + d * 32768) + ff * 32768)
  let r := accToQ15 un
  let u := clampInt lo hi r
  let i := match mode % 4 with
    | 1 =>
      let i := if (hi * 32768 < un && 0 < e) || (un < lo * 32768 && e < 0) then iPrev else i1
      clampInt (lo * 32768) (hi * 32768) i
    | 2 => satAcc (i1 + gainMul (nth p 4 0) (accToQ15 (satAcc (u * 32768 - un))))
    | _ => i1
  (accWords i ++ [qWord d, qWord x], [qWord u, qFlag (u != r)])

/-- Fold-in (R145): the pending residuals of the entries whose SRC drives REF (+) or FB (-), and with AW = 1 the clamp. -/
def pidFold (p st : List Word) (onRef onFb : List Int) : Int :=
  let ki := nth p 1 0
  let i := accOf (nth st 0 0) (nth st 1 0)
  let i := onFb.foldl (fun i r => satAcc (i + gainMul ki (-r))) i
  let i := onRef.foldl (fun i r => satAcc (i + gainMul ki r)) i
  if (nth p 7 0).toNat % 4 = 1 && !(onRef ++ onFb).isEmpty then
    clampInt (signedOf 16 (nth p 5 0).toNat * 32768) (signedOf 16 (nth p 6 0).toNat * 32768) i
  else i

/-- LPF1 (R115). -/
def kLpf (a : Word) (st : List Word) (x : Int) : List Word × List Word :=
  let y := accOf (nth st 0 0) (nth st 1 0)
  let diff := satAcc (x * 32768 - y)
  let sh := 15 - gainE a
  let prod := roundShift (gainM a * diff) sh.toNat
  let y := satAcc (y + satAcc prod)
  (accWords y, [qWord (accToQ15 y)])

/-- BIQ (R115): x1, x2, y1, y2. -/
def kBiq (p st : List Word) (x : Int) : List Word × List Word :=
  let s (i : Nat) : Int := qOf (nth st i 0)
  let acc := satAcc (gainMul (nth p 0 0) x)
  let acc := satAcc (acc + gainMul (nth p 1 0) (s 0))
  let acc := satAcc (acc + gainMul (nth p 2 0) (s 1))
  let acc := satAcc (acc - gainMul (nth p 3 0) (s 2))
  let acc := satAcc (acc - gainMul (nth p 4 0) (s 3))
  let y := accToQ15 acc
  ([qWord x, nth st 0 0, qWord y, nth st 2 0], [qWord y])

/-! ## One instance with every input VALID -/

/-- State and outputs of an ordinary instance: the new state, the outputs, or none where the outputs are not VALID. `prev`
holds the outputs of the last commit, `seen` the start mark of R468. -/
def kernel (e : KEnv) (bt : Nat) (p x st prev : List Word) (seen : Bool) : KRes :=
  let a := nth x 0 0
  let b := nth x 1 0
  let c := nth x 2 0
  let q := nth st 0 0
  let one (y : Word) : KRes := some (st, [y])
  let flag (y : Bool) : KRes := some (st, [fflag y])
  match bt with
  | 0x00 => some (st, [if bitOf (nth p 0 0).toNat 0 then F32.flush (nth p 1 0) else qWord (signedOf 16 (nth p 1 0).toNat)])
  | 0x01 => one (fadd a b)
  | 0x02 => one (fsub a b)
  | 0x03 => one (fadd (fadd (fadd a b) c) (nth x 3 0))
  | 0x04 => one (fmul a b)
  | 0x05 => one (fmul (nth p 0 0) a)
  | 0x06 => if flt (fabs b) (fconst 1 (2 ^ 60)) then none else one (fdiv a b)
  | 0x07 => one (fabs a)
  | 0x08 => one (fneg a)
  | 0x09 => one (fmin a b)
  | 0x0A => one (fmax a b)
  | 0x0B => one (kLimit a b c)
  | 0x0C => one (kDeadb a (nth p 0 0))
  | 0x0E => flag (kCmp (nth p 0 0).toNat a b)
  | 0x0F => flag (ftrue a && ftrue b)
  | 0x10 => flag (ftrue a || ftrue b)
  | 0x11 => flag (!ftrue a)
  | 0x12 =>
    let y := if fle (nth p 0 0) a then true else if fle a (nth p 1 0) then false else q != 0
    some ([BitVec.ofNat 32 (boolNat y)], [fflag y])
  | 0x13 =>
    let y := if ftrue b then 0 else fclamp (ffma (nth p 0 0) a q) (nth p 1 0) (nth p 2 0)
    some ([y], [y])
  | 0x14 => some ([a], [if seen then fdiv (fmul (nth p 0 0) (fsub a q)) e.ts else 0])
  | 0x15 =>
    let n := (nth p 0 0).toNat
    some ((a :: st).take n, [nth st (n - 1) 0])
  | 0x16 => one (if flt a 0 then 0 else fsqrt a)
  | 0x17 => some (st, [sinAngle a, cosAngle a])
  | 0x18 => one (if F32.isZero a && F32.isZero b then 0 else atan2Angle a b)
  | 0x19 => one (fsqrt (ffma a a (fmul b b)))
  | 0x1A => let r := kRms e.ts (nth p 0 0) q a; some ([r.1], [r.2])
  | 0x1B => let r := kAvg (nth p 0 0).toNat st a; some (r.1, [r.2])
  | 0x1C => (findTable e.tables (nth p 0 0).toNat).bind (fun t => one (lookup1 t a))
  | 0x1D =>
    let r := kTimer e.ts (nth p 0 0) (nth p 1 0) q (ftrue (nth prev 0 0)) (ftrue a)
    some ([r.1], [fflag r.2])
  | 0x1E =>
    let rise := seen && ftrue a && nth st 1 0 == 0
    let n := if ftrue b then 0 else if rise then min (q.toNat + 1) (nth p 0 0).toNat else q.toNat
    some ([BitVec.ofNat 32 n, BitVec.ofNat 32 (boolNat (ftrue a))], [F32.ofNat n])
  | 0x1F =>
    let up := seen && ftrue a && q == 0
    let down := seen && !ftrue a && q != 0
    let y := match (nth p 0 0).toNat with | 0 => up | 1 => down | _ => up || down
    some ([BitVec.ofNat 32 (boolNat (ftrue a))], [fflag y])
  | 0x20 =>
    let y := if ftrue b then false else if ftrue a then true else q != 0
    some ([BitVec.ofNat 32 (boolNat y)], [fflag y])
  | 0x21 => one (fmul (fmul (nth p 0 0) (F32.ofInt (qOf a))) (F32.ofScaled 1 (-15)))
  | 0x22 => one (qWord (F32.toQ15 (fdiv a (nth p 0 0))))
  | 0x23 => one (nth x (1 + muxIndex a) 0)
  | 0x24 =>
    let r := kPres e.ts p st a b
    some (r.1, [fclamp r.2 (nth p 3 0) (nth p 4 0)])
  | 0x25 => some (kTherm e.ts p st x)
  | 0x2B => some (kLpf (nth p 0 0) st (qOf a))
  | 0x2C => some (kBiq p st (qOf a))
  | 0x2D => let r := kClarke a b c; some (st, [r.1, r.2, fdiv (fadd (fadd a b) c) (F32.ofNat 3)])
  | 0x2E => let r := kPark a b c; some (st, [r.1, r.2])
  | 0x2F => let r := kIpark a b c; some (st, [r.1, r.2])
  | 0x30 => (kSvm (nth p 0 0).toNat a b c).map (fun y => (st, y))
  | 0x31 => some (st, (List.range 3).map (fun i =>
      kDtc (nth p 0 0) (nth p 1 0) (dtcPeriod e) (nth x i 0) (nth x (3 + i) 0)))
  | 0x33 => some (kVsm e.ts p st x)
  | 0x34 => some (st, kDroop e p x)
  | 0x35 => some (st, kVimp e p x)
  | 0x36 => some (kClim e p st x)
  | 0x37 => some (kRamp e.ts (nth p 0 0) st (ftrue a) b seen)
  | 0x38 => let r := kSync e p st x; some (r.1, r.2.1)
  | 0x39 => let y := kSlew e.ts (nth p 0 0) (nth p 1 0) q a seen; some ([y], [y])
  | 0x3A => (findTable e.tables (nth p 0 0).toNat).bind (fun t => one (lookup2 t a b))
  | 0x3B => some (kFluxobs e.ts p st x)
  | 0x3C => some (kSpdobs e.ts p st x seen)
  | 0x3D => (kMtpa e.tables p x).map (fun y => (st, y))
  | 0x3E => some (kGmon e.ts p st x seen)
  | _ => none

end Sys2Proof.Machine
end

