-- ==== Sys2Proof/Machine/Evaluate.lean ====
section
/-! DEFINITION. The evaluation of a graph (05_control_engines.md R95-R120; 06_run_ahead.md R139, R145): its instances in
execution order over engine-local memory, with what the evaluation has written so far in front of it. -/

namespace Sys2Proof.Machine

open Sys2Proof

/-! ## Engines, slots and engine-local memory -/

/-- The unit number of engine `c` (R414). -/
def uCE (c : Nat) : Nat := c + 1

def modEng (s : State) (v : Vat) (c : Nat) (f : EngSt → EngSt) : State :=
  s.modVat v (fun x => { x with engines := modNth x.engines c f })

def modSlot (s : State) (v : Vat) (c k : Nat) (f : GraphSt → GraphSt) : State :=
  modEng s v c (fun x => { x with slots := modNth x.slots k f })

/-- The byte address of word `o` of an engine's memory (R92). -/
def engWord (v : Vat) (c o : Nat) : Nat := v.base + 0x01000000 + c * 0x20000 + 4 * o

def readEng (s : State) (v : Vat) (c o : Nat) : Word := s.readMem (engWord v c o)

def writeEng (s : State) (v : Vat) (c o : Nat) (w : Word) : State := s.writeMem (engWord v c o) w

/-- The instance with number `i` in its engine. -/
def findInst (g : GraphSt) (i : Nat) : Option InstDef := if i < g.first then none else g.defs[i - g.first]?

/-- The state and output words of an instance, in the order of R93. -/
def instWords (d : InstDef) : List Nat :=
  ((List.range (stateWords d.btype d.pars)).map (fun j => d.stOff + j))
    ++ ((List.range (((blockInfo d.btype).map (fun b => b.nout)).getD 0)).map (fun j => d.outOff + j))

/-- The words of a graph that a bank shadows (R139). -/
def graphWords (defs : List InstDef) : List Nat := defs.flatMap instWords

def outCount (d : InstDef) : Nat := ((blockInfo d.btype).map (fun b => b.nout)).getD 0

/-- Output `o` of instance `i` as committed: its word and its VALID bit. -/
def committedOut (s : State) (v : Vat) (c : Nat) (g : GraphSt) (i o : Nat) : Word × Bool :=
  match findInst g i with
  | some d => (readEng s v c (d.outOff + o), bitOf (readEng s v c (d.desc + 3)).toNat o)
  | none => (0, false)

/-- A committed output in binary32 (R104), flushed. -/
def committedF (s : State) (v : Vat) (c : Nat) (g : GraphSt) (i o : Nat) : Word × Bool :=
  let r := committedOut s v c g i o
  match findInst g i with
  | some d => (if outFmt d.btype d.pars o = .q then F32.ofQ15 (qOf r.1) else F32.flush r.1, r.2)
  | none => (0, false)

/-- A committed output read as a flag, whatever its VALID bit (R105). -/
def committedFlag (s : State) (v : Vat) (c : Nat) (g : GraphSt) (i o : Nat) : Bool := ftrue (committedF s v c g i o).1

/-! ## The working copy of an evaluation -/

/-- What an evaluation has written so far: words by offset, VALID bits by instance, and what its commit will do. -/
structure Work where
  ws : List (Nat × Word) := []
  vs : List (Nat × Nat) := []
  events : List (Nat × Nat) := []
  invout : Bool := false
  writes : List ShadowWrite := []
  clamped : List Nat := []
  moves : List (Nat × Bool) := []
  dead : Option Bool := none
  seen : List Bool := []
  start : Bool := false
  deriving DecidableEq, Repr

/-- The fixed surroundings of one evaluation. -/
structure EvCtx where
  v : Vat
  c : Nat
  g : GraphSt
  ev : EvalSt
  env : KEnv
  port : Nat
  /-- The pending residuals, by SRC instance (R145). -/
  pends : List (Nat × Int)
  /-- The RAMPI instance of a GRID port, whose START input the guard sees (R168). -/
  ramp : Option Nat
  /-- The clamped effort: instance, output, limit (R201). -/
  effort : Option (Nat × Nat × Word)
  deriving DecidableEq, Repr

/-- A word as the evaluation reads it: its own bank first, then engine-local memory (R139). -/
def Work.word (w : Work) (s : State) (x : EvCtx) (o : Nat) : Word := (lookupKey o w.ws).getD (readEng s x.v x.c o)

def Work.put (w : Work) (o : Nat) (y : Word) : Work := { w with ws := insertKey o y (eraseKey o w.ws) }

def Work.puts (w : Work) (o : Nat) : List Word → Work
  | [] => w
  | y :: ys => (w.put o y).puts (o + 1) ys

/-- What input `i` of an instance reads: value in the input's format, VALID, connected. A reference to an instance not yet
evaluated reads the last commit, zero and VALID before the first (R36); an unconnected input reads 0, VALID (R108). -/
def readInput (s : State) (x : EvCtx) (w : Work) (d : InstDef) (i : Nat) : Word × Bool × Bool :=
  match nth d.ins i none with
  | none => (0, true, false)
  | some (j, o) =>
    match findInst x.g j with
    | none => (0, false, true)
    | some sd =>
      let raw := w.word s x (sd.outOff + o)
      let ok := match lookupKey j w.vs with
        | some b => bitOf b o
        | none => !x.g.committed || bitOf (readEng s x.v x.c (sd.desc + 3)).toNat o
      let y := match outFmt sd.btype sd.pars o, inFmt d.btype i with
        | .q, .f => F32.ofQ15 (qOf raw)
        | .f, .q => qWord (F32.toQ15 raw)
        | .f, .f => F32.flush raw
        | .q, .q => raw
      (y, ok, true)

/-- VALID bits of a list of outputs. -/
def validBits : List Bool → Nat
  | [] => 0
  | b :: bs => boolNat b + 2 * validBits bs

/-- Write an instance's results: state words, outputs with their VALID bits, and the clamp of the effort (R201). -/
def finish (x : EvCtx) (w : Work) (i : Nat) (d : InstDef) (st outs : List Word) (ok : List Bool) (seen : Bool) : Work :=
  let outs := match x.effort with
    | some (e, o, lim) =>
      if e = i then modNth outs o (fun y => fclamp y (fneg lim) lim) else outs
    | none => outs
  let w := (w.puts d.stOff st).puts d.outOff outs
  { w with vs := w.vs ++ [(i, validBits ok)], seen := w.seen ++ [seen] }

/-- The outputs hold their previous values with VALID clear; flags that are always VALID stay so (R106). -/
def hold (x : EvCtx) (w : Work) (i : Nat) (d : InstDef) (st prev : List Word) (seen : Bool) : Work :=
  finish x w i d st prev ((List.range prev.length).map (alwaysValid d.btype)) seen

/-- No state word or output is NaN or infinite (R103). -/
def allFinite (d : InstDef) (st outs : List Word) : Bool :=
  (List.range st.length).all (fun j => !floatState d.btype j || F32.finite (nth st j 0))
    && (List.range outs.length).all (fun o => outFmt d.btype d.pars o = .q || F32.finite (nth outs o 0))

/-- The state words of a block's results with subnormal numbers flushed to zero (R103). -/
def flushState (d : InstDef) (st : List Word) : List Word :=
  (List.range st.length).map (fun j => if floatState d.btype j then F32.flush (nth st j 0) else nth st j 0)

/-- The same for its outputs. -/
def flushOuts (d : InstDef) (outs : List Word) : List Word :=
  (List.range outs.length).map (fun o => if outFmt d.btype d.pars o = .q then nth outs o 0 else F32.flush (nth outs o 0))

/-- Results with every output VALID, unless a number is not finite: then all holds and one event is logged (R103). -/
def conclude (x : EvCtx) (w : Work) (i : Nat) (d : InstDef) (old prev st outs : List Word) (seen0 seen : Bool) : Work :=
  if allFinite d st outs then finish x w i d (flushState d st) (flushOuts d outs) (outs.map (fun _ => true)) seen
  else
    let w := hold x w i d old prev seen0
    { w with events := w.events ++ [(0x0904, i)] }

/-! ## Blocks with rules of their own for validity -/

def capOf (x : EvCtx) (i : Nat) : Cap := (x.ev.caps.find? (fun c => c.inst == i)).getD ⟨i, 0, 0, false, true⟩

/-- SRC (R110): a speculative evaluation reads the prediction, VALID (R137). -/
def srcRead (x : EvCtx) (i : Nat) : Int × Bool :=
  let c := capOf x i
  if x.ev.mode = .spec then
    match (List.range x.g.preds.length).find? (fun p => (x.g.preds[p]?.map (fun q => q.inst)) == some i) with
    | some p => (nth x.ev.xhat p 0, true)
    | none => (c.x, c.ok)
  else (c.x, c.ok)

/-- SETP's measurement from its capture (R112): a pin's period and high time in PT, or an auxiliary channel's Q15 value. -/
def setpMeasure (cfg : Nat) (c : Cap) : Word :=
  if bitOf cfg 0 then F32.ofQ15 c.x
  else if bitOf cfg 1 then fconst c.y c.x.toNat
  else fconst 500000000 c.x.toNat

/-- SETP (R112). The state words hold Y, the count of good values, which stops at 3, and LOS.
(DESIGN CHOICE: notes/assumptions/21.md.) -/
def kSetp (e : KEnv) (p st : List Word) (c : Cap) (seen : Bool) : List Word × List Word × Bool :=
  let cfg := (nth p 0 0).toNat
  let inLo := nth p 1 0
  let inHi := nth p 2 0
  let outLo := nth p 3 0
  let outHi := nth p 4 0
  let slew := nth p 5 0
  let dflt := nth p 6 0
  let span := fsub inHi inLo
  let margin := fdiv span (F32.ofNat 8)
  let m := setpMeasure cfg c
  let los := !c.ok || flt m (fsub inLo margin) || flt (fadd inHi margin) m
  let was := nth st 2 0 != 0
  let good := if los then 0 else min ((nth st 1 0).toNat + 1) 3
  let away := los || (good < 3 && was)
  let target := if away then dflt
    else fadd outLo (fdiv (fmul (fsub (fclamp m inLo inHi) inLo) (fsub outHi outLo)) span)
  let y := if seen then nth st 0 0 else dflt
  let lim := fmul slew e.ts
  let y := if los && bitOf cfg 16 then dflt else if F32.isZero slew then target
    else fadd y (fclamp (fsub target y) (fneg lim) lim)
  ([y, BitVec.ofNat 32 good, BitVec.ofNat 32 (boolNat away)], [y, fflag away], away && !was)

/-- MON's condition (R120). -/
def monTrips (mode : Nat) (a r thr : Word) : Bool :=
  match mode with
  | 0 => flt thr (fabs (fsub a r))
  | 1 => flt thr (fsub a r)
  | _ => flt thr (fsub r a)

/-- The period PWMOUT writes (R211), and whether it was clamped. -/
def pwmPeriod (s : State) (v : Vat) (p : Nat) (per : Word) : Nat × Bool :=
  let unit := fconst (if s.is (R.PORT_CARCFG_MODE v p) then 2 else 4) 1000000000
  let n := F32.toInt (fdiv per unit) 0
  let lo := s.rd (R.PORT_PERLIM_PERMIN v p)
  let hi := s.rd (R.PORT_PERLIM_PERMAX v p)
  let m := clampInt lo hi n
  (m.toNat, m != n)

/-- The shadow writes of one PWMOUT (R117, R212): the duties of the connected slots, and a primary's period. -/
def pwmWrites (s : State) (v : Vat) (d : InstDef) (ins : List (Word × Bool × Bool)) : List ShadowWrite × List Nat :=
  let p := (nth d.pars 0 0).toNat % 8
  let duties := (List.range 4).filterMap (fun k =>
    let i := nth ins k (0, true, false)
    match slotLeg s v p k with
    | some n => if i.2.2 then some (ShadowWrite.duty n (qOf i.1).toNat) else none
    | none => none)
  if isSecondary s v p then (duties, []) else
    let per := nth ins 4 (0, true, false)
    if per.2.2 then
      let r := pwmPeriod s v p per.1
      (duties ++ [.period p r.1], if r.2 then [p] else [])
    else (duties ++ [.period p (s.rd (R.PORT_PERIOD_PERIOD v p))], [])

/-- A write of the primary's set comes before those of the secondary (R213). -/
def orderWrites (primary secondary : List ShadowWrite) : List ShadowWrite := primary ++ secondary

/-! ## One instance -/

/-- Evaluate instance number `i`. A MON whose connected MOVE is not VALID reads MOVE as TRUE (R120) and evaluates with FLT
VALID, where R106 would hold it. (DESIGN CHOICE: notes/assumptions/21.md.) -/
def evalInst (s : State) (x : EvCtx) (w : Work) (i : Nat) (d : InstDef) : Work :=
  let nst := stateWords d.btype d.pars
  let st := (List.range nst).map (fun j => w.word s x (d.stOff + j))
  let prev := (List.range (outCount d)).map (fun j => w.word s x (d.outOff + j))
  let seen := nth x.g.seen (i - x.g.first) false
  let ins := (List.range d.ins.length).map (readInput s x w d)
  let vals := ins.map (fun q => q.1)
  let ok (j : Nat) : Bool := (nth ins j (0, true, false)).2.1
  let all := ins.all (fun q => q.2.1)
  match d.btype with
  | 0x0D =>
    let j := if ftrue (nth vals 0 0) then 1 else 2
    if ok 0 && ok j then finish x w i d st [nth vals j 0] [true] seen else hold x w i d st prev seen
  | 0x26 =>
    let c := capOf x i
    if c.ok then
      let r := kPosin x.env d.pars st c.x.toNat c.y
      conclude x w i d st prev r.1 (r.2 ++ [fflag true]) seen true
    else hold x w i d st [nth prev 0 0, nth prev 1 0, fflag false] seen
  | 0x27 =>
    let r := srcRead x i
    if r.2 then finish x w i d st [qWord r.1, qFlag true] [true, true] seen
    else hold x w i d st [nth prev 0 0, qFlag false] seen
  | 0x28 =>
    let c := capOf x i
    if c.ok then finish x w i d st [qWord c.x, qFlag true] [true, true] seen
    else hold x w i d st [nth prev 0 0, qFlag false] seen
  | 0x29 =>
    let r := kSetp x.env d.pars st (capOf x i) seen
    let t := conclude x w i d st prev r.1 r.2.1 seen true
    if r.2.2 && allFinite d r.1 r.2.1 then { t with events := t.events ++ [(0x0905, i)] } else t
  | 0x2A =>
    let onInput (k : Nat) : List Int := match nth d.ins k none with
      | some (j, 0) => (lookupKey j x.pends).toList
      | _ => []
    let iPrev := pidFold d.pars st (onInput 0) (onInput 1)
    if all then
      let r := kPid d.pars st iPrev (qOf (nth vals 0 0)) (qOf (nth vals 1 0)) (qOf (nth vals 2 0))
      finish x w i d r.1 r.2 [true, true] seen
    else hold x w i d (accWords iPrev ++ st.drop 2) prev seen
  | 0x32 =>
    let w := { w with vs := w.vs ++ [(i, 0)], seen := w.seen ++ [seen] }
    if all then
      let r := pwmWrites s x.v d ins
      if (nth d.pars 0 0).toNat % 8 = x.port then
        { w with writes := orderWrites r.1 w.writes, clamped := w.clamped ++ r.2 }
      else { w with writes := orderWrites w.writes r.1, clamped := w.clamped ++ r.2 }
    else { w with invout := true }
  | 0x33 =>
    let st := if seen then st else [if ok 2 then nth vals 2 0 else omega0 (nth d.pars 3 0), 0, 0]
    if all then
      let r := kVsm x.env.ts d.pars st vals
      conclude x w i d st prev r.1 r.2 true true
    else hold x w i d st prev true
  | 0x38 =>
    if all then
      let r := kSync x.env d.pars st vals
      { conclude x w i d st prev r.1 r.2.1 seen seen with dead := some r.2.2 }
    else { hold x w i d [nth st 0 0, 0] [nth prev 0 0, fflag false] seen with dead := some false }
  | 0x3F =>
    let cfg := (nth d.pars 0 0).toNat
    let q := cfg / 2 ^ 16 % 128
    let mv := nth ins 2 (0, true, false)
    let w := if q = 0x7F then w else { w with moves := w.moves ++ [(q, !mv.2.2 || !mv.2.1 || ftrue mv.1)] }
    if ok 0 && ok 1 then
      let n := if monTrips (cfg % 4) (nth vals 0 0) (nth vals 1 0) (nth d.pars 1 0)
        then min ((nth st 0 0).toNat + 1) 255 else 0
      finish x w i d [BitVec.ofNat 32 n] [fflag (n != 0 && cfg / 256 % 256 ≤ n)] [true] seen
    else hold x w i d st prev seen
  | bt =>
    let marks := bt = 0x37 || bt = 0x39
    let pars := if bt = 0x00 then [nth d.pars 0 0, BitVec.ofNat 32 (capOf x i).x.toNat] else d.pars
    if all then
      match kernel x.env bt pars vals st prev seen with
      | some r => conclude x w i d st prev r.1 r.2 seen true
      | none => hold x w i d st prev seen
    else hold x w i d st prev (seen || marks)

/-- The guard's view of START, as the RAMPI instance reads it (R168). -/
def noteStart (s : State) (x : EvCtx) (w : Work) (i : Nat) (d : InstDef) : Work :=
  if x.ramp = some i then { w with start := ftrue (readInput s x w d 0).1 } else w

/-- Evaluate the instances of a graph in execution order, from number `i`. -/
def evalAll (s : State) (x : EvCtx) (w : Work) (i : Nat) : List InstDef → Work
  | [] => w
  | d :: ds => evalAll s x (evalInst s x (noteStart s x w i d) i d) (i + 1) ds

/-! ## The surroundings -/

def nominalHz (s : State) (v : Vat) (p : Nat) : Nat := if s.is (R.GRID_CFG_FSEL v p) then 60 else 50

/-- The drive guard acts on the port (R193). -/
def drivePort (s : State) (v : Vat) (p : Nat) : Bool :=
  s.is (R.PORT_CFG_TYPE v p) && s.rd (R.PORT_CFG_TYPE v p) != 1 && !isSecondary s v p

def gridPort (s : State) (v : Vat) (p : Nat) : Bool := s.rd (R.PORT_CFG_TYPE v p) == 1

def kenvOf (s : State) (v : Vat) (p : Nat) (ev : EvalSt) : KEnv :=
  { ts := ev.ts, tickPt := ev.tickPt, restrict := s.is R.WHL_STAT_RESTRICT
    dfr := BitVec.ofNat 32 (s.rd (R.GRID_DFR_VAL v p)), fnom := nominalHz s v p
    vnom := BitVec.ofNat 32 (s.rd (R.GRID_VNOM_VAL v p)), bsen := s.is (R.GRID_CFG_BSEN v p)
    tdb := s.rd (R.GRID_CFG_TDB v p), deadlv := s.rd (R.GRID_CFG_DEADLV v p)
    period := ev.period, mode1 := s.is (R.PORT_CARCFG_MODE v p), tables := s.whl.tables }

/-- The residuals that wait for fold-in (R145). -/
def pendsOf (s : State) (v : Vat) (c k : Nat) (g : GraphSt) : List (Nat × Int) :=
  (List.range g.preds.length).filterMap (fun p =>
    match g.preds[p]? with
    | some d => if d.fold then some (d.inst, s.signedRd (R.WE_TOL_PEND v c k p)) else none
    | none => none)

def ctxOf (s : State) (v : Vat) (c k : Nat) (ev : EvalSt) : EvCtx :=
  let g := getSlot s v c k
  let p := s.rd (R.GS_BIND_PORT v c k)
  { v, c, g, ev, env := kenvOf s v p ev, port := p, pends := pendsOf s v c k g
    ramp := if gridPort s v p then some (s.rd (R.GRID_INST_RAMPI v p)) else none
    effort := if s.is R.WHL_STAT_RESTRICT && drivePort s v p then
        some (s.rd (R.DRV_INST_EFFI v p), s.rd (R.DRV_INST_EFFO v p),
          fmul (fconst 5 100) (BitVec.ofNat 32 (s.rd (R.DRV_RATING_VAL v p))))
      else none }

/-- The results of an evaluation over the committed state. -/
def evaluate (s : State) (v : Vat) (c k : Nat) (ev : EvalSt) : Work :=
  let x := ctxOf s v c k ev
  evalAll s x {} x.g.first x.g.defs

end Sys2Proof.Machine
end

