-- ==== Sys2Proof/Machine/Guards.lean ====
section
/-! DEFINITION. The grid guard (07_grid_forming.md R162-R168), the drive guard (08_traction_and_dc.md R193-R202) and
restoration at its receivers (R177-R179) of one vat. -/

namespace Sys2Proof.Machine

open Sys2Proof

def getGuard (s : State) (v : Vat) (p : Nat) : GuardSt := nth (s.vat v).guards p {}

/-! ## Feedback channels -/

/-- The enabled channels of a GRID feedback register: byte `i` holds a channel and its enable. -/
def byteChans (s : State) (a n : Nat) : List Nat :=
  (List.range n).filterMap (fun i => if s.is ⟨a, 8 * i + 7, 1⟩ then some (s.rd ⟨a, 8 * i, 6⟩) else none)

/-- The channels of a pair of mask registers. -/
def maskChans (s : State) (lo hi : Nat) : List Nat :=
  (List.range 64).filter (fun n => if n < 32 then s.is ⟨lo, n, 1⟩ else s.is ⟨hi, n - 32, 1⟩)

def voltChans (s : State) (v : Vat) (p : Nat) : List Nat :=
  if gridPort s v p then byteChans s (R.GRID_VCH v p) 3
  else if drivePort s v p then maskChans s (R.DRV_VMASK_LO v p) (R.DRV_VMASK_HI v p) else []

def currChans (s : State) (v : Vat) (p : Nat) : List Nat :=
  if gridPort s v p then byteChans s (R.GRID_ICH v p) 4
  else if drivePort s v p then maskChans s (R.DRV_IMASK_LO v p) (R.DRV_IMASK_HI v p) else []

/-! ## Rides -/

def obsAllowance (s : State) (v : Vat) (p : Nat) : Nat := rideSeconds s (s.rd (R.DRV_OBST_OBSTIME v p))

/-- A current channel of the port is lost (R166, R195). -/
def currentLoss (s : State) (v : Vat) (p : Nat) : State :=
  let f := if gridPort s v p then R.GRID_STAT_ILOSS_F v p else R.DRV_STAT_ILOSS_F v p
  enterFaultPattern (s.vatFlagEdge v uGUARD f) v p causeIFBLOSS

/-- A voltage channel of the port is lost (R164, R195). -/
def voltageLoss (s : State) (v : Vat) (p : Nat) : State :=
  if !gridPort s v p then enterFaultPattern (s.vatFlagEdge v uGUARD (R.DRV_STAT_VLOSS_F v p)) v p causeVFBLOSS
  else if !s.is (R.GRID_CFG_OLEN v p) then
    enterFaultPattern (s.vatFlagEdge v uGUARD (R.GRID_STAT_VLOSS_F v p)) v p causeVFBLOSS
  else if s.is (R.GRID_STAT_OL v p) then s
  else
    let t := olAllowance s v p
    let s := (s.set1 (R.GRID_STAT_OL v p)).vatFlagEdge v uGUARD (R.GRID_STAT_VLOSS_F v p)
    modGuard (s.wr (R.GRID_STAT_OL_LEFT v p) (t * 10)) v p (fun g => { g with olPt := t * 500000000 })

/-- The feedback test over the channels that `lost` names: a current loss acts before a voltage loss (R202).
(DEDUCED: notes/assumptions/25.md.) -/
def feedbackTest (s : State) (v : Vat) (p : Nat) (lost : Nat → Bool) : State :=
  if portState s v p != RUN then s
  else if (currChans s v p).any lost then currentLoss s v p
  else if (voltChans s v p).any lost then voltageLoss s v p
  else s

/-- An arrival sample of channel `n` is found absent: the guard of the port tests it (R164, R166, R195), whatever has become of
the evaluation it was for. -/
def arrivalLoss (s : State) (v : Vat) (p n : Nat) : State :=
  let s := if (voltChans s v p).contains n then modGuard s v p (fun g => { g with okTick := false }) else s
  feedbackTest s v p (fun m => m == n)

/-! ## Position feedback (R196-R198) -/

/-- The committed output of the port's graph that a register names. -/
def portOut (s : State) (v : Vat) (p i o : Nat) : Word × Bool :=
  match portGraph s v p with
  | some (c, k) => committedF s v c (getSlot s v c k) i o
  | none => (0, false)

def startZr (s : State) (v : Vat) (p : Nat) : State :=
  (s.clr (R.DRV_STAT_OBS v p)).set1 (R.DRV_STAT_ZR v p)

def observerSpeed (s : State) (v : Vat) (p : Nat) : Word × Bool :=
  portOut s v p (s.rd (R.DRV_INST_WOI v p)) (s.rd (R.DRV_INST_WOO v p))

def wsw (s : State) (v : Vat) (p : Nat) : Word := BitVec.ofNat 32 (s.rd (R.DRV_WSW_VAL v p))

def positionLoss (s : State) (v : Vat) (p : Nat) : State :=
  if s.is (R.DRV_STAT_OBS v p) || s.is (R.DRV_STAT_ZR v p) then s else
    let s := s.vatFlagEdge v uGUARD (R.DRV_STAT_PLOSS_F v p)
    let w := observerSpeed s v p
    if s.is (R.DRV_CFG_OBSEN v p) && w.2 && fle (wsw s v p) (fabs w.1) then
      let t := obsAllowance s v p
      modGuard ((s.set1 (R.DRV_STAT_OBS v p)).wr (R.DRV_STAT_OBS_LEFT v p) (t * 10)) v p
        (fun g => { g with obsPt := t * 500000000 })
    else startZr s v p

/-! ## At a tick -/

def gridTick (s : State) (v : Vat) (p : Nat) : State :=
  let s := modGuard s v p (fun g => { g with okTick := (voltChans s v p).all (chanValid s v) })
  feedbackTest s v p (fun n => !chanValid s v n)

def driveTick (s : State) (v : Vat) (p : Nat) : State :=
  let ok := s.is (R.POS_STAT_VALID v (s.rd (R.DRV_CFG_PSRC v p)))
  let s := modGuard s v p (fun g => { g with okTick := ok })
  let s := feedbackTest s v p (fun n => !chanValid s v n)
  if portState s v p = RUN && s.is (R.DRV_CFG_PEN v p) && !ok then positionLoss s v p else s

/-- The guard of a port at its tick. -/
def guardTick (s : State) (v : Vat) (p : Nat) : State :=
  if gridPort s v p then gridTick s v p else if drivePort s v p then driveTick s v p else s

/-! ## At a commit -/

/-- |EFF| ≤ EZERO, whatever the output's VALID bit (R198, R200). -/
def effortIsZero (s : State) (v : Vat) (p : Nat) : Bool :=
  let e := portOut s v p (s.rd (R.DRV_INST_EFFI v p)) (s.rd (R.DRV_INST_EFFO v p))
  fle (fabs e.1) (BitVec.ofNat 32 (s.rd (R.DRV_EZERO_VAL v p)))

/-- The graph trip (R167, R199). -/
def graphTripped (s : State) (v : Vat) (p : Nat) : Bool :=
  let t (i o : Nat) : Bool := let r := portOut s v p i o; r.2 && ftrue r.1
  if gridPort s v p then
    s.is (R.GRID_INST_TRIP_EN v p) && t (s.rd (R.GRID_INST_TRIPI v p)) (s.rd (R.GRID_INST_TRIPO v p))
  else if drivePort s v p then
    s.is (R.DRV_OBST_TRIP_EN v p) && t (s.rd (R.DRV_OBST_TRIPI v p)) (s.rd (R.DRV_OBST_TRIPO v p))
  else false

/-- The observer ride at a commit (R197): it ends below 0.9 WSW, or where the observer's speed is not VALID. -/
def observerCommit (s : State) (v : Vat) (p : Nat) : State :=
  let w := observerSpeed s v p
  if s.is (R.DRV_STAT_OBS v p) && (!w.2 || flt (fabs w.1) (fmul (fconst 9 10) (wsw s v p))) then startZr s v p else s

/-- The stop ramp is complete at this commit (R168, R200): RAMPI read START FALSE in it and DONE is TRUE. -/
def stopRampDone (s : State) (v : Vat) (p : Nat) : Bool :=
  if gridPort s v p then
    match portGraph s v p with
    | some (c, k) =>
      let g := getSlot s v c k
      let i := s.rd (R.GRID_INST_RAMPI v p)
      (findInst g i).isSome && !g.start && committedFlag s v c g i 1
    | none => true
  else effortIsZero s v p

/-- The guards judge a commit of the port's graph: a graph trip before a completed zero-effort ramp (R202). -/
def guardCommit (s : State) (v : Vat) (p : Nat) : State :=
  let s := modPort s v p (fun q => { q with stopDone := !runOrdered s v p && stopRampDone s v p })
  if portState s v p != RUN then s
  else if graphTripped s v p then
    let f := if gridPort s v p then R.GRID_STAT_GTRIP_F v p else R.DRV_STAT_GTRIP_F v p
    enterFaultPattern (s.vatFlagEdge v uGUARD f) v p causeGRAPHTRIP
  else if drivePort s v p then
    let s := observerCommit s v p
    if s.is (R.DRV_STAT_ZR v p) && effortIsZero s v p then enterFaultPattern s v p causePFBLOSS else s
  else s

/-! ## Commands -/

/-- OL_LEFT has reached zero (R164). -/
def execOpenLoopTimeout (v : Vat) (p : Fin 8) (s : State) : Host.Outcome State Fault Refusal :=
  .next (settle (if s.vatLive v && s.is (R.GRID_STAT_OL v p.val) then
    restoreOl (enterFaultPattern (s.vatFlag v uGUARD (R.GRID_STAT_OLEXP_F v p.val)) v p.val causeVFBTIMEOUT) v p.val
    else s))

/-- The voltage channels have been VALID at every tick for 100 ms (R165). -/
def execOpenLoopRecovery (v : Vat) (p : Fin 8) (s : State) : Host.Outcome State Fault Refusal :=
  .next (settle (if s.vatLive v && s.is (R.GRID_STAT_OL v p.val) && (getGuard s v p.val).okTick then
    restoreOl (s.clr (R.GRID_STAT_OL v p.val)) v p.val else s))

def execObserverRideTimeout (v : Vat) (p : Fin 8) (s : State) : Host.Outcome State Fault Refusal :=
  .next (settle (if s.vatLive v && s.is (R.DRV_STAT_OBS v p.val) then
    modGuard ((startZr (s.vatFlag v uGUARD (R.DRV_STAT_OBSEXP_F v p.val)) v p.val).wr (R.DRV_STAT_OBS_LEFT v p.val) 0) v p.val
      (fun g => { g with obsPt := 0 })
    else s))

/-- The position input has been VALID at every capture for 100 ms (R197). -/
def execObserverRideRecovery (v : Vat) (p : Fin 8) (s : State) : Host.Outcome State Fault Refusal :=
  .next (settle (if s.vatLive v && s.is (R.DRV_STAT_OBS v p.val) && (getGuard s v p.val).okTick then
    modGuard (s.clr (R.DRV_STAT_OBS v p.val)) v p.val (fun g => { g with obsPt := 0 }) else s))

/-- TZR has passed since ZR set (R198). -/
def execZeroEffortTimeout (v : Vat) (p : Fin 8) (s : State) : Host.Outcome State Fault Refusal :=
  .next (settle (if s.vatLive v && s.is (R.DRV_STAT_ZR v p.val) then
    enterFaultPattern (s.vatFlag v uGUARD (R.DRV_STAT_ZRTO_F v p.val)) v p.val causePFBLOSS else s))

/-! ## Restoration (R177-R179) -/

/-- A restoration frame's fields (R176); `apply` is in ns of NT, `applyPt` the same instant in PT (R340), `df` in µHz. -/
structure RestFrame where
  setId : Nat
  srcId : Nat
  seq : Nat
  apply : Nat
  applyPt : Nat
  df : Int
  deriving DecidableEq, Repr

/-- An accepted frame (R177, R179). A frame refused between two accepted ones does not part them, nor does time while RLIVE is 0.
(DESIGN CHOICE: notes/assumptions/73.md.) -/
def acceptRest (s : State) (v : Vat) (p : Nat) (f : RestFrame) : State :=
  let n := (getGuard s v p).inRow + 1
  let again := !s.is (R.GRID_RSTAT_RLIVE v p) && 2 ≤ n
  let s := modGuard (s.incWrap (R.GRID_RSTAT_RXCNT v p)) v p (fun g => { g with
    lastRx := some (f.srcId, f.seq), pend := g.pend ++ [(f.applyPt, f.df)], inRow := min n 2, slewing := g.slewing || again })
  if again then s.set1 (R.GRID_RSTAT_RLIVE v p) else s

/-- SEQ is newer than the last accepted one (R177). -/
def newerSeq (a b : Nat) : Bool :=
  let d := (b + 2 ^ 16 - a) % 2 ^ 16
  1 ≤ d && d ≤ 32767

/-- A frame of another source than the one accepted last (R178). -/
def otherSource (s : State) (v : Vat) (p : Nat) (f : RestFrame) : Bool :=
  match (getGuard s v p).lastRx with
  | some (src, _) => src != f.srcId
  | none => false

/-- The frame's place in order: its SEQ is newer than the last accepted one (R177), and while that one's source keeps RLIVE set
no higher SRC_ID is accepted (R178). -/
def restOrder (s : State) (v : Vat) (p : Nat) (f : RestFrame) : Bool :=
  match (getGuard s v p).lastRx with
  | none => true
  | some (src, q) => newerSeq q f.seq && (f.srcId ≤ src || !s.is (R.GRID_RSTAT_RLIVE v p))

/-- One port receives a restoration frame (R177, R178). A late frame counts as not accepted, and is judged late only where its SEQ is
newer and network time is synchronised; every frame of a second source logs its event. (DESIGN CHOICE: notes/assumptions/73.md.) -/
def receiveRest (s : State) (v : Vat) (p : Nat) (f : RestFrame) : State :=
  if !gridPort s v p || !s.is (R.GRID_REST_REN v p) || f.setId != s.rd (R.GRID_SET_SET_ID v p) then s else
    let s := if otherSource s v p f then s.vatFlagEdge v uGUARD (R.GRID_RSTAT_RCONF_F v p) else s
    if !s.is R.NT_STAT_SYNC || !restOrder s v p f then s
    else if f.apply < s.nt then s.vatFlag v uGUARD (R.GRID_RSTAT_RLATE_F v p)
    else if f.apply - s.nt ≤ 2 * s.rd (R.GRID_PER_PER v p) * 1000000 then acceptRest s v p f
    else s

/-- An NT instant as a PT instant, extrapolated from the latest two internal captures and rounded up (R340).
(DEDUCED: notes/assumptions/73.md.) -/
def ntToPt (s : State) (t : Nat) : Option Nat :=
  match s.time.caps with
  | (n1, p1) :: (n0, p0) :: _ =>
    if n1 ≤ n0 then none
    else some ((p1 : Int) - (((n1 : Int) - t) * ((p1 : Int) - p0)) / ((n1 - n0 : Nat) : Int)).toNat
  | _ => none

/-- The frame enters the common domain once, and both vats receive it with one apply instant (R177). Without two captures in
order the conversion is not stated: a free value (notes/assumptions/1.md). -/
def receiveRestAll (s : State) (f : RestFrame) : State :=
  let t := ntToPt s f.apply
  let f := { f with applyPt := t.getD (s.pt + s.freeVal.toNat) }
  let s := if t.isNone then s.useFree else s
  forVats s (fun s v => if s.vatLive v then forN 8 s (fun s p => receiveRest s v p f) else s)

/-- Restoration is lost at a port (R179): offsets that still wait for their apply instant are dropped.
(DESIGN CHOICE: notes/assumptions/73.md.) -/
def loseRest (s : State) (v : Vat) (p : Nat) : State :=
  if s.is (R.GRID_RSTAT_RLIVE v p) then
    modGuard ((s.clr (R.GRID_RSTAT_RLIVE v p)).vatFlagEdge v uGUARD (R.GRID_RSTAT_RLOSS_F v p)) v p
      (fun g => { g with inRow := 0, slewing := false, target := none, pend := [] })
  else s

def loseRestAll (s : State) : State :=
  forVats s (fun s v => if s.vatLive v then forN 8 s (fun s p => loseRest s v p) else s)

def execRestorationLoss (p : Fin 8) (s : State) : Host.Outcome State Fault Refusal :=
  .next (settle (forVats s (fun s v => if s.vatLive v then loseRest s v p.val else s)))

/-- A received offset in Hz. -/
def dfHz (df : Int) : Word :=
  let m := F32.ofRat df.natAbs 1000000
  if df < 0 then fneg m else m

/-- DFR moves towards a goal by at most RDECAY × TS (R179). -/
def slewDfr (s : State) (v : Vat) (p : Nat) (ts goal : Word) : Word :=
  let now : Word := BitVec.ofNat 32 (s.rd (R.GRID_DFR_VAL v p))
  let lim := fmul (fdiv (F32.ofNat (s.rd (R.GRID_REST_RDECAY v p))) (F32.ofNat 100)) ts
  fadd now (fclamp (fsub goal now) (fneg lim) lim)

/-- DFR at a tick: offsets whose apply instant has come (R177), the slew to 0 and back (R179). The slew back begins when a frame's offset
applies, and ends where it reaches one. -/
def dfrTick (s : State) (v : Vat) (p : Nat) (ts : Word) : State :=
  if !gridPort s v p || !s.is (R.GRID_REST_REN v p) then s else
    let g := getGuard s v p
    let due := g.pend.filter (fun e => decide (e.1 ≤ s.pt))
    let now : Word := BitVec.ofNat 32 (s.rd (R.GRID_DFR_VAL v p))
    let target := (due.getLast?.map (fun e => dfHz e.2)).or g.target
    let dfr :=
      if !s.is (R.GRID_RSTAT_RLIVE v p) then slewDfr s v p ts 0
      else if g.slewing then (target.map (slewDfr s v p ts)).getD now
      else if due = [] then now else target.getD now
    let s := s.wr (R.GRID_DFR_VAL v p) dfr.toNat
    modGuard s v p (fun g => { g with
      pend := g.pend.filter (fun e => decide (s.pt < e.1)), target
      slewing := g.slewing && s.is (R.GRID_RSTAT_RLIVE v p) && !target.any (fun t => F32.isZero (fsub dfr t)) })

end Sys2Proof.Machine
end

