-- ==== Sys2Proof/Machine/Engine.lean ====
section
/-! DEFINITION. The control engines' running (05_control_engines.md R95-R100, R121-R126, R470) and run-ahead
(06_run_ahead.md R131-R146): selection at the tick, readiness and scheduling, the verdict, the commit, the squash, deadlines,
retirement and migration. -/

namespace Sys2Proof.Machine

open Sys2Proof

/-! ## Small operations -/

/-- The firewall has frozen engine `c` (R124): bus master `c` of the vat. -/
def engFrozen (s : State) (v : Vat) (c : Nat) : Bool := s.rdBit (R.FW_FROZEN_FROZEN v) c

def engRetired (s : State) (v : Vat) (c : Nat) : Bool := s.rd (R.CE_STAT_STATE v c) == 3

/-- The engine computes: live vat, neither frozen nor retired. -/
def engRuns (s : State) (v : Vat) (c : Nat) : Bool := s.vatLive v && !engFrozen s v c && !engRetired s v c

/-- Change the first evaluation of a slot that satisfies a condition. -/
def modFirst (q : EvalSt → Bool) (f : EvalSt → EvalSt) : List EvalSt → List EvalSt
  | [] => []
  | e :: es => if q e then f e :: es else e :: modFirst q f es

def dropFirst (q : EvalSt → Bool) : List EvalSt → List EvalSt
  | [] => []
  | e :: es => if q e then es else e :: dropFirst q es

def modEvals (s : State) (v : Vat) (c k : Nat) (f : List EvalSt → List EvalSt) : State :=
  modSlot s v c k (fun g => { g with evals := f g.evals })

/-- The evaluation holds a bank of the whey buffer (R139). -/
def EvalSt.holds (e : EvalSt) : Bool := e.phase == .running || e.phase == .ended || e.phase == .committing

/-- The evaluation is open (R137): started, a re-run from its squash on (R142), and not yet committed or abandoned. -/
def EvalSt.isOpen (e : EvalSt) : Bool := e.holds || e.mode == .rerun

/-- PHASE of an evaluation (WHEYc). -/
def EvalSt.code (e : EvalSt) : Nat :=
  match e.phase with
  | .waiting | .ready => if e.mode == .rerun then 4 else 0
  | .running => match e.mode with | .spec => 1 | .plain => 3 | .rerun => 4
  | .ended => 2
  | .committing => 5

/-- The whey window's view of a slot (R150): the newest open evaluation; BANK is that of the newest which holds a bank, or of
the latest commit. -/
def refreshWhey (s : State) (v : Vat) (c k : Nat) : State :=
  let g := getSlot s v c k
  let s := s.wr (R.WHEY_STAT_BANK v c k) (((g.evals.filter EvalSt.holds).getLast?.map (fun e => e.bank)).getD g.lastBank)
  let e := (g.evals.filter EvalSt.isOpen).getLast?
  let s := s.wr (R.WHEY_STAT_PHASE v c k) ((e.map EvalSt.code).getD 0)
  match e with
  | some e => ((s.set1 (R.WHEY_STAT_SPEC v c k)).wr (R.WHEY_TICK_TICK v c k) e.tick).set1 (R.WHEY_TICK_SPEC v c k)
  | none => ((s.clr (R.WHEY_STAT_SPEC v c k)).wr (R.WHEY_TICK_TICK v c k) (s.rd (R.GS_TICK_VAL v c k))).clr (R.WHEY_TICK_SPEC v c k)

/-- XHAT is no longer that of an open evaluation: its verdict has come, or it is abandoned. -/
def closeXhat (s : State) (v : Vat) (c k : Nat) : State :=
  forN (getSlot s v c k).preds.length s (fun s p => s.clr (R.WE_XHAT_SPEC v c k p))

/-! ## Scheduling (R100, R139) -/

/-- The slot in which an evaluation runs. -/
def runningSlot (s : State) (v : Vat) (c : Nat) : Option Nat :=
  (List.range 4).find? (fun k => (getSlot s v c k).evals.any (fun e => e.phase == .running))

/-- A free bank of a slot: for a re-run the other bank first (R142). -/
def freeBank (g : GraphSt) (e : EvalSt) : Option Nat :=
  let busy := (g.evals.filter EvalSt.holds).map (fun e => e.bank)
  (if e.mode == .rerun then [1 - e.bank, e.bank] else [0, 1]).find? (fun b => !busy.contains b)

/-- The ready evaluations that have a bank: deadline, slot, bank. -/
def readyList (s : State) (v : Vat) (c : Nat) : List (Nat × Nat × Nat) :=
  (List.range 4).filterMap (fun k =>
    let g := getSlot s v c k
    match g.evals.find? (fun e => e.phase == .ready) with
    | some e => (freeBank g e).map (fun b => (e.deadline, k, b))
    | none => none)

/-- Earliest deadline first, the lower slot at equal deadlines. -/
def earliest : List (Nat × Nat × Nat) → Option (Nat × Nat × Nat)
  | [] => none
  | e :: es =>
    match earliest es with
    | some q => if q.1 < e.1 then some q else some e
    | none => some e

/-- An idle engine takes the next ready evaluation; CEc STATE shows whether one runs. (DEDUCED: notes/assumptions/23.md.) -/
def schedule (s : State) (v : Vat) (c : Nat) : State :=
  if !engRuns s v c then s else
    let s := match runningSlot s v c with
      | some _ => s
      | none =>
        match earliest (readyList s v c) with
        | none => s
        | some (_, k, b) =>
          refreshWhey (modEvals s v c k (modFirst (fun (e : EvalSt) => e.phase == EvPhase.ready)
            (fun (e : EvalSt) => { e with phase := EvPhase.running, bank := b }))) v c k
    s.wr (R.CE_STAT_STATE v c) (boolNat (runningSlot s v c).isSome)

/-! ## Outcomes -/

/-- Only one vat has committed tick `tick` of port `p`: sets that differ by it are no mismatch (R129, R247). -/
def excuseTick (s : State) (p tick : Nat) : State :=
  { s with arb := { s.arb with
    excused := s.arb.excused.filter (fun e => e.1 != p) ++ [(p, tick)], doubts := s.arb.doubts.filter (fun d => d != (p, tick)) } }

/-- An asymmetric miss of vat `w` (R247); `counts` says that its outcome was MISSED. -/
def asymMiss (s : State) (w : Vat) (p tick : Nat) (counts : Bool) : State :=
  let s := ((excuseTick s p tick).set1 R.OWN_MMF_ASYM_F).event 0x04 0x0407 w.code
  if !counts then s else
    let n : Nat := ((s.arb.asym.find? (fun a => a.1 == w && a.2.1 == p)).map (fun a => a.2.2)).getD 0
    let s := { s with arb := { s.arb with
      asym := s.arb.asym.filter (fun a => !(a.1 == w && a.2.1 == p)) ++ [(w, p, min (n + 1) 2)] } }
    if 1 ≤ n then raiseFlt s w 6 else s

/-- Reload decisions that differed by a tick which both vats have committed after all are a mismatch (R246). -/
def settleDoubt (s : State) (p tick : Nat) : State :=
  if !s.arb.doubts.contains (p, tick) then s else
    compareMismatch { s with arb := { s.arb with doubts := s.arb.doubts.filter (fun d => d != (p, tick)) } }
      (.reload (Fin.ofNat 8 p) (BitVec.ofNat 32 tick))

/-- Both vats have committed tick `tick` (R247): the count of asymmetric misses starts again, and the signatures are compared. -/
def compareCommits (s : State) (p tick a b : Nat) : State :=
  let s := settleDoubt { s with arb := { s.arb with asym := s.arb.asym.filter (fun a => a.2.1 != p) } } p tick
  match portGraph s s.viewVat p with
  | some (c, k) => if a = b then s
    else compareMismatch s (.csig (Fin.ofNat 8 c) (Fin.ofNat 4 k) (Fin.ofNat 8 p) (BitVec.ofNat 32 tick))
  | none => s

/-- The outcome of a tick of port `p`'s graph in vat `v`, held until the other vat's comes. -/
def compareOutcome (s : State) (v : Vat) (p tick outcome csig : Nat) : State :=
  if !s.variant.dual then s else
    match s.arb.seen.find? (fun t => t.vat != v && t.port == p && t.tick == tick) with
    | none =>
      { s with arb := { s.arb with
        seen := s.arb.seen.filter (fun t => !(t.vat == v && t.port == p) || t.tick + 1 == tick) ++ [⟨v, p, tick, outcome, csig⟩] } }
    | some t =>
      let s := { s with arb := { s.arb with seen := s.arb.seen.filter (fun t => t.port != p || tick < t.tick) } }
      match t.outcome, outcome with
      | 0, 0 => compareCommits s p tick t.csig csig
      | 0, 1 => asymMiss s v p tick true
      | 1, 0 => asymMiss s v.other p tick true
      | 0, 2 => asymMiss s v p tick false
      | 2, 0 => asymMiss s v.other p tick false
      | _, _ => s

/-- A MISSED outcome (R122, R123, R136, R23). -/
def missed (s : State) (v : Vat) (c k tick : Nat) : State :=
  let p := s.rd (R.GS_BIND_PORT v c k)
  let s := s.wr (R.GS_OUT_OUTCOME v c k) 4
  let s := (s.setBit1 (R.CE_TICKSTAT_MISS_F v c) k).incSat (R.GS_MISSES_VAL v c k)
  let s := s.incSat (R.GS_OUT_MISSRUN v c k)
  let s := s.vatEvent v (uCE c) 0x0901 (c + k * 16 + tick % 65536 * 65536)
  let s := forN (getSlot s v c k).preds.length s (fun s q => s.wr (R.WE_CFG_HIST v c k q) 0)
  let s := if 3 ≤ s.rd (R.GS_OUT_MISSRUN v c k) && portState s v p = RUN then s.set1 (R.PORT_STATE_DEGR v p) else s
  compareOutcome s v p tick 1 0

/-- The outcome of a landed commit (R144): judged at the first reload after the commit. (DEDUCED: notes/assumptions/22.md.) -/
def judgeLanding (s : State) (v : Vat) (c k : Nat) : State :=
  match (getSlot s v c k).landing with
  | none => s
  | some l =>
    let s := modSlot s v c k (fun g => { g with landing := none })
    if !l.spec then s.wr (R.GS_OUT_OUTCOME v c k) 1
    else if l.reloads != 0 then (s.wr (R.GS_OUT_OUTCOME v c k) 3).incSat (R.WHEY_NDEFER_NDEFER v c k)
    else if l.squashed then s.wr (R.GS_OUT_OUTCOME v c k) 2
    else (s.wr (R.GS_OUT_OUTCOME v c k) 1).incSat (R.WHEY_NCOMMIT_NCOMMIT v c k)

/-! ## Selection (R131-R137) -/

def histNeed (ptype : Nat) : Nat :=
  match ptype with
  | 0 => 1
  | 1 => 2
  | 2 => 3
  | _ => 2

/-- The number of a MODEL entry among the record's MODEL entries. -/
def modelIndex (preds : List PredDef) (p : Nat) : Nat := ((preds.take p).filter (fun d => d.ptype == 3)).length

/-- A MODEL entry is warm (R134). -/
def warm (s : State) (v : Vat) (c k : Nat) (g : GraphSt) (p : Nat) (d : PredDef) : Bool :=
  let m := modelIndex g.preds p
  let q := s.rd (R.GS_BIND_PORT v c k)
  (committedOut s v c g d.eInst d.eOut).2
    && (committedOut s v c g (s.rd (R.MDL_CFG_VINST v c k m)) (s.rd (R.MDL_CFG_VOUT v c k m))).2
    && portState s v q == RUN && (getPort s v q).runSince && (getPort s v q).setByGraph

/-- The SRC history of an entry: x(k-1), x(k-2), x(k-3) (R110, R131). -/
def histOf (s : State) (v : Vat) (c : Nat) (g : GraphSt) (i j : Nat) : Int :=
  match findInst g i with
  | some d => qOf (readEng s v c (d.stOff + j))
  | none => 0

/-- A duty of the set in force as a fraction. -/
def dutyFrac (s : State) (v : Vat) (n : Nat) : Word := fdiv (F32.ofNat (s.rd (R.LEG_DUTY_DUTY v n))) (F32.ofNat 32767)

/-- MODEL's prediction (R133). A slot that LSLOT names and no leg fills has duty 0, and LSEC on a port without a linked secondary means
the port itself. (DESIGN CHOICE: notes/assumptions/22.md.) -/
def predictModel (s : State) (v : Vat) (c k : Nat) (g : GraphSt) (p : Nat) (d : PredDef) (ts : Word) : Int :=
  let m := modelIndex g.preds p
  let q := s.rd (R.GS_BIND_PORT v c k)
  let q := if s.is (R.MDL_CFG_LSEC v c k m) then (partner s v q).getD q else q
  let legs := portLegs s v q
  let vdc := (committedF s v c g (s.rd (R.MDL_CFG_VINST v c k m)) (s.rd (R.MDL_CFG_VOUT v c k m))).1
  let e := (committedF s v c g d.eInst d.eOut).1
  let duty := match slotLeg s v q (s.rd (R.MDL_CFG_LSLOT v c k m)) with
    | some n => dutyFrac s v n
    | none => 0
  let dref := match s.rd (R.MDL_CFG_DREF v c k m) with
    | 0 => fdiv ((legs.map (dutyFrac s v)).foldl fadd 0) (F32.ofNat legs.length)
    | 2 => F32.half
    | _ => 0
  let sg := if s.is (R.MDL_CFG_NEG v c k m) then fneg F32.one else F32.one
  let num := fmul (fmul sg ts) (ffms vdc (fsub duty dref) e)
  let den := fmul d.ind (BitVec.ofNat 32 (s.rd (R.MDL_IFS_VAL v c k m)))
  F32.toQ15 (fadd (F32.ofQ15 (histOf s v c g d.inst 0)) (fdiv num den))

/-- A prediction (R131, R132). -/
def predict (s : State) (v : Vat) (c k : Nat) (g : GraphSt) (p : Nat) (d : PredDef) (ts : Word) : Int :=
  let x (j : Nat) : Int := histOf s v c g d.inst j
  match d.ptype with
  | 0 => x 0
  | 1 => sat15 (2 * x 0 - x 1)
  | 2 => sat15 (3 * x 0 - 3 * x 1 + x 2)
  | _ => predictModel s v c k g p d ts

/-- The entries of a PREDICT record, numbered. -/
def entries (g : GraphSt) : List (Nat × PredDef) := (List.range g.preds.length).zip g.preds

/-- The causes that keep a tick from beginning speculatively, as INH holds them (R137). -/
def selectCauses (s : State) (v : Vat) (c k : Nat) (g : GraphSt) : Nat :=
  boolNat (!g.hasPred) + 2 * boolNat (g.evals.any EvalSt.isOpen)
    + 4 * boolNat ((entries g).any (fun e => s.rd (R.WE_CFG_HIST v c k e.1) < histNeed e.2.ptype))
    + 8 * boolNat ((entries g).any (fun e => e.2.ptype == 3 && !warm s v c k g e.1 e.2))

/-! ## A tick begins an evaluation -/

/-- The nominal tick period of a port, from its configured period (R99). -/
def tickCycles (s : State) (v : Vat) (p per : Nat) : Nat :=
  if s.is (R.PORT_CARCFG_MODE v p) || s.rd (R.PORT_CARCFG_TICKSEL v p) = 3 then per else 2 * per

/-- 1 + y of PLL-T as a fraction: the ramp profile's deviation in force, PLLT_DEV (R358). -/
def rampRate (s : State) : Nat × Nat :=
  if !s.is R.CLK_STAT_RAMP then (1, 1)
  else
    match F32.unpack (s.regs.get R.PLLT_DEV) with
    | .fin neg m e =>
      let d := 2 ^ (-e).toNat
      let y := m * 2 ^ e.toNat
      (if neg then d - y else d + y, d)
    | _ => (1, 1)

/-- TS at a tick: the real interval since the previous one, in which each cycle of PT counts at the deviation of its own time (R206, R359),
or at the first the nominal period (R99). (DEDUCED: notes/assumptions/31.md.) -/
def tsAtTick (s : State) (v : Vat) (p : Nat) : Word :=
  match (getPort s v p).lastTick with
  | some t => fconst (s.time.realQ - t) (500000000 * 2 ^ 44)
  | none => ptSeconds (tickCycles s v p (s.rd (R.PORT_PERIOD_PERIOD v p)))

/-- What a source instance captures at the tick (R58, R97): a SRC in ARRIVAL mode waits for its sample. A CONST's VALUE is
architectural from the tick at which a catalogue value enters it (R325). -/
def captureOf (s : State) (v : Vat) (c i : Nat) (d : InstDef) : Option Cap :=
  let cfg := (nth d.pars 0 0).toNat
  match d.btype with
  | 0x00 => some ⟨i, (readEng s v c (d.parOff + 1)).toNat, 0, true, true⟩
  | 0x26 =>
    let q := cfg % 8
    some ⟨i, s.rd (R.POS_COUNT_COUNT v q), s.rd (R.POS_TEDGE_VAL v q), s.is (R.POS_STAT_VALID v q), true⟩
  | 0x27 =>
    let n := cfg % 64
    if bitOf cfg 8 then some ⟨i, 0, 0, false, false⟩ else some ⟨i, chanQ15 s v n, 0, chanValid s v n, true⟩
  | 0x28 =>
    let n := cfg % 64
    some ⟨i, s.signedRd (R.AX_VALUE v n), 0, s.is (R.AX_VALID v n), true⟩
  | 0x29 =>
    let n := cfg / 256 % 64
    if bitOf cfg 0 then some ⟨i, s.signedRd (R.AX_VALUE v n), 0, s.is (R.AX_VALID v n), true⟩
    else
      let x := nth (s.vat v).setps (n % 8) {}
      match x.rise, x.period with
      | some r, some (per, high) => some ⟨i, per, high, flt (ptSeconds (s.pt - r)) (nth d.pars 7 0), true⟩
      | _, _ => some ⟨i, 0, 0, false, true⟩
  | _ => none

def captures (s : State) (v : Vat) (c : Nat) (g : GraphSt) : List Cap :=
  ((List.range g.defs.length).zip g.defs).filterMap (fun e => captureOf s v c (g.first + e.1) e.2)

/-- The deadline in PT, for the order of R100: the latest allowed reload (R208), by the period in force at the tick, though a new one may
apply from a valley before it. (DESIGN CHOICE: notes/assumptions/23.md.) -/
def deadlineOf (s : State) (v : Vat) (p : Nat) : Nat :=
  s.pt + tickCycles s v p (s.rd (R.PORT_PERACT_PERACT v p))

def newEval (s : State) (v : Vat) (p : Nat) (caps : List Cap) (mode : EvMode) (xhat : List Int) (ph : EvPhase) : EvalSt :=
  { tick := s.rd (R.PORT_TICKNUM_VAL v p), mode, phase := ph, began := mode, squashed := false, bank := 0, tickPt := s.pt
    deadline := deadlineOf s v p, ts := tsAtTick s v p, period := s.rd (R.PORT_PERACT_PERACT v p), caps, xhat
    reloads := 0, valids := [], events := [], invout := false, writes := [], landed := 0, clamped := [], moves := []
    dead := none, seen := [] }

/-- Every arrival sample is present or found absent. -/
def EvalSt.arrived (e : EvalSt) : Bool := e.caps.all (fun c => c.known)

/-- Every predicted input's arrival sample is present or found absent: the verdict is due (R142). -/
def EvalSt.judgeable (e : EvalSt) (g : GraphSt) : Bool :=
  e.caps.all (fun c => c.known || !g.preds.any (fun p => p.inst == c.inst))

/-- The tick of a graph that evaluates (R95, R98, R137). -/
def beginEval (s : State) (v : Vat) (c k p : Nat) : State :=
  let g := getSlot s v c k
  let caps := captures s v c g
  if engFrozen s v c then
    modEvals s v c k (fun es => es ++ [newEval s v p caps .plain [] .waiting])
  else
    let causes := selectCauses s v c k g
    let s := s.wr (R.WHEY_STAT_INH v c k) causes
    let s := s.wr (R.WHEY_STAT_READY v c k) (boolNat (causes / 4 = 0))
    let ts := tsAtTick s v p
    let s :=
      if causes = 0 then
        let xs := (entries g).map (fun e => predict s v c k g e.1 e.2 ts)
        let s := (List.range xs.length).foldl (fun s q =>
          (s.wr (R.WE_XHAT_XHAT v c k q) (unsignedOf 16 (nth xs q 0))).set1 (R.WE_XHAT_SPEC v c k q)) s
        modEvals (s.set1 (R.GS_OUT_SPECLAST v c k)) v c k (fun es => es ++ [newEval s v p caps .spec xs .ready])
      else
        let e := newEval s v p caps .plain [] .waiting
        let e := if e.arrived then { e with phase := .ready } else e
        modEvals ((s.clr (R.GS_OUT_SPECLAST v c k)).incSat (R.WHEY_NPLAIN_NPLAIN v c k)) v c k (fun es => es ++ [e])
    schedule (refreshWhey s v c k) v c

/-! ## The verdict (R142) -/

/-- The results of an evaluation go into its bank and its record. -/
def storeResults (s : State) (v : Vat) (c k : Nat) (e : EvalSt) : State :=
  let g := getSlot s v c k
  let w := evaluate s v c k e
  let x := ctxOf s v c k e
  let base := s.rd (R.WHEY_BASE_BASE v c k) + e.bank * s.rd (R.WHEY_SIZE_WSZ v c k)
  let words := (graphWords g.defs).map (w.word s x)
  let s := modEng s v c (fun q => { q with
    whey := (List.range words.length).foldl (fun l j => putKey (fun _ => (0 : Word)) (base + j) (nth words j 0) l) q.whey })
  modEvals s v c k (modFirst (fun q => q.phase == .running) (fun q => { q with
    valids := w.vs.map (fun y => y.2), events := w.events, invout := w.invout, writes := w.writes, clamped := w.clamped
    moves := w.moves, dead := w.dead, seen := w.seen, start := w.start }))

/-- The arrival sample of a predicted entry. -/
def arrivalOf (e : EvalSt) (i : Nat) : Option Int :=
  match e.caps.find? (fun c => c.inst == i) with
  | some c => if c.known && c.ok then some c.x else none
  | none => none

/-- One entry's verdict: RESID, OUT and ABSENT. -/
def judgeEntry (s : State) (v : Vat) (c k : Nat) (e : EvalSt) (q : Nat × PredDef) : State :=
  let p := q.1
  let s := s.clr (R.WE_XHAT_SPEC v c k p)
  match arrivalOf e q.2.inst with
  | none => ((s.wr (R.WE_RESID_RESID v c k p) 0).clr (R.WE_CFG_OUT v c k p)).set1 (R.WE_CFG_ABSENT v c k p)
  | some a =>
    let r := sat15 (a - nth e.xhat p 0)
    let out := decide ((q.2.tol : Int) < r ∨ r < -(q.2.tol : Int))
    ((s.wr (R.WE_RESID_RESID v c k p) (unsignedOf 16 r)).wr (R.WE_CFG_OUT v c k p) (boolNat out)).clr (R.WE_CFG_ABSENT v c k p)

/-- An entry squashes: its sample is absent or outside its band. -/
def entrySquashes (e : EvalSt) (q : Nat × PredDef) : Bool :=
  match arrivalOf e q.2.inst with
  | none => true
  | some a => let r := sat15 (a - nth e.xhat q.1 0); decide ((q.2.tol : Int) < r ∨ r < -(q.2.tol : Int))

/-- The re-run of a squashed evaluation: plain, under the same deadline. -/
def rerunOf (e : EvalSt) : EvalSt :=
  { e with mode := .rerun, phase := if e.arrived then .ready else .waiting, squashed := true, valids := [], events := []
           invout := false, writes := [], landed := 0, clamped := [], moves := [], dead := none, seen := [] }

/-- The verdict on the evaluation that satisfies `q` (its phase running or ended, all arrivals known). -/
def verdict (s : State) (v : Vat) (c k : Nat) (q : EvalSt → Bool) : State :=
  let g := getSlot s v c k
  match g.evals.find? q with
  | none => s
  | some e =>
    if e.mode == .spec then
      let squash := (entries g).any (entrySquashes e)
      let s := (entries g).foldl (fun s p => judgeEntry s v c k e p) s
      let s := if squash then
          modEvals (s.incSat (R.WHEY_NSQUASH_NSQUASH v c k)) v c k (modFirst q rerunOf)
        else modEvals s v c k (modFirst q (fun e => { e with phase := .committing }))
      schedule (refreshWhey s v c k) v c
    else schedule (refreshWhey (modEvals s v c k (modFirst q (fun e => { e with phase := .committing }))) v c k) v c

/-- The running evaluation of an engine ends. -/
def endEval (s : State) (v : Vat) (c : Nat) : State :=
  match runningSlot s v c with
  | none => s
  | some k =>
    match (getSlot s v c k).evals.find? (fun e => e.phase == .running) with
    | none => s
    | some e =>
      let s := storeResults s v c k e
      if e.mode == .spec && !e.judgeable (getSlot s v c k) then
        let s := modEvals s v c k (modFirst (fun e => e.phase == .running) (fun e => { e with phase := .ended }))
        schedule (refreshWhey s v c k) v c
      else verdict s v c k (fun e => e.phase == .running)

def execEvaluationEnd (v : Vat) (c : Fin 8) (s : State) : Host.Outcome State Fault Refusal :=
  .next (settle (if engRuns s v c.val then endEval s v c.val else s))

/-! ## Arrival samples (R97, R98, R142) -/

/-- A capture waits for the arrival sample of channel `n`. -/
def awaits (g : GraphSt) (n : Nat) (cap : Cap) : Bool :=
  !cap.known && (match findInst g cap.inst with
    | some d => d.btype == 0x27 && (nth d.pars 0 0).toNat % 64 == n
    | none => false)

/-- Enter an arrival sample into the captures that wait for it. -/
def fillCaps (g : GraphSt) (n : Nat) (x : Int) (ok : Bool) (caps : List Cap) : List Cap :=
  caps.map (fun cap => if awaits g n cap then { cap with x := if ok then x else 0, ok, known := true } else cap)

/-- The channels whose arrival samples a graph takes (R97). -/
def arrivalChans (g : GraphSt) : List Nat :=
  ((g.defs.filter (fun d => d.btype == 0x27 && bitOf (nth d.pars 0 0).toNat 8)).map (fun d => (nth d.pars 0 0).toNat % 64)).eraseDups

/-- A tick awaits the arrival samples of its graph. -/
def awaitArrivals (s : State) (v : Vat) (c k p : Nat) : State :=
  modPort s v p (fun q => { q with await := q.await ++ arrivalChans (getSlot s v c k) })

/-- The port's guard sees the arrival sample of channel `n` that the oldest of its ticks awaits (R164, R166, R195). -/
def guardArrival (s : State) (v : Vat) (p n : Nat) (ok : Bool) : State :=
  if !(getPort s v p).await.contains n then s else
    let s := modPort s v p (fun q => { q with await := q.await.erase n })
    if ok then s else arrivalLoss s v p n

/-- The arrival sample of channel `n` at a port: its guard, then its oldest evaluation that awaits the sample, which is present
or found absent. -/
def arrive (s : State) (v : Vat) (p n : Nat) (x : Int) (ok : Bool) : State :=
  let s := guardArrival s v p n ok
  match portGraph s v p with
  | none => s
  | some (c, k) =>
    let g := getSlot s v c k
    let q (e : EvalSt) : Bool := e.caps.any (awaits g n)
    if g.migCaps.any (awaits g n) then modSlot s v c k (fun g => { g with migCaps := fillCaps g n x ok g.migCaps })
    else if !g.evals.any q || engFrozen s v c then s
    else
      let s := modEvals s v c k (modFirst q (fun e =>
        let e := { e with caps := fillCaps g n x ok e.caps }
        if e.phase == .waiting && e.arrived then { e with phase := .ready } else e))
      let due (e : EvalSt) : Bool := e.phase == .ended && e.judgeable g
      if (getSlot s v c k).evals.any due then verdict s v c k due else schedule s v c

/-- No output has come by tick + GD + one output period (R97): the channel's sample is found absent. -/
def execArrivalTimeout (v : Vat) (p : Fin 8) (n : Fin 64) (s : State) : Host.Outcome State Fault Refusal :=
  .next (settle (if s.vatLive v then arrive s v p.val n.val 0 false else s))

/-! ## The commit (R142, R213) -/

/-- The committed words and VALID bits of a graph, and the VALUEs that received signals have put into its CONSTs (R325), copied
from one engine's layout to another's, in one vat or across. -/
def copyGraph (s : State) (v : Vat) (c : Nat) (ds : List InstDef) (w : Vat) (f : Nat) (es : List InstDef) : State :=
  let s := ((graphWords ds).zip (graphWords es)).foldl (fun s q => writeEng s w f q.2 (readEng s v c q.1)) s
  (ds.zip es).foldl (fun s q =>
    let s := writeEng s w f (q.2.desc + 3) (readEng s v c (q.1.desc + 3))
    if q.1.btype = 0 then writeEng s w f (q.2.parOff + 1) (readEng s v c (q.1.parOff + 1)) else s) s

/-- The vat that joins from `v`, and the slot of port `p`'s graph in it while that graph has not entered (R256). -/
def mirrorSlot (s : State) (v : Vat) (p : Nat) : Option (Nat × Nat) :=
  if s.owner == some v && s.hasVat v.other && s.is (R.VAT_ROLE_JOINING v.other) then
    match portGraph s v.other p with
    | some (f, j) => if (getSlot s v.other f j).entered then none else some (f, j)
    | none => none
  else none

/-- One shadow write lands, tagged with the tick (R212). -/
def landWrite (s : State) (v : Vat) (tick : Nat) : ShadowWrite → State
  | .duty n d => (s.wr (R.LEG_SHD_SHD v n) d).wr (R.LEG_SHTAG_VAL v n) tick
  | .period p per => (s.wr (R.PORT_PERSHD_PERSHD v p) per).wr (R.PORT_PERTAG_VAL v p) tick

/-- A burst of vat `v` at port `p` is mirrored to the joining vat: its graph has not entered there, or a mirrored burst is still open
(R256; notes/assumptions/18.md). -/
def mirrorsBurst (s : State) (v : Vat) (p : Nat) : Bool := (mirrorSlot s v p).isSome || (getPort s v.other p).mirrored

/-- The burst of a commit at port `p` ends, in the joining vat too where it is mirrored (R213, R256). -/
def closeBurst (s : State) (v : Vat) (p : Nat) : State :=
  let t := s.clr (R.PORT_PWMSTAT_BURST v p)
  if mirrorsBurst s v p then
    modPort (t.clr (R.PORT_PWMSTAT_BURST v.other p)) v.other p (fun q => { q with mirrored := false })
  else t

/-- The evaluation of a slot whose commit is in progress. -/
def committing (s : State) (v : Vat) (c k : Nat) : Option EvalSt :=
  (getSlot s v c k).evals.find? (fun e => e.phase == .committing)

/-- The commit's burst has landed its first `n` writes; BURST is open while some but not all have landed (R213). -/
def landUpTo (s : State) (v : Vat) (c k n : Nat) : State :=
  match committing s v c k with
  | none => s
  | some e =>
    let p := s.rd (R.GS_BIND_PORT v c k)
    let n := max e.landed (min n e.writes.length)
    let s := ((e.writes.take n).drop e.landed).foldl (fun s w => landWrite s v e.tick w) s
    let s := modEvals s v c k (modFirst (fun e => e.phase == .committing) (fun e => { e with landed := n }))
    let s := if e.landed < n then modPort s v p (fun q => { q with shdByGraph := true }) else s
    let isOpen := n != 0 && decide (n < e.writes.length)
    let s := if mirrorsBurst s v p && e.landed < n then
        modPort ((((e.writes.take n).drop e.landed).foldl (fun s w => landWrite s v.other e.tick w) s).wr
          (R.PORT_PWMSTAT_BURST v.other p) (boolNat isOpen)) v.other p (fun q => { q with shdByGraph := true, mirrored := isOpen })
      else s
    s.wr (R.PORT_PWMSTAT_BURST v p) (boolNat isOpen)

/-- Copy a bank into engine-local memory, with the VALID bits of the descriptors. -/
def writeBack (s : State) (v : Vat) (c k : Nat) (e : EvalSt) : State :=
  let g := getSlot s v c k
  let base := s.rd (R.WHEY_BASE_BASE v c k) + e.bank * s.rd (R.WHEY_SIZE_WSZ v c k)
  let whey := (getEng s v c).whey
  let offs := graphWords g.defs
  let s := (List.range offs.length).foldl (fun s j =>
    writeEng s v c (nth offs j 0) (getKey (fun _ => (0 : Word)) (base + j) whey)) s
  (List.range g.defs.length).foldl (fun s j =>
    match g.defs[j]? with
    | some d => writeEng s v c (d.desc + 3) (BitVec.ofNat 32 (nth e.valids j 0))
    | none => s) s

/-- Push a sample into a SRC's history (R110). -/
def pushHistory (s : State) (v : Vat) (c : Nat) (g : GraphSt) (cap : Cap) : State :=
  match findInst g cap.inst with
  | some d =>
    if d.btype = 0x27 && cap.known && cap.ok then
      let a := readEng s v c d.stOff
      let b := readEng s v c (d.stOff + 1)
      writeEng (writeEng (writeEng s v c d.stOff (qWord cap.x)) v c (d.stOff + 1) a) v c (d.stOff + 2) b
    else s
  | none => s

/-- HIST of an entry after a tick's arrival samples (R136). -/
def bumpHist (s : State) (v : Vat) (c k : Nat) (caps : List Cap) (q : Nat × PredDef) : State :=
  let ok := caps.any (fun cap => cap.inst == q.2.inst && cap.known && cap.ok)
  let h := s.rd (R.WE_CFG_HIST v c k q.1)
  s.wr (R.WE_CFG_HIST v c k q.1) (if ok then min (h + 1) 3 else 0)

/-- History, HIST and the pending residuals at a commit. -/
def commitHistory (s : State) (v : Vat) (c k : Nat) (e : EvalSt) : State :=
  let g := getSlot s v c k
  let s := e.caps.foldl (fun s cap => pushHistory s v c g cap) s
  (entries g).foldl (fun s q =>
    let s := bumpHist s v c k e.caps q
    if q.2.fold then
      s.wr (R.WE_TOL_PEND v c k q.1)
        (if e.mode == .spec then unsignedOf 15 (s.signedRd (R.WE_RESID_RESID v c k q.1)) else 0)
    else s) s

/-- A MON's MOVE qualifies the channel's freeze monitor from the commit onward (R120, R67). -/
def commitMove (s : State) (v : Vat) (m : Nat × Bool) : State :=
  tryFreeze (modChan s v m.1 (fun c => { c with qual := m.2 })) v m.1

/-- What the freeze monitors and the guard take from an evaluation at its commit: MOVE, and DEAD (R120, R169). -/
def commitViews (s : State) (v : Vat) (p : Nat) (e : EvalSt) : State :=
  let s := e.moves.foldl (fun s m => commitMove s v m) s
  match e.dead with
  | some b => if gridPort s v p then s.wr (R.GRID_STAT_DEAD v p) (boolNat b) else s
  | none => s

/-- Flags and events raised in the evaluation (R142, R117, R211). -/
def commitFlags (s : State) (v : Vat) (c k p : Nat) (e : EvalSt) : State :=
  let s := e.events.foldl (fun s q => s.vatEvent v (uCE c) q.1 q.2) s
  let s := if e.invout then s.vatFlagBit v (uCE c) (R.CE_TICKSTAT_INVOUT_F v c) k else s
  commitViews (e.clamped.foldl (fun s q => s.vatFlag v uPULSE (R.PORT_PWMSTAT_PERCLAMP_F v q)) s) v p e

/-- A commit of the owner is mirrored to a joining vat whose graph has not entered (R256): the committed words, and what the
port's guard, its state and the freeze monitors take from them. -/
def mirrorCommit (s : State) (v : Vat) (c k p : Nat) (e : EvalSt) : State :=
  match mirrorSlot s v p with
  | none => s
  | some (f, j) =>
    let w := v.other
    let s := copyGraph s v c (getSlot s v c k).defs w f (getSlot s w f j).defs
    let s := modSlot s w f j (fun g => { g with committed := true, start := (getSlot s v c k).start })
    guardCommit (commitViews s w p e) w p

/-- CSIG (R246): CRC-32C over the bank's words in bank order, then the shadow writes in burst order, each as a word.
(DEDUCED: notes/assumptions/29.md.) -/
def commitSignature (s : State) (v : Vat) (c k : Nat) (e : EvalSt) : Nat :=
  let base := s.rd (R.WHEY_BASE_BASE v c k) + e.bank * s.rd (R.WHEY_SIZE_WSZ v c k)
  let whey := (getEng s v c).whey
  let words := (List.range (graphWords (getSlot s v c k).defs).length).map (fun j => (getKey (fun _ => (0 : Word)) (base + j) whey).toNat)
  let writes := e.writes.map (fun w => match w with
    | .duty _ d => d
    | .period _ per => per)
  crc32c ((words ++ writes).flatMap (leBytes 4))

/-- The commit of a slot completes. -/
def completeCommit (s : State) (v : Vat) (c k : Nat) : State :=
  match committing s v c k with
  | none => s
  | some e =>
    let p := s.rd (R.GS_BIND_PORT v c k)
    let csig := commitSignature s v c k e
    let s := closeBurst (landUpTo s v c k e.writes.length) v p
    let s := commitHistory (writeBack s v c k e) v c k e
    let s := commitFlags s v c k p e
    let s := (s.wr (R.GS_TICK_VAL v c k) e.tick).wr (R.GS_OUT_MISSRUN v c k) 0
    let s := s.wr (R.GS_OUT_DONE v c k) (min ((s.pt - e.tickPt) / 5) 65535)
    let s := modSlot s v c k (fun g => { g with
      committed := true, seen := e.seen, start := e.start, lastBank := e.bank, evals := dropFirst (fun q => q.phase == .committing) g.evals
      landing := some ⟨e.tick, e.began == .spec, e.squashed, e.reloads⟩ })
    let s := mirrorCommit (guardCommit s v p) v c k p e
    compareOutcome (schedule (refreshWhey s v c k) v c) v p e.tick 0 csig

def execCommitComplete (v : Vat) (c : Fin 8) (k : Fin 4) (s : State) : Host.Outcome State Fault Refusal :=
  .next (settle (if engRuns s v c.val then completeCommit s v c.val k.val else s))

/-! ## Deadlines (R122, R143) -/

/-- The oldest evaluation of a slot that is not yet in time, at its deadline: `landed` writes of its burst landed before. -/
def abandon (s : State) (v : Vat) (c k landed : Nat) : State :=
  match (getSlot s v c k).evals.find? (fun e => !e.missed) with
  | none => s
  | some e =>
    let p := s.rd (R.GS_BIND_PORT v c k)
    let s := if e.phase == .committing && !engFrozen s v c then
        closeBurst (landUpTo s v c k (min landed (e.writes.length - 1))) v p else s
    if engFrozen s v c then
      let s := if e.holds then modEvals s v c k (modFirst (fun e => !e.missed) (fun e => { e with missed := true }))
        else modEvals s v c k (dropFirst (fun e => !e.missed))
      missed s v c k e.tick
    else
      let s := closeXhat (modEvals s v c k (dropFirst (fun e => !e.missed))) v c k
      missed (schedule (refreshWhey s v c k) v c) v c k e.tick

def execDeadlineAbandon (v : Vat) (c : Fin 8) (k : Fin 4) (landed : Nat) (s : State) :
    Host.Outcome State Fault Refusal :=
  .next (settle (if s.vatLive v && !engRetired s v c.val then abandon s v c.val k.val landed else s))

/-! ## Whey bank errors (R141) and the whey window -/

/-- A double-bit error in an open bank: the evaluation is discarded and runs again plainly; in a write-back it is an error in
the vat's critical state. A frozen engine reads no bank, and its evaluations stay as they were (R147). -/
def wheyError (s : State) (v : Vat) (c k b : Nat) : State :=
  match (getSlot s v c k).evals.find? (fun e => e.holds && e.bank == b) with
  | none => s
  | some e =>
    if engFrozen s v c then s
    else if e.phase == .committing then raiseFlt s v 2
    else
      let s := s.vatEvent v (uCE c) 0x0906 (c + k * 16)
      let s := modEvals (closeXhat s v c k) v c k (modFirst (fun e => e.holds && e.bank == b) rerunOf)
      schedule (refreshWhey s v c k) v c

def execWheyDoubleBitError (v : Vat) (c : Fin 8) (k : Fin 4) (b : Bool) (s : State) : Host.Outcome State Fault Refusal :=
  .next (settle (if s.vatLive v then wheyError s v c.val k.val (boolNat b) else s))

def execWaddrWrite (v : Vat) (c : Fin 8) (a : BitVec 13) (s : State) : Host.Outcome State Fault Refusal :=
  .next (settle (if s.vatLive v then s.wrAs (supMaster v) (R.WADDR_WADDR v c.val) a.toNat else s))

/-! ## Binding a graph to a slot -/

/-- An entry of PREDICT with its instance numbers moved. -/
def shiftPred (d : Nat) (q : PredDef) : PredDef := { q with inst := q.inst + d, eInst := if q.ptype = 3 then q.eInst + d else q.eInst }

/-- The graph as slot `k` of engine `c` holds it: in its own engine, or in the fallback's reserve. -/
def slotGraph (w : WheelGraph) (fb : Bool) : GraphSt :=
  if fb then
    { first := w.fbFirst, defs := w.fbDefs, hasPred := w.hasPred, preds := w.preds.map (fun q => shiftPred w.fbFirst { q with
        inst := q.inst - w.first, eInst := q.eInst - w.first }) }
  else { first := w.first, defs := w.defs, preds := w.preds, hasPred := w.hasPred }

/-- NINST, NGRAPH and UTIL of an engine (CEc_LOAD). -/
def refreshLoad (s : State) (v : Vat) (c : Nat) : State :=
  let ks := (List.range 4).filter (fun k => s.is (R.GS_BIND_BOUND v c k))
  let n := ks.foldl (fun n k => n + (getSlot s v c k).defs.length) 0
  let load := ks.foldl (fun (a : Nat × Nat) k =>
    match s.whl.graphs.find? (fun w => w.port == s.rd (R.GS_BIND_PORT v c k)) with
    | some w => (a.1 * w.loadD + w.loadN * a.2, a.2 * w.loadD)
    | none => a) (0, 1)
  ((s.wr (R.CE_LOAD_NINST v c) n).wr (R.CE_LOAD_NGRAPH v c) ks.length).wr (R.CE_LOAD_UTIL v c)
    (min ((4096 * load.1 + load.2 - 1) / load.2) 4095)

/-- The registers of a slot that takes a graph: everything else of the slot starts at zero (R130, R150). -/
def bindRegs (s : State) (v : Vat) (c k : Nat) (w : WheelGraph) (fb : Bool) : State :=
  let g := slotGraph w fb
  let s := (s.wrWord (R.GS_BIND v c k) 0).wr (R.GS_BIND_PORT v c k) w.port
  let s := ((s.set1 (R.GS_BIND_BOUND v c k)).wr (R.GS_BIND_FALLBACK v c k) w.fallback).wr (R.GS_BIND_FB_EN v c k) (boolNat w.fbEn)
  let s := ((s.wr (R.GS_BIND_ORIGIN v c k) w.engine).wr (R.GS_BIND_SPEC v c k) (boolNat w.hasPred)).wr
    (R.GS_BIND_NBLK v c k) w.defs.length
  let s := s.wr (R.GS_COST_CYCLES v c k) w.cycles
  let s := ((s.wr (R.WHEY_SIZE_WSZ v c k) w.wsz).wr (R.WHEY_SIZE_CT v c k) (max 60 (12 + (w.wsz + 15) / 16))).wr
    (R.WHEY_SIZE_NPRED v c k) w.preds.length
  let s := s.wr (R.WHEY_BASE_BASE v c k) (if fb then w.fbBase else w.base)
  (entries g).foldl (fun s q =>
    let s := ((s.wr (R.WE_CFG_INST v c k q.1) q.2.inst).wr (R.WE_CFG_PTYPE v c k q.1) q.2.ptype).wr
      (R.WE_CFG_FOLD v c k q.1) (boolNat q.2.fold)
    s.wr (R.WE_TOL_TOL v c k q.1) q.2.tol) s

/-- A graph takes a slot. -/
def bindGraph (s : State) (v : Vat) (c k : Nat) (w : WheelGraph) (fb : Bool) : State :=
  refreshLoad (modSlot (bindRegs s v c k w fb) v c k (fun _ => slotGraph w fb)) v c

/-- Word 2 of a graph's descriptors: the place of the outputs, and the graph slot (R93). -/
def writeDescSlot (s : State) (v : Vat) (c k : Nat) (defs : List InstDef) : State :=
  defs.foldl (fun s d => writeEng s v c (d.desc + 2) (BitVec.ofNat 32 (d.outOff + k * 65536))) s

/-- A slot becomes empty: its registers read zero. -/
def clearSlot (s : State) (v : Vat) (c k : Nat) : State :=
  let regs := [R.GS_BIND v c k, R.GS_COST v c k, R.GS_TICK v c k, R.GS_OUT v c k, R.GS_MISSES v c k, R.WHEY_STAT v c k,
    R.WHEY_TICK v c k, R.WHEY_NCOMMIT v c k, R.WHEY_NSQUASH v c k, R.WHEY_NDEFER v c k, R.WHEY_NPLAIN v c k,
    R.WHEY_SIZE v c k, R.WHEY_BASE v c k]
    ++ (List.range 16).flatMap (fun p => [R.WE_CFG v c k p, R.WE_TOL v c k p, R.WE_XHAT v c k p, R.WE_RESID v c k p])
    ++ (List.range 4).flatMap (fun m => [R.MDL_CFG v c k m, R.MDL_IFS v c k m])
  let s := regs.foldl (fun s a => s.wrWord a 0) s
  refreshLoad (modSlot s v c k (fun _ => {})) v c

/-! ## Renumbering (R470) -/

/-- A register field that names an instance of a migrated graph takes its new number. -/
def renumField (s : State) (f : Field) (old new n : Nat) : State :=
  let i := s.rd f
  if old ≤ i && i < old + n then s.wr f (i - old + new) else s

/-- The registers of one vat that name instances of port `p`'s graph. -/
def renumVat (s : State) (v : Vat) (p old new n : Nat) : State :=
  if (getPort s v p).renum then s else
    let fs :=
      if gridPort s v p then [R.GRID_INST_RAMPI v p, R.GRID_INST_TRIPI v p, R.GRID_REST_RFINST v p]
      else if drivePort s v p then [R.DRV_INST_EFFI v p, R.DRV_INST_WOI v p, R.DRV_OBST_TRIPI v p] else []
    let pos := ((List.range 8).filter (fun i => s.rd (R.POS_CFG_PORT v i) == p)).map (fun i => R.POS_FZ_MQI v i)
    let s := (fs ++ pos).foldl (fun s f => renumField s f old new n) s
    modPort s v p (fun q => { q with renum := true })

/-! ## Migration (R126, R127) -/

/-- The fallback engine's lowest free slot, if the graph finds a place there. One with no free slot is no place.
(DESIGN CHOICE: notes/assumptions/24.md.) -/
def placeFor (s : State) (v : Vat) (w : WheelGraph) : Option Nat :=
  if !w.fbEn || engRetired s v w.fallback || engFrozen s v w.fallback then none
  else (List.range 4).find? (fun k => !s.is (R.GS_BIND_BOUND v w.fallback k))

/-- HIST and PEND of a slot's entries, copied. -/
def copyHist (s : State) (v : Vat) (c k : Nat) (w : Vat) (f j n : Nat) : State :=
  forN n s (fun s p =>
    (s.wr (R.WE_CFG_HIST w f j p) (s.rd (R.WE_CFG_HIST v c k p))).wr (R.WE_TOL_PEND w f j p) (s.rd (R.WE_TOL_PEND v c k p)))

/-- The MODEL scaling registers move with the graph, VINST renumbered. -/
def copyModel (s : State) (v : Vat) (c k f j : Nat) (w : WheelGraph) : State :=
  forN 4 s (fun s m =>
    let s := s.wrWord (R.MDL_CFG v f j m) (s.regs.get (R.MDL_CFG v c k m))
    let s := s.wrWord (R.MDL_IFS v f j m) (s.regs.get (R.MDL_IFS v c k m))
    if s.is (R.MDL_CFG_EN v f j m) then renumField s (R.MDL_CFG_VINST v f j m) w.first w.fbFirst w.defs.length else s)

/-- The graph starts in its fallback engine's slot `j`. -/
def moveGraph (s : State) (v : Vat) (c k : Nat) (w : WheelGraph) (j : Nat) : State :=
  let g := getSlot s v c k
  let f := w.fallback
  let keep := [(R.GS_TICK v c k, R.GS_TICK v f j), (R.GS_OUT v c k, R.GS_OUT v f j), (R.GS_MISSES v c k, R.GS_MISSES v f j)]
  let s := writeDescSlot (bindGraph s v f j w true) v f j w.fbDefs
  let s := keep.foldl (fun s q => s.wrWord q.2 (s.regs.get q.1)) s
  let s := copyModel (copyHist (copyGraph s v c w.defs v f w.fbDefs) v c k v f j w.preds.length) v c k f j w
  let s := modSlot s v f j (fun x => { x with committed := g.committed, seen := g.seen, start := g.start })
  let caps := g.migCaps.map (fun cap => { cap with inst := cap.inst - w.first + w.fbFirst })
  let x := getSlot s v f j
  let s := caps.foldl (fun s cap => pushHistory s v f x cap) s
  let s := (entries x).foldl (fun s q => bumpHist s v f j caps q) s
  let s := renumVat s v w.port w.first w.fbFirst w.defs.length
  let s := if s.owner == some v then sigdefMove s c w.first w.defs.length f w.fbFirst else s
  let s := (clearSlot s v c k).setBit1 (R.CE_TICKSTAT_MIGR_F v c) k
  (s.setBit1 (R.CE_TICKSTAT_MIGR_F v f) j).vatEvent v (uCE f) 0x0903 (c + f * 16)

/-- The port's graph finds no place: the engine-lost cause (R127). -/
def engineLost (s : State) (v : Vat) (p : Nat) : State :=
  let s := modPort s v p (fun q => { q with engineLost := true })
  if portActive s v p then enterFaultPattern s v p causeENGINELOST else s

/-- The first tick of a port after its engine's retirement (R126 step 2): the outcome is MIGRATE, place or none.
(DEDUCED: notes/assumptions/24.md.) -/
def migrateTick (s : State) (v : Vat) (c k p : Nat) : State :=
  let w := s.whl.graphs.find? (fun w => w.port == p)
  let s := compareOutcome (s.wr (R.GS_OUT_OUTCOME v c k) 5) v p (s.rd (R.PORT_TICKNUM_VAL v p)) 2 0
  match w.bind (placeFor s v) with
  | none => engineLost (modSlot s v c k (fun g => { g with migrating := false })) v p
  | some _ =>
    let caps := (captures s v c (getSlot s v c k)).filter (fun cap => !cap.known)
    modSlot s v c k (fun g => { g with migrated := true, migCaps := caps })

/-- Move a graph whose MIGRATE tick has passed; a copy that the frozen vat DMA has not ended fails (R408). The place is judged again: a
fallback that has retired or frozen meanwhile gives the engine-lost cause now. (DESIGN CHOICE: notes/assumptions/24.md.) -/
def finishMigration (s : State) (v : Vat) (c k p : Nat) : State :=
  match s.whl.graphs.find? (fun w => w.port == p) with
  | none => s
  | some w =>
    match (if s.rdBit (R.FW_FROZEN_FROZEN v) 9 then none else placeFor s v w) with
    | some j => moveGraph s v c k w j
    | none => engineLost (modSlot s v c k (fun g => { g with migrating := false, migrated := false })) v p

/-- A graph whose MIGRATE tick has passed starts in its fallback at the next tick, before anything else of the tick reaches it. -/
def arriveGraph (s : State) (v : Vat) (p : Nat) : State :=
  match portGraph s v p with
  | some (c, k) => if (getSlot s v c k).migrated then finishMigration s v c k p else s
  | none => s

/-- The graph of a port at its tick: evaluation, or the MIGRATE tick. -/
def graphTick (s : State) (v : Vat) (p : Nat) : State :=
  match portGraph s v p with
  | none => s
  | some (c, k) =>
    let g := getSlot s v c k
    if !g.entered then s
    else if g.migrating && !g.migrated then migrateTick (awaitArrivals s v c k p) v c k p
    else if engRetired s v c || portState s v p = RETIRED then s
    else beginEval (awaitArrivals s v c k p) v c k p

/-! ## Graphs that wait in a joining vat (R256) -/

/-- The MODEL settings of a graph's slot, from the owner's slot of the same port. -/
def joinModel (s : State) (v : Vat) (c k : Nat) (w : WheelGraph) : State :=
  match portGraph s v.other w.port with
  | none => s
  | some (f, j) =>
    forN 4 s (fun s m =>
      let s := s.wrWord (R.MDL_CFG v c k m) (s.regs.get (R.MDL_CFG v.other f j m))
      let s := s.wrWord (R.MDL_IFS v c k m) (s.regs.get (R.MDL_IFS v.other f j m))
      if !s.is (R.MDL_CFG_EN v c k m) then s
      else
        let i := s.rd (R.MDL_CFG_VINST v c k m)
        s.wr (R.MDL_CFG_VINST v c k m) (i - (getSlot s v.other f j).first + (getSlot s v c k).first))

/-- A graph waits in its slot for its entry. -/
def placeGraph (s : State) (v : Vat) (c k : Nat) (w : WheelGraph) (fb : Bool) : State :=
  let s := joinModel (bindGraph s v c k w fb) v c k w
  let s := modSlot s v c k (fun g => { g with entered := false })
  if fb then renumVat s v w.port w.first w.fbFirst w.defs.length else s

/-- GLEFT and GENG: the engine with the most graphs that do not evaluate yet. -/
def refreshLeft (s : State) (v : Vat) : State :=
  let left (c : Nat) : Nat := ((List.range 4).filter (fun k =>
    s.is (R.GS_BIND_BOUND v c k) && !(getSlot s v c k).entered && portState s v (s.rd (R.GS_BIND_PORT v c k)) != RETIRED)).length
  let best := (List.range 8).foldl (fun b c => if left b < left c then c else b) 0
  (s.wr (R.VAT_JOIN_GLEFT v) (left best)).wr (R.VAT_JOIN_GENG v) best

/-- The graph of slot `k` that has not entered the joining vat, whose engine retires there: it takes its place in the fallback
directly, or the join fails (R256). -/
def moveWaiting (s : State) (v : Vat) (c k : Nat) : State :=
  if !s.is (R.GS_BIND_BOUND v c k) || (getSlot s v c k).entered || !s.is (R.VAT_ROLE_JOINING v) then s else
    match s.whl.graphs.find? (fun w => w.port == s.rd (R.GS_BIND_PORT v c k)) with
    | none => s
    | some w =>
      match placeFor s v w with
      | none => failJoin s v
      | some j =>
        let s := placeGraph (clearSlot s v c k) v w.fallback j w true
        if (s.vat v).copied then writeDescSlot s v w.fallback j w.fbDefs else s

/-! ## Self-tests and retirement (R125, R126) -/

/-- The burst of a slot's commit ends where it is, `landed` of its writes having landed, and never the last of them (R213). -/
def cutBurst (s : State) (v : Vat) (c k landed : Nat) : State :=
  match committing s v c k with
  | some e => closeBurst (landUpTo s v c k (min landed (e.writes.length - 1))) v (s.rd (R.GS_BIND_PORT v c k))
  | none => s

/-- An engine retires: evaluations are discarded, bursts end where they are, its graphs migrate at their ports' next ticks; in a joining
vat those that have not entered take their places in their fallbacks at once (R126, R256). -/
def retireEngine (s : State) (v : Vat) (c landed : Nat) : State :=
  let s := forN 4 s (fun s k =>
    if !s.is (R.GS_BIND_BOUND v c k) then s else
      let s := cutBurst s v c k landed
      let s := closeXhat (modSlot s v c k (fun g => { g with evals := [], migrating := g.entered })) v c k
      refreshWhey s v c k)
  let s := modEng s v c (fun e => { e with testing := false })
  let s := degSet ((s.wr (R.CE_STAT_STATE v c) 3).vatEvent v (uCE c) 0x0902 c) 0
  if s.is (R.VAT_ROLE_JOINING v) then refreshLeft (forN 4 s (fun s k => moveWaiting s v c k)) v else s

def execSelfTestDue (v : Vat) (c : Fin 8) (s : State) : Host.Outcome State Fault Refusal :=
  .next (settle (if engRuns s v c.val then modEng s v c.val (fun e => { e with testing := true }) else s))

/-- A self-test ends; `landed` writes of a commit in progress have landed should the engine retire. -/
def execSelfTestComplete (v : Vat) (c : Fin 8) (ok : Bool) (landed : Nat) (s : State) : Host.Outcome State Fault Refusal :=
  .next (settle (if engRuns s v c.val && (getEng s v c.val).testing then
    (if ok then modEng (s.incWrap (R.CE_STAT_STPASS v c.val)) v c.val (fun e => { e with testing := false })
     else retireEngine (s.set1 (R.CE_STAT_STFAIL v c.val)) v c.val landed)
    else s))

def execSelfTestLate (v : Vat) (c : Fin 8) (s : State) : Host.Outcome State Fault Refusal :=
  .next (settle (if engRuns s v c.val then s.vatFlagEdge v (uCE c.val) (R.CE_STAT_STLATE_F v c.val) else s))

/-- A burst ends, incomplete, when its engine freezes, `landed` of its writes having landed (R124, R213); CEc STATE shows the freeze
(R130). -/
def freezeEngine (s : State) (v : Vat) (c landed : Nat) : State :=
  let s := forN 4 s (fun s k => cutBurst s v c k landed)
  if engRetired s v c then s else s.wr (R.CE_STAT_STATE v c) 2

/-! ## Reloads (R144, R214, R215) -/

/-- A reload of a port counts for its open evaluations, and judges a commit that has landed. -/
def countReload (s : State) (v : Vat) (p : Nat) : State :=
  match portGraph s v p with
  | none => s
  | some (c, k) =>
    judgeLanding (modEvals s v c k (fun es => es.map (fun e => { e with reloads := e.reloads + 1 }))) v c k

/-- The port reloads at this carrier event: it has a carrier of its own, RELSEL names the event (R208), and MODE 1 has no peak
(R204). -/
def reloadsAt (s : State) (v : Vat) (p : Nat) (valley : Bool) : Bool :=
  s.is (R.PORT_CFG_TYPE v p) && !isSecondary s v p && bitOf (s.rd (R.PORT_CARCFG_RELSEL v p)) (if valley then 0 else 1)
    && (valley || !portMode1 s v p)

/-- The reload decision of a port (R246): SETTAG, and the CRC-32C over the duties and the period taken. -/
def reloadSignature (s : State) (v : Vat) (p : Nat) : Nat × Nat :=
  let legs := (reloadPorts s v p).flatMap (portLegs s v)
  (s.rd (R.PORT_SETTAG_VAL v p),
    crc32c ((legs.map (fun n => s.rd (R.LEG_DUTY_DUTY v n)) ++ [(getPort s v p).perSet]).flatMap (leBytes 4)))

/-- Of two tags of port `p` the later, by its tick number. -/
def laterTag (s : State) (v : Vat) (p a b : Nat) : Nat :=
  let age (t : Nat) : Nat := (s.rd (R.PORT_TICKNUM_VAL v p) + 2 ^ 32 - t) % 2 ^ 32
  if age a < age b then a else b

/-- Decisions with different tags: the later tick is one that only one vat has committed, which is no mismatch (R129, R247); the other vat's
outcome of it is still to come; or they are a mismatch (R246). (DEDUCED: notes/assumptions/29.md.) -/
def differentTags (s : State) (p tag k : Nat) : State :=
  if s.arb.excused.contains (p, k) then s
  else if s.arb.seen.any (fun t => t.port == p && t.tick == k && t.outcome == 0) then
    { s with arb := { s.arb with doubts := s.arb.doubts.filter (fun d => d != (p, k)) ++ [(p, k)] } }
  else compareMismatch s (.reload (Fin.ofNat 8 p) (BitVec.ofNat 32 tag))

/-- The port has passed a reload with equal decisions (R257). -/
def reloadAgreed (s : State) (p : Nat) : State :=
  if portRuns s p then forVats s (fun s v => modPort s v p (fun q => { q with reloadSeen := true })) else s

/-- The comparator compares the two vats' decisions at one sampling edge (R246). -/
def compareReload (s : State) (v : Vat) (p : Nat) : State :=
  if !s.variant.dual then s else
    let sig := reloadSignature s v p
    let rest := s.arb.reloads.filter (fun r => r.port != p)
    match s.arb.reloads.find? (fun r => r.vat != v && r.port == p && r.edge == s.pt) with
    | none => { s with arb := { s.arb with reloads := rest ++ [⟨v, p, s.pt, sig⟩] } }
    | some r =>
      let s := { s with arb := { s.arb with reloads := rest } }
      if r.sig = sig then reloadAgreed s p
      else if r.sig.1 = sig.1 then compareMismatch s (.reload (Fin.ofNat 8 p) (BitVec.ofNat 32 sig.1))
      else differentTags s p sig.1 (laterTag s v p sig.1 r.sig.1)

/-- The reload's sampling edge on a primary or unlinked port; `landed` writes of a commit's burst landed before it. -/
def reloadAt (s : State) (v : Vat) (p : Nat) (valley : Bool) (landed : Nat) : State :=
  if !reloadsAt s v p valley then s else
    let s := match portGraph s v p with
      | some (c, k) =>
        match committing s v c k with
        | some e => if engRuns s v c then landUpTo s v c k (min landed (e.writes.length - 1)) else s
        | none => s
      | none => s
    compareReload (countReload (reloadPort s v p valley) v p) v p

end Sys2Proof.Machine
end

