-- ==== Sys2Proof/Machine/Records.lean ====
section
/-! DEFINITION. The event log ring and its tail mirror (19_readback_and_records.md R420-R423), the disturbance recorder
(R424-R427), Brine (R428, R429), and the refresh of the ferroelectric store (22_electrical.md R462). -/

namespace Sys2Proof.Machine

open Sys2Proof

/-! ## Log records -/

abbrev logRing : Nat := 0x10040000
abbrev logSlots : Nat := 16384

/-- The four words of a record (R413); `lap` fills the reserved byte in a tail slot (R422). -/
def LogRec.words (r : LogRec) (lap : Nat) : List Nat :=
  [r.source % 256 + r.seq % 65536 * 2 ^ 8 + lap % 256 * 2 ^ 24, r.code % 65536 + r.era % 65536 * 65536, r.ns % 2 ^ 32,
   r.data % 2 ^ 32]

def LogRec.bytes (r : LogRec) : List Byte := (r.words 0).flatMap (leBytes 4)

/-! ## The disturbance recorder -/

abbrev recBase : Nat := 0x10080000

def recSegs (s : State) : Nat := 2 ^ s.rd R.REC_CFG_SEGS

def segBytes (s : State) : Nat := 2 ^ 20 / recSegs s

def segBase (s : State) (g : Nat) : Nat := recBase + g * segBytes s

/-- Words in a frame, and slots in a segment (R426). -/
def frameWords (s : State) : Nat := 2 + (s.rd R.REC_CFG_NCH + 1) / 2

def segSlots (s : State) : Nat := (segBytes s - 32) / (4 * frameWords s)

def headerWord (s : State) (g i w : Nat) : State := s.writeMem (segBase s g + 4 * i) (BitVec.ofNat 32 w)

/-- The latest tick of RPORT, before the first one -1: the frames that follow begin at the next (R424, R207). -/
def latestTick (s : State) : Nat :=
  let p := s.rd R.REC_CFG_RPORT
  if (getPort s s.viewVat p).ticked then s.rd (R.PORT_TICKNUM_VAL s.viewVat p) else 2 ^ 32 - 1

/-- A segment is armed (R425). -/
def armSegment (s : State) (g : Nat) : State :=
  let s := { s with rcd := { s.rcd with
    phase := .armed, next := 0, taken := 0, npre := 0, lastTick := some (latestTick s), complete := s.rcd.complete.filter (fun h => h != g) } }
  headerWord (s.wr R.REC_STAT_ARMSEG g) g 0 1

/-- The recorder starts: segment 0 is armed (end of LOADING, EN = 1). -/
def startRecorder (s : State) : State := if s.is R.REC_CFG_EN then armSegment s 0 else s

/-- The channel's code: a sense channel, an auxiliary channel or the tap (R76, R424): value and VALID. -/
def sourceQ15 (s : State) (v : Vat) (code : Nat) : Int × Bool :=
  if code < 0x40 then (chanQ15 s v code, chanValid s v code)
  else if code < 0x80 then (s.signedRd (R.AX_VALUE v (code - 0x40)), s.is (R.AX_VALID v (code - 0x40)))
  else (q15View (s.signedRd R.TAP_DATA_SAMPLE), s.is R.TAP_DATA_VALID)

/-- Channel `c` of the recorder. -/
def recChannel (s : State) (v : Vat) (c : Nat) : Int × Bool :=
  sourceQ15 s v (s.rd ⟨R.REC_CH (c / 4), 8 * (c % 4), 8⟩)

/-- One frame into the armed segment's ring: tick number, VALID map, channel halfwords. -/
def putFrame (s : State) (tick : Nat) (vals : List (Int × Bool)) : State :=
  let a := segBase s (s.rd R.REC_STAT_ARMSEG) + 32 + s.rcd.next * (4 * frameWords s)
  let valid := (List.range vals.length).foldl (fun m c => m + boolNat (nth vals c (0, false)).2 * 2 ^ c) 0
  let bytes := leBytes 4 tick ++ leBytes 4 valid ++ vals.flatMap (fun x => leBytes 2 (unsignedOf 16 x.1))
    ++ (if vals.length % 2 = 1 then leBytes 2 0 else [])
  let s := s.writeBytes a bytes
  let n := segSlots s
  { s with rcd := { s.rcd with
    next := if n = 0 then 0 else (s.rcd.next + 1) % n, taken := min (s.rcd.taken + 1) n, lastTick := some tick
    phase := match s.rcd.phase with
      | .post left => .post (left - 1)
      | p => p } }

/-- Whether a frame is taken now. -/
def recording (s : State) : Bool :=
  match s.rcd.phase with
  | .off | .post 0 => false
  | _ => s.is R.REC_CFG_EN

/-- Frames for the ticks no owner wrote, with a zero VALID map (R424). -/
def fillFrames (s : State) (n first : Nat) : State :=
  forN n s (fun s i =>
    if recording s then
      putFrame s ((first + i) % 2 ^ 32) (List.replicate (s.rd R.REC_CFG_NCH) (0, false)) else s)

/-- The recorder at a tick of RPORT, by the owning vat's DMA, which writes nothing while frozen, and no tick twice where the previous
owner has written it. (DEDUCED: notes/assumptions/104.md.) -/
def recorderTick (s : State) (v : Vat) (p : Nat) : State :=
  let tick := s.rd (R.PORT_TICKNUM_VAL v p)
  if s.owner != some v || s.rd R.REC_CFG_RPORT != p || !recording s || s.rdBit (R.FW_FROZEN_FROZEN v) 9
      || s.rcd.lastTick == some tick then s else
    let gap := match s.rcd.lastTick with
      | some t => min ((tick + 2 ^ 32 - t - 1) % 2 ^ 32) (segSlots s)
      | none => 0
    let s := fillFrames s gap ((tick + 2 ^ 32 - gap) % 2 ^ 32)
    if recording s then putFrame s tick ((List.range (s.rd R.REC_CFG_NCH)).map (recChannel s v)) else s

/-- The triggers that a record satisfies, the lowest number first (R425). -/
def triggersOf (s : State) (r : LogRec) : List Nat :=
  (List.range 4).filter (fun t =>
    s.is (R.REC_TRIGSRC_TEN t)
      && (s.is (R.REC_TRIGSRC_SRCANY t) || s.rd (R.REC_TRIGSRC_SOURCE t) == r.source)
      && Nat.land (Nat.xor r.code (s.rd (R.REC_TRIG_TCODE t))) (s.rd (R.REC_TRIG_TMASK t)) == 0)

/-- Triggers fire in one cycle: one capture under the lowest number, or each is counted lost in a post phase. -/
def fireTriggers (s : State) (ts : List Nat) (r : LogRec) : State :=
  match s.rcd.phase, ts with
  | .off, _ | _, [] => s
  | .post _, ts => s.incSat R.REC_POST_TRIGLOST ts.length
  | .armed, t :: _ =>
    let g := s.rd R.REC_STAT_ARMSEG
    let n := segSlots s
    let npre := min (s.rd R.REC_CFG_PRE) s.rcd.taken
    let first := if n = 0 then 0 else (s.rcd.next + n - npre) % n
    let s := { s with rcd := { s.rcd with phase := .post (s.rd R.REC_POST_POST), npre } }
    let hdr := [2 + t * 4, r.code + r.source * 65536, s.rd (R.PORT_TICKNUM_VAL s.viewVat (s.rd R.REC_CFG_RPORT)), r.ns, r.era,
      npre, first, npre]
    let s := (List.range 8).foldl (fun s i => headerWord s g i (nth hdr i 0)) s
    s.event 0x06 0x1602 g

/-- POST frames have been recorded: the capture is complete, and the next segment is armed (R425). -/
def completeCapture (s : State) : State :=
  match s.rcd.phase with
  | .post 0 =>
    let g := s.rd R.REC_STAT_ARMSEG
    let w := (s.readMem (segBase s g)).toNat
    let s := headerWord s g 0 (w / 4 * 4 + 3)
    let s := headerWord s g 7 (s.rcd.npre + s.rd R.REC_POST_POST)
    let s := { s with rcd := { s.rcd with phase := .off, complete := s.rcd.complete ++ [g] } }
    let s := s.event 0x06 0x1603 g
    let n := recSegs s
    match ((List.range n).map (fun i => (g + 1 + i) % n)).find? (fun h => !s.rcd.complete.contains h) with
    | some h => armSegment s h
    | none =>
      match s.rcd.complete with
      | h :: _ => if s.is R.REC_CFG_OVWR then armSegment s h else s
      | [] => s
  | _ => s

def execCaptureComplete (s : State) : Host.Outcome State Fault Refusal := .next (settle (completeCapture s))

/-! ## The log ring -/

/-- MLAG: the records not yet mirrored, of which the mirror keeps the newest 256 (R423). -/
def refreshLag (s : State) : State := s.wr R.LOG_TAIL_MLAG (min (s.log.written - s.log.mirror) 256)

/-- A record enters the ring at HEAD, and HEAD advances (R420). -/
def enterRing (s : State) (r : LogRec) : State :=
  let h := s.rd R.LOG_HEAD_HEAD
  let s := s.writeBytes (logRing + 16 * h) r.bytes
  let s := s.wr R.LOG_HEAD_HEAD ((h + 1) % logSlots)
  let s := { s with log := { s.log with written := s.log.written + 1 } }
  if (h + 1) % logSlots == 0 then s.incWrap R.LOG_HEAD_WRAPS else s

/-- The records lost so far, in one record 0x1601, once the queue has room (R421). -/
def reportLost (s : State) : State :=
  let n := s.log.lostPend
  if n == 0 || s.log.full then s else ({ s with log := { s.log with lostPend := 0 } }).event 0x06 0x1601 n

/-- The oldest queued record enters the ring; recorder triggers are matched; a waiting 0x1601 takes the room. -/
def writeRecord (s : State) : State :=
  match s.log.queue with
  | [] => s
  | r :: q =>
    let s := enterRing { s with log := { s.log with queue := q, mark := s.log.mark - 1 } } r
    refreshLag (reportLost (fireTriggers s (triggersOf s r) r))

def execLogRecordWrite (s : State) : Host.Outcome State Fault Refusal := .next (settle (writeRecord s))

/-! ## The tail mirror (R422, R423) -/

abbrev ferroBase : Nat := 0x40600000

/-- The next record of the ring goes into this start's tail area; far behind, the mirror skips to the newest 256. -/
def mirrorRecord (s : State) : State :=
  if s.log.written ≤ s.log.mirror then s else
    let m := if 256 < s.log.written - s.log.mirror then s.log.written - 256 else s.log.mirror
    let w := s.readBytes (logRing + 16 * (m % logSlots)) 16
    let lap := s.log.mirrored / 256 % 255 + 1
    let w := modNth w 3 (fun _ => BitVec.ofNat 8 lap)
    let a := ferroBase + 0xC000 + s.rd R.LOG_TAIL_TAILSEL * 0x1000 + s.log.mirrored % 256 * 16
    let s := s.writeBytes a w
    refreshLag { s with log := { s.log with mirror := m + 1, mirrored := s.log.mirrored + 1 } }

def execTailMirror (s : State) : Host.Outcome State Fault Refusal := .next (settle (mirrorRecord s))

/-- A start selects and empties the next tail area and writes its directory entry (R422). With no good copy the register's TAILSEL
counts, and the count of starts begins again. (DESIGN CHOICE: notes/assumptions/105.md.) -/
def selectTail (s : State) : State :=
  let a := (s.nv.tailSel.first.getD (s.rd R.LOG_TAIL_TAILSEL) + 1) % 4
  let n := s.nv.starts.higher.getD 0 + 1
  let s := { s.wr R.LOG_TAIL_TAILSEL a with nv := { s.nv with tailSel := s.nv.tailSel.put a, starts := s.nv.starts.put n } }
  let s := { s with mem := Memory.clear s.mem (ferroBase + 0xC000 + a * 0x1000) (ferroBase + 0xD000 + a * 0x1000) }
  let s := s.writeMem (ferroBase + 0xBFC0 + a * 16) (BitVec.ofNat 32 n)
  s.writeMem (ferroBase + 0xBFC4 + a * 16) (s.regs.get R.RST_CAUSE)

/-! ## Brine (R428, R429) -/

/-- The byte address of offset 0 of Brine's memory `m`, and its size; a whey buffer has no byte address. -/
def brineBase (m : Nat) : Option (Nat × Nat) :=
  match m with
  | 0 => some (0x10000000, 0x180000)
  | 1 => some (ferroBase, 0x10000)
  | 2 => some (0x50000000, 0x400000)
  | 3 => some (0x51000000, 0x100000)
  | 5 => some (0x60000000, 0x400000)
  | 6 => some (0x61000000, 0x100000)
  | _ => none

/-- The vat whose memory `m` is. -/
def brineVat (m : Nat) : Option Vat := if m < 2 then none else if m < 5 then some .A else some .B

def brineSource (m : Nat) : Nat :=
  match brineVat m with
  | none => 0x07
  | some v => vatSource v 0x0F

def brineEvent (s : State) (m code data : Nat) : State :=
  match brineVat m with
  | none => s.event 0x07 code data
  | some v => s.vatEvent v 0x0F code data

def brineFlag (s : State) (m : Nat) (f : Field) : State :=
  match brineVat m with
  | none => s.flag 0x07 f
  | some v => if (s.vat v).inReset then s.set1 f else s.flag (brineSource m) f

/-- Brine's memory and the offset of a byte address in a SECDED memory. -/
def secdedAt (a : Nat) : Option (Nat × Nat) :=
  [0, 1, 2, 3, 5, 6].findSome? (fun m => match brineBase m with
    | some (b, n) => if b ≤ a && a < b + n then some (m, a - b) else none
    | none => none)

/-- What a master's read finds in a word (R428, R429): 1 a single-bit error, 2 a double-bit error. -/
def readUpset (s : State) (a : Nat) : Nat :=
  match secdedAt a with
  | some (m, _) => if (brineVat m).all s.hasVat then Config.wordUpset s.time.vt a else 0
  | none => 0

/-- A single-bit error: corrected and counted. -/
def brineSingle (s : State) (m off : Nat) : State :=
  brineFlag ((s.incSat (R.BRINE_SBE_VAL m)).wr (R.BRINE_LAST_VAL m) off) m (R.BRINE_FLAGS_SBE_F m)

/-- A copy in the ferroelectric store no longer has a good CRC: both copies of the values in the order of R435. -/
def NvSt.spoil (x : NvSt) (k : Nat) : NvSt :=
  match k with
  | 0 => { x with fails0 := none }
  | 1 => { x with fails1 := none }
  | 2 => { x with floor := { x.floor with c0 := none } }
  | 3 => { x with floor := { x.floor with c1 := none } }
  | 4 => { x with patchFloor := { x.patchFloor with c0 := none } }
  | 5 => { x with patchFloor := { x.patchFloor with c1 := none } }
  | 6 => { x with certMin := { x.certMin with c0 := none } }
  | 7 => { x with certMin := { x.certMin with c1 := none } }
  | 8 => { x with conf0 := none }
  | 9 => { x with conf1 := none }
  | 10 => { x with tailSel := { x.tailSel with c0 := none } }
  | 11 => { x with tailSel := { x.tailSel with c1 := none } }
  | 12 => { x with starts := { x.starts with c0 := none } }
  | 13 => { x with starts := { x.starts with c1 := none } }
  | _ => x

/-- A copy of a value with its CRC-32C; a bad copy is no bytes of the value. -/
def copyValues (n : Nat) : Option Nat → List Nat
  | some x => [x, crc32c (leBytes n x)]
  | none => []

/-- Both copies. -/
def twinValues (n : Nat) (t : Twin) : List Nat := copyValues n t.c0 ++ copyValues n t.c1

/-- A copy of the confirmed values as one number: the values, their marks and NEXTCONF. -/
def ConfCopy.value (c : ConfCopy) : Nat :=
  c.conf0 + c.conf1 * 2 ^ 32 + boolNat c.mark0 * 2 ^ 64 + boolNat c.mark1 * 2 ^ 65 + boolNat c.next * 2 ^ 66

/-- What the ferroelectric store keeps at 0x4000-0x4FFF (R44, R49, R383, R435): copies with their CRC-32C. -/
def storeValues (s : State) : List Nat :=
  twinValues 1 ⟨s.nv.fails0, s.nv.fails1⟩ ++ twinValues 8 s.nv.floor ++ twinValues 8 s.nv.patchFloor ++ twinValues 4 s.nv.certMin
    ++ copyValues 9 (s.nv.conf0.map ConfCopy.value) ++ copyValues 9 (s.nv.conf1.map ConfCopy.value)
    ++ twinValues 1 s.nv.tailSel ++ twinValues 4 s.nv.starts ++ [s.nv.epoch] ++ s.nv.fvUpper.flatMap (fun q => [q.1, q.2.1, q.2.2])

/-- Copy `k` of a persistent counter has no good CRC. -/
def NvSt.copyBad (x : NvSt) (k : Nat) : Bool :=
  match k with
  | 0 => x.fails0.isNone
  | 1 => x.fails1.isNone
  | 2 => x.floor.c0.isNone
  | 3 => x.floor.c1.isNone
  | 4 => x.patchFloor.c0.isNone
  | 5 => x.patchFloor.c1.isNone
  | 6 => x.certMin.c0.isNone
  | 7 => x.certMin.c1.isNone
  | 8 => x.conf0.isNone
  | 9 => x.conf1.isNone
  | 10 => x.tailSel.c0.isNone
  | 11 => x.tailSel.c1.isNone
  | 12 => x.starts.c0.isNone
  | 13 => x.starts.c1.isNone
  | _ => true

/-- An overwritten byte at 0x4000-0x4FFF still stands: its copy has not been written anew since. -/
def NvSt.stands (x : NvSt) (off : Nat) : Bool := 0x4800 ≤ off || x.copyBad (Config.storeCopyAt off)

/-- The byte that was overwritten at an offset of 0x4000-0x4FFF and stands. -/
def NvSt.rawAt (x : NvSt) (off : Nat) : Option Byte :=
  ((x.raw.find? (fun r => r.1 == off)).filter (fun _ => x.stands off)).map (fun r => r.2)

/-- A freshness value one of whose bytes is overwritten is what the arrangement makes of them (notes/assumptions/105.md). -/
def NvSt.refresh (x : NvSt) (off : Nat) (b : Byte) : NvSt :=
  match Config.freshItemAt off with
  | 0 => { x with epoch := Config.freshValue off b x.epoch % 4096 }
  | k + 1 =>
    let c := k / 1024
    let e := k % 1024
    { x with fvUpper := x.fvUpper.filter (fun q => !(q.1 == c && q.2.1 == e)) ++ [(c, e, Config.freshValue off b (x.upper c e) % 4096)] }

/-- A byte of memory as a bus read returns it. -/
def busByte (s : State) (a : Nat) : Byte :=
  if 0x40604000 ≤ a && a < 0x40605000 then
    (s.nv.rawAt (a - 0x40600000)).getD (Config.storeByte (a - 0x40600000) (storeValues s))
  else s.readByte a

/-- A byte at 0x4000-0x4FFF of the store is overwritten: it reads as written, and the value it belongs to goes with it: the copy of a
persistent counter has a bad CRC, a freshness value another content (R435; notes/assumptions/105.md). -/
def overwriteByte (s : State) (off : Nat) (b : Byte) : State :=
  if busByte s (ferroBase + off) = b then s else
    let x := { s.nv with raw := (off, b) :: s.nv.raw.filter (fun r => r.1 != off && s.nv.stands r.1) }
    { s with nv := if off < 0x4800 then x.spoil (Config.storeCopyAt off) else x.refresh off b }

/-- Bytes at 0x4000-0x4FFF of the store are overwritten. -/
def overwriteStore (s : State) (off : Nat) : List Byte → State
  | [] => s
  | b :: bs => overwriteStore (overwriteByte s off b) (off + 1) bs

/-- `n` bytes are zero from an address. -/
def State.zeroBytes (s : State) (a n : Nat) : State := s.writeBytes a (List.replicate n 0)

/-- A word of memory `m` with a byte address is rewritten as zero; a slot of the log ring or of the tail so reads as empty whole, and a
word of the store's supervisor area is overwritten there. -/
def zeroWord (s : State) (m b off : Nat) : State :=
  if (m = 0 && 0x40000 ≤ off && off < 0x80000) || (m = 1 && 0xC000 ≤ off) then s.zeroBytes (b + off / 16 * 16) 16
  else if m = 1 && 0x4000 ≤ off && off < 0x5000 then overwriteStore s off (List.replicate 4 0)
  else s.writeMem (b + off) 0

/-- A single-bit error that a master's read finds is corrected in the data returned and counted. -/
def countRead (s : State) (a : Nat) : State :=
  match secdedAt a with
  | some (m, off) => if readUpset s a = 1 then brineSingle s m off else s
  | none => s

/-- The word is rewritten as zero: engine `off / 0x8000` words apart in a whey memory. -/
def brineZero (s : State) (m off : Nat) : State :=
  match brineBase m, brineVat m with
  | some (b, n), _ => if off < n then zeroWord s m b off else s
  | none, some v =>
    modEng s v (off / 0x8000) (fun e => { e with whey := eraseKey (off % 0x8000 / 4) e.whey })
  | none, none => s

/-- The memory is critical state whole: a vat's supervisor memory and its engine-local memory (R375). -/
def criticalMemory (m : Nat) : Option Vat := if m % 3 = 1 then none else brineVat m

/-- A master's read meets a double-bit error: in critical state it is an error of the vat's (R243, R429). -/
def readDouble (s : State) (a : Nat) : State :=
  match (secdedAt a).bind (fun q => criticalMemory q.1) with
  | some v => raiseFlt s v 2
  | none => s

/-- The word lies in an open bank of the whey buffer: engine, slot and bank (R141). -/
def wheyBankOf (s : State) (v : Vat) (off : Nat) : Option (Nat × Nat × Nat) :=
  let c := off / 0x8000
  let w := off % 0x8000 / 4
  ((List.range 4).flatMap (fun k => [(k, 0), (k, 1)])).findSome? (fun q =>
    let b := s.rd (R.WHEY_BASE_BASE v c q.1) + q.2 * s.rd (R.WHEY_SIZE_WSZ v c q.1)
    if s.is (R.GS_BIND_BOUND v c q.1) && b ≤ w && w < b + s.rd (R.WHEY_SIZE_WSZ v c q.1)
        && (getSlot s v c q.1).evals.any (fun e => e.holds && e.bank == q.2) then some (c, q.1, q.2) else none)

/-- The bank is being written back by a commit, whose errors are of the vat's critical state (R141, R375). -/
def writingBack (s : State) (v : Vat) (c k b : Nat) : Bool :=
  !engFrozen s v c && ((getSlot s v c k).evals.find? (fun e => e.holds && e.bank == b)).any (fun e => e.phase == .committing)

/-- The word is critical state: its vat. -/
def criticalWord (s : State) (m off : Nat) : Option Vat :=
  (criticalMemory m).or ((brineVat m).filter (fun v => m % 3 == 1 && (wheyBankOf s v off).any (fun q => writingBack s v q.1 q.2.1 q.2.2)))

/-- A double-bit error that Brine finds is counted and logged. In critical state it is the vat's error (R243, R374); elsewhere the word is
rewritten as zero, and in a whey bank R141 rules. (DEDUCED: notes/assumptions/105.md.) -/
def brineDouble (s : State) (m off : Nat) : State :=
  let t := (s.incSat (R.BRINE_DBE_DBE m)).wr (R.BRINE_LAST_VAL m) off
  let t := brineEvent (t.set1 (R.BRINE_FLAGS_DBE_F m)) m (0x1400 + m) off
  match criticalWord s m off with
  | some v => raiseFlt t v 2
  | none =>
    let t := brineZero t m off
    match brineVat m with
    | some v =>
      match wheyBankOf t v off with
      | some (c, k, b) => wheyError t v c k b
      | none => t
    | none => t

/-- Brine reads one word of memory `m`: no error, a single-bit or a double-bit error. -/
def execBrineScrub (m : Fin 8) (off : Nat) (r : ScrubResult) (s : State) : Host.Outcome State Fault Refusal :=
  let off := off % 0x400000 / 4 * 4
  .next (settle (if s.dev = .off || !(match brineVat m.val with | some v => s.hasVat v | none => true) then s else
    match r with
    | .clean => s
    | .single => brineSingle s m.val off
    | .double => brineDouble s m.val off))

/-- The store controller rewrites every word of its store with what it holds (R462). -/
def execNvStoreRefresh (s : State) : Host.Outcome State Fault Refusal := .next (settle s)

end Sys2Proof.Machine
end

