-- ==== Sys2Proof/Machine/SenseOut.lean ====
section
/-! DEFINITION. A slice's output (03_sense_path.md R57, R61, R64, R67, R97), background gain calibration (R74, R75) and the
plausibility pairs (R76-R78). -/

namespace Sys2Proof.Machine

open Sys2Proof

/-! ## Background gain calibration (R74, R75) -/

/-- A graph of this vat consumes channel `n`, and its GRID port is in RUN, or has been for the whole window. -/
def gridConsumed (s : State) (v : Vat) (n : Nat) (whole : Bool := false) : Bool :=
  (List.range 8).any (fun p => gridPort s v p && portState s v p == RUN && (!whole || (getPort s v p).ranWindow) &&
    (match portGraph s v p with
    | some (c, k) => (getSlot s v c k).defs.any (fun d => d.btype == 0x27 && (nth d.pars 0 0).toNat % 64 == n)
    | none => false))

/-- The conditions of R74 hold now, or have held for the whole window in the port and the Rind (the channel's own VALID is in
`winBad`); an unpowered Rind's window reads zero (R305). -/
def calActive (s : State) (v : Vat) (n : Nat) (whole : Bool := false) : Bool :=
  let i := s.rd (R.SLICE_CAL_MTR_CH v n)
  s.variant.metered && s.is (R.SLICE_CAL_GCAL_EN v n) && chanValid s v n && gridConsumed s v n whole
    && s.rind.powered && s.is (R.R_INST_VALID i) && (!whole || bitOf s.rind.validAll i)

/-- The window of channel `n` takes a sample, or is spoilt. -/
def calSample (s : State) (v : Vat) (n : Nat) (q : Int) : State :=
  if calActive s v n then modChan s v n (fun c => { c with sumSq := c.sumSq + (q * q).toNat, num := c.num + 1 })
  else modChan s v n (fun c => { c with winBad := true })

/-- The correction that one window asks for: round(err * 2^20 / TAU), with the RMS `c` as a fraction of full scale (R74). -/
def calStep (c r ratio : Word) (tau : Nat) : Int :=
  let err := F32.sub (F32.div r (F32.mul ratio c)) F32.one
  F32.toInt (F32.div err (F32.ofNat tau)) 20

/-- The RMS of a window in input counts. -/
def windowRms (c : ChanSt) : Word := F32.sqrt (F32.ofRat c.sumSq (max c.num 1))

/-- The boundary of the 1 s window on one channel of one vat (R74, R75). -/
def calWindow (s : State) (v : Vat) (n : Nat) : State :=
  let ch := getChan s v n
  let rms := windowRms ch
  let s' :=
    if !calActive s v n true || ch.winBad || ch.num = 0 || F32.lt rms (F32.ofNat (s.rd (R.SLICE_CAL_MINLVL v n))) then s
    else
      let r := s.regs.get (R.R_IN (s.rd (R.SLICE_CAL_MTR_CH v n)))
      let c := F32.mul rms (F32.ofScaled 1 (-15))
      let g := clampInt (-5243) 5243 (s.signedRd (R.SLICE_GCAL_GCAL v n)
        + calStep c r (s.regs.get (R.SLICE_RATIO v n)) (s.rd (R.SLICE_CAL_TAU v n)))
      let lim := decide (g = 5243 ∨ g = -5243)
      let rise := lim && !s.is (R.SLICE_GCAL_AT_LIMIT v n)
      let s := (s.wr (R.SLICE_GCAL_GCAL v n) (unsignedOf 16 g)).wr (R.SLICE_GCAL_AT_LIMIT v n) (boolNat lim)
      if rise then s.vatEvent v uSENSE 0x0700 0 else s
  modChan s' v n (fun c => { c with sumSq := 0, num := 0, winBad := !calActive s' v n })

/-- The conditions of the next window are watched from its boundary on. -/
def beginWindow (s : State) : State :=
  let s := { s with rind := { s.rind with
    validAll := (List.range 8).foldl (fun m i => if s.is (R.R_INST_VALID i) then m + 2 ^ i else m) 0 } }
  forVats s (fun s v => forN 8 s (fun s p => modPort s v p (fun q => { q with ranWindow := portState s v p == RUN })))

def execGcalWindow (s : State) : Host.Outcome State Fault Refusal :=
  .next (settle (beginWindow (forVats s (fun s v => if s.vatLive v then
    forN 64 s (fun s n => if s.is (R.SLICE_CAL_GCAL_EN v n) then calWindow s v n else s) else s))))

/-! ## A slice's output -/

/-- The joining vat takes the owner's freeze monitor when settling ends (R64). -/
def takeMonitor (s : State) (v : Vat) (n : Nat) : State :=
  if !(getChan s v n).copyMon || s.owner != some v.other then s else
    let o := getChan s v.other n
    let s := modChan s v n (fun c => { c with fzRef := o.fzRef, fzCnt := o.fzCnt, copyMon := false })
    if s.is (R.SLICE_DATA_FROZEN v.other n) then
      (if s.is (R.SLICE_DATA_FROZEN v n) then s
       else (s.set1 (R.SLICE_DATA_FROZEN v n)).vatFlagEdge v uSENSE (R.SLICE_STAT_FROZEN_F v n))
    else s.clr (R.SLICE_DATA_FROZEN v n)

/-- Settling counts down one suppressed output (R61), held while the input is stale (R66, R69). -/
def settleOutput (s : State) (v : Vat) (n : Nat) : State :=
  let k := s.rd (R.SLICE_STAT_SETTLE_LEFT v n)
  if s.is (R.SLICE_DATA_STALE v n) then s
  else if 0 < k then
    let s := s.wr (R.SLICE_STAT_SETTLE_LEFT v n) (k - 1)
    if k = 1 then takeMonitor s v n else s
  else s.clr (R.SLICE_DATA_SUPP v n)

/-- A suppressed output comes while settling samples are still to be counted. -/
def outputSuppressed (s : State) (v : Vat) (n : Nat) : Bool :=
  s.is (R.SLICE_DATA_SUPP v n) && (s.is (R.SLICE_STAT_SETTLE_LEFT v n) || s.is (R.SLICE_DATA_STALE v n))

/-- The sample enters the channel's registers and its monitors. -/
def takeSample (s : State) (v : Vat) (n : Nat) (x : Int) (sat : Bool) : State :=
  let supp := outputSuppressed s v n
  let s := (s.wr (R.SLICE_DATA_SAMPLE v n) (unsignedOf 24 x)).incWrap (R.SLICE_SEQ_SEQ v n)
  let s := if s.is (R.SLICE_DATA_SUPP v n) then settleOutput s v n else s
  let s := if sat && !supp then s.vatFlag v uSENSE (R.SLICE_STAT_SAT_F v n) else s
  let s := if supp || s.is (R.SLICE_DATA_STALE v n) || s.is (R.SLICE_DATA_CLKLOSS v n) then s else freezeSample s v n (q15View x)
  let s := refreshValid s v n
  if s.is (R.SLICE_CAL_GCAL_EN v n) then calSample s v n (q15View x) else s

/-- A channel's output: the filter, the trims, the sample (R55, R57). -/
def sliceOutput (s : State) (v : Vat) (n : Nat) (bits : BitVec 256) : State :=
  let osr := chanOsr s v n
  let r := cicPeriod (getChan s v n) bits osr (s.is (R.SLICE_CFG_INV v n))
  let raw := rawValue (s.rd (R.SLICE_CFG_PRESET v n) == 4) osr r.1 r.2
  let y := trimmed raw.1 raw.2 (s.signedRd (R.SLICE_TRIM_GAIN_W v n) + s.signedRd (R.SLICE_GCAL_GCAL v n))
    (s.signedRd (R.SLICE_TRIM_OFFS_W v n))
  takeSample (modChan s v n (fun _ => r.1)) v n y.1 y.2

/-- A group without clock gives no outputs; one whose clock is back gives outputs that CLKLOSS keeps from being VALID until its
reset takes effect (R68). -/
def execSliceOutput (v : Vat) (n : Fin 64) (bits : BitVec 256) (arr : BitVec 8) (s : State) :
    Host.Outcome State Fault Refusal :=
  .next (settle (
    if s.vatLive v && s.is (R.SLICE_CFG_PRESET v n.val) && !s.is (R.SGRP_STAT_CLKLOSS v (n.val / 8)) then
      let s := sliceOutput s v n.val bits
      forN 8 s (fun s p => if bitOf arr.toNat p then arrive s v p n.val (chanQ15 s v n.val) (chanValid s v n.val) else s)
    else s))

/-! ## Plausibility pairs (R76-R78) -/

/-- The pair's fault (R78); the owning vat's raises the safety fault (PPMASK, R286). -/
def pairFault (s : State) (v : Vat) (k p : Nat) : State :=
  let s := (s.set1 (R.PP_STAT_FAULT_F v k)).vatEvent v uSENSE 0x1700 (flagData (R.PP_STAT_FAULT_F v k))
  let s := s.wr (R.PP_STAT_COUNT v k) 0
  match s.rd (R.PP_CFG_ACTION v k) with
  | 1 => if s.owner == some v then safetyFault (s.wrBit R.SAFE_FAULT_PPMASK k true) 0 else s
  | 2 => if portState s v p = RUN then enterFaultPattern s v p causePLAUSIBILITY else s
  | _ => s

/-- d = GAIN_A a - GAIN_B b - OFFS in binary32 (R76), every product and difference rounded on its own: R467's fusing speaks of
blocks, and no rule of pairs. (DESIGN CHOICE: notes/assumptions/51.md.) -/
def pairDiff (s : State) (v : Vat) (k : Nat) (a b : Int) : Word :=
  F32.sub (F32.sub (F32.mul (s.regs.get (R.PP_GAIN_A v k)) (F32.ofQ15 a)) (F32.mul (s.regs.get (R.PP_GAIN_B v k)) (F32.ofQ15 b)))
    (s.regs.get (R.PP_OFFS v k))

/-- One pair at a tick of its port. -/
def pairTick (s : State) (v : Vat) (k p : Nat) : State :=
  let a := sourceQ15 s v (s.rd (R.PP_CFG_SRC_A v k))
  let b := sourceQ15 s v (s.rd (R.PP_CFG_SRC_B v k))
  if !a.2 || !b.2 then s.set1 (R.PP_STAT_INVAL v k)
  else
    let d := pairDiff s v k a.1 b.1
    let s := (s.clr (R.PP_STAT_INVAL v k)).wrWord (R.PP_LAST_D v k) d
    if F32.lt (s.regs.get (R.PP_THR v k)) (F32.abs d) then
      let n := min (s.rd (R.PP_STAT_COUNT v k) + 1) 255
      let s := s.wr (R.PP_STAT_COUNT v k) n
      let s := if s.owner == some v && s.rdBit R.SAFE_FAULT_PPMASK k then notePresent s 0 else s
      if s.rd (R.PP_CFG_PERSIST v k) ≤ n then pairFault s v k p else s
    else s.wr (R.PP_STAT_COUNT v k) 0

/-- DEDUCED: notes/assumptions/51.md. -/
def pairsTick (s : State) (v : Vat) (p : Nat) : State :=
  forN 16 s (fun s k => if s.is (R.PP_CFG_EN v k) && s.rd (R.PP_CFG_PORT v k) == p then pairTick s v k p else s)

end Sys2Proof.Machine
end

