-- ==== Sys2Proof/Machine/Join.lean ====
section
/-! DEFINITION. Joining (11_vats_and_takeover.md R256-R258, R64, R81), the comparator and attribution (R246-R248), the
ownership arbiter's claims and pad readback (R249, R250), the handover drill (R260-R262). -/

namespace Sys2Proof.Machine

open Sys2Proof

/-! ## The first stage of a join (R256) -/

/-- The parts of a register that a joining vat keeps: what the wheel wrote, and its own flags. -/
def joinKeeps (a : Nat) : Nat :=
  match findReg a with
  | some (row, _) => Nat.lor row.lk row.w1c
  | none => 0

/-- Take the owner's registers in a range of window offsets, but for LK fields and flags. -/
def takeRegs (s : State) (v : Vat) (lo hi : Nat) : State :=
  let w := v.other
  let offs := s.regs.filterMap (fun e =>
    if inWindow w e.1 && lo ≤ e.1 - w.base && e.1 - w.base < hi then some (e.1 - w.base)
    else if inWindow v e.1 && lo ≤ e.1 - v.base && e.1 - v.base < hi then some (e.1 - v.base)
    else none)
  offs.foldl (fun s o =>
    s.wrWord (v.base + o) (keepBits (s.regs.get (w.base + o)) (s.regs.get (v.base + o)) (joinKeeps (v.base + o)))) s

/-- A channel restarts at the owner's phase, on the owner's slice, with its calibration and its move qualifier (R67); while CLKLOSS stands
in the owner (its group's clock is lost, or its reset is still pending) it takes that instead (R64, R68). -/
def joinChan (s : State) (v : Vat) (n : Nat) : State :=
  let w := v.other
  let s := s.wr (R.SLICE_STAT_SERVED_BY v n) (s.rd (R.SLICE_STAT_SERVED_BY w n))
  let s := s.wrWord (R.SLICE_GCAL v n) (s.regs.get (R.SLICE_GCAL w n))
  let o := getChan s w n
  let s := if s.is (R.SLICE_DATA_CLKLOSS w n) then loseChan s v n
    else modChan (restartChan s v n) v n (fun c => { c with copyMon := true })
  modChan s v n (fun c => { c with qual := o.qual })

/-- One group: its clock, the requests that are pending in the owner, so that they take effect in both vats at once (R59), and
its channels. -/
def joinGroup (s : State) (v : Vat) (g : Nat) : State :=
  let w := v.other
  let s := if s.is (R.SGRP_STAT_CLKLOSS w g) then (s.set1 (R.SGRP_STAT_CLKLOSS v g)).vatFlag v uSENSE (R.SGRP_STAT_CLKLOSS_F v g)
    else s.clr (R.SGRP_STAT_CLKLOSS v g)
  let s := s.wrWord (R.SGRP_SYNC v g) (s.regs.get (R.SGRP_SYNC w g))
  let s := (s.wr (R.SGRP_ROT_FREE v g) (s.rd (R.SGRP_ROT_FREE w g))).wr (R.SGRP_ROT_STEPS v g) (s.rd (R.SGRP_ROT_STEPS w g))
  let o := getGrp s w g
  let s := modGrp s v g (fun x => { x with rot := o.rot, lastRot := o.lastRot, autoPend := o.autoPend, edgeAt := o.edgeAt })
  forN 8 s (fun s i => joinChan s v (8 * g + i))

/-- FREE of a group with no step in progress: the slice that is free in this vat, also where the owner has none left (R70, R73). -/
def joinFree (s : State) (v : Vat) (g : Nat) : State :=
  match (getGrp s v g).rot, freeSlice s v g with
  | .idle, some f => s.wr (R.SGRP_ROT_FREE v g) f
  | _, _ => s

/-- A slice that is RETIRED in the joining vat stays out of use (R73): the group's free slice serves its channel, and the
group's rotation, stopped in this vat, has no step in progress. (DEDUCED: notes/assumptions/50.md.) -/
def joinRetired (s : State) (v : Vat) (f : Nat) : State :=
  if !s.is (R.SLICE_PHYS_RETIRED v f) then s else
    let g := if f < 64 then f / 8 else f - 64
    let free := s.rd (R.SGRP_ROT_FREE v g)
    let c := s.rd (R.SLICE_PHYS_CHAN v f)
    let s := if s.rd (R.SLICE_PHYS_MODE v f) = 1 then
        let s := ((s.wr (R.SLICE_PHYS_MODE v free) 1).wr (R.SLICE_PHYS_CHAN v free) c).wr (R.SLICE_STAT_SERVED_BY v c) free
        s.wr (R.SGRP_ROT_FREE v g) f
      else s
    modGrp (s.wr (R.SLICE_PHYS_MODE v f) 0) v g (fun x => { x with rot := .idle })

/-- The slices' modes and channels. -/
def joinSlices (s : State) (v : Vat) : State :=
  let s := forN 72 (forN 8 s (fun s g => joinGroup s v g)) (fun s f =>
    (s.wr (R.SLICE_PHYS_MODE v f) (s.rd (R.SLICE_PHYS_MODE v.other f))).wr (R.SLICE_PHYS_CHAN v f)
      (s.rd (R.SLICE_PHYS_CHAN v.other f)))
  forN 72 (forN 8 s (fun s g => joinFree s v g)) (fun s f => joinRetired s v f)

/-- The position inputs take COUNT, REF and BADRUN, and the frame that runs (R184). -/
def joinPositions (s : State) (v : Vat) : State :=
  forN 8 s (fun s i =>
    let o := getPos s v.other i
    let s := (s.wr (R.POS_COUNT_COUNT v i) (s.rd (R.POS_COUNT_COUNT v.other i))).wr (R.POS_STAT_REF v i)
      (s.rd (R.POS_STAT_REF v.other i))
    let s := s.wr (R.POS_STAT_BADRUN v i) (s.rd (R.POS_STAT_BADRUN v.other i))
    modPos s v i (fun x => { x with cnt := o.cnt, indexed := o.indexed, frame := o.frame, monoEnd := o.monoEnd }))

/-- The pulse generator and the driver links load from the owner's; the AUX sequencers take its position, at its
next frame boundary: the frame in progress is not this vat's (R81). -/
def joinPulse (s : State) (v : Vat) : State :=
  let w := s.vat v.other
  let s := takeRegs (takeRegs s v 0x04000000 0x04030000) v 0x04600000 0x04600400
  s.modVat v (fun x => { x with
    ports := (x.ports.zip w.ports).map (fun q => { q.2 with
      reloadSeen := false, await := [], engineLost := q.1.engineLost, renum := q.1.renum })
    legs := w.legs, dlrs := w.dlrs, guards := w.guards, setps := w.setps
    aux := w.aux.map (fun a => { a with badRun := 0, goodRun := 0, got := 0, skip := a.cur.isSome }) })

/-- A graph whose engine is retired in the joining vat takes its place in the fallback, or the join fails (R256). -/
def joinFallback (s : State) (v : Vat) (w : WheelGraph) : State :=
  if !engRetired s v w.engine then s else
    match placeFor s v w with
    | some j => placeGraph s v w.fallback j w true
    | none => failJoin s v

/-- The slots of a joining vat. -/
def joinGraphs (s : State) (v : Vat) : State :=
  let s := forN 8 s (fun s c => forN 4 (s.wr (R.CE_WORDS_WORDS v c) (nth s.whl.words c 0)) (fun s k => clearSlot s v c k))
  let s := s.whl.graphs.foldl (fun s w => if engRetired s v w.engine then s else placeGraph s v w.engine w.slot w false) s
  s.whl.graphs.foldl (fun s w => if s.is (R.VAT_ROLE_JOINING v) then joinFallback s v w else s) s

/-- A vat leaves VAT reset and joins (R256): its first stage, at one T cycle. (DEDUCED: notes/assumptions/18.md.) -/
def releaseVat (s : State) (v : Vat) : State :=
  let s := s.modVat v (fun x => { x with inReset := false, started := true, copied := false })
  let s := { s with rst := { s.rst with withdrawn := modNth s.rst.withdrawn (v.code + 1) (fun _ => 0) } }
  let s := (setRole s v roleSTANDBY).clr (R.VAT_ROLE_SYNCOK v)
  let s := ((s.clr (R.VAT_ROLE_FLT v)).wr (R.VAT_ROLE_FLTSRC v) 0).set1 (R.VAT_ROLE_JOINING v)
  refreshLeft (joinGraphs (joinPositions (joinSlices (joinPulse s v) v) v) v) v

/-- GOOD of the vat's loop, PLL-SA or PLL-SB. -/
def vatClockGood (s : State) (v : Vat) : Bool := s.rdBit R.CLK_STAT_GOOD (v.code - 1)

/-- A vat may be released: it is in VAT reset and not RETIRED, its clock is good, its pulse generator's reset is not
deferred, and the other vat owns. -/
def releasable (s : State) (v : Vat) : Bool :=
  s.hasVat v && s.dev.onward && (s.vat v).inReset && !(s.vat v).pulseHeld && role s v != roleRETIRED && vatClockGood s v
    && s.owner == some v.other && s.vatLive v.other

def execVatRelease (v : Vat) (s : State) : Host.Outcome State Fault Refusal :=
  .next (settle (if releasable s v then releaseVat s v else s))

/-! ## The second and third stages -/

/-- Engine-local memory is copied whole. -/
def copyEngineMemory (s : State) (v : Vat) : State :=
  let lo := v.other.base + 0x01000000
  let cells := s.mem.filter (fun c => lo ≤ c.1 && c.1 < lo + 0x100000)
  let s := { s with mem := Memory.clear s.mem (v.base + 0x01000000) (v.base + 0x01100000) }
  cells.foldl (fun s c => s.writeByte (c.1 - v.other.base + v.base) c.2) s

/-- A graph placed in its fallback has its own slot in its descriptors, as a migration gives it (R93, R126): the words copied from
the owner name the owner's. -/
def placeGuests (s : State) (v : Vat) : State :=
  forN 8 s (fun s c => forN 4 s (fun s k =>
    if s.is (R.GS_BIND_BOUND v c k) && s.rd (R.GS_BIND_ORIGIN v c k) != c then writeDescSlot s v c k (getSlot s v c k).defs else s))

def execJoinCopyComplete (v : Vat) (s : State) : Host.Outcome State Fault Refusal :=
  .next (settle (
    if s.vatLive v && s.is (R.VAT_ROLE_JOINING v) && !(s.vat v).copied then
      (placeGuests (copyEngineMemory s v) v).modVat v (fun x => { x with copied := true })
    else s))

/-- Every channel and auxiliary source that a graph consumes is VALID in this vat. -/
def sourcesValid (s : State) (v : Vat) (g : GraphSt) : Bool :=
  g.defs.all (fun d => d.btype == 0x26 || sourceValid s v d)

/-- A graph enters a joining vat at its port's tick (R256, R149), with the committed state of the owner's. -/
def enterGraph (s : State) (v : Vat) (c k : Nat) (f j : Nat) : State :=
  let w := v.other
  let o := getSlot s w f j
  let s := copyGraph s w f o.defs v c (getSlot s v c k).defs
  let s := copyHist s w f j v c k o.preds.length
  let s := (s.wrWord (R.GS_TICK v c k) (s.regs.get (R.GS_TICK w f j))).wrWord (R.GS_OUT v c k) (s.regs.get (R.GS_OUT w f j))
  modSlot s v c k (fun g => { g with committed := o.committed, seen := o.seen, start := o.start, entered := true })

def enterTick (s : State) (v : Vat) (p : Nat) : State :=
  if !s.is (R.VAT_ROLE_JOINING v) || !(s.vat v).copied then s else
    match portGraph s v p, portGraph s v.other p with
    | some (c, k), some (f, j) =>
      let g := getSlot s v c k
      if g.entered || !sourcesValid s v g then s else refreshLeft (enterGraph s v c k f j) v
    | _, _ => s

/-- Every graph of a port that is not RETIRED evaluates in this vat. -/
def allEntered (s : State) (v : Vat) : Bool :=
  (List.range 8).all (fun p => match portGraph s v p with
    | some (c, k) => (getSlot s v c k).entered || portState s v p == RETIRED
    | none => true)

/-- Every running port has passed a reload. -/
def allReloaded (s : State) (v : Vat) : Bool :=
  (List.range 8).all (fun p => portState s v p != RUN || isSecondary s v p || (getPort s v p).reloadSeen)

/-- An eligible vat claims against an owner whose FLT is set (R249 rule 2): the owner loses the pins and, a standby with FLT,
is reset (R245). -/
def claimAgainst (s : State) (v : Vat) : State :=
  if eligible s v && s.owner == some v.other && s.is (R.VAT_ROLE_FLT v.other) then
    let src := ((List.range 8).find? (fun i => s.rdBit (R.VAT_ROLE_FLTSRC v.other) i)).getD 5
    vatReset s v.other none (fltOwnCause src) true
  else s

/-- The join completes (R257). -/
def joinCheck (s : State) (v : Vat) : State :=
  if s.is (R.VAT_ROLE_JOINING v) && (s.vat v).copied && allEntered s v && allReloaded s v then
    let s := ((s.set1 (R.VAT_ROLE_SYNCOK v)).clr (R.VAT_ROLE_JOINING v)).incSat (R.VAT_JOIN_JOINS v)
    claimAgainst (s.event 0x04 0x0405 v.code) v
  else s

def execRejoinTimeout (v : Vat) (s : State) : Host.Outcome State Fault Refusal :=
  .next (settle (if s.hasVat v then failJoin s v else s))

/-! ## Fault flags -/

/-- The other vat finds `v`'s heartbeat lost (R244). -/
def heartbeatLost (s : State) (v : Vat) : State :=
  if !s.variant.dual || !s.vatLive v.other || (s.vat v).inReset then s else
    raiseFlt ((s.set1 (R.VAT_HB_PEER_LOST_F v.other)).event 0x04 0x0406 v.code) v 0

def execHeartbeatLost (v : Vat) (s : State) : Host.Outcome State Fault Refusal := .next (settle (heartbeatLost s v))

/-- A source of FLT sets (R243). Source 7 is a VAT reset from elsewhere, which it causes whatever the vat's role. -/
def vatFaultFlag (s : State) (v : Vat) (src : Nat) : State :=
  if !s.hasVat v || (s.vat v).inReset then s
  else if src != 7 then raiseFlt s v src
  else
    let s := noteFlt ((s.wrBit (R.VAT_ROLE_FLTSRC v) 7 true).set1 (R.VAT_ROLE_FLT v)) v
    if s.is (R.VAT_ROLE_JOINING v) then failJoin s v else vatReset s v none 3 true

def execVatFaultFlag (v : Vat) (src : Fin 8) (s : State) : Host.Outcome State Fault Refusal :=
  .next (settle (vatFaultFlag s v src.val))

/-! ## Comparison (R246, R248) -/

def execCompareMismatch (kind : MismatchKind) (s : State) : Host.Outcome State Fault Refusal :=
  .next (settle (compareMismatch s kind))

/-- The mismatch is attributed to `v` (R248): an owner loses the pins to an eligible standby, a standby is reset, unless its
FLT has done so already. -/
def attributeTo (s : State) (v : Vat) : State :=
  let s := logMismatch (s.wr R.OWN_MMINFO_ATTR v.code)
  if (s.vat v).inReset then s
  else if s.owner == some v then (if eligible s v.other then vatReset s v none 5 true else s)
  else vatReset s v none 3 true

/-- The mismatch is unattributed (R248). -/
def unattributed (s : State) : State :=
  let s := logMismatch ((s.wr R.OWN_MMINFO_ATTR 0).set1 R.OWN_MMF_UNATTR_F)
  match s.owner with
  | none => s
  | some o =>
    if s.arb.unattrOpen then
      safetyFault (vatReset (setRole s o.other roleRETIRED) o.other none 3 true) 1
    else
      let s := { s with arb := { s.arb with unattrOpen := true } }
      vatReset s o.other none 3 true

def attributionEnd (s : State) : State :=
  match s.arb.attr with
  | none => s
  | some w =>
    let s := { s with arb := { s.arb with attr := none } }
    if w.fltA && !w.fltB then attributeTo s .A
    else if w.fltB && !w.fltA then attributeTo s .B
    else unattributed s

def execAttributionWindowEnd (s : State) : Host.Outcome State Fault Refusal := .next (settle (attributionEnd s))

def execUnattrWindowExpiry (s : State) : Host.Outcome State Fault Refusal :=
  .next (settle { s with arb := { s.arb with unattrOpen := false } })

/-! ## Claims (R249) -/

/-- A claim by a vat that is not eligible is refused and logged (rule 4). -/
def refuseClaim (s : State) (v : Vat) (c : Bool) : State :=
  if c && !eligible s v then s.event 0x04 0x0400 0 else s

/-- With no owner, an eligible claimant wins; both claims give the pins to Vat A, unless only Vat B has FLT clear (rule 3). -/
def freeClaim (s : State) (a b : Bool) : State :=
  let ca := a && eligible s .A
  let cb := b && eligible s .B
  if ca then takeover s .A 1 else if cb then takeover s .B 1 else s

/-- The vats that claim in one cycle. -/
def claims (s : State) (a b : Bool) : State :=
  let a := a && s.vatLive .A
  let b := b && s.vatLive .B
  let s := refuseClaim (refuseClaim s .A a) .B b
  match s.owner with
  | none => freeClaim s a b
  | some .A => if b then claimAgainst s .B else s
  | some .B => if a then claimAgainst s .A else s

def execOwnershipClaim (a b : Bool) (s : State) : Host.Outcome State Fault Refusal :=
  .next (settle (if s.dev.onward then claims s a b else s))

/-! ## Pad readback (R250, R261) -/

/-- A drill fails at a pad mismatch in its check window: the mismatch is FLT of the owner with source SELF (R250), ownership
returns, the failed path's vat is RETIRED (R261). -/
def failDrill (s : State) (o : Vat) : State :=
  let s := { s with arb := { s.arb with drill := none, padFrom := some o } }
  let s := noteFlt ((s.wrBit (R.VAT_ROLE_FLTSRC o) 5 true).set1 (R.VAT_ROLE_FLT o)) o
  let s := ((s.clr R.OWN_STAT_DRILL).set1 R.OWN_DRILL_FAIL_F).event 0x04 0x0404 2
  vatReset (setRole s o roleRETIRED) o none 6 false

/-- A pad-level mismatch counts as FLT of the owner; one that recurs within 1 s under another owner lies in the common path
(R250). (DEDUCED: notes/assumptions/102.md.) -/
def padMismatch (s : State) (n : Nat) : State :=
  match s.owner with
  | none => s
  | some o =>
    match legPort s o n with
    | none => s
    | some p =>
      if s.rdBit R.OWN_LEGPEND_VAL n then s else
        let s := (s.set1 R.OWN_MMF_PADERR_F).incSat R.OWN_MMF_MISMATCHES
        let s := ((s.wrWord R.OWN_MMINFO 0).wr R.OWN_MMINFO_KIND 5).wr R.OWN_MMINFO_LEG n
        let s := logMismatch (s.wr R.OWN_MMINFO_PORT p)
        if (s.arb.drill.map (fun d => d.checking)) == some true then failDrill s o
        else
          let s := abortDrill s
          if s.arb.padFrom == some o.other then safetyFault s 2
          else raiseFltWith { s with arb := { s.arb with padFrom := some o } } o 5 none 6

def execPadMismatch (leg : Fin 32) (s : State) : Host.Outcome State Fault Refusal :=
  .next (settle (if s.dev.onward then padMismatch s leg.val else s))

def execPadRecurrenceWindowEnd (s : State) : Host.Outcome State Fault Refusal :=
  .next (settle { s with arb := { s.arb with padFrom := none } })

/-! ## Handover and drill (R252, R260-R262) -/

/-- An item passes where its condition holds (R252). -/
def handItem (s : State) (item : HandItem) : State :=
  finishHandover (match item with
    | .leg n => if legPasses s n.val then s.wrBit R.OWN_LEGPEND_VAL n.val false else s
    | .aux k => if auxPasses s k.val then { s with arb := { s.arb with auxPend := setBit s.arb.auxPend k.val false } } else s
    | .ssi i => if ssiPasses s i.val then { s with arb := { s.arb with ssiPend := setBit s.arb.ssiPend i.val false } } else s)

def execLegHandover (item : HandItem) (s : State) : Host.Outcome State Fault Refusal :=
  .next (settle (handItem s item))

/-- A drill may start (R260). -/
def drillAllowed (s : State) : Bool :=
  match s.owner with
  | some o => eligible s o.other && !s.is (R.VAT_ROLE_FLT o) && !s.is R.OWN_STAT_HANDOVER && s.dev.operating && !lostT s
  | none => false

/-- An accepted drill: OWNER passes to the standby with CAUSE 7 (R260 step 1). -/
def startDrill (s : State) (back : Bool) : State :=
  match s.owner with
  | none => s
  | some o =>
    let s := s.set1 R.OWN_STAT_DRILL
    takeover { s with arb := { s.arb with drill := some ⟨o, back, false, false⟩ } } o.other 7

/-- A drill passes. -/
def passDrill (s : State) : State :=
  let s := { s with arb := { s.arb with drill := none } }
  (((s.clr R.OWN_STAT_DRILL).set1 R.OWN_DRILL_OK_F).incSat R.OWN_DRILL_DRILLS).event 0x04 0x0404 1

/-- A check window ends (R260 steps 3 and 4); after a loss of PLL-T it does not (R369). (DEDUCED: notes/assumptions/17.md.) -/
def drillCheckEnd (s : State) : State :=
  if lostT s then s else
  match s.arb.drill with
  | some d =>
    if !d.checking then s
    else if d.back && !d.returned then
      if !eligible s d.origin then abortDrill s else
      takeover { s with arb := { s.arb with drill := some { d with returned := true, checking := false } } } d.origin 7
    else passDrill s
  | none => s

def execDrillCheckWindowEnd (s : State) : Host.Outcome State Fault Refusal := .next (settle (drillCheckEnd s))

end Sys2Proof.Machine
end

