-- ==== Sys2Proof/Machine/Crypto.lean ====
section
/-! DEFINITION. The cryptographic functions the spec names, each by its own standard (R28, R30, R31, R298, R326, R397-R399): SHA-256
and SHA-384 (FIPS 180-4), HMAC and HKDF (RFC 2104, RFC 5869), ECDSA and Diffie-Hellman on P-256 and P-384 (FIPS 186-5), AES
(FIPS 197) with GCM (SP 800-38D), CMAC (RFC 4493) and key wrap (RFC 3394). Numbers are natural numbers, strings big-endian. -/

namespace Sys2Proof.Machine

open Sys2Proof

/-- Entry `i` of a table whose rows each hold `per` entries of `w` bits, the first lowest. -/
def packed (rows : List Nat) (per w i : Nat) : Nat := nth rows (i / per) 0 / 2 ^ (w * (i % per)) % 2 ^ w

/-! ## SHA-2 (FIPS 180-4) -/

/-- A member of the family: word width, rounds, round constants, and the amounts of its six rotations and shifts. -/
structure ShaKind where
  w : Nat
  rounds : Nat
  k : Nat → Nat
  big0 : Nat × Nat × Nat
  big1 : Nat × Nat × Nat
  small0 : Nat × Nat × Nat
  small1 : Nat × Nat × Nat

def shaK512 : List Nat := [
    0xe9b5dba58189dbbcb5c0fbcfec4d3b2f7137449123ef65cd428a2f98d728ae22,
    0xab1c5ed5da6d8118923f82a4af194f9b59f111f1b605d0193956c25bf348b538,
    0x550c7dc3d5ffb4e2243185be4ee4b28c12835b0145706fbed807aa98a3030242,
    0xc19bf174cf6926949bdc06a725c7123580deb1fe3b1696b172be5d74f27b896f,
    0x240ca1cc77ac9c650fc19dc68b8cd5b5efbe4786384f25e3e49b69c19ef14ad2,
    0x76f988da831153b55cb0a9dcbd41fbd44a7484aa6ea6e4832de92c6f592b0275,
    0xbf597fc7beef0ee4b00327c898fb213fa831c66d2db43210983e5152ee66dfab,
    0x142929670a0e6e7006ca6351e003826fd5a79147930aa725c6e00bf33da88fc2,
    0x53380d139d95b3df4d2c6dfc5ac42aed2e1b21385c26c92627b70a8546d22ffc,
    0x92722c851482353b81c2c92e47edaee6766a0abb3c77b2a8650a73548baf63de,
    0xc76c51a30654be30c24b8b70d0f89791a81a664bbc423001a2bfe8a14cf10364,
    0x106aa07032bbd1b8f40e35855771202ad69906245565a910d192e819d6ef5218,
    0x34b0bcb5e19b48a82748774cdf8eeb991e376c085141ab5319a4c116b8d2d0c8,
    0x682e6ff3d6b2b8a35b9cca4f7763e3734ed8aa4ae3418acb391c0cb3c5c95a63,
    0x8cc702081a6439ec84c87814a1f0ab7278a5636f43172f60748f82ee5defb2fc,
    0xc67178f2e372532bbef9a3f7b2c67915a4506cebde82bde990befffa23631e28,
    0xf57d4f7fee6ed178eada7dd6cde0eb1ed186b8c721c0c207ca273eceea26619c,
    0x1b710b35131c471b113f9804bef90dae0a637dc5a2c898a606f067aa72176fba,
    0x431d67c49c100d4c3c9ebe0a15c9bebc32caab7b40c7249328db77f523047d84,
    0x6c44198c4a4758175fcb6fab3ad6faec597f299cfc657e2a4cc5d4becb3e42b6]

def shaK256 : List Nat := [
    0xab1c5ed5923f82a459f111f13956c25be9b5dba5b5c0fbcf71374491428a2f98,
    0xc19bf1749bdc06a780deb1fe72be5d74550c7dc3243185be12835b01d807aa98,
    0x76f988da5cb0a9dc4a7484aa2de92c6f240ca1cc0fc19dc6efbe4786e49b69c1,
    0x1429296706ca6351d5a79147c6e00bf3bf597fc7b00327c8a831c66d983e5152,
    0x92722c8581c2c92e766a0abb650a735453380d134d2c6dfc2e1b213827b70a85,
    0x106aa070f40e3585d6990624d192e819c76c51a3c24b8b70a81a664ba2bfe8a1,
    0x682e6ff35b9cca4f4ed8aa4a391c0cb334b0bcb52748774c1e376c0819a4c116,
    0xc67178f2bef9a3f7a4506ceb90befffa8cc7020884c8781478a5636f748f82ee]

def sha32 : ShaKind :=
  { w := 32, rounds := 64, k := packed shaK256 8 32, big0 := (2, 13, 22), big1 := (6, 11, 25), small0 := (7, 18, 3), small1 := (17, 19, 10) }

def sha64 : ShaKind :=
  { w := 64, rounds := 80, k := packed shaK512 4 64, big0 := (28, 34, 39), big1 := (14, 18, 41), small0 := (1, 8, 7), small1 := (19, 61, 6) }

/-- Rotation right by `n` of `w` bits. -/
def rotRight (w x n : Nat) : Nat := x / 2 ^ n + x % 2 ^ n * 2 ^ (w - n)

/-- Three rotations combined. -/
def ShaKind.big (t : ShaKind) (r : Nat × Nat × Nat) (x : Nat) : Nat :=
  Nat.xor (rotRight t.w x r.1) (Nat.xor (rotRight t.w x r.2.1) (rotRight t.w x r.2.2))

/-- Two rotations and a shift combined. -/
def ShaKind.small (t : ShaKind) (r : Nat × Nat × Nat) (x : Nat) : Nat :=
  Nat.xor (rotRight t.w x r.1) (Nat.xor (rotRight t.w x r.2.1) (x / 2 ^ r.2.2))

/-- One round: the eight working words and the next sixteen words of the schedule. -/
def ShaKind.round (t : ShaKind) (q : List Nat × List Nat) (i : Nat) : List Nat × List Nat :=
  match q.1 with
  | [a, b, c, d, e, f, g, h] =>
    let m (j : Nat) : Nat := nth q.2 j 0
    let ch := Nat.xor (Nat.land e f) (Nat.land (2 ^ t.w - 1 - e) g)
    let maj := Nat.xor (Nat.land a b) (Nat.xor (Nat.land a c) (Nat.land b c))
    let t1 := h + t.big t.big1 e + ch + t.k i + m 0
    let t2 := t.big t.big0 a + maj
    let next := (t.small t.small1 (m 14) + m 9 + t.small t.small0 (m 1) + m 0) % 2 ^ t.w
    ([(t1 + t2) % 2 ^ t.w, a, b, c, (d + t1) % 2 ^ t.w, e, f, g], q.2.drop 1 ++ [next])
  | _ => q

/-- One block of sixteen words. -/
def ShaKind.block (t : ShaKind) (h : List Nat) (bs : List Byte) : List Nat :=
  let m := (List.range 16).map (fun j => beValue ((bs.drop (t.w / 8 * j)).take (t.w / 8)))
  let r := (List.range t.rounds).foldl t.round (h, m)
  (h.zip r.1).map (fun p => (p.1 + p.2) % 2 ^ t.w)

/-- The message with its padding to whole blocks. -/
def ShaKind.pad (t : ShaKind) (bs : List Byte) : List Byte :=
  let n := bs.length
  let len := t.w / 4
  bs ++ [0x80] ++ List.replicate ((8 * len - (n + 1 + len) % (8 * len)) % (8 * len)) 0 ++ beBytes len (8 * n)

/-- The hash from an initial value: eight words. -/
def ShaKind.hash (t : ShaKind) (h : List Nat) (bs : List Byte) : List Nat :=
  let p := t.pad bs
  (List.range (p.length / (2 * t.w))).foldl (fun h j => t.block h ((p.drop (2 * t.w * j)).take (2 * t.w))) h

def sha256Start : List Nat := [0x6a09e667, 0xbb67ae85, 0x3c6ef372, 0xa54ff53a, 0x510e527f, 0x9b05688c, 0x1f83d9ab, 0x5be0cd19]

def sha384Start : List Nat :=
  [0xcbbb9d5dc1059ed8, 0x629a292a367cd507, 0x9159015a3070dd17, 0x152fecd8f70e5939,
    0x67332667ffc00b31, 0x8eb44a8768581511, 0xdb0c2e0d64f98fa7, 0x47b5481dbefa4fa4]

/-- SHA-256 as 32 bytes. -/
@[irreducible] def sha256 (bs : List Byte) : List Byte := (sha32.hash sha256Start bs).flatMap (beBytes 4)

/-- SHA-384 as 48 bytes. -/
@[irreducible] def sha384 (bs : List Byte) : List Byte := ((sha64.hash sha384Start bs).take 6).flatMap (beBytes 8)

/-! ## HMAC and HKDF with SHA-384 -/

def xorBytes (a b : List Byte) : List Byte := (a.zip b).map (fun p => p.1 ^^^ p.2)

/-- HMAC for keys of at most one block. -/
def hmac384 (key bs : List Byte) : List Byte :=
  let k := key ++ List.replicate (128 - key.length) 0
  sha384 (xorBytes k (List.replicate 128 0x5C) ++ sha384 (xorBytes k (List.replicate 128 0x36) ++ bs))

/-- HKDF with an output of at most 48 bytes. -/
@[irreducible] def hkdf384 (salt ikm info : List Byte) (n : Nat) : List Byte := (hmac384 (hmac384 salt ikm) (info ++ [1])).take n

/-! ## P-256 and P-384 -/

/-- A curve y² = x³ - 3x + b over a prime field, with its base point and order, and the bytes of a coordinate. -/
structure Curve where
  size : Nat
  p : Nat
  b : Nat
  gx : Nat
  gy : Nat
  n : Nat

def p256 : Curve :=
  { size := 32, p := 2 ^ 256 - 2 ^ 224 + 2 ^ 192 + 2 ^ 96 - 1
    b := 0x5ac635d8aa3a93e7b3ebbd55769886bc651d06b0cc53b0f63bce3c3e27d2604b
    gx := 0x6b17d1f2e12c4247f8bce6e563a440f277037d812deb33a0f4a13945d898c296
    gy := 0x4fe342e2fe1a7f9b8ee7eb4a7c0f9e162bce33576b315ececbb6406837bf51f5
    n := 0xffffffff00000000ffffffffffffffffbce6faada7179e84f3b9cac2fc632551 }

def p384 : Curve :=
  { size := 48, p := 2 ^ 384 - 2 ^ 128 - 2 ^ 96 + 2 ^ 32 - 1
    b := 0xb3312fa7e23ee7e4988e056be3f82d19181d9c6efe8141120314088f5013875ac656398d8a2ed19d2a85c8edd3ec2aef
    gx := 0xaa87ca22be8b05378eb1c71ef320ad746e1d3b628ba79b9859f741e082542a385502f25dbf55296c3a545e3872760ab7
    gy := 0x3617de4a96262c6f5d9e98bf9292dc29f8f41dbd289a147ce9da3113b5f0b8c00a60b1ce1d7e819d7a431d7c90ea0e5f
    n := 0xffffffffffffffffffffffffffffffffffffffffffffffffc7634d81f4372ddf581a0db248b0a77aecec196accc52973 }

/-- b^e mod m over the low `k` bits of e. -/
def powMod (m b e : Nat) : Nat → Nat
  | 0 => 1 % m
  | k + 1 => let r := powMod m b (e / 2) k; let q := r * r % m; if e % 2 = 1 then q * b % m else q

/-- The inverse modulo a prime. -/
def invMod (m x : Nat) : Nat := powMod m x (m - 2) 384

/-- A point in Jacobian coordinates; z = 0 is the point at infinity. -/
structure Jac where
  x : Nat
  y : Nat
  z : Nat

def Jac.zero : Jac := ⟨1, 1, 0⟩

def subMod (m a b : Nat) : Nat := (a + m - b % m) % m

def Curve.double (c : Curve) (q : Jac) : Jac :=
  let zz := q.z * q.z % c.p
  let yy := q.y * q.y % c.p
  let s := 4 * q.x * yy % c.p
  let m := 3 * subMod c.p q.x zz * (q.x + zz) % c.p
  let x := subMod c.p (m * m) (2 * s)
  ⟨x, subMod c.p (m * subMod c.p s x) (8 * yy * yy), 2 * q.y * q.z % c.p⟩

def Curve.add (c : Curve) (q r : Jac) : Jac :=
  if q.z = 0 then r else if r.z = 0 then q else
    let z1 := q.z * q.z % c.p
    let z2 := r.z * r.z % c.p
    let u1 := q.x * z2 % c.p
    let u2 := r.x * z1 % c.p
    let s1 := q.y * r.z * z2 % c.p
    let s2 := r.y * q.z * z1 % c.p
    if u1 = u2 then (if s1 = s2 then c.double q else Jac.zero) else
      let h := subMod c.p u2 u1
      let d := subMod c.p s2 s1
      let hh := h * h % c.p
      let hhh := h * hh % c.p
      let v := u1 * hh % c.p
      let x := subMod c.p (d * d) (hhh + 2 * v)
      ⟨x, subMod c.p (d * subMod c.p v x) (s1 * hhh), q.z * r.z * h % c.p⟩

/-- The multiple of a point by the low `n` bits of a number. -/
def Curve.times (c : Curve) (q : Jac) (k : Nat) : Nat → Jac
  | 0 => Jac.zero
  | n + 1 => let r := c.double (c.times q (k / 2) n); if k % 2 = 1 then c.add r q else r

/-- Affine coordinates; none at infinity. -/
def Curve.affine (c : Curve) (q : Jac) : Option (Nat × Nat) :=
  if q.z = 0 then none else
    let i := invMod c.p q.z
    let ii := i * i % c.p
    some (q.x * ii % c.p, q.y * (i * ii % c.p) % c.p)

def Curve.base (c : Curve) : Jac := ⟨c.gx, c.gy, 1⟩

/-- A public key, X then Y, that is a point of the curve. -/
def Curve.point (c : Curve) (bs : List Byte) : Option Jac :=
  let x := beValue (bs.take c.size)
  let y := beValue ((bs.drop c.size).take c.size)
  if x < c.p && y < c.p && y * y % c.p == (x * x * x + c.b + 3 * c.p - 3 * x) % c.p then some ⟨x, y, 1⟩ else none

/-- X then Y. -/
def Curve.pointBytes (c : Curve) (q : Option (Nat × Nat)) : List Byte :=
  let q := q.getD (0, 0)
  beBytes c.size q.1 ++ beBytes c.size q.2

/-- The public key of a private one. -/
@[irreducible] def Curve.publicKey (c : Curve) (d : Nat) : List Byte := c.pointBytes (c.affine (c.times c.base d (8 * c.size)))

/-- The X coordinate of a Diffie-Hellman product. -/
@[irreducible] def Curve.shared (c : Curve) (d : Nat) (key : List Byte) : Option (List Byte) :=
  (c.point key).bind (fun q => (c.affine (c.times q d (8 * c.size))).map (fun r => beBytes c.size r.1))

/-- ECDSA: r then s under the public key, over a hash of the curve's size. -/
@[irreducible] def Curve.verify (c : Curve) (key hash sig : List Byte) : Bool :=
  let r := beValue (sig.take c.size)
  let s := beValue ((sig.drop c.size).take c.size)
  match c.point key with
  | none => false
  | some q =>
    if r = 0 || c.n ≤ r || s = 0 || c.n ≤ s then false else
      let w := invMod c.n s
      let a := c.times c.base (beValue hash * w % c.n) (8 * c.size)
      let b := c.times q (r * w % c.n) (8 * c.size)
      (c.affine (c.add a b)).any (fun t => t.1 % c.n == r)

/-- ECDSA's signature by the private key `d` with the per-message number `k`. -/
@[irreducible] def Curve.sign (c : Curve) (d k : Nat) (hash : List Byte) : List Byte :=
  let r := ((c.affine (c.times c.base k (8 * c.size))).getD (0, 0)).1 % c.n
  beBytes c.size r ++ beBytes c.size (invMod c.n k * (beValue hash + r * d) % c.n)

/-- ECDSA P-384 with SHA-384 (R30, R393, R397, R398). -/
def p384Verify (key bs sig : List Byte) : Bool := p384.verify key (sha384 bs) sig

/-- ECDSA P-256 with SHA-256 (R296, R298). -/
def p256Verify (key bs sig : List Byte) : Bool := p256.verify key (sha256 bs) sig

/-! ## AES (FIPS 197) -/

def aesSbox : List Nat := [
    0xc072a49cafa2d4adf04759fa7dc982ca76abd7fe2b670130c56f6bf27b777c63,
    0x75b227ebe28012079a059618c323c7041531d871f1e5a534ccf73f362693fdb7,
    0xcf584c4a39becb6a5bb1fc20ed00d153842fe329b3d63b52a05a6e1b1a2c8309,
    0xd2f3ff1021dab6bcf5389d928f40a351a89f3c507f02f94585334d43fbaaefd0,
    0xdb0b5ede14b8ee4688902a22dc4f816073195d643d7ea7c41744975fec130ccd,
    0x8ae7a65eaf4566ca94ed58d6d37c8e779e4959162acd3c25c2406490a3a32e0,
    0x9e1dc186b95735610ef6034866b53e708a8bbd4b1f74dde8c6b4a61c2e2578ba,
    0x16bb54b00f2d99416842e6bf0d89a18cdf2855cee9871e9b948ed9691198f8e1]

def aesInvSbox : List Nat := [
    0xcbe9dec444438e3487ff2f9b8239e37cfbd7f3819ea340bf38a53630d56a0952,
    0x25d18b6d49a25b76b224d92866a12e084ec3fa420b954cee3d23c2a632947b54,
    0x849d8da75746155edab9edfd5048706c92b6655dcc5ca4d41698688664f6f872,
    0x6b8a130103bdafc1020f3fca8f1e2cd00645b3b80558e4f70ad3bc8c00abd890,
    0x6edf751ce837f9e28535ade72274ac9673e6b4f0cecff297eadc674f4111913a,
    0xf45acd78fec0db9a2079d2c64b3e56fc1bbe18aa0e62b76f89c5291d711af147,
    0xef9cc9939f7ae52d0d4ab519a97f51605fec8027591012b131c7078833a8dd1f,
    0x7d0c2155631469e126d677ba7e042b17619953833cbbebc8b0f52aae4d3be0a0]

/-- The product in GF(2^8). -/
def gfMul (a b : Nat) : Nat :=
  ((List.range 8).foldl (fun (q : Nat × Nat) i =>
    (if b / 2 ^ i % 2 = 1 then Nat.xor q.1 q.2 else q.1, if q.2 < 128 then 2 * q.2 else Nat.xor (2 * q.2) 0x11B)) (0, a)).1

def subBytes (inv : Bool) (st : List Nat) : List Nat := st.map (packed (if inv then aesInvSbox else aesSbox) 32 8)

/-- Row r of the state moves left by r, or right. -/
def shiftRows (inv : Bool) (st : List Nat) : List Nat :=
  (List.range 16).map (fun i => nth st (i % 4 + 4 * ((i / 4 + (if inv then 4 - i % 4 else i % 4)) % 4)) 0)

/-- A row of a column's product by the polynomial 2, 3, 1, 1, or by its inverse 14, 11, 13, 9. -/
def mixColumns (inv : Bool) (st : List Nat) : List Nat :=
  let m := if inv then [14, 11, 13, 9] else [2, 3, 1, 1]
  (List.range 16).map (fun i =>
    (List.range 4).foldl (fun x j => Nat.xor x (gfMul (nth st (i / 4 * 4 + j) 0) (nth m ((j + 4 - i % 4) % 4) 0))) 0)

def xorList (a b : List Nat) : List Nat := (a.zip b).map (fun p => Nat.xor p.1 p.2)

/-- The round constants. -/
def aesRcon : Nat → Nat
  | 0 => 1
  | n + 1 => gfMul 2 (aesRcon n)

/-- The expanded key: words of four bytes, from `nk` words of key to 4 (nk + 7). -/
def expandKey (nk : Nat) (key : List Nat) : List (List Nat) :=
  (List.range (4 * (nk + 7) - nk)).foldl (fun ws j =>
    let i := nk + j
    let t := nth ws (i - 1) []
    let t := if i % nk = 0 then xorList (subBytes false (t.drop 1 ++ t.take 1)) [aesRcon (i / nk - 1), 0, 0, 0]
      else if nk = 8 && i % 8 = 4 then subBytes false t else t
    ws ++ [xorList (nth ws (i - nk) []) t]) ((List.range nk).map (fun i => (key.drop (4 * i)).take 4))

def roundKey (ws : List (List Nat)) (r : Nat) : List Nat := ((ws.drop (4 * r)).take 4).flatten

/-- One block, encrypted under an expanded key of `nr` rounds. -/
def aesForward (nr : Nat) (ws : List (List Nat)) (b : List Nat) : List Nat :=
  let st := (List.range (nr - 1)).foldl (fun st r =>
    xorList (mixColumns false (shiftRows false (subBytes false st))) (roundKey ws (r + 1))) (xorList b (roundKey ws 0))
  xorList (shiftRows false (subBytes false st)) (roundKey ws nr)

/-- One block, decrypted. -/
def aesBackward (nr : Nat) (ws : List (List Nat)) (b : List Nat) : List Nat :=
  let st := (List.range (nr - 1)).foldl (fun st r =>
    mixColumns true (xorList (subBytes true (shiftRows true st)) (roundKey ws (nr - 1 - r)))) (xorList b (roundKey ws nr))
  xorList (subBytes true (shiftRows true st)) (roundKey ws 0)

def natsOf (bs : List Byte) : List Nat := bs.map BitVec.toNat

def bytesOf (l : List Nat) : List Byte := l.map (BitVec.ofNat 8)

/-- AES with a key of 16 or 32 bytes. -/
def aesEncrypt (key b : List Byte) : List Byte :=
  let nk := key.length / 4
  bytesOf (aesForward (nk + 6) (expandKey nk (natsOf key)) (natsOf b))

def aesDecrypt (key b : List Byte) : List Byte :=
  let nk := key.length / 4
  bytesOf (aesBackward (nk + 6) (expandKey nk (natsOf key)) (natsOf b))

/-! ## GCM, CMAC and key wrap -/

/-- The product in GF(2^128) of GHASH. -/
def ghashMul (x y : Nat) : Nat :=
  ((List.range 128).foldl (fun (q : Nat × Nat) i =>
    (if x / 2 ^ (127 - i) % 2 = 1 then Nat.xor q.1 q.2 else q.1,
      if q.2 % 2 = 1 then Nat.xor (q.2 / 2) (0xE1 * 2 ^ 120) else q.2 / 2)) (0, y)).1

/-- A string as blocks of 16 bytes, the last padded with zeros. -/
def padBlocks (bs : List Byte) : List (List Byte) :=
  (List.range ((bs.length + 15) / 16)).map (fun i =>
    let b := (bs.drop (16 * i)).take 16
    b ++ List.replicate (16 - b.length) 0)

def ghash (h : Nat) (bs : List (List Byte)) : Nat := bs.foldl (fun y b => ghashMul (Nat.xor y (beValue b)) h) 0

/-- The key stream over a text, from counter 2. -/
def gcmCtr (key iv bs : List Byte) : List Byte :=
  (List.range ((bs.length + 15) / 16)).flatMap (fun i => xorBytes ((bs.drop (16 * i)).take 16) (aesEncrypt key (iv ++ beBytes 4 (i + 2))))

/-- The 128-bit tag of a cipher text. -/
def gcmTag (key iv aad ct : List Byte) : List Byte :=
  let h := beValue (aesEncrypt key (List.replicate 16 0))
  let y := ghash h (padBlocks aad ++ padBlocks ct ++ [beBytes 8 (8 * aad.length) ++ beBytes 8 (8 * ct.length)])
  xorBytes (beBytes 16 y) (aesEncrypt key (iv ++ beBytes 4 1))

/-- AES-GCM: cipher text, then tag. -/
@[irreducible] def gcmSeal (key iv aad bs : List Byte) : List Byte := let ct := gcmCtr key iv bs; ct ++ gcmTag key iv aad ct

/-- The plain text, where the tag is right. -/
@[irreducible] def gcmOpen (key iv aad ct tag : List Byte) : Option (List Byte) :=
  if tag == gcmTag key iv aad ct then some (gcmCtr key iv ct) else none

/-- Doubling in GF(2^128) as CMAC has it. -/
def cmacDouble (x : Nat) : Nat := if x < 2 ^ 127 then 2 * x else Nat.xor (2 * x % 2 ^ 128) 0x87

/-- AES-128-CMAC. -/
@[irreducible] def cmac128 (key bs : List Byte) : List Byte :=
  let k1 := cmacDouble (beValue (aesEncrypt key (List.replicate 16 0)))
  let n := (bs.length - 1) / 16
  let last := bs.drop (16 * n)
  let tail := if last.length = 16 then xorBytes last (beBytes 16 k1)
    else xorBytes (last ++ [0x80] ++ List.replicate (15 - last.length) 0) (beBytes 16 (cmacDouble k1))
  let x := (List.range n).foldl (fun x i => aesEncrypt key (xorBytes x ((bs.drop (16 * i)).take 16))) (List.replicate 16 0)
  aesEncrypt key (xorBytes x tail)

/-- One step of key unwrap: t counts down. -/
def unwrapStep (key : List Byte) (n : Nat) (q : List Byte × List (List Byte)) (t : Nat) : List Byte × List (List Byte) :=
  let i := (t - 1) % n
  let b := aesDecrypt key (xorBytes q.1 (beBytes 8 t) ++ nth q.2 i [])
  (b.take 8, modNth q.2 i (fun _ => b.drop 8))

/-- AES key unwrap (RFC 3394): none where the integrity check fails. -/
@[irreducible] def keyUnwrap (key wrapped : List Byte) : Option (List Byte) :=
  let n := wrapped.length / 8 - 1
  let r := (List.range n).map (fun i => (wrapped.drop (8 * (i + 1))).take 8)
  let q := (List.range (6 * n)).foldl (fun q j => unwrapStep key n q (6 * n - j)) (wrapped.take 8, r)
  if q.1 == List.replicate 8 0xA6 then some q.2.flatten else none

/-! ## The keys of this part -/

/-- The identity's public key, DEVID_PUB (R388). -/
@[irreducible] def devidPub : List Byte := p384.publicKey Config.identityKey

/-- EK_D of a draw (R397). -/
@[irreducible] def ephemeralPub (n : Nat) : List Byte := p384.publicKey (Config.ephemeralKey n)

/-- The identity key's signature of a draw. -/
@[irreducible] def idSign (n : Nat) (bs : List Byte) : List Byte :=
  p384.sign Config.identityKey (Config.signNonce n) (sha384 bs)

/-- The Rind's public key (R296). -/
@[irreducible] def rindPub : List Byte := p256.publicKey Config.rindKey

/-- The Rind's n-th signature. -/
@[irreducible] def rindSign (n : Nat) (bs : List Byte) : List Byte :=
  p256.sign Config.rindKey (Config.rindNonce n) (sha256 bs)

def ascii (t : String) : List Byte := t.toList.map (fun c => BitVec.ofNat 8 c.toNat)

/-- The session key of a draw and the tool's EK_T (R397 step 3); none where EK_T is no point. -/
@[irreducible] def sessionKey (n : Nat) (ekt : List Byte) : Option (BitVec 256) :=
  (p384.shared (Config.ephemeralKey n) ekt).map (fun z =>
    BitVec.ofNat 256 (beValue (hkdf384 (beBytes 32 (Config.nonce n).toNat) z (ascii "M72 service") 32)))

/-- The plain text of an encrypted payload (R31): the header's EPH_KEY, WRAPPED_KEY, IV and TAG, with its first 48 bytes as salt and
as additional data. -/
@[irreducible] def wheelOpen (h payload : List Byte) : Option (List Byte) :=
  (p384.shared Config.identityKey ((h.drop 0x30).take 96)).bind (fun z =>
    (keyUnwrap (hkdf384 (h.take 0x30) z (ascii "M72 wheel kek") 32) ((h.drop 0x90).take 40)).bind (fun key =>
      gcmOpen key ((h.drop 0xB8).take 12) (h.take 0x30) payload ((h.drop 0xC4).take 16)))

end Sys2Proof.Machine
end

