-- ==== Sys2Proof/Machine/Bus.lean ====
section
/-! DEFINITION. What a read of the address space returns (R3, R9, R12, R431-R436): registers as their tables give them, with
the fields that the register file does not hold itself, and memory. Which spans decode, and which master may read or write
what (R404-R406). -/

namespace Sys2Proof.Machine

open Sys2Proof

/-! ## Registers -/

/-- Word `i` of an `n`-byte big-endian string laid out in address order (R389). -/
def stringWord (n x i : Nat) : Word := BitVec.ofNat 32 (leValue ((beBytes n x).drop (4 * i) |>.take 4))

/-- The slot and bank that hold a whey buffer word, by the layout (R139). -/
def wheyOwner (s : State) (v : Vat) (c w : Nat) : Option (Nat × Nat) :=
  ((List.range 4).flatMap (fun k => [(k, 0), (k, 1)])).find? (fun q =>
    let n := s.rd (R.WHEY_SIZE_WSZ v c q.1)
    let b := s.rd (R.WHEY_BASE_BASE v c q.1) + q.2 * n
    s.is (R.GS_BIND_BOUND v c q.1) && b ≤ w && w < b + n)

/-- WDATA_LO or WDATA_HI (R150). (DEDUCED: notes/assumptions/26.md.) -/
def wheyData (s : State) (v : Vat) (c : Nat) (hi : Bool) : Word :=
  let w := s.rd (R.WADDR_WADDR v c)
  let x := (getKey (fun _ => (0 : Word)) w (getEng s v c).whey).toNat
  let own := wheyOwner s v c w
  let opened := match own with
    | some q => (getSlot s v c q.1).evals.any (fun e => e.holds && e.bank == q.2)
    | none => false
  let k := (own.getD (0, 0)).1
  let b := (own.getD (0, 0)).2
  let spec := boolNat opened * 2 ^ 31
  if hi then BitVec.ofNat 32 (x / 65536 + spec)
  else BitVec.ofNat 32 (x % 65536 + k * 2 ^ 16 + b * 2 ^ 18 + boolNat opened * 2 ^ 19 + spec)

/-- A register of a port block at offset `o` of port `p`. -/
def portReg (s : State) (v : Vat) (p o : Nat) (raw : Word) : Word :=
  if o = 8 then s.regs.get (R.PORT_STATE s.viewVat p)
  else if o = 0x20 then s.regs.get (R.PORT_TICKNUM v (primaryOf s v p))
  else if 0x300 ≤ o && o < 0x380 then (if gridPort s v p then raw else 0)
  else if 0x380 ≤ o then (if drivePort s v p then raw else 0)
  else raw

/-- CAUSE of DLRn_STAT: a driver cause is present on a leg that a port names (R235), outside a reset of the pulse generator (R411). -/
def legCause (s : State) (v : Vat) (n : Nat) : Bool :=
  pulseRuns s v && (legPort s v n).isSome && (drvFault s v n || drvLink s v n || (getDlr s v n).mismatch)

/-- HNOW of DLRn_H (R240): H in µs, saturating; 0 on a CP leg. -/
def hnowWord (s : State) (v : Vat) (n : Nat) : Word :=
  match legPort s v n with
  | some p =>
    if s.is (R.DLR_CFG_CLASS v n) && (getPort s v (primaryOf s v p)).carPt.isSome then
      BitVec.ofNat 32 (min ((getLeg s v n).h s.pt / 500).toNat 4095)
    else 0
  | none => 0

/-- A register of a vat window (R54: channel views 0-63, physical slices 0-71). -/
def vatReg (s : State) (v : Vat) (off : Nat) : Word :=
  let raw := s.regs.get (v.base + off)
  let blk := off / 0x10000
  if off < 0x04002000 then portReg s v ((off - 0x04000000) / 0x400) (off % 0x400) raw
  else if off < 0x04101000 && blk = 0x410 && off % 0x40 = 0x1C then
    setBits raw 17 1 (boolNat (calActive s v ((off - 0x04100000) / 0x40)))
  else if off < 0x04201000 && blk = 0x420 && off % 0x400 = 0x14 then s.regs.get (R.AUX_DATA v ((off - 0x04200000) / 0x400))
  else if blk = 0x438 && (off % 0x1000 = 0x804 || off % 0x1000 = 0x808) then
    wheyData s v ((off - 0x04380000) / 0x1000) (off % 0x1000 == 0x808)
  else if blk = 0x460 && off % 0x20 = 8 then setBits raw 2 1 (boolNat (legCause s v ((off - 0x04600000) / 0x20)))
  else if blk = 0x460 && off % 0x20 = 0x10 then hnowWord s v ((off - 0x04600000) / 0x20)
  else raw

/-- CAN_TS (R319): 10 MHz from VT. -/
def State.canTs (s : State) : Nat := s.time.vt / 100 % 2 ^ 32

/-- CAN_TS without its wrap. -/
def State.canTime (s : State) : Nat := s.time.vt / 100

/-- The latest instant at which CAN_TS was `sof`, without its wrap: a frame lasts much less than one turn of CAN_TS. -/
def State.sofTime (s : State) (sof : Nat) : Nat := s.canTime - (s.canTime + 2 ^ 32 - sof) % 2 ^ 32

/-- A register of the trust region. -/
def trustReg (s : State) (a : Nat) (raw : Word) : Word :=
  if a = R.TRUST_STAT then
    setBits (setBits (setBits raw 0 2 s.trust.life) 3 2 (s.trust.ownerSlot.getD 0)) 5 2 s.trust.debugLevel
  else if 0x40400040 ≤ a && a < 0x404000A0 then
    (if s.is R.TRUST_STAT_IDOK then stringWord 96 (beValue devidPub) ((a - 0x40400040) / 4) else 0)
  else if 0x404000A0 ≤ a && a < 0x404000D0 then stringWord 48 (s.trust.ownerHash.getD 0) ((a - 0x404000A0) / 4)
  else raw

/-- Low or high word of a 64-bit count. -/
def halfWord (x : Nat) (hi : Bool) : Word := BitVec.ofNat 32 (if hi then x / 2 ^ 32 else x)

/-- The time bases (R331's neighbours in 15_network_time.md). -/
def timeReg (s : State) (a : Nat) (raw : Word) : Word :=
  if a = R.NT_LO then halfWord s.nt false
  else if a = R.NT_HI then halfWord s.nt true
  else if a = R.VT_LO then halfWord s.time.vt false
  else if a = R.VT_HI then halfWord s.time.vt true
  else if a = R.PT_LO then halfWord s.pt false
  else if a = R.PT_HI then halfWord s.pt true
  else raw

/-- The identification registers (R436). -/
def identReg (s : State) (a : Nat) : Word :=
  if a = R.DEVICE_ID then BitVec.ofNat 32 (0x0B720000 + s.variant.code)
  else if a = R.SILICON then Config.silicon &&& 0xFF
  else if a = R.ROM_VER then Config.romVer
  else if a = R.FEATURES then BitVec.ofNat 32 (boolNat s.variant.dual + 2 * boolNat s.variant.metered + 32 * 256)
  else if a = R.SERIAL_LO then Config.serial.setWidth 32
  else if a = R.SERIAL_HI then (Config.serial >>> 32).setWidth 32
  else 0

/-- The register belongs to a block that the variant lacks (R3). -/
def absentAt (s : State) (a : Nat) : Bool :=
  (0x60000000 ≤ a && a < 0x70000000 && !s.variant.dual)
    || (((0x70000000 ≤ a && a < 0x70001000) || (0x70010000 ≤ a && a < 0x70011000)) && !s.variant.metered)

/-- What a read of the register at `a` returns. (DEDUCED: notes/assumptions/95.md.) -/
def readReg (s : State) (a : Nat) : Word :=
  if absentAt s a || (findReg a).isNone then 0
  else
    let raw := s.regs.get a
    if 0x50000000 ≤ a && a < 0x60000000 then vatReg s .A (a - 0x50000000)
    else if 0x60000000 ≤ a && a < 0x70000000 then vatReg s .B (a - 0x60000000)
    else if 0x70000000 ≤ a && a < 0x70001000 then (if s.rind.powered then raw else 0)
    else if a = R.HARP_STAT then
      (List.range 4).foldl (fun w n => setBits w (12 + n) 1 (boolNat (Config.fbPin n s.time.vt))) raw
    else if a = R.DEV_STATE then setBits raw 0 R.DEV_STATE_STATE.width s.dev.code
    else if a / 0x10000 = 0x4030 then timeReg s a raw
    else if a / 0x10000 = 0x4040 then trustReg s a raw
    else if a / 0x10000 = 0x4070 then identReg s a
    else if 0x40100000 ≤ a && a < 0x40106000 && a % 0x1000 = 0x24 then BitVec.ofNat 32 s.canTs
    else raw

/-! ## The map (R431-R434) -/

/-- The regions of the address space, as the fixed permissions name them (R404). -/
inductive Region where
  | rom
  | netSram
  | logRing
  | recorder
  | common
  | can
  | ethTime
  | trust
  | ferro
  | sram (v : Vat)
  | engine (v : Vat) (c : Nat)
  | vatRegs (v : Vat)
  | rind
  | tap
  | flash
  | none
  deriving DecidableEq, Repr

/-- The register spans of the vat window (R432). -/
def vatSpans : List (Nat × Nat) :=
  [(0x04000000, 0x04002000), (0x04020000, 0x04020800), (0x04020800, 0x04020804), (0x04020900, 0x04020980),
   (0x04100000, 0x04101200), (0x04101400, 0x04101500), (0x04101800, 0x04101A00), (0x04200000, 0x04201000),
   (0x04201000, 0x04201100), (0x04202000, 0x04202200), (0x04300000, 0x04308000), (0x04380000, 0x04388000),
   (0x04400000, 0x04401000), (0x04500000, 0x04501000), (0x04600000, 0x04600400)]

def vatRegion (v : Vat) (off : Nat) : Region :=
  if off < 0x400000 then .sram v
  else if 0x01000000 ≤ off && off < 0x01100000 then .engine v ((off - 0x01000000) / 0x20000)
  else if vatSpans.any (fun q => q.1 ≤ off && off < q.2) then .vatRegs v
  else .none

/-- The flash's capacity (R434): what the attached device's table said in this start, 32 MiB until then and where it could not be read;
the window ends at 256 MiB (R431). (DEDUCED: notes/assumptions/106.md.) -/
def flashSize (s : State) : Nat := min (s.rst.flashCap.getD 0x2000000) 0x10000000

/-- The spans outside the vat windows (R431). -/
def commonSpans : List (Nat × Nat × Region) :=
  [(0x00000000, 0x00040000, .rom), (0x10000000, 0x10040000, .netSram), (0x10040000, 0x10080000, .logRing),
   (0x10080000, 0x10180000, .recorder), (0x40000000, 0x40040000, .common), (0x40100000, 0x4010C000, .can),
   (0x40200000, 0x40201000, .ethTime), (0x40300000, 0x40300100, .ethTime), (0x40400000, 0x40401000, .trust),
   (0x40500000, 0x40501000, .common), (0x40600000, 0x40610000, .ferro), (0x40700000, 0x40700100, .common),
   (0x70000000, 0x70001000, .rind), (0x70010000, 0x70011000, .tap)]

def regionOf (s : State) (a : Nat) : Region :=
  if 0x50000000 ≤ a && a < 0x60000000 then vatRegion .A (a - 0x50000000)
  else if 0x60000000 ≤ a && a < 0x70000000 then vatRegion .B (a - 0x60000000)
  else if 0x80000000 ≤ a then (if a < 0x80000000 + flashSize s then .flash else .none)
  else ((commonSpans.find? (fun q => q.1 ≤ a && a < q.2.1)).map (fun q => q.2.2)).getD .none

/-- The region holds registers. -/
def Region.regs : Region → Bool
  | .common | .can | .ethTime | .trust | .vatRegs _ | .rind | .tap => true
  | _ => false

/-! ## Words of memory -/

/-- An aligned word as a bus read returns it, where the address has a target. -/
def busWord (s : State) (a : Nat) : Word :=
  if (regionOf s a).regs then readReg s a
  else if absentAt s a then 0
  else BitVec.ofNat 32 (leValue ((List.range 4).map (fun i => busByte s (a + i))))

/-! ## Masters and permissions (R403-R406) -/

/-- What a master number names (R403). -/
inductive Master where
  | engine (v : Vat) (c : Nat)
  | sup (v : Vat)
  | dma (v : Vat)
  | net
  | can
  | crypto
  | service
  | jtag
  deriving DecidableEq, Repr

/-- DESIGN CHOICE: notes/assumptions/8.md. -/
def masterOf (m : Nat) : Option Master :=
  let v : Vat := if m < 16 then .A else .B
  if m < 32 then
    let i := m % 16
    if i < 8 then some (.engine v i) else if i = 8 then some (.sup v) else if i = 9 then some (.dma v) else none
  else
    match m with
    | 32 => some .net
    | 33 => some .can
    | 34 => some .crypto
    | 35 => some .service
    | 36 => some .jtag
    | _ => none

/-- Supervisors, the service port, JTAG at level 1 or above. -/
def reader (s : State) : Master → Bool
  | .sup _ | .service => true
  | .jtag => 1 ≤ s.trust.debugLevel
  | _ => false

/-- A firewall region that is enabled and covers an address: pages of the own vat's window (R406), whichever window the word
in the wheel, the same for both vats (R33), was written for. -/
def fwCovers (s : State) (v : Vat) (k a : Nat) : Bool :=
  let page := a % 0x10000000 / 4096
  s.is (R.FW_BASE_EN v k) && inWindow v a && s.rd (R.FW_BASE_BASE v k) % 65536 ≤ page
    && page ≤ s.rd (R.FW_LIMIT_LIMIT v k) % 65536

/-- The vat's regions admit a read by engine `c` (R406): none covers it, or one that covers it names the engine. -/
def fwAdmits (s : State) (v : Vat) (c a : Nat) : Bool :=
  let ks := (List.range 16).filter (fun k => fwCovers s v k a)
  ks.isEmpty || ks.any (fun k => s.rdBit (R.FW_RMASK_RMASK v k) c)

/-- A rejoin into the other vat of `v` is in progress. -/
def rejoining (s : State) (v : Vat) : Bool := s.is (R.VAT_ROLE_JOINING v)

/-- A migration copy into the memory of engine `c` is in progress: the MIGRATE tick of a graph whose fallback it is (R126). -/
def migratingInto (s : State) (v : Vat) (c : Nat) : Bool :=
  s.whl.graphs.any (fun w => w.fallback == c && (portGraph s v w.port).any (fun q => (getSlot s v q.1 q.2).migrated))

/-- The address is an AUXk_DATA of a vat. -/
def isAuxData (a : Nat) : Bool := let o := a % 0x10000000; 0x04200000 ≤ o && o < 0x04201000 && o % 0x400 == 0x10

/-- The address is a WADDR of a vat. -/
def isWaddr (a : Nat) : Bool := let o := a % 0x10000000; 0x04380000 ≤ o && o < 0x04388000 && o % 0x1000 == 0x800

/-- The fixed table's reads of a vat's registers. -/
def mayReadVatRegs (s : State) (m : Master) (v : Vat) (a : Nat) : Bool :=
  if isAuxData a then m == .dma v
  else match m with
    | .engine w _ => w == v
    | .sup _ | .service => true
    | .dma w => w == v || rejoining s w
    | .jtag => 1 ≤ s.trust.debugLevel
    | _ => true

/-- The fixed table admits a read (R404). -/
def mayRead (s : State) (m : Master) (a : Nat) : Bool :=
  match regionOf s a with
  | .rom | .recorder | .ferro | .flash => reader s m
  | .netSram | .logRing => reader s m || m == .net
  | .common | .can | .ethTime | .trust | .rind | .tap => match m with
    | .engine _ _ => false
    | .jtag => 1 ≤ s.trust.debugLevel
    | _ => true
  | .sram v => match m with
    | .sup _ | .service | .jtag => reader s m
    | .dma w => w == v || rejoining s w
    | _ => false
  | .engine v c => match m with
    | .sup w => w == v
    | .service | .jtag => reader s m
    | .dma w => w == v || rejoining s w
    | .engine w d => w == v && d == c
    | _ => false
  | .vatRegs v => mayReadVatRegs s m v a
  | .none => true

/-- The fixed table admits a write (R404). Engine-local memory takes those of its engine, of the Starter, which Vat A's supervisor runs
in LOADING, and of the vat's DMA for a migration copy and, in a joining vat, for the rejoin copy with its mirroring (R92). -/
def mayWrite (s : State) (m : Master) (a : Nat) : Bool :=
  match regionOf s a with
  | .rom | .logRing | .flash => false
  | .netSram => match m with
    | .sup _ | .net => true
    | _ => false
  | .recorder => match m with
    | .dma v => s.owner == some v
    | _ => false
  | .common => match m with
    | .sup _ => true
    | .jtag => s.trust.debugLevel == 2
    | _ => false
  | .can => match m with
    | .sup _ | .can => true
    | .jtag => s.trust.debugLevel == 2
    | _ => false
  | .ethTime => match m with
    | .sup _ | .net => true
    | .jtag => s.trust.debugLevel == 2
    | _ => false
  | .trust => m == .crypto
  | .ferro => match m with
    | .sup _ => true
    | _ => false
  | .sram v => m == .sup v || m == .dma v
  | .engine v c => m == .engine v c || (m == .dma v && (rejoining s v || migratingInto s v c)) || (m == .sup .A && s.dev == .loading)
  | .vatRegs v =>
    if isWaddr a then (match m with
      | .sup _ | .service => true
      | .jtag => 1 ≤ s.trust.debugLevel
      | _ => false)
    else match m with
      | .sup w => w == v
      | .dma w => w == v && isAuxData a
      | .jtag => s.trust.debugLevel == 2
      | _ => false
  | .tap => match m with
    | .sup _ => true
    | _ => false
  | .rind | .none => true

/-- A write of the tap and the mailbox elsewhere than to MT_MAIL, which ends in a bus error (R404). -/
def tapDenied (a : Nat) : Bool := !(R.MT_MAIL 0 ≤ a && a < R.MT_MAIL 24)

/-- Whether an access ends in a bus error instead of being judged by the firewall (R9, R288, R405, R433): a narrow or unaligned
access to registers, an unaligned one to memory, no target, a write to the Rind window, or one to the tap and mailbox elsewhere
than to MT_MAIL. An access to an absent block raises none (R3). -/
def busErrorAt (s : State) (a width : Nat) (write : Bool) : Bool :=
  let r := regionOf s a
  !absentAt s a && (r == .none || a % width != 0 || (r.regs && width != 4) || (write && (r == .rind || (r == .tap && tapDenied a))))

/-- An address of a register region that its tables do not list: it reads as zero and ignores writes (R12, R405, R433). -/
def unlisted (s : State) (a : Nat) : Bool := (regionOf s a).regs && (findReg a).isNone

/-- Whether a well-formed access is a violation (R404-R406), and whether only a region denies it. -/
def violates (s : State) (m : Master) (a : Nat) (write : Bool) : Bool × Bool :=
  if write then (!mayWrite s m a, false)
  else
    match m with
    | .engine v c => if mayRead s m a then (!fwAdmits s v c a, true) else (true, false)
    | _ => (!mayRead s m a, false)

end Sys2Proof.Machine
end

