-- ==== Sys2Proof/Machine/Can.lean ====
section
/-! DEFINITION. CAN channels and the message catalogue (14_can_fd.md R310-R331): reception and authentication, the writers of
signals, assembling and queueing of frames, error counters, the lonely node, bus-off and retirement. -/

namespace Sys2Proof.Machine

open Sys2Proof

/-! ## Channels and entries -/

/-- The source number of channel `c` (R414). -/
def canSource (c : Nat) : Nat := 0x08 + c

def getCan (s : State) (c : Nat) : CanChan := nth s.can.chans c {}

def modCan (s : State) (c : Nat) (f : CanChan → CanChan) : State :=
  { s with can := { s.can with chans := modNth s.can.chans c f } }

/-- The mode in force: in RECOVERY CAN0 runs in normal mode and the others are off (R330). -/
def canMode (s : State) (c : Nat) : Nat :=
  if s.dev = .recovery then (if c = 0 then 1 else 0) else s.rd (R.CAN_CFG_MODE c)

/-- The CAN engines run: their master is not frozen (R408). -/
def canRuns (s : State) : Bool := !s.rdBit R.CFW_FROZEN_FROZEN 1

/-- The crypto block runs (R408). -/
def cryptoRuns (s : State) : Bool := !s.rdBit R.CFW_FROZEN_FROZEN 2

/-- The catalogue runs: the device is past LOADING, and not in RECOVERY (R330). -/
def catalogueRuns (s : State) : Bool := s.dev.onward && canRuns s

/-- Channel `c` takes part on its bus: its clock is good (R366), it is on, neither RETIRED nor bus-off. -/
def canOn (s : State) (c : Nat) : Bool :=
  s.rdBit R.CLK_STAT_GOOD 5 && canMode s c != 0 && !s.is (R.CAN_STAT_RETIRED c) && s.rd (R.CAN_STAT_STATE c) != 3

/-- Bit timing: prescaler, SEG1, SEG2 and SJW of the nominal and of the data phase, and the TDC offset where delay
compensation is on (R313). -/
structure CanTiming where
  nominal : Nat × Nat × Nat × Nat
  data : Nat × Nat × Nat × Nat
  tdco : Option Nat
  deriving DecidableEq, Repr

/-- A phase's bit rate, as 80 MHz over its divisor (R313). -/
def phaseDivisor (p : Nat × Nat × Nat × Nat) : Nat := p.1 * (1 + p.2.1 + p.2.2.1)

/-- The timing in force: in RECOVERY CAN0 runs at 500 kbit/s and 2 Mbit/s (R330). -/
def canTiming (s : State) (c : Nat) : CanTiming :=
  if s.dev = .recovery then { nominal := (1, 127, 32, 32), data := (1, 29, 10, 10), tdco := some 30 }
  else
    { nominal := (s.rd (R.CAN_BTNOM_BRP c), s.rd (R.CAN_BTNOM_SEG1 c), s.rd (R.CAN_BTNOM_SEG2 c), s.rd (R.CAN_BTNOM_SJW c))
      data := (s.rd (R.CAN_BTDATA_BRP c), s.rd (R.CAN_BTDATA_SEG1 c), s.rd (R.CAN_BTDATA_SEG2 c), s.rd (R.CAN_BTDATA_SJW c))
      tdco := if s.is (R.CAN_TDC_TDCEN c) then some (s.rd (R.CAN_TDC_TDCO c)) else none }

/-- Entry `e` of channel `c`'s record. -/
def isEntry (c e : Nat) (x : CanEntry) : Bool := x.chan == c && x.pos == e

def findEntry (s : State) (c e : Nat) : Option CanEntry := s.can.entries.find? (isEntry c e)

def modEntry (s : State) (c e : Nat) (f : CanEntry → CanEntry) : State :=
  { s with can := { s.can with entries := s.can.entries.map (fun x => if isEntry c e x then f x else x) } }

/-- Data bytes for a DLC. -/
def dlcLength (fd : Bool) (dlc : Nat) : Nat :=
  if dlc ≤ 8 then dlc
  else if fd then (match dlc with
    | 9 => 12
    | 10 => 16
    | 11 => 20
    | 12 => 24
    | 13 => 32
    | 14 => 48
    | _ => 64) else 8

def CanEntry.length (x : CanEntry) : Nat := dlcLength x.fd x.dlc

/-- DATA of a channel's events: channel and entry. -/
def canData (c e : Nat) : Nat := c + e * 256

/-! ## Writers (R283, R284, R324) -/

/-- The 10 µs interval of VT: values received within one share a message time. (DEDUCED: notes/assumptions/60.md.) -/
def messageTime (s : State) : Nat := s.time.vt / 10000

/-- A writer takes a value. -/
def putWriter (s : State) (w : Writer) : State :=
  { s with ord := { s.ord with
    writers := s.ord.writers.filter (fun x => !(x.signal == w.signal && x.chan == w.chan && x.entry == w.entry)) ++ [w] } }

/-- A DEFAULT as a raw value. -/
def CanSig.default (g : CanSig) : Int := if g.signed then signedOf 32 g.dflt.toNat else g.dflt.toNat

/-- A receive entry's signals take raw values. -/
def writeSignals (s : State) (x : CanEntry) (val : CanSig → Int) : State :=
  x.sigs.foldl (fun s g => putWriter s ⟨g.signal, x.chan, x.pos, g.rank, val g, messageTime s, g.cls⟩) s

/-- An entry times out (R324): its signals take their DEFAULTs. -/
def timeoutEntry (s : State) (x : CanEntry) : State :=
  let s := (s.set1 (R.CANE_STAT_TIMEDOUT x.home x.place)).set1 (R.CAN_FLAGS_TIMEOUT_F x.home)
  let s := (s.incSat (R.CAN_ERRS_TIMEOUTS x.home)).event (canSource x.home) 0x0D03 (canData x.home x.place)
  writeSignals s x CanSig.default

def execRxTimeout (c : Fin 6) (e : Fin 64) (s : State) : Host.Outcome State Fault Refusal :=
  .next (settle (
    match findEntry s c.val e.val with
    | some x => if s.dev.onward && !x.transmit && x.period != 0 && !s.is (R.CANE_STAT_TIMEDOUT x.home x.place)
        then timeoutEntry s x else s
    | none => s))

/-! ## Payloads (R322, R326) -/

/-- A field of a payload held as a little-endian number. -/
def payloadRaw (g : CanSig) (p : Nat) : Int :=
  let n := p / 2 ^ g.start % 2 ^ g.len
  if g.signed then signedOf g.len n else n

/-- The key of a channel's authenticated entries. -/
def canKey (s : State) (c : Nat) : Option (BitVec 128) :=
  (s.trust.canKeys.find? (fun k => k.1 == s.rd (R.CAN_CFG_KEYID c))).map (fun k => BitVec.ofNat 128 k.2)

/-- The first 8 bytes of the CMAC over identifier, length, payload and freshness value (R326). -/
def canMac (key : BitVec 128) (x : CanEntry) (body : List Byte) (fv : Nat) : List Byte :=
  (cmac128 (beBytes 16 key.toNat) (leBytes 4 (x.id + boolNat x.ide * 2 ^ 31) ++ [BitVec.ofNat 8 x.length] ++ body ++ leBytes 4 fv)).take 8

/-- An authenticated frame passes R327: its CMAC matches, its freshness value is newer. -/
def authentic (s : State) (x : CanEntry) (bytes : List Byte) : Option Nat :=
  let n := x.length - 12
  let fv := leValue ((bytes.drop n).take 4)
  match canKey s x.chan with
  | none => none
  | some key =>
    let d := (fv + 2 ^ 32 - x.lastFv) % 2 ^ 32
    if cryptoRuns s && bytes.drop (n + 4) = canMac key x (bytes.take n) fv && 1 ≤ d && d < 2 ^ 31 then some fv else none

/-- The last accepted freshness value, and its upper bits in the store where they change (R328). -/
def keepFv (s : State) (x : CanEntry) (fv : Nat) : State :=
  let s := modEntry s x.chan x.pos (fun y => { y with lastFv := fv })
  if fv / 2 ^ 20 = x.lastFv / 2 ^ 20 then s else { s with nv := s.nv.setUpper x.chan x.pos (fv / 2 ^ 20) }

/-! ## Reception (R323-R327) -/

/-- The frame's bytes. -/
def frameBytes (f : CanFrame) : List Byte :=
  (List.range (dlcLength f.fd f.dlc.toNat)).map (fun i => f.data.extractLsb' (8 * i) 8)

/-- The receive entries that a frame's identifier matches: after a move (R329) a channel can serve two. -/
def matchEntries (s : State) (c : Nat) (f : CanFrame) : List CanEntry :=
  s.can.entries.filter (fun x => x.home == c && !x.transmit && x.ide == f.ide
    && x.id == (if f.ide then f.id.toNat else f.id.toNat % 2 ^ 11))

/-- FD bit and data length match too. -/
def fitsEntry (f : CanFrame) (x : CanEntry) : Bool := x.fd == f.fd && x.length == dlcLength f.fd f.dlc.toNat

/-- An accepted frame (R324): the entry's time, its count, its signals. -/
def acceptFrame (s : State) (x : CanEntry) (bytes : List Byte) (sof : Word) : State :=
  let s := (s.wrWord (R.CANE_TS x.home x.place) sof).clr (R.CANE_STAT_TIMEDOUT x.home x.place)
  let s := s.incWrap (R.CANE_STAT_FRAMES x.home x.place)
  writeSignals s x (fun g => payloadRaw g (leValue bytes))

/-- A frame that matched an entry. -/
def takeFrame (s : State) (c : Nat) (x : CanEntry) (f : CanFrame) (sof : Word) : State :=
  if !x.auth then acceptFrame s x (frameBytes f) sof
  else
    match authentic s x (frameBytes f) with
    | some fv => acceptFrame (keepFv s x fv) x (frameBytes f) sof
    | none =>
      ((s.set1 (R.CAN_FLAGS_AUTHERR_F c)).incSat (R.CAN_ERRS_AUTHERRS c)).event (canSource c) 0x0D04 (canData c x.place)

/-- Error-active or error-passive, from the counters (R314). -/
def refreshErr (s : State) (c : Nat) : State :=
  if s.rd (R.CAN_STAT_STATE c) = 0 || s.rd (R.CAN_STAT_STATE c) = 3 then s
  else s.wr (R.CAN_STAT_STATE c) (if 128 ≤ s.rd (R.CAN_STAT_TEC c) || 128 ≤ s.rd (R.CAN_STAT_REC c) then 2 else 1)

/-- REC falls at a good reception: by one, or from above 127 to a value of 119 to 127 that the standard leaves open
(notes/assumptions/1.md). (DEDUCED: notes/assumptions/61.md.) -/
def goodReception (s : State) (c : Nat) : State :=
  if canMode s c != 1 then s else
    let r := s.rd (R.CAN_STAT_REC c)
    if r = 0 then s
    else if r < 128 then refreshErr (s.wr (R.CAN_STAT_REC c) (r - 1)) c
    else refreshErr (s.useFree.wr (R.CAN_STAT_REC c) (119 + s.freeVal.toNat % 9)) c

/-- A frame that matches on identifier alone is discarded (R323). -/
def discardFrame (s : State) (c : Nat) (x : CanEntry) : State :=
  (s.set1 (R.CAN_FLAGS_DLCERR_F c)).event (canSource c) 0x0D07 (canData c x.place)

/-- A frame received without error: every entry it matches takes it; remote frames and frames that match no entry are ignored. -/
def receiveFrame (s : State) (c : Nat) (f : CanFrame) (sof : Word) : State :=
  let s := goodReception s c
  if f.rtr || !catalogueRuns s then s else
    let l := matchEntries s c f
    match l.filter (fitsEntry f), l with
    | [], x :: _ => discardFrame s c x
    | l, _ => l.foldl (fun s x => takeFrame s c x f sof) s

/-! ## What a transmit signal carries (R321, R322) -/

/-- The committed output that SIGDEF names in the owning vat, as binary32, if VALID. -/
def sigOutput (s : State) (k : Nat) : Option Word :=
  match s.owner with
  | none => none
  | some v =>
    let c := s.rd (R.SIGDEF_ENGINE k)
    let i := s.rd (R.SIGDEF_INST k)
    match (List.range 4).find? (fun j => s.is (R.GS_BIND_BOUND v c j) && (findInst (getSlot s v c j) i).isSome) with
    | none => none
    | some j =>
      let r := committedF s v c (getSlot s v c j) i (s.rd (R.SIGDEF_OUT k))
      if r.2 then some r.1 else none

/-- Saturate to a field. -/
def satField (g : CanSig) (x : Int) : Int :=
  if g.signed then clampInt (-(2 ^ (g.len - 1) : Nat)) ((2 ^ (g.len - 1) : Nat) - 1) x else clampInt 0 ((2 ^ g.len : Nat) - 1) x

/-- A register field for the catalogue: a vat register is read from the owning vat (R321). -/
def sigRegister (s : State) (k len : Nat) : Nat :=
  let a := (s.regs.get (R.SIGDEF_ADDR k)).toNat
  let a := if 0x50000000 ≤ a && a < 0x60000000 && s.owner == some Vat.B then a + 0x10000000 else a
  (readReg s a).toNat / 2 ^ s.rd (R.SIGDEF_BITPOS k) % 2 ^ len

/-- The raw value of a transmit signal now (R322). -/
def txRaw (s : State) (g : CanSig) : Int :=
  let k := g.signal - 0x1000
  match s.rd (R.SIGDEF_KIND k) with
  | 2 =>
    match sigOutput s k with
    | some y => satField g (F32.toInt (F32.div (F32.sub y (s.regs.get (R.SIGDEF_OFFSET k))) (s.regs.get (R.SIGDEF_SCALE k))) 0)
    | none => g.default
  | 3 => sigRegister s k g.len
  | _ => g.default

/-- The payload of values: bits no signal covers are zero (R310). A bit that two signals cover is the OR of theirs, which no rule
states. (DESIGN CHOICE: notes/assumptions/62.md.) -/
def packPayload (n : Nat) (sigs : List CanSig) (vals : List Int) : List Byte :=
  leBytes n ((sigs.zip vals).foldl (fun p q => Nat.lor p (unsignedOf q.1.len q.2 * 2 ^ q.1.start)) 0)

/-- Frames of an entry that wait, wherever they wait. -/
def waitingFrames (s : State) (x : CanEntry) : Nat :=
  let q := getCan s x.home
  ((q.queue ++ q.express).filter (fun f => f.entry == some (x.chan, x.pos))).length

/-- An entry's frame from current values; an authenticated one carries the freshness value of the next frame sent (R326, R328). -/
def assemble (s : State) (x : CanEntry) (before : Nat) : TxFrame :=
  let vals := x.sigs.map (txRaw s)
  let body := packPayload x.length x.sigs vals
  let data := if !x.auth then body else
    let n := x.length - 12
    let fv := (s.nv.epoch * 2 ^ 20 + x.count + before) % 2 ^ 32
    body.take n ++ leBytes 4 fv ++ (match canKey s x.chan with
      | some key => canMac key x (body.take n) fv
      | none => List.replicate 8 0)
  { entry := some (x.chan, x.pos), data, vals }

/-! ## Queue and express slot (R316, R317) -/

/-- DEPTH, XBUSY and the WAITING bits of a channel's entries. -/
def refreshQueue (s : State) (c : Nat) : State :=
  let q := getCan s c
  let s := (s.wr (R.CAN_TXQ_DEPTH c) q.queue.length).wr (R.CAN_TXQ_XBUSY c) (boolNat (!q.express.isEmpty))
  (s.can.entries.filter (fun x => x.home == c && x.transmit)).foldl (fun s x =>
    s.wr (R.CANE_STAT_WAITING c x.place) (boolNat (waitingFrames s x != 0))) s

/-- The frame presented at the next arbitration. -/
def CanChan.presented (q : CanChan) : Option TxFrame := (q.express ++ q.queue).head?

/-- The frame waited already at the instant `sof` of CAN_TS without its wrap. -/
def TxFrame.waited (sof : Nat) (f : TxFrame) : Bool := decide (f.came ≤ sof)

/-- The frame whose transmission began at `sof`, as it was presented then (R316): the express slot's, or else the queue's head;
and whether it is the slot's. (DESIGN CHOICE: notes/assumptions/62.md.) -/
def CanChan.onBus (q : CanChan) (sof : Nat) : Option (Bool × TxFrame) :=
  match q.express.head?.filter (TxFrame.waited sof) with
  | some f => some (true, f)
  | none => (q.queue.head?.filter (TxFrame.waited sof)).map (fun f => (false, f))

/-- A frame joins its channel: the express slot for an EXPRESS entry, else the queue, unless it is full.
(DEDUCED: notes/assumptions/62.md.) -/
def enqueue (s : State) (c : Nat) (express : Bool) (f : TxFrame) : State :=
  let f := { f with came := s.canTime }
  if express then refreshQueue (modCan s c (fun q => { q with express := q.express ++ [f] })) c
  else if (getCan s c).queue.length < 16 then refreshQueue (modCan s c (fun q => { q with queue := q.queue ++ [f] })) c
  else s.flag (canSource c) (R.CAN_FLAGS_TXOVR_F c)

/-- Responses of the service path enter CAN0's queue as it has room (R395). -/
def feedService (s : State) : State :=
  let n := 16 - (getCan s 0).queue.length
  let segs := s.trust.txSegs.take n
  if segs.isEmpty then s else
    let s := { s with trust := { s.trust with txSegs := s.trust.txSegs.drop n } }
    refreshQueue (modCan s 0 (fun q => { q with queue := q.queue ++ segs.map (fun d => { entry := none, data := d, came := s.canTime }) })) 0

/-- The first frame of this entry has its payload replaced in place. -/
def replaceFrame (key : Nat × Nat) (f : TxFrame) : List TxFrame → List TxFrame
  | [] => []
  | g :: gs => if g.entry == some key then { f with came := g.came } :: gs else g :: replaceFrame key f gs

/-- The frame of this entry that has not started transmission is replaced; `keep`: the list's first has started. -/
def replaceWaiting (keep : Bool) (key : Nat × Nat) (f : TxFrame) (l : List TxFrame) : List TxFrame :=
  if keep then l.take 1 ++ replaceFrame key f (l.drop 1) else replaceFrame key f l

/-- A periodic frame falls due (R317); `onBus`: CAN_TS at the start of the frame on the bus. -/
def periodicDue (s : State) (x : CanEntry) (onBus : Option Nat) : State :=
  let c := x.home
  let key := (x.chan, x.pos)
  let busy := onBus.bind (fun t => (getCan s c).onBus (s.sofTime t))
  let started := busy.any (fun b => b.2.entry == some key)
  let n := waitingFrames s x
  if n = 0 || (started && n = 1) then enqueue s c x.express (assemble s x n)
  else
    let f := assemble s x (boolNat started)
    let s := s.flag (canSource c) (R.CAN_FLAGS_TXLATE_F c)
    modCan s c (fun q => { q with
      queue := replaceWaiting (busy.any (fun b => !b.1)) key f q.queue
      express := replaceWaiting (busy.any (fun b => b.1)) key f q.express })

/-- The entry is served: the catalogue runs and its channel is neither off nor retired. -/
def served (s : State) (x : CanEntry) : Bool :=
  catalogueRuns s && canMode s x.home == 1 && !s.is (R.CAN_STAT_RETIRED x.home)

def execPeriodicTxDue (c : Fin 6) (e : Fin 64) (onBus : Option (BitVec 32)) (s : State) : Host.Outcome State Fault Refusal :=
  .next (settle (
    match findEntry s c.val e.val with
    | some x => if x.transmit && x.period != 0 && served s x then periodicDue s x (onBus.map BitVec.toNat) else s
    | none => s))

/-- One event-driven entry at a 10 µs boundary (R317). -/
def eventCheck (s : State) (x : CanEntry) : State :=
  if x.transmit && x.period == 0 && served s x && waitingFrames s x == 0 && x.sent != some (x.sigs.map (txRaw s)) then
    enqueue s x.home x.express (assemble s x 0)
  else s

def execEventTxCheck (s : State) : Host.Outcome State Fault Refusal :=
  .next (settle (s.can.entries.foldl eventCheck s))

/-! ## Transmission (R313, R315) -/

/-- The frame that was on the bus leaves; `express`: the slot's. -/
def dropSent (express : Bool) (q : CanChan) : CanChan :=
  if express then { q with express := q.express.drop 1 } else { q with queue := q.queue.drop 1 }

/-- A sent frame counts for its entry: its values, its freshness count, and EPOCH when the count is full (R328). -/
def countSent (s : State) (f : TxFrame) (sof : Word) : State :=
  match f.entry with
  | none => s
  | some (c, e) =>
    match findEntry s c e with
    | none => s
    | some x =>
      let s := (s.wrWord (R.CANE_TS x.home x.place) sof).incWrap (R.CANE_STAT_FRAMES x.home x.place)
      let full := x.auth && x.count + 1 = 2 ^ 20
      let s := modEntry s c e (fun y => { y with sent := some f.vals, count := if full then 0 else y.count + 1 })
      if full then { s with nv := s.nv.setEpoch ((s.nv.epoch + 1) % 4096) } else s

/-- The identifier that a frame carries, and whether it has 29 bits: its entry's, or that of the service path's responses (R395). -/
def frameIdent (s : State) (f : TxFrame) : Nat × Bool :=
  match f.entry with
  | none => (0x1B725301, true)
  | some (c, e) => ((findEntry s c e).map (fun x => (x.id, x.ide))).getD (0, false)

/-- An acknowledged transmission. -/
def txAcked (s : State) (c : Nat) (express : Bool) (f : TxFrame) (sof : Word) : State :=
  let id := frameIdent s f
  let s := modCan s c (fun q => { dropSent express q with probing := false, out := some (id.1, id.2, f.data) })
  let s := ((s.wr (R.CAN_STAT_ACKRUN c) 0).clr (R.CAN_STAT_BUS_ALONE c)).wr (R.CAN_STAT_TEC c) (s.rd (R.CAN_STAT_TEC c) - 1)
  let s := refreshQueue (countSent (refreshErr s c) f sof) c
  if c = 0 then feedService s else s

/-- A channel retires (R329 steps 1 to 3); its frames wait for the move of its entries. -/
def retireChannel (s : State) (c : Nat) : State :=
  let s := ((s.set1 (R.CAN_STAT_RETIRED c)).set1 (R.CAN_FLAGS_RETIRE_F c)).event (canSource c) 0x0D06 (canData c 0)
  let s := modCan s c (fun q => { q with
    queue := [], express := [], probing := false
    cancelled := q.queue.filter (fun f => f.entry.isSome), cancelledX := q.express })
  degSet (refreshQueue s c) 5

/-- A channel goes bus-off (R314, R329). -/
def busOff (s : State) (c : Nat) : State :=
  let s := ((s.wr (R.CAN_STAT_STATE c) 3).set1 (R.CAN_FLAGS_BOFF_F c)).incSat (R.CAN_CNT_BOFFS c)
  let s := s.event (canSource c) 0x0D01 (canData c 0)
  let now := s.time.vt
  let s := modCan s c (fun q => { q with
    probing := false, boffs := now :: (q.boffs.filter (fun t => decide (now < t + 60000000000))).take 15 })
  let m := s.rd (R.CAN_CFG_RETMAX c)
  if m != 0 && m ≤ (getCan s c).boffs.length && s.dev != .recovery then retireChannel s c else s

/-- The next error that raises TEC takes it past 255, where ISO 11898-1 has the channel go bus-off (R314). -/
def tecFull (s : State) (c : Nat) : Bool := decide (248 ≤ s.rd (R.CAN_STAT_TEC c))

/-- TEC rises by 8, past 255 to bus-off; a probe that ends so has had its one attempt (R315). -/
def txError (s : State) (c : Nat) : State :=
  let full := tecFull s c
  let s := modCan (s.incSat (R.CAN_STAT_TEC c) 8) c (fun q => { q with probing := false })
  if full then busOff s c else refreshErr s c

/-- An acknowledgement error: an error-passive channel does not count it in TEC; at LONELY_LIMIT the channel probes. -/
def txUnacked (s : State) (c : Nat) : State :=
  let s := (modCan s c (fun q => { q with probing := false })).incSat (R.CAN_STAT_ACKRUN c)
  let s := if s.rd (R.CAN_STAT_STATE c) = 2 then s else txError s c
  if !s.is (R.CAN_STAT_BUS_ALONE c) && s.rd (R.CAN_CFG_LONELY_LIMIT c) ≤ s.rd (R.CAN_STAT_ACKRUN c) then
    let s := modCan s c (fun q => { q with probedAt := none })
    ((s.set1 (R.CAN_STAT_BUS_ALONE c)).set1 (R.CAN_FLAGS_ALONE_F c)).event (canSource c) 0x0D02 (canData c 0)
  else s

/-- The entry whose frame this is transmits with BRS. -/
def frameBrs (s : State) (f : TxFrame) : Bool :=
  match f.entry with
  | none => true
  | some (c, e) => ((findEntry s c e).map (fun x => x.fd && x.brs)).getD false

/-- The TDC offset where the frame's loop delay is measured. -/
def frameTdc (s : State) (c : Nat) (f : TxFrame) : Option Nat := if frameBrs s f then (canTiming s c).tdco else none

/-- With TDC a transmission's loop delay is measured (R313). -/
def measureDelay (s : State) (c : Nat) (f : TxFrame) (tdcv : Nat) : State :=
  if (frameTdc s c f).isSome then s.wr (R.CAN_TDC_TDCV c) tdcv else s

/-- The transmission that began at `sof` ends. With TDC its loop delay is measured, and a sum above 127 is a bit error (R313). -/
def txComplete (s : State) (c : Nat) (acked : Bool) (sof : Word) (tdcv : Nat) : State :=
  match (getCan s c).onBus (s.sofTime sof.toNat) with
  | none => s
  | some (express, f) =>
    let tdco := frameTdc s c f
    let s := measureDelay s c f tdcv
    if tdco.any (fun o => decide (127 < tdcv + o)) then txError s c
    else if acked then txAcked s c express f sof
    else txUnacked s c

/-- A channel transmits now: normal mode, on the bus, and in BUS_ALONE only as a probe. -/
def mayTransmit (s : State) (c : Nat) : Bool :=
  canRuns s && canOn s c && canMode s c == 1 && (!s.is (R.CAN_STAT_BUS_ALONE c) || (getCan s c).probing)

def execCanTxComplete (c : Fin 6) (acked : Bool) (sof : BitVec 32) (tdcv : BitVec 7) (s : State) :
    Host.Outcome State Fault Refusal :=
  .next (settle (if mayTransmit s c.val then txComplete s c.val acked sof tdcv.toNat else s))

/-- A probe may begin: at most one in 100 ms of VT, with the frame that would be presented next (R315). -/
def mayProbe (s : State) (c : Nat) : Bool :=
  canOn s c && s.is (R.CAN_STAT_BUS_ALONE c) && (getCan s c).presented.isSome
    && !(getCan s c).probedAt.any (fun t => decide (s.time.vt < t + 100000000))

def execLonelyProbe (c : Fin 6) (s : State) : Host.Outcome State Fault Refusal :=
  .next (settle (if mayProbe s c.val
    then modCan s c.val (fun q => { q with probing := true, probedAt := some s.time.vt }) else s))

/-! ## Errors and bus-off (R314) -/

/-- A transmission that began at `sof` ends in an error; one that got as far has measured its loop delay (R313). -/
def transmitError (s : State) (c : Nat) (sof : Word) (tdcv : Option (BitVec 7)) : State :=
  match tdcv, (getCan s c).onBus (s.sofTime sof.toNat) with
  | some d, some (_, f) => txError (measureDelay s c f d.toNat) c
  | _, _ => txError s c

def canError (s : State) (c : Nat) : CanErr → State
  | .transmit sof tdcv => transmitError s c sof tdcv
  | .receive => refreshErr (s.incSat (R.CAN_STAT_REC c)) c
  | .receiveFirst => refreshErr (s.incSat (R.CAN_STAT_REC c) 8) c

/-- The counters of a restricted or listening channel do not change (R311). -/
def execCanErrorDetected (c : Fin 6) (k : CanErr) (s : State) : Host.Outcome State Fault Refusal :=
  .next (settle (if canOn s c.val && canMode s c.val == 1 then canError s c.val k else s))

/-- The error that takes TEC past 255. (DEDUCED: notes/assumptions/61.md.) -/
def execBusOff (c : Fin 6) (s : State) : Host.Outcome State Fault Refusal :=
  .next (settle (if canOn s c.val && canMode s c.val == 1 && tecFull s c.val then txError s c.val else s))

def execBusOffRecovery (c : Fin 6) (s : State) : Host.Outcome State Fault Refusal :=
  .next (settle (if s.rdBit R.CLK_STAT_GOOD 5 && s.rd (R.CAN_STAT_STATE c.val) = 3 && !s.is (R.CAN_STAT_RETIRED c.val) then
    ((s.wr (R.CAN_STAT_STATE c.val) 1).wr (R.CAN_STAT_TEC c.val) 0).wr (R.CAN_STAT_REC c.val) 0 else s))

/-! ## The move of a retired channel's entries (R329 steps 4 and 5) -/

/-- The next place in a channel's entry table. -/
def nextPlace (s : State) (c : Nat) : Nat :=
  (s.can.entries.filter (fun x => x.home == c)).foldl (fun n x => max n (x.place + 1)) 0

/-- One entry joins channel `a`: its status words follow it, with MOVED set. -/
def moveEntry (s : State) (a : Nat) (x : CanEntry) : State :=
  let n := nextPlace s a
  let s := modEntry s x.chan x.pos (fun y => { y with home := a, place := n })
  let st := s.regs.get (R.CANE_STAT x.home x.place)
  let ts := s.regs.get (R.CANE_TS x.home x.place)
  if 64 ≤ n then s else ((s.wrWord (R.CANE_TS a n) ts).wrWord (R.CANE_STAT a n) st).set1 (R.CANE_STAT_MOVED a n)

/-- The cancelled frames join the other channel's queue and express slot; a frame that finds the queue full is lost with TXOVR_F. -/
def moveFrames (s : State) (c a : Nat) : State :=
  let q := getCan s c
  let s := modCan s c (fun q => { q with cancelled := [], cancelledX := [], moved := true })
  let s := q.cancelledX.foldl (fun s f => enqueue s a true f) s
  q.cancelled.foldl (fun s f => enqueue s a false f) s

def entryMove (s : State) (c : Nat) : State :=
  match (getCan s c).alt with
  | some a =>
    if s.is (R.CAN_STAT_RETIRED a) then modCan s c (fun q => { q with moved := true, cancelled := [], cancelledX := [] })
    else moveFrames ((s.can.entries.filter (fun x => x.home == c)).foldl (fun s x => moveEntry s a x) s) c a
  | none => modCan s c (fun q => { q with moved := true, cancelled := [], cancelledX := [] })

def execEntryMove (c : Fin 6) (s : State) : Host.Outcome State Fault Refusal :=
  .next (settle (if s.is (R.CAN_STAT_RETIRED c.val) && !(getCan s c.val).moved then entryMove s c.val else s))

/-! ## Cancelling (R318) -/

/-- CAN_FLUSH on a channel; `won`: CAN_TS at the start of the frame that has won arbitration, which runs to completion. -/
def flushChannel (s : State) (c : Nat) (won : Option Nat) : State :=
  let q := getCan s c
  match won.bind (fun t => q.onBus (s.sofTime t)) with
  | some (express, f) =>
    let e := match f.entry with
      | some (d, i) => ((findEntry s d i).map (fun x => x.place)).getD 0
      | none => 0
    let s := modCan s c (fun q => { q with
      queue := if express then [] else q.queue.take 1, express := if express then q.express.take 1 else [] })
    let s := (s.set1 (R.CAN_FLAGS_CANCEL_LATE_F c)).incSat (R.CAN_CNT_CANCEL_LATES c)
    refreshQueue (s.event (canSource c) 0x0D05 (canData c e)) c
  | none => refreshQueue (modCan s c (fun q => { q with queue := [], express := [], probing := false })) c

end Sys2Proof.Machine
end

