-- ==== Sys2Proof/Machine/Orders.lean ====
section
/-! DEFINITION. The Harp path (12_safety_functions.md): the resolution of order signals (R282-R284) and what the orders do
(R20, R22, R238, R271, R272), the inputs and their pairs (R268-R270), rail faults (R267), outputs, their tests and feedback
(R274-R278), and the ride of a safety fault (R280). -/

namespace Sys2Proof.Machine

open Sys2Proof

/-! ## Resolution (R283) -/

/-- Writer `a` stands against `b`: the higher rank, then the later message time, then the lower channel. -/
def Writer.beats (a b : Writer) : Bool :=
  if a.rank != b.rank then decide (b.rank < a.rank)
  else if a.time != b.time then decide (b.time < a.time)
  else if a.chan != b.chan then decide (a.chan < b.chan)
  else decide (a.entry < b.entry)

/-- Step 1: the writer that stands. -/
def standing (s : State) (sig : Nat) : Option Writer :=
  (s.ord.writers.filter (fun w => w.signal == sig)).foldl (fun b w =>
    match b with
    | none => some w
    | some x => if w.beats x then some w else some x) none

def standingValue (s : State) (sig : Nat) : Int := ((standing s sig).map (fun w => w.value)).getD 0

/-- The standing writer of a stop-class order asserted on port `p` or on the device. -/
def stopWriter (s : State) (p : Nat) : Option Writer :=
  [orderSignal 3 p, orderSignal 4 p, orderSignal 5 p, 0x40, 0x41].findSome? (fun sig =>
    (standing s sig).bind (fun w => if w.value != 0 then some w else none))

/-- A run-class order on a port, and the port. -/
def runClassPort (sig : Nat) : Option Nat := if 0x10 ≤ sig && sig < 0x28 then some (sig % 8) else none

/-- Step 2: a run-class order on a port is withdrawn while a stop-class one is asserted there or on the device; SS1 asserts
them on every port (R271). (DEDUCED: notes/assumptions/100.md.) -/
def withdrawnBy (s : State) (sig : Nat) : Bool :=
  match runClassPort sig with
  | some p => (stopWriter s p).isSome || s.is R.SAFE_STAT_SS1_ACT
  | none => false

def finalValue (s : State) (sig : Nat) : Int := if withdrawnBy s sig then 0 else standingValue s sig

/-- Every signal with its resolved value. -/
def resolveAll (s : State) : List (Nat × Int) :=
  ((s.ord.writers.map (fun w => w.signal)).eraseDups).map (fun sig => (sig, finalValue s sig))

/-! ## Losers -/

/-- Writer `w` of an order signal loses. -/
def loses (s : State) (w : Writer) : Bool := decide (w.signal < 0x1000) && w.value != finalValue s w.signal

/-- ORD_LOST for a loser. An order that lost to the Harp path's own has a winner without channel or rank: free values
(notes/assumptions/1.md). -/
def noteLoser (s : State) (w : Writer) : State :=
  let byClass := withdrawnBy s w.signal && w.value == standingValue s w.signal
  let winner := if byClass then (runClassPort w.signal).bind (stopWriter s) else standing s w.signal
  let s := if winner.isNone then s.useFree else s
  let free := (Config.freeWord (s.free - 1)).toNat
  let s := s.wrWord R.ORD_LOST 0
  let s := ((s.wr R.ORD_LOST_SIGNAL w.signal).wr R.ORD_LOST_LCHAN w.chan).wr R.ORD_LOST_LRANK w.rank
  let s := s.wr R.ORD_LOST_BYCLASS (boolNat byClass)
  let s := (s.wr R.ORD_LOST_WCHAN ((winner.map (fun x => x.chan)).getD free)).wr R.ORD_LOST_WRANK
    ((winner.map (fun x => x.rank)).getD (free / 8))
  (s.set1 R.SAFE_FLAGS_ORDLOST_F).event 0x05 0x0608 (s.regs.get R.ORD_LOST).toNat

def loserKey (w : Writer) : Nat × Nat × Nat × Int := (w.signal, w.chan, w.entry, w.value)

/-- Step 3: one event at each change of a loser's value. -/
def noteLosers (s : State) : State :=
  let now := s.ord.writers.filter (loses s)
  let s := (now.filter (fun w => !s.ord.losers.contains (loserKey w))).foldl noteLoser s
  { s with ord := { s.ord with losers := now.map loserKey } }

/-! ## What the Harp inputs demand (R268, R269) -/

/-- Input `i` demands: in use, and its accepted level is low. -/
def inDemands (s : State) (i : Nat) : Bool := s.rdBit R.HARP_CFG_INEN i && !s.rdBit R.HARP_STAT_IN i

/-- Inputs 2k and 2k + 1 form a pair. -/
def paired (s : State) (k : Nat) : Bool := s.is (if k = 0 then R.HARP_CFG_PAIRA else R.HARP_CFG_PAIRB)

def discLatch (k : Nat) : Field := if k = 0 then R.SAFE_STAT_DISC_A else R.SAFE_STAT_DISC_B

def getPair (s : State) (k : Nat) : PairSt := if k = 0 then s.harp.pairA else s.harp.pairB

def setPair (s : State) (k : Nat) (q : PairSt) : State :=
  if k = 0 then { s with harp := { s.harp with pairA := q } } else { s with harp := { s.harp with pairB := q } }

/-- The inputs that demand, a latched discrepancy included. -/
def demands (s : State) : Nat :=
  (List.range 4).foldl (fun m i =>
    m + boolNat (inDemands s i || (paired s (i / 2) && s.is (discLatch (i / 2)))) * 2 ^ i) 0

/-! ## Orders acting -/

/-- CLEAR on a port of one vat (R20, R22): FAULT_PATTERN to IDLE, or refused and logged with the lowest cause present. -/
def clearPort (s : State) (v : Vat) (p : Nat) : State :=
  if portState s v p != FAULTPAT then s else
    match causesPresent s v p with
    | [] => setUnitState s v p IDLE
    | c :: _ => s.vatEvent v 0x10 0x0502 (p + c * 256)

/-- A writer asserts an STO or SS1 order. -/
def stopOrderWritten (s : State) : Bool :=
  s.ord.writers.any (fun w => (w.signal == 0x40 || w.signal == 0x41) && w.value != 0)

/-- The conditions of R272. -/
def restartAllowed (s : State) : Bool :=
  demands s == 0 && !s.is R.SAFE_STAT_DISC_A && !s.is R.SAFE_STAT_DISC_B && !s.is R.SAFE_STAT_RAIL
    && s.regs.get R.SAFE_FAULT == 0 && !stopOrderWritten s

/-- ARM and RUN orders asserted now have to rise again before they count (R272, R382). -/
def markAsserted (s : State) : State :=
  { s with ord := { s.ord with
    mustRise := (List.range 16).filterMap (fun i => if orderValue s (0x10 + i) != 0 then some (0x10 + i) else none) } }

/-- SAFE_RESTART rises (R272). -/
def safeRestart (s : State) : State :=
  if s.dev != .safeStop then s
  else if !restartAllowed s then s.event 0x05 0x060A 0
  else setDev (markAsserted (gateOn ((s.clr R.SAFE_STAT_STO).event 0x05 0x060A 1))) .ready

/-- PATTERN_RELEASE on a port (R238), in every vat and in the patterns held at the pins. -/
def releasePattern (s : State) (p : Nat) : State :=
  forVats s (fun s v => if s.vatLive v || s.arb.hold.isSome then asctOver s v p else s)

/-- The resolved value has risen. -/
def rises (old : List (Nat × Int)) (s : State) (sig : Nat) : Bool :=
  orderValue s sig != 0 && (lookupKey sig old).getD 0 == 0

/-- The device orders: STO first, then SS1, then a restart (R8). -/
def deviceOrders (s : State) (old : List (Nat × Int)) : State :=
  let s := if orderValue s 0x41 != 0 then
      takeSto s (if (standing s 0x41).any (fun w => w.chan == 6) then 5 else 2) else s
  let s := if orderValue s 0x40 != 0 then startSs1 s 1 .normal else s
  if rises old s 0x42 then safeRestart s else s

/-- The edge orders on a port. -/
def portOrders (s : State) (old : List (Nat × Int)) (p : Nat) : State :=
  let s := if rises old s (orderSignal 5 p) then releasePattern s p else s
  if rises old s (orderSignal 2 p) then forVats s (fun s v => if s.vatLive v then clearPort s v p else s) else s

/-- One boundary of R283: resolve, log the losers, act; not after a loss of PLL-T (R367). -/
def resolveOrders (s : State) : State :=
  if !s.dev.onward || s.rst.sysAfterSto == some 0x0A then s else
    let old := s.ord.resolved
    let new := resolveAll s
    let s := noteLosers { s with ord := { s.ord with resolved := new } }
    let s := { s with ord := { s.ord with mustRise := s.ord.mustRise.filter (fun g => orderValue s g != 0) } }
    forN 8 (deviceOrders s old) (fun s p => portOrders s old p)

def execOrderResolution (s : State) : Host.Outcome State Fault Refusal := .next (settle (resolveOrders s))

/-! ## Harp inputs (R268-R270) -/

/-- The function of input `i`: a pair's lower input governs. -/
def inIsSs1 (s : State) (i : Nat) : Bool := s.rdBit R.HARP_CFG_FUNC (if paired s (i / 2) then i / 2 * 2 else i)

/-- DEM follows the inputs; what newly demands is logged and acts (R270): STO before SS1 (R8). -/
def refreshDemands (s : State) : State :=
  let old := s.rd R.HARP_STAT_DEM
  let m := demands s
  let s := s.wr R.HARP_STAT_DEM m
  let new := (List.range 4).filter (fun i => bitOf m i && !bitOf old i)
  if new.isEmpty then s else
    let s := (s.set1 R.SAFE_FLAGS_DEMAND_F).event 0x05 0x0601 m
    if new.any (fun i => !inIsSs1 s i) then takeSto s 1 else startSs1 s 0 .normal

/-- A pair after a change of one channel (R269). -/
def pairStep (s : State) (k : Nat) : State :=
  if !paired s k || !s.rdBit R.HARP_CFG_INEN (2 * k) || !s.rdBit R.HARP_CFG_INEN (2 * k + 1) then s else
    let a := inDemands s (2 * k)
    let b := inDemands s (2 * k + 1)
    let q := getPair s k
    let clear := !a && !b && s.is (discLatch k) && q.bothSeen
    let s := setPair s k { waiting := a != b, bothSeen := (q.bothSeen || (a && b)) && !clear }
    if clear then s.clr (discLatch k) else s

/-- The accepted level of input `i` changes (R268). -/
def inputLevel (s : State) (i : Nat) (high : Bool) : State :=
  if s.dev = .off then s else refreshDemands (pairStep (s.wrBit R.HARP_STAT_IN i high) (i / 2))

/-- The wheel has set INEN and the pairs (R268, R269): the inputs and pairs are judged by the levels accepted so far. -/
def judgeInputs (s : State) : State := refreshDemands (pairStep (pairStep s 0) 1)

def execHarpInDemand (i : Fin 4) (s : State) : Host.Outcome State Fault Refusal :=
  .next (settle (inputLevel s i.val false))

def execHarpInRelease (i : Fin 4) (s : State) : Host.Outcome State Fault Refusal :=
  .next (settle (inputLevel s i.val true))

/-- A pair's channels have disagreed for longer than DISC: the discrepancy latches, and the clearing sequence starts again. -/
def latchDiscrepancy (s : State) (k : Nat) : State :=
  let q := getPair s k
  if !q.waiting then s else
    let s := setPair s k { waiting := false, bothSeen := false }
    if s.is (discLatch k) then s
    else refreshDemands (((s.set1 (discLatch k)).set1 R.SAFE_FLAGS_DISC_F).event 0x05 0x1700 (flagData R.SAFE_FLAGS_DISC_F))

def execDiscrepancyTimeout (pairB : Bool) (s : State) : Host.Outcome State Fault Refusal :=
  .next (settle (latchDiscrepancy s (boolNat pairB)))

/-- A rail fault (R267): RAIL latches until a SYS reset, and STO follows with source 4. -/
def railFault (s : State) : State :=
  if s.dev = .off || s.is R.SAFE_STAT_RAIL then s
  else takeSto ((s.set1 R.SAFE_STAT_RAIL).flag 0x05 R.SAFE_FLAGS_RAIL_F) 4

def execRailFault (s : State) : Host.Outcome State Fault Refusal := .next (settle (railFault s))

/-! ## The end of SS1 and of a ride -/

/-- SS1_TIME has elapsed (R271, R273). -/
def ss1Timeout (s : State) : State :=
  if s.is R.SAFE_STAT_SS1_ACT then enterSafeStop s (if s.harp.ss1Kind = .normal then 3 else 6) else s

def execSs1Timeout (s : State) : Host.Outcome State Fault Refusal := .next (settle (ss1Timeout s))

/-- DG_LEFT has reached zero (R280). -/
def rideExpiry (s : State) : State :=
  if s.is R.SAFE_STAT_RIDE && s.rd R.SAFE_STAT_DG_LEFT == 0 then startSs1 ((s.set1 R.SAFE_FLAGS_RIDEEXP_F).event 0x05 0x0605 0) 2 .normal else s

def execRideExpiry (s : State) : Host.Outcome State Fault Refusal := .next (settle (rideExpiry s))

/-! ## Harp outputs (R274-R277) -/

/-- OFFDLY has passed since the permit became false. -/
def outOffDelay (s : State) (n : Nat) : State :=
  if nth s.harp.offPend n false && !s.is R.HARP_STAT_GATE then
    { (s.wrBit R.HARP_STAT_OUT n false) with harp := { s.harp with offPend := modNth s.harp.offPend n (fun _ => false) } }
  else s

def execHarpOutOffDelay (n : Fin 4) (s : State) : Host.Outcome State Fault Refusal := .next (settle (outOffDelay s n.val))

/-- A test of output `n` may run: it is test-pulsed and high, the permit is true and SS1 does not run (R276). -/
def testDue (s : State) (n : Nat) : Bool :=
  outUsed s n && s.is (R.HARP_OUT_TPW n) && s.rdBit R.HARP_STAT_OUT n && s.is R.HARP_STAT_GATE && !s.is R.SAFE_STAT_SS1_ACT

def setWait (s : State) (n : Nat) (b : Bool) : State :=
  { s with harp := { s.harp with testWait := modNth s.harp.testWait n (fun _ => b) } }

/-- A test of output `n` falls due, or its wait for another output's test is over. -/
def testPulseDue (s : State) (n : Nat) : State :=
  if !testDue s n then s
  else if s.is R.HARP_STAT_TP then setWait s n true
  else (setWait (s.wrBit R.HARP_STAT_OUT n false) n false).wrBit R.HARP_STAT_TP n true

def execTestPulseDue (n : Fin 4) (s : State) : Host.Outcome State Fault Refusal := .next (settle (testPulseDue s n.val))

/-- A fault of output `n`'s test or feedback: its flag, a safety fault, and code 0x0606. -/
def outFault (s : State) (n kind bit : Nat) (f : Field) : State :=
  safetyFault ((s.set1 f).event 0x05 0x0606 (n + kind * 256)) bit

/-- A feedback of another output that changed during the test. -/
def crossed (s : State) (n changed : Nat) : Bool :=
  (List.range 4).any (fun m => m != n && bitOf changed m && s.is (R.HARP_OUT_FBEN m))

/-- The end of a test pulse (R277): the output rises again, the feedback is judged. -/
def testPulseEnd (s : State) (n : Nat) (ok : Bool) (changed : Nat) : State :=
  if !s.rdBit R.HARP_STAT_TP n then s else
    let tested : TestEnd := { out := n, vt := s.time.vt, tests := s.rd R.HARP_CNT_TESTS, failed := s.is R.SAFE_FLAGS_TPFAIL_F
                              fault := s.rdBit ⟨R.SAFE_FAULT, 0, 32⟩ 3, ride := s.is R.SAFE_FLAGS_RIDE_F }
    let s := (s.wrBit R.HARP_STAT_TP n false).wrBit R.HARP_STAT_OUT n true
    let s := { s with harp := { s.harp with tested := some tested } }
    let s := if ok then s.incSat R.HARP_CNT_TESTS else outFault s n 1 3 R.SAFE_FLAGS_TPFAIL_F
    if crossed s n changed then outFault s n 3 5 R.SAFE_FLAGS_XSHORT_F else s

def execTestPulseEnd (n : Fin 4) (offOk onOk : Bool) (changed : BitVec 4) (s : State) : Host.Outcome State Fault Refusal :=
  .next (settle (testPulseEnd s n.val (offOk && onOk) changed.toNat))

/-- HARP_FBn has differed from its expected level for longer than FBTIME, outside a test (R275).
(DESIGN CHOICE: notes/assumptions/101.md.) -/
def feedbackError (s : State) (n : Nat) : State :=
  if s.dev.onward && feedbackDiffers s n then outFault s n 2 4 R.SAFE_FLAGS_FBERR_F else s

def execFeedbackError (n : Fin 4) (s : State) : Host.Outcome State Fault Refusal := .next (settle (feedbackError s n.val))

end Sys2Proof.Machine
end

