-- ==== Sys2Proof/Machine/Net.lean ====
section
/-! DEFINITION. Ethernet, network time and the time bases (15_network_time.md R332-R354): the switch and its transparent clock,
the launch-time queues, network time's step, slew and synchronisation, the cross-timestamp unit, PPS, links, and the source of
restoration frames (07_grid_forming.md R176). -/

namespace Sys2Proof.Machine

open Sys2Proof

/-! ## Links -/

/-- The MACs and the switch run: not in reset or RECOVERY, and PLL-N is good (R352, R353). -/
def macsRun (s : State) : Bool := s.dev.onward && !s.is R.NT_STAT_FB

/-- Port `p` can send and receive. -/
def linkUp (s : State) (p : Nat) : Bool := macsRun s && s.is (R.ETH_CFG_EN p) && s.is (R.ETH_STAT_LINK p)

def modNet (s : State) (f : NetSt → NetSt) : State := { s with net := f s.net }

/-! ## NT_SYNC (R336) -/

/-- NT_SYNC clears: NT holds over, a pulse of PPS_OUT that needs NT_SYNC is over (R350), and restoration falls back (R179).
(DEDUCED: notes/assumptions/72.md.) -/
def loseSync (s : State) : State :=
  let s := (modNet s (fun n => { n with
    inRow := 0, outRow := 0, ppsEnd := if s.rd R.PPS_CFG_OMODE = 2 then none else n.ppsEnd })).set1 R.NT_STAT_HOLD
  if !s.is R.NT_STAT_SYNC then s
  else loseRestAll (((s.clr R.NT_STAT_SYNC).set1 R.NT_STAT_SYNCLOSS_F).event 0x0E 0x0E03 0)

/-- NT_SYNC sets. -/
def gainSync (s : State) : State :=
  if s.is R.NT_STAT_SYNC then s.clr R.NT_STAT_HOLD
  else ((s.set1 R.NT_STAT_SYNC).clr R.NT_STAT_HOLD).event 0x0E 0x0E04 0

/-- The network engine is not frozen (R408). -/
def netRuns (s : State) : Bool := !s.rdBit R.CFW_FROZEN_FROZEN 0

/-- The owning vat's supervisor runs. -/
def ownerRuns (s : State) : Bool :=
  match s.owner with
  | some v => s.vatLive v && !s.rdBit (R.FW_FROZEN_FROZEN v) 8
  | none => false

/-- The PTP protocol runs: a role, the network engine, and an owning vat whose supervisor runs it (R341, R343, R408). -/
def ptpRuns (s : State) : Bool := macsRun s && netRuns s && s.rd R.PTP_CFG_ROLE < 2 && ownerRuns s

/-- A grandmaster with GM_OK is synchronised (R336). -/
def gmSync (s : State) : State :=
  if s.net.role = .master && s.is R.NT_STAT_GM && s.is R.PTP_CFG_GM_OK then gainSync s else s

/-- The protocol takes a role. -/
def takeRole (s : State) (r : PtpRole) : State :=
  let s := if r = s.net.role then s else modNet s (fun n => { n with role := r, inRow := 0, outRow := 0 })
  gmSync (s.wr R.NT_STAT_GM (boolNat (r == .master)))

/-- The first of two data sets is the better: field by field, the lesser. -/
def betterSet : List Nat → List Nat → Bool
  | a :: l, b :: m => a < b || (a == b && betterSet l m)
  | _, _ => false

/-- The device's own data set: priority1, clock quality, priority2, identity, steps removed and source port, in the order in which the best
master clock algorithm of IEEE 1588-2019 compares them (R341). (PRESUMED: notes/assumptions/71.md.) -/
def ownSet (s : State) : List Nat :=
  [s.rd R.PTP_CFG_PRIO1, Config.clockQuality.toNat, s.rd R.PTP_CFG_PRIO2, Config.clockIdentity.toNat, 0, Config.clockIdentity.toNat * 65536]

/-- The best master heard, and its port. -/
def bestForeign (s : State) : Option (Fin 2 × List Nat) :=
  match nth s.net.foreign 0 none, nth s.net.foreign 1 none with
  | some a, some b => if betterSet b a then some (1, b) else some (0, a)
  | some a, none => some (0, a)
  | none, some b => some (1, b)
  | none, none => none

/-- What the best master clock algorithm decides: with GMCAP the device takes part with PRIO1 and PRIO2, without it is slave-only
(R341). -/
def bestRole (s : State) : PtpRole :=
  match bestForeign s with
  | some (p, d) => if s.is R.PTP_CFG_GMCAP && betterSet (ownSet s) d then .master else .slave p
  | none => if s.is R.PTP_CFG_GMCAP then .master else .listening

/-- A port's best master is no longer heard. -/
def dropForeign (s : State) (p : Nat) : State := modNet s (fun n => { n with foreign := modNth n.foreign p (fun _ => none) })

/-! ## Steps and slews (R335) -/

def ntStep (s : State) : Int := signedOf 64 ((s.regs.get R.NT_STEP_LO).toNat + (s.regs.get R.NT_STEP_HI).toNat * 2 ^ 32)

/-- The step is applied in one cycle. -/
def applyStep (s : State) : State :=
  let d := ntStep s
  let nt := unsignedOf 64 ((s.nt : Int) + d)
  let s := { s with time := { s.time with ntQ := nt * 2 ^ 37 + s.time.ntQ % 2 ^ 37 } }
  ((s.set1 R.NT_STAT_STEP_F).incSat R.NT_STAT_STEPS).event 0x0E 0x0E02
    (unsignedOf 32 (clampInt (-(2 ^ 31)) (2 ^ 31 - 1) d))

/-- STEP_GO: refused while NT_SYNC is 1; in the reset of domain N NT stays 0 (R354). -/
def stepGo (s : State) : State := if s.is R.NT_STAT_SYNC || !s.rst.released.contains .N then s else applyStep s

def execStepGo (s : State) : Host.Outcome State Fault Refusal := .next (settle (if s.dev = .off then s else stepGo s))

/-- NT_FREQ saturates at 500 ppm. -/
def setFreq (s : State) (w : Word) : State :=
  s.wr R.NT_FREQ_VAL (unsignedOf 32 (clampInt (-549755813) 549755813 (signedOf 32 w.toNat)))

/-- An offset from the master (R335, R336): a step above STEPTHR while acquiring, else a slew. -/
def takeOffset (s : State) (ns : Int) (freq : Word) : State :=
  let within := ns.natAbs ≤ s.rd R.SYNC_CFG_SYNC_THR
  let s := modNet s (fun n => { n with
    inRow := if within then min 16 (n.inRow + 1) else 0, outRow := if within then 0 else min 3 (n.outRow + 1) })
  let s :=
    if !s.is R.NT_STAT_SYNC && s.rd R.SYNC_CFG_STEPTHR * 1000 < ns.natAbs then
      let d := unsignedOf 64 (-ns)
      stepGo ((s.wrWord R.NT_STEP_LO (BitVec.ofNat 32 d)).wrWord R.NT_STEP_HI (BitVec.ofNat 32 (d / 2 ^ 32)))
    else setFreq s freq
  if s.net.inRow = 16 then gainSync s
  else if s.is R.NT_STAT_SYNC && s.net.outRow = 3 then loseSync s
  else s.wr R.NT_STAT_HOLD (boolNat (!s.is R.NT_STAT_SYNC))

def execNtSyncLoss (s : State) : Host.Outcome State Fault Refusal :=
  .next (settle (if s.is R.NT_STAT_SYNC then loseSync s else s))

/-- Announce messages are missing on a port: where it hears the grandmaster, that is lost and NT holds over; the best master clock
algorithm chooses again (R342, R352). -/
def announceTimeout (s : State) (p : Fin 2) : State :=
  let s := if s.net.role = .slave p then s.set1 R.NT_STAT_HOLD else s
  let s := dropForeign s p
  takeRole s (bestRole s)

def execAnnounceReceiptTimeout (p : Fin 2) (s : State) : Host.Outcome State Fault Refusal :=
  .next (settle (if ptpRuns s then announceTimeout s p else s))

/-! ## Frames -/

/-- The number that `n` bytes at an offset hold, the first byte most significant. -/
def fieldBe (f : List Byte) (o n : Nat) : Nat := beValue ((f.drop o).take n)

def putBytes (f : List Byte) (o : Nat) (bs : List Byte) : List Byte := f.take o ++ bs ++ f.drop (o + bs.length)

/-- Where the EtherType lies: behind one 802.1Q tag, if there is one. -/
def typeOffset (f : List Byte) : Nat := if fieldBe f 12 2 = 0x8100 then 16 else 12

/-- The destination port and address and the payload's offset and length of a UDP/IPv4 datagram. -/
structure UdpInfo where
  src : Nat
  port : Nat
  addr : Nat
  off : Nat
  len : Nat
  deriving DecidableEq, Repr

def udpOf (f : List Byte) : Option UdpInfo :=
  let o := typeOffset f
  let h := fieldBe f (o + 2) 1 % 16 * 4
  let u := o + 2 + h
  if fieldBe f o 2 = 0x0800 && fieldBe f (o + 2) 1 / 16 = 4 && fieldBe f (o + 11) 1 = 17 then
    some ⟨fieldBe f u 2, fieldBe f (u + 2) 2, fieldBe f (o + 18) 4, u + 8, fieldBe f (u + 4) 2 - 8⟩
  else none

/-- Where a PTP message begins in the configured transport (R342). -/
def ptpOffset (s : State) (f : List Byte) : Option Nat :=
  if s.is R.PTP_CFG_TRANS then
    (udpOf f).bind (fun u => if u.port = 319 || u.port = 320 then some u.off else none)
  else if fieldBe f (typeOffset f) 2 = 0x88F7 then some (typeOffset f + 2) else none

/-! ## The device's own frames -/

/-- The headers of a UDP/IPv4 datagram of `n` bytes from the device to a group, with one port at both ends (R342, R348). -/
def udpHeader (dst : BitVec 32) (port n : Nat) : List Byte :=
  let k := Config.ipFields
  let ip (sum : List Byte) : List Byte :=
    [0x45, k.extractLsb' 48 8] ++ beBytes 2 (n + 28) ++ beBytes 5 (k.toNat % 2 ^ 40) ++ [17] ++ sum ++ beBytes 4 Config.ipAddr.toNat
      ++ beBytes 4 dst.toNat
  let udp (sum : List Byte) : List Byte := beBytes 2 port ++ beBytes 2 port ++ beBytes 2 (n + 8) ++ sum
  beBytes 6 (Config.groupMac dst).toNat ++ beBytes 6 Config.macAddr.toNat ++ [0x08, 0x00]
    ++ ip (beBytes 2 (Config.ipSum (ip [0, 0])).toNat) ++ udp (beBytes 2 (Config.ipSum (udp [0, 0])).toNat)

/-- A frame padded to the minimum length. -/
def padFrame (b : List Byte) : List Byte := b ++ List.replicate (60 - b.length) 0

/-- The device's port identity in PTP: clock identity and port number from 1. -/
def portIdentity (p : Nat) : List Byte := beBytes 8 Config.clockIdentity.toNat ++ beBytes 2 (p + 1)

/-- An NT as a PTP timestamp: seconds and nanoseconds. -/
def ptpTime (t : Nat) : List Byte := beBytes 6 (t / 1000000000) ++ beBytes 4 (t % 1000000000)

/-- A PTP message in the configured transport (R342): its type, two-step flag, correction, sequence number, log interval and body behind
the header of IEEE 1588-2019; event messages have types below 8, and peer delay messages their own group.
(PRESUMED: notes/assumptions/71.md.) -/
def ptpFrame (s : State) (p kind : Nat) (twoStep : Bool) (corr seq log : Nat) (body : List Byte) : List Byte :=
  let msg := [BitVec.ofNat 8 (kind + 16 * s.rd R.PTP_CFG_PROFILE), 2] ++ beBytes 2 (34 + body.length)
    ++ [BitVec.ofNat 8 (s.rd R.PTP_CFG_DOMAIN), 0, BitVec.ofNat 8 (2 * boolNat twoStep), 0] ++ beBytes 8 corr ++ [0, 0, 0, 0]
    ++ portIdentity p ++ beBytes 2 seq ++ [0, BitVec.ofNat 8 log] ++ body
  let peer := kind == 2 || kind == 3 || kind == 10
  padFrame (if s.is R.PTP_CFG_TRANS then udpHeader (Config.ptpGroup peer) (if kind < 8 then 319 else 320) msg.length ++ msg
    else beBytes 6 (Config.ptpMac peer).toNat ++ beBytes 6 Config.macAddr.toNat ++ [0x88, 0xF7] ++ msg)

/-- Bytes put into a PTP message in passing; its UDP checksum becomes zero (R344). -/
def putPtp (s : State) (f : List Byte) (o i : Nat) (bs : List Byte) : List Byte :=
  let f := putBytes f (o + i) bs
  if s.is R.PTP_CFG_TRANS then putBytes f (o - 2) [0, 0] else f

/-- What a message of the device's own becomes as it leaves port `p` with a timestamp: a one-step Sync carries the time, and a one-step
Pdelay_Resp adds the turnaround time to the correction that it has of its request; a two-step one is followed by a Follow_Up, which
carries the time and, of a Pdelay_Resp, that correction (R342). (PRESUMED: notes/assumptions/71.md.) -/
def stampOwn (s : State) (p stamp : Nat) (f : List Byte) : List Byte × List (List Byte) :=
  match (if s.rd R.PTP_CFG_ROLE < 2 then ptpOffset s f else none) with
  | none => (f, [])
  | some o =>
    let kind := fieldBe f o 1 % 16
    let twoStep := bitOf (fieldBe f (o + 6) 1) 1
    let seq := fieldBe f (o + 30) 2
    if fieldBe f (o + 20) 8 != Config.clockIdentity.toNat then (f, [])
    else if kind = 0 then
      if twoStep then (f, [ptpFrame s p 8 false 0 seq (s.rd R.PTP_INT_LOGSYNC) (ptpTime stamp)])
      else (putPtp s f o 34 (ptpTime stamp), [])
    else if kind = 3 then
      let corr := fieldBe f (o + 8) 8
      if twoStep then
        (putPtp s f o 8 (beBytes 8 0), [ptpFrame s p 10 false corr seq 127 (ptpTime stamp ++ (f.drop (o + 44)).take 10)])
      else
        let t2 := fieldBe f (o + 34) 6 * 1000000000 + fieldBe f (o + 40) 4
        (putPtp s (putPtp s f o 8 (beBytes 8 (unsignedOf 64 ((corr : Int) + ((stamp : Int) - t2) * 65536)))) o 34 (beBytes 10 0), [])
    else (f, [])

/-! ## The transparent clock (R344) -/

/-- The correction is added to correctionField. -/
def correct (s : State) (f : List Byte) (o : Nat) (ns : Int) : List Byte :=
  let c := fieldBe f (o + 8) 8
  putPtp s f o 8 (beBytes 8 (unsignedOf 64 ((c : Int) + ns * 65536)))

/-- Residence of a frame from port `p`: its egress timestamp less its ingress instant, both with the PHY latencies of R334, and the link
delay on a Sync with peer-to-peer delay. -/
def residenceOf (s : State) (p : Nat) (since : Int) (stamp : Nat) (sync : Bool) : Int :=
  (stamp : Int) - since + (if sync && s.is R.PTP_CFG_DELAY then nth s.net.linkDelay p 0 else 0 : Nat)

/-- A PTP message from port `p` passes to the other, which it leaves with a timestamp. -/
def throughClock (s : State) (p : Nat) (since : Int) (stamp : Nat) (f : List Byte) (o : Nat) : State × List Byte :=
  let kind := fieldBe f o 1 % 16
  let twoStep := bitOf (fieldBe f (o + 6) 1) 1
  let key := fieldBe f (o + 20) 12
  let res := residenceOf s p since stamp (kind == 0)
  if kind = 0 && twoStep then
    let t := s.net.twoStep.filter (fun e => e.1 != key)
    if t.length < 16 then (modNet s (fun n => { n with twoStep := t ++ [(key, res)] }), f)
    else (s.incSat R.TC_STAT_TCOVR, f)
  else if kind = 8 then
    match s.net.twoStep.find? (fun e => e.1 == key) with
    | some e => (modNet s (fun n => { n with twoStep := n.twoStep.filter (fun e => e.1 != key) }), correct s f o e.2)
    | none => (s.incSat R.TC_STAT_TCMISS, f)
  else if kind = 0 || kind = 1 || (kind = 3 && !twoStep) then (s, correct s f o res)
  else (s, f)

/-! ## Egress queues (R332, R333, R346) -/

/-- The queue that the PCP of a frame's 802.1Q tag selects; 0 without a tag. -/
def pcpQueue (f : List Byte) : Nat := if fieldBe f 12 2 = 0x8100 then fieldBe f 14 1 / 32 else 0

/-- ns that `n` bytes take at port `p`'s speed: SPNOW is 1 for 10, 2 for 100 and 3 for 1,000 Mbit/s. -/
def wireNs (s : State) (p n : Nat) : Nat :=
  match s.rd (R.ETH_STAT_SPNOW p) with
  | 1 => 800 * n
  | 2 => 80 * n
  | _ => 8 * n

/-- A frame with FCS, preamble, start-of-frame delimiter and interframe gap. -/
def frameNs (s : State) (p : Nat) (f : List Byte) : Nat := wireNs s p (f.length + 24)

/-- A frame started now at port `p`, with its gap, ends before the launch time of queue `q`'s head, or that time is more
than G ahead (R346). -/
def roomBefore (s : State) (p q : Nat) (f : List Byte) : Bool :=
  match nth s.net.ltq (8 * p + q) [] with
  | (l, _) :: _ => !s.is (R.ETH_LTQ_LT_EN p q) || decide (s.nt + wireNs s p 1542 < l) || decide (s.nt + frameNs s p f < l)
  | [] => true

/-- Port `p` may start this frame, which is in no launch-time queue: it ends before every launch time within G (R346). -/
def mayStart (s : State) (p : Nat) (f : List Byte) : Bool :=
  (List.range 8).all (fun q => roomBefore s p q f)

/-- A due head of queue `q` waits behind the head of a higher-numbered launch-time queue that is due within its own
transmission (R346). -/
def roomAbove (s : State) (p q : Nat) (f : List Byte) : Bool :=
  (List.range 8).all (fun r => decide (r ≤ q) || roomBefore s p r f)

/-- A timestamp of 4 ns resolution (R334). -/
def stampOf (t : Nat) : Nat := t / 4 * 4

/-- The receive timestamp on port `p` of a frame whose start-of-frame delimiter crossed the MAC `raw` ns ago, INLAT subtracted (R334). -/
def ingressStamp (s : State) (p raw : Nat) : Int := (stampOf (s.nt - raw) : Int) - s.rd (R.ETH_CFG_INLAT p)

/-- A frame as it leaves with a timestamp: one that the transparent clock passes is corrected. -/
def departing (s : State) (stamp : Nat) (f : QFrame) : State × List Byte :=
  match f.since, ptpOffset s f.frame with
  | some (i, t), some o => throughClock s i t stamp f.frame o
  | _, _ => (s, f.frame)

/-- The timestamp of a frame that leaves port `p` now, EGLAT added (R334). -/
def egressStamp (s : State) (p : Nat) : Nat := stampOf s.nt + s.rd (R.ETH_CFG_EGLAT p)

/-- The frame goes out of port `p` now, stamped; the port is busy until it ends, and a Follow_Up of the device's own waits behind it. -/
def transmit (s : State) (p : Nat) (f : QFrame) : State :=
  let stamp := egressStamp s p
  let r := departing s stamp f
  let own := stampOwn s p stamp r.2
  modNet r.1 (fun n => { n with
    txStamp := modNth n.txStamp p (fun _ => stamp), out := modNth n.out p (fun _ => own.1)
    freeAt := modNth n.freeAt p (fun _ => s.time.vt + frameNs s p own.1)
    waiting := own.2.foldl (fun w g => modNth w (8 * p + pcpQueue g) (fun l => l ++ [{ frame := g }])) n.waiting })

/-- No frame of port `p` is on the wire. -/
def portFree (s : State) (p : Nat) : Bool := decide (nth s.net.freeAt p 0 ≤ s.time.vt)

/-- The highest-numbered queue of port `p` with a frame that may start. -/
def nextQueue (s : State) (p : Nat) : Option (Nat × QFrame) :=
  [7, 6, 5, 4, 3, 2, 1, 0].findSome? (fun q => match nth s.net.waiting (8 * p + q) [] with
    | f :: _ => if mayStart s p f.frame then some (q, f) else none
    | [] => none)

/-- A free port starts its next frame. -/
def drainPort (s : State) (p : Nat) : State :=
  if !linkUp s p || !portFree s p then s else
    match nextQueue s p with
    | some (q, f) => transmit (modNet s (fun n => { n with waiting := modNth n.waiting (8 * p + q) (fun l => l.drop 1) })) p f
    | none => s

/-- A frame joins queue `q` of an egress port with a link; the host port takes it at once, and none reaches the host past a frozen
network engine. A frame that the switch forwards, or the supervisor sends without a launch time, waits beside a launch-time
queue of its number. (DESIGN CHOICE: notes/assumptions/70.md.) -/
def sendOn (s : State) (p q : Nat) (f : QFrame) : State :=
  if p = 2 then (if netRuns s then modNet s (fun n => { n with out := modNth n.out 2 (fun _ => f.frame) }) else s)
  else if linkUp s p then drainPort (modNet s (fun n => { n with waiting := modNth n.waiting (8 * p + q) (fun l => l ++ [f]) })) p
  else s

/-- The PCP selects the queue (R332). -/
def sendOut (s : State) (p : Nat) (f : QFrame) : State := sendOn s p (pcpQueue f.frame) f

/-! ## The switch (R333) -/

/-- The egress ports of a frame that arrived on port `p`. -/
def egress (s : State) (p : Nat) (f : List Byte) : List Nat :=
  let others := [0, 1, 2].filter (fun q => q != p)
  let dst := fieldBe f 0 6
  if fieldBe f 0 1 % 2 = 1 then others
  else
    match lookupKey dst s.net.table with
    | some q => if q.1 = p then [] else [q.1]
    | none => others

/-- The source address is learned, or renewed; a full table learns no new one. -/
def learn (s : State) (p : Nat) (f : List Byte) : State :=
  let src := fieldBe f 6 6
  if fieldBe f 6 1 % 2 = 1 then s else
    let t := eraseKey src s.net.table
    if t.length < 256 then modNet s (fun n => { n with table := insertKey src (p, s.time.vt) t }) else s

/-- The frame is forwarded. PTP frames reach the host, and pass between the ports only with ROLE 0, corrected as they leave, or ROLE 2;
`raw`: the switch's own time between their receipt and the queue. (DEDUCED: notes/assumptions/70.md.) -/
def forward (s : State) (p raw : Nat) (f : List Byte) : State :=
  let qs := egress s p f
  match (if s.rd R.PTP_CFG_ROLE < 2 then ptpOffset s f else none) with
  | none => qs.foldl (fun s q => sendOut s q { frame := f }) s
  | some _ =>
    let since := ingressStamp s p raw
    let s := sendOut s 2 { frame := f }
    if s.rd R.PTP_CFG_ROLE = 0 && qs.contains (1 - p) then sendOut s (1 - p) { frame := f, since := some (p, since) } else s

/-- A frame that the supervisor sends on port `p` enters the switch at the host port, which learns its source (R333). -/
def hostSend (s : State) (p : Nat) (f : List Byte) : State := sendOut (learn s 2 f) p { frame := f }

/-! ## Restoration frames (R348, R349) -/

/-- The payload of a frame in the configured restoration transport. -/
def restPayload (s : State) (f : List Byte) : Option (List Byte) :=
  if s.is R.PTP_CFG_TRANS then
    (udpOf f).bind (fun u =>
      let port := s.rd R.REST_ETYPE_REST_UDP
      if u.port = port && u.src = port && u.addr = s.rd R.REST_DST_VAL && 20 ≤ u.len then some ((f.drop u.off).take 20) else none)
  else
    let mac := beValue (leBytes 4 (s.rd R.REST_MAC_LO_VAL) ++ leBytes 2 (s.rd R.REST_MAC_HI_REST_MAC_HI))
    let o := typeOffset f
    let p := (f.drop (o + 2)).take 20
    if fieldBe f 0 6 = mac && fieldBe f o 2 = s.rd R.REST_ETYPE_REST_ETYPE && p.length = 20 then some p else none

/-- The NT nearest to now whose lower 48 bits are `t`: across a wrap of the era counter too (R338). -/
def nearestNt (s : State) (t : Nat) : Nat := ((s.nt : Int) + signedOf 48 (t + 2 ^ 48 - s.nt % 2 ^ 48)).toNat

/-- The fields of a payload (R176). -/
def parseRest (s : State) (p : List Byte) : RestFrame :=
  let field (o n : Nat) : Nat := leValue ((p.drop o).take n)
  { setId := field 0 2, srcId := field 2 2, seq := field 4 2
    apply := nearestNt s (field 12 2 * 2 ^ 32 + field 8 4), applyPt := 0, df := signedOf 32 (field 16 4) }

/-- The payload of the source's frame (R176). -/
def restBytes (f : RestFrame) : List Byte :=
  leBytes 2 f.setId ++ leBytes 2 f.srcId ++ leBytes 2 f.seq ++ [0, 0] ++ leBytes 4 f.apply ++ leBytes 2 (f.apply / 2 ^ 32)
    ++ [0, 0] ++ leBytes 4 (unsignedOf 32 f.df)

/-- The frame around it, padded to the minimum length. -/
def restFrame (s : State) (f : RestFrame) : List Byte :=
  let head :=
    if s.is R.PTP_CFG_TRANS then udpHeader (BitVec.ofNat 32 (s.rd R.REST_DST_VAL)) (s.rd R.REST_ETYPE_REST_UDP) 20
    else leBytes 4 (s.rd R.REST_MAC_LO_VAL) ++ leBytes 2 (s.rd R.REST_MAC_HI_REST_MAC_HI) ++ beBytes 6 Config.macAddr.toNat
      ++ beBytes 2 (s.rd R.REST_ETYPE_REST_ETYPE)
  padFrame (head ++ restBytes f)

/-- A frame joins a launch-time queue; a queue that is not launch-timed sends it at once. -/
def enqueueLaunch (s : State) (p q launch : Nat) (f : List Byte) : State :=
  let s := learn s 2 f
  if s.is (R.ETH_LTQ_LT_EN p q) then modNet s (fun n => { n with ltq := modNth n.ltq (8 * p + q) (fun l => l ++ [(launch, f)]) })
  else sendOn s p q { frame := f }

/-- DFR_next at a PER boundary (R176). -/
def dfrNext (s : State) (v : Vat) (p : Nat) : Word :=
  let f := match portGraph s v p with
    | some (c, k) => (committedF s v c (getSlot s v c k) (s.rd (R.GRID_REST_RFINST v p)) (s.rd (R.GRID_REST_RFOUT v p))).1
    | none => 0
  let fnom := F32.ofNat (nominalHz s v p)
  let per := fdiv (F32.ofNat (s.rd (R.GRID_PER_PER v p))) (F32.ofNat 1000)
  let kr : Word := s.regs.get (R.GRID_KR v p)
  let rmax : Word := s.regs.get (R.GRID_RMAX v p)
  fclamp (fadd (getGuard s v p).dfrNext (fmul (fmul kr (fsub fnom f)) per)) (fneg rmax) rmax

/-- The source at a PER boundary of NT: the owning vat's supervisor computes, both vats hold what it computed, the frame goes
out on every port with a link, and the source's own receivers take it too. -/
def restorationBroadcast (s : State) (v : Vat) (p : Nat) : State :=
  let y := dfrNext s v p
  let n := ((getGuard s v p).seqOut + 1) % 2 ^ 16
  let s := forVats s (fun s w => modGuard s w p (fun g => { g with dfrNext := y, seqOut := n }))
  let f : RestFrame :=
    { setId := s.rd (R.GRID_SET_SET_ID v p), srcId := s.rd (R.GRID_SET_SRC_ID v p), seq := n
      apply := s.nt + s.rd (R.GRID_PER_LEAD v p) * 1000000, applyPt := 0
      df := clampInt (-(2 ^ 31)) (2 ^ 31 - 1) (F32.toInt (fmul y (F32.ofNat 1000000)) 0) }
  let q := s.rd R.REST_Q_REST_Q
  let s := [0, 1].foldl (fun s e =>
    if linkUp s e then enqueueLaunch s e q (s.nt + s.rd R.REST_Q_REST_LNCH * 1000) (restFrame s f) else s) s
  receiveRestAll s f

def execRestorationBroadcast (p : Fin 8) (s : State) : Host.Outcome State Fault Refusal :=
  .next (settle (
    match s.owner with
    | some v =>
      if ownerRuns s && netRuns s && s.dev.onward && gridPort s v p.val && s.is (R.GRID_REST_RSRC v p.val) then restorationBroadcast s v p.val else s
    | none => s))

/-! ## Receiving (R333, R334, R349) -/

/-- The ports on which the protocol sends a message of a kind: Sync and Announce as a master, delay requests as a slave, or,
peer to peer, on every port. -/
def messagePorts (s : State) (m : PtpMessage) : List Nat :=
  let slave : Option Nat := match s.net.role with
    | .slave q => some q.val
    | _ => none
  [0, 1].filter (fun q => linkUp s q && (match m with
    | .delayReq => s.is R.PTP_CFG_DELAY || slave == some q
    | _ => s.net.role == .master || (s.rd R.PTP_CFG_ROLE == 1 && slave.isSome && slave != some q)))

/-- The body of an Announce: the grandmaster's data set, the device's own or the one it follows.
(PRESUMED: notes/assumptions/71.md.) -/
def announceBody (s : State) : List Byte :=
  let d := match s.net.role, bestForeign s with
    | .slave _, some (_, d) => d
    | _, _ => ownSet s
  let steps := match s.net.role with
    | .slave _ => nth d 4 0 + 1
    | _ => 0
  ptpTime s.nt ++ [0, 0, 0] ++ beBytes 1 (nth d 0 0) ++ beBytes 4 (nth d 1 0) ++ beBytes 1 (nth d 2 0) ++ beBytes 8 (nth d 3 0)
    ++ beBytes 2 steps ++ [0xA0]

/-- The sequence counter of a message of an interval on a port: each port counts each type of message for itself (R342).
(PRESUMED: notes/assumptions/71.md.) -/
def seqPool (s : State) (p : Nat) (m : PtpMessage) : Nat :=
  4 * p + match m with
    | .sync => 0
    | .delayReq => if s.is R.PTP_CFG_DELAY then 2 else 1
    | .announce => 3

/-- The message of an interval on a port (R342). -/
def intervalFrame (s : State) (p : Nat) (m : PtpMessage) : List Byte :=
  let seq := nth s.net.sent (seqPool s p m) 0
  match m with
  | .sync => ptpFrame s p 0 (!s.is R.PTP_CFG_ONESTEP) 0 seq (s.rd R.PTP_INT_LOGSYNC) (ptpTime s.nt)
  | .announce => ptpFrame s p 11 false 0 seq (s.rd R.PTP_INT_LOGANN) (announceBody s)
  | .delayReq =>
    if s.is R.PTP_CFG_DELAY then ptpFrame s p 2 false 0 seq 127 (ptpTime s.nt ++ List.replicate 10 0)
    else ptpFrame s p 1 false 0 seq 127 (ptpTime s.nt)

/-- The answer to a delay request of port `p` (R342): a master's Delay_Resp, or with peer-to-peer delay a Pdelay_Resp.
(PRESUMED: notes/assumptions/71.md.) -/
def answerDelay (s : State) (h : HeldPtp) (o : Nat) : State :=
  let kind := fieldBe h.frame o 1 % 16
  let seq := fieldBe h.frame (o + 30) 2
  let body := ptpTime h.stamp ++ (h.frame.drop (o + 20)).take 10
  let corr := fieldBe h.frame (o + 8) 8
  if kind = 1 && !s.is R.PTP_CFG_DELAY && (messagePorts s .sync).contains h.port then
    hostSend s h.port (ptpFrame s h.port 9 false corr seq (s.rd R.PTP_INT_LOGDREQ) body)
  else if kind = 2 && s.is R.PTP_CFG_DELAY && linkUp s h.port then
    hostSend s h.port (ptpFrame s h.port 3 (!s.is R.PTP_CFG_ONESTEP) corr seq 127 body)
  else s

/-- The data set that an Announce brings (R341). (PRESUMED: notes/assumptions/71.md.) -/
def announcedSet (f : List Byte) (o : Nat) : List Nat :=
  [fieldBe f (o + 47) 1, fieldBe f (o + 48) 4, fieldBe f (o + 52) 1, fieldBe f (o + 53) 8, fieldBe f (o + 61) 2, fieldBe f (o + 20) 10]

/-- A set heard on a port takes the place of the port's best: it renews it, or is better. -/
def takesForeign (s : State) (p : Nat) (d : List Nat) : Bool :=
  match nth s.net.foreign p none with
  | some e => nth e 5 0 == nth d 5 0 || betterSet d e
  | none => true

/-- An Announce: the data set it brings is the port's best, renewed or bettered, and the algorithm decides.
(PRESUMED: notes/assumptions/71.md.) -/
def hearAnnounce (s : State) (h : HeldPtp) (o : Nat) : State :=
  if fieldBe h.frame o 1 % 16 != 11 then s else
    let d := announcedSet h.frame o
    let s := if takesForeign s h.port d then modNet s (fun n => { n with foreign := modNth n.foreign h.port (fun _ => some d) }) else s
    takeRole s (bestRole s)

/-- What the protocol makes of a PTP message that reached the host. (DESIGN CHOICE: notes/assumptions/71.md.) -/
def processPtp (s : State) (h : HeldPtp) : State :=
  let s := match ptpOffset s h.frame with
    | some o => hearAnnounce (answerDelay s h o) h o
    | none => s
  match h.result with
  | .nothing => s
  | .offset ns freq => if (match s.net.role with | .slave q => q.val == h.port | _ => false) then takeOffset s ns freq else s
  | .linkDelay ns => modNet s (fun n => { n with linkDelay := modNth n.linkDelay h.port (fun _ => ns) })

/-- The protocol takes a message, or while no supervisor runs it the message is held with its timestamp (R343). -/
def takePtp (s : State) (h : HeldPtp) : State :=
  if ptpRuns s then processPtp s h
  else if macsRun s && netRuns s && s.rd R.PTP_CFG_ROLE < 2 && !ownerRuns s then modNet s (fun n => { n with held := n.held ++ [h] })
  else s

/-- A supervisor that runs the protocol again processes what has been held (R343). -/
def resumePtp (s : State) : State :=
  if s.net.held = [] || !ptpRuns s then s
  else s.net.held.foldl processPtp (modNet s (fun n => { n with held := [] }))

/-- The message is of the device's PTP domain (R342). -/
def ownDomain (s : State) (f : List Byte) : Bool :=
  match ptpOffset s f with
  | some o => fieldBe f (o + 4) 1 == s.rd R.PTP_CFG_DOMAIN
  | none => false

def receiveEth (s : State) (p : Nat) (f : List Byte) (bad : Bool) (raw : Nat) (r : PtpResult) : State :=
  if bad || f.length < 60 || 1518 < f.length then
    (s.incSat (R.ETH_STAT_RXERRS p)).flag 0x0E (R.ETH_STAT_RXERR_F p)
  else
    let stamp := (ingressStamp s p raw).toNat
    let s := modNet s (fun n => { n with rxStamp := modNth n.rxStamp p (fun _ => stamp) })
    let s := forward (learn s p f) p raw f
    let s := if ownDomain s f then takePtp s ⟨p, f, stamp, r⟩ else s
    match (if netRuns s then restPayload s f else none) with
    | some b => receiveRestAll s (parseRest s b)
    | none => s

def execEthFrameRx (p : Fin 2) (frame : List Byte) (bad : Bool) (residence : Nat) (ptp : PtpResult) (s : State) :
    Host.Outcome State Fault Refusal :=
  .next (settle (if linkUp s p.val then receiveEth s p.val frame bad residence ptp else s))

/-- No frame from the address has come for 300 s of VT. -/
def addressAged (s : State) (mac : Nat) : Bool :=
  (lookupKey mac s.net.table).any (fun q => decide (q.2 + 300000000000 ≤ s.time.vt))

/-- An aged address leaves the table (R333). (DESIGN CHOICE: notes/assumptions/70.md.) -/
def execAddressAgeing (mac : BitVec 48) (s : State) : Host.Outcome State Fault Refusal :=
  .next (settle (if addressAged s mac.toNat then modNet s (fun n => { n with table := eraseKey mac.toNat n.table }) else s))

def execPtpMessageInterval (m : PtpMessage) (s : State) : Host.Outcome State Fault Refusal :=
  .next (settle (if ptpRuns s then
    (messagePorts s m).foldl (fun s q =>
      let i := seqPool s q m
      modNet (hostSend s q (intervalFrame s q m)) (fun n => { n with sent := modNth n.sent i (fun k => (k + 1) % 65536) })) s
    else s))

/-! ## Launch-time queues (R346, R347) -/

def countLate (s : State) (p q : Nat) (dropped : Bool) : State :=
  (s.incSat (R.ETH_LTQ_LATES p q)).event 0x0E 0x0E05 (p + q * 2 + boolNat dropped * 16)

/-- How late a head with launch time `l` can start now. Time passes in steps of 40 ns (notes/assumptions/30.md): within one after L what
counts is how long after L the port became free for it. -/
def lateness (s : State) (p l : Nat) : Nat :=
  let late := s.nt - l
  if late ≤ 40 then late - (s.time.vt - nth s.net.freeAt p 0) else late

/-- The head of a launch-time queue at its turn: launched, or late by what NT has run past its launch time, judged when the port is
free for it. -/
def launchHead (s : State) (p q : Nat) : State :=
  match nth s.net.ltq (8 * p + q) [] with
  | [] => s
  | (l, f) :: rest =>
    if s.nt + 8 < l || (linkUp s p && !(portFree s p && roomAbove s p q f)) then s else
      let late := lateness s p l
      let s := modNet s (fun n => { n with ltq := modNth n.ltq (8 * p + q) (fun _ => rest) })
      if !linkUp s p then countLate s p q true
      else if late ≤ 8 || late ≤ s.rd (R.ETH_LTQ_LATEWIN p q) * 1000 then transmit s p { frame := f }
      else if s.is (R.ETH_LTQ_LATEMODE p q) then transmit (countLate s p q false) p { frame := f }
      else countLate s p q true

def execLaunchTimeDue (p : Fin 2) (q : Fin 8) (s : State) : Host.Outcome State Fault Refusal :=
  .next (settle (if macsRun s then launchHead s p.val q.val else s))

/-! ## Links up and down (R352) -/

def linkLoss (s : State) (p : Nat) : State :=
  let s := ((s.clr (R.ETH_STAT_LINK p)).set1 (R.ETH_STAT_LINKDN_F p)).event 0x0E 0x0E01 p
  let s := dropForeign s p
  let s := match s.net.role with
    | .slave q => if q.val = p then modNet s (fun n => { n with role := .listening }) else s
    | _ => s
  if s.is R.NT_STAT_SYNC && !s.is (R.ETH_STAT_LINK (1 - p)) then loseSync s else s

def execEthLinkLoss (p : Fin 2) (s : State) : Host.Outcome State Fault Refusal :=
  .next (settle (if s.is (R.ETH_STAT_LINK p.val) then linkLoss s p.val else s))

def execEthLinkUp (p : Fin 2) (speed : BitVec 2) (s : State) : Host.Outcome State Fault Refusal :=
  .next (settle (if macsRun s && s.is (R.ETH_CFG_EN p.val) then
    gmSync ((s.set1 (R.ETH_STAT_LINK p.val)).wr (R.ETH_STAT_SPNOW p.val)
      (if s.is (R.ETH_CFG_SPEED p.val) then s.rd (R.ETH_CFG_SPEED p.val) else speed.toNat))
    else s))

/-! ## Cross-timestamps and PPS (R339, R340, R350, R351) -/

/-- MT in ms, and the MTR_CLK cycles into the millisecond. -/
def RindSt.mt (r : RindSt) : Nat := r.mtQ / 25000000

def RindSt.mtFrac (r : RindSt) : Nat := r.mtQ % 25000000 * 12288 / 25000000

/-- A visible capture of the four bases. -/
def capture (s : State) (req pps : Bool) : State :=
  let words := [s.nt, s.time.vt, s.pt].flatMap (fun x => [x % 2 ^ 32, x / 2 ^ 32 % 2 ^ 32])
  let s := forN 6 s (fun s i => s.wr (R.CTS_CAP_VAL i) (nth words i 0))
  let ok := s.variant.metered && s.rind.powered && !s.is R.TAP_DATA_RDOWN
  let mt := if ok then s.rind.mt else 0
  let s := (s.wr R.CTS_MT_LO_VAL mt).wr R.CTS_MT_HI_VAL (mt / 2 ^ 32)
  let s := (s.wr R.CTS_MTFRAC_MTFRAC (if ok then s.rind.mtFrac else 0)).wr R.CTS_STAT_MTVAL (boolNat ok)
  ((s.wr R.CTS_STAT_SREQ (boolNat req)).wr R.CTS_STAT_SPPS (boolNat pps)).incWrap R.CTS_STAT_SEQ

def execCtsReq (s : State) : Host.Outcome State Fault Refusal :=
  .next (settle (if s.dev = .off then s else capture s true false))

/-- An edge of PPS_IN in the sense set, at least 100 ms after the previous accepted one. -/
def ppsIn (s : State) (rising req : Bool) : State :=
  let near := s.net.ppsIn.any (fun t => decide (s.time.vt < t + 100000000))
  if rising == s.is R.CTS_CTL_PPSPOL || near then (if req then capture s true false else s)
  else
    let s := modNet s (fun n => { n with ppsIn := some s.time.vt })
    let s := (s.flag 0x0E R.PPS_STAT_PPSIN_F).incWrap R.PPS_STAT_PPSINS
    if s.is R.CTS_CTL_PPSCAP then capture s req true else if req then capture s true false else s

def execPpsInEdge (rising req : Bool) (s : State) : Host.Outcome State Fault Refusal :=
  .next (settle (if s.dev = .off then s else ppsIn s rising req))

/-- OMODE lets PPS_OUT pulse: 1 always, 2 while NT_SYNC is 1. -/
def ppsMode (s : State) : Bool :=
  let m := s.rd R.PPS_CFG_OMODE
  m == 1 || (m == 2 && s.is R.NT_STAT_SYNC)

/-- The level of PPS_OUT. -/
def ppsLevel (s : State) : Bool :=
  s.net.ppsEnd.any (fun t => decide (s.time.vt < t)) && ppsMode s && !s.is R.NT_STAT_FB && s.dev != .recovery

/-- A whole second of NT. -/
def ppsSecond (s : State) : State :=
  if macsRun s && ppsMode s then
    modNet s (fun n => { n with ppsEnd := some (s.time.vt + s.rd R.PPS_CFG_PPSW * 1000000) })
  else s

def execPpsOutSecond (s : State) : Host.Outcome State Fault Refusal := .next (settle (ppsSecond s))

def execInternalCrossCapture (s : State) : Host.Outcome State Fault Refusal :=
  .next (settle (if s.dev = .off then s else
    { s with time := { s.time with caps := (s.nt, s.pt) :: s.time.caps.take 1 } }))

end Sys2Proof.Machine
end

