-- ==== Sys2Proof/Machine/Rind.lean ====
section
/-! DEFINITION. The Rind (13_rind.md R287-R309): metering and its commit slots, sessions and signed records, metrology time and
its corrections, the sealed parameters, the readout port, impulses, the window, the tap and the mailbox. -/

namespace Sys2Proof.Machine

open Sys2Proof

def modRind (s : State) (f : RindSt → RindSt) : State := { s with rind := f s.rind }

/-- The Rind is there and has its supply. -/
def rindUp (s : State) : Bool := s.variant.metered && s.rind.powered

/-- It measures: METER. -/
def metering (s : State) : Bool := rindUp s && s.rind.state == 1

/-! ## Sealed parameters (R300) -/

/-- Word `i` of the sealed parameters: of copy 0, which every check makes good where either copy is (R301). -/
def parWord (s : State) (i : Nat) : Word := nth s.rind.par0 i 0

def parCfg (s : State) (lo w : Nat) : Nat := getBits (parWord s 12) lo w

def wiring (s : State) : Bool := parCfg s 0 1 == 1

/-- TAPCH names an input (R306). -/
def tapNamed (s : State) : Bool := [0, 1, 2, 6].contains (parCfg s 8 8)

/-- PARSUM. -/
def parSum (s : State) : Word := Config.rindParSum ((List.range 32).map (parWord s))

/-- The parameters' bytes from word `i`. -/
def parBytes (s : State) (i n : Nat) : List Byte := (List.range n).flatMap (fun k => leBytes 4 (parWord s (i + k)).toNat)

/-- Bytes written into both copies from word `i`. -/
def putParBytes (s : State) (i : Nat) (bs : List Byte) : State :=
  let put (l : List Word) : List Word :=
    (List.range (bs.length / 4)).foldl (fun l k => modNth l (i + k) (fun _ => BitVec.ofNat 32 (leValue ((bs.drop (4 * k)).take 4)))) l
  modRind s (fun r => { r with par0 := put r.par0, par1 := put r.par1 })

/-- The tap is no longer available, and starts over (R307). -/
def tapRestart (s : State) : State := modRind (s.clr R.TAP_DATA_VALID) (fun r => { r with tapOn := false })

/-- The tap has become available: three outputs are suppressed (R307). -/
def tapBegin (s : State) : State :=
  if s.rind.tapOn then s
  else modRind ((s.wr R.TAP_STAT_SETTLE_LEFT 3).set1 R.TAP_DATA_SUPP) (fun r => { r with tapOn := true, tap := {}, tapSame := 0 })

/-! ## The window (R304, R305) -/

/-- A publication: PUBSEQ odd and even again; the tap receiver, out of reset, sees the Rind up. -/
def bumpPub (s : State) : State :=
  let s := s.wr R.R_STAT_PUBSEQ (s.rd R.R_STAT_PUBSEQ + 2)
  if s.dev = .off then s else s.clr R.TAP_DATA_RDOWN

/-- What is still to slew, in whole ms away from zero. -/
def RindSt.pendMs (r : RindSt) : Int :=
  if r.pendQ < 0 then -(((-r.pendQ + 24999999) / 25000000)) else (r.pendQ + 24999999) / 25000000

/-- The energy registers, in Wh. -/
def RindSt.wh (r : RindSt) : List Nat := r.energy.map (fun e => e / 2 ^ 32)

/-- Status, time, counts, energy and parameters as a commit publishes them. -/
def publishStatus (s : State) : State :=
  let r := s.rind
  let s := forN 32 (s.wr R.R_FWSUM_VAL r.fwSum) (fun s i => s.wrWord (R.R_PAR i) (parWord s i))
  let s := ((s.wr R.R_STAT_STATE r.state).wr R.R_STAT_SEAL (boolNat r.sealOpen)).wr R.R_STAT_FWERR (boolNat r.fwErr)
  let s := ((s.wr R.R_STAT_PARERR (boolNat r.parErr)).wr R.R_STAT_NVERR (boolNat r.nvErr)).wr R.R_STAT_TAPEN (boolNat (tapNamed s))
  let s := ((s.wr R.R_STAT_SESSION (boolNat r.sess.isSome)).wr R.R_STAT_WDRST (boolNat r.wdRst)).wr R.R_STAT_MTUNSET (boolNat (!r.mtSet))
  let s := (s.wr R.R_STAT_PULSOVF (boolNat r.pulseOvf)).wr R.R_PULSEQ_PULSEQ r.pulseQ
  let s := ((s.wr R.R_AUDIT_VAL r.audit).wr R.R_SESSNUM_VAL r.sessNum).wr R.R_PARSUM_VAL (parSum s).toNat
  let s := ((s.wr R.R_MT_LO_VAL r.mt).wr R.R_MT_HI_VAL (r.mt / 2 ^ 32)).wr R.R_MT_PEND_VAL (unsignedOf 32 r.pendMs)
  let s := ((s.wr R.R_CORR_BUDGET r.budget).wr R.R_CORR_CORRSEQ r.corrSeq).wr R.R_LASTCORR_LASTCORR r.lastCorr
  forN 12 s (fun s i => s.wr (R.R_E_VAL i) (nth r.wh (i / 2) 0 / 2 ^ (32 * (i % 2))))

/-! ## Impulses (R303) and the refill of BUDGET (R299) -/

/-- 80 ms have passed since the latest impulse began. -/
def pulseFree (r : RindSt) : Bool := r.pulseAt.all (fun t => decide (t + 80 ≤ (r.mt : Int)))

/-- A waiting impulse leaves when its turn comes; in ERROR none does (R289). -/
def drainPulse (s : State) : State :=
  if metering s && s.rind.pulseQ != 0 && pulseFree s.rind then
    modRind s (fun r => { r with pulseQ := r.pulseQ - 1, pulseAt := some r.mt })
  else s

/-- BUDGET refills by 1 ms per 43,200 ms of MT, up to 2,000 ms. -/
def refillBudget (s : State) : State :=
  let n := (s.rind.mt - s.rind.refillMt) / 43200
  modRind s (fun r =>
    if 2000 ≤ r.budget + n then { r with budget := 2000, refillMt := r.mt }
    else { r with budget := r.budget + n, refillMt := r.refillMt + 43200 * n })

/-- The energy of one impulse, 1 kWh / PULSE_K, times PULSE_K in 2^-32 Wh. -/
def pulseUnit : Nat := 1000 * 2 ^ 32

/-- An impulse falls due: emitted if 80 ms have passed since the latest began and none waits, else counted. -/
def impulse (s : State) : State :=
  let s := modRind s (fun r => { r with pulseAcc := r.pulseAcc - pulseUnit })
  if s.rind.pulseQ = 0 && pulseFree s.rind then modRind s (fun r => { r with pulseAt := some r.mt })
  else modRind s (fun r =>
    let n := min (r.pulseQ + 1) 65535
    { r with pulseQ := n, pulseOvf := r.pulseOvf || n == 65535 })

/-- The register that PULSE_SRC selects has gained the energy of one impulse more. -/
def impulseDue (s : State) : Bool := metering s && decide (pulseUnit ≤ s.rind.pulseAcc)

def execEnergyImpulse (s : State) : Host.Outcome State Fault Refusal :=
  .next (settle (if impulseDue s then impulse s else s))

/-- The level of MTR_PULSE. -/
def pulseLevel (s : State) : Bool := metering s && s.rind.pulseAt.any (fun t => decide (t ≤ (s.rind.mt : Int) && (s.rind.mt : Int) < t + 40))

/-! ## Sessions and records (R295, R296) -/

/-- Set a flag of the open session's record. -/
def sessFlag (s : State) (bit : Nat) : State :=
  modRind s (fun r => { r with sess := r.sess.map (fun q => { q with flags := setBit q.flags bit true }) })

/-- The signed part of a record. -/
def recordBytes (s : State) (q : RindSession) (endMt : Nat) (e : List Nat) : List Byte :=
  leBytes 4 s.rind.sessNum ++ leBytes 2 1 ++ leBytes 2 q.flags ++ parBytes s 0 4 ++ leBytes 8 q.startMt ++ leBytes 8 endMt
    ++ (List.range 6).flatMap (fun i => leBytes 8 (nth e i 0 - nth q.startE i 0))
    ++ leBytes 8 (nth e 0 0) ++ leBytes 8 (nth e 1 0) ++ leBytes 4 s.rind.audit ++ leBytes 2 Config.rindFw.toNat ++ [0, 0]
    ++ leBytes 4 s.rind.fwSum ++ leBytes 4 (parSum s).toNat ++ List.replicate 8 0

/-- The open session closes at an MT with the energy registers given, its flags with `extra` set: the record is signed, kept
among the newest 48, and shown in the window. -/
def closeSession (s : State) (endMt : Nat) (e : List Nat) (extra : Nat) : State :=
  match s.rind.sess with
  | none => s
  | some q =>
    let q := { q with flags := Nat.lor (Nat.lor q.flags extra) (if s.rind.mtSet then 0 else 16) }
    let body := recordBytes s q endMt e
    let rec_ := body ++ rindSign s.free body
    let s := modRind s.useFree (fun r => { r with
      sess := none, ring := (r.ring ++ [(r.sessNum, rec_)]).drop (r.ring.length + 1 - 48) })
    forN 48 s (fun s i => s.wr (R.R_LASTREC_VAL i) (leValue ((rec_.drop (4 * i)).take 4)))

/-- A session opens at a commit: it began with the second just over. -/
def openSession (s : State) (before : List Nat) : State :=
  let flags := (if s.rind.mtSet then 0 else 16) + (if s.rind.stale = 0 && s.rind.sat = 0 then 0 else 8)
  modRind s (fun r => { r with
    sessNum := (r.sessNum + 1) % 2 ^ 32, sess := some { startMt := r.mt - 1000, startE := before, flags, below := 0 } })

/-- The mean of `n` power magnitudes whose sum is `x`, in 2^-346 W, is above SESS_PMIN. -/
def abovePmin (s : State) (x n : Nat) : Bool := decide (F32.toInt (parWord s 13) 149 * (n * 2 ^ 197 : Nat) < (x : Int))

/-- Sessions at a commit: `above` says that this second's power exceeded SESS_PMIN. -/
def sessionStep (s : State) (above : Bool) (before : List Nat) : State :=
  match s.rind.sess with
  | none => if above then openSession s before else s
  | some q =>
    let n := if above then 0 else q.below + 1
    let s := modRind s (fun r => { r with sess := some { q with below := n } })
    if getBits (parWord s 14) 0 10 ≤ n && !above then closeSession s s.rind.mt s.rind.wh 0 else s

/-! ## Metering (R290-R292) -/

def isStale (s : State) (i : Nat) : Bool := bitOf s.rind.stale i

/-- A sample of input `i` in primary units, 2^-173 A or V: the decimator's sum over full scale 2^24, scaled by RATIOi; a STALE
input contributes zero. -/
def primary (s : State) (i sum : Nat) : Int :=
  if isStale s i then 0 else (2 * (sum : Int) - 2 ^ 24) * F32.toInt (parWord s (4 + i)) 149

/-- One sample of every input enters the sums. -/
def MeterAcc.add (a : MeterAcc) (twoElements : Bool) (p : List Int) : MeterAcc :=
  let q (i : Nat) : Int := nth p i 0
  let ac := q 0 * q 3 + (if twoElements then 0 else q 1 * q 4) + q 2 * q 5
  let dc := q 6 * q 7
  { n := a.n + 1, ac := a.ac + ac, acAbs := a.acAbs + ac.natAbs, dcPos := a.dcPos + dc.toNat, dcNeg := a.dcNeg + (-dc).toNat
    sq := (List.range 8).map (fun i => nth a.sq i 0 + (q i * q i).natAbs) }

/-- The frequency of the single-bin DFT: that tracked, or until one is, FNOM (R292). -/
def dftFreq (s : State) : Word := s.rind.freq.getD (F32.ofNat (if parCfg s 2 1 = 0 then 50 else 60))

/-- The factor of sample `n` of a window at a frequency: cosine and minus sine of 2π f n / 48,000 in 2^-30 (R290, R292), each rounded
up or down as the implementation does. (DESIGN CHOICE: notes/assumptions/80.md.) -/
def twiddle (f : Word) (n : Nat) : Int × Int :=
  let k := Config.rindTwiddle f n
  match fixOf f with
  | some (_, m) =>
    let a := fixSinCos (m * n * fixTwoPi / (48000 * 2 ^ 320))
    let near (x y : Int) : Int := clampInt (y / 2 ^ 290) (y / 2 ^ 290 + 1) x
    (near k.1 a.2, near k.2 (-a.1))
  | none => k

/-- One sample of every input enters the DFT of the window (R292). (DESIGN CHOICE: notes/assumptions/80.md.) -/
def dftAdd (s : State) (p : List Int) : List (Int × Int) :=
  let w := twiddle (dftFreq s) s.rind.win.n
  (List.range 8).map (fun i =>
    let d := nth s.rind.dft i (0, 0)
    (d.1 + w.1 * nth p i 0, d.2 + w.2 * nth p i 0))

/-- One output period of the eight inputs: sinc3 at OSR 256, scaling, SAT, and the sums (R290-R292). -/
def meterPeriod (s : State) (bits : BitVec 2048) : State :=
  let outs := (List.range 8).map (fun i => cicPeriod (nth s.rind.filt i {}) (bits.extractLsb' (256 * i) 256) 256 false)
  let sum (i : Nat) : Nat := (nth outs i ({}, 0)).2
  let p := (List.range 8).map (fun i => primary s i (sum i))
  let sat := (List.range 8).foldl (fun m i => m + boolNat (sum i == 0 || sum i == 2 ^ 24) * 2 ^ i) 0
  let s := modRind s (fun r => { r with
    filt := outs.map (fun o => o.1), sec := r.sec.add (wiring s) p, win := r.win.add (wiring s) p, dft := dftAdd s p, sat })
  if sat = 0 then s else sessFlag s 3

/-- The output periods since the latest metering command. -/
def meter (s : State) (bits : MeterBits) : State := bits.foldl meterPeriod s

/-- A sum of powers at 48 kS/s as energy in 2^-32 Wh, to nearest. (DESIGN CHOICE: notes/assumptions/80.md.) -/
def energyOf (x : Nat) : Nat := let d := 2 ^ 314 * 172800000; (x + d / 2) / d

/-- The mean of a sum of `n` squares or powers in 2^-346, as binary32. (DESIGN CHOICE: notes/assumptions/80.md.) -/
def meanOf (x n : Nat) : Word := if n = 0 then 0 else F32.ofRat x (n * 2 ^ 346)

def signedMean (x : Int) (n : Nat) : Word := if x < 0 then F32.neg (meanOf x.natAbs n) else meanOf x.natAbs n

/-- The RMS of input `i` over the samples of a sum. -/
def rmsOf (a : MeterAcc) (i : Nat) : Word := F32.sqrt (meanOf (nth a.sq i 0) a.n)

/-- Energy enters a register, and counts towards the impulses where PULSE_SRC selects it (R303). -/
def addEnergy (s : State) (i n : Nat) : State :=
  let k := if parCfg s 4 3 = i then n * parCfg s 16 10 else 0
  modRind s (fun r => { r with energy := modNth r.energy i (fun e => e + n), pulseAcc := r.pulseAcc + k })

/-- The AC and DC energy of a second enter the registers (R292), but for what a brown-out warning has entered: AC by its net, DC sample
by sample. (DEDUCED: notes/assumptions/80.md.) -/
def meterSecond (s : State) : State :=
  let a := s.rind.sec
  let b := s.rind.paid
  let ac := a.ac - b.ac
  let s := addEnergy s (if 0 ≤ ac then 1 else 0) (energyOf ac.natAbs)
  let inv := parCfg s 1 1 = 1
  let s := addEnergy s (if inv then 4 else 5) (energyOf (a.dcPos - b.dcPos))
  addEnergy s (if inv then 5 else 4) (energyOf (a.dcNeg - b.dcNeg))

/-- The sums of a second begin again. -/
def clearSecond (s : State) : State := modRind s (fun r => { r with sec := {}, paid := {} })

/-- This second's mean |P_AC| or |P_DC| exceeded SESS_PMIN (R295). -/
def secondAbove (s : State) : Bool :=
  let a := s.rind.sec
  a.n != 0 && (abovePmin s a.acAbs a.n || abovePmin s (a.dcPos + a.dcNeg) a.n)

/-! ## Commits (R289, R294) -/

/-- The 60 bytes of a slot before its CRC-32C. -/
def slotBody (energy : List Nat) (mt seq : Nat) : List Byte :=
  (List.range 6).flatMap (fun i => leBytes 8 (nth energy i 0)) ++ leBytes 8 mt ++ leBytes 4 seq

/-- A slot as its 64 bytes in the store. -/
def RindSlot.bytes (q : RindSlot) : List Byte := slotBody q.energy q.mt q.seq ++ leBytes 4 q.crc

/-- Its CRC matches. -/
def RindSlot.valid (q : RindSlot) : Bool := q.crc == crc32c (slotBody q.energy q.mt q.seq)

def sealSlot (energy : List Nat) (mt seq : Nat) : RindSlot := ⟨energy, mt, seq, crc32c (slotBody energy mt seq)⟩

/-- The highest slot sequence number. -/
def lastSlotSeq (r : RindSt) : Nat := r.slots.foldl (fun n q => max n ((q.map (fun x => x.seq)).getD 0)) 0

/-- The next commit slot is written; a commit and a warning of one cycle write one slot (R289). -/
def writeSlot (s : State) : State :=
  modRind s (fun r =>
    let n := lastSlotSeq r + (if r.slotAt = some r.mtQ then 0 else 1)
    { r with slots := modNth r.slots (n % 32) (fun _ => some (sealSlot r.wh r.mt n)), slotAt := some r.mtQ })

/-- An input is unused with two elements. -/
def unusedInput (s : State) (i : Nat) : Bool := wiring s && (i == 1 || i == 4)

/-- RMS1S and the status of an input, as a commit publishes them (R304); what R74 watches. -/
def publishInput (s : State) (i : Nat) : State :=
  let s := s.wrWord (R.R_IN i) (if unusedInput s i then 0 else rmsOf s.rind.sec i)
  let s := (s.wr (R.R_INST_STALE i) (boolNat (isStale s i))).wr (R.R_INST_SAT i) (boolNat (bitOf s.rind.sat i))
  let ok := !isStale s i && !unusedInput s i
  modRind (s.wr (R.R_INST_VALID i) (boolNat ok)) (fun r => { r with validAll := setBit r.validAll i (ok && bitOf r.validAll i) })

/-- A commit (R294): energies, sessions, the slot, and the publication. -/
def commit (s : State) (bits : MeterBits) : State :=
  let s := meter (refillBudget (drainPulse s)) bits
  let before := s.rind.commitE
  let s := if s.rind.state = 1 then let s := meterSecond s; sessionStep s (secondAbove s) before else s
  let s := writeSlot (modRind s (fun r => { r with commitE := r.wh }))
  bumpPub (publishStatus (clearSecond (forN 8 s publishInput)))

def execCommitSlot (bits : MeterBits) (s : State) : Host.Outcome State Fault Refusal :=
  .next (settle (if rindUp s then commit s bits else s))

/-- The warning of the brown-out monitor (R289): what was metered since the latest commit goes into one commit slot. The second goes on, and
its mean powers and RMS values stay those of the whole of it (R295, R305). -/
def brownoutWarning (s : State) : State :=
  let s := meter s.useFree (Config.lastBits s.free)
  writeSlot (modRind (if s.rind.state = 1 then meterSecond s else s) (fun r => { r with paid := r.sec }))

def execRindBrownoutWarning (s : State) : Host.Outcome State Fault Refusal :=
  .next (settle (if rindUp s then brownoutWarning s else s))

/-! ## The 200 ms publication (R292, R304) -/

/-- The fundamental of voltage input `i` is above 10 % of nominal. -/
def fundamental (s : State) (i : Nat) : Bool :=
  let d := nth s.rind.dft i (0, 0)
  decide ((Config.rindNominal ^ 2 : Int) < 100 * (d.1 * d.1 + d.2 * d.2))

/-- N²/2 times the fundamental reactive power of element `k`, in 2^-406 var, N the samples of the window: the cross product of the phasors of its voltage and
its current (R292). -/
def crossPower (s : State) (k : Nat) : Int :=
  let i := nth s.rind.dft k (0, 0)
  let v := nth s.rind.dft (3 + k) (0, 0)
  v.2 * i.1 - v.1 * i.2

/-- The fundamental reactive power of a window: positive where the port delivers it, and zero where no voltage has a fundamental.
(DESIGN CHOICE: notes/assumptions/80.md.) -/
def reactive (s : State) : Word :=
  let n := s.rind.win.n
  let x := crossPower s 0 + (if wiring s then 0 else crossPower s 1) + crossPower s 2
  if n = 0 || !([3, 4, 5].any (fun i => !unusedInput s i && fundamental s i)) then 0
  else
    let q := F32.ofRat (2 * x.natAbs) (n * n * 2 ^ 406)
    if x < 0 then F32.neg q else q

/-- A reactive power over 200 ms in 2^-32 varh, to nearest. -/
def reactiveEnergy (q : Word) : Nat := let d := 2 ^ 117 * 18000; ((F32.toInt q 149).natAbs + d / 2) / d

/-- A voltage input in use is not STALE. -/
def hasVoltage (s : State) : Bool := [3, 4, 5].any (fun i => !unusedInput s i && !isStale s i)

/-- DEDUCED: notes/assumptions/82.md. -/
def publish (s : State) (bits : MeterBits) : State :=
  let s := meter s bits
  let q := reactive s
  let s := if s.rind.state = 1 then addEnergy s (if F32.lt q 0 then 2 else 3) (reactiveEnergy q) else s
  let a := s.rind.win
  let s := forN 8 s (fun s i => s.wrWord (R.R_IN200 i) (if unusedInput s i then 0 else rmsOf a i))
  let s := (s.wrWord R.R_PAC (signedMean a.ac a.n)).wrWord R.R_QAC q
  let fac := Config.rindTrack (parCfg s 2 1) (dftFreq s) s.rind.dft
  let s := s.wrWord R.R_FAC (if hasVoltage s then fac else 0)
  let s := s.wrWord R.R_PDC (signedMean ((a.dcPos : Int) - a.dcNeg) a.n)
  bumpPub (modRind s (fun r => { r with win := {}, dft := List.replicate 8 (0, 0), freq := some fac }))

def execRindPublication (bits : MeterBits) (s : State) : Host.Outcome State Fault Refusal :=
  .next (settle (if rindUp s then publish s bits else s))

def setStale (s : State) (i : Nat) (b : Bool) : State := modRind s (fun r => { r with stale := setBit r.stale i b })

def execRindInputStale (x : InputChange) (s : State) : Host.Outcome State Fault Refusal :=
  .next (settle (if rindUp s then sessFlag (setStale (meter s x.bits) x.input.val true) 3 else s))

def execRindInputReturn (x : InputChange) (s : State) : Host.Outcome State Fault Refusal :=
  .next (settle (if rindUp s then setStale (meter s x.bits) x.input.val false else s))

/-! ## Reset and integrity (R289, R301) -/

/-- The CRC-32C of the mask ROM, against which the ROM holds FWSUM. -/
def romSum : Nat := crc32c Config.rindRom

/-- FWSUM of a ROM that does not match: a free value but the right one (notes/assumptions/1.md). -/
def badSum (s : State) : Nat := let x := s.freeVal.toNat; if x = romSum then (x + 1) % 2 ^ 32 else x

/-- FWSUM is computed and checked. -/
def checkRom (s : State) (ok : Bool) : State :=
  if ok then modRind s (fun r => { r with fwSum := romSum })
  else modRind s.useFree (fun r => { r with fwSum := badSum s, fwErr := true, state := 2 })

/-- The parameter copies: one bad is rewritten from the other; two bad are an error. -/
def checkPars (s : State) (ok0 ok1 : Bool) : State :=
  modRind s (fun r =>
    if ok0 then (if ok1 then r else { r with par1 := r.par0 })
    else if ok1 then { r with par0 := r.par1 }
    else { r with parErr := true, state := 2 })

/-- The newest commit slot among those whose CRC matches; `ok`: the slots that no write cut short has damaged. -/
def newestSlot (r : RindSt) (ok : BitVec 32) : Option RindSlot :=
  (List.range 32).foldl (fun b i =>
    match nth r.slots i none, b with
    | some q, none => if ok.getLsbD i && q.valid then some q else b
    | some q, some x => if ok.getLsbD i && q.valid && x.seq < q.seq then some q else b
    | none, _ => b) none

/-- What memory holds where no slot is valid: not stated, free values (notes/assumptions/1.md). -/
def freeSlot (s : State) : RindSlot :=
  ⟨(List.range 6).map (fun i => (Config.freeWord (s.free + i)).toNat), (Config.freeWord (s.free + 6)).toNat, 0, 0⟩

/-- The window at the Rind's power-on reset, before restoration. -/
def clearWindow (s : State) : State :=
  let s := [R.R_STAT, R.R_MT_PEND, R.R_LASTCORR, R.R_PULSEQ, R.R_PAC, R.R_QAC, R.R_FAC, R.R_PDC].foldl (fun s a => s.wrWord a 0) s
  let s := forN 8 s (fun s i => ((s.wrWord (R.R_IN i) 0).wrWord (R.R_IN200 i) 0).wrWord (R.R_INST i) 0)
  let s := (s.wr R.R_FW_FWMINOR Config.rindFw.toNat).wr R.R_FW_FWMAJOR (Config.rindFw.toNat / 256)
  forN 16 s (fun s i => s.wrWord (R.R_PUBKEY i) (stringWord 64 (beValue rindPub) i))

/-- The Rind is reset (R289): restoration, the session left open, the integrity checks, then METER or ERROR.
(DEDUCED: notes/assumptions/81.md.) -/
def rindReset (s : State) (watchdog romOk par0 par1 : Bool) (slots : BitVec 32) : State :=
  let found := newestSlot s.rind slots
  let q := found.getD (freeSlot s)
  let s := if found.isNone then { s with free := s.free + 7 } else s
  let s := modRind (clearWindow s) (fun r => { r with
    powered := true, state := if found.isSome then 1 else 2, sealOpen := false, fwErr := false, parErr := false
    nvErr := found.isNone, wdRst := watchdog, stale := 0, sat := 0, validAll := 0
    filt := List.replicate 8 {}, sec := {}, paid := {}, win := {}, dft := List.replicate 8 (0, 0), freq := none, slotAt := none, pulseAcc := 0
    energy := q.energy.map (fun e => e * 2 ^ 32), commitE := q.energy, mtQ := q.mt * 25000000, pendQ := 0, refillMt := min r.refillMt q.mt
    lastCorr := 0, pulseQ := 0, pulseOvf := false, pulseAt := none, tx := [] })
  let s := closeSession s q.mt q.energy 1
  let s := checkPars (checkRom s romOk) par0 par1
  publishStatus (if s.dev = .off then s else tapRestart s)

def execRindReset (watchdog romOk par0 par1 : Bool) (slots : BitVec 32) (s : State) : Host.Outcome State Fault Refusal :=
  .next (settle (if s.variant.metered then rindReset s watchdog romOk par0 par1 slots else s))

/-- The hourly check of the parameters, and with it daily that of the ROM. -/
def execRindIntegrityCheck (daily romOk par0 par1 : Bool) (s : State) : Host.Outcome State Fault Refusal :=
  .next (settle (if rindUp s then checkPars (if daily then checkRom s romOk else s) par0 par1 else s))

/-! ## The seal (R300) -/

def execSealAccept (s : State) : Host.Outcome State Fault Refusal :=
  .next (settle (if rindUp s then modRind s (fun r => { r with sealOpen := true }) else s))

def execSealRelease (s : State) : Host.Outcome State Fault Refusal :=
  .next (settle (if rindUp s then modRind s (fun r => { r with sealOpen := false }) else s))

/-- An accepted write under the seal: AUDIT, the audit entry, and the open session's flag. -/
def auditWrite (s : State) (id : Nat) (old : Word) : State :=
  let s := modRind s (fun r =>
    let a := (r.audit + 1) % 2 ^ 32
    { r with audit := a, audits := (r.audits ++ [AuditRec.mk id old (parSum s) r.mt a]).drop (r.audits.length + 1 - 32) })
  sessFlag s 2

/-- The first word and the number of bytes of a sealed parameter. -/
def parPlace (id : Nat) : Option (Nat × Nat) :=
  match id with
  | 0x01 => some (0, 16)
  | 0x20 => some (12, 4)
  | 0x21 => some (13, 4)
  | 0x22 => some (14, 4)
  | 0x30 => some (16, 64)
  | _ => if 0x10 ≤ id && id ≤ 0x17 then some (4 + (id - 0x10), 4) else none

/-- ASCII, padded with zeros. -/
def asciiPadded (bs : List Byte) : Bool :=
  bs.all (fun b => b.toNat < 0x80) && (bs.dropWhile (fun b => b != 0)).all (fun b => b == 0)

/-- The value is in the parameter's range. -/
def parInRange (id : Nat) (bs : List Byte) : Bool :=
  let w : Word := BitVec.ofNat 32 (leValue bs)
  let f (lo n : Nat) : Nat := getBits w lo n
  match id with
  | 0x01 => asciiPadded bs
  | 0x20 => f 4 3 ≤ 5 && (f 8 8 == 0xFF || [0, 1, 2, 6].contains (f 8 8)) && 1 ≤ f 16 10 && f 16 10 ≤ 1000 && f 7 1 == 0 && f 26 6 == 0
  | 0x21 => F32.le (F32.ofNat 100) w && F32.le w (F32.ofNat 100000)
  | 0x22 => 10 ≤ w.toNat && w.toNat ≤ 600
  | 0x30 => true
  | _ => F32.finite w && F32.lt 0 w

/-- SEALWR's effect, or refused. (DEDUCED: notes/assumptions/83.md.) -/
def sealWrite (s : State) (id : Nat) (bs : List Byte) : Option State :=
  match parPlace id with
  | none => none
  | some (i, n) =>
    if !s.rind.sealOpen || bs.length != n || !parInRange id bs then none else
      let old := parSum s
      let tap := parCfg s 8 8
      let s := putParBytes s i bs
      let s := if parCfg s 8 8 = tap then s else tapRestart s
      some (auditWrite s id old)

/-! ## The readout port (R302) -/

/-- CRC-16, polynomial 0x1021, initial value 0xFFFF. -/
def crc16 (bs : List Byte) : Nat :=
  bs.foldl (fun c b => (List.range 8).foldl (fun c _ =>
    if bitOf c 15 then Nat.xor (c * 2 % 65536) 0x1021 else c * 2 % 65536) (Nat.xor c (b.toNat * 256))) 0xFFFF

/-- The one response to a request: its frame on MTR_TX. -/
def respond (s : State) (cmd status : Nat) (payload : List Byte) : State :=
  let body := leBytes 2 (payload.length + 2) ++ [BitVec.ofNat 8 (Nat.lor cmd 0x80), BitVec.ofNat 8 status] ++ payload
  modRind s (fun r => { r with tx := [0x7E] ++ body ++ leBytes 2 (crc16 body) })

def execRindRead (offset : BitVec 16) (count : BitVec 8) (s : State) : Host.Outcome State Fault Refusal :=
  .next (settle (if !rindUp s then s
    else if 1 ≤ count.toNat && count.toNat ≤ 64 && offset.toNat % 4 = 0 && offset.toNat + 4 * count.toNat ≤ 0x1000 then
      respond s 0x01 0 ((List.range count.toNat).flatMap (fun i => leBytes 4 (readReg s (0x70000000 + offset.toNat + 4 * i)).toNat))
    else respond s 0x01 1 []))

def execRindRecord (session : BitVec 32) (s : State) : Host.Outcome State Fault Refusal :=
  .next (settle (if !rindUp s then s else
    match s.rind.ring.find? (fun e => e.1 == session.toNat) with
    | some e => respond s 0x02 0 e.2
    | none => respond s 0x02 3 []))

/-- The entry of the audit ring at a place: entry n of AUDIT stands at (n − 1) mod 32. -/
def auditAt (r : RindSt) (i : Nat) : Option AuditRec := r.audits.find? (fun a => (a.audit + 31) % 32 == i)

/-- Exactly `n` bytes: cut, or padded with zeros. -/
def fitBytes (n : Nat) (bs : List Byte) : List Byte := bs.take n ++ List.replicate (n - bs.length) 0

/-- An audit entry's 32 bytes are a free value (R300, R302; notes/assumptions/1.md). -/
def execRindAuditrec (index : BitVec 8) (s : State) : Host.Outcome State Fault Refusal :=
  .next (settle (if !rindUp s then s
    else if 32 ≤ index.toNat then respond s 0x03 1 []
    else
      match auditAt s.rind index.toNat with
      | some a => respond s 0x03 0 (fitBytes 32 <| Config.auditBytes [a.id, a.old.toNat, a.new.toNat, a.mt, a.audit])
      | none => respond s 0x03 3 []))

def execRindSealwr (id : BitVec 8) (value : List Byte) (s : State) : Host.Outcome State Fault Refusal :=
  .next (settle (if !rindUp s then s else
    match sealWrite s id.toNat value with
    | some t => respond t 0x10 0 []
    | none => respond s 0x10 1 []))

/-- MT is set under the seal: an impulse under way, or the spacing after one, goes on for what is left of it (R303). Its audit entry's parameter ID is not stated, a free value (notes/assumptions/1.md). -/
def setMt (s : State) (mt : Nat) : State :=
  let id := s.freeVal.toNat % 256
  auditWrite (modRind s.useFree (fun r => { r with
    mtQ := mt * 25000000, mtSet := true, refillMt := mt, slotAt := none
    pulseAt := if pulseFree r then none else r.pulseAt.map (fun t => t + mt - r.mt) })) id (parSum s)

def execRindMtset (mt : BitVec 64) (s : State) : Host.Outcome State Fault Refusal :=
  .next (settle (if !rindUp s then s
    else if s.rind.sealOpen then respond (setMt s mt.toNat) 0x11 0 []
    else respond s 0x11 1 []))

/-- A request's frame (R302): the command whose frame this is stands for its arrival on MTR_RX. -/
def requestFrame (cmd : Nat) (payload : List Byte) : List Byte :=
  let body := leBytes 2 (payload.length + 1) ++ [BitVec.ofNat 8 cmd] ++ payload
  [0x7E] ++ body ++ leBytes 2 (crc16 body)

/-- A frame from MTR_RX is well formed, its CRC right. -/
def frameOk (f : List Byte) : Bool :=
  let n := leValue ((f.drop 1).take 2)
  nth f 0 0 == 0x7E && 1 ≤ n && f.length == n + 5 && leValue (f.drop (n + 3)) == crc16 ((f.drop 1).take (n + 2))

/-- A well-formed frame is one of the six requests, which are commands of their own: CMD is known and the payload as long as it needs. -/
def frameServed (f : List Byte) : Bool :=
  let n := leValue ((f.drop 1).take 2) - 1
  match (nth f 3 0).toNat with
  | 0x01 => n == 3
  | 0x02 => n == 4
  | 0x03 => n == 1
  | 0x10 => 1 ≤ n
  | 0x11 => n == 8
  | 0x20 => n == 96
  | _ => false

/-- A frame with a bad CRC or malformed gets status 2; one too short to hold CMD gets a free one (notes/assumptions/1.md). -/
def badPortFrame (s : State) (f : List Byte) : State :=
  if 4 ≤ f.length then respond s (nth f 3 0).toNat 2 [] else respond s.useFree (s.freeVal.toNat % 256) 2 []

/-- A frame that is none of the six requests: bad, or refused for its CMD or its length. (DESIGN CHOICE: notes/assumptions/82.md.) -/
def strayFrame (s : State) (f : List Byte) : State :=
  if !frameOk f then badPortFrame s f
  else if frameServed f then s
  else respond s (nth f 3 0).toNat 1 []

def execRindPortFrameError (frame : List Byte) (s : State) : Host.Outcome State Fault Refusal :=
  .next (settle (if rindUp s then strayFrame s frame else s))

/-! ## Corrections (R298, R299, R309) -/

/-- The result of checking a correction: 0 for accepted, else LASTCORR. (DEDUCED: notes/assumptions/84.md.) -/
def judgeCorr (s : State) (m : List Byte) : Nat :=
  if !p256Verify (parBytes s 16 16) (m.take 0x20) ((m.drop 0x20).take 64) then 3
  else if m.take 16 != parBytes s 0 4 then 5
  else if leValue ((m.drop 0x10).take 4) != s.rind.corrSeq then 4
  else if 60000 < ((leValue ((m.drop 0x18).take 8) : Int) - s.rind.mt).natAbs then 6
  else 0

/-- A correction message is processed. -/
def takeCorr (s : State) (m : List Byte) : State :=
  let s := refillBudget s
  let k := judgeCorr s m
  if k != 0 then modRind s (fun r => { r with lastCorr := k }) else
    let want := signedOf 32 (leValue ((m.drop 0x14).take 4))
    let b : Int := s.rind.budget
    let got := clampInt (-b) b want
    let clipped := got != want
    let s := modRind s (fun r => { r with
      corrSeq := (r.corrSeq + 1) % 2 ^ 16, budget := r.budget - got.natAbs, pendQ := r.pendQ + got * 25000000
      lastCorr := if clipped then 2 else 1 })
    let s := sessFlag s 1
    if clipped then sessFlag s 5 else s

def execRindMtcorr (msg : BitVec 768) (s : State) : Host.Outcome State Fault Refusal :=
  .next (settle (if !rindUp s then s else
    let s := takeCorr s ((List.range 96).map (fun i => msg.extractLsb' (8 * i) 8))
    respond s 0x20 0 [BitVec.ofNat 8 s.rind.lastCorr]))

/-- The mailbox as bytes. -/
def mailBytes (s : State) : List Byte := (List.range 24).flatMap (fun i => leBytes 4 (s.rd (R.MT_MAIL_VAL i)))

def execMailboxPoll (s : State) : Host.Outcome State Fault Refusal :=
  .next (settle (if rindUp s then takeCorr s (mailBytes s) else s))

/-! ## The tap (R306, R307) and RDOWN (R308) -/

/-- The run of equal levels after a period's bits, and whether it has been 4,096 long at any of them (R307). -/
def tapRun (r : RindSt) (bits : BitVec 128) : Bool × Nat × Bool :=
  (List.range 128).foldl (fun q i =>
    let b := bits.getLsbD i
    let n := if b == q.1 then min (q.2.1 + 1) 4096 else 1
    (b, n, q.2.2 || n == 4096)) (r.tapLevel, r.tapSame, false)

/-- A tap result counts down the settling, or is given (R306). -/
def tapOutput (s : State) (x : Int) (stale : Bool) : State :=
  let left := s.rd R.TAP_STAT_SETTLE_LEFT
  if left = 0 then
    ((s.wr R.TAP_DATA_SAMPLE (unsignedOf 24 x)).wr R.TAP_DATA_VALID (boolNat (!stale))).clr R.TAP_DATA_SUPP
  else (s.wr R.TAP_STAT_SETTLE_LEFT (left - 1)).clr R.TAP_DATA_VALID

/-- An output of the tap decimator. -/
def tapSample (s : State) (bits : BitVec 128) : State :=
  let s := tapBegin s
  let run := tapRun s.rind bits
  let f := cicPeriod s.rind.tap (bits.setWidth 256) 128 false
  let raw := rawValue false 128 f.1 f.2
  let x := (trimmed raw.1 raw.2 0 0).1
  let s := modRind s (fun r => { r with tap := f.1, tapLevel := run.1, tapSame := run.2.1 })
  let stale := run.2.1 = 4096
  let s := if run.2.2 && !s.is R.TAP_DATA_STALE then s.flag 0x10 R.TAP_STAT_STALE_F else s
  let s := (s.wr R.TAP_DATA_STALE (boolNat stale)).incWrap R.TAP_STAT_SEQ
  tapOutput s x stale

def execTapSample (bits : BitVec 128) (s : State) : Host.Outcome State Fault Refusal :=
  .next (settle (if rindUp s && tapNamed s && s.dev != .off then tapSample s bits else s))

/-- The Rind is down: VDD_MTR is absent, or PUBSEQ has not changed for 1 s. -/
def rindDown (s : State) (power : Bool) : State :=
  let s := if power then modRind s (fun r => { r with powered := false, state := 0, sealOpen := false, validAll := 0 }) else s
  if s.dev = .off then s else
    let s := if power then tapRestart s else s
    if s.is R.TAP_DATA_RDOWN then s else (s.set1 R.TAP_DATA_RDOWN).flag 0x10 R.TAP_STAT_RDOWN_F

def execRindDown (power : Bool) (s : State) : Host.Outcome State Fault Refusal :=
  .next (settle (if s.variant.metered then rindDown s power else s))

end Sys2Proof.Machine
end

