-- ==== Sys2Proof/Machine/Service.lean ====
section
/-! DEFINITION. The service path and its commands (18_trust_and_access.md R390-R402): segments and messages, sessions, the table
of R400, and what each command does. -/

namespace Sys2Proof.Machine

open Sys2Proof

def modTrust (s : State) (f : TrustSt → TrustSt) : State := { s with trust := f s.trust }

/-- The service path runs: CAN0 in normal mode, the CAN engines and the service port not frozen (R395, R408). -/
def serviceRuns (s : State) : Bool := canOn s 0 && canMode s 0 == 1 && canRuns s && !s.rdBit R.CFW_FROZEN_FROZEN 3

/-! ## Messages (R396, R399) -/

/-- The IV of a message: direction, then CTR, big-endian. -/
def gcmIv (dir ctr : Nat) : List Byte := beBytes 4 dir ++ beBytes 8 ctr

def messageHeader (len cmd status ctr : Nat) : List Byte :=
  leBytes 2 len ++ [BitVec.ofNat 8 cmd, BitVec.ofNat 8 status] ++ leBytes 8 ctr

/-- A message in segments of 63 bytes, from segment `i`. -/
def segments : Nat → Nat → List Byte → List (List Byte)
  | 0, _, _ => []
  | n + 1, i, bs =>
    let last := bs.length ≤ 63
    let seg := BitVec.ofNat 8 (i % 128 + (if last then 128 else 0)) :: (bs.take 63 ++ List.replicate (63 - bs.length) 0)
    if last then [seg] else seg :: segments n (i + 1) (bs.drop 63)

/-- A response goes to CAN0's queue. (DEDUCED: notes/assumptions/91.md.) -/
def sendResponse (s : State) (cmd status : Nat) (body : List Byte) (sess : Option Session) : State :=
  let msg := match sess with
    | none => messageHeader body.length (cmd % 128 + 128) status 0 ++ body
    | some q =>
      let h := messageHeader body.length (cmd % 128 + 128) status (q.ctrOut + 1)
      h ++ gcmSeal (beBytes 32 q.key.toNat) (gcmIv 1 (q.ctrOut + 1)) h body
  let s := modTrust s (fun t => { t with
    response := messageHeader body.length (cmd % 128 + 128) status 0 ++ body
    txSegs := t.txSegs ++ segments 100 0 msg
    session := t.session.map (fun q => if sess.isSome && sess == t.session then { q with ctrOut := q.ctrOut + 1 } else q) })
  feedService s

/-- The SERIAL that a command's event carries. -/
def serialOf (sess : Option Session) : Nat := (sess.map (fun q => q.serial)).getD 0

/-- The event of an accepted or refused command (R400, R418). -/
def logCommand (s : State) (cmd status serial : Nat) : State :=
  match status with
  | 0 => s.event 0x0F (0x1000 + cmd) serial
  | 1 => s.event 0x0F (0x1100 + cmd) serial
  | 3 => s.event 0x0F (0x1200 + cmd) serial
  | n => s.event 0x0F 0x0F05 n

/-- AUTH or a tag was refused. -/
def authFail (s : State) : State := (s.set1 R.TRUST_FLAGS_AUTHFAIL_F).incSat R.TRUST_FLAGS_AUTHFAILS

def clearSegments (s : State) : State := modTrust s (fun t => { t with rxNext := 0, rxBytes := [] })

/-- A message is discarded and answered with STATUS 2. -/
def discardMessage (s : State) : State :=
  let cmd := (nth s.trust.rxBytes 2 0).toNat
  (sendResponse (clearSegments s) cmd 2 [] none).event 0x0F 0x0F05 2

def knownCommands : List Nat :=
  [0x01, 0x02, 0x03, 0x10, 0x11, 0x20, 0x21, 0x22, 0x23, 0x24, 0x25, 0x26, 0x27, 0x30, 0x31, 0x32, 0x33, 0x34, 0x35, 0x40,
   0x41, 0x50, 0x51]

/-- A request has been taken: held, or answered at once where its command is unknown. -/
def holdRequest (s : State) (r : Request) : State :=
  if knownCommands.contains r.cmd then modTrust s (fun t => { t with request := some r })
  else
    let sess := if r.inSession then s.trust.session else none
    (sendResponse s r.cmd 4 [] sess).event 0x0F 0x0F05 4

/-- A request of the session: its CTR must rise by one and its tag be right, else STATUS 3 in the clear; in DECOMMISSIONED all but HELLO
get STATUS 1 (R400). -/
def sessionRequest (s : State) (cmd ctr : Nat) (h rest : List Byte) : State :=
  if s.trust.life = 2 && cmd != 1 then logCommand (sendResponse s cmd 1 [] none) cmd 1 (serialOf s.trust.session)
  else
  match s.trust.session with
  | none => logCommand (sendResponse s cmd 3 [] none) cmd 3 0
  | some q =>
    let body := if ctr = q.ctrIn + 1 && cryptoRuns s then gcmOpen (beBytes 32 q.key.toNat) (gcmIv 0 ctr) h (rest.take (rest.length - 16)) (rest.drop (rest.length - 16)) else none
    match body with
    | none => logCommand (sendResponse (authFail s) cmd 3 [] none) cmd 3 q.serial
    | some b =>
      holdRequest (modTrust s (fun t => { t with session := some { q with ctrIn := ctr } })) ⟨cmd, ctr, b, true⟩

/-- The last segment has come: the message's length is checked. -/
def completeMessage (s : State) : State :=
  let m := s.trust.rxBytes
  let len := leValue (m.take 2)
  let cmd := (nth m 2 0).toNat
  let ctr := leValue ((m.drop 4).take 8)
  let total := 12 + len + (if ctr = 0 then 0 else 16)
  if 4096 < len || (total + 62) / 63 != s.trust.rxNext then discardMessage s
  else
    let s := clearSegments s
    if ctr = 0 then holdRequest s ⟨cmd, 0, (m.drop 12).take len, false⟩
    else sessionRequest s cmd ctr (m.take 12) ((m.drop 12).take (len + 16))

/-- A request segment arrives on CAN0; while a request is held the device takes no other. -/
def takeSegment (s : State) (seg : BitVec 512) : State :=
  let bs : List Byte := (List.range 64).map (fun i => seg.extractLsb' (8 * i) 8)
  let b := (nth bs 0 0).toNat
  let s := goodReception s 0
  if s.trust.request.isSome then s
  else if b % 128 != s.trust.rxNext % 128 || 66 ≤ s.trust.rxNext then discardMessage s
  else
    let s := modTrust s (fun t => { t with rxNext := t.rxNext + 1, rxBytes := t.rxBytes ++ bs.drop 1 })
    if 128 ≤ b then completeMessage s else s

/-- The frame carries a request of the service path: CAN0, identifier 0x1B72_5300, FD with 64 data bytes (R395). -/
def isRequestFrame (s : State) (c : Nat) (f : CanFrame) : Bool :=
  c == 0 && serviceRuns s && f.ide && f.id == 0x1B725300 && f.fd && f.dlc == 15

/-- A frame received without error: a segment of a service request, or a frame of the catalogue. -/
def execCanFrameRx (c : Fin 6) (f : CanFrame) (sof : BitVec 32) (s : State) : Host.Outcome State Fault Refusal :=
  .next (settle (
    if isRequestFrame s c.val f then takeSegment s f.data
    else if canOn s c.val then receiveFrame s c.val f sof else s))

def execServiceSegment (seg : BitVec 512) (s : State) : Host.Outcome State Fault Refusal :=
  .next (settle (if serviceRuns s then takeSegment s seg else s))

def execServiceSegmentTimeout (s : State) : Host.Outcome State Fault Refusal :=
  .next (settle (if serviceRuns s && s.trust.rxNext != 0 then discardMessage s else s))

/-! ## Carrying out a command (R400) -/

/-- What a command answers: the state, STATUS, and the response's body. -/
abbrev Answer := State × Nat × List Byte

/-- Whether the sender may command this: `level` is the bit of LEVELS, none for HELLO and AUTH. In BLANK all but the commands
of level OWNER need no session. -/
def authorised (s : State) (r : Request) (level : Option Nat) : Bool :=
  match level with
  | none => true
  | some l =>
    if r.inSession then s.trust.session.any (fun q => bitOf q.levels l)
    else s.trust.life == 0 && l != 4

/-- STATUS before a command acts: DECOMMISSIONED answers HELLO only; then the authority, then the device state. -/
def judgeRequest (s : State) (r : Request) (level : Option Nat) (okState : Bool) : Nat :=
  if s.trust.life = 2 && r.cmd != 1 then 1
  else if !authorised s r level then 3
  else if !okState then 1
  else 0

/-- The SERIAL in a command's event: of the certificate that AUTH presents, else of the session's. -/
def requestSerial (r : Request) (sess : Option Session) : Nat :=
  if r.cmd = 0x02 then leValue ((r.body.drop 4).take 4) else serialOf sess

/-- Carry out the held request if it is command `cmd`: judge, act, log, answer; `after` follows an accepted one. -/
def serve (s : State) (cmd : Nat) (level : Option Nat) (okState : State → Bool) (act : State → Request → Answer)
    (after : State → State) : State :=
  match s.trust.request with
  | none => s
  | some r =>
    if r.cmd != cmd || !serviceRuns s then s else
      let sess := if r.inSession then s.trust.session else none
      let k := judgeRequest s r level (okState s)
      let a : Answer := if k = 0 then act s r else (s, k, [])
      let t := logCommand (modTrust a.1 (fun t => { t with request := none })) cmd a.2.1 (requestSerial r sess)
      let t := sendResponse t cmd a.2.1 a.2.2 sess
      if a.2.1 = 0 then after t else t

def anyState (_ : State) : Bool := true
def onwardState (s : State) : Bool := s.dev.onward
def operatingState (s : State) : Bool := s.dev.operating
def inRecovery (s : State) : Bool := s.dev == .recovery

/-- A field of the body whose place is not stated. (DESIGN CHOICE: notes/assumptions/90.md.) -/
def Request.field (r : Request) (k : Nat) : Nat := Config.bodyField r.cmd k r.body

/-- An answer without a body. -/
def accept (s : State) : Answer := (s, 0, [])
def refuse (s : State) : Answer := (s, 1, [])

/-! ## Sessions (R397-R399) -/

/-- The session ends for a reason. -/
def endSessionAs (s : State) (reason : Nat) : State :=
  match s.trust.session with
  | none => s
  | some _ =>
    let s := modTrust s (fun t => { t with session := none })
    ((s.clr R.TRUST_STAT_SESSION).wr R.TRUST_STAT_SLEVELS 0).event 0x0F 0x0F02 reason

def doHello (s : State) (_ : Request) : Answer :=
  if !s.is R.TRUST_STAT_IDOK || !cryptoRuns s then refuse s else
    let n := s.free
    let body := leBytes 4 (readReg s R.DEVICE_ID).toNat ++ leBytes 4 s.trust.life ++ devidPub ++ ephemeralPub n ++ beBytes 32 (Config.nonce n).toNat
    let s := modTrust s.useFree (fun t => { t with hello := some n })
    (s, 0, body ++ idSign n body)

def execHello (s : State) : Host.Outcome State Fault Refusal := .next (settle (serve s 0x01 none anyState doHello id))

/-- A certificate is accepted (R398). -/
def certOk (s : State) (c : List Byte) : Bool :=
  let owner := (c.drop 152).take 96
  let bind := beValue ((c.drop 8).take 48)
  leValue (c.take 2) == 2 && s.trust.ownerHash == some (beValue (sha384 owner))
    && p384Verify owner (c.take 248) ((c.drop 248).take 96)
    && (bind == 0 || bind == beValue (sha384 devidPub))
    && s.rd R.CERT_MIN_VAL ≤ leValue ((c.drop 4).take 4)

/-- AUTH's checks, against the latest HELLO; an EK_T that is no point gives no key. (DESIGN CHOICE: notes/assumptions/92.md.) -/
def authOk (s : State) (b : List Byte) (n : Nat) : Bool :=
  let key := (b.drop 56).take 96
  let ekt := (b.drop 344).take 96
  b.length == 536 && certOk s (b.take 344)
    && p384Verify key (beBytes 32 (Config.nonce n).toNat ++ ephemeralPub n ++ ekt) (b.drop 440)
    && (sessionKey n ekt).isSome

/-- A session opens, replacing one that is open. -/
def openService (s : State) (b : List Byte) (n : Nat) : State :=
  let s := endSessionAs s 4
  let serial := leValue ((b.drop 4).take 4)
  let levels := leValue ((b.drop 2).take 2) % 32
  let key := (sessionKey n ((b.drop 344).take 96)).getD 0
  let s := modTrust s (fun t => { t with session := some ⟨key, levels, serial, 0, 0⟩ })
  (((s.set1 R.TRUST_STAT_SESSION).wr R.TRUST_STAT_SLEVELS levels).incSat R.TRUST_STAT_SESSIONS).event 0x0F 0x0F01 serial

def doAuth (s : State) (r : Request) : Answer :=
  match s.trust.hello with
  | some n =>
    if s.is R.TRUST_STAT_IDOK && cryptoRuns s && authOk s r.body n then accept (openService s r.body n)
    else ((authFail s).event 0x0F 0x0F03 0, 3, [])
  | none => ((authFail s).event 0x0F 0x0F03 0, 3, [])

def execAuth (s : State) : Host.Outcome State Fault Refusal := .next (settle (serve s 0x02 none anyState doAuth id))

/-- END needs a session: in BLANK without one it is refused, in OWNED not authorised. -/
def execEndSession (s : State) : Host.Outcome State Fault Refusal :=
  let inSession := s.trust.request.any (fun r => r.inSession)
  .next (settle (serve s 0x03 (if inSession || s.trust.life = 0 then none else some 0) (fun _ => inSession)
    (fun s _ => accept s) (fun s => endSessionAs s 1)))

def execSessionIdleTimeout (s : State) : Host.Outcome State Fault Refusal := .next (settle (endSessionAs s 2))

/-! ## READ and WHEY_SELECT (R405, R150) -/

/-- The service port may read a word. -/
def serviceReads (s : State) (a : Nat) : Bool := !busErrorAt s a 4 false && (unlisted s a || mayRead s .service a)

/-- READ: a word with a double-bit error returns a bus error, logged, and one in critical state is its vat's error (R429); the words read correct single-bit errors (R428).
(DESIGN CHOICE: notes/assumptions/105.md.) -/
def doRead (s : State) (r : Request) : Answer :=
  let a := r.field 0
  let n := r.field 1
  if n = 0 || 1000 < n || !(List.range n).all (fun i => serviceReads s (a + 4 * i)) then refuse s
  else
    match (List.range n).find? (fun i => readUpset s (a + 4 * i) == 2) with
    | some i => refuse (readDouble (s.event 0x0F 0x1523 (a + 4 * i)) (a + 4 * i))
    | none => (forN n s (fun s i => countRead s (a + 4 * i)), 0, (List.range n).flatMap (fun i => leBytes 4 (busWord s (a + 4 * i)).toNat))

def execRead (s : State) : Host.Outcome State Fault Refusal := .next (settle (serve s 0x10 (some 0) anyState doRead id))

/-- The engine (its vat and number) and WADDR of a WHEY_SELECT; the whey windows of a vat in reset, as of both in RECOVERY, keep their
reset values (R400, R411). -/
def doWheySelect (s : State) (r : Request) : Answer :=
  let v : Vat := if r.field 0 = 0 then .A else .B
  if !s.hasVat v || 8 ≤ r.field 1 then refuse s
  else accept (if s.vatLive v then s.wrAs 35 (R.WADDR_WADDR v (r.field 1)) (r.field 2) else s)

def execWheySelect (s : State) : Host.Outcome State Fault Refusal :=
  .next (settle (serve s 0x11 (some 0) anyState doWheySelect id))

/-! ## The OPERATE commands -/

/-- The class of an order signal: run 0, stop 1 (R282). -/
def orderClass (sig : Nat) : Option Nat :=
  if 0x10 ≤ sig && sig < 0x28 || sig = 0x42 then some 0
  else if 0x28 ≤ sig && sig < 0x42 then some 1
  else none

def doOrder (s : State) (r : Request) : Answer :=
  match orderClass (r.field 0) with
  | some c => accept (putWriter s ⟨r.field 0, 6, 0, s.rd R.ORD_CFG_SVC_RANK, r.field 1, messageTime s, c⟩)
  | none => refuse s

def execOrder (s : State) : Host.Outcome State Fault Refusal := .next (settle (serve s 0x20 (some 1) onwardState doOrder id))

/-- A graph whose port is in RUN or FAULT_PATTERN consumes the channel (R63). -/
def consumedRunning (s : State) (n : Nat) : Bool :=
  let v := s.viewVat
  (List.range 32).any (fun i =>
    let st := portState s v (s.rd (R.GS_BIND_PORT v (i / 4) (i % 4)))
    s.is (R.GS_BIND_BOUND v (i / 4) (i % 4)) && (st == RUN || st == FAULTPAT)
      && (getSlot s v (i / 4) (i % 4)).defs.any (fun d => d.btype == 0x27 && (nth d.pars 0 0).toNat % 64 == n))

/-- SENSE_SYNC: byte g of the body is the mask of group g (R59, R63). A refusal's records come from the trust unit's source, 0x0F;
the rule names none. (DESIGN CHOICE: notes/assumptions/92.md.) -/
def doSenseSync (s : State) (r : Request) : Answer :=
  let mask (g : Nat) : Nat := (nth r.body g 0).toNat
  if r.body.length != 8 then (s, 2, [])
  else if (List.range 64).any (fun n => bitOf (mask (n / 8)) (n % 8) && consumedRunning s n) then
    refuse (forN 8 s (fun s g => if mask g = 0 then s else s.event 0x0F 0x0703 (mask g + g * 256)))
  else accept (forVats s (fun s v => if s.vatLive v then
    forN 8 s (fun s g => if mask g = 0 then s else requestSync s v g (mask g)) else s))

def execSenseSync (s : State) : Host.Outcome State Fault Refusal :=
  .next (settle (serve s 0x21 (some 1) operatingState doSenseSync id))

/-- HANDOVER_DRILL with its parameter BACK (R260); one that arrives during a drill aborts that drill (R262). -/
def doDrill (s : State) (r : Request) : Answer :=
  if s.arb.drill.isSome then refuse (abortDrill s)
  else if drillAllowed s then accept (startDrill s (r.field 0 != 0))
  else refuse s

def execHandoverDrill (s : State) : Host.Outcome State Fault Refusal := .next (settle (serve s 0x22 (some 1) anyState doDrill id))

/-- VAT_RESET of a vat: refused for the owner while no standby is eligible and any port is in RUN (R254). -/
def doVatReset (s : State) (r : Request) : Answer :=
  let v : Vat := if r.field 0 = 0 then .A else .B
  if !s.hasVat v || (s.owner == some v && !eligible s v.other && anyPortIn s [RUN]) then refuse s
  else accept (raiseFltWith s v 7 (some 0x0C) 3)

def execVatReset (s : State) : Host.Outcome State Fault Refusal :=
  .next (settle (serve s 0x23 (some 1) onwardState doVatReset id))

def execSysReset (s : State) : Host.Outcome State Fault Refusal :=
  .next (settle (serve s 0x24 (some 1) anyState (fun s _ => accept s) (fun s => sysReset s 0x0C)))

/-- No source of any set bit of SAFE_FAULT has been present within the last second (R281): a raised fault, a pair beyond its
threshold, a feedback that differs. (DEDUCED: notes/assumptions/101.md.) -/
def faultsQuiet (s : State) : Bool :=
  (List.range 6).all (fun b => !s.rdBit ⟨R.SAFE_FAULT, 0, 32⟩ b || (decide (nth s.harp.raised b 0 + 1000000000 ≤ s.time.vt)
    && !(b == 4 && (List.range 4).any (feedbackDiffers s))))

def doSafetyClear (s : State) (_ : Request) : Answer :=
  if faultsQuiet s then accept ((endRide (s.wrWord R.SAFE_FAULT 0)).event 0x05 0x0609 1)
  else refuse (s.event 0x05 0x0609 0)

def execSafetyClear (s : State) : Host.Outcome State Fault Refusal :=
  .next (settle (serve s 0x25 (some 1) onwardState doSafetyClear id))

def doFlush (won : Option (BitVec 32)) (s : State) (r : Request) : Answer :=
  if r.field 0 < 6 then accept (flushChannel s (r.field 0) (won.map BitVec.toNat)) else refuse s

def execCanFlush (won : Option (BitVec 32)) (s : State) : Host.Outcome State Fault Refusal :=
  .next (settle (serve s 0x26 (some 1) onwardState (doFlush won) id))

/-- START_FAILS as its two copies and COUNT show it (R383). -/
def setStartFails (s : State) (n : Nat) : State :=
  { (s.wr R.START_FAILS_COUNT n) with nv := { s.nv with fails0 := some n, fails1 := some n } }

def doRecoveryExit (s : State) (_ : Request) : Answer :=
  if s.is R.DEV_STATE_RECSTRAP then refuse s else accept (setStartFails s 0)

def execRecoveryExit (s : State) : Host.Outcome State Fault Refusal :=
  .next (settle (serve s 0x27 (some 1) inRecovery doRecoveryExit (fun s => sysReset s 0x0C)))

/-! ## The CONFIGURE commands -/

/-- The flash slot's address (R26). -/
def slotBase (k : Nat) : Nat := 0x80000000 + k * 0x1000000

/-- The slot may be written (R45). -/
def slotWritable (s : State) (k : Nat) : Bool := k < 2 && (s.dev == .recovery || (s.dev.onward && s.rd R.WHL_STAT_SLOT != k))

def doWheelErase (s : State) (r : Request) : Answer :=
  let k := r.field 0
  if slotWritable s k then
    let s := { s with mem := Memory.clear s.mem (slotBase k) (slotBase (k + 1)) }
    accept { s with nv := { s.nv with badSlots := s.nv.badSlots.filter (· != k) } }
  else refuse s

def flashState (s : State) : Bool := s.dev.onward || s.dev == .recovery

def execWheelErase (s : State) : Host.Outcome State Fault Refusal :=
  .next (settle (serve s 0x30 (some 2) flashState doWheelErase id))

/-- Bytes that a failed programming leaves: free values (notes/assumptions/1.md). -/
def freeBytes (s : State) (n : Nat) : List Byte := (List.range n).map (fun i => (Config.freeWord (s.free + i)).setWidth 8)

/-- WHEEL_WRITE (R401): program, read back, answer. A slot in which the data read back differently fails its signature check from then
on, until it is erased. (DEDUCED: notes/assumptions/92.md.) -/
def doWheelWrite (ok : Bool) (s : State) (r : Request) : Answer :=
  let k := (nth r.body 0 0).toNat
  let off := leValue ((r.body.drop 4).take 4)
  let data := r.body.drop 8
  if r.body.length < 8 || ((r.body.drop 1).take 3).any (· != 0) || off % 4 != 0 || data.length % 4 != 0 || 4080 < data.length || 0x1000000 < off + data.length then (s, 2, [])
  else if !slotWritable s k then refuse s
  else if ok then accept (s.writeBytes (slotBase k + off) data)
  else refuse { (s.writeBytes (slotBase k + off) (freeBytes s data.length)) with
    free := s.free + data.length, nv := { s.nv with badSlots := k :: s.nv.badSlots.filter (· != k) } }

def execWheelWrite (readOk : Bool) (s : State) : Host.Outcome State Fault Refusal :=
  .next (settle (serve s 0x31 (some 2) flashState (doWheelWrite readOk) id))

/-- The value is a confirmed one (R48). -/
def confirmed (s : State) (x : Nat) : Bool :=
  (s.is R.WHL_STAT_CONF0V && s.rd R.SAFE_CONF0_VAL == x) || (s.is R.WHL_STAT_CONF1V && s.rd R.SAFE_CONF1_VAL == x)

/-- The confirmed values, marks and NEXTCONF as the registers show them (R48). -/
def confShown (s : State) : ConfCopy :=
  { conf0 := s.rd R.SAFE_CONF0_VAL, conf1 := s.rd R.SAFE_CONF1_VAL, mark0 := s.is R.WHL_STAT_CONF0V
    mark1 := s.is R.WHL_STAT_CONF1V, next := s.is R.WHL_STAT_NEXTCONF }

/-- The registers that show them take a copy of the store. -/
def showConf (s : State) (c : ConfCopy) : State :=
  let s := (s.wr R.SAFE_CONF0_VAL c.conf0).wr R.SAFE_CONF1_VAL c.conf1
  ((s.wr R.WHL_STAT_CONF0V (boolNat c.mark0)).wr R.WHL_STAT_CONF1V (boolNat c.mark1)).wr R.WHL_STAT_NEXTCONF (boolNat c.next)

/-- The value goes into the one NEXTCONF names, its mark is set, NEXTCONF changes to the other (R49). -/
def ConfCopy.confirm (c : ConfCopy) (x : Nat) : ConfCopy :=
  if c.next then { c with conf1 := x, mark1 := true, next := false } else { c with conf0 := x, mark0 := true, next := true }

/-- SAFE_CONFIRM (R49); a port in RUN refuses an already confirmed value too (DESIGN CHOICE: notes/assumptions/92.md). The record 0x0204,
whose SOURCE no rule names, has 0x01, the reset controller (DESIGN CHOICE: notes/assumptions/7.md). -/
def doSafeConfirm (s : State) (r : Request) : Answer :=
  let x := r.field 0
  if x != s.rd R.SAFE_CRC_VAL || anyPortIn s [RUN] then refuse s
  else if confirmed s x then accept s
  else
    let c := (confShown s).confirm x
    let s := { s with nv := { s.nv with conf0 := some c, conf1 := some c } }
    let s := (showConf s c).clr R.WHL_STAT_RESTRICT
    accept (s.event 0x01 0x0204 x)

def execSafeConfirm (s : State) : Host.Outcome State Fault Refusal :=
  .next (settle (serve s 0x32 (some 2) onwardState doSafeConfirm id))

/-- MT_CORRECT: the supervisor of the owner writes the message into MT_MAIL (R309; notes/assumptions/8.md). -/
def doMtCorrect (s : State) (r : Request) : Answer :=
  if !s.variant.metered then refuse s
  else if r.body.length != 96 then (s, 2, [])
  else accept (forN 24 s (fun s i => s.wrAs (supMaster s.viewVat) (R.MT_MAIL_VAL i) (leValue ((r.body.drop (4 * i)).take 4))))

def execMtCorrect (s : State) : Host.Outcome State Fault Refusal :=
  .next (settle (serve s 0x33 (some 2) onwardState doMtCorrect id))

/-! ## Patches (R393, R394) -/

abbrev patchSize : Nat := 16384

/-- PATCH_FLOOR. -/
def patchFloor (s : State) : Nat := s.rd (R.PATCH_FLOOR_VAL 0) + s.rd (R.PATCH_FLOOR_VAL 1) * 2 ^ 32

def patchVersion (b : List Byte) : Nat := leValue ((b.drop 0x10).take 8)

/-- MAGIC, FORMAT, lengths and reserved bytes. -/
def patchFormOk (b : List Byte) : Bool :=
  let n := leValue ((b.drop 8).take 4)
  let zero (o k : Nat) : Bool := ((b.drop o).take k).all (fun x => x == 0)
  leValue (b.take 4) == 0x5032374D && leValue ((b.drop 4).take 2) == 1 && n % 4 == 0 && n ≤ patchSize && 0x280 ≤ n
    && n ≤ b.length && zero 0xC 4 && zero 0x18 40 && zero (n - 0x120) 288

/-- A signature of a patch: key, the bytes it covers, and where r and s stand. -/
def patchSigned (key b : List Byte) (cover at_ : Nat) : Bool :=
  p384Verify key (b.take cover) ((b.drop at_).take 96)

/-- The owner's countersignature; in BLANK zeros stand for none. -/
def patchCountersigned (s : State) (b : List Byte) (n : Nat) : Bool :=
  let key := (b.drop (n - 0x1E0)).take 96
  let good := patchSigned key b (n - 0x180) (n - 0x180)
  if s.trust.life = 1 then s.trust.ownerHash == some (beValue (sha384 key)) && good
  else good || ((b.drop (n - 0x1E0)).take 192).all (fun x => x == 0)

/-- The failure code of R394, 0 for none. -/
def patchCode (s : State) (b : List Byte) : Nat :=
  let n := leValue ((b.drop 8).take 4)
  if !patchFormOk b then 1
  else if leValue ((b.drop 6).take 2) != Config.romVer.toNat % 65536 then 2
  else if patchVersion b < patchFloor s then 3
  else if !patchSigned (beBytes 96 Config.barvexKey.toNat) b (n - 0x240) (n - 0x240) then 4
  else if !patchCountersigned s b n then 5
  else 0

def erasePatch (s : State) : State := { s with mem := Memory.clear s.mem ferroBase (ferroBase + patchSize) }

def patchState (s : State) : Bool := s.dev == .ready || s.dev == .safeStop || s.dev == .recovery

def doPatchWrite (s : State) (r : Request) : Answer :=
  let b := Config.patchImage r.body
  if patchCode s b != 0 then refuse s else accept ((erasePatch s).writeBytes ferroBase (b.take patchSize))

/-- The held request is 0x34 with this sense of its flag. -/
def patchRequest (s : State) (erase : Bool) : Bool := s.trust.request.any (fun r => Config.patchErases r.body == erase)

def execPatchWrite (s : State) : Host.Outcome State Fault Refusal :=
  .next (settle (if patchRequest s false then serve s 0x34 (some 2) patchState doPatchWrite id else s))

def execPatchErase (s : State) : Host.Outcome State Fault Refusal :=
  .next (settle (if patchRequest s true then serve s 0x34 (some 2) patchState (fun s _ => accept (erasePatch s)) id else s))

/-! ## Debug and ownership (R392, R398, R402) -/

def doCertRevoke (s : State) (r : Request) : Answer :=
  let x := max (s.rd R.CERT_MIN_VAL) (r.field 0 % 2 ^ 32)
  accept ({ s with nv := { s.nv with certMin := s.nv.certMin.put x } }.wr R.CERT_MIN_VAL x)

def execCertRevoke (s : State) : Host.Outcome State Fault Refusal :=
  .next (settle (serve s 0x35 (some 4) anyState doCertRevoke id))

def doDebugUnlock (s : State) (r : Request) : Answer :=
  let l := r.field 0
  if l = 1 || l = 2 then accept (modTrust s (fun t => { t with dbg := l })) else refuse s

def execDebugUnlock (s : State) : Host.Outcome State Fault Refusal :=
  .next (settle (serve s 0x40 (some 3) anyState doDebugUnlock id))

def execDebugLock (s : State) : Host.Outcome State Fault Refusal :=
  .next (settle (serve s 0x41 (some 3) anyState (fun s _ => accept (modTrust s (fun t => { t.relock with dbg := 0 }))) id))

/-- The lowest slot with no fuse blown, those of its hash among them (R391). -/
def freeOwnerSlot (t : TrustSt) : Option Nat :=
  (List.range 4).find? (fun i => let q := nth t.slots i {}; !q.written && !q.valid && !q.revoked)

/-- Blow `k` is made (R464): 0 the hash, 1 VALID, 2 the last. -/
def blowMade (r : FuseResult) (k : Nat) : Bool :=
  match r with
  | .done => true
  | .differs => k == 0
  | .notMade i | .powerLoss i => decide (k < i.val)

/-- The fusing of a slot comes to an end with every blow made. -/
def fusedWhole (r : FuseResult) : Bool := r == .done

/-- The power is lost while a slot is fused. -/
def powerLost (r : FuseResult) : Bool :=
  match r with
  | .powerLoss _ => true
  | _ => false

/-- A hash is written into slot `i` and read back; VALID is blown, or REVOKED where it differs (R391 steps 1 to 3). -/
def fuseSlot (t : TrustSt) (i hash : Nat) (r : FuseResult) : TrustSt :=
  if !blowMade r 0 then t
  else { t with slots := modNth t.slots i (fun _ => { hash, written := true, valid := blowMade r 1, revoked := r == .differs }) }

def ownerState (s : State) : Bool := s.dev == .ready || s.dev == .recovery

/-- The REVOKED fuse of the old slot is blown. -/
def revokeSlot (t : TrustSt) (old : Option Nat) : TrustSt :=
  match old with
  | some k => { t with slots := modNth t.slots k (fun q => { q with revoked := true }) }
  | none => t

/-- OWNER_XFER: the next free slot is fused, then the old one revoked. A blow that is not made fails the command (R464), the fuses
blown before it standing. (DEDUCED: notes/assumptions/92.md.) -/
def doOwnerXfer (fuse : FuseResult) (s : State) (r : Request) : Answer :=
  if r.body.length != 48 then (s, 2, []) else
    match freeOwnerSlot s.trust with
    | none => refuse s
    | some i =>
      let old := s.trust.ownerSlot
      let s := modTrust s (fun t => fuseSlot t i (beValue r.body) fuse)
      let s := if blowMade fuse 2 then modTrust s (fun t => revokeSlot t old) else s
      if powerLost fuse then accept s
      else if fusedWhole fuse then accept (s.event 0x0F 0x0F06 (serialOf s.trust.session))
      else refuse s

/-- Where the power is lost, POR follows, and no answer leaves. -/
def execOwnerXfer (fuse : FuseResult) (s : State) : Host.Outcome State Fault Refusal :=
  .next (settle (serve s 0x50 (some 4) ownerState (doOwnerXfer fuse) (if powerLost fuse then brownOut else id)))

/-- DECOMMISSION: with VDDA outside its range the blow is not made, and the command fails (R464). -/
def doDecommission (s : State) (_ : Request) : Answer :=
  if !Config.vddaInRange s.time.vt then refuse s
  else accept ((modTrust s (fun t => { t with decomFuse := true })).event 0x0F 0x0F07 (serialOf s.trust.session))

def execDecommission (s : State) : Host.Outcome State Fault Refusal :=
  .next (settle (serve s 0x51 (some 4) ownerState doDecommission id))

end Sys2Proof.Machine
end

