-- ==== Sys2Proof/Machine/Access.lean ====
section
/-! DEFINITION. Bus accesses by the masters (R9, R10, R403-R408, R433): what a write to a register does, violations and their
freezing, bus errors, and the debug access (R402). -/

namespace Sys2Proof.Machine

open Sys2Proof

/-! ## Masters -/

/-- The vat of a master, if it is a vat's. -/
def masterVat (m : Nat) : Option Vat := if m < 16 then some .A else if m < 32 then some .B else none

/-- The master's FROZEN bit. -/
def masterFrozen (s : State) (m : Nat) : Bool :=
  match masterVat m with
  | some v => s.rdBit (R.FW_FROZEN_FROZEN v) (m % 16)
  | none => s.rdBit R.CFW_FROZEN_FROZEN (m - 32)

/-- In RECOVERY Vat A's release has failed: it has been withdrawn three times (R381, R385; notes/assumptions/34.md). -/
def releaseFailedA (s : State) : Bool := decide (3 ≤ nth s.rst.withdrawn 2 0)

/-- The supervisor of a vat runs: in a live vat, or as the Starter and the supervisor of a start (R379), or of RECOVERY, that of
Vat B where Vat A's release has failed (R385). -/
def supRuns (s : State) (v : Vat) : Bool :=
  s.vatLive v || (match s.dev with
    | .starting | .loading => v == .A
    | .recovery => if releaseFailedA s then v == .B && s.variant.dual else v == .A
    | _ => false)

/-- The master can issue an access now. -/
def canIssue (s : State) (m : Nat) : Bool :=
  s.dev != .off && !masterFrozen s m &&
    (match masterOf m with
    | some (.engine v _) | some (.dma v) => s.vatLive v
    | some (.sup v) => supRuns s v
    | some .net => macsRun s
    | some .can => catalogueRuns s || serviceRuns s
    | some .service => serviceRuns s
    | some .crypto | some .jtag => true
    | none => false)

/-- The register at `a` has an SV field that the master may not write (R10). -/
def svDenied (m : Master) (a : Nat) : Bool :=
  match findReg a with
  | some (row, _) => row.sv != 0 && (match m with
    | .sup v => inWindow v.other a
    | _ => true)
  | none => false

/-- The verdict on a well-formed access: a violation, and whether only a region denies it.
An unlisted address of a register region denies nothing (R405). (DEDUCED: notes/assumptions/93.md.) -/
def denied (s : State) (m : Master) (a : Nat) (write : Bool) : Bool × Bool :=
  if unlisted s a then (false, false)
  else if write && svDenied m a then (true, false) else violates s m a write

/-! ## Violations (R407, R408) -/

/-- The event of a master: by the firewall of its vat, or by the common one. A vat in reset logs nothing (R417), but for its
supervisor where that runs in a start or in RECOVERY (R379, R385). -/
def masterEvent (s : State) (m code data : Nat) : State :=
  match masterVat m with
  | some v => if m % 16 = 8 && supRuns s v then s.event (vatSource v 0x0E) code data else s.vatEvent v 0x0E code data
  | none => s.event 0x0F code data

/-- The record that INFO holds gives way to a violation of the same cycle by a lower master (R407). -/
def violVt (s : State) : Option Vat → Nat
  | some .A => s.bus.violA
  | some .B => s.bus.violB
  | none => s.bus.violC

def setViolVt (s : State) (w : Option Vat) : State :=
  { s with bus := match w with
    | some .A => { s.bus with violA := s.time.vt }
    | some .B => { s.bus with violB := s.time.vt }
    | none => { s.bus with violC := s.time.vt } }

/-- Freeze and record in a vat's firewall. -/
def recordVat (s : State) (v : Vat) (m a : Nat) (write byRegion : Bool) (landed : Nat) : State :=
  let s := if m < 8 then freezeEngine s v m landed else s
  let s := s.wrBit (R.FW_FROZEN_FROZEN v) m true
  let s := if s.is (R.FW_INFO_REC_F v) && !(violVt s (some v) == s.time.vt && m < s.rd (R.FW_INFO_MASTER v)) then s else setViolVt (
    ((((s.wr (R.FW_ADDR_VAL v) a).wr (R.FW_INFO_MASTER v) m).wr (R.FW_INFO_WRITE v) (boolNat write)).wr
      (R.FW_INFO_BYREGION v) (boolNat byRegion)).set1 (R.FW_INFO_REC_F v)) (some v)
  s.incSat (R.FW_INFO_VIOLS v)

/-- Freeze and record in the common firewall. -/
def recordCommon (s : State) (m a : Nat) (write : Bool) : State :=
  let s := s.wrBit R.CFW_FROZEN_FROZEN (m - 32) true
  let s := if s.is R.CFW_INFO_REC_F && !(violVt s none == s.time.vt && m < s.rd R.CFW_INFO_MASTER) then s else
    setViolVt ((((s.wr R.CFW_ADDR_VAL a).wr R.CFW_INFO_MASTER m).wr R.CFW_INFO_WRITE (boolNat write)).set1 R.CFW_INFO_REC_F) none
  s.incSat R.CFW_INFO_VIOLS

/-- What a freeze entails at once: FLT source FREEZE of a vat; a grandmaster whose protocol stops is none. -/
def freezeEffect (s : State) (m : Nat) : State :=
  match masterVat m with
  | some v => raiseFlt s v 3
  | none =>
    if m = 32 && s.net.role == .master then loseSync ((modNet s (fun n => { n with role := .listening })).clr R.NT_STAT_GM) else s

/-- A violation: the access is not performed, the master is frozen, `landed` writes of an engine's bursts having landed. -/
def violation (s : State) (m a : Nat) (write byRegion : Bool) (landed : Nat) : State :=
  let s := match masterVat m with
    | some v => recordVat s v (m % 16) a write byRegion landed
    | none => recordCommon s m a write
  freezeEffect (masterEvent s m (0x1300 + m + boolNat write * 128) a) m

def busError (s : State) (m a : Nat) (write : Bool) : State := masterEvent s m (0x1500 + m + boolNat write * 128) a

/-- Every JTAG write is flagged and logged, whatever becomes of the access. (DEDUCED: notes/assumptions/94.md.) -/
def noteJtagWrite (s : State) : State :=
  (s.set1 R.TRUST_FLAGS_DBGWR_F).event 0x0F 0x1700 (flagData R.TRUST_FLAGS_DBGWR_F)

/-- The debug access takes a read at level 1, a write at level 2, and one of WADDR at level 1 (R402). -/
def jtagTakes (s : State) (a : Nat) (write : Bool) : Bool :=
  if write then s.trust.debugLevel == 2 || (s.trust.debugLevel == 1 && isWaddr a) else 1 ≤ s.trust.debugLevel

/-- A master's access is issued: the debug access accepts what its level admits (R402). -/
def issues (s : State) (m a : Nat) (write : Bool) : Bool := canIssue s m && (m != 36 || jtagTakes s a write)

/-- An access that a master has issued leaves the trace of R402 where it is a JTAG write. -/
def noteIssue (s : State) (m : Nat) (write : Bool) : State := if m = 36 && write then noteJtagWrite s else s

/-- A master's read of the word at an address it may read meets a double-bit error (R429). -/
def readFails (s : State) (w : Master) (a : Nat) : Bool :=
  !absentAt s a && !(denied s w a false).1 && readUpset s (a / 4 * 4) == 2

/-- A read that meets a double-bit error is a bus error, and in critical state the vat's error besides. -/
def failRead (s : State) (m a : Nat) : State := readDouble (busError s m a false) a

/-- An access of a width in bytes: none, a bus error, a violation, nothing where the block is absent, else what `act` does. -/
def busAccess (s : State) (m a width : Nat) (dir : BusDir) (act : State → State) : State :=
  match masterOf m with
  | none => s
  | some w =>
    if !issues s m a dir.write then s
    else noteIssue (
      if busErrorAt s a width dir.write then busError s m a dir.write
      else if absentAt s a then s
      else
        let d := denied s w a dir.write
        if d.1 then violation s m a dir.write d.2 dir.landed else act s) m dir.write

/-- An aligned word access. -/
abbrev wordAccess (s : State) (m a : Nat) (write : Bool) (act : State → State) : State := busAccess s m a 4 { write } act

def execFirewallViolation (m : BitVec 6) (addr : BitVec 32) (dir : BusDir) (s : State) : Host.Outcome State Fault Refusal :=
  .next (settle (
    match masterOf m.toNat with
    | some w =>
      let a := addr.toNat
      let d := denied s w a dir.write
      if issues s m.toNat a dir.write && !busErrorAt s a 4 dir.write && !absentAt s a && d.1 then
        noteIssue (violation s m.toNat a dir.write d.2 dir.landed) m.toNat dir.write
      else s
    | none => s))

def widthBytes : AccessWidth → Nat
  | .byte => 1
  | .half => 2
  | .word => 4

/-- The access ends in a bus error by its address and width, or by a double-bit error that its read meets (R429). -/
def execBusErrorAccess (m : BitVec 6) (addr : BitVec 32) (width : AccessWidth) (write : Bool) (s : State) :
    Host.Outcome State Fault Refusal :=
  .next (settle (
    match masterOf m.toNat with
    | some w =>
      let a := addr.toNat
      if !issues s m.toNat a write then s
      else if busErrorAt s a (widthBytes width) write then noteIssue (busError s m.toNat a write) m.toNat write
      else if !write && readFails s w a then failRead s m.toNat a
      else s
    | none => s))

/-! ## What a register write does (R10) -/

/-- The bits of a register that a write reaches now: a vat in reset holds all but what survives its reset. -/
def writable (s : State) (a mask keep : Nat) : Nat :=
  match regionOf s a with
  | .vatRegs v => if s.vatLive v then mask else Nat.land mask keep
  | _ => mask

/-- RW and SV bits take the data, ones clear W1C bits, but those that the hardware sets in this cycle (R11). -/
def landBits (s : State) (a : Nat) (row : RegRow) (data : Word) : State :=
  let old := s.regs.get a
  let set := BitVec.ofNat 32 (writable s a (Nat.lor row.rw row.sv) row.keepVat)
  let clear := BitVec.ofNat 32 (writable s a row.w1c row.keepVat) &&& ~~~BitVec.ofNat 32 (s.marked a)
  s.wrWord a (((old &&& ~~~set) ||| (data &&& set)) &&& ~~~(data &&& clear))

/-- The data of a master's write as they land: the RW and SV bits that a higher master has written in this cycle stand (R403), and a
JTAG write reaches no WO field (R402). (DEDUCED: notes/assumptions/93.md.) -/
def orderedData (s : State) (m a : Nat) (data : Word) : Word :=
  match findReg a with
  | none => data
  | some (row, _) =>
    let held := BitVec.ofNat 32 (if s.overtaken m a then Nat.lor row.rw row.sv else 0)
    let out := BitVec.ofNat 32 (if m = 36 then row.wo else 0)
    ((data &&& ~~~held) ||| (s.regs.get a &&& held)) &&& ~~~out

/-- The access codes, and the event of a write whose LK bits differ. -/
def applyCodes (s : State) (m a : Nat) (data : Word) : State :=
  match findReg a with
  | none => s
  | some (row, _) =>
    let old := s.regs.get a
    let s := landBits s a row data
    if (old ^^^ data) &&& BitVec.ofNat 32 row.lk = 0 then s else masterEvent s m 0x0203 (flagData ⟨a, 0, 1⟩)

/-- The group and vat of an SGRP_SYNC register. -/
def syncOf (a : Nat) : Option (Vat × Nat) :=
  ([Vat.A, Vat.B].flatMap (fun v => (List.range 8).map (fun g => (v, g)))).find? (fun q => R.SGRP_SYNC q.1 q.2 == a)

/-- A word lands in a register: those whose writing does more than their codes say have their own meaning. -/
def storeWrite (s : State) (m a : Nat) (data : Word) : State :=
  if a = R.RST_REQ then
    if bitOf data.toNat 0 then sysReset s 0x06
    else if bitOf data.toNat 1 then
      (match masterVat m with
      | some v => raiseFltWith s v 7 (some 0x06) 3
      | none => s)
    else s
  else if a = R.NT_FREQ then setFreq s data
  else if a = R.NT_CTL then (if bitOf data.toNat 0 then stepGo s else s)
  else if a = R.CTS_CTL then
    let s := applyCodes s m a (setBits data 0 1 0)
    if bitOf data.toNat 0 then capture s true false else s
  else
    match syncOf a with
    | some (v, g) =>
      if !s.vatLive v then s
      else if bitOf data.toNat 31 then requestSync s v g (data.toNat % 256)
      else s.wr (R.SGRP_SYNC_MASK v g) data.toNat
    | none => applyCodes s m a data

/-- The low `n` bytes of a word land in memory; in the ferroelectric store those of the supervisor's area, whose arrangement no rule
gives, overwrite what stands there, and those of the reserved part are ignored (R435). -/
def storeMemory (s : State) (a n : Nat) (data : Word) : State :=
  if 0x40604000 ≤ a && a < 0x40605000 then overwriteStore s (a - 0x40600000) (leBytes n data.toNat)
  else if 0x40605000 ≤ a && a < 0x4060BFC0 then s
  else s.writeBytes a (leBytes n data.toNat)

/-- A write lands at its target: a register, or memory (R431). -/
def landBusWrite (s : State) (m a n : Nat) (data : Word) : State :=
  if (regionOf s a).regs then storeWrite (s.noteWrite m a) m a (orderedData s m a data) else storeMemory s a n data

def execRegisterWrite (m : BitVec 6) (addr : BitVec 32) (data : BusData) (s : State) : Host.Outcome State Fault Refusal :=
  let n := widthBytes data.width
  .next (settle (busAccess s m.toNat addr.toNat n { write := true, landed := data.landed } (fun s => landBusWrite s m.toNat addr.toNat n data.data)))

/-! ## The debug access (R402) -/

/-- A JTAG write. A write of 1 to the flag itself does not clear it in the cycle that sets it (R11). -/
def jtagWrite (s : State) (a : Nat) (data : Word) : State := wordAccess s 36 a true (fun s => landBusWrite s 36 a 4 data)

/-- A JTAG read: of a word with a double-bit error it ends in a bus error (R429). -/
def jtagRead (s : State) (a : Nat) : State :=
  wordAccess s 36 a false (fun s => if readUpset s a = 2 then failRead s 36 a else countRead s a)

/-- EXTEST and the other instructions that drive pins are accepted (R402). -/
def extestOk (s : State) : Bool := s.trust.life == 0 || (s.trust.life == 1 && s.trust.debugLevel == 2 && s.dev == .recovery)

/-- A pin-driving instruction is in force (R402). -/
def extestOn (s : State) : Bool := s.trust.extest && extestOk s

def jtagDo (s : State) (op : JtagOp) : State :=
  match op with
  | .idcode | .bypass | .sample => modTrust s (fun t => { t with extest := false, cells := [] })
  | .extest cells => modTrust s (fun t => { t with extest := extestOk s, cells := if extestOk s then cells else [] })
  | .read a => jtagRead s a.toNat
  | .write a data => jtagWrite s a.toNat data

/-- The debug access runs in reset too (R443), where it reaches no bus. -/
def execJtagAccess (op : JtagOp) (s : State) : Host.Outcome State Fault Refusal :=
  .next (settle (if s.rst.phase = .por || masterFrozen s 36 then s else jtagDo s op))

end Sys2Proof.Machine
end

