-- ==== Sys2Proof/Machine/Wheel.lean ====
section
/-! DEFINITION. The wheel image (02_wheel.md): its header and signature block (R28-R31), its records (R32, R33), the contents
of each record type, the safety check value (R47), and checks 1 to 11 of R41. -/

namespace Sys2Proof.Machine

open Sys2Proof

/-! ## Header and signature block -/

/-- `n` bytes from offset `o`, as a little-endian number. -/
def leAt (bs : List Byte) (o n : Nat) : Nat := leValue ((bs.drop o).take n)

def zeroAt (bs : List Byte) (o n : Nat) : Bool := ((bs.drop o).take n).all (fun b => b == 0)

/-- The 256-byte header of a slot. -/
def wheelHeader (s : State) (k : Nat) : List Byte := s.readBytes (slotBase k) 0x100

def hdrTotal (h : List Byte) : Nat := leAt h 0x008 4
def hdrEnc (h : List Byte) : Bool := bitOf (leAt h 0x00C 4) 0
def hdrId (h : List Byte) : Nat := leAt h 0x014 4
def hdrVersion (h : List Byte) : Nat := leAt h 0x018 8
def hdrPayload (h : List Byte) : Nat := leAt h 0x020 4
def hdrRecords (h : List Byte) : Nat := leAt h 0x024 4

/-- Check 3 (R29). -/
def headerOk (h : List Byte) : Bool :=
  leAt h 0 4 == 0x4C48574D && leAt h 4 2 == 1 && leAt h 6 2 == 0x100 && leAt h 0x00C 4 < 2 && leAt h 0x010 4 % 2 == 0
    && leAt h 0x010 4 < 32 && zeroAt h 0x028 8 && zeroAt h 0x0D4 44 && (hdrEnc h || zeroAt h 0x030 164)

/-- Check 4. -/
def lengthsOk (h : List Byte) : Bool :=
  let n := hdrTotal h
  n % 4 == 0 && 0x208 ≤ n && n ≤ 0x1000000 && hdrPayload h == n - 0x200

/-- WHL_FLOOR. -/
def whlFloor (s : State) : Nat := s.rd R.WHL_FLOOR_LO_VAL + s.rd R.WHL_FLOOR_HI_VAL * 2 ^ 32

/-- The flash is read in single-SPI mode only: by the strap, with its bank at 3.3 V, and in RECOVERY (R384, R385, R440). -/
def singleOnly (s : State) : Bool := s.rst.strap == 2 || bitOf s.rst.bank33 7 || s.dev == .recovery

/-- A slot reads whole: in octal mode, or then in single-SPI mode (R27). -/
def slotReads (s : State) (r : FlashRead) : Bool := (r.octal && !singleOnly s) || r.single

/-- Checks 1 to 6, on a header (R43 step 1): the first code that applies. -/
def headerCode (s : State) (k : Nat) (r : FlashRead) : Option Nat :=
  let h := wheelHeader s k
  if !slotReads s r then some 0x10
  else if s.trust.life = 2 then some 0x11
  else if !headerOk h then some 0x01
  else if !lengthsOk h then some 0x02
  else if !bitOf (leAt h 0x010 4) s.variant.code then some 0x03
  else if hdrVersion h < whlFloor s then some 0x04
  else none

/-- The signature block. -/
def signatureBlock (s : State) (k : Nat) : List Byte := s.readBytes (slotBase k + hdrTotal (wheelHeader s k) - 0x100) 0x100

/-- SHA-384 of SIGNER_KEY. -/
def signerHash (s : State) (k : Nat) : Nat := beValue (sha384 ((signatureBlock s k).take 96))

/-- Check 8 (R30); a slot in which a write read back differently fails it (R401). -/
def signatureOk (s : State) (k : Nat) : Bool :=
  let b := signatureBlock s k
  !s.nv.badSlots.contains k && zeroAt b 0xC0 64 && p384Verify (b.take 96) (s.readBytes (slotBase k) (hdrTotal (wheelHeader s k) - 0x100))
    ((b.drop 0x60).take 96)

/-- The payload as stored. -/
def storedPayload (s : State) (k : Nat) : List Byte := s.readBytes (slotBase k + 0x100) (hdrPayload (wheelHeader s k))

/-- The payload in plain text (R31): it needs the identity key where the wheel is encrypted. -/
def plainPayload (s : State) (k : Nat) : Option (List Byte) :=
  let h := wheelHeader s k
  if !hdrEnc h then some (storedPayload s k)
  else if s.is R.TRUST_STAT_IDOK then wheelOpen h (storedPayload s k)
  else none

/-- Checks 1 to 9. -/
def imageCode (s : State) (k : Nat) (r : FlashRead) : Option Nat :=
  match headerCode s k r with
  | some c => some c
  | none =>
    if s.trust.life = 1 && s.trust.ownerHash != some (signerHash s k) then some 0x05
    else if !signatureOk s k then some 0x06
    else if (plainPayload s k).isNone then some 0x07
    else none

/-! ## Records (R32, R33) -/

/-- A record: its TYPE, its SAFE flag and its body. -/
structure WheelRec where
  typ : Nat
  safe : Bool
  body : List Word
  deriving DecidableEq, Repr

/-- Bytes as little-endian words. -/
def wordsOf : List Byte → List Word
  | a :: b :: c :: d :: bs => BitVec.ofNat 32 (leValue [a, b, c, d]) :: wordsOf bs
  | _ => []

/-- The records of a payload, END included; none where the framing breaks. `fuel` bounds their number. -/
def parseRecords : Nat → List Word → Option (List WheelRec)
  | fuel + 1, h :: l :: ws =>
    let n := l.toNat / 4
    let r : WheelRec := ⟨getBits h 0 16, bitOf h.toNat 16, ws.take n⟩
    if getBits h 17 15 != 0 || l.toNat % 4 != 0 || ws.length < n then none
    else if r.typ = 0xFFFF then (if n = 0 && ws.isEmpty then some [r] else none)
    else (parseRecords fuel (ws.drop n)).map (r :: ·)
  | _, _ => none

/-- The records of a slot's payload where check 10 passes. -/
def wheelRecords (s : State) (k : Nat) : Option (List WheelRec) :=
  match plainPayload s k with
  | none => none
  | some bs =>
    let ws := wordsOf bs
    match parseRecords ws.length ws with
    | some rs => if rs.length = hdrRecords (wheelHeader s k) then some rs else none
    | none => none

def knownTypes : List Nat := [0x0001, 0x0010, 0x0011, 0x0020, 0x0021, 0x0030]

/-- Check 11. -/
def typesOk (rs : List WheelRec) : Bool := rs.all (fun r => knownTypes.contains r.typ || 0x8000 ≤ r.typ)

def ofType (rs : List WheelRec) (t : Nat) : List WheelRec := rs.filter (fun r => r.typ == t)

/-- A record's bytes, header included. -/
def recBytes (r : WheelRec) : List Byte :=
  leBytes 4 (r.typ + boolNat r.safe * 65536) ++ leBytes 4 (4 * r.body.length) ++ r.body.flatMap (fun w => leBytes 4 w.toNat)

/-- SAFE_CRC (R47). -/
def safeCrc (rs : List WheelRec) : Nat := crc32c ((rs.filter (fun r => r.safe)).flatMap recBytes)

/-! ## REGIMG -/

/-- The words of a REGIMG record with their absolute addresses, a vat word's in Vat A's window; none where the body's layout
breaks R34. -/
def regImg (r : WheelRec) : Option (List (Nat × Word)) :=
  match r.body with
  | w0 :: w1 :: ws =>
    let a := if getBits w0 0 2 = 0 then 0x50000000 + w1.toNat else w1.toNat
    if 1 < getBits w0 0 2 || getBits w0 2 14 != 0 || ws.length != getBits w0 16 16 then none
    else some ((List.range ws.length).zip ws |>.map (fun q => (a + 4 * q.1, q.2)))
  | _ => none

/-- DOMAIN of a REGIMG record's body. -/
def regDomain (r : WheelRec) : Nat := getBits (r.body.headD 0) 0 2

/-! ## GRAPH (R35) -/

/-- An instance entry: its word 0, its input words and its parameters. -/
structure RawBlock where
  head : Word
  ins : List Word
  pars : List Word
  deriving DecidableEq, Repr

def RawBlock.btype (b : RawBlock) : Nat := getBits b.head 0 6

/-- An input reference: none is unconnected (R108). -/
def inputRef (w : Word) : Option (Nat × Nat) := if getBits w 0 12 = 0xFFF then none else some (getBits w 0 12, getBits w 12 4)

def RawBlock.inputs (b : RawBlock) : List (Option (Nat × Nat)) := b.ins.map inputRef

/-- Exactly `n` instance entries. -/
def parseBlocks : Nat → List Word → Option (List RawBlock)
  | 0, [] => some []
  | n + 1, h :: ws =>
    let i := getBits h 8 4
    let p := getBits h 16 16
    if ws.length < i + p then none
    else (parseBlocks n (ws.drop (i + p))).map (⟨h, ws.take i, (ws.drop i).take p⟩ :: ·)
  | _, _ => none

/-- A GRAPH record, with the number of its first instance in its own engine. -/
structure RawGraph where
  engine : Nat
  gslot : Nat
  port : Nat
  fallback : Nat
  fbEn : Bool
  first : Nat
  blocks : List RawBlock
  deriving DecidableEq, Repr

/-- Word 0's reserved bits are zero and the body holds NBLK entries. (DEDUCED: notes/assumptions/41.md.) -/
def parseGraph (r : WheelRec) : Option RawGraph :=
  match r.body with
  | w :: ws =>
    if getBits w 3 1 != 0 || getBits w 6 2 != 0 || getBits w 11 1 != 0 || getBits w 28 4 != 0 then none
    else (parseBlocks (getBits w 16 12) ws).map (fun bs =>
      ⟨getBits w 0 3, getBits w 4 2, getBits w 8 3, getBits w 12 3, bitOf w.toNat 15, 0, bs⟩)
  | [] => none

/-- Number the graphs' instances across each engine's graphs, in record order. -/
def numberGraphs (gs : List RawGraph) : List RawGraph :=
  gs.foldl (fun out g =>
    out ++ [{ g with first := ((out.filter (fun q => q.engine == g.engine)).map (fun q => q.blocks.length)).sum }]) []

/-- The instance with number `i` of its engine. -/
def RawGraph.inst (g : RawGraph) (i : Nat) : Option RawBlock := if i < g.first then none else g.blocks[i - g.first]?

/-- Output `o` of instance `i` exists in the graph. -/
def RawGraph.hasOut (g : RawGraph) (i o : Nat) : Bool :=
  (g.inst i).any (fun b => decide (o < ((blockInfo b.btype).map (fun x => x.nout)).getD 0))

/-- It exists and is binary32. -/
def RawGraph.hasFOut (g : RawGraph) (i o : Nat) : Bool := g.hasOut i o && (g.inst i).any (fun b => outFmt b.btype b.pars o == .f)

/-- The instances of a type with their numbers. -/
def RawGraph.ofBtype (g : RawGraph) (bt : Nat) : List RawBlock := g.blocks.filter (fun b => b.btype == bt)

/-! ## PREDICT (R37) -/

/-- A PREDICT record: engine, slot and entries. -/
structure RawPredict where
  engine : Nat
  gslot : Nat
  entries : List PredDef
  deriving DecidableEq, Repr

/-- Entries of 3 words each; none where a reserved bit is set or words 1 and 2 of an entry other than MODEL are not zero. Bits [31:16] of
a MODEL entry's word 1, which no rule names, are judged as reserved ones. (DESIGN CHOICE: notes/assumptions/41.md.) -/
def parseEntries : Nat → List Word → Option (List PredDef)
  | 0, [] => some []
  | n + 1, a :: b :: c :: ws =>
    let t := getBits a 12 3
    if (t = 3 && getBits b 16 16 != 0) || (t != 3 && (b != 0 || c != 0)) then none
    else (parseEntries n ws).map
      (⟨getBits a 0 12, t, bitOf a.toNat 15, getBits a 16 16, getBits b 0 12, getBits b 12 4, c⟩ :: ·)
  | _, _ => none

def parsePredict (r : WheelRec) : Option RawPredict :=
  match r.body with
  | w :: ws =>
    if getBits w 3 1 != 0 || getBits w 6 10 != 0 then none
    else (parseEntries (getBits w 16 16) ws).map (fun es => ⟨getBits w 0 3, getBits w 4 2, es⟩)
  | [] => none

/-! ## TABLE (R38) -/

/-- The word is a Q15 number, sign-extended. -/
def q15Word (w : Word) : Bool := w.toNat / 2 ^ 15 == 0 || w.toNat / 2 ^ 15 == 2 ^ 17 - 1

/-- One breakpoint lies below the next. -/
def tableLt (fmt : Nat) (a b : Word) : Bool :=
  if fmt = 0 then decide (signedOf 16 a.toNat < signedOf 16 b.toNat) else F32.lt a b

def rising (fmt : Nat) : List Word → Bool
  | a :: b :: ws => tableLt fmt a b && rising fmt (b :: ws)
  | _ => true

/-- A TABLE (R38). One with no X, or none of the Y it needs, with KIND above 1, or with a bit of word 0 [31:17] set, is rejected too.
(DESIGN CHOICE: notes/assumptions/41.md.) -/
def parseTable (r : WheelRec) : Option TableDef :=
  match r.body with
  | w0 :: w1 :: ws =>
    let kind := getBits w0 12 4
    let fmt := getBits w0 16 1
    let nx := getBits w1 0 16
    let ny := getBits w1 16 16
    let yb := if kind = 0 then 0 else ny
    let t : TableDef := ⟨getBits w0 0 12, kind, fmt, ws.take nx, (ws.drop nx).take yb, ws.drop (nx + yb)⟩
    if getBits w0 17 15 != 0 || 1 < kind || (kind = 0 && ny != 1) || nx = 0 || ny = 0 || ws.length != nx + yb + nx * ny then none
    else if fmt = 0 && !ws.all q15Word then none
    else if rising fmt t.xs && rising fmt t.ys then some t else none
  | _ => none

/-- A TABLE record's body, as engine-local memory holds it (R93). -/
def tableBody (t : TableDef) : List Word :=
  [BitVec.ofNat 32 (t.id + t.kind * 2 ^ 12 + t.fmt * 2 ^ 16),
    BitVec.ofNat 32 (t.xs.length + (if t.kind = 0 then 1 else t.ys.length) * 2 ^ 16)] ++ t.xs ++ t.ys ++ t.vals

/-! ## CATALOGUE (R39) -/

/-- A CATALOGUE record: channel, ALT and ALT_EN, and its entries. -/
structure RawCat where
  chan : Nat
  alt : Nat
  altEn : Bool
  entries : List CanEntry
  deriving DecidableEq, Repr

/-- Signals of 3 words each. -/
def parseSignals : Nat → List Word → Option (List CanSig)
  | 0, [] => some []
  | n + 1, a :: b :: c :: ws =>
    if getBits a 26 6 != 0 || getBits b 12 20 != 0 then none
    else (parseSignals n ws).map
      (⟨getBits a 0 16, getBits a 16 10, getBits b 0 7, bitOf b.toNat 7, getBits b 8 1, getBits b 9 3, c⟩ :: ·)
  | _, _ => none

/-- One frame entry of channel `ch` at position `pos`, the `tx`-th transmit entry if it is one. One with a reserved bit set is rejected
(DESIGN CHOICE: notes/assumptions/41.md). -/
def parseEntry (ch pos tx : Nat) (ws : List Word) : Option CanEntry :=
  match ws with
  | a :: b :: c :: rest =>
    if getBits a 14 2 != 0 || getBits a 20 12 != 0 || getBits b 29 3 != 0 || getBits c 16 16 != 0 || rest.length % 3 != 0 then none
    else (parseSignals (rest.length / 3) rest).map (fun sigs =>
      { chan := ch, pos, txPos := if bitOf a.toNat 8 then tx else 0, home := ch, place := pos, transmit := bitOf a.toNat 8,
        auth := bitOf a.toNat 9, express := bitOf a.toNat 10, fd := bitOf a.toNat 11, brs := bitOf a.toNat 12,
        ide := bitOf a.toNat 13, dlc := getBits a 16 4, id := getBits b 0 29, period := getBits c 0 16, sigs })
  | _ => none

/-- `n` frame entries, each of ENTRY_LEN words. -/
def parseCatEntries (ch : Nat) : Nat → Nat → Nat → List Word → Option (List CanEntry)
  | 0, _, _, [] => some []
  | n + 1, pos, tx, a :: ws =>
    let len := getBits a 0 8
    if len < 3 || ws.length + 1 < len then none
    else
      match parseEntry ch pos tx (a :: ws.take (len - 1)) with
      | none => none
      | some e => (parseCatEntries ch n (pos + 1) (tx + boolNat e.transmit) (ws.drop (len - 1))).map (e :: ·)
  | _, _, _, _ => none

def parseCat (r : WheelRec) : Option RawCat :=
  match r.body with
  | w :: ws =>
    if getBits w 3 1 != 0 || getBits w 8 8 != 0 then none
    else (parseCatEntries (getBits w 0 3) (getBits w 16 16) 0 0 ws).map (fun es =>
      ⟨getBits w 0 3, getBits w 4 3, bitOf w.toNat 7, es⟩)
  | [] => none

/-! ## CANKEYS (R40) -/

/-- KEY_ID and key of each entry. -/
def parseKeys : Nat → List Word → Option (List (Nat × Nat))
  | 0, [] => some []
  | n + 1, a :: k0 :: k1 :: k2 :: k3 :: ws =>
    let key := beValue ([k0, k1, k2, k3].flatMap (fun w => leBytes 4 w.toNat))
    (parseKeys n ws).map ((getBits a 0 8, key) :: ·)
  | _, _ => none

def parseCanKeys (r : WheelRec) : Option (List (Nat × Nat)) :=
  match r.body with
  | w :: ws => parseKeys (getBits w 0 8) ws
  | [] => none

/-! ## The contents of a wheel -/

/-- What a wheel's records hold, once their forms are read. -/
structure WheelImage where
  regs : List (Nat × Word)
  graphs : List RawGraph
  preds : List RawPredict
  tables : List TableDef
  cats : List RawCat
  keys : List (Nat × Nat)
  deriving DecidableEq, Repr

/-- All results, or none where one is missing. -/
def allSome {α : Type} : List (Option α) → Option (List α)
  | [] => some []
  | none :: _ => none
  | some a :: l => (allSome l).map (a :: ·)

/-- The REGIMG words of a wheel. -/
def imageRegs (rs : List WheelRec) : Option (List (Nat × Word)) :=
  (allSome ((ofType rs 0x0001).map regImg)).map (fun l => l.flatten)

/-- The GRAPH, PREDICT, TABLE and CATALOGUE records of a wheel, each in its form. -/
def imageRest (rs : List WheelRec) (regs : List (Nat × Word)) : Option WheelImage :=
  match allSome ((ofType rs 0x0010).map parseGraph), allSome ((ofType rs 0x0011).map parsePredict),
    allSome ((ofType rs 0x0030).map parseTable), allSome ((ofType rs 0x0020).map parseCat) with
  | some gs, some ps, some ts, some cs =>
    some ⟨regs, numberGraphs gs, ps, ts, cs, ((ofType rs 0x0021).map (fun r => (parseCanKeys r).getD [])).flatten⟩
  | _, _, _, _ => none

end Sys2Proof.Machine
end

