-- ==== Sys2Proof/Machine/WheelRegs.lean ====
section
/-! DEFINITION. Checks 12, 13, 15 and 16 of R41: REGIMG targets and register values (code 0x0A), port, leg and link rules
(0x0B), SAFE flags (0x0D) and absent blocks (0x0E). Register values are judged in a trial state, which holds what the wheel
would write. -/

namespace Sys2Proof.Machine

open Sys2Proof

/-! ## Targets (R34) -/

def vatTargets : List (Nat × Nat) :=
  [(0x04000000, 0x04002000), (0x04020000, 0x04020800), (0x04020900, 0x04020980), (0x04100000, 0x04101200),
   (0x04101400, 0x04101500), (0x04101800, 0x04101A00), (0x04200000, 0x04201000), (0x04202000, 0x04202200),
   (0x04300000, 0x04308000), (0x04400000, 0x04401000), (0x04600000, 0x04600400)]

def commonTargets : List (Nat × Nat) :=
  [(0x40000000, 0x40010000), (0x40020000, 0x40030000), (0x40030000, 0x40040000), (0x40100000, 0x4010C000),
   (0x40200000, 0x40201000), (0x40300000, 0x40300100), (0x40500000, 0x40501000)]

def inSpans (l : List (Nat × Nat)) (a : Nat) : Bool := l.any (fun q => q.1 ≤ a && a < q.2)

/-- The bits of a register that a wheel sets: LK, RW and SV (R34). NT_CTL.STEP_GO, which is carried out at once and reads 0,
leaves nothing in the register (`applyRegWord`). -/
def wheelMask (row : RegRow) : Nat := if row.base = 0x40300014 then 0 else Nat.lor row.lk (Nat.lor row.rw row.sv)

/-- The word may stand at the address: a permitted area, a register, RO and reserved bits zero. -/
def wordOk (vat : Bool) (a : Nat) (w : Word) : Bool :=
  let area := if vat then 0x50000000 ≤ a && inSpans vatTargets (a - 0x50000000) else inSpans commonTargets a
  area && (match findReg a with
    | some (row, _) =>
      w &&& ~~~(BitVec.ofNat 32 (Nat.lor (Nat.lor row.lk row.rw) (Nat.lor (Nat.lor row.sv row.w1c) row.wo))) == 0
    | none => false)

/-- No number twice. -/
def noRepeat : List Nat → Bool
  | [] => true
  | a :: l => !l.contains a && noRepeat l

/-- One REGIMG word is written into a register; NT_FREQ saturates (R335). -/
def putWheelWord (s : State) (a : Nat) (w : Word) : State :=
  if a = R.NT_FREQ then setFreq s w else
  match findReg a with
  | some (row, _) =>
    let m := BitVec.ofNat 32 (wheelMask row)
    s.wrWord a ((s.regs.get a &&& ~~~m) ||| (w &&& m))
  | none => s

/-- The trial state: the wheel's words in Vat A's window and the common domain. -/
def trialState (s : State) (regs : List (Nat × Word)) : State := regs.foldl (fun s q => putWheelWord s q.1 q.2) s

/-- Layout, targets and single writers. -/
def targetsOk (rs : List WheelRec) : Bool :=
  match imageRegs rs with
  | none => false
  | some regs =>
    (ofType rs 0x0001).all (fun r => ((regImg r).getD []).all (fun q => wordOk (regDomain r == 0) q.1 q.2))
      && noRepeat (regs.map (fun q => q.1))

/-! ## Register values (code 0x0A) -/

def within (lo hi x : Nat) : Bool := decide (lo ≤ x) && decide (x ≤ hi)

/-- A binary32 value within the numbers nearest to two fractions. -/
def fWithin (lo hi : Nat × Nat) (x : Word) : Bool := F32.le (F32.ofRat lo.1 lo.2) x && F32.le x (F32.ofRat hi.1 hi.2)

def fPos (x : Word) : Bool := F32.lt 0 x
def fNonNeg (x : Word) : Bool := F32.le 0 x

/-- Every index below `n`. -/
def allUpTo (n : Nat) (f : Nat → Bool) : Bool := (List.range n).all f

/-- All of a list of conditions. -/
def allOf (l : List Bool) : Bool := l.all id

/-- A register's word. -/
def State.word (s : State) (a : Nat) : Word := s.regs.get a

/-- Clock groups (R52, R60). -/
def groupOk (t : State) (g : Nat) : Bool :=
  within 20 100 (t.rd (R.SGRP_CLK_DIV .A g))
    && (!t.is (R.SGRP_CLK_ALIGN_EN .A g) || t.is (R.SGRP_CLK_SRC .A g)
      || t.is (R.PORT_CFG_TYPE .A (t.rd (R.SGRP_CLK_ALIGN_PORT .A g))))

/-- Slices (R55, R65, R66, R74). -/
def sliceOk (t : State) (n : Nat) : Bool :=
  let preset := t.rd (R.SLICE_CFG_PRESET .A n)
  let osr := t.rd (R.SLICE_CFG_OSR_C .A n)
  allOf [decide (preset < 6), if preset = 5 then within 16 256 osr else osr == 0,
    !within 1 15 (t.rd (R.SLICE_MON_FR_LIMIT .A n)),
    !t.is (R.SLICE_MON_FZ_EN .A n) || t.is (R.SLICE_MON_FZ_COUNT .A n),
    !t.is (R.SLICE_CAL_GCAL_EN .A n) || within 10 255 (t.rd (R.SLICE_CAL_TAU .A n))]

/-- A source code of R76, or 0xFF where unused is allowed. -/
def sourceOk (c : Nat) (unused : Bool) : Bool := c ≤ 0x80 || (unused && c == 0xFF)

/-- Plausibility pairs. -/
def pairOk (t : State) (k : Nat) : Bool :=
  let en := t.is (R.PP_CFG_EN .A k)
  allOf [sourceOk (t.rd (R.PP_CFG_SRC_A .A k)) (!en), sourceOk (t.rd (R.PP_CFG_SRC_B .A k)) (!en),
    t.rd (R.PP_CFG_ACTION .A k) != 3, !en || t.is (R.PP_CFG_PERSIST .A k), fNonNeg (t.word (R.PP_THR .A k))]

/-- Aux links. -/
def auxOk (t : State) (k : Nat) : Bool :=
  allOf [within 10 50 (t.rd (R.AUX_CFG_DIV .A k)), decide (t.rd (R.AUX_CFG_RLEN .A k) ≤ 16),
    decide (t.rd (R.AUX_INJ_ILEN .A k) ≤ 4)]

/-- The GRIDn registers of a GRID port (R162). -/
def gridOk (t : State) (p : Nat) : Bool :=
  let ol := t.rd (R.GRID_OLT_OLTIME .A p)
  let per := t.rd (R.GRID_PER_PER .A p)
  let ren := t.is (R.GRID_REST_REN .A p)
  allOf [within 5 50 (t.rd (R.GRID_CFG_DEADLV .A p)),
    !t.is (R.GRID_CFG_BSEN .A p) || within 50 10000 (t.rd (R.GRID_CFG_TDB .A p)),
    fPos (t.word (R.GRID_VNOM .A p)), ol == 0 || within 10 1800 ol,
    !ren || (t.is (R.GRID_REST_RDECAY .A p) && within 10 1000 per && within 1 per (t.rd (R.GRID_PER_LEAD .A p))
      && fPos (t.word (R.GRID_KR .A p)) && F32.le (t.word (R.GRID_KR .A p)) (F32.ofNat 10)
      && fWithin (0, 1) (3, 1) (t.word (R.GRID_RMAX .A p)))]

/-- The DRVn registers of a port with a drive guard (R193). -/
def driveOk (t : State) (p : Nat) : Bool :=
  let ob := t.rd (R.DRV_OBST_OBSTIME .A p)
  allOf [!t.is (R.DRV_CFG_PEN .A p) || within 1 10000 (t.rd (R.DRV_CFG_TZR .A p)), ob == 0 || within 10 1800 ob,
    fPos (t.word (R.DRV_RATING .A p)), fNonNeg (t.word (R.DRV_EZERO .A p)),
    !t.is (R.DRV_CFG_OBSEN .A p) || fPos (t.word (R.DRV_WSW .A p))]

/-- No word writes GRIDn registers of a port that is not GRID, or DRVn registers of a port without a drive guard. -/
def portWordsOk (t : State) (regs : List (Nat × Word)) : Bool :=
  regs.all (fun q =>
    let off := q.1 - 0x54000000
    let p := off / 0x400
    let o := off % 0x400
    if q.1 < 0x54000000 || 0x54002000 ≤ q.1 then true
    else if 0x300 ≤ o && o < 0x380 then gridPort t .A p
    else if 0x380 ≤ o then drivePort t .A p
    else true)

/-- Position inputs (08_traction_and_dc.md, POSi registers): 0-3 encoders, in which bits that only SSI uses are reserved
(R34), 4-7 SSI. -/
def positionOk (t : State) (i : Nat) : Bool :=
  let en := t.is (R.POS_CFG_EN .A i)
  let counts := t.rd (R.POS_COUNTS_COUNTS .A i)
  let fz := !t.is (R.POS_FZ_FZ_EN .A i) || t.is (R.POS_FZ_FZ_COUNT .A i)
  let reserved := t.is (R.POS_CFG_GRAY .A i) || t.is (R.POS_CFG_PAR .A i) || t.is (R.POS_CFG_ERREN .A i) || t.is ⟨R.POS_ZPOS .A i, 24, 8⟩
  if i < 4 then allOf [fz, !reserved, decide (t.rd (R.POS_CFG_ZMODE .A i) < 2), !en || (counts % 4 == 0 && 4 ≤ counts)]
  else fz && (!en || allOf [t.is (R.POS_CFG_BADMAX .A i), t.is (R.POS_CFG_TMONO .A i), 7 ≤ t.rd (R.POS_CFG_NBITS1 .A i),
    256 ≤ counts && counts == 2 ^ Nat.log2 counts, within 50 1000 (t.rd (R.POS_ZPOS_DIV .A i))])

/-- Carriers (R204, R207, R208). -/
def carrierOk (t : State) (p : Nat) : Bool :=
  let per := t.rd (R.PORT_PERIOD_PERIOD .A p)
  let lo := t.rd (R.PORT_PERLIM_PERMIN .A p)
  let hi := t.rd (R.PORT_PERLIM_PERMAX .A p)
  let tick := t.rd (R.PORT_CARCFG_TICKSEL .A p)
  let rel := t.rd (R.PORT_CARCFG_RELSEL .A p)
  allOf [tick != 0, !t.is (R.PORT_CARCFG_MODE .A p) || (tick == 1 && rel == 1), Nat.land rel tick == tick, decide (lo ≤ per), decide (per ≤ hi),
    [per, lo, hi].all (fun x => within 1250 62500 x && within 2500 62500 (tickCycles t .A p x)),
    decide (t.rd (R.PORT_FPCFG_ASCT .A p) ≤ 60000)]

/-- Legs, trips and driver links. -/
def legOk (t : State) (n : Nat) : Bool :=
  allOf [t.rd (R.LEG_CFG_MPSET .A n) != 3, within 10 2000 (t.rd (R.DLR_CFG_TBS_MAX .A n)), within 10 100 (t.rd (R.DLR_CFG_FTO .A n))]

/-- Firewall regions: LIMIT not below BASE. -/
def fwOk (t : State) (k : Nat) : Bool := decide (t.rd (R.FW_BASE_BASE .A k) ≤ t.rd (R.FW_LIMIT_LIMIT .A k))

/-- The vat's registers. (DEDUCED: notes/assumptions/40.md.) -/
def vatValuesOk (t : State) : Bool :=
  allOf [allUpTo 8 (groupOk t), allUpTo 64 (sliceOk t), allUpTo 16 (pairOk t), allUpTo 4 (auxOk t),
    allUpTo 8 (fun p => !gridPort t .A p || gridOk t p), allUpTo 8 (fun p => !drivePort t .A p || driveOk t p),
    allUpTo 8 (positionOk t), allUpTo 8 (carrierOk t), allUpTo 32 (legOk t),
    allUpTo 8 (fun i => decide (t.rd (R.TRIP_CFG_FILT .A i) ≤ 74)), allUpTo 16 (fwOk t),
    allUpTo 8 (fun c => within 10 200 (t.rd (R.CE_STPER_STPER .A c)))]

/-- One CAN channel (R312, R313); `priv` says that it is privileged. -/
def canOk (t : State) (priv : Bool) (c : Nat) : Bool :=
  let nq := t.rd (R.CAN_BTNOM_BRP c) * (1 + t.rd (R.CAN_BTNOM_SEG1 c) + t.rd (R.CAN_BTNOM_SEG2 c))
  let dq := t.rd (R.CAN_BTDATA_BRP c) * (1 + t.rd (R.CAN_BTDATA_SEG1 c) + t.rd (R.CAN_BTDATA_SEG2 c))
  allOf [t.is (R.CAN_CFG_LONELY_LIMIT c), within 1 32 (t.rd (R.CAN_BTNOM_BRP c)), within 2 255 (t.rd (R.CAN_BTNOM_SEG1 c)),
    within 2 127 (t.rd (R.CAN_BTNOM_SEG2 c)), within 1 (t.rd (R.CAN_BTNOM_SEG2 c)) (t.rd (R.CAN_BTNOM_SJW c)),
    within 1 32 (t.rd (R.CAN_BTDATA_BRP c)), within 1 31 (t.rd (R.CAN_BTDATA_SEG1 c)), within 1 15 (t.rd (R.CAN_BTDATA_SEG2 c)),
    within 1 (t.rd (R.CAN_BTDATA_SEG2 c)) (t.rd (R.CAN_BTDATA_SJW c)), decide (80 ≤ nq), decide (10 ≤ dq), decide (dq ≤ nq),
    t.rd (R.CAN_CFG_MODE c) != 2 || priv]

/-- Harp outputs. -/
def harpOutOk (t : State) (n : Nat) : Bool :=
  let tpw := t.rd (R.HARP_OUT_TPW n)
  let fbt := t.rd (R.HARP_OUT_FBTIME n)
  let fben := t.is (R.HARP_OUT_FBEN n)
  allOf [!fben || within 1 511 fbt,
    tpw == 0 || (within 5 200 tpw && within 10 2000 (t.rd (R.HARP_OUT_TPPER n)) && fben && fbt < tpw)]

/-- Harp and safety, and the arbiter. -/
def safetyOk (t : State) : Bool :=
  let func (i : Nat) := t.rdBit R.HARP_CFG_FUNC i
  let pa := t.is R.HARP_CFG_PAIRA
  let pb := t.is R.HARP_CFG_PAIRB
  allOf [decide (t.rd R.HARP_CFG_FILT ≤ 10), !(pa || pb) || within 1 1000 (t.rd R.HARP_CFG_DISC),
    !pa || func 0 == func 1, !pb || func 2 == func 3, allUpTo 4 (harpOutOk t),
    within 10 1800 (t.rd R.SAFE_CFG_DEGRADE_TIME), within 10 60000 (t.rd R.SAFE_CFG_SS1_TIME),
    t.is R.OWN_CFG_FAILMAX, t.is R.OWN_CFG_UNATTR_WIN, within 10 1000 (t.rd R.OWN_CFG_REJOIN_TO)]

/-- Ethernet, PTP and time bases (R341, R342). -/
def netOk (t : State) : Bool :=
  let sgn (lo hi : Int) (f : Field) : Bool := decide (lo ≤ t.signedRd f) && decide (t.signedRd f ≤ hi)
  let anyRen := (List.range 8).any (fun p => gridPort t .A p && t.is (R.GRID_REST_REN .A p))
  allOf [allUpTo 2 (fun p => !(t.is (R.ETH_CFG_IF p) && t.rd (R.ETH_CFG_SPEED p) == 3)), t.rd R.PTP_CFG_ROLE != 3,
    !t.is R.PTP_CFG_PROFILE || (t.rd R.PTP_CFG_ROLE == 1 && !t.is R.PTP_CFG_TRANS && t.is R.PTP_CFG_DELAY),
    sgn (-7) 4 R.PTP_INT_LOGSYNC, sgn (-3) 4 R.PTP_INT_LOGANN, sgn (-7) 6 R.PTP_INT_LOGDREQ,
    within 2 10 (t.rd R.PTP_INT_ANNTO), within 20 65535 (t.rd R.SYNC_CFG_SYNC_THR), within 3 255 (t.rd R.SYNC_CFG_LOSS),
    t.is R.SYNC_CFG_STEPTHR, !(t.is R.PTP_CFG_TRANS && anyRen) || t.is R.REST_ETYPE_REST_UDP,
    decide (t.rd R.REST_Q_REST_LNCH ≤ 999), t.rd R.PPS_CFG_OMODE != 3, within 1 500 (t.rd R.PPS_CFG_PPSW)]

/-! ### Clock outputs (R363, R364) -/

/-- A CMOS format fits the bank's sensed level; LVDS has no DRV above 1. `k` is the bank. -/
def formatOk (t : State) (k fmt drv : Nat) : Bool :=
  match fmt with
  | 1 => !bitOf t.rst.bank33 k
  | 2 => bitOf t.rst.bank33 k
  | 3 => drv < 2
  | _ => true

/-- CKOi: its divider or synthesiser is in range, and a CMOS output stays at or below 50 MHz. -/
def ckoOk (t : State) (i : Nat) : Bool :=
  let fmt := t.rd (R.CKO_CFG_FMT i)
  let div := t.rd (R.CKO_CFG_DIV i)
  let n := t.rd (R.SYN_N (8 + i))
  let cmos := fmt == 1 || fmt == 2
  fmt == 0 || (formatOk t 7 fmt (t.rd (R.CKO_CFG_DRV i)) && (match t.rd (R.CKO_CFG_SRC i) with
    | 0 => true
    | 1 => within 8 200 n && (!cmos || 256 ≤ 16 * n + t.rd (R.SYN_F (8 + i)))
    | 2 => within 4 500 div && (!cmos || 10 ≤ div)
    | _ => within 2 250 div && (!cmos || 5 ≤ div)))

/-- MCLKg: with SRC = 1 its synthesiser is in range. -/
def mclkOk (t : State) (g : Nat) : Bool :=
  formatOk t (if g < 4 then 2 else 3) (t.rd (R.MCLK_CFG_FMT g)) (t.rd (R.MCLK_CFG_DRV g))
    && (!t.is (R.SGRP_CLK_SRC .A g) || within 32 160 (t.rd (R.SYN_N g)))

/-- Clock registers. -/
def clocksOk (t : State) : Bool :=
  allOf [!t.is R.VAT_SSC_SSEN || within 5 20 (t.rd R.VAT_SSC_DEPTH), allUpTo 4 (ckoOk t), allUpTo 8 (mclkOk t)]

/-- The recorder (R424, R426). -/
def recorderOk (t : State) : Bool :=
  let nch := t.rd R.REC_CFG_NCH
  let frame := 2 + (nch + 1) / 2
  let slots := (0x100000 / 2 ^ t.rd R.REC_CFG_SEGS - 32) / (4 * frame)
  !t.is R.REC_CFG_EN || allOf [within 1 32 nch, t.is R.REC_POST_POST,
    decide (t.rd R.REC_CFG_PRE + t.rd R.REC_POST_POST ≤ slots),
    allUpTo nch (fun c => sourceOk (t.rd ⟨R.REC_CH (c / 4), 8 * (c % 4), 8⟩) false)]

/-- A channel is privileged: its catalogue holds a receive signal with CLASS 1 (R312). -/
def privileged (cats : List RawCat) (c : Nat) : Bool :=
  cats.any (fun r => r.chan == c && r.entries.any (fun e => !e.transmit && e.sigs.any (fun q => q.cls == 1)))

/-- The catalogues whose form is right. -/
def readCats (rs : List WheelRec) : List RawCat := (ofType rs 0x0020).filterMap parseCat

/-- Check 12. -/
def check12 (s : State) (rs : List WheelRec) : Bool :=
  targetsOk rs && (match imageRegs rs with
    | none => false
    | some regs =>
      let t := trialState s regs
      allOf [portWordsOk t regs, vatValuesOk t, allUpTo 6 (fun c => canOk t (privileged (readCats rs) c) c), safetyOk t, netOk t,
        clocksOk t, recorderOk t])

/-! ## Ports, legs and links (code 0x0B) -/

/-- The numbers of legs a type may own (R14). -/
def legsAllowed (ty n : Nat) : Bool :=
  match ty with
  | 1 => within 3 4 n
  | 2 => n == 3
  | 3 | 4 => within 1 4 n
  | 5 => within 2 3 n
  | _ => n == 0

/-- Slot `k` of port `p` is filled. -/
def slotFilled (t : State) (p k : Nat) : Bool := t.is ⟨R.PORT_LEGS .A p, 8 * k + 7, 1⟩

/-- No slot is empty below a filled one. -/
def slotsPacked (t : State) (p : Nat) : Bool := allUpTo 3 (fun k => slotFilled t p k || !slotFilled t p (k + 1))

/-- R16 and R18 for one port. -/
def portFormOk (t : State) (p : Nat) : Bool :=
  let ty := t.rd (R.PORT_CFG_TYPE .A p)
  let q := t.rd (R.PORT_CFG_LINK .A p)
  let linked := if t.is (R.PORT_CFG_LNK_EN .A p) then
      allOf [q != p, ty == 2, t.rd (R.PORT_CFG_TYPE .A q) == 2, t.is (R.PORT_CFG_LNK_EN .A q), t.rd (R.PORT_CFG_LINK .A q) == p,
        t.is (R.PORT_CFG_ROLE .A p) == decide (q < p), t.rd (R.PORT_FPCFG_FP .A p) == t.rd (R.PORT_FPCFG_FP .A q)]
    else !t.is (R.PORT_CFG_ROLE .A p)
  allOf [decide (ty < 6), linked, ty == 0 || (slotsPacked t p && legsAllowed ty (portLegs t .A p).length)]

/-- A linked secondary's carrier settings equal its primary's (R205). -/
def carriersEqual (t : State) (p : Nat) : Bool :=
  let q := primaryOf t .A p
  [R.PORT_CARCFG_MODE .A, R.PORT_CARCFG_TICKSEL .A, R.PORT_CARCFG_RELSEL .A, R.PORT_PERIOD_PERIOD .A, R.PORT_PERLIM_PERMIN .A,
    R.PORT_PERLIM_PERMAX .A].all (fun f => t.rd (f p) == t.rd (f q))

/-- Fault patterns (R163, R236, R264). -/
def patternOk (t : State) (p : Nat) : Bool :=
  let fp := t.rd (R.PORT_FPCFG_FP .A p)
  let ty := t.rd (R.PORT_CFG_TYPE .A p)
  allOf [fp != 3, fp == 0 || !(ty == 1 || ty == 3 || ty == 4), t.rd ⟨R.OWN_FP, 2 * p, 2⟩ == fp]

/-- The dead time of a leg in ns (LEGn_CFG.TDT). -/
def deadNs (t : State) (n : Nat) : Nat := [200, 300, 400, 600].getD (t.rd (R.LEG_CFG_TDT .A n)) 0

/-- R233 for every leg: TBS_REF is at least TDT + 200 ns. -/
def refreshLenOk (t : State) (n : Nat) : Bool := decide (deadNs t n + 200 ≤ 8 * t.rd (R.DLR_CFG_TBS_REF .A n))

/-- R233 for leg `n` of port `p`. -/
def refreshOk (t : State) (p n : Nat) : Bool :=
  let ref := 8 * t.rd (R.DLR_CFG_TBS_REF .A n)
  let tc := t.rd (R.PORT_PERLIM_PERMAX .A p) * (if t.is (R.PORT_CARCFG_MODE .A p) then 2 else 4)
  !t.is (R.DLR_CFG_CLASS .A n) || (tc ≤ 1000 * t.rd (R.DLR_CFG_TBS_MAX .A n) + ref && t.rd (R.PORT_FPCFG_FP .A p) != 2)

/-- The port of each GRAPH record. -/
def graphPorts (rs : List WheelRec) : List Nat := (ofType rs 0x0010).map (fun r => getBits (r.body.headD 0) 8 3)

/-- Check 13. -/
def check13 (t : State) (rs : List WheelRec) : Bool :=
  allOf [allUpTo 8 (portFormOk t), allUpTo 8 (carriersEqual t), allUpTo 8 (patternOk t),
    noRepeat ((List.range 8).flatMap (portLegs t .A)), allUpTo 32 (refreshLenOk t), allUpTo 8 (fun p => (portLegs t .A p).all (refreshOk t p)),
    (graphPorts rs).all (fun p => t.is (R.PORT_CFG_TYPE .A p))]

/-! ## SAFE flags (code 0x0D; R46) -/

/-- A REGIMG record that writes the register must be a safety record: the port, leg assignment, carrier, period limit, blanking,
fault pattern and drive guard registers, trips, the freshness and freeze monitors, pairs, position inputs, firewall regions,
driver links, OWN_CFG, OWN_FP, the Harp and safety region, and a privileged channel's CAN settings (R46, R186, R193, R224, R240,
R264, R331, R410). -/
def needsSafe (priv : Nat → Bool) (a : Nat) : Bool :=
  let off := a - 0x50000000
  if 0x50000000 ≤ a then
    (off < 0x04002000 && ([0x000, 0x004, 0x010, 0x018, 0x01C, 0x040].contains (off % 0x400) || 0x380 ≤ off % 0x400))
      || (0x04020900 ≤ off && off < 0x04020980)
      || (0x04100000 ≤ off && off < 0x04101200 && off % 0x40 == 8)
      || (0x04101800 ≤ off && off < 0x04101A00)
      || (0x04202000 ≤ off && off < 0x04202200)
      || (0x04400000 ≤ off && off < 0x04401000)
      || (0x04600000 ≤ off && off < 0x04600400 && off % 0x20 == 0)
  else
    a == R.OWN_CFG || a == R.OWN_FP || (0x40030000 ≤ a && a < 0x40040000)
      || (0x40100000 ≤ a && a < 0x40106000 && a % 0x1000 < 0x10 && priv ((a - 0x40100000) / 0x1000))

/-- Check 15. -/
def check15 (rs : List WheelRec) : Bool :=
  let priv := privileged (readCats rs)
  rs.all (fun r => r.safe || (match r.typ with
    | 0x0001 => ((regImg r).getD []).all (fun q => !needsSafe priv q.1)
    | 0x0020 => (parseCat r).all (fun c => c.entries.all (fun e => e.sigs.all (fun q => q.cls != 1)))
    | _ => true))

/-! ## Absent blocks (code 0x0E; R4) -/

/-- Check 16. -/
def check16 (t : State) : Bool :=
  t.variant.metered || allOf [allUpTo 64 (fun n => !t.is (R.SLICE_CAL_GCAL_EN .A n)),
    allUpTo 16 (fun k => t.rd (R.PP_CFG_SRC_A .A k) != 0x80 && t.rd (R.PP_CFG_SRC_B .A k) != 0x80),
    allUpTo 32 (fun c => t.rd ⟨R.REC_CH (c / 4), 8 * (c % 4), 8⟩ != 0x80),
    allUpTo 1024 (fun k => t.rd (R.SIGDEF_KIND k) != 3
      || (let a := t.rd (R.SIGDEF_ADDR_VAL k); a < 0x70000000 || 0x70011000 ≤ a))]

end Sys2Proof.Machine
end

