-- ==== Sys2Proof/Machine/WheelBlocks.lean ====
section
/-! DEFINITION. What the library requires of an instance's entry and parameters (R35, R101, R107, R108 and the block
descriptions), and TABLE, ramp profile and graph rules that need only one graph: part of check 14 (code 0x0C). -/

namespace Sys2Proof.Machine

open Sys2Proof

/-! ## Instance entries -/

/-- NIN, NOUT and NPAR are the library's, reserved bits are zero, and only optional inputs are unconnected. -/
def entryOk (b : RawBlock) : Bool :=
  match blockInfo b.btype with
  | none => false
  | some x =>
    allOf [getBits b.head 6 2 == 0, b.ins.length == x.nin, getBits b.head 12 4 == x.nout, b.pars.length == x.npar,
      b.ins.all (fun w => getBits w 16 16 == 0),
      allUpTo b.ins.length (fun i => (nth b.inputs i none).isSome || bitOf x.opt i)]

/-- Every connected input names an output of the same graph. -/
def refsOk (g : RawGraph) : Bool := g.blocks.all (fun b => b.inputs.all (fun r => r.all (fun q => g.hasOut q.1 q.2)))

/-! ## Parameters -/

/-- A gain word's reserved bits are zero (R101). -/
def gainOk (w : Word) : Bool := getBits w 21 11 == 0

/-- A gain in [0, 1) (R114). -/
def gainBelowOne (w : Word) : Bool := 0 ≤ gainM w && (gainE w ≤ 0 || gainM w * 2 ^ (gainE w).toNat < 32768)

def is50or60 (w : Word) : Bool := w == F32.ofNat 50 || w == F32.ofNat 60

/-- Only bits of `mask` are set. -/
def onlyBits (w : Word) (mask : Nat) : Bool := Nat.land w.toNat mask == w.toNat

/-- PID (R113, R114). -/
def pidParsOk (p : Nat → Word) : Bool :=
  allOf [[0, 1, 2, 3, 4].all (fun i => gainOk (p i)), gainBelowOne (p 3), decide (signedOf 16 (p 5).toNat ≤ signedOf 16 (p 6).toNat),
    onlyBits (p 7) 7, getBits (p 7) 0 2 != 3]

/-- SETP (R112). -/
def setpParsOk (p : Nat → Word) : Bool :=
  onlyBits (p 0) 0x13F03 && fPos (F32.sub (p 2) (p 1)) && (bitOf (p 0).toNat 0 || getBits (p 0) 8 6 < 8)

/-- MON (R120). -/
def monParsOk (p : Nat → Word) : Bool :=
  let q := getBits (p 0) 16 7
  allOf [onlyBits (p 0) 0x7FFF03, getBits (p 0) 0 2 != 3, getBits (p 0) 8 8 != 0, q < 64 || q == 0x7F]

/-- The blocks of the grid and power chapters. -/
def powerParsOk (bt : Nat) (p : Nat → Word) : Bool :=
  match bt with
  | 0x33 => allOf [fWithin (1, 10) (30, 1) (p 0), fWithin (1, 1) (1000, 1) (p 1), fPos (p 2), is50or60 (p 3)]
  | 0x34 => allOf [fNonNeg (p 0), fNonNeg (p 1), is50or60 (p 2)]
  | 0x35 => allOf [fWithin (0, 1) (1, 2) (p 0), fWithin (0, 1) (1, 2) (p 1), fPos (p 2)]
  | 0x36 => allOf [fPos (p 0), fNonNeg (p 1), F32.le (p 1) (p 0), fNonNeg (p 2), decide ((p 3).toNat ≤ 2)]
  | 0x37 => fWithin (1, 1000) (3600, 1) (p 0)
  | 0x38 => allOf [fWithin (349, 10000) (3491, 10000) (p 0), fWithin (2, 100) (1, 10) (p 1), fWithin (1, 100) (5, 100) (p 2),
      fWithin (5, 100) (5, 10) (p 3), fWithin (5, 100) (1, 1) (p 4)]
  | 0x39 => fPos (p 0) && fPos (p 1)
  | 0x3B => allOf [fNonNeg (p 0), fNonNeg (p 1), fWithin (1, 2) (100, 1) (p 2), fPos (p 3)]
  | 0x3C => allOf [fPos (p 0), fPos (p 1), fPos (p 2)]
  | 0x3E => fWithin (1, 100) (1, 2) (p 2) && fWithin (1, 100) (5, 1) (p 3)
  | _ => true

/-- An instance's parameters lie in the ranges stated for its type. -/
def parsOk (b : RawBlock) : Bool :=
  let p (i : Nat) : Word := nth b.pars i 0
  let n := (p 0).toNat
  match b.btype with
  | 0x00 => n < 2
  | 0x0C => fNonNeg (p 0)
  | 0x0E => n < 4
  | 0x12 => F32.lt (p 1) (p 0)
  | 0x15 => within 1 64 n
  | 0x1A => fPos (p 0)
  | 0x1B => within 1 256 n
  | 0x1D => fNonNeg (p 0) && fNonNeg (p 1)
  | 0x1F => n < 3
  | 0x22 => !F32.isZero (p 0)
  | 0x25 => [0, 1, 2, 3].all (fun i => fPos (p i))
  | 0x26 => onlyBits (p 0) 0xFF07 && within 1 64 (getBits (p 0) 8 8)
  | 0x27 => onlyBits (p 0) 0x13F
  | 0x28 => onlyBits (p 0) 0x3F
  | 0x29 => setpParsOk p
  | 0x2A => pidParsOk p
  | 0x2B | 0x2C => b.pars.all gainOk
  | 0x30 => n < 3
  | 0x31 => fPos (p 1)
  | 0x32 => n < 8
  | 0x3F => monParsOk p
  | bt => powerParsOk bt p

/-! ## Tables named by blocks (R38, R118, R190) -/

/-- A table of a kind, in binary32. -/
def tableIs (ts : List TableDef) (kind : Nat) (id : Word) : Bool := (findTable ts id.toNat).any (fun t => t.kind == kind && t.fmt == 1)

def sameGrid (ts : List TableDef) (a b : Word) : Bool :=
  match findTable ts a.toNat, findTable ts b.toNat with
  | some x, some y => x.xs == y.xs && x.ys == y.ys
  | _, _ => false

def blockTablesOk (ts : List TableDef) (b : RawBlock) : Bool :=
  let p (i : Nat) : Word := nth b.pars i 0
  match b.btype with
  | 0x1C => tableIs ts 0 (p 0)
  | 0x3A => tableIs ts 1 (p 0)
  | 0x3D => tableIs ts 1 (p 0) && tableIs ts 1 (p 1) && sameGrid ts (p 0) (p 1)
  | _ => true

/-- The tables an instance names. -/
def blockTableIds (b : RawBlock) : List Nat :=
  match b.btype with
  | 0x1C | 0x3A => [(nth b.pars 0 0).toNat]
  | 0x3D => [(nth b.pars 0 0).toNat, (nth b.pars 1 0).toNat]
  | _ => []

/-! ## The ramp profile (R358) -/

/-- Adjacent pairs of a list. -/
def adjacent {α : Type} (l : List α) : List (α × α) := l.zip (l.drop 1)

/-- The profile's table and its rules. -/
def rampTableOk (t : TableDef) : Bool :=
  let xy := t.xs.zip t.vals
  allOf [t.kind == 0, t.fmt == 1, F32.isZero (t.xs.headD 0), fWithin (1000, 1) (1000000, 1) (t.xs.getLastD 0),
    t.vals.all (fun y => F32.le (F32.abs y) (F32.ofRat 5 100)), (t.vals.headD 0).toNat == (t.vals.getLastD 0).toNat,
    (adjacent xy).all (fun q => F32.le (F32.abs (F32.sub q.2.2 q.1.2)) (F32.mul (F32.ofRat 5 100000) (F32.sub q.2.1 q.1.1)))]

/-- 1 + y as a fraction. -/
def onePlus (y : Word) : Nat × Nat :=
  match F32.unpack y with
  | .fin neg m e => let d := 2 ^ (-e).toNat
    (if neg then d - m else d + m, d)
  | _ => (1, 1)

/-- The ramp profile's table, where it is on. -/
def rampTable (t : State) (ts : List TableDef) : Option TableDef :=
  if t.is R.PLLT_RAMP_EN then findTable ts (t.rd R.PLLT_RAMP_TABLE_ID) else none

/-- 1 + y at the largest and at the smallest y. -/
def rampHigh (t : State) (ts : List TableDef) : Nat × Nat :=
  match rampTable t ts with
  | some x => onePlus (x.vals.foldl F32.max (x.vals.headD 0))
  | none => (1, 1)

def rampLow (t : State) (ts : List TableDef) : Nat × Nat :=
  match rampTable t ts with
  | some x => onePlus (x.vals.foldl F32.min (x.vals.headD 0))
  | none => (1, 1)

def rampOk (t : State) (ts : List TableDef) : Bool :=
  let hi := rampHigh t ts
  let lo := rampLow t ts
  !t.is R.PLLT_RAMP_EN || ((rampTable t ts).any rampTableOk && allUpTo 8 (fun p => !t.is (R.PORT_CFG_TYPE .A p)
    || (decide (2500 * hi.1 ≤ tickCycles t .A p (t.rd (R.PORT_PERLIM_PERMIN .A p)) * hi.2)
      && decide (tickCycles t .A p (t.rd (R.PORT_PERLIM_PERMAX .A p)) * lo.2 ≤ 62500 * lo.1))))

/-! ## Rules of one graph against the registers -/

/-- The port's nominal tick period in binary32 seconds (R99). -/
def nominalTs (t : State) (p : Nat) : Word := F32.ofRat (tickCycles t .A p (t.rd (R.PORT_PERIOD_PERIOD .A p))) 500000000

/-- The linked secondary of a port. -/
def secondaryOf (t : State) (p : Nat) : Option Nat := if isSecondary t .A p then none else partner t .A p

/-- THERM's step is short enough (R191). -/
def thermOk (ts : Word) (p : Nat → Word) : Bool :=
  F32.le ts (F32.mul (F32.mul F32.half (p 0)) (p 1))
    && F32.le ts (F32.div (F32.mul F32.half (p 3)) (F32.add (F32.div F32.one (p 0)) (F32.div F32.one (p 2))))

/-- PWMOUT (R117, R212): which duties are connected, and which ports it may name. -/
def pwmoutOk (t : State) (g : RawGraph) (b : RawBlock) : Bool :=
  let q := (nth b.pars 0 0).toNat
  let on (i : Nat) := (nth b.inputs i none).isSome
  allOf [q == g.port || secondaryOf t g.port == some q, allUpTo 4 (fun k => on k == (slotLeg t .A q k).isSome),
    q == g.port || !on 4]

/-- One instance against the registers: SRC (R110), DTC (R218), THERM (R191), PWMOUT (R117), POSIN (R187), and
MON's channel QCH (R54). -/
def instOk (t : State) (g : RawGraph) (b : RawBlock) : Bool :=
  let p (i : Nat) : Word := nth b.pars i 0
  match b.btype with
  | 0x25 => thermOk (nominalTs t g.port) p
  | 0x26 =>
    let i := getBits (p 0) 0 3
    (p 1).toNat == t.rd (R.POS_COUNTS_COUNTS .A i) && t.rd (R.POS_CFG_PORT .A i) == g.port
  | 0x27 => t.is (R.SLICE_CFG_PRESET .A (getBits (p 0) 0 6))
  | 0x31 => allUpTo 3 (fun k => (slotLeg t .A g.port k).any (fun n => p 0 == F32.ofRat (deadNs t n) 1000000000))
  | 0x32 => pwmoutOk t g b
  | 0x3F => let q := getBits (p 0) 16 7
    q == 0x7F || t.is (R.SLICE_CFG_PRESET .A q)
  | _ => true

/-- One PWMOUT for the graph's port and for its linked secondary each. -/
def pwmoutsOk (t : State) (g : RawGraph) : Bool :=
  let qs := (g.ofBtype 0x32).map (fun b => (nth b.pars 0 0).toNat)
  noRepeat qs && qs.contains g.port && (secondaryOf t g.port).all (fun q => qs.contains q)

/-- The channels that SRC instances of the graph read. -/
def graphChannels (g : RawGraph) : List Nat := (g.ofBtype 0x27).map (fun b => getBits (nth b.pars 0 0) 0 6)

def parOf (b : RawBlock) (i : Nat) : Word := nth b.pars i 0

/-- R152 and R155 for the graph of a GRID port. -/
def gridGraphOk (t : State) (g : RawGraph) : Bool :=
  let fnom := F32.ofNat (nominalHz t .A g.port)
  let w0 := F32.mul F32.twoPi fnom
  match g.ofBtype 0x33, g.ofBtype 0x34, g.ofBtype 0x38 with
  | [vsm], [dr], [_] =>
    let pf := F32.div (F32.mul (parOf dr 0) (parOf vsm 2)) w0
    let qv := F32.div (F32.mul (parOf dr 1) (parOf vsm 2)) (parOf dr 3)
    let damp := F32.div (F32.mul (nominalTs t g.port) (parOf vsm 1)) (F32.mul F32.two (parOf vsm 0))
    allOf [parOf vsm 3 == fnom, parOf dr 2 == fnom, (g.ofBtype 0x3E).all (fun b => parOf b 0 == fnom),
      fWithin (0, 1) (12, 100) pf, fWithin (0, 1) (12, 100) qv, F32.le damp F32.half,
      parOf dr 3 == t.word (R.GRID_VNOM .A g.port)]
  | _, _, _ => false

/-- The blocks that only a GRID port's graph may hold (R152). -/
def noGridBlocks (g : RawGraph) : Bool := g.blocks.all (fun b => !([0x33, 0x34, 0x35, 0x36, 0x38].contains b.btype))

def graphOk (t : State) (ts : List TableDef) (g : RawGraph) : Bool :=
  allOf [g.blocks.all entryOk, refsOk g, g.blocks.all parsOk, g.blocks.all (blockTablesOk ts), g.blocks.all (instOk t g),
    pwmoutsOk t g, !isSecondary t .A g.port, if gridPort t .A g.port then gridGraphOk t g else noGridBlocks g]

/-! ## Rules of the guards (R158, R163, R194) -/

/-- Feedback channel bytes of a register: the enabled channels. -/
def enabledChannels (w : Word) : List Nat :=
  (List.range 4).filterMap (fun k => if bitOf w.toNat (8 * k + 7) then some (getBits w (8 * k) 6) else none)

def gridGuardOk (t : State) (p : Nat) (g : RawGraph) : Bool :=
  let ch := graphChannels g
  let ics := enabledChannels (t.word (R.GRID_ICH .A p))
  allOf [(enabledChannels (t.word (R.GRID_VCH .A p)) ++ ics).all (fun c => ch.contains c), !ics.isEmpty,
    (g.inst (t.rd (R.GRID_INST_RAMPI .A p))).any (fun b => b.btype == 0x37 && fWithin (1, 10) (10, 1) (parOf b 0)),
    !t.is (R.GRID_INST_TRIP_EN .A p) || g.hasOut (t.rd (R.GRID_INST_TRIPI .A p)) (t.rd (R.GRID_INST_TRIPO .A p)),
    !t.is (R.GRID_REST_RSRC .A p) || t.is (R.GRID_REST_REN .A p)]

/-- The channels of a mask register pair. -/
def maskChannels (lo hi : Word) : List Nat := (List.range 64).filter (fun n => if n < 32 then bitOf lo.toNat n else bitOf hi.toNat (n - 32))

def driveGuardOk (t : State) (p : Nat) (g : RawGraph) : Bool :=
  let ch := graphChannels g
  let im := maskChannels (t.word (R.DRV_IMASK_LO .A p)) (t.word (R.DRV_IMASK_HI .A p))
  let vm := maskChannels (t.word (R.DRV_VMASK_LO .A p)) (t.word (R.DRV_VMASK_HI .A p))
  allOf [!im.isEmpty, (im ++ vm).all (fun c => ch.contains c),
    g.hasFOut (t.rd (R.DRV_INST_EFFI .A p)) (t.rd (R.DRV_INST_EFFO .A p)),
    !t.is (R.DRV_CFG_PEN .A p) || ((g.ofBtype 0x26).any (fun b => getBits (parOf b 0) 0 3 == t.rd (R.DRV_CFG_PSRC .A p))
      && g.hasFOut (t.rd (R.DRV_INST_WOI .A p)) (t.rd (R.DRV_INST_WOO .A p))),
    !t.is (R.DRV_OBST_TRIP_EN .A p) || g.hasOut (t.rd (R.DRV_OBST_TRIPI .A p)) (t.rd (R.DRV_OBST_TRIPO .A p))]

/-- Every port with a guard has a graph that its guard's registers fit. (DEDUCED: notes/assumptions/42.md.) -/
def guardsOk (t : State) (gs : List RawGraph) : Bool :=
  allUpTo 8 (fun p =>
    let g := gs.find? (fun g => g.port == p)
    if gridPort t .A p then g.any (gridGuardOk t p) else if drivePort t .A p then g.any (driveGuardOk t p) else true)

/-- A position input whose freeze monitor is on has its move qualifier (R186). -/
def qualifiersOk (t : State) (gs : List RawGraph) : Bool :=
  allUpTo 8 (fun i => !t.is (R.POS_FZ_FZ_EN .A i) || gs.any (fun g => g.port == t.rd (R.POS_CFG_PORT .A i)
    && g.hasOut (t.rd (R.POS_FZ_MQI .A i)) (t.rd (R.POS_FZ_MQO .A i))))

end Sys2Proof.Machine
end

