-- ==== Sys2Proof/Machine/WheelGraphs.lean ====
section
/-! DEFINITION. The rest of check 14 of R41 (code 0x0C): PREDICT records (R37, R135), graphs and engine-local memory (R35, R91,
R93, R94, R128, R140, R470), firewall regions (R406), catalogues (R39, R311, R320-R326, R329, R395), and check 17 (R40). -/

namespace Sys2Proof.Machine

open Sys2Proof

/-! ## PREDICT (R37, R135) -/

/-- A SRC instance in ARRIVAL mode (R97, R110). -/
def arrivalSrc (b : RawBlock) : Bool := b.btype == 0x27 && bitOf (parOf b 0).toNat 8

/-- The X output of instance `i` drives REF or FB of a PID directly. -/
def drivesPid (g : RawGraph) (i : Nat) : Bool :=
  (g.ofBtype 0x2A).any (fun b => (b.inputs.take 2).any (fun r => r == some (i, 0)))

/-- Twice the cycles of the modulator clock in a channel's group delay and one output period (R56), the 12 ns apart. -/
def delayHalves (t : State) (n : Nat) : Nat :=
  let osr := chanOsr t .A n
  3 * (osr - 1) + (if t.rd (R.SLICE_CFG_PRESET .A n) = 4 then 6 * osr else 0) + 2 * osr

/-- A predicted channel's sample of one tick is known before the next tick begins. -/
def predictInTime (t : State) (ts : List TableDef) (p n : Nat) : Bool :=
  let k := delayHalves t n
  let g := n / 8
  let tick := tickCycles t .A p (t.rd (R.PORT_PERIOD_PERIOD .A p))
  let hi := rampHigh t ts
  if t.is (R.SGRP_CLK_SRC .A g) then
    decide (10 * k * (16 * t.rd (R.SYN_N g) + t.rd (R.SYN_F g)) * hi.1 + 3072 * hi.1 < 512 * tick * hi.2)
  else decide (k * t.rd (R.SGRP_CLK_DIV .A g) * hi.2 + 12 * hi.1 < 2 * tick * hi.2)

/-- One entry. -/
def predictEntryOk (t : State) (ts : List TableDef) (g : RawGraph) (d : PredDef) : Bool :=
  match g.inst d.inst with
  | none => false
  | some b => allOf [arrivalSrc b, decide (d.ptype ≤ 3), decide (d.tol ≤ 16383), !d.fold || drivesPid g d.inst,
      predictInTime t ts g.port (getBits (parOf b 0) 0 6)]

def fPosFinite (w : Word) : Bool := fPos w && F32.finite w

/-- MODEL entry `m` of the graph in engine `c`, slot `k`. -/
def modelOk (t : State) (g : RawGraph) (m : Nat) (d : PredDef) : Bool :=
  let c := g.engine
  let k := g.gslot
  allOf [fPosFinite d.ind, t.is (R.MDL_CFG_EN .A c k m), fPosFinite (t.word (R.MDL_IFS .A c k m)), g.hasOut d.eInst d.eOut,
    g.hasOut (t.rd (R.MDL_CFG_VINST .A c k m)) (t.rd (R.MDL_CFG_VOUT .A c k m))]

/-- A graph's PREDICT record. -/
def predictOk (t : State) (ts : List TableDef) (g : RawGraph) (r : RawPredict) : Bool :=
  let ms := r.entries.filter (fun d => d.ptype == 3)
  allOf [decide (r.entries.length ≤ 16), noRepeat (r.entries.map (fun d => d.inst)), decide (ms.length ≤ 4),
    r.entries.all (predictEntryOk t ts g), ((List.range ms.length).zip ms).all (fun q => modelOk t g q.1 q.2),
    ((List.range g.blocks.length).zip g.blocks).all (fun q => !arrivalSrc q.2 || r.entries.any (fun d => d.inst == g.first + q.1))]

def predictOf (ps : List RawPredict) (g : RawGraph) : Option RawPredict :=
  ps.find? (fun r => r.engine == g.engine && r.gslot == g.gslot)

/-- The MODEL entries of the graph in a slot. -/
def modelCount (ps : List RawPredict) (c k : Nat) : Nat :=
  ((ps.filter (fun r => r.engine == c && r.gslot == k)).flatMap (fun r => r.entries.filter (fun d => d.ptype == 3))).length

/-- Every PREDICT record and every MODEL scaling set. -/
def predictsOk (t : State) (ts : List TableDef) (gs : List RawGraph) (ps : List RawPredict) : Bool :=
  allOf [noRepeat (ps.map (fun r => 4 * r.engine + r.gslot)),
    ps.all (fun r => gs.any (fun g => g.engine == r.engine && g.gslot == r.gslot)),
    gs.all (fun g => (predictOf ps g).all (predictOk t ts g)),
    allUpTo 8 (fun c => allUpTo 4 (fun k => allUpTo 4 (fun m => t.rd (R.MDL_CFG_DREF .A c k m) != 3
      && (!t.is (R.MDL_CFG_EN .A c k m) || decide (m < modelCount ps c k)))))]

/-! ## Engine-local memory (R93, R470) -/

def engineGraphs (gs : List RawGraph) (c : Nat) : List RawGraph := gs.filter (fun g => g.engine == c)

/-- The graphs of engine `e` that name `c` as FALLBACK. -/
def guestsOf (gs : List RawGraph) (c e : Nat) : List RawGraph :=
  (engineGraphs gs e).filter (fun g => g.fbEn && g.fallback == c && e != c)

/-- All guests of engine `c`, in the order of R470. -/
def engineGuests (gs : List RawGraph) (c : Nat) : List RawGraph := (List.range 8).flatMap (guestsOf gs c)

def blockOuts (b : RawBlock) : Nat := ((blockInfo b.btype).map (fun x => x.nout)).getD 0

/-- The words of an instance: descriptor, parameters, state and outputs. -/
def instWordsOf (b : RawBlock) : Nat := 4 + b.pars.length + stateWords b.btype b.pars + blockOuts b

/-- WSZ of a graph (R139). -/
def graphWsz (g : RawGraph) : Nat := (g.blocks.map (fun b => stateWords b.btype b.pars + blockOuts b)).sum

/-- Instances laid out one after another from word `off`; their inputs are renumbered from `old` to `new`. -/
def layBlocks (old new : Nat) : Nat → List RawBlock → List InstDef
  | _, [] => []
  | off, b :: bs =>
    let st := off + 4 + b.pars.length
    ⟨b.btype, b.inputs.map (fun r => r.map (fun q => (q.1 - old + new, q.2))), b.pars, off, off + 4, st, st + stateWords b.btype b.pars⟩
      :: layBlocks old new (off + instWordsOf b) bs

def graphWordsOf (g : RawGraph) : Nat := (g.blocks.map instWordsOf).sum

/-- A graph as it stands in one engine: the number of its first instance there, and its instances. -/
structure Placed where
  graph : RawGraph
  first : Nat
  defs : List InstDef
  deriving DecidableEq, Repr

/-- Graphs laid out one after another, numbered from `n`, from word `off`. -/
def layGraphs : Nat → Nat → List RawGraph → List Placed
  | _, _, [] => []
  | n, off, g :: gs => ⟨g, n, layBlocks g.first n off g.blocks⟩ :: layGraphs (n + g.blocks.length) (off + graphWordsOf g) gs

def totalBlocks (gs : List RawGraph) : Nat := (gs.map (fun g => g.blocks.length)).sum
def totalWords (gs : List RawGraph) : Nat := (gs.map graphWordsOf).sum

/-- Insert a number into a rising list, once. -/
def insertOnce (a : Nat) : List Nat → List Nat
  | [] => [a]
  | b :: l => if a < b then a :: b :: l else if a = b then b :: l else b :: insertOnce a l

/-- The table numbers that graphs' blocks name, rising. -/
def graphTables (gs : List RawGraph) : List Nat :=
  (gs.flatMap (fun g => g.blocks.flatMap blockTableIds)).foldl (fun l a => insertOnce a l) []

def tablesWords (ts : List TableDef) (ids : List Nat) : List Word := ids.flatMap (fun i => ((findTable ts i).map tableBody).getD [])

/-- One engine's memory: its own graphs, its tables, then the reserve: the guests and those of their tables that are not there
already. -/
structure EngineLay where
  own : List Placed
  guests : List Placed
  tables : List Word
  guestTables : List Word
  tableAt : Nat
  guestTableAt : Nat
  words : Nat
  deriving DecidableEq, Repr

def layEngine (gs : List RawGraph) (ts : List TableDef) (c : Nat) : EngineLay :=
  let own := engineGraphs gs c
  let guests := engineGuests gs c
  let ids := graphTables own
  let tw := tablesWords ts ids
  let gw := tablesWords ts ((graphTables guests).filter (fun i => !ids.contains i))
  let t0 := 2048 + totalWords own
  let g0 := t0 + tw.length
  let g1 := g0 + totalWords guests
  ⟨layGraphs 0 2048 own, layGraphs (totalBlocks own) g0 guests, tw, gw, t0, g1, g1 + gw.length⟩

/-! ## Whey banks (R139, R140) -/

def bankWords (gs : List RawGraph) : Nat := (gs.map (fun g => 2 * graphWsz g)).sum

/-- The first bank word of a graph in its own engine: slot order. -/
def ownBase (gs : List RawGraph) (g : RawGraph) : Nat := bankWords ((engineGraphs gs g.engine).filter (fun q => q.gslot < g.gslot))

/-- The first bank word of a graph in its fallback engine's reserve. -/
def guestBase (gs : List RawGraph) (g : RawGraph) : Nat :=
  bankWords (engineGraphs gs g.fallback) + bankWords ((engineGuests gs g.fallback).takeWhile (fun q => q != g))

/-! ## Load (R91, R109, R128) -/

/-- The cost of a graph in cycles: the overhead, its instances, and one cycle for each input converted (R104, R109). -/
def graphCycles (ts : List TableDef) (g : RawGraph) : Nat :=
  48 + (g.blocks.map (fun b => blockCycles ts b.btype b.pars
    + ((List.range b.ins.length).filter (fun i => match nth b.inputs i none with
        | none => false
        | some (j, o) => (g.inst j).any (fun q => outFmt q.btype q.pars o != inFmt b.btype i))).length)).sum

/-- 600 MHz × (2000 − this) / 2000 is the lowest instantaneous frequency (R357). -/
def spreadLoss (t : State) : Nat :=
  if !t.is R.VAT_SSC_SSEN then 0 else if t.is R.VAT_SSC_SSMODE then t.rd R.VAT_SSC_DEPTH else 2 * t.rd R.VAT_SSC_DEPTH

/-- A port's shortest tick in engine cycles at the lowest frequency, as a fraction: the part below. -/
def tickNum (t : State) (ts : List TableDef) (_p : Nat) : Nat := 500 * (rampHigh t ts).1 * 2000

/-- And the part above. -/
def tickDen (t : State) (ts : List TableDef) (p : Nat) : Nat :=
  tickCycles t .A p (t.rd (R.PORT_PERLIM_PERMIN .A p)) * (rampHigh t ts).2 * 600 * (2000 - spreadLoss t)

/-- The utilisation of graphs, as a fraction. -/
def utilisation (t : State) (ts : List TableDef) (gs : List RawGraph) : Nat × Nat :=
  gs.foldl (fun a g =>
    let n := graphCycles ts g * tickNum t ts g.port
    let d := tickDen t ts g.port
    (a.1 * d + n * a.2, a.2 * d)) (0, 1)

/-- At most 95 %. -/
def loadOk (t : State) (ts : List TableDef) (gs : List RawGraph) : Bool :=
  let u := utilisation t ts gs
  decide (100 * u.1 ≤ 95 * u.2)

/-! ## Graph rules over the whole wheel -/

/-- A graph's data fit the copy of one tick period (R128). -/
def copyOk (t : State) (ts : List TableDef) (g : RawGraph) : Bool :=
  decide (graphWsz g * tickNum t ts g.port ≤ 4 * tickDen t ts g.port)

/-- One engine (R35, R91, R94, R128, R140): FALLBACK is judged for the graphs with FB_EN = 1 alone. (DESIGN CHOICE: notes/assumptions/42.md.) -/
def engineOk (t : State) (ts : List TableDef) (gs : List RawGraph) (c : Nat) : Bool :=
  let own := engineGraphs gs c
  let guests := engineGuests gs c
  allOf [decide (own.length ≤ 4), noRepeat (own.map (fun g => g.gslot)), decide (totalBlocks own + totalBlocks guests ≤ 2048),
    decide ((layEngine gs ts c).words ≤ 32768), decide (bankWords own + bankWords guests ≤ 8192), loadOk t ts own,
    allUpTo 8 (fun e =>
      let q := guestsOf gs c e
      q.isEmpty || (decide (own.length + q.length ≤ 4) && loadOk t ts (own ++ q))),
    own.all (fun g => !g.fbEn || (g.fallback != c && copyOk t ts g))]

/-- What exists once in a wheel: a graph per port, a POSIN per input, a MON per quench channel, a table per number. -/
def uniqueOk (gs : List RawGraph) (ts : List TableDef) : Bool :=
  allOf [noRepeat (gs.map (fun g => g.port)),
    noRepeat (gs.flatMap (fun g => (g.ofBtype 0x26).map (fun b => getBits (parOf b 0) 0 3))),
    noRepeat ((gs.flatMap (fun g => (g.ofBtype 0x3F).map (fun b => getBits (parOf b 0) 16 7))).filter (fun n => n != 0x7F)),
    noRepeat (ts.map (fun x => x.id))]

/-- REST_LNCH is shorter than LEAD (15_network_time.md, restoration frames). -/
def launchOk (t : State) : Bool :=
  allUpTo 8 (fun p => !(gridPort t .A p && t.is (R.GRID_REST_RSRC .A p))
    || decide (t.rd R.REST_Q_REST_LNCH < 1000 * t.rd (R.GRID_PER_LEAD .A p)))

/-! ## Firewall regions (R406) -/

/-- The register addresses that a block of port `p`'s graph reads (R112, R155, R156, R160, R218, and the block table).
(DEDUCED: notes/assumptions/43.md.) -/
def blockReads (p : Nat) (b : RawBlock) : List Nat :=
  let n := (parOf b 0).toNat
  match b.btype with
  | 0x26 => let i := n % 8; [R.POS_COUNT .A i, R.POS_TEDGE .A i, R.POS_STAT .A i]
  | 0x27 => [R.SLICE_DATA .A (n % 64)]
  | 0x28 => [R.AX .A (n % 64)]
  | 0x29 => if bitOf n 0 then [R.AX .A (n / 256 % 64)] else []
  | 0x31 => [R.PORT_PERACT .A p, R.PORT_CARCFG .A p]
  | 0x34 => [R.GRID_DFR .A p]
  | 0x35 => [R.GRID_CFG .A p]
  | 0x38 => [R.GRID_VNOM .A p, R.GRID_CFG .A p]
  | _ => []

/-- DEDUCED: notes/assumptions/43.md. -/
def regionsOk (t : State) (gs : List RawGraph) : Bool :=
  gs.all (fun g => g.blocks.all (fun b => (blockReads g.port b).all (fun a =>
    fwAdmits t .A g.engine a && (!g.fbEn || fwAdmits t .A g.fallback a))))

/-! ## Catalogues -/

/-- The format of an output, where it exists. -/
def outputExists (gs : List RawGraph) (c i o : Nat) : Bool := (engineGraphs gs c).any (fun g => g.hasOut i o)

/-- SIGDEFk (R321). -/
def sigdefOk (t : State) (gs : List RawGraph) (k : Nat) : Bool :=
  let c := t.rd (R.SIGDEF_ENGINE k)
  let i := t.rd (R.SIGDEF_INST k)
  let a := t.rd (R.SIGDEF_ADDR_VAL k)
  let scale := t.word (R.SIGDEF_SCALE k)
  t.rd (R.SIGDEF_KIND k) == 0 || (F32.finite scale && !F32.isZero scale && (match t.rd (R.SIGDEF_KIND k) with
    | 1 => (engineGraphs gs c).any (fun g => (g.inst i).any (fun b => b.btype == 0))
    | 2 => outputExists gs c i (t.rd (R.SIGDEF_OUT k))
    | _ => (findReg a).isSome && !inWindow .B a))

/-- One signal of an entry (R39, R320, R321, R326). -/
def signalOk (t : State) (e : CanEntry) (q : CanSig) : Bool :=
  let k := q.signal - 0x1000
  let bits := if e.auth then 8 * (e.length - 12) else 8 * e.length
  allOf [within 1 64 q.len, decide (q.start + q.len ≤ bits), !e.express || q.cls == 1,
    match orderClass q.signal with
    | some c => !e.transmit && q.cls == c
    | none => decide (0x1000 ≤ q.signal) && decide (q.signal < 0x1400) && (match t.rd (R.SIGDEF_KIND k) with
      | 0 => false
      | 1 => !e.transmit
      | 2 => e.transmit
      | _ => e.transmit && decide (t.rd (R.SIGDEF_BITPOS k) + q.len ≤ 32))]

/-- One entry. -/
def entryRuleOk (t : State) (keys : List (Nat × Nat)) (e : CanEntry) : Bool :=
  allOf [e.sigs.all (signalOk t e), !e.auth || (e.fd && 16 ≤ e.length && keys.any (fun q => q.1 == t.rd (R.CAN_CFG_KEYID e.chan))),
    !(e.chan == 0 && e.ide && (e.id == 0x1B725300 || e.id == 0x1B725301))]

/-- A channel in mode `m` carries the entries. -/
def modeCarries (m : Nat) (es : List CanEntry) : Bool := !(m == 2 || m == 3) || es.all (fun e => !e.transmit)

/-- One CATALOGUE record. -/
def catOk (t : State) (keys : List (Nat × Nat)) (r : RawCat) : Bool :=
  allOf [decide (r.chan ≤ 5), decide (r.entries.length ≤ 64), decide ((r.entries.filter (fun e => e.express)).length ≤ 1),
    r.entries.all (entryRuleOk t keys), modeCarries (t.rd (R.CAN_CFG_MODE r.chan)) r.entries,
    noRepeat ((r.entries.filter (fun e => !e.transmit)).map (fun e => e.id + boolNat e.ide * 2 ^ 29)),
    !r.altEn || allOf [decide (r.alt ≤ 5), r.alt != r.chan, t.is (R.CAN_CFG_MODE r.alt),
      modeCarries (t.rd (R.CAN_CFG_MODE r.alt)) r.entries]]

def catsOk (t : State) (w : WheelImage) : Bool :=
  allOf [noRepeat (w.cats.map (fun r => r.chan)), w.cats.all (catOk t w.keys), allUpTo 1024 (sigdefOk t w.graphs)]

/-! ## Checks 14 and 17 -/

/-- Check 14, once every record has its form. -/
def check14 (t : State) (w : WheelImage) : Bool :=
  allOf [w.graphs.all (graphOk t w.tables), uniqueOk w.graphs w.tables, allUpTo 8 (engineOk t w.tables w.graphs),
    predictsOk t w.tables w.graphs w.preds, guardsOk t w.graphs, qualifiersOk t w.graphs, rampOk t w.tables, launchOk t,
    regionsOk t w.graphs, catsOk t w]

/-- A CANKEYS record stands in a plaintext wheel (check 17). -/
def keysInPlain (s : State) (k : Nat) (rs : List WheelRec) : Bool := !hdrEnc (wheelHeader s k) && !(ofType rs 0x0021).isEmpty

/-- The CANKEYS records have a form that the spec gives: one at most, of the length its COUNT says. -/
def keysFormOk (rs : List WheelRec) : Bool :=
  decide ((ofType rs 0x0021).length ≤ 1) && (ofType rs 0x0021).all (fun r => (parseCanKeys r).isSome)

end Sys2Proof.Machine
end

