-- ==== Sys2Proof/Machine/Load.lean ====
section
/-! DEFINITION. The end of LOADING (02_wheel.md R41-R44, 17_reset_and_start.md R382): the Starter checks the slots, applies an
accepted wheel to both vats, checks the stored patch, and the device becomes READY, or the start fails. -/

namespace Sys2Proof.Machine

open Sys2Proof

/-! ## Checks 1 to 17 of a slot (R41) -/

/-- Checks 12 to 17 on records whose types are known. -/
def recordsCode (s : State) (k : Nat) (rs : List WheelRec) : Option Nat :=
  let regs := (imageRegs rs).getD []
  let t := trialState s regs
  if !check12 s rs then some 0x0A
  else if !check13 t rs then some 0x0B
  else if !(imageRest rs regs).any (check14 t) then some 0x0C
  else if !check15 rs then some 0x0D
  else if !check16 t then some 0x0E
  else if keysInPlain s k rs then some 0x0F
  else if !keysFormOk rs then some Config.keysFormCode.toNat
  else none

/-- All checks: the code of the first that fails. -/
def wheelCode (s : State) (k : Nat) (r : FlashRead) : Option Nat :=
  match imageCode s k r with
  | some c => some c
  | none =>
    match wheelRecords s k with
    | none => some 0x08
    | some rs => if !typesOk rs then some 0x09 else recordsCode s k rs

/-- A start failure (R43, R381): logged, then a SYS reset with cause 0x0E. -/
def startFailure (s : State) : State := sysReset (s.event 0x01 0x0103 (getBits (s.regs.get R.START_STAT) 0 16)) 0x0E

/-! ## Rejection and acceptance (R42, R43, R391) -/

def rejField (k : Nat) : Field := if k = 0 then R.WHL_STAT_REJ0 else R.WHL_STAT_REJ1

/-- A slot is rejected with a code, logged. -/
def rejectSlot (s : State) (k c : Nat) : State := (s.wr (rejField k) c).event 0x02 0x0201 (k + c % 256 * 256)

/-- Ownership is fused at an acceptance in BLANK (R391): the state, and the code where the acceptance fails, as it does where a blow is
not made (R464). With the power lost POR is in force. (DEDUCED: notes/assumptions/44.md.) -/
def fuseOwner (s : State) (k : Nat) (r : FuseResult) : State × Option Nat :=
  if s.trust.life != 0 then (s, none) else
    match freeOwnerSlot s.trust with
    | none => (s, some Config.noSlotCode.toNat)
    | some i =>
      let s := modTrust s (fun t => fuseSlot t i (signerHash s k) r)
      let s := if blowMade r 2 then modTrust s (fun t => { t with ownedFuse := true }) else s
      if powerLost r then (brownOut s, some 0x06) else if fusedWhole r then (s, none) else (s, some 0x06)

/-- Check one slot: the state, and whether its wheel is accepted. -/
def judgeSlot (s : State) (k : Nat) (r : FlashRead) (fuse : FuseResult) : State × Bool :=
  match wheelCode s k r with
  | some c => (rejectSlot s k c, false)
  | none =>
    match fuseOwner s k fuse with
    | (s, some c) => (if s.dev = .off then s else rejectSlot s k c, false)
    | (s, none) => (s.wr (rejField k) 0, true)

/-- The slots whose headers pass, the preferred one first (R43 steps 1 and 2). -/
def eligibleSlots (s : State) (reads : Nat → FlashRead) : List Nat :=
  let ks := [0, 1].filter (fun k => (headerCode s k (reads k)).isNone)
  match ks with
  | [a, b] => if hdrVersion (wheelHeader s a) < hdrVersion (wheelHeader s b) then [b, a] else [a, b]
  | l => l

/-- The slots in the order in which they are checked, and FALLBACK (R43 step 3). -/
def checkOrder (s : State) (reads : Nat → FlashRead) : List Nat × Bool :=
  match eligibleSlots s reads with
  | [a, b] => if s.rst.failsBefore = 2 || s.rst.failsBefore = 3 then ([b, a], true) else ([a, b], false)
  | l => (l, false)

/-- Slots are checked until one is accepted, or the power is lost. -/
def judgeSlots (s : State) (reads : Nat → FlashRead) (fuses : Nat → FuseResult) : List Nat → State × Option Nat
  | [] => (s, none)
  | k :: ks =>
    match judgeSlot s k (reads k) (fuses k) with
    | (s, true) => (s, some k)
    | (s, false) => if s.dev = .off then (s, none) else judgeSlots s reads fuses ks

/-- Slots whose headers fail checks 1 to 6. -/
def rejectHeaders (s : State) (reads : Nat → FlashRead) : State :=
  [0, 1].foldl (fun s k => match headerCode s k (reads k) with
    | some c => rejectSlot s k c
    | none => s) s

/-- The Starter chooses a slot (R43). -/
def chooseSlot (s : State) (reads : Nat → FlashRead) (fuses : Nat → FuseResult) : State × Option Nat :=
  let o := checkOrder s reads
  judgeSlots ((rejectHeaders s reads).wr R.WHL_STAT_FALLBACK (boolNat o.2)) reads fuses o.1

/-! ## Application (R33, R93, R128, R139) -/

/-- A REGIMG word goes to its register: a vat's in both vats. STEP_GO set in NT_CTL makes its step. -/
def applyRegWord (s : State) (q : Nat × Word) : State :=
  let s := putWheelWord s q.1 q.2
  let s := if q.1 = R.NT_CTL && bitOf q.2.toNat 0 then stepGo s else s
  if 0x50000000 ≤ q.1 && q.1 < 0x60000000 && s.variant.dual then putWheelWord s (q.1 + 0x10000000) q.2 else s

/-- Words from word `o` of an engine's memory. -/
def writeEngWords (s : State) (v : Vat) (c : Nat) : Nat → List Word → State
  | _, [] => s
  | o, w :: ws => writeEngWords (writeEng s v c o w) v c (o + 1) ws

/-- An instance's directory entry, descriptor and parameters (R93). -/
def writeInst (s : State) (v : Vat) (c slot i : Nat) (b : RawBlock) (d : InstDef) : State :=
  let s := writeEng s v c i (BitVec.ofNat 32 d.desc)
  writeEngWords s v c d.desc ([b.head, BitVec.ofNat 32 (d.parOff + d.stOff * 65536), BitVec.ofNat 32 (d.outOff + slot * 65536), 0] ++ d.pars)

/-- A placed graph; a guest's slot is not known before it migrates. -/
def writePlaced (s : State) (v : Vat) (c slot : Nat) (p : Placed) : State :=
  ((List.range p.defs.length).zip (p.graph.blocks.zip p.defs)).foldl
    (fun s q => writeInst s v c slot (p.first + q.1) q.2.1 q.2.2) s

/-- One engine's memory in one vat, and its WORDS. -/
def writeEngine (s : State) (v : Vat) (c : Nat) (l : EngineLay) : State :=
  let s := l.own.foldl (fun s p => writePlaced s v c p.graph.gslot p) s
  let s := l.guests.foldl (fun s p => writePlaced s v c 0 p) s
  let s := writeEngWords (writeEngWords s v c l.tableAt l.tables) v c l.guestTableAt l.guestTables
  s.wr (R.CE_WORDS_WORDS v c) l.words

/-- A graph where it stands in an engine. -/
def placedIn (ps : List Placed) (g : RawGraph) : Option Placed := ps.find? (fun p => p.graph == g)

/-- What the Starter keeps of a graph. -/
def wheelGraph (t : State) (w : WheelImage) (g : RawGraph) : WheelGraph :=
  let gs := w.graphs
  let own := placedIn (layEngine gs w.tables g.engine).own g
  let fb := placedIn (layEngine gs w.tables g.fallback).guests g
  { engine := g.engine, slot := g.gslot, port := g.port, fallback := g.fallback, fbEn := g.fbEn, first := g.first
    defs := (own.map (fun p => p.defs)).getD [], preds := ((predictOf w.preds g).map (fun r => r.entries)).getD []
    hasPred := (predictOf w.preds g).isSome, base := ownBase gs g
    fbFirst := (fb.map (fun p => p.first)).getD 0, fbDefs := (fb.map (fun p => p.defs)).getD [], fbBase := guestBase gs g
    wsz := graphWsz g, cycles := graphCycles w.tables g
    loadN := graphCycles w.tables g * tickNum t w.tables g.port, loadD := tickDen t w.tables g.port }

/-- Engine memories, the bound slots, and what the Starter keeps. -/
def applyGraphs (s : State) (w : WheelImage) : State :=
  let lay := (List.range 8).map (layEngine w.graphs w.tables)
  let s := { s with whl := { tables := w.tables, graphs := w.graphs.map (wheelGraph s w), words := lay.map (fun l => l.words) } }
  forVats s (fun s v =>
    let s := ((List.range 8).zip lay).foldl (fun s q => writeEngine s v q.1 q.2) s
    s.whl.graphs.foldl (fun s g => bindGraph s v g.engine g.slot g false) s)

/-- A freshness value as the store keeps it (R328). -/
def storedFv (s : State) (e : CanEntry) : Nat :=
  s.nv.upper e.chan e.pos * 2 ^ 20

/-- Catalogues and keys: receive entries start timed out, their signals at DEFAULT (R324); each channel that is on is active. -/
def applyCan (s : State) (w : WheelImage) : State :=
  let es := w.cats.flatMap (fun r => r.entries)
  let s := { s with can := { s.can with entries := es.map (fun e => { e with lastFv := storedFv s e }) } }
  let s := modTrust s (fun t => { t with canKeys := w.keys })
  let s := w.cats.foldl (fun s r => if r.altEn then modCan s r.chan (fun q => { q with alt := some r.alt }) else s) s
  let s := s.can.entries.foldl (fun s e =>
    if e.transmit then s else writeSignals (s.set1 (R.CANE_STAT_TIMEDOUT e.home e.place)) e CanSig.default) s
  forN 6 s (fun s c =>
    let s := if privileged w.cats c then s.set1 (R.CAN_STAT_PRIV c) else s
    if s.is (R.CAN_CFG_MODE c) then s.wr (R.CAN_STAT_STATE c) 1 else s)

/-- The set in force and the period shadow hold D = 0 and PORTn_PERIOD (R212). -/
def startPeriods (s : State) : State :=
  forVats s (fun s v => forN 8 s (fun s p =>
    let per := s.rd (R.PORT_PERIOD_PERIOD v p)
    let s := (s.wr (R.PORT_PERACT_PERACT v p) per).wr (R.PORT_PERSHD_PERSHD v p) per
    refreshCmp (modPort s v p (fun q => { q with perSet := per })) v p))

/-- WHL_STAT and the other wheel registers of the running wheel (R50), and its acceptance in the log. -/
def wheelRegisters (s : State) (k : Nat) (rs : List WheelRec) : State :=
  let h := wheelHeader s k
  let crc := safeCrc rs
  let s := ((s.wr R.WHL_STAT_SLOT k).wr R.WHL_STAT_ENC (boolNat (hdrEnc h))).wr R.WHL_ID_VAL (hdrId h)
  let s := (s.wr R.WHL_VER_LO_VAL (hdrVersion h)).wr R.WHL_VER_HI_VAL (hdrVersion h / 2 ^ 32)
  let s := s.wr R.SAFE_CRC_VAL crc
  let s := s.wr R.WHL_STAT_RESTRICT (boolNat (!confirmed s crc))
  s.event 0x02 0x0202 (k + s.rd R.WHL_STAT_FALLBACK * 2 + s.rd R.WHL_STAT_RESTRICT * 4)

/-- An accepted wheel is applied to both vats (R42). (DEDUCED: notes/assumptions/44.md.) -/
def applyWheel (s : State) (k : Nat) (rs : List WheelRec) : State :=
  let regs := (imageRegs rs).getD []
  let s := wheelRegisters s k rs
  match imageRest rs regs with
  | none => s
  | some w => startPeriods (applyCan (applyGraphs (regs.foldl applyRegWord s) w) w)

/-- The stored patch is checked and applied, or recorded as rejected (R394). -/
def applyPatch (s : State) : State :=
  let b := s.readBytes ferroBase patchSize
  if leValue (b.take 4) = 0 then s else
    let c := patchCode s b
    if c = 0 then
      let v := patchVersion b
      let s := s.set1 R.PATCH_STAT_APPLIED
      ((s.wr (R.PVER_VAL 0) v).wr (R.PVER_VAL 1) (v / 2 ^ 32)).event 0x0F 0x0F04 1
    else ((s.wr R.PATCH_STAT_REJ c).set1 R.TRUST_FLAGS_PATCHREJ_F).event 0x0F 0x0F04 (c * 256)

/-! ## The end of LOADING -/

/-- Both vats compute and claim: Vat A becomes ACTIVE and Vat B STANDBY, both in step, unless only Vat B has FLT clear (R242,
R249). -/
def startVats (s : State) : State :=
  let s := forVats s (fun s v => (s.modVat v (fun x => { x with inReset := false, started := true })).set1 (R.VAT_ROLE_SYNCOK v))
  let s := takeover s (if s.variant.dual && s.is (R.VAT_ROLE_FLT .A) && !s.is (R.VAT_ROLE_FLT .B) then .B else .A) 1
  forVats s (fun s v => if s.owner == some v then s else setRole s v roleSTANDBY)

/-- A group's synchronising reset is due (R59); one whose PLL-C is not good starts without a clock (R68). -/
def startGroup (s : State) (v : Vat) (g : Nat) : State :=
  let s := requestAuto s v g
  if s.is (R.SGRP_CLK_SRC v g) && !s.rdBit R.CLK_STAT_GOOD 4 then groupLoss s v g else s

/-- The ramp profile starts with its deviation at time 0 (R358). -/
def startRamp (s : State) : State :=
  if !s.is R.PLLT_RAMP_EN then s else
    let s := s.set1 R.CLK_STAT_RAMP
    match findTable s.whl.tables (s.rd R.PLLT_RAMP_TABLE_ID) with
    | some t => s.wrWord R.PLLT_DEV (lookup1 t 0)
    | none => s

/-- The carriers (R205), synchronising resets (R59), aux sequences (R82), clock outputs (R363), spread (R357), the ramp profile from S (R358), the
recorder (R424). -/
def startUnits (s : State) : State :=
  let s := forVats s (fun s v => forN 8 s (fun s p => startCarrier s v p))
  let s := forVats s (fun s v => forN 4 (forN 8 s (fun s g => startGroup s v g)) (fun s k => auxStart s v k))
  let s := { s with clk := { s.clk with outputsOn := true, spreadOn := s.is R.VAT_SSC_SSEN, rampUs := 0 } }
  startRecorder (startRamp s)

/-- READY, or SAFE_STOP where a Harp input demands or a rail fault is latched (R382). The orders of the first resolution count
as asserted before. -/
def enterReady (s : State) : State :=
  let s := { s with rst := { s.rst with phase := .done } }
  let s := markAsserted { s with ord := { s.ord with resolved := resolveAll s } }
  let s := judgeInputs (s.wr R.START_STAT_RDY (min ((s.time.vt - s.rst.startVt) / 100000) 65535))
  if s.rd R.HARP_STAT_DEM != 0 then enterSafeStop s 1
  else if s.is R.SAFE_STAT_RAIL then enterSafeStop s 4
  else setDev (gateOn s) .ready

/-- A standby that raised FLT in LOADING by a source without a reset is given its VAT reset as the device leaves LOADING (R245). -/
def resetFlagged (s : State) : State :=
  s.vats.foldl (fun s v => if role s v == roleSTANDBY && s.is (R.VAT_ROLE_FLT v) then vatReset s v none 3 true else s) s

/-- The Starter has read both slots: `reads` says how each reads, `fuses` how the fusing of an owner slot for it goes. With
the crypto block frozen the checks that need it fail the start (R408). -/
def loadWheel (s : State) (reads : Nat → FlashRead) (fuses : Nat → FuseResult) : State :=
  if !cryptoRuns s then startFailure s else
  match chooseSlot s reads fuses with
  | (s, none) => if s.dev = .off then s else startFailure s
  | (s, some k) => resetFlagged (enterReady (startUnits (startVats (applyPatch (applyWheel s k ((wheelRecords s k).getD []))))))

def execWheelLoaded (r0 r1 : FlashRead) (fuse0 fuse1 : FuseResult) (s : State) : Host.Outcome State Fault Refusal :=
  .next (settle (if s.dev = .loading then
    loadWheel s (fun k => if k = 0 then r0 else r1) (fun k => if k = 0 then fuse0 else fuse1) else s))

end Sys2Proof.Machine
end

