-- ==== Sys2Proof/Machine/Start.lean ====
section
/-! DEFINITION. Resets and the release sequence (17_reset_and_start.md): POR, brown-out, RESET_N, the requests that cause a
reset, trims, the release of the domains, the judgement of START_FAILS, RECOVERY, and the pins that show it all. -/

namespace Sys2Proof.Machine

open Sys2Proof

/-! ## Pins (R373, R443) -/

/-- Level of RESET_OUT_N. (DESIGN CHOICE: notes/assumptions/107.md.) -/
def State.resetOutN (s : State) : Bool := s.dev != .off

/-- Level of READY. -/
def State.readyPin (s : State) : Bool := s.dev.operating

/-- Level of FAULT_N: low in reset (R443), from POR until READY is first reached, in SAFE_STOP and RECOVERY, and while a port shows
its fault pattern or is RETIRED. -/
def State.faultN (s : State) : Bool :=
  s.dev != .off && s.rst.reachedReady && s.dev != .safeStop && s.dev != .recovery && !anyPortIn s [FAULTPAT, RETIRED]

/-- Level of XSPI_RST_N. -/
def State.xspiRstN (s : State) : Bool := s.rst.xspiHigh

/-- The balls of an Ethernet port. -/
inductive EthBall where
  | txc
  | txCtl
  | txd (n : Fin 4)
  | rxc
  | rxCtl
  | rxd (n : Fin 4)
  deriving DecidableEq, Repr

/-- What a ball of an Ethernet port is: in RGMII what its name says, in RMII its role of R441. -/
inductive EthRole where
  | clockOut
  | control
  | data (n : Fin 4)
  | clockIn
  | controlIn
  | dataIn (n : Fin 4)
  | refClkIn
  | txEn
  | crsDv
  | rxEr
  | low
  | ignored
  deriving DecidableEq, Repr

/-- Roles of the balls in RMII (R441). -/
def rmiiRole : EthBall → EthRole
  | .txc => .refClkIn
  | .txCtl => .txEn
  | .txd n => if n.val < 2 then .data n else .low
  | .rxc => .ignored
  | .rxCtl => .crsDv
  | .rxd n => if n.val < 2 then .dataIn n else if n.val = 2 then .rxEr else .ignored

def rgmiiRole : EthBall → EthRole
  | .txc => .clockOut
  | .txCtl => .control
  | .txd n => .data n
  | .rxc => .clockIn
  | .rxCtl => .controlIn
  | .rxd n => .dataIn n

/-- ETHp_TX and ETHp_RX in reset and RECOVERY, low and ignored (R353, R443), else by the port's interface. -/
def ethRole (s : State) (p : Nat) (b : EthBall) : EthRole :=
  if s.dev.onward then (if s.is (R.ETH_CFG_IF p) then rmiiRole b else rgmiiRole b)
  else match b with
    | .txc | .txCtl | .txd _ => .low
    | .rxc | .rxCtl | .rxd _ => .ignored

/-- The PULSE and EN pads are driven: from TRIM_VALID after POR (R373, R444). -/
def State.padsDriven (s : State) : Bool := s.rst.phase != .por && (s.is R.DEV_STATE_TRIM_VALID || s.rst.trimsEver)

/-! ## POR and brown-out (R372, R374, R384, R388, R440) -/

/-- Supplies are in range and POR is released: pins and bank levels are sampled, the identity is rebuilt. -/
def powerOn (s : State) (strap idFails bank33 : Nat) : State :=
  let code := if s.rst.phase = .por && s.rst.brown then 2 else 1
  let s := recordCause (porCleared s) code 1 0
  let s := { s with rst := { s.rst with phase := .trims, brown := false, strap, bank33 } }
  (s.wr R.DEV_STATE_BOOT strap).wr R.TRUST_STAT_IDOK (boolNat (decide (idFails < 3)))

/-- DEDUCED: notes/assumptions/4.md. -/
def execPowerOnReset (strap : BitVec 2) (idFails : Fin 4) (bank33 : BitVec 8) (s : State) : Host.Outcome State Fault Refusal :=
  .next (settle (powerOn s strap.toNat idFails.val bank33.toNat))

def execBrownOut (s : State) : Host.Outcome State Fault Refusal :=
  .next (settle (if s.rst.phase = .por then s else brownOut s))

/-! ## RESET_N (R378) -/

def execResetNAssert (s : State) : Host.Outcome State Fault Refusal :=
  .next (settle (
    if s.rst.phase = .por || s.rst.phase = .held then s
    else
      let s := sysReset s 0x03
      { s with rst := { s.rst with phase := .held, heldLong := false } }))

def execResetNHeld (s : State) : Host.Outcome State Fault Refusal :=
  .next (settle (
    if s.rst.phase = .held then
      { (s.set1 R.HELD_RESET_HELD).wr R.RST_CAUSE_CODE 0x04 with rst := { s.rst with heldLong := true } }
    else s))

/-- How long RESET_N was held, in units of 100 ms, is recorded after a hold of more than 100 ms. -/
def recordHeld (s : State) (held : Nat) : State :=
  if s.rst.heldLong then s.wr R.HELD_RESET_HELDMS (min (held / 100) 65535) else s

def execResetNRelease (held : Nat) (s : State) : Host.Outcome State Fault Refusal :=
  .next (settle (
    if s.rst.phase = .held then recordHeld { s with rst := { s.rst with phase := .trims, startVt := s.time.vt } } held
    else s))

/-! ## Requests (R374-R377, R387) -/

def execSysreq (v : Vat) (s : State) : Host.Outcome State Fault Refusal :=
  .next (settle (if canIssue s (supMaster v) || sysJustBegun s then sysReset s 0x06 else s))

def execVatreq (v : Vat) (s : State) : Host.Outcome State Fault Refusal :=
  .next (settle (if canIssue s (supMaster v) then raiseFltWith s v 7 (some 0x06) 3 else s))

/-- DESIGN CHOICE: notes/assumptions/9.md. -/
def execVatWatchdogExpiry (v : Vat) (s : State) : Host.Outcome State Fault Refusal :=
  .next (settle (if s.dev != .off && supRuns s v then raiseFlt s v 4 else s))

/-- Critical state of a vat, or common critical state (R375). -/
def execCriticalDoubleBitError (site : Option Vat) (s : State) : Host.Outcome State Fault Refusal :=
  .next (settle (if s.dev = .off && !(site.isNone && sysJustBegun s) then s else
    match site with
    | some v => raiseFlt s v 2
    | none => sysReset s 0x08))

def execConfigParityError (site : Option Vat) (s : State) : Host.Outcome State Fault Refusal :=
  .next (settle (if s.dev = .off && !(site.isNone && sysJustBegun s) then s else
    match site with
    | some v => raiseFltWith s v 2 (some 0x09) 3
    | none => sysReset s 0x09))

/-- A vat's checker has failed its test: a VAT reset of that vat is requested, a SYS reset before READY, an extension where the vat is
in VAT reset (R376, R377). -/
def checkerFails (s : State) (v : Vat) : State :=
  if (s.vat v).inReset then vatReset s v (some 0x0D) 3 true else raiseFltWith s v 7 (some 0x0D) 3

/-- R376: a common checker outranks a vat's; of two vats the one that does not own is reset first.
(DEDUCED: notes/assumptions/35.md.) -/
def execCheckerSelfTest (commonOk aOk bOk : Bool) (s : State) : Host.Outcome State Fault Refusal :=
  .next (settle (
    if s.dev = .off && !(!commonOk && sysJustBegun s) then s
    else if !commonOk then sysReset s 0x0D
    else
      let fail (w : Vat) : Bool := match w with | .A => !aOk | .B => !bOk
      let o := s.viewVat
      let s := if fail o.other then checkerFails s o.other else s
      if fail o then checkerFails s o else s))

/-! ## Trims (R380) -/

/-- A staging copy has been read and checked. -/
def stageTrims (s : State) (ok : Bool) : State :=
  if ok then
    let s := s.set1 R.DEV_STATE_TRIM_VALID
    { s with rst := { s.rst with phase := .clocks, trimsEver := true, loopsOn := true } }
  else
    let n := s.rst.trimFails + 1
    let s := { s with rst := { s.rst with trimFails := n } }
    if n < 3 then s else startFailure ((s.set1 R.START_STAT_TRIMERR).wr R.START_STAT_DOMAIN 7)

def execTrimStagingComplete (ok : Bool) (s : State) : Host.Outcome State Fault Refusal :=
  .next (settle (if s.rst.phase = .trims then stageTrims s ok else s))

def execXspiResetRelease (s : State) : Host.Outcome State Fault Refusal :=
  .next (settle (if s.rst.phase = .por || s.rst.phase = .held then s else { s with rst := { s.rst with xspiHigh := true } }))

/-! ## START_FAILS (R383) -/

/-- F: the higher valid copy, and 4 where neither is valid. -/
def failsStored (s : State) : Nat × Bool :=
  match s.nv.fails0, s.nv.fails1 with
  | some a, some b => (max a b, false)
  | some a, none => (a, false)
  | none, some b => (b, false)
  | none, none => (4, true)

/-- The strap forces RECOVERY (R384). -/
def recoveryStrap (s : State) : Bool := s.rst.strap % 2 == 1

/-- The records that begin a start, and its tail area (R422). -/
def beginLog (s : State) : State :=
  let s := s.event 0x01 0x0101 (getBits (s.regs.get R.RST_CAUSE) 0 12 + s.rd R.START_FAILS_COUNT * 4096)
  let s := if s.rd R.RST_CAUSE_CODE = 0x04 then s.event 0x01 0x0105 (s.rd R.HELD_RESET_HELDMS) else s
  let s := if s.rd R.RST_CAUSE_LEVEL = 1 && !s.is R.TRUST_STAT_IDOK then s.event 0x0F 0x0F00 0 else s
  selectTail s

/-- Checks 1 to 9 of a slot in RECOVERY, recorded (R385). -/
def recoveryCheck (s : State) (k : Nat) (r : FlashRead) : State :=
  match imageCode s k r with
  | some c => rejectSlot s k c
  | none => s.wr (rejField k) 0

/-- RECOVERY is entered (R385): CAN0 runs in its fixed setting, the flash's capacity is read (R434), and the wheels are checked and not
applied. -/
def enterRecovery (s : State) (flash : FlashOpen) (r1 : FlashRead) : State :=
  let reads (k : Nat) : FlashRead := if k = 0 then flash.read else r1
  let s := { s with rst := { s.rst with phase := .done, flashCap := flash.capacity } }
  let s := (setDev s .recovery).event 0x01 0x0104 (s.rd R.START_FAILS_BYCOUNT + s.rd R.DEV_STATE_RECSTRAP * 2)
  [0, 1].foldl (fun s k => recoveryCheck s k (reads k)) (s.wr (R.CAN_STAT_STATE 0) 1)

/-- What a start reads from the store: the higher good copies (R44), and the confirmed values (R49).
(DESIGN CHOICE: notes/assumptions/34.md.) -/
def readStore (s : State) : State :=
  let s := match s.nv.floor.higher with
    | some x => s.wrPair R.WHL_FLOOR_LO_VAL R.WHL_FLOOR_HI_VAL x
    | none => s
  let s := match s.nv.patchFloor.higher with
    | some x => s.wrPair (R.PATCH_FLOOR_VAL 0) (R.PATCH_FLOOR_VAL 1) x
    | none => s
  let s := match s.nv.certMin.higher with
    | some x => s.wr R.CERT_MIN_VAL x
    | none => s
  match s.nv.conf0, s.nv.conf1 with
  | some c, _ | none, some c => showConf s c
  | none, none => s

/-- Step 6 of R379, with what every start does once (R328, R391). (DEDUCED: notes/assumptions/34.md.) -/
def judgeStart (s : State) (flash : FlashOpen) (r1 : FlashRead) : State :=
  let f := failsStored s
  let strap := recoveryStrap s
  let s := readStore s
  let s := s.wr R.START_FAILS_NVBAD (boolNat f.2)
  let s := (s.wr R.DEV_STATE_RECSTRAP (boolNat strap)).wr R.START_FAILS_BYCOUNT (boolNat (decide (4 ≤ f.1)))
  let s := { s with nv := s.nv.setEpoch ((s.nv.epoch + 1) % 4096) }
  let s := modTrust s (fun t => { t with ownedFuse := t.ownedFuse || (t.ownerSlot.isSome && Config.vddaInRange s.time.vt) })
  let s := { s with rst := { s.rst with failsBefore := f.1, withdrawn := [0, 0, 0, 0, 0, 0] } }
  if strap || 4 ≤ f.1 then enterRecovery (beginLog s) flash r1
  else
    let s := beginLog (setStartFails s (f.1 + 1))
    { s with rst := { s.rst with phase := .memory } }

/-! ## The release of the domains (R379, R381) -/

/-- The domains of the variant, in release order. -/
def releaseOrder (s : State) : List Domain := if s.variant.dual then [.T, .CAN, .VA, .VB, .N, .C] else [.T, .CAN, .VA, .N, .C]

def nextDomain (s : State) : Option Domain := (releaseOrder s).find? (fun d => !s.rst.released.contains d)

/-- The bit of GOOD that a domain's loop has: SA, SB, T, N, C, CAN. -/
def domainGood : Domain → Nat
  | .VA => 0
  | .VB => 1
  | .T => 2
  | .N => 3
  | .C => 4
  | .CAN => 5

/-- DOMAIN of START_STAT. -/
def domainNumber : Domain → Nat
  | .T => 1
  | .CAN => 2
  | .VA => 3
  | .VB => 4
  | .N => 5
  | .C => 6

/-- A start waits for this domain. -/
def awaitsDomain (s : State) (d : Domain) : Bool :=
  (s.rst.phase == .clocks || s.rst.phase == .domains) && nextDomain s == some d

/-- The domain leaves reset; T brings the common domain and STARTING, T and N start PT and NT from 0 (R354). -/
def releaseDomain (s : State) (d : Domain) : State :=
  let s := { s with rst := { s.rst with phase := .domains, released := s.rst.released ++ [d] } }
  match d with
  | .T => setDev { (s.wr R.DEV_STATE_BOOT s.rst.strap) with time := { s.time with ptQ := 0 } } .starting
  | .N => { (s.set1 R.NT_STAT_HOLD) with time := { s.time with ntQ := 0 } }
  | _ => s

def execDomainRelease (d : Domain) (r0 : FlashOpen) (r1 : FlashRead) (s : State) : Host.Outcome State Fault Refusal :=
  .next (settle (
    if awaitsDomain s d && s.is R.CLK_STAT_REF_OK && s.rdBit R.CLK_STAT_GOOD (domainGood d) then
      let s := releaseDomain s d
      if (nextDomain s).isNone then judgeStart s r0 r1 else s
    else s))

/-- One more withdrawn release of a domain. -/
def countWithdrawn (s : State) (d : Domain) : State :=
  { s with rst := { s.rst with withdrawn := modNth s.rst.withdrawn ((domainNumber d) - 1) (· + 1) } }

def withdrawals (s : State) (d : Domain) : Nat := nth s.rst.withdrawn ((domainNumber d) - 1) 0

/-- A release is withdrawn during a start: the third of one domain fails the start. -/
def withdrawStart (s : State) (d : Domain) : State :=
  let s := (countWithdrawn s d).wrBit R.CLK_STAT_GOOD (domainGood d) false
  let s := (s.wr R.START_STAT_DOMAIN (domainNumber d)).wr R.START_STAT_TRIES (withdrawals s d)
  if withdrawals s d < 3 then s else startFailure s

def domainVat (d : Domain) : Option Vat :=
  match d with
  | .VA => some .A
  | .VB => some .B
  | _ => none

/-- The release of a vat after a VAT reset is withdrawn: the third is one failure of the vat. -/
def withdrawVat (s : State) (d : Domain) (v : Vat) : State :=
  let s := (countWithdrawn s d).wrBit R.CLK_STAT_GOOD (domainGood d) false
  if withdrawals s d < 3 then s
  else { failVat s v with rst := { s.rst with withdrawn := modNth s.rst.withdrawn ((domainNumber d) - 1) (fun _ => 0) } }

/-- In RECOVERY a vat's release has failed at its third withdrawal since the start (R385; notes/assumptions/34.md). -/
def withdrawInRecovery (s : State) (d : Domain) (v : Vat) : State :=
  let s := (countWithdrawn s d).wrBit R.CLK_STAT_GOOD (domainGood d) false
  if withdrawals s d = 3 then failVat s v else s

def execDomainReleaseWithdrawn (d : Domain) (s : State) : Host.Outcome State Fault Refusal :=
  .next (settle (
    if awaitsDomain s d then withdrawStart s d
    else
      match domainVat d with
      | some v =>
        if s.dev = .recovery && s.hasVat v then withdrawInRecovery s d v
        else if s.dev.onward && s.hasVat v && (s.vat v).inReset && role s v != roleRETIRED then withdrawVat s d v else s
      | none => s))

/-! ## SRAM and the end of a good start -/

def execSramCheckComplete (ok : SramCheck) (s : State) : Host.Outcome State Fault Refusal :=
  .next (settle (
    if s.rst.phase = .memory then
      (match ok with
      | .good capacity => setDev { s with rst := { s.rst with phase := .loading, flashCap := capacity } } .loading
      | .bad => startFailure (s.set1 R.START_STAT_MEMERR))
    else s))

/-- WHL_FLOOR is raised to the running wheel's VERSION, logged (R44). The record 0x0205, whose SOURCE no rule names, has 0x02, the
Starter. (DESIGN CHOICE: notes/assumptions/7.md.) -/
def raiseFloor (s : State) : State :=
  let v := s.rd R.WHL_VER_LO_VAL + s.rd R.WHL_VER_HI_VAL * 2 ^ 32
  if v ≤ whlFloor s then s
  else
    let s := { s with nv := { s.nv with floor := s.nv.floor.put v } }
    (s.wrPair R.WHL_FLOOR_LO_VAL R.WHL_FLOOR_HI_VAL v).event 0x02 0x0205 v

/-- PATCH_FLOOR is raised to PVER of the applied patch (R394). -/
def raisePatchFloor (s : State) : State :=
  let v := s.rd (R.PVER_VAL 0) + s.rd (R.PVER_VAL 1) * 2 ^ 32
  if !s.is R.PATCH_STAT_APPLIED || v ≤ patchFloor s then s
  else { s with nv := { s.nv with patchFloor := s.nv.patchFloor.put v } }.wrPair (R.PATCH_FLOOR_VAL 0) (R.PATCH_FLOOR_VAL 1) v

def execStartFailsClear (s : State) : Host.Outcome State Fault Refusal :=
  .next (settle (if s.dev = .run || s.dev = .degraded then raisePatchFloor (raiseFloor (setStartFails s 0)) else s))

end Sys2Proof.Machine
end

