-- ==== Sys2Proof/Machine/Clocks.lean ====
section
/-! DEFINITION. Clock generation (16_clocks.md): REFCLK, holdover and return (R356, R360-R362), loss of lock and the return of
the loops (R365-R369), the ring oscillator (R368) and the ramp profile (R358). -/

namespace Sys2Proof.Machine

open Sys2Proof

/-- An event of the clock unit: the log exists once the common domain is released. -/
def clockEvent (s : State) (code data : Nat) : State := if s.dev = .off then s else s.event 0x03 code data

/-! ## REFCLK -/

/-- REFCLK is accepted; in holdover PLL-T begins its return, `pherr` from its nearer position, in 62.5 ps, a 32nd of its cycle. -/
def refclkPresent (s : State) (pherr : Nat) : State :=
  let s := s.set1 R.CLK_STAT_REF_OK
  if s.is R.CLK_STAT_HOLD then
    { (s.set1 R.CLK_STAT_SLEW).wr R.CLK_PHASE_PHERR pherr with clk := { s.clk with slewQ := -(signedOf 16 pherr * 2 ^ 39) } }
  else s

def execRefclkPresent (pherr : BitVec 16) (s : State) : Host.Outcome State Fault Refusal :=
  .next (settle (if s.rst.phase = .por || !s.rst.loopsOn || s.is R.CLK_STAT_REF_OK then s else refclkPresent s pherr.toNat))

/-- REFCLK is lost: every loop enters holdover (R361). -/
def refclkLost (s : State) : State :=
  let s := ((s.clr R.CLK_STAT_REF_OK).set1 R.CLK_FLAGS_REFLOST_F).incSat R.CLK_FLAGS_HOLDS
  let s := { s with clk := { s.clk with slewQ := 0 } }
  clockEvent (((s.set1 R.CLK_STAT_HOLD).clr R.CLK_STAT_PHASE_OK).clr R.CLK_STAT_SLEW) 0x0301 0

def execRefclkLost (s : State) : Host.Outcome State Fault Refusal :=
  .next (settle (if s.is R.CLK_STAT_REF_OK then refclkLost s else s))

/-- The loop's domain has been released in this start. -/
def domainUp (s : State) (d : Domain) : Bool := s.rst.released.contains d

/-- PLL-T moves its phase: PT with it once domain T is released (R354), as it measures time, and PHERR shows what is left (R362). -/
def slewBy (s : State) (m : Int) : State :=
  let left := s.clk.slewQ - m
  let m := if domainUp s .T then m else 0
  let s := { s with
    clk := { s.clk with slewQ := left }
    time := { s.time with ptQ := ((s.time.ptQ : Int) + m).toNat, realQ := ((s.time.realQ : Int) + m).toNat } }
  s.wr R.CLK_PHASE_PHERR (-(left / 2 ^ 39) % 2 ^ 16).toNat

/-- PLL-T's return goes on for one cycle of REFCLK, at 500 ppm. (DESIGN CHOICE: notes/assumptions/32.md.) -/
def slewStep (s : State) : State :=
  if s.is R.CLK_STAT_SLEW && s.rdBit R.CLK_STAT_GOOD 2 then slewBy s (clampInt (-(2 ^ 44 / 100)) (2 ^ 44 / 100) s.clk.slewQ) else s

/-- The phase lies within 100 ps of a programmed position, in units of 62.5 ps (R360). -/
def phaseNear (pherr : Nat) : Bool := signedOf 16 pherr == 0 || signedOf 16 pherr == 1 || signedOf 16 pherr == -1

/-- PLL-T stands at a programmed position: after its first lock, or at the end of the slew, of `slewed` in 62.5 ps. -/
def phaseComplete (s : State) (slewed pherr : Nat) : State :=
  let back := s.is R.CLK_STAT_HOLD
  let s := (s.set1 R.CLK_STAT_PHASE_OK).wr R.CLK_PHASE_PHERR pherr
  if back then clockEvent ((s.clr R.CLK_STAT_HOLD).clr R.CLK_STAT_SLEW) 0x0302 slewed else s

/-- The slew is complete only when nothing of it is left: PLL-T never steps its phase (R362; notes/assumptions/32.md). -/
def execPhaseSlewComplete (slewed : BitVec 32) (pherr : BitVec 16) (s : State) : Host.Outcome State Fault Refusal :=
  .next (settle (
    if s.is R.CLK_STAT_REF_OK && s.rdBit R.CLK_STAT_GOOD 2 && !s.is R.CLK_STAT_PHASE_OK && s.clk.slewQ == 0 then
      (if phaseNear pherr.toNat then phaseComplete s slewed.toNat pherr.toNat else s.wr R.CLK_PHASE_PHERR pherr.toNat)
    else s))

/-! ## Loss of lock (R365-R367) -/

/-- The bit of GOOD and LOSS_F of a loop. -/
def loopBit : PllLoop → Nat
  | .SA => 0
  | .SB => 1
  | .T => 2
  | .N => 3
  | .C => 4
  | .CAN => 5

/-- A loop's GOOD bit clears, its loss flag sets, logged with the number of its GOOD bit; PLL-T's phase is no more at a programmed
position (R360). -/
def markLoss (s : State) (i : Nat) : State :=
  let s := (s.wrBit R.CLK_STAT_GOOD i false).setBit1 R.CLK_FLAGS_LOSS_F i
  let s := if i = 2 then s.clr R.CLK_STAT_PHASE_OK else s
  clockEvent { s with clk := { s.clk with lost := Nat.lor s.clk.lost (2 ^ i) } } 0x0303 (i + 1)

/-- A leg of the port's unit has its DST line low, in a fault break (R367 step 2). -/
def breakOn (s : State) (p : Nat) : Bool :=
  s.vats.any (fun v => (portUnit s v p).any (fun q => (portLegs s v q).any (fun n => s.is (R.DLR_STAT_BREAK v n))))

/-- The pattern the monitor puts at a port's pins (R367 steps 1 and 2), coded as PATNOW: that the arbiter holds there already, if it
does; a RETIRED port is low, and a short circuit with a break is all-off. (DEDUCED: notes/assumptions/33.md.) -/
def monitorPattern (s : State) (p : Nat) : Nat :=
  let q := match s.arb.hold with
    | some pats => nth pats p 0
    | none => heldPattern s p
  if portState s s.viewVat p = RETIRED then 0 else if breakOn s p then min q 1 else q

/-- The clock groups of a source: PLL-T divided, or PLL-C (R52). -/
def groupsOn (s : State) (v : Vat) (c : Bool) (f : State → Vat → Nat → State) : State :=
  forN 8 s (fun s g => if s.is (R.SGRP_CLK_SRC v g) == c then f s v g else s)

/-- R367: the monitor takes over the pads; STO follows, and then a SYS reset for clock loss. The groups that PLL-T clocks lose
their clock (R68). -/
def lossOfT (s : State) : State :=
  let s := forVats s (fun s v => groupsOn s v false groupLoss)
  let s := { s with rst := { s.rst with sysAfterSto := some 0x0A } }
  if !s.dev.operating then s
  else
    let s := { s with arb := { s.arb with hold := some ((List.range 8).map (monitorPattern s)) } }
    if s.is R.SAFE_STAT_SS1_ACT then { s with harp := { s.harp with ss1Kind := .patterns } } else startSs1 s 2 .patterns

/-- PLL-N: the MACs and the switch stop; NT goes on from REFCLK (R352). -/
def lossOfN (s : State) : State :=
  modNet (loseSync (s.set1 R.NT_STAT_FB)) (fun n => { n with
    ltq := List.replicate 16 [], waiting := List.replicate 16 [], ppsEnd := none })

/-- PLL-CAN: every channel stops at once, and the frame in progress is lost; queues and express slots are kept (R366). -/
def lossOfCan (s : State) : State := forN 6 s (fun s c => modCan s c (fun q => { q with probing := false }))

/-- The reactions to losses of other loops than PLL-T; of two vats, the one that does not own first. -/
def otherLosses (s : State) (lost : Nat) : State :=
  let o := s.viewVat
  let up (v : Vat) : Bool := bitOf lost (v.code - 1) && domainUp s (match v with | .A => .VA | .B => .VB)
  let s := if up o.other then raiseFlt s o.other 1 else s
  let s := if up o then raiseFlt s o 1 else s
  let s := if bitOf lost 3 && domainUp s .N then lossOfN s else s
  let s := if bitOf lost 5 && domainUp s .CAN then lossOfCan s else s
  if bitOf lost 4 then forVats s (fun s v => groupsOn s v true groupLoss) else s

/-- Losses in one cycle; `mask` numbers the loops as GOOD. A loss of PLL-T outranks the others' reactions, then and later (R369).
(DEDUCED: notes/assumptions/33.md.) -/
def lossOfLock (s : State) (mask : Nat) : State :=
  let lost := Nat.land mask (s.rd R.CLK_STAT_GOOD)
  let s := forN 6 s (fun s i => if bitOf lost i then markLoss s i else s)
  if bitOf lost 2 && domainUp s .T then lossOfT s else if lostT s then s else otherLosses s lost

def execLossOfLock (lost : BitVec 6) (s : State) : Host.Outcome State Fault Refusal :=
  .next (settle (lossOfLock s lost.toNat))

/-! ## The return of a loop -/

/-- The CAN channels restart as after a bus-off recovery (R366). -/
def restartCan (s : State) : State :=
  forN 6 s (fun s c =>
    if s.rd (R.CAN_STAT_STATE c) = 0 || s.is (R.CAN_STAT_RETIRED c) then s
    else ((s.wr (R.CAN_STAT_STATE c) 1).wr (R.CAN_STAT_TEC c) 0).wr (R.CAN_STAT_REC c) 0)

/-- A loop has been locked for 100 µs with REF_OK. -/
def loopGood (s : State) (l : PllLoop) : State :=
  let i := loopBit l
  let s := s.wrBit R.CLK_STAT_GOOD i true
  let s := if bitOf s.clk.lost i then
      clockEvent { s with clk := { s.clk with lost := s.clk.lost - 2 ^ i } } 0x0304 (i + 1)
    else s
  match l with
  | .N => if domainUp s .N then
      let s := s.clr R.NT_STAT_FB
      if s.is (R.ETH_STAT_LINK 0) || s.is (R.ETH_STAT_LINK 1) then gmSync s else s
    else s
  | .C => forVats s (fun s v => groupsOn s v true groupReturn)
  | .CAN => if domainUp s .CAN then restartCan s else s
  | .SA | .SB | .T => s

def execLoopGood (l : PllLoop) (s : State) : Host.Outcome State Fault Refusal :=
  .next (settle (
    if s.rst.phase != .por && s.rst.loopsOn && s.is R.CLK_STAT_REF_OK && !s.rdBit R.CLK_STAT_GOOD (loopBit l) then loopGood s l
    else s))

/-! ## The ring oscillator (R368) -/

/-- A calibration in units of 100 kHz is in range, and within 2 % of the previous one. -/
def calibrationOk (s : State) (f : Nat) : Bool :=
  let prev := s.rd R.CLK_STAT_RO_FREQ
  decide (2800 ≤ f) && decide (f ≤ 5200) && (!s.clk.roHave || (decide (50 * f ≤ 51 * prev) && decide (49 * prev ≤ 50 * f)))

/-- A calibration that fails asks for a SYS reset, unless one already follows a loss of PLL-T (R369). -/
def calibrate (s : State) (f : Nat) : State :=
  let ok := calibrationOk s f
  let s := (s.wr R.CLK_STAT_RO_FREQ f).wr R.CLK_STAT_RO_OK (boolNat ok)
  if ok then { s with clk := { s.clk with roHave := true } }
  else
    let s := clockEvent (s.set1 R.CLK_FLAGS_ROFAIL_F) 0x0305 0
    if lostT s then s else requestSys s 0x0A

def execRoCalibration (freq : Nat) (s : State) : Host.Outcome State Fault Refusal :=
  .next (settle (if s.rst.phase = .por || !s.is R.CLK_STAT_REF_OK then s else calibrate s freq))

/-! ## The ramp profile (R358) -/

/-- A positive binary32 number as a fraction. -/
def fraction (w : Word) : Nat × Nat :=
  match F32.unpack w with
  | .fin _ m e => (m * 2 ^ e.toNat, 2 ^ (-e).toNat)
  | _ => (0, 1)

/-- The next microsecond of the profile, which repeats with the period of its last breakpoint.
(DEDUCED: notes/assumptions/32.md.) -/
def rampStep (s : State) : State :=
  match findTable s.whl.tables (s.rd R.PLLT_RAMP_TABLE_ID) with
  | none => s
  | some t =>
    let n := s.clk.rampUs + 1
    let p := fraction (t.xs.getLastD 0)
    let x := F32.ofRat (n * p.2 % p.1) p.2
    ({ s with clk := { s.clk with rampUs := n } }).wrWord R.PLLT_DEV (lookup1 t x)

def execRampProfileStep (s : State) : Host.Outcome State Fault Refusal :=
  .next (settle (if s.is R.CLK_STAT_RAMP then rampStep s else s))

end Sys2Proof.Machine
end

