-- ==== Sys2Proof/Machine/Tick.lean ====
section
/-! DEFINITION. A port's tick (R95, R96, R207): what it does in each unit, in the order of the samples it captures; and the
reload, which ends a join's wait (R214, R257). -/

namespace Sys2Proof.Machine

open Sys2Proof

/-- TICKNUM counts the ticks after the first since the carriers started, which is tick 0 (R207). -/
def countTick (s : State) (v : Vat) (p : Nat) : State :=
  if (getPort s v p).ticked then s.incWrap (R.PORT_TICKNUM_VAL v p)
  else modPort s v p (fun q => { q with ticked := true })

/-- The move qualifier of a position input: the committed output MQI/MQO of its port's graph, read as a flag (R186). -/
def moveQualifier (s : State) (v : Vat) (p i : Nat) : Bool :=
  match portGraph s v p with
  | some (c, k) => committedFlag s v c (getSlot s v c k) (s.rd (R.POS_FZ_MQI v i)) (s.rd (R.POS_FZ_MQO v i))
  | none => false

def positionsTick (s : State) (v : Vat) (p : Nat) : State :=
  forN 8 s (fun s i => if s.rd (R.POS_CFG_PORT v i) == p then posCapture s v i (moveQualifier s v p i) else s)

/-- The engine and instance that a graph input names, as a place in a graph of the wheel (R321, R470). -/
def inputPlace (s : State) (k : Nat) : Option (WheelGraph × Nat) :=
  let e := s.rd (R.SIGDEF_ENGINE k)
  let i := s.rd (R.SIGDEF_INST k)
  s.whl.graphs.findSome? (fun w =>
    if w.engine = e && w.first ≤ i && i < w.first + w.defs.length then some (w, i - w.first)
    else if w.fbEn && w.fallback = e && w.fbFirst ≤ i && i < w.fbFirst + w.defs.length then some (w, i - w.fbFirst)
    else none)

/-- The word of a received value in a CONST's format: v = SCALE × raw + OFFSET, in binary32 (R104, R322). -/
def inputWord (s : State) (k fmt : Nat) (raw : Int) : Word :=
  let y := F32.add (F32.mul (s.regs.get (R.SIGDEF_SCALE k)) (F32.ofInt raw)) (s.regs.get (R.SIGDEF_OFFSET k))
  if bitOf fmt 0 then F32.flush y else qWord (F32.toQ15 y)

/-- A resolved graph input enters its CONST at the tick of the graph's port (R325), but that of no frozen engine, whose memory holds (R124). -/
def enterSignal (s : State) (v : Vat) (p : Nat) (e : Nat × Int) : State :=
  let k := e.1 - 0x1000
  if e.1 < 0x1000 || s.rd (R.SIGDEF_KIND k) != 1 then s else
    match inputPlace s k, portGraph s v p with
    | some (w, j), some (c, q) =>
      if w.port != p || engFrozen s v c then s else
        match (getSlot s v c q).defs[j]? with
        | some d => if d.btype = 0 then writeEng s v c (d.parOff + 1) (inputWord s k (nth d.pars 0 0).toNat e.2) else s
        | none => s
    | _, _ => s

def enterSignals (s : State) (v : Vat) (p : Nat) : State := s.ord.resolved.foldl (fun s e => enterSignal s v p e) s

/-- The AUX sequencers at a tick: injected sequences before regular passes (R83, R85). -/
def auxPortTick (s : State) (v : Vat) (p : Nat) : State := auxTick (injEvent s v .tick p) v p

/-- A tick of a computing vat. -/
def liveTick (s : State) (v : Vat) (p : Nat) : State :=
  let ts := tsAtTick s v p
  let s := positionsTick (syncAtTick s p) v p
  let s := pairsTick (auxPortTick s v p) v p
  let s := dfrTick s v p ts
  let s := guardTick s v p
  let s := enterSignals (arriveGraph (enterTick s v p) v p) v p
  let s := graphTick s v p
  let s := recorderTick (joinCheck s v) v p
  modPort s v p (fun q => { q with lastTick := some s.time.realQ, runSince := portState s v p == RUN })

/-- A tick in a vat that only hands over: its AUX sequencers and SSI clocking run on (R251). -/
def heldTick (s : State) (v : Vat) (p : Nat) : State :=
  forN 4 (auxPortTick s v p) (fun s i =>
    if s.is (R.POS_CFG_EN v (4 + i)) && s.rd (R.POS_CFG_PORT v (4 + i)) == p then ssiStart s v (4 + i) else s)

/-- The port has ticks of its own: a TYPE, and no primary. -/
def ticks (s : State) (v : Vat) (p : Nat) : Bool := s.is (R.PORT_CFG_TYPE v p) && !isSecondary s v p

/-- A tick of a vat; in a vat whose supervisor and engines are in reset only the carriers and the AUX sequencers go on (R251). -/
def portTick (s : State) (v : Vat) (p : Nat) : State :=
  if !pulseRuns s v || !ticks s v p then s else
    let s := countTick s v p
    if s.vatLive v then liveTick s v p else heldTick s v p

def execPortTick (v : Vat) (p : Fin 8) (s : State) : Host.Outcome State Fault Refusal := .next (settle (portTick s v p.val))

def reload (s : State) (v : Vat) (p : Nat) (valley : Bool) (landed : Nat) : State :=
  if !pulseRuns s v || !reloadsAt s v p valley then s else
    passPending (forVats (injEvent (reloadAt s v p valley landed) v (if valley then .valley else .peak) p) joinCheck)

def execReload (v : Vat) (p : Fin 8) (valley : Bool) (landed : Nat) (s : State) : Host.Outcome State Fault Refusal :=
  .next (settle (reload s v p.val valley landed))

end Sys2Proof.Machine
end

