-- ==== Sys2Proof/Machine/Dispatch.lean ====
section
/-! DEFINITION. The meaning of each command: one arm per constructor, each one call of the command's meaning. -/

namespace Sys2Proof.Machine

open Sys2Proof

def exec (i : Instr) (s : State) : Host.Outcome State Fault Refusal :=
  match i with
  | .powerOnReset strap idFails bank33 => Sys2Proof.Machine.execPowerOnReset strap idFails bank33 s
  | .brownOut => Sys2Proof.Machine.execBrownOut s
  | .resetNAssert => Sys2Proof.Machine.execResetNAssert s
  | .resetNHeld => Sys2Proof.Machine.execResetNHeld s
  | .resetNRelease held => Sys2Proof.Machine.execResetNRelease held s
  | .sysreq v => Sys2Proof.Machine.execSysreq v s
  | .vatreq v => Sys2Proof.Machine.execVatreq v s
  | .vatWatchdogExpiry v => Sys2Proof.Machine.execVatWatchdogExpiry v s
  | .criticalDoubleBitError site => Sys2Proof.Machine.execCriticalDoubleBitError site s
  | .configParityError site => Sys2Proof.Machine.execConfigParityError site s
  | .checkerSelfTest commonOk aOk bOk => Sys2Proof.Machine.execCheckerSelfTest commonOk aOk bOk s
  | .domainRelease d r0 r1 => Sys2Proof.Machine.execDomainRelease d r0 r1 s
  | .domainReleaseWithdrawn d => Sys2Proof.Machine.execDomainReleaseWithdrawn d s
  | .sramCheckComplete ok => Sys2Proof.Machine.execSramCheckComplete ok s
  | .wheelLoaded r0 r1 fuse0 fuse1 => Sys2Proof.Machine.execWheelLoaded r0 r1 fuse0 fuse1 s
  | .startFailsClear => Sys2Proof.Machine.execStartFailsClear s
  | .refclkPresent pherr => Sys2Proof.Machine.execRefclkPresent pherr s
  | .refclkLost => Sys2Proof.Machine.execRefclkLost s
  | .phaseSlewComplete slewed pherr => Sys2Proof.Machine.execPhaseSlewComplete slewed pherr s
  | .lossOfLock lost => Sys2Proof.Machine.execLossOfLock lost s
  | .loopGood l => Sys2Proof.Machine.execLoopGood l s
  | .roCalibration freq => Sys2Proof.Machine.execRoCalibration freq s
  | .rampProfileStep => Sys2Proof.Machine.execRampProfileStep s
  | .delayLineRecal v leg => Sys2Proof.Machine.execDelayLineRecal v leg s
  | .sliceOutput v n bits arr => Sys2Proof.Machine.execSliceOutput v n bits arr s
  | .frozenSet v n => Sys2Proof.Machine.execFrozenSet v n s
  | .freshnessStale v n => Sys2Proof.Machine.execFreshnessStale v n s
  | .staleClear v n => Sys2Proof.Machine.execStaleClear v n s
  | .syncResetEffect v g => Sys2Proof.Machine.execSyncResetEffect v g s
  | .sgrpSyncGo v g mask => Sys2Proof.Machine.execSgrpSyncGo v g mask s
  | .groupClockLoss g => Sys2Proof.Machine.execGroupClockLoss g s
  | .groupClockReturn g => Sys2Proof.Machine.execGroupClockReturn g s
  | .rotationStep v g => Sys2Proof.Machine.execRotationStep v g s
  | .rotationCompare v g same => Sys2Proof.Machine.execRotationCompare v g same s
  | .sliceTestComplete v g ok => Sys2Proof.Machine.execSliceTestComplete v g ok s
  | .gcalWindow => Sys2Proof.Machine.execGcalWindow s
  | .auxFrameComplete v k echo status result => Sys2Proof.Machine.execAuxFrameComplete v k echo status result s
  | .auxkDataRead v k => Sys2Proof.Machine.execAuxkDataRead v k s
  | .injectedTrigger v e => Sys2Proof.Machine.execInjectedTrigger v e s
  | .auxAgeLimit v n => Sys2Proof.Machine.execAuxAgeLimit v n s
  | .portTick v p => Sys2Proof.Machine.execPortTick v p s
  | .arrivalTimeout v p n => Sys2Proof.Machine.execArrivalTimeout v p n s
  | .evaluationEnd v c => Sys2Proof.Machine.execEvaluationEnd v c s
  | .commitComplete v c k => Sys2Proof.Machine.execCommitComplete v c k s
  | .deadlineAbandon v c k landed => Sys2Proof.Machine.execDeadlineAbandon v c k landed s
  | .wheyDoubleBitError v c k b => Sys2Proof.Machine.execWheyDoubleBitError v c k b s
  | .selfTestDue v c => Sys2Proof.Machine.execSelfTestDue v c s
  | .selfTestComplete v c ok landed => Sys2Proof.Machine.execSelfTestComplete v c ok landed s
  | .selfTestLate v c => Sys2Proof.Machine.execSelfTestLate v c s
  | .waddrWrite v c a => Sys2Proof.Machine.execWaddrWrite v c a s
  | .reload v p valley landed => Sys2Proof.Machine.execReload v p valley landed s
  | .tripRegistration v idx => Sys2Proof.Machine.execTripRegistration v idx s
  | .softTripResolution v p idx => Sys2Proof.Machine.execSoftTripResolution v p idx s
  | .dstFrame v leg frame formed enSteady => Sys2Proof.Machine.execDstFrame v leg frame formed enSteady s
  | .faultBreak v leg => Sys2Proof.Machine.execFaultBreak v leg s
  | .dstLineError v leg => Sys2Proof.Machine.execDstLineError v leg s
  | .driverLinkLoss v leg => Sys2Proof.Machine.execDriverLinkLoss v leg s
  | .asctExpiry v p => Sys2Proof.Machine.execAsctExpiry v p s
  | .encoderEdge v idx e => Sys2Proof.Machine.execEncoderEdge v idx e s
  | .ssiFrameComplete v idx noresp word => Sys2Proof.Machine.execSsiFrameComplete v idx noresp word s
  | .setpEdge v idx rising => Sys2Proof.Machine.execSetpEdge v idx rising s
  | .openLoopTimeout v p => Sys2Proof.Machine.execOpenLoopTimeout v p s
  | .openLoopRecovery v p => Sys2Proof.Machine.execOpenLoopRecovery v p s
  | .observerRideTimeout v p => Sys2Proof.Machine.execObserverRideTimeout v p s
  | .observerRideRecovery v p => Sys2Proof.Machine.execObserverRideRecovery v p s
  | .zeroEffortTimeout v p => Sys2Proof.Machine.execZeroEffortTimeout v p s
  | .restorationBroadcast p => Sys2Proof.Machine.execRestorationBroadcast p s
  | .restorationLoss p => Sys2Proof.Machine.execRestorationLoss p s
  | .heartbeatLost v => Sys2Proof.Machine.execHeartbeatLost v s
  | .vatFaultFlag v src => Sys2Proof.Machine.execVatFaultFlag v src s
  | .compareMismatch kind => Sys2Proof.Machine.execCompareMismatch kind s
  | .attributionWindowEnd => Sys2Proof.Machine.execAttributionWindowEnd s
  | .ownershipClaim a b => Sys2Proof.Machine.execOwnershipClaim a b s
  | .padMismatch leg => Sys2Proof.Machine.execPadMismatch leg s
  | .legHandover item => Sys2Proof.Machine.execLegHandover item s
  | .vatRelease v => Sys2Proof.Machine.execVatRelease v s
  | .joinCopyComplete v => Sys2Proof.Machine.execJoinCopyComplete v s
  | .rejoinTimeout v => Sys2Proof.Machine.execRejoinTimeout v s
  | .drillCheckWindowEnd => Sys2Proof.Machine.execDrillCheckWindowEnd s
  | .unattrWindowExpiry => Sys2Proof.Machine.execUnattrWindowExpiry s
  | .harpInDemand idx => Sys2Proof.Machine.execHarpInDemand idx s
  | .harpInRelease idx => Sys2Proof.Machine.execHarpInRelease idx s
  | .discrepancyTimeout pairB => Sys2Proof.Machine.execDiscrepancyTimeout pairB s
  | .railFault => Sys2Proof.Machine.execRailFault s
  | .ss1Timeout => Sys2Proof.Machine.execSs1Timeout s
  | .harpOutOffDelay n => Sys2Proof.Machine.execHarpOutOffDelay n s
  | .testPulseDue n => Sys2Proof.Machine.execTestPulseDue n s
  | .testPulseEnd n offOk onOk changed => Sys2Proof.Machine.execTestPulseEnd n offOk onOk changed s
  | .feedbackError n => Sys2Proof.Machine.execFeedbackError n s
  | .rideExpiry => Sys2Proof.Machine.execRideExpiry s
  | .orderResolution => Sys2Proof.Machine.execOrderResolution s
  | .rindReset watchdog romOk par0 par1 slots => Sys2Proof.Machine.execRindReset watchdog romOk par0 par1 slots s
  | .rindBrownoutWarning => Sys2Proof.Machine.execRindBrownoutWarning s
  | .commitSlot bits => Sys2Proof.Machine.execCommitSlot bits s
  | .rindPublication bits => Sys2Proof.Machine.execRindPublication bits s
  | .rindInputStale x => Sys2Proof.Machine.execRindInputStale x s
  | .rindIntegrityCheck daily romOk par0 par1 => Sys2Proof.Machine.execRindIntegrityCheck daily romOk par0 par1 s
  | .sealAccept => Sys2Proof.Machine.execSealAccept s
  | .energyImpulse => Sys2Proof.Machine.execEnergyImpulse s
  | .rindRead offset count => Sys2Proof.Machine.execRindRead offset count s
  | .rindRecord session => Sys2Proof.Machine.execRindRecord session s
  | .rindAuditrec index => Sys2Proof.Machine.execRindAuditrec index s
  | .rindSealwr id value => Sys2Proof.Machine.execRindSealwr id value s
  | .rindMtset mt => Sys2Proof.Machine.execRindMtset mt s
  | .rindMtcorr msg => Sys2Proof.Machine.execRindMtcorr msg s
  | .mailboxPoll => Sys2Proof.Machine.execMailboxPoll s
  | .tapSample bits => Sys2Proof.Machine.execTapSample bits s
  | .rindDown power => Sys2Proof.Machine.execRindDown power s
  | .canFrameRx c f sof => Sys2Proof.Machine.execCanFrameRx c f sof s
  | .rxTimeout c e => Sys2Proof.Machine.execRxTimeout c e s
  | .periodicTxDue c e onBus => Sys2Proof.Machine.execPeriodicTxDue c e onBus s
  | .eventTxCheck => Sys2Proof.Machine.execEventTxCheck s
  | .canTxComplete c acked sof tdcv => Sys2Proof.Machine.execCanTxComplete c acked sof tdcv s
  | .busOff c => Sys2Proof.Machine.execBusOff c s
  | .busOffRecovery c => Sys2Proof.Machine.execBusOffRecovery c s
  | .entryMove c => Sys2Proof.Machine.execEntryMove c s
  | .lonelyProbe c => Sys2Proof.Machine.execLonelyProbe c s
  | .ethFrameRx p frame bad residence ptp => Sys2Proof.Machine.execEthFrameRx p frame bad residence ptp s
  | .ethLinkLoss p => Sys2Proof.Machine.execEthLinkLoss p s
  | .ntSyncLoss => Sys2Proof.Machine.execNtSyncLoss s
  | .stepGo => Sys2Proof.Machine.execStepGo s
  | .launchTimeDue p q => Sys2Proof.Machine.execLaunchTimeDue p q s
  | .ctsReq => Sys2Proof.Machine.execCtsReq s
  | .ppsInEdge rising req => Sys2Proof.Machine.execPpsInEdge rising req s
  | .ppsOutSecond => Sys2Proof.Machine.execPpsOutSecond s
  | .internalCrossCapture => Sys2Proof.Machine.execInternalCrossCapture s
  | .serviceSegment seg => Sys2Proof.Machine.execServiceSegment seg s
  | .serviceSegmentTimeout => Sys2Proof.Machine.execServiceSegmentTimeout s
  | .hello => Sys2Proof.Machine.execHello s
  | .auth => Sys2Proof.Machine.execAuth s
  | .endSession => Sys2Proof.Machine.execEndSession s
  | .sessionIdleTimeout => Sys2Proof.Machine.execSessionIdleTimeout s
  | .read => Sys2Proof.Machine.execRead s
  | .wheySelect => Sys2Proof.Machine.execWheySelect s
  | .order => Sys2Proof.Machine.execOrder s
  | .senseSync => Sys2Proof.Machine.execSenseSync s
  | .handoverDrill => Sys2Proof.Machine.execHandoverDrill s
  | .vatReset => Sys2Proof.Machine.execVatReset s
  | .sysReset => Sys2Proof.Machine.execSysReset s
  | .safetyClear => Sys2Proof.Machine.execSafetyClear s
  | .canFlush won => Sys2Proof.Machine.execCanFlush won s
  | .recoveryExit => Sys2Proof.Machine.execRecoveryExit s
  | .wheelErase => Sys2Proof.Machine.execWheelErase s
  | .wheelWrite readOk => Sys2Proof.Machine.execWheelWrite readOk s
  | .safeConfirm => Sys2Proof.Machine.execSafeConfirm s
  | .mtCorrect => Sys2Proof.Machine.execMtCorrect s
  | .patchWrite => Sys2Proof.Machine.execPatchWrite s
  | .patchErase => Sys2Proof.Machine.execPatchErase s
  | .certRevoke => Sys2Proof.Machine.execCertRevoke s
  | .debugUnlock => Sys2Proof.Machine.execDebugUnlock s
  | .debugLock => Sys2Proof.Machine.execDebugLock s
  | .ownerXfer fuseOk => Sys2Proof.Machine.execOwnerXfer fuseOk s
  | .decommission => Sys2Proof.Machine.execDecommission s
  | .jtagAccess op => Sys2Proof.Machine.execJtagAccess op s
  | .firewallViolation m addr dir => Sys2Proof.Machine.execFirewallViolation m addr dir s
  | .busErrorAccess m addr width write => Sys2Proof.Machine.execBusErrorAccess m addr width write s
  | .registerWrite m addr data => Sys2Proof.Machine.execRegisterWrite m addr data s
  | .logRecordWrite => Sys2Proof.Machine.execLogRecordWrite s
  | .captureComplete => Sys2Proof.Machine.execCaptureComplete s
  | .tailMirror => Sys2Proof.Machine.execTailMirror s
  | .brineScrub m off r => Sys2Proof.Machine.execBrineScrub m off r s
  | .trimStagingComplete ok => Sys2Proof.Machine.execTrimStagingComplete ok s
  | .xspiResetRelease => Sys2Proof.Machine.execXspiResetRelease s
  | .tripLevelRelease v idx => Sys2Proof.Machine.execTripLevelRelease v idx s
  | .generatorEdge v leg e => Sys2Proof.Machine.execGeneratorEdge v leg e s
  | .blankingWindowClose v p => Sys2Proof.Machine.execBlankingWindowClose v p s
  | .faultBreakEnd v leg => Sys2Proof.Machine.execFaultBreakEnd v leg s
  | .padRecurrenceWindowEnd => Sys2Proof.Machine.execPadRecurrenceWindowEnd s
  | .canErrorDetected c k => Sys2Proof.Machine.execCanErrorDetected c k s
  | .ethLinkUp p speed => Sys2Proof.Machine.execEthLinkUp p speed s
  | .announceReceiptTimeout p => Sys2Proof.Machine.execAnnounceReceiptTimeout p s
  | .ptpMessageInterval m => Sys2Proof.Machine.execPtpMessageInterval m s
  | .addressAgeing mac => Sys2Proof.Machine.execAddressAgeing mac s
  | .sealRelease => Sys2Proof.Machine.execSealRelease s
  | .rindInputReturn x => Sys2Proof.Machine.execRindInputReturn x s
  | .rindPortFrameError frame => Sys2Proof.Machine.execRindPortFrameError frame s
  | .nvStoreRefresh => Sys2Proof.Machine.execNvStoreRefresh s

end Sys2Proof.Machine
end

