-- ==== Sys2Proof/Machine/Idle.lean ====
section
/-! DEFINITION. What passes while no command waits: one cycle of REFCLK, 40 ns (notes/assumptions/30.md). The time bases advance
(R337, R354), and with them the counts that the spec runs on them. -/

namespace Sys2Proof.Machine

open Sys2Proof

/-- 2^44 cycles of PLL-T in 40 ns: 20 cycles, times 1 + y where the ramp profile runs (R206, R358, R359). -/
def ptPerCycle (s : State) : Nat :=
  let r := rampRate s
  20 * 2 ^ 44 * r.1 / r.2

/-- NT in 40 ns, in 2^-37 ns: 40 × (1 + NT_FREQ × 2^-40). -/
def ntPerCycle (s : State) : Nat := unsignedOf 64 (5 * ((2 ^ 40 : Nat) + signedOf 32 (s.regs.get R.NT_FREQ).toNat))

/-- MT's advance in 40 ns: one part in a thousand more or less while a correction slews (R299).
(DEDUCED: notes/assumptions/31.md.) -/
def mtPerCycle (r : RindSt) : RindSt :=
  let d : Int := clampInt (-1) 1 r.pendQ
  { r with mtQ := r.mtQ + 1000 + d.toNat - (-d).toNat, pendQ := r.pendQ - d }

/-- Tenths of a second that `n` units are, of which `u` are a tenth; a part counts as one. -/
def tenths (n u : Nat) : Nat := (n + u - 1) / u

/-- The ride of a safety fault (R280). -/
def idleRide (s : State) : State :=
  if !s.is R.SAFE_STAT_RIDE then s else
    let n := s.harp.rideNs - 40
    { (s.wr R.SAFE_STAT_DG_LEFT (tenths n 100000000)) with harp := { s.harp with rideNs := n } }

/-- A feedback that still differs keeps its safety fault's source present (R281). -/
def idleFeedback (s : State) : State :=
  if s.rdBit ⟨R.SAFE_FAULT, 0, 32⟩ 4 && (List.range 4).any (feedbackDiffers s) then notePresent s 4 else s

/-- Open-loop and observer rides of a port, over `d` cycles of PT (R164, R197). -/
def idlePort (d : Nat) (s : State) (v : Vat) (p : Nat) : State :=
  let g := getGuard s v p
  let s := if gridPort s v p && s.is (R.GRID_STAT_OL v p) then
      modGuard (s.wr (R.GRID_STAT_OL_LEFT v p) (tenths (g.olPt - d) 50000000)) v p (fun g => { g with olPt := g.olPt - d })
    else s
  if drivePort s v p && s.is (R.DRV_STAT_OBS v p) then
    modGuard (s.wr (R.DRV_STAT_OBS_LEFT v p) (tenths (g.obsPt - d) 50000000)) v p (fun g => { g with obsPt := g.obsPt - d })
  else s

/-- What waits for a time in a vat's pulse generator: edges (R217, R232), blanking windows (R222) and the disregard of HUV (R234). -/
def idlePulse (s : State) (v : Vat) : State :=
  if !pulseRuns s v then s
  else forN 32 (forN 8 s (fun s p => openWindows (portTime s v p) v p)) (fun s n => if (getLeg s v n).huvEnd.isSome then endDisregard s v n else s)

/-- The supervisor toggles its heartbeat (R244): it runs, its own checks have not declared the vat faulty, and the heartbeat has not
been found lost. -/
def heartbeats (s : State) (v : Vat) : Bool :=
  !s.rdBit (R.FW_FROZEN_FROZEN v) 8 && !s.rdBit (R.VAT_ROLE_FLTSRC v) 0 && !s.rdBit (R.VAT_ROLE_FLTSRC v) 5

/-- A vat's own counts: its heartbeat once every µs, and its guards' rides. -/
def idleVat (d : Nat) (s : State) (v : Vat) : State :=
  if !s.vatLive v then s else
    let s := if s.time.vt % 1000 < 40 && heartbeats s v then s.incWrap (R.VAT_HB_HBCNT v) else s
    forN 8 s (fun s p => idlePort d s v p)

/-- The time bases: VT from POR release, PT and NT from the release of their domains. -/
def idleTime (s : State) : State :=
  let t := s.time
  { s with time := { t with
    vt := if s.rst.phase = .por then t.vt else t.vt + 40
    ptQ := if domainUp s .T && s.rdBit R.CLK_STAT_GOOD 2 then t.ptQ + ptPerCycle s else t.ptQ
    realQ := if domainUp s .T && s.rdBit R.CLK_STAT_GOOD 2 then t.realQ + 20 * 2 ^ 44 else t.realQ
    ntQ := if domainUp s .N then t.ntQ + ntPerCycle s else t.ntQ } }

/-- Frames that wait for their port (R333, R346), and those that wait for the protocol (R343). -/
def idleSwitch (s : State) : State := resumePtp (drainPort (drainPort s 0) 1)

/-- One cycle of REFCLK with no command. -/
def idle (s : State) : State :=
  let before := s.pt
  let s := slewStep (idleTime s)
  let s := drainPulse { s with rind := if s.rind.powered then mtPerCycle s.rind else s.rind }
  State.endLog <| idleSwitch <| passPending <| watchVats <| forVats (idleFeedback (idleRide s)) (fun s v => idlePulse (idleVat (s.pt - before) s v) v)

end Sys2Proof.Machine
end

