-- ==== Sys2Proof/Machine/Pins.lean ====
section
/-! DEFINITION. The balls (21_pins_and_package.md R437-R446) and the clock outputs (16_clocks.md R363, R364): what stands where, in
which bank, and what each signal ball shows in a state of the device. -/

namespace Sys2Proof.Machine

open Sys2Proof

/-! ## Signals, banks and pulls (R438, R442, R443) -/

/-- The signal balls. -/
inductive Signal where
  | pulse (n : Nat)
  | en (n : Nat)
  | dst (n : Nat)
  | mdat (n : Nat)
  | mclk (g : Nat) (comp : Bool)
  | cko (i : Nat) (comp : Bool)
  | setp (n : Nat)
  | encA (n : Nat)
  | encB (n : Nat)
  | encZ (n : Nat)
  | ssiD (n : Nat)
  | ssiCk (n : Nat)
  | auxCk (k : Nat)
  | auxCs (k : Nat)
  | auxDo (k : Nat)
  | auxDi (k : Nat)
  | trip (n : Nat)
  | harpIn (n : Nat)
  | harpFb (n : Nat)
  | harpOut (n : Nat)
  | resetN
  | resetOutN
  | faultN
  | ready
  | bootMode (n : Nat)
  | ppsIn
  | ppsOut
  | tck
  | tms
  | tdi
  | trstN
  | tdo
  | canTx (c : Nat)
  | canRx (c : Nat)
  | eth (p : Nat) (b : EthBall)
  | mdc
  | mdio
  | xspiCk
  | xspiCsN
  | xspiDqs
  | xspiIo (n : Nat)
  | xspiRstN
  | refclkP
  | refclkN
  | mtrDat (n : Nat)
  | mtrClk
  | mtrSealN
  | mtrPulse
  | mtrTx
  | mtrRx
  | mtrXi
  | mtrXo
  deriving DecidableEq, Repr

/-- The supply a signal ball belongs to: a bank, VDDA, or the Rind's. -/
inductive Supply where
  | bank (k : Nat)
  | vdda
  | rind
  deriving DecidableEq, Repr

def Signal.supply : Signal → Supply
  | .pulse n | .en n | .dst n => .bank (if n < 16 then 0 else 1)
  | .mdat n => .bank (if n < 32 then 2 else 3)
  | .mclk g _ => .bank (if g < 4 then 2 else 3)
  | .setp _ | .encA _ | .encB _ | .encZ _ | .ssiD _ | .ssiCk _ | .auxCk _ | .auxCs _ | .auxDo _ | .auxDi _ => .bank 4
  | .trip _ | .harpIn _ | .harpFb _ | .harpOut _ | .resetN | .resetOutN | .faultN | .ready | .bootMode _ | .ppsIn | .ppsOut
  | .tck | .tms | .tdi | .trstN | .tdo => .bank 5
  | .canTx _ | .canRx _ | .eth _ _ | .mdc | .mdio => .bank 6
  | .cko _ _ | .xspiCk | .xspiCsN | .xspiDqs | .xspiIo _ | .xspiRstN => .bank 7
  | .refclkP | .refclkN => .vdda
  | .mtrDat _ | .mtrClk | .mtrSealN | .mtrPulse | .mtrTx | .mtrRx | .mtrXi | .mtrXo => .rind

/-- A control-side ball that the M72 drives; XSPI_IO and MDIO are driven and read. -/
def Signal.output : Signal → Bool
  | .pulse _ | .en _ | .mclk _ _ | .cko _ _ | .ssiCk _ | .auxCk _ | .auxCs _ | .auxDo _ | .harpOut _ | .resetOutN | .faultN
  | .ready | .ppsOut | .tdo | .canTx _ | .mdc | .mdio | .xspiCk | .xspiCsN | .xspiIo _ | .xspiRstN => true
  | .eth _ b => (match b with
    | .txc | .txCtl | .txd _ => true
    | .rxc | .rxCtl | .rxd _ => false)
  | _ => false

/-- The internal pull of an input: true up, false down (R442, R443); outputs, REFCLK and the Rind's crystal have none. -/
def Signal.pull : Signal → Option Bool
  | .resetN | .tms | .tdi | .trstN | .canRx _ | .mdio | .xspiIo _ | .mtrSealN | .mtrRx => some true
  | .refclkP | .refclkN => none
  | q => if q.output || q.supply == .rind then none else some false

/-! ## The ball grid (R437, R438) -/

/-- What a ball carries. -/
inductive Ball where
  | sig (q : Signal)
  | vdd
  | vdda
  | vddio (k : Nat)
  | vss
  | mtr08
  | mtr18
  | vssMtr
  deriving DecidableEq, Repr

/-- A table of balls, by rows. -/
def ballOf (t : List (List Ball)) (r c : Nat) : Ball := nth (nth t r []) c .vss

/-- Legs' balls: PULSE, EN and DST outermost first. -/
def legBall (n d : Nat) : Ball :=
  match d with
  | 0 => .sig (.pulse n)
  | 1 => .sig (.en n)
  | _ => .sig (.dst n)

/-- Rows A-F, columns 7-22. -/
def topBand (r c : Nat) : Ball :=
  if r ≤ 3 then legBall (c - 7) (r - 1) else if r = 5 && c % 2 = 1 then .vddio 0 else .vss

/-- Rows G-AC, columns 23-28. -/
def rightBand (r c : Nat) : Ball :=
  if 26 ≤ c then legBall (r + 9) (28 - c) else if c = 24 && r % 2 = 1 then .vddio 1 else .vss

/-- Rows AD-AJ, columns 7-22. -/
def bottomBand (r c : Nat) : Ball :=
  let g := (c - 7) / 2
  let second := (c - 7) % 2
  if 25 ≤ r then .sig (.mdat (8 * g + 2 * (28 - r) + second))
  else if r = 24 then .sig (.mclk g (second == 1))
  else if second = 0 then .vddio (if g < 4 then 2 else 3) else .vss

/-- The top-left corner, bank B5. -/
def topLeft : List (List Ball) :=
  [[.sig .tck, .sig .tms, .sig .tdi, .sig .tdo, .sig .trstN, .vddio 5],
   [.sig .resetN, .sig .resetOutN, .sig .faultN, .sig .ready, .sig (.bootMode 0), .sig (.bootMode 1)],
   [.sig .ppsIn, .sig .ppsOut, .vss, .vddio 5, .sig (.harpIn 0), .sig (.harpIn 1)],
   [.sig (.harpIn 2), .sig (.harpIn 3), .sig (.harpOut 0), .sig (.harpOut 1), .sig (.harpOut 2), .sig (.harpOut 3)],
   [.sig (.harpFb 0), .sig (.harpFb 1), .sig (.harpFb 2), .sig (.harpFb 3), .sig (.trip 0), .sig (.trip 1)],
   [.sig (.trip 2), .sig (.trip 3), .sig (.trip 4), .sig (.trip 5), .sig (.trip 6), .sig (.trip 7)]]

/-- Column 1 of the left band. -/
def leftOne (i : Nat) : Ball :=
  if i < 8 then .sig (.setp i) else if i % 2 = 0 then .sig (.ssiCk ((i - 8) / 2)) else .sig (.ssiD ((i - 8) / 2))

/-- Column 2: three signals of an encoder, then VDDIO_B4. -/
def leftTwo (i : Nat) : Ball :=
  match i % 4 with
  | 0 => .sig (.encA (i / 4))
  | 1 => .sig (.encB (i / 4))
  | 2 => .sig (.encZ (i / 4))
  | _ => .vddio 4

/-- Column 3: the AUX links. -/
def leftThree (i : Nat) : Ball :=
  match i % 4 with
  | 0 => .sig (.auxCk (i / 4))
  | 1 => .sig (.auxCs (i / 4))
  | 2 => .sig (.auxDo (i / 4))
  | _ => .sig (.auxDi (i / 4))

/-- Column 4: the CAN channels and the management bus. -/
def leftFour (i : Nat) : Ball :=
  if i < 12 then (if i % 2 = 0 then .sig (.canTx (i / 2)) else .sig (.canRx (i / 2)))
  else if i = 12 then .sig .mdc else if i = 13 then .sig .mdio else .vddio 6

/-- Columns 5 and 6: the Ethernet ports. -/
def leftFive (p i : Nat) : Ball :=
  nth [.sig (.eth p .txc), .sig (.eth p .txCtl), .sig (.eth p (.txd 0)), .sig (.eth p (.txd 1)), .sig (.eth p (.txd 2)),
    .sig (.eth p (.txd 3)), .vss, .sig (.eth p .rxc), .sig (.eth p .rxCtl), .sig (.eth p (.rxd 0)), .sig (.eth p (.rxd 1)),
    .sig (.eth p (.rxd 2)), .sig (.eth p (.rxd 3)), .vddio 6, .vss, .vss] i .vss

/-- Rows G-AC, columns 1-6. -/
def leftBand (r c : Nat) : Ball :=
  let i := r - 7
  match c with
  | 1 => leftOne i
  | 2 => leftTwo i
  | 3 => leftThree i
  | 4 => leftFour i
  | _ => leftFive (c - 5) i

/-- The Rind's corner. -/
def rindCorner : List (List Ball) :=
  [[.vssMtr, .vssMtr, .vssMtr, .vssMtr, .vssMtr, .vssMtr],
   [.sig (.mtrDat 0), .sig (.mtrDat 1), .sig (.mtrDat 2), .sig (.mtrDat 3), .vssMtr, .mtr18],
   [.sig (.mtrDat 4), .sig (.mtrDat 5), .sig (.mtrDat 6), .sig (.mtrDat 7), .vssMtr, .mtr18],
   [.sig .mtrClk, .sig .mtrSealN, .sig .mtrPulse, .sig .mtrTx, .sig .mtrRx, .mtr08],
   [.sig .mtrXi, .vssMtr, .sig .mtrXo, .vssMtr, .mtr08, .mtr08],
   [.vssMtr, .vssMtr, .mtr18, .mtr18, .mtr08, .vssMtr]]

/-- The bottom-right corner: bank B7 and the reference. -/
def flashCorner : List (List Ball) :=
  [[.sig .xspiCk, .sig .xspiCsN, .sig .xspiDqs, .sig .xspiRstN, .vddio 7, .vss],
   [.sig (.xspiIo 0), .sig (.xspiIo 1), .sig (.xspiIo 2), .sig (.xspiIo 3), .sig (.xspiIo 4), .sig (.xspiIo 5)],
   [.sig (.xspiIo 6), .sig (.xspiIo 7), .vddio 7, .vss, .sig (.cko 0 false), .sig (.cko 0 true)],
   [.sig (.cko 1 false), .sig (.cko 1 true), .sig (.cko 2 false), .sig (.cko 2 true), .sig (.cko 3 false), .sig (.cko 3 true)],
   [.vdda, .vdda, .vdda, .vdda, .vss, .vss],
   [.sig .refclkP, .sig .refclkN, .vdda, .vdda, .vdda, .vdda]]

/-- The top-right corner. -/
def topRight (r c : Nat) : Ball :=
  if [(1, 23), (1, 24), (2, 23)].contains (r, c) then .vddio 0
  else if [(4, 27), (4, 28), (5, 28)].contains (r, c) then .vddio 1 else .vss

/-- The ball at a row, by its position from 1, A, to 28, AJ, and a column, 1-28. -/
def ballAt (r c : Nat) : Ball :=
  if r ≤ 6 then (if c ≤ 6 then ballOf topLeft (r - 1) (c - 1) else if c ≤ 22 then topBand r c else topRight r c)
  else if r ≤ 22 then (if c ≤ 6 then leftBand r c else if c ≤ 22 then (if (r + c) % 2 = 0 then .vdd else .vss) else rightBand r c)
  else if c ≤ 6 then ballOf rindCorner (r - 23) (c - 1)
  else if c ≤ 22 then bottomBand r c else ballOf flashCorner (r - 23) (c - 23)

/-! ## The clock outputs (R363, R364) -/

/-- What drives a clock output pair: nothing, a clock of `num / den` Hz on the true ball with the complement low, or a pair. -/
inductive ClockOut where
  | off
  | cmos (num den : Nat)
  | lvds (num den : Nat)
  deriving DecidableEq, Repr

/-- Synthesiser `j`: 800 MHz / (N + F/16), while PLL-C is good (R363, R366). -/
def synthesiser (s : State) (j : Nat) : Option (Nat × Nat) :=
  if s.rdBit R.CLK_STAT_GOOD 4 then some (12800000000, 16 * s.rd (R.SYN_N j) + s.rd (R.SYN_F j)) else none

/-- PLL-T ÷ n, which follows the profile (R359). -/
def pllTOver (s : State) (n : Nat) : Option (Nat × Nat) :=
  let r := rampRate s
  if s.rdBit R.CLK_STAT_GOOD 2 then some (500000000 * r.1, n * r.2) else none

/-- An output of format `fmt` from a source. -/
def clockFormat (fmt : Nat) : Option (Nat × Nat) → ClockOut
  | none => .off
  | some (a, b) => if fmt = 0 then .off else if fmt = 3 then .lvds a b else .cmos a b

/-- MCLKg. -/
def mclkOut (s : State) (g : Nat) : ClockOut :=
  if !s.clk.outputsOn then .off
  else clockFormat (s.rd (R.MCLK_CFG_FMT g))
    (if s.is (R.SGRP_CLK_SRC .A g) then synthesiser s g else pllTOver s (s.rd (R.SGRP_CLK_DIV .A g)))

/-- CKOi. -/
def ckoOut (s : State) (i : Nat) : ClockOut :=
  let div := s.rd (R.CKO_CFG_DIV i)
  if !s.clk.outputsOn then .off
  else clockFormat (s.rd (R.CKO_CFG_FMT i)) (match s.rd (R.CKO_CFG_SRC i) with
    | 0 => if s.is R.CLK_STAT_REF_OK then some (25000000, 1) else none
    | 1 => synthesiser s (8 + i)
    | 2 => pllTOver s div
    | _ => if s.rdBit R.CLK_STAT_GOOD 3 then some (250000000, div) else none)

/-- Cycles of its source that an integer divider holds its output high. -/
def dividerHigh (div : Nat) : Nat := (div + 1) / 2

/-! ## What a ball shows (R373, R385, R443, R444, R446) -/

/-- A ball's state: a level, high impedance, working as its own chapter lays down, an input that is not looked at, or not connected. -/
inductive PinState where
  | level (high : Bool)
  | z
  | running
  | ignored
  | noConnect
  deriving DecidableEq, Repr

/-- A ball of a clock output. -/
def clockBall (o : ClockOut) (comp : Bool) : PinState :=
  match o with
  | .off => .level false
  | .cmos _ _ => if comp then .level false else .running
  | .lvds _ _ => .running

/-- A ball of an Ethernet port: low where its role or its state is low, ignored likewise. -/
def ethPin (s : State) (p : Nat) (b : EthBall) : PinState :=
  match ethRole s p b with
  | .low => .level false
  | .ignored => .ignored
  | _ => .running

/-- The device runs its own functions at the balls: from the release of the common domain, and not in RECOVERY. -/
def ownFunctions (s : State) : Bool := s.dev != .off && s.dev != .recovery

/-- A CAN channel may drive the bus: neither off nor listen-only (R311), nor retired (R329). -/
def canDrives (s : State) (c : Nat) : Bool := (canMode s c == 1 || canMode s c == 2) && !s.is (R.CAN_STAT_RETIRED c)

/-- A control-side output with its drivers on: Reset, RECOVERY and running columns of R443. -/
def drivenPin (s : State) (q : Signal) : PinState :=
  let own := ownFunctions s
  match q with
  | .pulse n => .level (own && (pinLevels s n).1)
  | .en n => .level (own && (pinLevels s n).2)
  | .mclk g comp => clockBall (mclkOut s g) comp
  | .cko i comp => clockBall (ckoOut s i) comp
  | .harpOut n => .level (s.rdBit R.HARP_STAT_OUT n)
  | .resetOutN => .level s.resetOutN
  | .faultN => .level s.faultN
  | .ready => .level s.readyPin
  | .ppsOut => .level (own && ppsLevel s)
  | .ssiCk i => if own && s.is (R.POS_CFG_EN s.viewVat (i + 4)) then .running else .level false
  | .auxCk _ | .auxCs _ | .auxDo _ | .mdc => if own then .running else .level false
  | .mdio => if own then .running else .z
  | .canTx c => if (own || (c == 0 && s.dev == .recovery)) && s.rdBit R.CLK_STAT_GOOD 5 && canDrives s c then .running else .level true
  | .eth p b => ethPin s p b
  | .xspiCk => if s.dev = .off then .level false else .running
  | .xspiCsN => if s.dev = .off then .level true else .running
  | .xspiRstN => .level s.xspiRstN
  | .xspiIo n => if own || (n < 2 && s.dev == .recovery) then .running else .z
  | .tdo => .z
  | _ => .running

/-- An input as its table's columns say. -/
def inputPin (s : State) (q : Signal) : PinState :=
  let own := ownFunctions s
  match q with
  | .resetN | .tck | .tms | .tdi | .trstN | .refclkP | .refclkN => .running
  | .bootMode _ => .ignored
  | .trip _ | .harpIn _ | .harpFb _ | .ppsIn => if s.dev = .off then .ignored else .running
  | .canRx c => if own || (c == 0 && s.dev == .recovery) then .running else .ignored
  | .eth p b => ethPin s p b
  | _ => if own then .running else .ignored

/-- A ball of the Rind: its outputs are driven whenever VDD_MTR is present. -/
def rindPin (s : State) (q : Signal) : PinState :=
  if !s.variant.metered then .noConnect
  else
    match q with
    | .mtrPulse => if s.rind.powered then .level (pulseLevel s) else .z
    | .mtrClk | .mtrTx | .mtrXo => if s.rind.powered then .running else .z
    | _ => if s.rind.powered then .running else .ignored

/-- What EXTEST drives at a ball of the chain, if anything (R402): EN stays behind the Harp gate. -/
def extestPin (s : State) (q : Signal) : PinState :=
  match s.trust.cells.find? (fun c => ballAt c.1 c.2.1 == .sig q), q with
  | some c, .en _ => .level (c.2.2 && s.is R.HARP_STAT_GATE)
  | some c, _ => .level c.2.2
  | none, .en _ => .level false
  | none, _ => .z

/-- What a signal ball shows. -/
def pinState (s : State) (q : Signal) : PinState :=
  if q.supply == .rind then rindPin s q
  else if extestOn s && q.output && q != .tdo && s.padsDriven then extestPin s q
  else if q == .resetOutN || q == .faultN then drivenPin s q
  else if q.output then (if s.padsDriven then drivenPin s q else .z)
  else inputPin s q

end Sys2Proof.Machine
end

