-- ==== Sys2Proof/Safety.lean ====
section
/-! DEFINITION. What claims take as a safe state: the invariant of the state's canonical forms, and the safe state of the pins
(R265, R373). -/

namespace Sys2Proof.Machine

open Sys2Proof

/-- The register file and the memory have their canonical forms, so that equal contents are equal data. -/
structure Canonical (s : State) : Prop where
  regs : canonical porValue s.regs = true
  mem : Memory.wf s.mem = true

/-- Every fuse that is blown in `t` is blown in `u` (R464: one-time programmable memory). -/
structure FusesKept (t u : TrustSt) : Prop where
  owned : t.ownedFuse = true → u.ownedFuse = true
  decommissioned : t.decomFuse = true → u.decomFuse = true
  valid : ∀ k, (nth t.slots k {}).valid = true → (nth u.slots k {}).valid = true
  revoked : ∀ k, (nth t.slots k {}).revoked = true → (nth u.slots k {}).revoked = true

/-- Slot `k` is VALID and not REVOKED. -/
def ownsSlot (t : TrustSt) (k : Nat) : Bool := (nth t.slots k {}).valid && !(nth t.slots k {}).revoked

/-- At most one owner slot is VALID and not REVOKED (R390). -/
def OneOwner (t : TrustSt) : Prop := ∀ j k : Fin 4, ownsSlot t j = true → ownsSlot t k = true → j = k

/-- The fusing of an OWNER_XFER that leaves the new slot VALID and the old one not yet REVOKED (R392, R464). -/
def cutShort (r : FuseResult) : Bool := r == .notMade 2 || r == .powerLoss 2

/-! ## What follows a command in the same cycle

`settle` ends every command: level orders act on ports (R20), safe stop 1 may end (R271), DEG_CAUSE and the device state follow
(R7, R263). Claims about what a command itself does are about what lies outside these fields. -/

/-- The fields of vat registers that the cycle's consequences may write. -/
def cyclePortFields (v : Vat) (p : Nat) : List Field :=
  [R.PORT_STATE_STATE v p, R.PORT_STATE_DEGR v p, R.PORT_STATE_CAUSE v p, R.PORT_STATE_ENTRIES v p, R.PORT_PWMSTAT_TRIPLAT v p,
   R.PORT_FPCFG_FB v p, R.PORT_FPCFG_PATNOW v p, R.GRID_STAT_OL v p, R.GRID_STAT_OL_LEFT v p, R.DRV_STAT_OBS v p, R.DRV_STAT_ZR v p]

def cycleLegFields (v : Vat) (n : Nat) : List Field :=
  [R.LEG_PIN_PULSE v n, R.LEG_PIN_EN v n, R.DLR_STAT_HUVMASK v n, R.DLR_STAT_DRVF_F v n]

/-- The common fields that the cycle's consequences may write. -/
def cycleCommonFields : List Field :=
  [R.HARP_STAT_OUT, R.HARP_STAT_TP, R.HARP_STAT_GATE, R.SAFE_STAT_SS1_ACT, R.SAFE_STAT_STO, R.SAFE_STAT_RIDE, R.SAFE_STAT_STOSRC,
   R.SAFE_STAT_DG_LEFT, R.SAFE_FLAGS_STO_F, R.SAFE_FLAGS_TPABND_F, R.HARP_CNT_ABANDONED, R.HARP_CNT_TESTS, R.SAFE_FLAGS_TPFAIL_F,
   R.SAFE_FLAGS_RIDE_F, ⟨R.SAFE_FAULT, 3, 1⟩, R.OWN_DEG_DEG_CAUSE, R.LOG_STAT_LOST_F,
   R.LOG_STAT_LOST]

def cycleFields : List Field :=
  cycleCommonFields ++ [Vat.A, Vat.B].flatMap (fun v =>
    (List.range 8).flatMap (cyclePortFields v) ++ (R.PWM_COHERR_COHESC_F v :: (List.range 32).flatMap (cycleLegFields v)))

/-- The field lies apart from all that the cycle's consequences may write. -/
def cycleFree (f : Field) : Bool := cycleFields.all (fun g => f.apart g)

/-- A vat without the parts that the cycle's consequences may change. -/
def vatRest (x : VatSt) : VatSt := { x with ports := [], legs := [], guards := [] }

/-- A state without the registers and the parts that the cycle's consequences may change. -/
def cycleRest (s : State) : State :=
  { s with
    dev := .off, regs := [], harp := {}, log := {}
    rst := { s.rst with reachedReady := false }
    vatA := vatRest s.vatA, vatB := vatRest s.vatB
    arb := { s.arb with hold := none }
    bus := { s.bus with vt := 0, writes := [], sets := [] } }

/-- `t` differs from `s` at most in what the cycle's consequences may change. -/
structure CycleOnly (s t : State) : Prop where
  rd : ∀ f, cycleFree f = true → t.rd f = s.rd f
  rest : cycleRest t = cycleRest s

/-- The whole of a register. -/
def whole (a : Nat) : Field := ⟨a, 0, 32⟩

/-- No register field differs but those listed and what the cycle's consequences may write. -/
def RegsKept (s t : State) (fs : List Field) : Prop :=
  ∀ f, cycleFree f = true → (∀ g ∈ fs, f.apart g = true) → t.rd f = s.rd f

/-- Every byte of memory outside [lo, lo + n) reads as before. -/
def BytesKept (s t : State) (lo n : Nat) : Prop :=
  ∀ a, a < lo ∨ lo + n ≤ a → Memory.read t.mem a = Memory.read s.mem a

/-- `t` differs from `s` in no register field but those listed and what the cycle's consequences may write, and not in memory,
the ferroelectric store, trust and service state, the Rind and the time bases. -/
structure Frame (s t : State) (fs : List Field) : Prop where
  regs : RegsKept s t fs
  mem : t.mem = s.mem
  nv : t.nv = s.nv
  trust : t.trust = s.trust
  rind : t.rind = s.rind
  time : t.time = s.time

/-- Outside the Rind `t` differs from `s` in no register field but those listed and what the cycle's consequences may write, and not
in memory, the ferroelectric store, trust and service state and the time bases. -/
structure RindFrame (s t : State) (fs : List Field) : Prop where
  regs : RegsKept s t fs
  mem : t.mem = s.mem
  nv : t.nv = s.nv
  trust : t.trust = s.trust
  time : t.time = s.time

/-- No SYS reset waits for STO (R367, R377), so that the cycle's consequences hold no reset. -/
def Calm (s : State) : Prop := s.rst.sysAfterSto = none

/-! ## What a command answers -/

/-- The command answers a next state, which has property `P`. -/
def Answers (c : Instr) (s : State) (P : State → Prop) : Prop := ∃ t, exec c s = .next t ∧ P t

/-- A byte that every SYS reset and POR clears (R372). -/
def inSram (a : Nat) : Bool :=
  (0x10000000 ≤ a && a < 0x10180000) || (0x50000000 ≤ a && a < 0x50400000) || (0x51000000 ≤ a && a < 0x51100000)
    || (0x60000000 ≤ a && a < 0x60400000) || (0x61000000 ≤ a && a < 0x61100000)

/-- Every SRAM reads as it does at reset. -/
def SramClear (t : State) : Prop := ∀ a, inSram a = true → Memory.read t.mem a = memDefault a

/-- What every reset from outside spares (R372): OTP, the ferroelectric store and every byte outside the SRAM (the ferroelectric
windows, the log and the parameters among them), and the Rind, whose tap it takes out of use. -/
structure StoresSpared (s t : State) : Prop where
  nv : t.nv = s.nv
  bytes : ∀ a, inSram a = false → Memory.read t.mem a = Memory.read s.mem a
  otp : t.trust.slots = s.trust.slots ∧ t.trust.ownedFuse = s.trust.ownedFuse ∧ t.trust.decomFuse = s.trust.decomFuse
  rind : t.rind = { s.rind with tapOn := false }

/-- A start has failed (R43, R381): a SYS reset with cause 0x0E, and the release sequence from its first step. -/
def StartFailed (t : State) : Prop :=
  t.dev = .off ∧ t.rst.phase = .trims ∧ t.rd R.RST_CAUSE_CODE = 0x0E ∧ t.rd R.RST_CAUSE_LEVEL = 2

/-- `t` shows the wheel of slot `k` of `u` as the running one (R50): WHL_STAT, WHL_ID, WHL_VER and SAFE_CRC. -/
structure WheelShown (u t : State) (k : Nat) : Prop where
  slot : t.rd R.WHL_STAT_SLOT = k
  enc : t.is R.WHL_STAT_ENC = hdrEnc (wheelHeader u k)
  fallback : t.rd R.WHL_STAT_FALLBACK = u.rd R.WHL_STAT_FALLBACK
  id : t.rd R.WHL_ID_VAL = hdrId (wheelHeader u k) % 2 ^ 32
  version : t.rd R.WHL_VER_LO_VAL = hdrVersion (wheelHeader u k) % 2 ^ 32
    ∧ t.rd R.WHL_VER_HI_VAL = hdrVersion (wheelHeader u k) / 2 ^ 32 % 2 ^ 32
  crc : t.rd R.SAFE_CRC_VAL = safeCrc ((wheelRecords u k).getD []) % 2 ^ 32
  restrict : t.is R.WHL_STAT_RESTRICT = !confirmed u (safeCrc ((wheelRecords u k).getD []))

/-- `t` is what a SYS reset with cause `code` leaves of `s` (R372, R374, R377): the domains are in reset, RST_CAUSE is recorded,
every SRAM is clear, and the Rind, VT, OTP, the ferroelectric store and flash are spared. -/
structure SysResetTaken (s t : State) (code : Nat) : Prop where
  dev : t.dev = .off
  phase : t.rst.phase = if s.rst.phase = .held then .held else .trims
  code : t.rd R.RST_CAUSE_CODE = code
  level : t.rd R.RST_CAUSE_LEVEL = 2
  sram : ∀ a, inSram a = true → Memory.read t.mem a = memDefault a
  kept : ∀ a, inSram a = false → Memory.read t.mem a = Memory.read s.mem a
  vt : t.time.vt = s.time.vt
  nv : t.nv = s.nv
  otp : t.trust.slots = s.trust.slots ∧ t.trust.ownedFuse = s.trust.ownedFuse ∧ t.trust.decomFuse = s.trust.decomFuse
  rind : t.rind = { s.rind with tapOn := false }

/-- `t` is what a VAT reset of `v` leaves (R372, R374, R245): the vat is in reset with role HALTED, or RETIRED where its failures
have reached FAILMAX, and RST_CAUSE names level and vat. -/
structure VatResetTaken (t : State) (v : Vat) : Prop where
  inReset : (t.vat v).inReset = true
  role : t.rd (R.VAT_ROLE_ROLE v) = roleHALTED ∨ t.rd (R.VAT_ROLE_ROLE v) = roleRETIRED
  level : t.rd R.RST_CAUSE_LEVEL = 3
  vat : t.rd R.RST_CAUSE_VAT = v.code

/-- A standby that runs and computes, while the other vat could go on without it: what a fault of it resets at once (R245). No VAT
reset of this cycle is recorded yet: of two, RST_CAUSE keeps the lower CODE (R377). -/
structure RunningStandby (s : State) (v : Vat) : Prop where
  calm : Calm s
  onward : s.dev.onward = true
  present : s.hasVat v = true
  running : (s.vat v).inReset = false
  fresh : s.rst.causeVt ≠ some s.time.vt
  notJoining : s.is (R.VAT_ROLE_JOINING v) = false
  notOwner : s.owner ≠ some v
  notAlone : aloneVat s v = false

/-- KIND of MMINFO for what the comparator found to differ (R264). -/
def mismatchCode : MismatchKind → Nat
  | .csig .. => 1
  | .reload .. => 2
  | .state _ => 3
  | .level _ | .auxOut _ | .ssiOut _ => 4

/-- The flag of OWN_MMF for what the comparator found to differ (R264). -/
def mismatchFlag : MismatchKind → Field
  | .csig .. => R.OWN_MMF_CSIG_F
  | .reload .. => R.OWN_MMF_RELOAD_F
  | .state _ => R.OWN_MMF_STATE_F
  | .level _ | .auxOut _ | .ssiOut _ => R.OWN_MMF_LEVEL_F

/-- Every graph of the wheel has its place inside the tables: what an accepted wheel gives (R42, R131). -/
def WheelFits (s : State) : Prop :=
  ∀ g ∈ s.whl.graphs, g.engine < 8 ∧ g.slot < 4 ∧ g.port < 8 ∧ g.fallback < 8 ∧ g.preds.length ≤ 16

/-- The results of an evaluation name legs, ports and channel codes that have a place. -/
def evalFits (e : EvalSt) : Bool :=
  e.writes.all (fun w => match w with
    | .duty n _ => decide (n < 32)
    | .period p _ => decide (p < 8))
    && e.clamped.all (fun p => decide (p < 8)) && e.moves.all (fun m => decide (m.1 < 128))

def graphFits (g : GraphSt) : Bool := decide (g.preds.length ≤ 16) && g.evals.all evalFits

/-- A vat has its 8 ports, 32 legs and driver links, 64 channels in 8 groups, 4 aux links, 8 position inputs and set-point pins,
and 8 engines of 4 slots, and what its slots hold fits. -/
def vatFits (x : VatSt) : Bool :=
  x.ports.length == 8 && x.legs.length == 32 && x.dlrs.length == 32 && x.chans.length == 64 && x.groups.length == 8
    && x.aux.length == 4 && x.pos.length == 8 && x.setps.length == 8 && x.guards.length == 8 && x.engines.length == 8
    && x.engines.all (fun e => e.slots.length == 4 && e.slots.all graphFits)

/-- The device's parts are all there, and what names one of them names one that exists. -/
structure Fits (s : State) : Prop where
  wheel : WheelFits s
  vatA : vatFits s.vatA = true
  vatB : vatFits s.vatB = true

/-- The last value that shadow writes give leg `n`'s duty, if one does. -/
def lastDuty (ws : List ShadowWrite) (n : Nat) : Option Nat :=
  ws.foldl (fun a w => match w with
    | .duty m d => if m = n then some d else a
    | .period _ _ => a) none

/-- The last value that shadow writes give port `p`'s period, if one does. -/
def lastPeriod (ws : List ShadowWrite) (p : Nat) : Option Nat :=
  ws.foldl (fun a w => match w with
    | .duty _ _ => a
    | .period q x => if q = p then some x else a) none

/-- An owner that runs and computes, while the other vat is eligible to take over (R242). -/
structure OwnerWithStandby (s : State) (v : Vat) : Prop where
  calm : Calm s
  onward : s.dev.onward = true
  present : s.hasVat v = true
  running : (s.vat v).inReset = false
  fresh : s.rst.causeVt ≠ some s.time.vt
  notJoining : s.is (R.VAT_ROLE_JOINING v) = false
  owns : s.owner = some v
  standby : eligible s v.other = true

/-- `t` is what the takeover by the standby of `v` leaves (R249, R251): the standby owns, with a cause, and the former owner is in
VAT reset. -/
structure TakenOver (t : State) (v : Vat) (cause : Nat) : Prop where
  owner : t.owner = some v.other
  cause : t.rd R.OWN_STAT_CAUSE = cause
  active : t.rd (R.VAT_ROLE_ROLE v.other) = roleACTIVE
  reset : VatResetTaken t v

/-! ## Ports on which no order waits to act -/

/-- No level order waits to act on a port unit (R20). -/
def unitSteady (s : State) (v : Vat) (p : Nat) : Bool :=
  if portState s v p = RUN then runOrdered s v p || !rampDone s v p
  else if portState s v p = ARMED then
    armOrdered s v p && !(s.dev.operating && runOrdered s v p && inputsValid s v p)
  else if portState s v p = IDLE then !(s.dev.operating && armOrdered s v p && s.is (R.PORT_CFG_TYPE v p))
  else true

/-- No level order waits to act on a port of `v`, no safe stop 1 is in progress, and no reset waits: what a command does to the
ports of `v` is then its own effect. -/
structure Steady (s : State) (v : Vat) : Prop where
  calm : Calm s
  noSs1 : s.is R.SAFE_STAT_SS1_ACT = false
  units : (List.range 8).all (fun p => isSecondary s v p || unitSteady s v p) = true

/-- An unlinked port in RUN or ARMED whose next entry into FAULT_PATTERN does not reach its FAULT_LIMIT (R20). -/
def loneActive (s : State) (v : Vat) (p : Nat) : Bool :=
  portActive s v p && !s.is (R.PORT_CFG_LNK_EN v p) && decide (s.rd (R.PORT_FPCFG_FP v p) ≤ 2)
    && (s.rd (R.PORT_CFG_FAULT_LIMIT v p) == 0
      || decide (s.rd (R.PORT_STATE_ENTRIES v p) + 1 < s.rd (R.PORT_CFG_FAULT_LIMIT v p)))

/-- PATNOW of the pattern an unlinked port takes: its FP, or all-off where a switch that FP turns on is faulted (R236, R237). -/
def nextPattern (s : State) (v : Vat) (p : Nat) : Nat :=
  if patternFaulted s v [p] (s.rd (R.PORT_FPCFG_FP v p)) then 1 else s.rd (R.PORT_FPCFG_FP v p) + 1

/-- Port `p` has entered FAULT_PATTERN with a cause (R20): STATE, CAUSE and ENTRIES say so, DEGR clears on leaving RUN (R23), and its legs show the
pattern with PATNOW `pat`: all-off, low side on, or high side on (R236). -/
structure PatternEntered (s t : State) (v : Vat) (p cause pat : Nat) : Prop where
  state : portState t v p = FAULTPAT
  cause : t.rd (R.PORT_STATE_CAUSE v p) = cause
  entries : t.rd (R.PORT_STATE_ENTRIES v p) = min (s.rd (R.PORT_STATE_ENTRIES v p) + 1) 15
  degr : portState s v p = RUN → t.is (R.PORT_STATE_DEGR v p) = false
  patnow : t.rd (R.PORT_FPCFG_PATNOW v p) = pat
  pins : (portLegs t v p).all (fun n =>
    t.is (R.LEG_PIN_EN v n) == decide (2 ≤ pat) && t.is (R.LEG_PIN_PULSE v n) == decide (pat = 3)) = true

/-- The generator may place an edge on the leg: its port runs and follows its set, the duty is no extreme, the level is the
other one, no refresh is in progress, and the interval being emitted has lasted TMIN. -/
def edgePlaced (s : State) (v : Vat) (p n : Nat) (rise : Bool) : Bool :=
  pulseRuns s v && portState s v p == RUN && (getPort s v p).followSet && s.rd (R.LEG_DUTY_DUTY v n) != 0
    && s.rd (R.LEG_DUTY_DUTY v n) != 32767 && s.is (R.LEG_PIN_PULSE v n) != rise && (getLeg s v n).refEnd.isNone && !tooSoon s v n

/-- A carrier event is a reload of an unlinked port that decides on its shadows: no burst is open, no commit of its graph is
landing, and its vat does not join. -/
def reloadsAlone (s : State) (v : Vat) (p : Nat) (valley : Bool) : Bool :=
  pulseRuns s v && reloadsAt s v p valley && !s.is (R.PORT_CFG_LNK_EN v p) && !s.is (R.PORT_PWMSTAT_BURST v p)
    && !s.is (R.VAT_ROLE_JOINING v) && (match portGraph s v p with
      | some (c, k) => (committing s v c k).isNone
      | none => true)

/-- The other vat's outcome of a tick of port `p`'s graph, where it has come (R247). -/
def peerSeen (s : State) (v : Vat) (p tick : Nat) : Option TickSeen :=
  if s.variant.dual then s.arb.seen.find? (fun x => x.vat != v && x.port == p && x.tick == tick) else none

/-- Vat `w` has missed a tick of port `p`'s graph that the other vat committed (R247). -/
def missedBefore (s : State) (w : Vat) (p : Nat) : Bool := s.arb.asym.any (fun a => a.1 == w && a.2.1 == p)

/-! ## What the units compute -/

/-- The sample that an output of channel `n` gives, in Q23, and whether it saturates (R55, R57). -/
def outputSample (s : State) (v : Vat) (n : Nat) (bits : BitVec 256) : Int × Bool :=
  let r := cicPeriod (getChan s v n) bits (chanOsr s v n) (s.is (R.SLICE_CFG_INV v n))
  let raw := rawValue (s.rd (R.SLICE_CFG_PRESET v n) == 4) (chanOsr s v n) r.1 r.2
  trimmed raw.1 raw.2 (s.signedRd (R.SLICE_TRIM_GAIN_W v n) + s.signedRd (R.SLICE_GCAL_GCAL v n))
    (s.signedRd (R.SLICE_TRIM_OFFS_W v n))

/-- The response frame of the readout port, CMD with bit 7 set (R302). -/
def portFrame (cmd status : Nat) (payload : List Byte) : List Byte :=
  let body := leBytes 2 (payload.length + 2) ++ [BitVec.ofNat 8 (cmd % 128 + 128), BitVec.ofNat 8 status] ++ payload
  [0x7E] ++ body ++ leBytes 2 (crc16 body)

/-- The sample that an output of the tap decimator gives, in Q23 (R306). -/
def tapValue (s : State) (bits : BitVec 128) : Int :=
  let f := cicPeriod s.rind.tap (bits.setWidth 256) 128 false
  let raw := rawValue false 128 f.1 f.2
  (trimmed raw.1 raw.2 0 0).1

/-- The Rind's store and inputs are whole: six energy registers, 32 commit slots, two copies of 32 parameter words. -/
structure RindFits (s : State) : Prop where
  up : rindUp s = true
  energy : s.rind.energy.length = 6
  slots : s.rind.slots.length = 32
  pars : s.rind.par0.length = 32 ∧ s.rind.par1.length = 32

/-- What the sums `a` of a second add to energy register `i` of a Rind in METER, in 2^-32 Wh, but for what a warning has paid: AC by
the sign of its net, DC by sign and DCSIGN (R292). -/
def secondEnergy (s : State) (a paid : MeterAcc) (i : Nat) : Nat :=
  let inv := parCfg s 1 1 = 1
  if s.rind.state ≠ 1 then 0
  else match i with
    | 0 => if a.ac - paid.ac < 0 then energyOf (a.ac - paid.ac).natAbs else 0
    | 1 => if a.ac - paid.ac < 0 then 0 else energyOf (a.ac - paid.ac).natAbs
    | 4 => energyOf (if inv then a.dcPos - paid.dcPos else a.dcNeg - paid.dcNeg)
    | 5 => energyOf (if inv then a.dcNeg - paid.dcNeg else a.dcPos - paid.dcPos)
    | _ => 0

/-- The number of the next commit slot: a commit and a warning of one cycle write one (R289). -/
def nextSlotSeq (s : State) : Nat := lastSlotSeq s.rind + (if s.rind.slotAt = some s.rind.mtQ then 0 else 1)

/-- The newest slot holds the energies, MT and sequence number, and no other slot has changed (R294). -/
def SlotWritten (s t : State) : Prop :=
  let n := nextSlotSeq s
  nth t.rind.slots (n % 32) none = some (sealSlot t.rind.wh t.rind.mt n)
    ∧ (∀ j < 32, j ≠ n % 32 → nth t.rind.slots j none = nth s.rind.slots j none)
    ∧ (s.rind.slotAt ≠ some s.rind.mtQ → newestSlot t.rind (-1) = some (sealSlot t.rind.wh t.rind.mt n))

/-- `t` is what a correction message makes of `s` (R299): accepted, CORRSEQ counts and the offset within BUDGET waits to be slewed; else
only LASTCORR says why not. -/
def CorrectionTaken (s t : State) (m : List Byte) : Prop :=
  let b : Int := (refillBudget s).rind.budget
  let want := signedOf 32 (leValue ((m.drop 0x14).take 4))
  let got := clampInt (-b) b want
  if judgeCorr s m = 0 then
    t.rind.corrSeq = (s.rind.corrSeq + 1) % 2 ^ 16 ∧ t.rind.pendQ = s.rind.pendQ + got * 25000000
      ∧ (t.rind.budget : Int) = b - got.natAbs ∧ t.rind.lastCorr = (if got = want then 1 else 2)
  else t.rind.corrSeq = s.rind.corrSeq ∧ t.rind.pendQ = s.rind.pendQ ∧ (t.rind.budget : Int) = b ∧ t.rind.lastCorr = judgeCorr s m

/-- The six channels are there, and every catalogue entry has its place at one of them (R323, R329). -/
structure CanFits (s : State) : Prop where
  chans : s.can.chans.length = 6
  entries : s.can.entries.all (fun x => decide (x.home < 6) && decide (x.place < 384)) = true

/-- What an accepted frame makes of its entry (R283, R324): each signal has the entry as a writer of its value. -/
def SignalsWritten (s t : State) (x : CanEntry) (val : CanSig → Int) : Prop :=
  ∀ g ∈ x.sigs, (⟨g.signal, x.chan, x.pos, g.rank, val g, messageTime s, g.cls⟩ : Writer) ∈ t.ord.writers

/-- An event-driven entry is due (R317): it is served, no frame of it waits, and its values differ from those last sent. -/
def eventDue (s : State) (x : CanEntry) : Bool :=
  x.transmit && x.period == 0 && served s x && waitingFrames s x == 0 && x.sent != some (x.sigs.map (txRaw s))

/-- A frame of an ordinary length without error (R332). -/
def ethFrameGood (bad : Bool) (f : List Byte) : Bool := !bad && decide (60 ≤ f.length) && decide (f.length ≤ 1518)

/-- The switch's ports, queues and stamps are there. -/
def NetFits (s : State) : Prop :=
  s.net.out.length = 3 ∧ s.net.waiting.length = 16 ∧ s.net.ltq.length = 16 ∧ s.net.freeAt.length = 2 ∧ s.net.txStamp.length = 2
    ∧ s.net.rxStamp.length = 2 ∧ s.net.sent.length = 8

/-- No frame waits in a queue of port `q`. -/
def noneWaits (s : State) (q : Nat) : Bool := (List.range 8).all (fun i => nth s.net.waiting (8 * q + i) [] == [])

/-- A frame has been given to switch port `q` (R332, R333, R346): the host takes it at once; a MAC port with a link that is free and
idle starts it where no launch time forbids, and stamps it, the transparent clock's correction and the device's own times put in; one that
is busy keeps it in the queue of its PCP. -/
def SentOn (s t : State) (q : Nat) (f : QFrame) : Prop :=
  let stamp := egressStamp s q
  let own := stampOwn s q stamp (departing s stamp f).2
  if q = 2 then netRuns s = true → nth t.net.out 2 [] = f.frame
  else linkUp s q = true →
    (portFree s q = true → noneWaits s q = true → mayStart s q f.frame = true → nth t.net.out q [] = own.1
      ∧ noneWaits t q = own.2.isEmpty ∧ nth t.net.txStamp q 0 = stamp ∧ nth t.net.freeAt q 0 = s.time.vt + frameNs s q own.1)
    ∧ (portFree s q = false → nth t.net.out q [] = nth s.net.out q []
      ∧ nth t.net.waiting (8 * q + pcpQueue f.frame) [] = nth s.net.waiting (8 * q + pcpQueue f.frame) [] ++ [f])

/-- The type of a PTP message in the configured transport. -/
def ptpKind (s : State) (f : List Byte) : Option Nat := (ptpOffset s f).map (fun o => fieldBe f o 1 % 16)

/-- What a message of the master's on port `p` needs to discipline NT (R336, R342): it is none that the protocol answers or decides by. -/
structure Disciplined (s : State) (p : Fin 2) (f : List Byte) (bad : Bool) : Prop where
  calm : Calm s
  link : linkUp s p = true
  runs : ptpRuns s = true
  slave : s.net.role = .slave p
  good : ethFrameGood bad f = true
  domain : ownDomain s f = true
  kind : ptpKind s f ≠ some 1 ∧ ptpKind s f ≠ some 2 ∧ ptpKind s f ≠ some 11
  other : restPayload s f = none

/-- The capture registers hold the four time bases of `s` (R339). -/
def Captured (s t : State) (req pps : Bool) : Prop :=
  t.rd (R.CTS_CAP_VAL 0) + 2 ^ 32 * t.rd (R.CTS_CAP_VAL 1) = s.nt
    ∧ t.rd (R.CTS_CAP_VAL 2) + 2 ^ 32 * t.rd (R.CTS_CAP_VAL 3) = s.time.vt % 2 ^ 64
    ∧ t.rd (R.CTS_CAP_VAL 4) + 2 ^ 32 * t.rd (R.CTS_CAP_VAL 5) = s.pt
    ∧ t.is R.CTS_STAT_MTVAL = (s.variant.metered && s.rind.powered && !s.is R.TAP_DATA_RDOWN)
    ∧ (t.is R.CTS_STAT_MTVAL = true → t.rd R.CTS_MT_LO_VAL + 2 ^ 32 * t.rd R.CTS_MT_HI_VAL = s.rind.mt % 2 ^ 64)
    ∧ (t.is R.CTS_STAT_MTVAL = false → t.rd R.CTS_MT_LO_VAL = 0 ∧ t.rd R.CTS_MT_HI_VAL = 0 ∧ t.rd R.CTS_MTFRAC_MTFRAC = 0)
    ∧ t.is R.CTS_STAT_SREQ = req ∧ t.is R.CTS_STAT_SPPS = pps
    ∧ t.rd R.CTS_STAT_SEQ = (s.rd R.CTS_STAT_SEQ + 1) % 2 ^ R.CTS_STAT_SEQ.width

/-- The registers of a capture. -/
def captureFields : List Field :=
  (List.range 6).map (fun i => whole (R.CTS_CAP i)) ++ [whole R.CTS_MT_LO, whole R.CTS_MT_HI, whole R.CTS_MTFRAC, whole R.CTS_STAT]

/-- An edge of PPS_IN is accepted (R339): in the sense set, 100 ms or more after the last one. -/
def ppsAccepted (s : State) (rising : Bool) : Bool :=
  rising != s.is R.CTS_CTL_PPSPOL && s.net.ppsIn.all (fun e => decide (e + 100000000 ≤ s.time.vt))

/-- Every byte of [lo, hi) reads as erased or cleared memory. -/
def BytesCleared (t : State) (lo hi : Nat) : Prop := ∀ a, lo ≤ a → a < hi → Memory.read t.mem a = memDefault a

/-! ## The service path -/

/-- The commands of R400 with their number, level and the states that accept them; END and the patch commands, which share a number,
have claims of their own. -/
def serviceRow : Instr → Option (Nat × Option Nat × (State → Bool))
  | .hello => some (0x01, none, anyState)
  | .auth => some (0x02, none, anyState)
  | .read => some (0x10, some 0, anyState)
  | .wheySelect => some (0x11, some 0, anyState)
  | .order => some (0x20, some 1, onwardState)
  | .senseSync => some (0x21, some 1, operatingState)
  | .handoverDrill => some (0x22, some 1, anyState)
  | .vatReset => some (0x23, some 1, onwardState)
  | .sysReset => some (0x24, some 1, anyState)
  | .safetyClear => some (0x25, some 1, onwardState)
  | .canFlush _ => some (0x26, some 1, onwardState)
  | .recoveryExit => some (0x27, some 1, inRecovery)
  | .wheelErase => some (0x30, some 2, flashState)
  | .wheelWrite _ => some (0x31, some 2, flashState)
  | .safeConfirm => some (0x32, some 2, onwardState)
  | .mtCorrect => some (0x33, some 2, onwardState)
  | .certRevoke => some (0x35, some 4, anyState)
  | .debugUnlock => some (0x40, some 3, anyState)
  | .debugLock => some (0x41, some 3, anyState)
  | .ownerXfer _ => some (0x50, some 4, ownerState)
  | .decommission => some (0x51, some 4, ownerState)
  | _ => none

/-- The held request is command `i`'s, and judged with a STATUS before it acts (0: it may act). -/
structure Judged (i : Instr) (s : State) (r : Request) (status : Nat) : Prop where
  calm : Calm s
  can : CanFits s
  held : s.trust.request = some r
  runs : serviceRuns s = true
  judged : (serviceRow i).map (fun w => (w.1, judgeRequest s r w.2.1 (w.2.2 s))) = some (r.cmd, status)

/-- The held request has been answered (R396): no request is held, and the response carries CMD with bit 7 set, STATUS and body. -/
def Responded (t : State) (cmd status : Nat) (body : List Byte) : Prop :=
  t.trust.request = none ∧ t.trust.response = messageHeader body.length (cmd % 128 + 128) status 0 ++ body

/-- What the sending of a response writes: DEPTH of CAN0's queue, and WAITING of its entries. -/
def responseFields : List Field := whole (R.CAN_TXQ 0) :: (List.range 384).map (R.CANE_STAT_WAITING 0)

/-- The request's sender and memory apart, a command changes only the registers listed. -/
structure ServiceFrame (s t : State) (fs : List Field) : Prop where
  regs : RegsKept s t (responseFields ++ fs)
  mem : t.mem = s.mem
  nv : t.nv = s.nv
  rind : t.rind = s.rind
  time : t.time = s.time
  fuses : t.trust.slots = s.trust.slots ∧ t.trust.ownedFuse = s.trust.ownedFuse ∧ t.trust.decomFuse = s.trust.decomFuse

/-- The bytes of a segment (R396). -/
def segmentBytes (seg : BitVec 512) : List Byte := (List.range 64).map (fun i => seg.extractLsb' (8 * i) 8)

/-- What HELLO signs (R397). -/
def helloBody (s : State) : List Byte :=
  leBytes 4 (readReg s R.DEVICE_ID).toNat ++ leBytes 4 s.trust.life ++ devidPub ++ ephemeralPub s.free
    ++ beBytes 32 (Config.nonce s.free).toNat

/-- READ may return these words (R400, R404). -/
def readAllowed (s : State) (a n : Nat) : Bool :=
  n != 0 && decide (n ≤ 1000) && (List.range n).all (fun i => serviceReads s (a + 4 * i))

/-- The addresses of the words that a READ names. -/
def readWords (s : State) (r : Request) : List Nat :=
  if readAllowed s (r.field 0) (r.field 1) then (List.range (r.field 1)).map (fun i => r.field 0 + 4 * i) else []

/-- The vat whose critical memory holds the word at an address (R243). -/
def criticalAt (a : Nat) : Option Vat := (secdedAt a).bind (fun q => criticalMemory q.1)

/-- What a master's read that finds a single-bit error writes (R428). -/
def brineFields : List Field :=
  (List.range 8).flatMap (fun m => [whole (R.BRINE_SBE m), whole (R.BRINE_LAST m), whole (R.BRINE_FLAGS m)])

/-- The vat that a command's first field names. -/
def namedVat (r : Request) : Vat := if r.field 0 = 0 then .A else .B

/-! ## Bus accesses -/

/-- An aligned word access that a master issues, to an address with a target, in a block the variant has. -/
structure Issued (s : State) (m : BitVec 6) (w : Master) (a : BitVec 32) (write : Bool) : Prop where
  calm : Calm s
  master : masterOf m.toNat = some w
  can : issues s m.toNat a.toNat write = true
  target : busErrorAt s a.toNat 4 write = false
  present : absentAt s a.toNat = false

/-- The trace of an access that is a JTAG write (R402). -/
def jtagTrace (m : BitVec 6) (write : Bool) : List Field := if m = 36 ∧ write = true then [R.TRUST_FLAGS_DBGWR_F] else []

/-- What a register holds after master `m` has written a word to it, by the access codes of its row (R10): what a higher master has
written in this cycle stands (R403), and so does a flag that the hardware has set in it (R11). -/
def codesWord (s : State) (m a : Nat) (data : Word) (row : RegRow) : Word :=
  let set := BitVec.ofNat 32 (if s.overtaken m a then 0 else writable s a (Nat.lor row.rw row.sv) row.keepVat)
  let clear := BitVec.ofNat 32 (writable s a row.w1c row.keepVat) &&& ~~~BitVec.ofNat 32 (s.marked a)
  ((s.regs.get a &&& ~~~set) ||| (data &&& set)) &&& ~~~(data &&& clear)

/-- A register whose writing does no more than its access codes say. -/
def plainRegister (a : Nat) : Bool :=
  a != R.RST_REQ && a != R.NT_FREQ && a != R.NT_CTL && a != R.CTS_CTL && (syncOf a).isNone

/-- An event with a code waits in the queue. -/
def Logged (t : State) (code : Nat) : Prop := t.log.queue.any (fun r => r.code == code) = true

/-! ## The safe state -/

/-- The Harp gate is false. -/
def GateOff (s : State) : Prop := s.is R.HARP_STAT_GATE = false

end Sys2Proof.Machine
end

