-- ==== Sys2Proof/Certificates/Slice0/Obligations.lean ====
section
/-! DEFINITION. The claims about the model, for the provers: each formalises rules of spec/, or is derived from them, as
OBLIGATIONS.json says. `Answers c s P` (Safety.lean) says that the command `c` answers a next state with property `P`. -/

open Sys2Proof Sys2Proof.Machine

/-! ## The whole machine -/

/-- A step takes the command at the front of the queue and runs it on the state with the queue's rest. -/
def Obligations.StepRunsFront : Prop :=
  ∀ (c : Instr) (rest : List Instr) (s : State),
    step { s with pending := c :: rest } = exec c { s with pending := rest }

/-- On an empty queue one cycle of REFCLK passes (the model's choice, notes/assumptions/30.md): VT advances by 40 ns unless
POR is in force, and memory, OTP, the ferroelectric store and the device state stay as they are. So does the event log where
nothing that the cycle carries on can write to it: no drill runs, no vat joins, no PTP message is held, and the log's own
cycle is closed. -/
def Obligations.IdleStep : Prop :=
  ∀ (s : State),
    s.pending = [] →
    ∃ t, step s = .next t ∧ t.time.vt = (if s.rst.phase = .por then s.time.vt else s.time.vt + 40) ∧ t.mem = s.mem
      ∧ (s.arb.drill = none → joiningVat s = none → s.net.held = [] → s.log.endCycle = s.log → t.log = s.log) ∧ t.trust = s.trust ∧ t.nv = s.nv ∧ t.dev = s.dev ∧ t.pending = []

/-- No command and no state stops the machine: every command answers a next state in every state, and so every step does.
What that next state is, the other claims say. -/
def Obligations.NothingStops : Prop :=
  ∀ (c : Instr) (s : State),
    (∃ t, exec c s = .next t) ∧ ∃ t, step s = .next t

/-- Every step keeps the register file and the memory in canonical form. Where the spec leaves a point open, this follows the
choice of notes/assumptions/3.md. -/
def Obligations.StepKeepsCanonical : Prop :=
  ∀ (s t : State),
    Canonical s →
    step s = .next t →
    Canonical t

/-- A step takes exactly one command from the queue, and no command changes which of the four variants the part is. -/
def Obligations.StepTakesOne : Prop :=
  ∀ (s t : State),
    step s = .next t →
    t.pending = s.pending.tail ∧ t.variant = s.variant

/-- A blown fuse stays blown whatever the command: VALID and REVOKED of every owner slot, OWNED and DECOMMISSIONED. At most
one slot is VALID and not REVOKED, and every step keeps it so, but for an OWNER_XFER whose last blow is not made (log entry
92). Where the spec leaves a point open, this follows the choice of notes/assumptions/92.md. -/
def Obligations.FusesStayBlown : Prop :=
  (∀ (s t : State),
    step s = .next t →
    FusesKept s.trust t.trust)
  ∧ (∀ (s t : State),
    OneOwner s.trust →
    s.pending.head?.all (fun i => match i with | .ownerXfer fuse => !cutShort fuse | _ => true) = true →
    step s = .next t →
    OneOwner t.trust)

/-! ## Resets and start (17_reset_and_start.md) -/

/-- At reset the registers and the memory are in canonical form with no memory listed, no command waits, and POR is in force:
the device is OFF, RESET_OUT_N and READY and FAULT_N are low, the Harp gate is false, no vat owns the pins, every leg's PULSE
and EN are low at the pins, and every port is IDLE. Where the spec leaves a point open, this follows the choice of
notes/assumptions/3.md and notes/assumptions/5.md. -/
def Obligations.ResetLeavesOff : Prop :=
  Canonical State.reset ∧ State.reset.mem = [] ∧ State.reset.pending = [] ∧ State.reset.dev = .off
    ∧ State.reset.rst.phase = .por ∧ State.reset.resetOutN = false ∧ State.reset.readyPin = false
    ∧ State.reset.faultN = false ∧ GateOff State.reset ∧ State.reset.owner = none ∧ OneOwner State.reset.trust
    ∧ (∀ n < 32, pinLevels State.reset n = (false, false))
    ∧ ∀ (v : Vat) (p : Nat), p < 8 → portState State.reset v p = IDLE

/-- The resets from outside: POWER_ON_RESET and BROWN_OUT record their codes, clear every SRAM, and spare OTP (the owner
slots, OWNED and DECOMMISSIONED), every byte outside the SRAM, the ferroelectric windows among them, the ferroelectric store
and the Rind; RESET_N asserted is a SYS reset with cause 0x03; held more than 100 ms it sets HELD and the cause becomes 0x04;
its release begins the release sequence, with the held time in HELDMS for a held reset. Where the spec leaves a point open,
this follows the choice of notes/assumptions/3.md and notes/assumptions/34.md. -/
def Obligations.OutsideResets : Prop :=
  (∀ (strap : BitVec 2) (fails : Fin 4) (banks : BitVec 8) (s : State),
    Answers (.powerOnReset strap fails banks) s (fun t =>
      t.dev = .off ∧ t.rst.phase = .trims ∧ t.rst.strap = strap.toNat ∧ t.rst.bank33 = banks.toNat ∧ t.time.vt = 0
        ∧ t.rd R.RST_CAUSE_CODE = (if s.rst.phase = .por ∧ s.rst.brown = true then 2 else 1) ∧ t.rd R.RST_CAUSE_LEVEL = 1
        ∧ t.rd R.DEV_STATE_BOOT = strap.toNat ∧ t.rd R.TRUST_STAT_IDOK = (if fails.val < 3 then 1 else 0) ∧ StoresSpared s t ∧ SramClear t))
  ∧ (∀ (s : State),
    s.rst.phase ≠ .por →
    Answers .brownOut s (fun t =>
      t.dev = .off ∧ t.rst.phase = .por ∧ t.rd R.RST_CAUSE_CODE = 2 ∧ t.rd R.RST_CAUSE_LEVEL = 1 ∧ StoresSpared s t ∧ SramClear t))
  ∧ (∀ (s : State),
    s.rst.phase ≠ .por →
    s.rst.phase ≠ .held →
    Answers .resetNAssert s (fun t =>
      t.dev = .off ∧ t.rst.phase = .held ∧ t.rd R.RST_CAUSE_CODE = 3 ∧ t.rd R.RST_CAUSE_LEVEL = 2 ∧ t.time.vt = s.time.vt
        ∧ StoresSpared s t ∧ SramClear t))
  ∧ (∀ (s : State),
    s.rst.phase = .held →
    s.dev = .off →
    Answers .resetNHeld s (fun t => t.rst.phase = .held ∧ t.is R.HELD_RESET_HELD = true ∧ t.rd R.RST_CAUSE_CODE = 4 ∧ t.rst.heldLong = true))
  ∧ (∀ (held : Nat) (s : State),
    s.rst.phase = .held →
    s.dev = .off →
    Answers (.resetNRelease held) s (fun t =>
      t.rst.phase = .trims ∧ t.rst.startVt = s.time.vt
        ∧ t.rd R.HELD_RESET_HELDMS =
          (if s.rst.heldLong = true then min (held / 100) 65535 else s.rd R.HELD_RESET_HELDMS)))

/-- Each source of a SYS reset takes it with its own cause: a supervisor's request 0x06, common critical state 0x08, common
configuration parity 0x09, a common checker 0x0D, and the failures of a start 0x0E (the third failed trim staging, a bad SRAM
word, and the third withdrawn release of one domain). Checkers that all pass change nothing. Where the spec leaves a point
open, this follows the choice of notes/assumptions/3.md. -/
def Obligations.SysResetSources : Prop :=
  (∀ (v : Vat) (s : State),
    canIssue s (supMaster v) = true →
    s.rst.phase ≠ .por →
    Answers (.sysreq v) s (fun t => SysResetTaken s t 0x06))
  ∧ (∀ (s : State),
    s.dev ≠ .off →
    s.rst.phase ≠ .por →
    Answers (.criticalDoubleBitError none) s (fun t => SysResetTaken s t 0x08))
  ∧ (∀ (s : State),
    s.dev ≠ .off →
    s.rst.phase ≠ .por →
    Answers (.configParityError none) s (fun t => SysResetTaken s t 0x09))
  ∧ (∀ (a b : Bool) (s : State),
    s.dev ≠ .off →
    s.rst.phase ≠ .por →
    Answers (.checkerSelfTest false a b) s (fun t => SysResetTaken s t 0x0D))
  ∧ (∀ (s : State),
    Calm s →
    Answers (.checkerSelfTest true true true) s (fun t => Frame s t []))
  ∧ (∀ (s : State),
    s.rst.phase = .trims →
    s.dev = .off →
    2 ≤ s.rst.trimFails →
    Answers (.trimStagingComplete false) s (fun t => t.dev = .off ∧ t.rst.phase = .trims ∧ t.rd R.RST_CAUSE_CODE = 0x0E
      ∧ t.rd R.RST_CAUSE_LEVEL = 2 ∧ t.nv = s.nv))
  ∧ (∀ (s : State),
    s.rst.phase = .memory →
    Answers (.sramCheckComplete .bad) s (fun t => t.dev = .off ∧ t.rst.phase = .trims ∧ t.rd R.RST_CAUSE_CODE = 0x0E
      ∧ t.rd R.RST_CAUSE_LEVEL = 2 ∧ t.nv = s.nv))
  ∧ (∀ (d : Domain) (s : State),
    awaitsDomain s d = true →
    s.rst.withdrawn.length = 6 →
    2 ≤ withdrawals s d →
    Answers (.domainReleaseWithdrawn d) s (fun t => t.dev = .off ∧ t.rst.phase = .trims ∧ t.rd R.RST_CAUSE_CODE = 0x0E
      ∧ t.rd R.RST_CAUSE_LEVEL = 2 ∧ t.nv = s.nv))

/-- Each fault of a running standby resets it at once with its own cause: a supervisor's request 0x06, the watchdog 0x05, a
double-bit error in critical state 0x07, configuration parity 0x09, and its checker 0x0D. Of two requests of one cycle,
RST_CAUSE keeps the lower CODE and counts both, whether the second finds its vat running or in reset already; that commands
between which VT has not moved are of one cycle is the model's choice (log entries 15 and 35). Where the spec leaves a point
open, this follows the choice of notes/assumptions/15.md and notes/assumptions/35.md. -/
def Obligations.VatResetSources : Prop :=
  (∀ (v : Vat) (s : State),
    RunningStandby s v →
    canIssue s (supMaster v) = true →
    Answers (.vatreq v) s (fun t => VatResetTaken t v ∧ t.rd R.RST_CAUSE_CODE = 0x06))
  ∧ (∀ (v : Vat) (s : State),
    RunningStandby s v →
    supRuns s v = true →
    Answers (.vatWatchdogExpiry v) s (fun t => VatResetTaken t v ∧ t.rd R.RST_CAUSE_CODE = 0x05))
  ∧ (∀ (v : Vat) (s : State),
    RunningStandby s v →
    Answers (.criticalDoubleBitError (some v)) s (fun t => VatResetTaken t v ∧ t.rd R.RST_CAUSE_CODE = 0x07))
  ∧ (∀ (v : Vat) (s : State),
    RunningStandby s v →
    Answers (.configParityError (some v)) s (fun t => VatResetTaken t v ∧ t.rd R.RST_CAUSE_CODE = 0x09))
  ∧ (∀ (v : Vat) (s : State),
    RunningStandby s v →
    Answers (.checkerSelfTest true (v != .A) (v != .B)) s (fun t => VatResetTaken t v ∧ t.rd R.RST_CAUSE_CODE = 0x0D))
  ∧ (∀ (v : Vat) (s : State),
    RunningStandby { s with rst := { s.rst with causeVt := none } } v →
    s.rst.causeVt = some s.time.vt →
    s.rd R.RST_CAUSE_LEVEL = 3 →
    s.rd R.RST_CAUSE_CODE < 0x07 →
    Answers (.criticalDoubleBitError (some v)) s (fun t => (t.vat v).inReset = true ∧ t.rd R.RST_CAUSE_CODE = s.rd R.RST_CAUSE_CODE
      ∧ t.rd R.RST_CAUSE_VAT = s.rd R.RST_CAUSE_VAT ∧ t.rd R.RST_CAUSE_LEVEL = 3
      ∧ t.rd R.RST_CAUSE_RESETS = min (s.rd R.RST_CAUSE_RESETS + 1) (2 ^ R.RST_CAUSE_RESETS.width - 1)))
  ∧ (∀ (v : Vat) (s : State),
    Calm s →
    s.dev.onward = true →
    s.hasVat v = true →
    (s.vat v).inReset = true →
    s.is (R.VAT_ROLE_JOINING v) = false →
    s.owner ≠ some v →
    s.rst.causeVt = some s.time.vt →
    s.rd R.RST_CAUSE_LEVEL = 3 →
    Answers (.criticalDoubleBitError (some v)) s (fun t => (t.vat v).inReset = true
      ∧ t.rd R.RST_CAUSE_CODE = min (s.rd R.RST_CAUSE_CODE) 0x07 ∧ t.rd R.RST_CAUSE_LEVEL = 3
      ∧ t.rd R.RST_CAUSE_VAT = (if s.rd R.RST_CAUSE_CODE < 0x07 then s.rd R.RST_CAUSE_VAT else v.code)
      ∧ t.rd R.RST_CAUSE_RESETS = min (s.rd R.RST_CAUSE_RESETS + 1) (2 ^ R.RST_CAUSE_RESETS.width - 1)))

/-- The release sequence moves on: an accepted staging copy sets TRIM_VALID; XSPI_RST_N rises; a released domain joins the
released ones, and the release of T brings STARTING; the release of C ends in the judgement of START_FAILS, RECOVERY for a
strap or four failures and else a count one higher; a withdrawn release clears the loop's GOOD and counts; checked SRAM
brings LOADING; and 10 s without a break in RUN or DEGRADED leaves COUNT and both stored copies at 0, and WHL_FLOOR no lower
than the running wheel's VERSION. Where the spec leaves a point open, this follows the choice of notes/assumptions/34.md. -/
def Obligations.ReleaseSequence : Prop :=
  (∀ (s : State),
    s.rst.phase = .trims →
    s.dev = .off →
    Answers (.trimStagingComplete true) s (fun t => t.is R.DEV_STATE_TRIM_VALID = true ∧ t.rst.phase = .clocks ∧ t.dev = .off))
  ∧ (∀ (s : State),
    s.rst.phase ≠ .por →
    s.rst.phase ≠ .held →
    Calm s →
    Answers .xspiResetRelease s (fun t => t.xspiRstN = true))
  ∧ (∀ (d : Domain) (r0 : FlashOpen) (r1 : FlashRead) (s : State),
    awaitsDomain s d = true →
    s.is R.CLK_STAT_REF_OK = true →
    s.rdBit R.CLK_STAT_GOOD (domainGood d) = true →
    Calm s →
    s.is R.SAFE_STAT_SS1_ACT = false →
    d ≠ .C →
    .C ∉ s.rst.released →
    Answers (.domainRelease d r0 r1) s (fun t =>
      t.rst.released = s.rst.released ++ [d] ∧ t.rst.phase = .domains ∧ (d = .T → t.dev = .starting)))
  ∧ (∀ (r0 : FlashOpen) (r1 : FlashRead) (s : State),
    awaitsDomain s .C = true →
    s.is R.CLK_STAT_REF_OK = true →
    s.rdBit R.CLK_STAT_GOOD (domainGood .C) = true →
    Calm s →
    s.is R.SAFE_STAT_SS1_ACT = false →
    Answers (.domainRelease .C r0 r1) s (fun t =>
      if recoveryStrap s = true ∨ 4 ≤ (failsStored s).1 then
        t.dev = .recovery ∧ t.rst.phase = .done ∧ t.nv.fails0 = s.nv.fails0 ∧ t.nv.fails1 = s.nv.fails1
          ∧ t.rd R.START_FAILS_BYCOUNT = (if 4 ≤ (failsStored s).1 then 1 else 0) ∧ t.rst.flashCap = r0.capacity
      else t.rst.phase = .memory ∧ t.nv.fails0 = some ((failsStored s).1 + 1) ∧ t.nv.fails1 = some ((failsStored s).1 + 1)
        ∧ t.rd R.START_FAILS_COUNT = (failsStored s).1 + 1))
  ∧ (∀ (d : Domain) (s : State),
    awaitsDomain s d = true →
    s.rst.withdrawn.length = 6 →
    withdrawals s d < 2 →
    Calm s →
    Answers (.domainReleaseWithdrawn d) s (fun t =>
      t.rdBit R.CLK_STAT_GOOD (domainGood d) = false ∧ withdrawals t d = withdrawals s d + 1
        ∧ t.rd R.START_STAT_DOMAIN = domainNumber d))
  ∧ (∀ (capacity : Option Nat) (s : State),
    s.rst.phase = .memory →
    Calm s →
    s.is R.SAFE_STAT_SS1_ACT = false →
    Answers (.sramCheckComplete (.good capacity)) s (fun t => t.rst.phase = .loading ∧ t.dev = .loading ∧ t.rst.flashCap = capacity))
  ∧ (∀ (s : State),
    s.dev = .run ∨ s.dev = .degraded →
    Calm s →
    Answers .startFailsClear s (fun t => t.rd R.START_FAILS_COUNT = 0 ∧ t.nv.fails0 = some 0 ∧ t.nv.fails1 = some 0
      ∧ whlFloor t = max (whlFloor s) (s.rd R.WHL_VER_LO_VAL + s.rd R.WHL_VER_HI_VAL * 2 ^ 32) ∧ t.mem = s.mem))

/-- The end of LOADING: where no slot's wheel is accepted, or the crypto block is frozen, the start fails (cause 0x0E), and
where the power is lost while an owner slot is fused POR is in force; where one is accepted, the release sequence is over and
the device is in READY or RUN or DEGRADED, or in SAFE_STOP, and WHL_STAT, WHL_ID, WHL_VER and SAFE_CRC are those of its
wheel. Each word of the REGIMG records of a wheel that passes the target checks stands in its register, in every bit that a
wheel sets, a vat's word in both vats (NT_CTL, whose STEP_GO acts at once, and NT_FREQ, which saturates, apart). Where the
spec leaves a point open, this follows the choice of notes/assumptions/44.md. -/
def Obligations.WheelLoadedEnds : Prop :=
  (∀ (r0 r1 : FlashRead) (f0 f1 : FuseResult) (s : State),
    s.dev = .loading →
    s.rst.phase ≠ .por →
    s.rst.phase ≠ .held →
    Calm s →
    Answers (.wheelLoaded r0 r1 f0 f1) s (fun t =>
      let u := chooseSlot s (fun k => if k = 0 then r0 else r1) (fun k => if k = 0 then f0 else f1)
      if cryptoRuns s = false then StartFailed t else
      match u.2 with
      | none => if u.1.dev = .off then t.dev = .off ∧ t.rst.phase = .por else StartFailed t
      | some k => t.rst.phase = .done ∧ t.dev.onward = true ∧ WheelShown u.1 t k))
  ∧ (∀ (rs : List WheelRec) (regs : List (Nat × Word)) (a : Nat) (w : Word) (row : RegRow) (is : List Nat) (s : State),
    targetsOk rs = true →
    imageRegs rs = some regs →
    (a, w) ∈ regs →
    findReg a = some (row, is) →
    a ≠ R.NT_CTL →
    a ≠ R.NT_FREQ →
    let t := regs.foldl applyRegWord s
      let m := BitVec.ofNat 32 (wheelMask row)
      t.regs.get a &&& m = w &&& m
        ∧ (s.variant.dual = true → 0x50000000 ≤ a → a < 0x60000000 → t.regs.get (a + 0x10000000) &&& m = w &&& m))

/-! ## Vats and takeover (11_vats_and_takeover.md) -/

/-- A fault of a running standby resets it at once. A lost heartbeat sets the peer's PEER_LOST_F and FLT source 0; any source
of FLT sets FLT and its bit of FLTSRC; a VAT reset is taken. -/
def Obligations.StandbyFaultsReset : Prop :=
  (∀ (v : Vat) (s : State),
    RunningStandby s v →
    s.variant.dual = true →
    s.vatLive v.other = true →
    Answers (.heartbeatLost v) s (fun t => VatResetTaken t v ∧ t.is (R.VAT_HB_PEER_LOST_F v.other) = true
      ∧ t.is (R.VAT_ROLE_FLT v) = true ∧ t.rdBit (R.VAT_ROLE_FLTSRC v) 0 = true ∧ t.owner = s.owner))
  ∧ (∀ (v : Vat) (src : Fin 8) (s : State),
    RunningStandby s v →
    Answers (.vatFaultFlag v src) s (fun t => VatResetTaken t v ∧ t.is (R.VAT_ROLE_FLT v) = true
      ∧ t.rdBit (R.VAT_ROLE_FLTSRC v) src.val = true ∧ t.owner = s.owner
      ∧ t.rd (R.VAT_ROLE_FAILS v) = min (s.rd (R.VAT_ROLE_FAILS v) + 1) 15))

/-- A fault of an owner whose standby is eligible gives the pins to the standby, which becomes ACTIVE, and puts the former
owner in VAT reset: a lost heartbeat (cause 2), any source of FLT, the watchdog, a double-bit error of its critical state,
and a pad mismatch (cause 6), which opens the one-second window. Where the spec leaves a point open, this follows the choice
of notes/assumptions/16.md. -/
def Obligations.OwnerFaultHandsOver : Prop :=
  (∀ (v : Vat) (s : State),
    OwnerWithStandby s v →
    s.variant.dual = true →
    s.vatLive v.other = true →
    Answers (.heartbeatLost v) s (fun t => TakenOver t v 2 ∧ t.is (R.VAT_HB_PEER_LOST_F v.other) = true))
  ∧ (∀ (v : Vat) (src : Fin 8) (s : State),
    OwnerWithStandby s v →
    Answers (.vatFaultFlag v src) s (fun t => TakenOver t v (fltOwnCause src.val)
      ∧ t.rdBit (R.VAT_ROLE_FLTSRC v) src.val = true))
  ∧ (∀ (v : Vat) (s : State),
    OwnerWithStandby s v →
    supRuns s v = true →
    Answers (.vatWatchdogExpiry v) s (fun t => TakenOver t v 3 ∧ t.rd R.RST_CAUSE_CODE = 0x05))
  ∧ (∀ (v : Vat) (s : State),
    OwnerWithStandby s v →
    Answers (.criticalDoubleBitError (some v)) s (fun t => TakenOver t v 3 ∧ t.rd R.RST_CAUSE_CODE = 0x07))
  ∧ (∀ (v : Vat) (leg : Fin 32) (p : Nat) (s : State),
    OwnerWithStandby s v →
    legPort s v leg.val = some p →
    s.rdBit R.OWN_LEGPEND_VAL leg.val = false →
    s.arb.drill = none →
    s.arb.padFrom ≠ some v.other →
    Answers (.padMismatch leg) s (fun t => TakenOver t v 6 ∧ t.arb.padFrom = some v ∧ t.is R.OWN_MMF_PADERR_F = true
      ∧ t.rd R.OWN_MMINFO_KIND = 5 ∧ t.rd R.OWN_MMINFO_LEG = leg.val ∧ t.rd R.OWN_MMINFO_PORT = p))

/-- A mismatch of an item that the comparator compares (both vats computing; a running port, an assigned leg, a graph that
evaluates in both), while none joins and no window is open, sets its flag, counts, names its kind in MMINFO, aborts a drill,
and opens the attribution window with what FLT shows; of any other item it changes nothing. A pad mismatch of an assigned leg
within 1 s of one under the other owner raises safety fault bit 2 and ownership stays; the end of that window closes it.
Where the spec leaves a point open, this follows the choice of notes/assumptions/29.md and notes/assumptions/102.md. -/
def Obligations.MismatchesRecorded : Prop :=
  (∀ (k : MismatchKind) (s : State),
    Calm s →
    compared s k = true →
    joiningVat s = none →
    s.arb.attr = none →
    Answers (.compareMismatch k) s (fun t => t.is (mismatchFlag k) = true
      ∧ t.rd R.OWN_MMF_MISMATCHES = min (s.rd R.OWN_MMF_MISMATCHES + 1) 65535 ∧ t.rd R.OWN_MMINFO_KIND = mismatchCode k
      ∧ t.arb.attr = some ⟨s.is (R.VAT_ROLE_FLT .A), s.is (R.VAT_ROLE_FLT .B)⟩ ∧ t.arb.drill = none ∧ t.owner = s.owner
      ∧ Frame s t [mismatchFlag k, R.OWN_MMF_MISMATCHES, whole R.OWN_MMINFO, whole R.OWN_MMTICK, R.OWN_STAT_DRILL,
        R.OWN_DRILL_ABORT_F]))
  ∧ (∀ (k : MismatchKind) (s : State),
    Calm s →
    compared s k = false →
    Answers (.compareMismatch k) s (fun t => t.arb.attr = s.arb.attr ∧ t.arb.drill = s.arb.drill ∧ t.owner = s.owner ∧ Frame s t []))
  ∧ (∀ (v : Vat) (leg : Fin 32) (p : Nat) (s : State),
    Calm s →
    s.dev.onward = true →
    s.owner = some v →
    legPort s v leg.val = some p →
    s.rdBit R.OWN_LEGPEND_VAL leg.val = false →
    s.arb.drill = none →
    s.arb.padFrom = some v.other →
    Answers (.padMismatch leg) s (fun t => t.rdBit (whole R.SAFE_FAULT) 2 = true ∧ t.owner = some v
      ∧ t.is R.OWN_MMF_PADERR_F = true ∧ t.rd R.OWN_MMF_MISMATCHES = min (s.rd R.OWN_MMF_MISMATCHES + 1) 65535
      ∧ t.rd R.OWN_MMINFO_KIND = 5 ∧ t.rd R.OWN_MMINFO_LEG = leg.val ∧ t.rd R.OWN_MMINFO_PORT = p
      ∧ Frame s t [R.OWN_MMF_PADERR_F, R.OWN_MMF_MISMATCHES, whole R.OWN_MMINFO, whole R.SAFE_FAULT, R.SAFE_FLAGS_RIDE_F]))
  ∧ (∀ (s : State),
    Calm s →
    Answers .padRecurrenceWindowEnd s (fun t => t.arb.padFrom = none ∧ t.owner = s.owner ∧ Frame s t []))

/-- The window ends. Where only the standby's FLT showed, the mismatch is attributed to it and it is reset; where only the
owner's did, an eligible standby takes over. Where neither or both showed, it is unattributed: the standby is reset, and
where another came within UNATTR_WIN it is RETIRED with safety fault bit 1. UNATTR_WIN's expiry closes that window. Where the
spec leaves a point open, this follows the choice of notes/assumptions/15.md. -/
def Obligations.AttributionEnds : Prop :=
  (∀ (v : Vat) (s : State),
    RunningStandby s v →
    s.arb.attr = some ⟨v == .A, v == .B⟩ →
    Answers .attributionWindowEnd s (fun t => VatResetTaken t v ∧ t.rd R.OWN_MMINFO_ATTR = v.code ∧ t.arb.attr = none
      ∧ t.owner = s.owner))
  ∧ (∀ (v : Vat) (s : State),
    OwnerWithStandby s v →
    s.arb.attr = some ⟨v == .A, v == .B⟩ →
    Answers .attributionWindowEnd s (fun t => TakenOver t v 5 ∧ t.rd R.OWN_MMINFO_ATTR = v.code ∧ t.arb.attr = none))
  ∧ (∀ (v : Vat) (both : Bool) (s : State),
    RunningStandby s v →
    s.owner = some v.other →
    s.arb.attr = some ⟨both, both⟩ →
    s.arb.unattrOpen = false →
    Answers .attributionWindowEnd s (fun t => VatResetTaken t v ∧ t.rd R.OWN_MMINFO_ATTR = 0 ∧ t.is R.OWN_MMF_UNATTR_F = true
      ∧ t.arb.attr = none ∧ t.arb.unattrOpen = true ∧ t.owner = s.owner))
  ∧ (∀ (v : Vat) (both : Bool) (s : State),
    RunningStandby s v →
    s.owner = some v.other →
    s.arb.attr = some ⟨both, both⟩ →
    s.arb.unattrOpen = true →
    Answers .attributionWindowEnd s (fun t => VatResetTaken t v ∧ t.rd (R.VAT_ROLE_ROLE v) = roleRETIRED
      ∧ t.is R.OWN_MMF_UNATTR_F = true ∧ t.rdBit (whole R.SAFE_FAULT) 1 = true ∧ t.owner = s.owner))
  ∧ (∀ (s : State),
    Calm s →
    Answers .unattrWindowExpiry s (fun t => t.arb.unattrOpen = false ∧ Frame s t []))

/-- With no owner an eligible claimant gets the pins with cause 1, Vat A where both claim; against an owner with FLT it gets
them and the owner is reset; a claim by a vat that is not eligible changes no register. A leg passes where the new owner
drives EN low, where both vats drive it equally, or at the second carrier event after the change, and else stays pending; an
AUX link or SSI input passes where both vats run the same frame. HANDOVER clears with the last one. Where the spec leaves a
point open, this follows the choice of notes/assumptions/16.md. -/
def Obligations.ClaimsAndHandover : Prop :=
  (∀ (b : Bool) (s : State),
    Calm s →
    s.dev.onward = true →
    s.owner = none →
    s.vatLive .A = true →
    eligible s .A = true →
    Answers (.ownershipClaim true b) s (fun t => t.owner = some .A ∧ t.rd R.OWN_STAT_CAUSE = 1
      ∧ t.rd (R.VAT_ROLE_ROLE .A) = roleACTIVE ∧ t.rd R.OWN_STAT_CHANGES = min (s.rd R.OWN_STAT_CHANGES + 1) 65535))
  ∧ (∀ (s : State),
    Calm s →
    s.dev.onward = true →
    s.owner = none →
    s.vatLive .B = true →
    eligible s .B = true →
    Answers (.ownershipClaim false true) s (fun t => t.owner = some .B ∧ t.rd R.OWN_STAT_CAUSE = 1
      ∧ t.rd (R.VAT_ROLE_ROLE .B) = roleACTIVE ∧ t.rd R.OWN_STAT_CHANGES = min (s.rd R.OWN_STAT_CHANGES + 1) 65535))
  ∧ (∀ (a b : Bool) (s : State),
    Calm s →
    eligible s .A = false →
    eligible s .B = false →
    Answers (.ownershipClaim a b) s (fun t => t.owner = s.owner ∧ Frame s t []))
  ∧ (∀ (v : Vat) (s : State),
    OwnerWithStandby s v →
    s.is (R.VAT_ROLE_FLT v) = true →
    s.vatLive v.other = true →
    Answers (.ownershipClaim (v == .B) (v == .A)) s (fun t => ∃ k < 8, TakenOver t v k))
  ∧ (∀ (n : Fin 32) (v w : Vat) (s : State),
    Calm s →
    s.owner = some v →
    s.arb.prevOwner = some w →
    s.is (R.LEG_PIN_EN v n) = false ∨ (s.is (R.LEG_PIN_EN v n) = s.is (R.LEG_PIN_EN w n) ∧ s.is (R.LEG_PIN_PULSE v n) = s.is (R.LEG_PIN_PULSE w n)) ∨ (∃ p < 8, legPort s v n = some p ∧ 2 ≤ eventsSince s v p s.arb.changePt) →
    Answers (.legHandover (.leg n)) s (fun t => t.rdBit R.OWN_LEGPEND_VAL n.val = false ∧ t.owner = s.owner))
  ∧ (∀ (n : Fin 32) (v w : Vat) (p : Nat) (s : State),
    Calm s →
    s.owner = some v →
    s.arb.prevOwner = some w →
    s.rdBit R.OWN_LEGPEND_VAL n.val = true →
    s.is (R.LEG_PIN_EN v n) = true →
    s.is (R.LEG_PIN_EN w n) = false ∨ s.is (R.LEG_PIN_PULSE v n) ≠ s.is (R.LEG_PIN_PULSE w n) →
    legPort s v n = some p →
    eventsSince s v p s.arb.changePt < 2 →
    Answers (.legHandover (.leg n)) s (fun t => t.rd R.OWN_LEGPEND_VAL = s.rd R.OWN_LEGPEND_VAL ∧ t.owner = s.owner ∧ Frame s t []))
  ∧ (∀ (k : Fin 4) (s : State),
    Calm s →
    (getAux s .A k).cur.map (fun f => f.1) = (getAux s .B k).cur.map (fun f => f.1) →
    Answers (.legHandover (.aux k)) s (fun t => bitOf t.arb.auxPend k.val = false ∧ t.owner = s.owner))
  ∧ (∀ (k : Fin 4) (s : State),
    Calm s →
    s.arb.auxPend ≠ 0 →
    (getAux s .A k).cur.map (fun f => f.1) ≠ (getAux s .B k).cur.map (fun f => f.1) →
    Answers (.legHandover (.aux k)) s (fun t => t.arb.auxPend = s.arb.auxPend ∧ t.owner = s.owner ∧ Frame s t []))
  ∧ (∀ (i : Fin 4) (s : State),
    Calm s →
    (getPos s .A (4 + i)).frame = (getPos s .B (4 + i)).frame →
    Answers (.legHandover (.ssi i)) s (fun t => bitOf t.arb.ssiPend i.val = false ∧ t.owner = s.owner))
  ∧ (∀ (i : Fin 4) (s : State),
    Calm s →
    s.arb.ssiPend ≠ 0 →
    (getPos s .A (4 + i)).frame ≠ (getPos s .B (4 + i)).frame →
    Answers (.legHandover (.ssi i)) s (fun t => t.arb.ssiPend = s.arb.ssiPend ∧ t.owner = s.owner ∧ Frame s t []))
  ∧ (∀ (n : Fin 32) (s : State),
    Calm s →
    s.rd R.OWN_LEGPEND_VAL = 2 ^ n.val →
    s.arb.auxPend = 0 →
    s.arb.ssiPend = 0 →
    legPasses s n = true →
    Answers (.legHandover (.leg n)) s (fun t => t.is R.OWN_STAT_HANDOVER = false ∧ t.rd R.OWN_LEGPEND_VAL = 0))

/-- A vat that may be released leaves reset as a STANDBY that joins, with SYNCOK and FLT clear, or, where a retired engine
leaves a graph no place, fails its join at once; one that may not changes nothing. The second stage copies the owner's
engine-local memory, in which only a graph that moved to its fallback names its own slot, and nothing else. A join that times
out sets JOINFAIL_F and resets the vat, which counts a failure. Where the spec leaves a point open, this follows the choice
of notes/assumptions/18.md. -/
def Obligations.JoiningStages : Prop :=
  (∀ (v : Vat) (s : State),
    Calm s →
    releasable s v = true →
    Fits s →
    (List.range 8).all (fun c => !engRetired s v c) = true →
    Answers (.vatRelease v) s (fun t => (t.vat v).inReset = false ∧ (t.vat v).copied = false
      ∧ t.rd (R.VAT_ROLE_ROLE v) = roleSTANDBY ∧ t.is (R.VAT_ROLE_JOINING v) = true ∧ t.is (R.VAT_ROLE_SYNCOK v) = false
      ∧ t.is (R.VAT_ROLE_FLT v) = false ∧ t.rd (R.VAT_ROLE_FLTSRC v) = 0 ∧ t.owner = s.owner ∧ t.mem = s.mem))
  ∧ (∀ (v : Vat) (s : State),
    Calm s →
    releasable s v = true →
    aloneVat s v = false →
    Answers (.vatRelease v) s (fun t => t.owner = s.owner ∧ t.mem = s.mem
      ∧ (((t.vat v).inReset = false ∧ t.rd (R.VAT_ROLE_ROLE v) = roleSTANDBY ∧ t.is (R.VAT_ROLE_JOINING v) = true)
        ∨ (VatResetTaken t v ∧ t.is (R.VAT_JOIN_JOINFAIL_F v) = true))))
  ∧ (∀ (v : Vat) (s : State),
    Calm s →
    releasable s v = false →
    Answers (.vatRelease v) s (fun t => vatRest (t.vat v) = vatRest (s.vat v) ∧ t.owner = s.owner ∧ Frame s t []))
  ∧ (∀ (v : Vat) (s : State),
    Calm s →
    s.vatLive v = true →
    s.is (R.VAT_ROLE_JOINING v) = true →
    (s.vat v).copied = false →
    Answers (.joinCopyComplete v) s (fun t => (t.vat v).copied = true
      ∧ ((List.range 8).all (fun c => (List.range 4).all (fun k =>
          !s.is (R.GS_BIND_BOUND v c k) || s.rd (R.GS_BIND_ORIGIN v c k) == c)) = true → ∀ a < 0x100000, Memory.read t.mem (v.base + 0x01000000 + a) = Memory.read s.mem (v.other.base + 0x01000000 + a))
      ∧ BytesKept s t (v.base + 0x01000000) 0x100000
      ∧ RegsKept s t []))
  ∧ (∀ (v : Vat) (s : State),
    Calm s →
    s.dev.onward = true →
    s.hasVat v = true →
    (s.vat v).inReset = false →
    s.is (R.VAT_ROLE_JOINING v) = true →
    s.owner ≠ some v →
    aloneVat s v = false →
    Answers (.rejoinTimeout v) s (fun t => VatResetTaken t v ∧ t.is (R.VAT_JOIN_JOINFAIL_F v) = true
      ∧ t.rd (R.VAT_ROLE_FAILS v) = min (s.rd (R.VAT_ROLE_FAILS v) + 1) 15 ∧ t.owner = s.owner))

/-- A drill whose ownership does not return, or has returned, passes: DRILL clears, OK_F sets and DRILLS counts. Otherwise
ownership returns to the vat it came from, where that vat is eligible, with cause 7, and where it is not the drill is
aborted. Without a drill in its check window nothing changes. Where the spec leaves a point open, this follows the choice of
notes/assumptions/17.md. -/
def Obligations.DrillWindowEnds : Prop :=
  (∀ (d : DrillSt) (s : State),
    Calm s →
    s.arb.drill = some d →
    d.checking = true →
    d.back = false ∨ d.returned = true →
    Answers .drillCheckWindowEnd s (fun t => t.arb.drill = none ∧ t.is R.OWN_STAT_DRILL = false ∧ t.is R.OWN_DRILL_OK_F = true
      ∧ t.rd R.OWN_DRILL_DRILLS = min (s.rd R.OWN_DRILL_DRILLS + 1) 65535 ∧ t.owner = s.owner
      ∧ Frame s t [R.OWN_STAT_DRILL, R.OWN_DRILL_OK_F, R.OWN_DRILL_DRILLS]))
  ∧ (∀ (d : DrillSt) (s : State),
    Calm s →
    s.arb.drill = some d →
    d.checking = true →
    d.back = true →
    d.returned = false →
    eligible s d.origin = true →
    Answers .drillCheckWindowEnd s (fun t => t.owner = some d.origin ∧ t.rd R.OWN_STAT_CAUSE = 7
      ∧ t.rd (R.VAT_ROLE_ROLE d.origin) = roleACTIVE ∧ ∃ k, t.arb.drill = some ⟨d.origin, true, true, k⟩))
  ∧ (∀ (d : DrillSt) (s : State),
    Calm s →
    s.arb.drill = some d →
    d.checking = true →
    d.back = true →
    d.returned = false →
    eligible s d.origin = false →
    Answers .drillCheckWindowEnd s (fun t => t.arb.drill = none ∧ t.is R.OWN_STAT_DRILL = false ∧ t.is R.OWN_DRILL_ABORT_F = true
      ∧ t.owner = s.owner ∧ Frame s t [R.OWN_STAT_DRILL, R.OWN_DRILL_ABORT_F]))
  ∧ (∀ (s : State),
    Calm s →
    s.arb.drill.all (fun d => !d.checking) = true →
    Answers .drillCheckWindowEnd s (fun t => t.arb.drill = s.arb.drill ∧ t.owner = s.owner ∧ Frame s t []))

/-- Every step keeps the device's parts whole: each vat has its ports, legs, channels, links, inputs and engine slots, and
what graphs, PREDICT records and evaluations name has a place. The machine at reset is so. -/
def Obligations.PartsFitKept : Prop :=
  Fits State.reset ∧ ∀ s t : State, Fits s → step s = .next t → Fits t

/-! ## Clocks (16_clocks.md) -/

/-- REFCLK accepted sets REF_OK and, in holdover, starts the slew with PHERR; REFCLK lost clears REF_OK, PHASE_OK and SLEW,
sets HOLD and REFLOST_F and counts in HOLDS; PLL-T within 100 ps of its programmed position, with nothing of the slew left,
sets PHASE_OK and ends holdover, and moves no time base; farther off, only PHERR shows it; while some of the slew is left,
nothing completes. That the slew's amount is set from PHERR and that its completion waits for all of it is the model's choice
(log entries 9 and 32). Where the spec leaves a point open, this follows the choice of notes/assumptions/9.md and
notes/assumptions/32.md. -/
def Obligations.RefclkAndHoldover : Prop :=
  (∀ (ph : BitVec 16) (s : State),
    Calm s →
    s.rst.phase ≠ .por →
    s.rst.loopsOn = true →
    s.is R.CLK_STAT_REF_OK = false →
    Answers (.refclkPresent ph) s (fun t => t.is R.CLK_STAT_REF_OK = true
      ∧ (s.is R.CLK_STAT_HOLD = true → t.is R.CLK_STAT_SLEW = true ∧ t.rd R.CLK_PHASE_PHERR = ph.toNat
        ∧ t.clk.slewQ = -(signedOf 16 ph.toNat * 2 ^ 39))
      ∧ (s.is R.CLK_STAT_HOLD = false → Frame s t [R.CLK_STAT_REF_OK])
      ∧ Frame s t [R.CLK_STAT_REF_OK, R.CLK_STAT_SLEW, R.CLK_PHASE_PHERR]))
  ∧ (∀ (s : State),
    Calm s →
    s.is R.CLK_STAT_REF_OK = true →
    Answers .refclkLost s (fun t => t.is R.CLK_STAT_REF_OK = false ∧ t.is R.CLK_STAT_HOLD = true
      ∧ t.is R.CLK_STAT_PHASE_OK = false ∧ t.is R.CLK_STAT_SLEW = false ∧ t.is R.CLK_FLAGS_REFLOST_F = true
      ∧ t.rd R.CLK_FLAGS_HOLDS = min (s.rd R.CLK_FLAGS_HOLDS + 1) 65535
      ∧ Frame s t [R.CLK_STAT_REF_OK, R.CLK_STAT_HOLD, R.CLK_STAT_PHASE_OK, R.CLK_STAT_SLEW, R.CLK_FLAGS_REFLOST_F,
        R.CLK_FLAGS_HOLDS]))
  ∧ (∀ (sl : BitVec 32) (ph : BitVec 16) (s : State),
    Calm s →
    s.is R.CLK_STAT_REF_OK = true →
    s.rdBit R.CLK_STAT_GOOD 2 = true →
    s.is R.CLK_STAT_PHASE_OK = false →
    s.clk.slewQ = 0 →
    phaseNear ph.toNat = true →
    Answers (.phaseSlewComplete sl ph) s (fun t => t.is R.CLK_STAT_PHASE_OK = true ∧ t.is R.CLK_STAT_HOLD = false
      ∧ t.rd R.CLK_PHASE_PHERR = ph.toNat ∧ t.clk.slewQ = 0 ∧ (s.is R.CLK_STAT_HOLD = true → t.is R.CLK_STAT_SLEW = false)
      ∧ t.time = s.time
      ∧ RegsKept s t [R.CLK_STAT_PHASE_OK, R.CLK_STAT_HOLD, R.CLK_STAT_SLEW, R.CLK_PHASE_PHERR]))
  ∧ (∀ (sl : BitVec 32) (ph : BitVec 16) (s : State),
    Calm s →
    phaseNear ph.toNat = false →
    s.is R.CLK_STAT_PHASE_OK = false →
    Answers (.phaseSlewComplete sl ph) s (fun t => t.is R.CLK_STAT_PHASE_OK = false ∧ Frame s t [R.CLK_PHASE_PHERR]
      ∧ (s.is R.CLK_STAT_REF_OK = true → s.rdBit R.CLK_STAT_GOOD 2 = true → s.clk.slewQ = 0 → t.rd R.CLK_PHASE_PHERR = ph.toNat)))
  ∧ (∀ (sl : BitVec 32) (ph : BitVec 16) (s : State),
    Calm s →
    s.clk.slewQ ≠ 0 ∨ s.is R.CLK_STAT_REF_OK = false ∨ s.rdBit R.CLK_STAT_GOOD 2 = false ∨ s.is R.CLK_STAT_PHASE_OK = true →
    Answers (.phaseSlewComplete sl ph) s (fun t => CycleOnly s t))

/-- A loss of lock clears the loops' GOOD bits and sets their loss flags. A loop of a running standby resets it with cause
0x0B; PLL-N puts NT on REFCLK and empties the launch queues; PLL-C stops the synthesisers and takes the clock of the groups
with SRC = 1; PLL-T, once released, gives a SYS reset with cause 0x0A, in operation after STO, which waits only for active
short circuits. Where the spec leaves a point open, this follows the choice of notes/assumptions/19.md and
notes/assumptions/33.md. -/
def Obligations.LossOfLockReactions : Prop :=
  (∀ (m : BitVec 6) (s : State),
    Calm s →
    s.dev ≠ .off →
    m &&& 0b011111 = 0 →
    Answers (.lossOfLock m) s (fun t =>
      (∀ i : Fin 6, t.rdBit R.CLK_STAT_GOOD i = (s.rdBit R.CLK_STAT_GOOD i && !m.getLsbD i))
      ∧ (∀ i : Fin 6, t.rdBit R.CLK_FLAGS_LOSS_F i = (s.rdBit R.CLK_FLAGS_LOSS_F i || (m.getLsbD i && s.rdBit R.CLK_STAT_GOOD i)))
      ∧ Frame s t [R.CLK_STAT_GOOD, R.CLK_FLAGS_LOSS_F]))
  ∧ (∀ (v : Vat) (s : State),
    RunningStandby s v →
    s.rdBit R.CLK_STAT_GOOD (v.code - 1) = true →
    domainUp s (match v with | .A => .VA | .B => .VB) = true →
    Answers (.lossOfLock (BitVec.ofNat 6 v.code)) s (fun t => VatResetTaken t v ∧ t.rd R.RST_CAUSE_CODE = 0x0B
      ∧ t.rdBit R.CLK_STAT_GOOD (v.code - 1) = false ∧ t.rdBit R.CLK_FLAGS_LOSS_F (v.code - 1) = true ∧ t.owner = s.owner))
  ∧ (∀ (s : State),
    Calm s →
    s.rdBit R.CLK_STAT_GOOD 3 = true →
    domainUp s .N = true →
    Answers (.lossOfLock 8) s (fun t => t.rdBit R.CLK_STAT_GOOD 3 = false ∧ t.rdBit R.CLK_FLAGS_LOSS_F 3 = true ∧ t.is R.NT_STAT_FB = true
      ∧ t.is R.NT_STAT_SYNC = false ∧ t.net.ltq = List.replicate 16 [] ∧ t.time = s.time))
  ∧ (∀ (s : State),
    Calm s →
    s.dev ≠ .off →
    s.rdBit R.CLK_STAT_GOOD 4 = true →
    Answers (.lossOfLock 16) s (fun t => t.rdBit R.CLK_STAT_GOOD 4 = false ∧ t.rdBit R.CLK_FLAGS_LOSS_F 4 = true
      ∧ (∀ (g : Fin 8) (comp : Bool), s.is (R.SGRP_CLK_SRC .A g) = true → clockBall (mclkOut t g) comp = .level false)
      ∧ (∀ (i : Fin 4) (comp : Bool), s.rd (R.CKO_CFG_SRC i) = 1 → clockBall (ckoOut t i) comp = .level false)
      ∧ ∀ (v : Vat) (g : Fin 8), s.vatLive v = true → s.is (R.SGRP_CLK_SRC v g) = true → t.is (R.SGRP_STAT_CLKLOSS v g) = true))
  ∧ (∀ (s : State),
    s.dev.operating = false →
    s.dev ≠ .off →
    s.rst.phase ≠ .por →
    s.rdBit R.CLK_STAT_GOOD 2 = true →
    domainUp s .T = true →
    Answers (.lossOfLock 4) s (fun t => SysResetTaken s t 0x0A ∧ t.rdBit R.CLK_FLAGS_LOSS_F 2 = true))
  ∧ (∀ (s : State),
    s.dev.operating = true →
    s.rst.phase ≠ .por →
    s.rdBit R.CLK_STAT_GOOD 2 = true →
    domainUp s .T = true →
    s.arb.hold = none →
    (List.range 8).all (fun p => monitorPattern s p < 2) = true →
    Answers (.lossOfLock 4) s (fun t => SysResetTaken s t 0x0A ∧ t.rdBit R.CLK_FLAGS_LOSS_F 2 = true))
  ∧ (∀ (s : State),
    s.dev.operating = true →
    s.rdBit R.CLK_STAT_GOOD 2 = true →
    domainUp s .T = true →
    s.arb.hold = none →
    (List.range 8).any (fun p => 2 ≤ monitorPattern s p) = true →
    Answers (.lossOfLock 4) s (fun t => t.arb.hold = some ((List.range 8).map (monitorPattern s))
      ∧ t.rst.sysAfterSto = some 0x0A ∧ t.rdBit R.CLK_FLAGS_LOSS_F 2 = true ∧ t.is R.SAFE_STAT_SS1_ACT = true ∧ t.dev.operating = true))

/-- A loop that has been locked long enough with REF_OK sets its GOOD bit. With PLL-N back, NT leaves REFCLK; with the CAN
loop back, every channel that is on and not retired is error-active with cleared counters; the loops of the vats and of T
change nothing else. -/
def Obligations.LoopsReturn : Prop :=
  ∀ (l : PllLoop) (s : State),
    Calm s →
    s.rst.phase ≠ .por →
    s.rst.loopsOn = true →
    s.is R.CLK_STAT_REF_OK = true →
    s.rdBit R.CLK_STAT_GOOD (loopBit l) = false →
    Answers (.loopGood l) s (fun t => t.rdBit R.CLK_STAT_GOOD (loopBit l) = true
      ∧ (l = .N → domainUp s .N = true → t.is R.NT_STAT_FB = false)
      ∧ (l = .SA ∨ l = .SB ∨ l = .T → Frame s t [R.CLK_STAT_GOOD])
      ∧ (l = .CAN → domainUp s .CAN = true → ∀ c : Fin 6, s.rd (R.CAN_STAT_STATE c) ≠ 0 → s.is (R.CAN_STAT_RETIRED c) = false →
        t.rd (R.CAN_STAT_STATE c) = 1 ∧ t.rd (R.CAN_STAT_TEC c) = 0 ∧ t.rd (R.CAN_STAT_REC c) = 0))

/-- A calibration in range, and within 2 % of the one before, is recorded with RO_OK; one that is not gives a SYS reset with
cause 0x0A, unless the SYS reset for a loss of PLL-T is already to come; without REFCLK there is none. A step of a profile
that runs puts the deviation of its next microsecond, looked up in the table of RAMP and repeated with the period of its last
breakpoint, into PLLT_DEV; without a profile nothing changes. A recalibration of a delay line changes nothing but what the
cycle itself does: no register, no memory, no state of a unit. Where the spec leaves a point open, this follows the choice of
notes/assumptions/32.md. -/
def Obligations.RingAndRamp : Prop :=
  (∀ (f : Nat) (s : State),
    Calm s →
    s.rst.phase ≠ .por →
    s.is R.CLK_STAT_REF_OK = true →
    calibrationOk s f = true →
    Answers (.roCalibration f) s (fun t => t.rd R.CLK_STAT_RO_FREQ = f ∧ t.is R.CLK_STAT_RO_OK = true ∧ t.clk.roHave = true
      ∧ Frame s t [R.CLK_STAT_RO_FREQ, R.CLK_STAT_RO_OK]))
  ∧ (∀ (f : Nat) (s : State),
    s.rst.phase ≠ .por →
    s.is R.CLK_STAT_REF_OK = true →
    lostT s = false →
    calibrationOk s f = false →
    Answers (.roCalibration f) s (fun t => SysResetTaken s t 0x0A))
  ∧ (∀ (f : Nat) (s : State),
    Calm s →
    s.rst.phase = .por ∨ s.is R.CLK_STAT_REF_OK = false →
    Answers (.roCalibration f) s (fun t => t.clk = s.clk ∧ Frame s t []))
  ∧ (∀ (x : TableDef) (s : State),
    Calm s →
    s.is R.CLK_STAT_RAMP = true →
    findTable s.whl.tables (s.rd R.PLLT_RAMP_TABLE_ID) = some x →
    Answers .rampProfileStep s (fun t => t.clk.rampUs = s.clk.rampUs + 1
      ∧ t.rd (whole R.PLLT_DEV) = (lookup1 x (F32.ofRat ((s.clk.rampUs + 1) * (fraction (x.xs.getLastD 0)).2
          % (fraction (x.xs.getLastD 0)).1) (fraction (x.xs.getLastD 0)).2)).toNat
      ∧ Frame s t [whole R.PLLT_DEV]))
  ∧ (∀ (s : State),
    Calm s →
    s.is R.CLK_STAT_RAMP = false →
    Answers .rampProfileStep s (fun t => t.clk = s.clk ∧ Frame s t []))
  ∧ (∀ (v : Vat) (n : Fin 32) (s : State),
    Calm s →
    Answers (.delayLineRecal v n) s (fun t => CycleOnly s t))

/-! ## Pulse generation (09_pulse_generation.md) -/

/-- A trip input that rises registers: LEVEL, TRIP_F and COUNT. A hard trip, or a soft one outside the port's blanking
window, takes the port of its mask into FAULT_PATTERN with cause TRIP; a soft one inside the window is latched and the port
stays. The release of the input clears LEVEL. Where the spec leaves a point open, this follows the choice of
notes/assumptions/27.md. -/
def Obligations.TripsAct : Prop :=
  (∀ (v : Vat) (i p : Fin 8) (s : State),
    Steady s v →
    pulseRuns s v = true →
    s.is (R.TRIP_CFG_EN v i) = true →
    s.is (R.TRIP_STAT_LEVEL v i) = false →
    s.rd (R.TRIP_CFG_PMASK v i) = 2 ^ p.val →
    loneActive s v p = true →
    s.is (R.TRIP_CFG_CLASS v i) = true ∨ s.is (R.PORT_PWMSTAT_BLK v p) = false →
    Answers (.tripRegistration v i) s (fun t => PatternEntered s t v p causeTRIP (nextPattern s v p)
      ∧ t.is (R.TRIP_STAT_LEVEL v i) = true ∧ t.is (R.TRIP_STAT_TRIP_F v i) = true
      ∧ t.rd (R.TRIP_COUNT_VAL v i) = min (s.rd (R.TRIP_COUNT_VAL v i) + 1) (2 ^ 32 - 1)))
  ∧ (∀ (v : Vat) (i p : Fin 8) (s : State),
    Steady s v →
    pulseRuns s v = true →
    s.is (R.TRIP_CFG_EN v i) = true →
    s.is (R.TRIP_STAT_LEVEL v i) = false →
    s.rd (R.TRIP_CFG_PMASK v i) = 2 ^ p.val →
    portActive s v p = true →
    s.is (R.TRIP_CFG_CLASS v i) = false →
    s.is (R.PORT_PWMSTAT_BLK v p) = true →
    Answers (.tripRegistration v i) s (fun t => t.rdBit (R.PORT_PWMSTAT_TRIPLAT v p) i = true ∧ portState t v p = portState s v p
      ∧ t.is (R.TRIP_STAT_LEVEL v i) = true ∧ t.is (R.TRIP_STAT_TRIP_F v i) = true))
  ∧ (∀ (v : Vat) (i : Fin 8) (s : State),
    Calm s →
    pulseRuns s v = true →
    Answers (.tripLevelRelease v i) s (fun t => t.is (R.TRIP_STAT_LEVEL v i) = false ∧ Frame s t [R.TRIP_STAT_LEVEL v i]))

/-- A latched soft trip whose input has gone is discarded with BLKD_F and BLKD; one whose input is still asserted takes the
port into FAULT_PATTERN. The end of the window clears BLK and resolves all that is latched: what has gone is discarded, and a
trip still asserted takes the pattern. -/
def Obligations.SoftTripsResolved : Prop :=
  (∀ (v : Vat) (p i : Fin 8) (s : State),
    Steady s v →
    pulseRuns s v = true →
    s.rdBit (R.PORT_PWMSTAT_TRIPLAT v p) i = true →
    s.is (R.TRIP_STAT_LEVEL v i) = false →
    Answers (.softTripResolution v p i) s (fun t => t.rdBit (R.PORT_PWMSTAT_TRIPLAT v p) i = false
      ∧ t.is (R.TRIP_STAT_BLKD_F v i) = true ∧ t.rd (R.TRIP_STAT_BLKD v i) = min (s.rd (R.TRIP_STAT_BLKD v i) + 1) 65535
      ∧ portState t v p = portState s v p ∧ Frame s t [R.TRIP_STAT_BLKD_F v i, R.TRIP_STAT_BLKD v i]))
  ∧ (∀ (v : Vat) (p i : Fin 8) (s : State),
    Steady s v →
    pulseRuns s v = true →
    s.rdBit (R.PORT_PWMSTAT_TRIPLAT v p) i = true →
    s.is (R.TRIP_STAT_LEVEL v i) = true →
    loneActive s v p = true →
    Answers (.softTripResolution v p i) s (fun t => PatternEntered s t v p causeTRIP (nextPattern s v p)
      ∧ t.rd (R.PORT_PWMSTAT_TRIPLAT v p) = 0))
  ∧ (∀ (v : Vat) (p : Fin 8) (s : State),
    Steady s v →
    pulseRuns s v = true →
    s.is (R.PORT_PWMSTAT_BLK v p) = true →
    (List.range 8).all (fun i => !s.is (R.TRIP_STAT_LEVEL v i)) = true →
    Answers (.blankingWindowClose v p) s (fun t => t.is (R.PORT_PWMSTAT_BLK v p) = false ∧ t.rd (R.PORT_PWMSTAT_TRIPLAT v p) = 0
      ∧ portState t v p = portState s v p))
  ∧ (∀ (v : Vat) (p i : Fin 8) (s : State),
    Steady s v →
    pulseRuns s v = true →
    s.is (R.PORT_PWMSTAT_BLK v p) = true →
    s.rdBit (R.PORT_PWMSTAT_TRIPLAT v p) i = true →
    s.is (R.TRIP_STAT_LEVEL v i) = true →
    loneActive s v p = true →
    Answers (.blankingWindowClose v p) s (fun t => t.is (R.PORT_PWMSTAT_BLK v p) = false
      ∧ PatternEntered s t v p causeTRIP (nextPattern s v p) ∧ t.rd (R.PORT_PWMSTAT_TRIPLAT v p) = 0
      ∧ ∀ j : Fin 8, s.rdBit (R.PORT_PWMSTAT_TRIPLAT v p) j = true → s.is (R.TRIP_STAT_LEVEL v j) = false →
        t.is (R.TRIP_STAT_BLKD_F v j) = true ∧ t.rd (R.TRIP_STAT_BLKD v j) = min (s.rd (R.TRIP_STAT_BLKD v j) + 1) 65535))

/-- An edge whose interval is long enough, or that MPMODE stretches, moves PULSE; a shorter one is dropped and counted.
Nothing is placed on a leg whose port does not follow a set or whose level is there already. An edge that comes before TMIN
has passed since the last waits until TMIN has; one under a refresh gives the level after it; and the trailing edge of an
interval that goes on into an extreme duty is placed. A valley that is no reload puts the period of the set into force. At
the valley of a linked secondary in MODE 1 a bootstrap leg whose next low interval would leave it charged too late gets a
refresh. Where the spec leaves a point open, this follows the choice of notes/assumptions/28.md and notes/assumptions/54.md.
-/
def Obligations.EdgesPlaced : Prop :=
  (∀ (v : Vat) (n : Fin 32) (p : Nat) (rise : Bool) (s : State),
    Steady s v →
    legPort s v n = some p →
    edgePlaced s v p n rise = true →
    (s.vat v).pulseHeld = false ∨ s.is R.OWN_STAT_HANDOVER = false →
    tminUnits s v n ≤ opensUnits s v p n rise →
    Answers (.generatorEdge v n (if rise then .rise else .fall)) s (fun t => t.is (R.LEG_PIN_PULSE v n) = rise
      ∧ (s.is R.OWN_STAT_HANDOVER = false → Frame s t [R.PORT_PWMSTAT_BLK v p])))
  ∧ (∀ (v : Vat) (n : Fin 32) (p : Nat) (rise : Bool) (s : State),
    Steady s v →
    legPort s v n = some p →
    edgePlaced s v p n rise = true →
    (s.vat v).pulseHeld = false ∨ s.is R.OWN_STAT_HANDOVER = false →
    opensUnits s v p n rise < tminUnits s v n →
    s.is (R.LEG_CFG_MPMODE v n) = true →
    Answers (.generatorEdge v n (if rise then .rise else .fall)) s (fun t => t.is (R.LEG_PIN_PULSE v n) = rise
      ∧ t.rd (R.LEG_MINP_STRETCHES v n) = min (s.rd (R.LEG_MINP_STRETCHES v n) + 1) 65535
      ∧ (s.is R.OWN_STAT_HANDOVER = false → Frame s t [R.PORT_PWMSTAT_BLK v p, R.LEG_MINP_STRETCHES v n])))
  ∧ (∀ (v : Vat) (n : Fin 32) (p : Nat) (rise : Bool) (s : State),
    Steady s v →
    legPort s v n = some p →
    edgePlaced s v p n rise = true →
    (s.vat v).pulseHeld = false ∨ s.is R.OWN_STAT_HANDOVER = false →
    opensUnits s v p n rise < tminUnits s v n →
    s.is (R.LEG_CFG_MPMODE v n) = false →
    Answers (.generatorEdge v n (if rise then .rise else .fall)) s (fun t => t.is (R.LEG_PIN_PULSE v n) = s.is (R.LEG_PIN_PULSE v n)
      ∧ t.rd (R.LEG_MINP_DROPS v n) = min (s.rd (R.LEG_MINP_DROPS v n) + 1) 65535
      ∧ (s.is R.OWN_STAT_HANDOVER = false → Frame s t [R.LEG_MINP_DROPS v n])))
  ∧ (∀ (v : Vat) (n : Fin 32) (p : Nat) (rise : Bool) (s : State),
    Steady s v →
    legPort s v n = some p →
    pulseRuns s v = true →
    s.is R.OWN_STAT_HANDOVER = false →
    portState s v p ≠ RUN ∨ (getPort s v p).followSet = false ∨ setLevel s v n = rise →
    Answers (.generatorEdge v n (if rise then .rise else .fall)) s (fun t => t.is (R.LEG_PIN_PULSE v n) = s.is (R.LEG_PIN_PULSE v n) ∧ Frame s t []))
  ∧ (∀ (v : Vat) (n : Fin 32) (p : Nat) (rise : Bool) (s : State),
    Steady s v →
    legPort s v n = some p →
    pulseRuns s v = true →
    s.is R.OWN_STAT_HANDOVER = false →
    portState s v p = RUN →
    (getPort s v p).followSet = true →
    s.is (R.LEG_PIN_PULSE v n) ≠ rise →
    (getLeg s v n).refEnd = none →
    (s.vat v).legs.length = 32 →
    tminUnits s v n ≤ opensUnits s v p n rise →
    tooSoon s v n = true →
    s.rd (R.LEG_DUTY_DUTY v n) ≠ (if rise then 0 else 32767) →
    Answers (.generatorEdge v n (if rise then .rise else .fall)) s (fun t => t.is (R.LEG_PIN_PULSE v n) = s.is (R.LEG_PIN_PULSE v n)
      ∧ (getLeg t v n).due = some ((getLeg s v n).edgePt + tminUnits s v n / 32) ∧ Frame s t []))
  ∧ (∀ (v : Vat) (n : Fin 32) (p : Nat) (rise : Bool) (s : State),
    Steady s v →
    legPort s v n = some p →
    pulseRuns s v = true →
    s.is R.OWN_STAT_HANDOVER = false →
    portState s v p = RUN →
    (getPort s v p).followSet = true →
    (getLeg s v n).refEnd.isSome = true →
    (getLeg s v n).under ≠ rise →
    (s.vat v).legs.length = 32 →
    tminUnits s v n ≤ opensUnits s v p n rise →
    s.rd (R.LEG_DUTY_DUTY v n) ≠ (if rise then 0 else 32767) →
    Answers (.generatorEdge v n (if rise then .rise else .fall)) s (fun t => t.is (R.LEG_PIN_PULSE v n) = s.is (R.LEG_PIN_PULSE v n)
      ∧ (getLeg t v n).under = rise ∧ Frame s t []))
  ∧ (∀ (v : Vat) (n : Fin 32) (p : Nat) (rise : Bool) (s : State),
    Steady s v →
    legPort s v n = some p →
    pulseRuns s v = true →
    s.is R.OWN_STAT_HANDOVER = false →
    portState s v p = RUN →
    (getPort s v p).followSet = true →
    s.is (R.LEG_PIN_PULSE v n) ≠ rise →
    (getLeg s v n).refEnd = none →
    tooSoon s v n = false →
    s.rd (R.LEG_DUTY_DUTY v n) = (if rise then 32767 else 0) →
    Answers (.generatorEdge v n (if rise then .rise else .fall)) s (fun t => t.is (R.LEG_PIN_PULSE v n) = rise
      ∧ Frame s t [R.PORT_PWMSTAT_BLK v p]))
  ∧ (∀ (v : Vat) (n : Fin 32) (p : Nat) (s : State),
    Steady s v →
    legPort s v n = some p →
    pulseRuns s v = true →
    (s.vat v).pulseHeld = false ∨ s.is R.OWN_STAT_HANDOVER = false →
    isSecondary s v p = false →
    s.rd (R.PORT_CARCFG_RELSEL v p) = 2 →
    (portLegs s v p).head? = some n.val →
    Answers (.generatorEdge v n .valley) s (fun t => t.rd (R.PORT_PERACT_PERACT v p) = (getPort s v p).perSet % 65536
      ∧ portState t v p = portState s v p
      ∧ ((portLegs s v p).all (fun m => !s.is (R.DLR_CFG_CLASS v m)) = true →
        (portLegs s v p).all (fun m => t.is (R.LEG_PIN_PULSE v m) == s.is (R.LEG_PIN_PULSE v m)) = true)))
  ∧ (∀ (v : Vat) (n : Fin 32) (p : Nat) (s : State),
    Steady s v →
    legPort s v n = some p →
    pulseRuns s v = true →
    s.is R.OWN_STAT_HANDOVER = false →
    isSecondary s v p = true →
    refreshes s v p n = true →
    portMode1 s v p = true →
    (getLeg s v n).ahead = false →
    (s.vat v).legs.length = 32 →
    lowAtValley s v p n (s.rd (R.PORT_PERACT_PERACT v p)) (s.rd (R.LEG_CMP_CMP v n)) 0 = false →
    refreshDue s v p n 0 = true →
    headLeg s v p n = false →
    Answers (.generatorEdge v n .valley) s (fun t => t.is (R.LEG_PIN_PULSE v n) = false
      ∧ (getLeg t v n).refEnd = some (s.pt + 4 * s.rd (R.DLR_CFG_TBS_REF v n))
      ∧ t.rd (R.DLR_CNT_REFRESH v n) = min (s.rd (R.DLR_CNT_REFRESH v n) + 1) (2 ^ (R.DLR_CNT_REFRESH v n).width - 1)
      ∧ Frame s t [R.DLR_CNT_REFRESH v n, R.PORT_PWMSTAT_BLK v p]))

/-- At a reload (the carrier event that RELSEL names) of an unlinked port with no burst open, shadows with one tag become the
duties in force, and their tag SETTAG; shadows with differing tags leave the set, count, and at the third in a row take the
port into FAULT_PATTERN with cause COHERENCE. A carrier event that is no reload of the port changes nothing. Where the spec
leaves a point open, this follows the choice of notes/assumptions/22.md. -/
def Obligations.Reloads : Prop :=
  (∀ (v : Vat) (p : Fin 8) (valley : Bool) (landed k : Nat) (s : State),
    Steady s v →
    reloadsAlone s v p valley = true →
    (s.vat v).pulseHeld = false ∨ s.is R.OWN_STAT_HANDOVER = false →
    coherentTag (shadowTags s v p) = some k →
    Answers (.reload v p valley landed) s (fun t => t.rd (R.PORT_SETTAG_VAL v p) = k ∧ t.rd (R.PORT_PWMSTAT_COHRUN v p) = 0
      ∧ (portLegs s v p).all (fun n => t.rd (R.LEG_DUTY_DUTY v n) == s.rd (R.LEG_SHD_SHD v n)) = true
      ∧ t.rd (R.PORT_PWMSTAT_COHERRS v p) = s.rd (R.PORT_PWMSTAT_COHERRS v p) ∧ portState t v p = portState s v p))
  ∧ (∀ (v : Vat) (p : Fin 8) (valley : Bool) (landed : Nat) (s : State),
    Steady s v →
    reloadsAlone s v p valley = true →
    (s.vat v).pulseHeld = false ∨ s.is R.OWN_STAT_HANDOVER = false →
    coherentTag (shadowTags s v p) = none →
    s.rd (R.PORT_PWMSTAT_COHRUN v p) < 2 →
    Answers (.reload v p valley landed) s (fun t => t.rd (R.PORT_SETTAG_VAL v p) = s.rd (R.PORT_SETTAG_VAL v p)
      ∧ t.rd (R.PORT_PWMSTAT_COHRUN v p) = s.rd (R.PORT_PWMSTAT_COHRUN v p) + 1
      ∧ (portLegs s v p).all (fun n => t.rd (R.LEG_DUTY_DUTY v n) == s.rd (R.LEG_DUTY_DUTY v n)) = true
      ∧ t.rd (R.PORT_PWMSTAT_COHERRS v p) = min (s.rd (R.PORT_PWMSTAT_COHERRS v p) + 1) 65535
      ∧ t.rdBit (R.PWM_COHERR_COHERR_F v) p = true ∧ portState t v p = portState s v p))
  ∧ (∀ (v : Vat) (p : Fin 8) (valley : Bool) (landed : Nat) (s : State),
    Steady s v →
    reloadsAlone s v p valley = true →
    (s.vat v).pulseHeld = false ∨ s.is R.OWN_STAT_HANDOVER = false →
    coherentTag (shadowTags s v p) = none →
    2 ≤ s.rd (R.PORT_PWMSTAT_COHRUN v p) →
    loneActive s v p = true →
    Answers (.reload v p valley landed) s (fun t => PatternEntered s t v p causeCOHERENCE (nextPattern s v p)
      ∧ t.rdBit (R.PWM_COHERR_COHERR_F v) p = true))
  ∧ (∀ (v : Vat) (p : Fin 8) (valley : Bool) (landed : Nat) (s : State),
    Calm s →
    pulseRuns s v = false ∨ reloadsAt s v p valley = false →
    Answers (.reload v p valley landed) s (fun t => CycleOnly s t))

/-- The first tick of a port since the carriers started is tick 0; every later one counts TICKNUM up, wrapping. Where the
port's graph has entered and its engine is neither frozen, retired nor migrating, the tick begins one evaluation of it, of
that tick, unless the port is RETIRED. Linked secondaries, and ports of TYPE 0, have no ticks. -/
def Obligations.PortTicks : Prop :=
  (∀ (v : Vat) (p : Fin 8) (s : State),
    Calm s →
    pulseRuns s v = true →
    ticks s v p = true →
    (s.vat v).ports.length = 8 →
    Answers (.portTick v p) s (fun t =>
      t.rd (R.PORT_TICKNUM_VAL v p)
        = (if (getPort s v p).ticked then (s.rd (R.PORT_TICKNUM_VAL v p) + 1) % 2 ^ 32 else s.rd (R.PORT_TICKNUM_VAL v p))
      ∧ (getPort t v p).ticked = true ∧ t.time = s.time ∧ (s.is (R.VAT_ROLE_JOINING v) = false → t.owner = s.owner)))
  ∧ (∀ (v : Vat) (p c : Fin 8) (k : Fin 4) (s : State),
    Calm s →
    Fits s →
    s.vatLive v = true →
    ticks s v p = true →
    portGraph s v p = some (c.val, k.val) →
    (getSlot s v c k).entered = true →
    (getSlot s v c k).migrating = false →
    (getSlot s v c k).migrated = false →
    engRetired s v c = false →
    engFrozen s v c = false →
    Answers (.portTick v p) s (fun t => portState t v p ≠ RETIRED →
      (getSlot t v c k).evals.length = (getSlot s v c k).evals.length + 1
      ∧ ((getSlot t v c k).evals.getLast?).map (fun e => e.tick) = some (t.rd (R.PORT_TICKNUM_VAL v p))))
  ∧ (∀ (v : Vat) (p : Fin 8) (s : State),
    Calm s →
    pulseRuns s v = false ∨ ticks s v p = false →
    Answers (.portTick v p) s (fun t => CycleOnly s t))

/-! ## Driver links (10_driver_link.md) -/

/-- A good frame is stored and ends a run of bad ones, and the second in a row brings the link up. A report of a desaturation
or of a low supply takes the port into FAULT_PATTERN with cause DRV_FAULT; a frame that disagrees with the leg's dead time or
class, or with EN held steady, does so with cause DRV_MISMATCH, which lasts until a frame passes all three checks. A bad
frame counts, and the fourth in a row loses the link. Where the spec leaves a point open, this follows the choice of
notes/assumptions/27.md. -/
def Obligations.DriverFramesJudged : Prop :=
  (∀ (v : Vat) (n : Fin 32) (fr : BitVec 24) (en : Bool) (s : State),
    Calm s →
    legHeard s v n = true →
    frameGood fr.toNat true = true →
    Answers (.dstFrame v n fr true en) s (fun t => t.rd (R.DLR_FRAME_FRAME v n) = fr.toNat % 65536 ∧ (getDlr t v n).badRun = 0
      ∧ (getDlr t v n).lastSeq = some (fr.toNat / 4096 % 8)
      ∧ t.is (R.DLR_STAT_LINKOK v n) = (s.is (R.DLR_STAT_LINKOK v n) || decide (1 ≤ (getDlr s v n).goodRun)) ∧ t.mem = s.mem))
  ∧ (∀ (v : Vat) (n : Fin 32) (p : Nat) (fr : BitVec 24) (en : Bool) (s : State),
    Steady s v →
    pulseRuns s v = true →
    legPort s v n = some p →
    loneActive s v p = true →
    frameGood fr.toNat true = true →
    s.is (R.DLR_STAT_LINKOK v n) = true →
    drvFault s v n = false →
    bitOf fr.toNat 3 = true ∨ bitOf fr.toNat 4 = true ∨ bitOf fr.toNat 6 = true ∨ bitOf fr.toNat 7 = true →
    Answers (.dstFrame v n fr true en) s (fun t => t.is (R.DLR_STAT_DRVF_F v n) = true
      ∧ PatternEntered s t v p causeDRVFAULT (nextPattern (s.wr (R.DLR_FRAME_FRAME v n) (fr.toNat % 65536)) v p)))
  ∧ (∀ (v : Vat) (n : Fin 32) (p : Nat) (fr : BitVec 24) (en : Bool) (s : State),
    Steady s v →
    pulseRuns s v = true →
    legPort s v n = some p →
    loneActive s v p = true →
    frameGood fr.toNat true = true →
    s.is (R.DLR_STAT_LINKOK v n) = true →
    drvFault s v n = false →
    fr.toNat / 8 % 32 = 0 →
    s.is (R.DLR_STAT_BREAK v n) = false →
    (getDlr s v n).mismatch = false →
    fr.toNat % 4 ≠ s.rd (R.LEG_CFG_TDT v n) ∨ bitOf fr.toNat 2 ≠ s.is (R.DLR_CFG_CLASS v n) ∨ (en = true ∧ bitOf fr.toNat 11 ≠ (pinLevels s n).2) →
    Answers (.dstFrame v n fr true en) s (fun t => t.is (R.DLR_STAT_MISM_F v n) = true
      ∧ PatternEntered s t v p causeDRVMISMATCH (nextPattern (s.wr (R.DLR_FRAME_FRAME v n) (fr.toNat % 65536)) v p)))
  ∧ (∀ (v : Vat) (n : Fin 32) (fr : BitVec 24) (en : Bool) (s : State),
    Calm s →
    legHeard s v n = true →
    (s.vat v).dlrs.length = 32 →
    frameGood fr.toNat true = true →
    fr.toNat % 4 = s.rd (R.LEG_CFG_TDT v n) →
    bitOf fr.toNat 2 = s.is (R.DLR_CFG_CLASS v n) →
    Answers (.dstFrame v n fr true en) s (fun t =>
      (bitOf fr.toNat 11 = (pinLevels s n).2 → (getDlr t v n).mismatch = if en then false else (getDlr s v n).mismatch)
      ∧ (bitOf fr.toNat 11 ≠ (pinLevels s n).2 → en = false → (getDlr t v n).mismatch = (getDlr s v n).mismatch)))
  ∧ (∀ (v : Vat) (n : Fin 32) (fr : BitVec 24) (fo en : Bool) (s : State),
    Calm s →
    legHeard s v n = true →
    frameGood fr.toNat fo = false →
    Answers (.dstFrame v n fr fo en) s (fun t => t.rd (R.DLR_STAT_FRERRS v n) = min (s.rd (R.DLR_STAT_FRERRS v n) + 1) 65535
      ∧ (getDlr t v n).badRun = min ((getDlr s v n).badRun + 1) 4
      ∧ (3 ≤ (getDlr s v n).badRun → t.is (R.DLR_STAT_LINKOK v n) = false)
      ∧ ((getDlr s v n).badRun < 3 → t.is (R.DLR_STAT_LINKOK v n) = s.is (R.DLR_STAT_LINKOK v n))
      ∧ t.rd (R.DLR_FRAME_FRAME v n) = s.rd (R.DLR_FRAME_FRAME v n)))

/-- A fault break sets BREAK and takes the port into FAULT_PATTERN with cause DRV_FAULT; its end clears BREAK; a line error
only counts; the loss of the link does so with cause DRV_LINK; ASCT's end changes a held active short circuit to all-off.
Where the spec leaves a point open, this follows the choice of notes/assumptions/27.md. -/
def Obligations.BreaksAndLinkLoss : Prop :=
  (∀ (v : Vat) (n : Fin 32) (p : Nat) (s : State),
    Steady s v →
    pulseRuns s v = true →
    legPort s v n = some p →
    loneActive s v p = true →
    drvFault s v n = false →
    Answers (.faultBreak v n) s (fun t => t.is (R.DLR_STAT_BREAK v n) = true ∧ t.is (R.DLR_STAT_DRVF_F v n) = true
      ∧ t.rd (R.DLR_CNT_BREAKS v n) = min (s.rd (R.DLR_CNT_BREAKS v n) + 1) 65535
      ∧ PatternEntered s t v p causeDRVFAULT (nextPattern (s.set1 (R.DLR_STAT_BREAK v n)) v p)))
  ∧ (∀ (v : Vat) (n : Fin 32) (s : State),
    Steady s v →
    legHeard s v n = true →
    Answers (.faultBreakEnd v n) s (fun t => t.is (R.DLR_STAT_BREAK v n) = false
      ∧ (List.range 8).all (fun p => portState t v p == portState s v p) = true
      ∧ RegsKept s t [R.DLR_STAT_BREAK v n, R.DLR_STAT_CAUSE v n]))
  ∧ (∀ (v : Vat) (n : Fin 32) (s : State),
    Calm s →
    legHeard s v n = true →
    Answers (.dstLineError v n) s (fun t => t.rd (R.DLR_STAT_FRERRS v n) = min (s.rd (R.DLR_STAT_FRERRS v n) + 1) 65535
      ∧ ((s.vat v).inReset = false → t.is (R.DLR_STAT_FRERR_F v n) = true)
      ∧ Frame s t [R.DLR_STAT_FRERRS v n, R.DLR_STAT_FRERR_F v n]))
  ∧ (∀ (v : Vat) (n : Fin 32) (p : Nat) (s : State),
    Steady s v →
    pulseRuns s v = true →
    legPort s v n = some p →
    loneActive s v p = true →
    s.is (R.DLR_STAT_LINKOK v n) = true →
    Answers (.driverLinkLoss v n) s (fun t => t.is (R.DLR_STAT_LINKOK v n) = false ∧ t.is (R.DLR_STAT_LINKLOSS_F v n) = true
      ∧ PatternEntered s t v p causeDRVLINK (nextPattern (s.clr (R.DLR_STAT_LINKOK v n)) v p)))
  ∧ (∀ (v : Vat) (p : Fin 8) (s : State),
    Steady s v →
    s.is (R.PORT_FPCFG_ASCT v p) = true →
    s.is (R.PORT_CFG_LNK_EN v p) = false →
    holdsShort s v p = true →
    s.arb.hold = none →
    Answers (.asctExpiry v p) s (fun t => t.rd (R.PORT_FPCFG_PATNOW v p) = 1 ∧ t.is (R.PORT_FPCFG_FB v p) = true
      ∧ (portLegs s v p).all (fun n => !t.is (R.LEG_PIN_EN v n) && !t.is (R.LEG_PIN_PULSE v n)) = true
      ∧ portState t v p = portState s v p))

/-! ## The sense path (03_sense_path.md) -/

/-- An output of a channel in use, in a group whose clock is good, is filtered, trimmed with GAIN_W and GCAL, saturated to 24
bits and counted in SEQ; no register of another channel changes where no port waits for it. A channel that is off, or whose
group has no clock, gives none. A full calibration window moves GCAL by the step of R75 within its limits, and starts the
next window; a window that is not full moves it nowhere. Where the spec leaves a point open, this follows the choice of
notes/assumptions/50.md. -/
def Obligations.SamplesTaken : Prop :=
  (∀ (v : Vat) (n : Fin 64) (bits : BitVec 256) (arr : BitVec 8) (s : State),
    Calm s →
    s.vatLive v = true →
    s.is (R.SLICE_CFG_PRESET v n) = true →
    s.is (R.SGRP_STAT_CLKLOSS v (n / 8)) = false →
    Answers (.sliceOutput v n bits arr) s (fun t => t.signedRd (R.SLICE_DATA_SAMPLE v n) = (outputSample s v n bits).1
      ∧ t.rd (R.SLICE_SEQ_SEQ v n) = (s.rd (R.SLICE_SEQ_SEQ v n) + 1) % 65536
      ∧ (arr = 0 → Frame s t [whole (R.SLICE_DATA v n), R.SLICE_SEQ_SEQ v n, whole (R.SLICE_STAT v n)])))
  ∧ (∀ (v : Vat) (n : Fin 64) (bits : BitVec 256) (arr : BitVec 8) (s : State),
    Calm s →
    s.vatLive v = false ∨ s.is (R.SLICE_CFG_PRESET v n) = false ∨ s.is (R.SGRP_STAT_CLKLOSS v (n / 8)) = true →
    Answers (.sliceOutput v n bits arr) s (fun t => CycleOnly s t))
  ∧ (∀ (v : Vat) (n : Fin 64) (s : State),
    Calm s →
    s.vatLive v = true →
    s.is (R.SLICE_CAL_GCAL_EN v n) = true →
    calActive s v n true = true →
    (getChan s v n).winBad = false →
    (getChan s v n).num ≠ 0 →
    F32.lt (windowRms (getChan s v n)) (F32.ofNat (s.rd (R.SLICE_CAL_MINLVL v n))) = false →
    Answers .gcalWindow s (fun t => t.signedRd (R.SLICE_GCAL_GCAL v n) = clampInt (-5243) 5243 (s.signedRd (R.SLICE_GCAL_GCAL v n)
        + calStep (F32.mul (windowRms (getChan s v n)) (F32.ofScaled 1 (-15)))
          (s.regs.get (R.R_IN (s.rd (R.SLICE_CAL_MTR_CH v n)))) (s.regs.get (R.SLICE_RATIO v n)) (s.rd (R.SLICE_CAL_TAU v n)))
      ∧ (getChan t v n).num = 0 ∧ (getChan t v n).sumSq = 0))
  ∧ (∀ (v : Vat) (n : Fin 64) (s : State),
    Calm s →
    s.vatLive v = false ∨ s.is (R.SLICE_CAL_GCAL_EN v n) = false ∨ calActive s v n true = false ∨ (getChan s v n).winBad = true →
    Answers .gcalWindow s (fun t => t.rd (whole (R.SLICE_GCAL v n)) = s.rd (whole (R.SLICE_GCAL v n))))

/-- A channel whose freeze count is reached while it should move is FROZEN, one whose input does not change is STALE, and
neither is VALID; both flags set. A stale channel whose input changes is no longer STALE and settles again before it is
VALID. -/
def Obligations.MonitorsAct : Prop :=
  (∀ (v : Vat) (n : Fin 64) (s : State),
    Calm s →
    s.vatLive v = true →
    s.is (R.SLICE_CFG_PRESET v n) = true →
    s.is (R.SLICE_MON_FZ_EN v n) = true →
    s.rd (R.SLICE_MON_FZ_COUNT v n) * 16 ≤ (getChan s v n).fzCnt →
    (getChan s v n).fzRef.isSome = true →
    (getChan s v n).qual = true →
    s.is (R.SLICE_DATA_FROZEN v n) = false →
    s.is (R.SLICE_DATA_CLKLOSS v n) = false →
    Answers (.frozenSet v n) s (fun t => t.is (R.SLICE_DATA_FROZEN v n) = true ∧ t.is (R.SLICE_DATA_VALID v n) = false
      ∧ t.is (R.SLICE_STAT_FROZEN_F v n) = true
      ∧ Frame s t [R.SLICE_DATA_FROZEN v n, R.SLICE_DATA_VALID v n, R.SLICE_STAT_FROZEN_F v n]))
  ∧ (∀ (v : Vat) (n : Fin 64) (s : State),
    Calm s →
    s.vatLive v = true →
    s.is (R.SLICE_CFG_PRESET v n) = true →
    s.is (R.SLICE_MON_FR_LIMIT v n) = true →
    s.is (R.SLICE_DATA_CLKLOSS v n) = false →
    s.is (R.SLICE_DATA_STALE v n) = false →
    Answers (.freshnessStale v n) s (fun t => t.is (R.SLICE_DATA_STALE v n) = true ∧ t.is (R.SLICE_DATA_VALID v n) = false
      ∧ t.is (R.SLICE_STAT_STALE_F v n) = true
      ∧ Frame s t [R.SLICE_DATA_STALE v n, R.SLICE_DATA_VALID v n, R.SLICE_STAT_STALE_F v n]))
  ∧ (∀ (v : Vat) (n : Fin 64) (s : State),
    Calm s →
    s.vatLive v = true →
    s.is (R.SLICE_DATA_STALE v n) = true →
    s.is (R.SLICE_DATA_CLKLOSS v n) = false →
    Answers (.staleClear v n) s (fun t => t.is (R.SLICE_DATA_STALE v n) = false ∧ t.is (R.SLICE_DATA_SUPP v n) = true
      ∧ t.is (R.SLICE_DATA_VALID v n) = false ∧ t.rd (R.SLICE_STAT_SETTLE_LEFT v n) = settleCount s v n
      ∧ Frame s t [R.SLICE_DATA_STALE v n, R.SLICE_DATA_SUPP v n, R.SLICE_DATA_VALID v n, R.SLICE_STAT_SETTLE_LEFT v n]))

/-- GO requests a synchronising reset and merges with one pending; when a reset of a group that is not aligned to a port
takes effect, which needs the group's clock, every channel of it that is in use starts again and settles, GO clears, and so
in each vat; without one nothing changes. A lost group clock takes VALID from all of its channels that are in use in every
computing vat; its return requests the group's reset. -/
def Obligations.GroupsSynchronise : Prop :=
  (∀ (v : Vat) (g : Fin 8) (m : BitVec 8) (s : State),
    Calm s →
    s.vatLive v = true →
    Answers (.sgrpSyncGo v g m) s (fun t => t.is (R.SGRP_SYNC_GO v g) = true
      ∧ t.rd (R.SGRP_SYNC_MASK v g) = (if s.is (R.SGRP_SYNC_GO v g) then orBits (s.rd (R.SGRP_SYNC_MASK v g)) m.toNat else m.toNat)
      ∧ Frame s t [R.SGRP_SYNC_GO v g, R.SGRP_SYNC_MASK v g]))
  ∧ (∀ (w : Vat) (g : Fin 8) (s : State),
    Calm s →
    Fits s →
    alignedGroup s w g = false →
    syncDue s w g = true →
    Answers (.syncResetEffect w g) s (fun t => ∀ v : Vat, alignedGroup s v g = false → syncDue s v g = true →
      t.is (R.SGRP_SYNC_GO v g) = false ∧ (getGrp t v g).autoPend = 0
      ∧ ∀ i : Fin 8, bitOf (pendingSync s v g) i = true → s.is (R.SLICE_CFG_PRESET v (8 * g + i)) = true →
        t.rd (R.SLICE_SEQ_SEQ v (8 * g + i)) = 0 ∧ t.is (R.SLICE_DATA_SUPP v (8 * g + i)) = true
        ∧ t.is (R.SLICE_DATA_CLKLOSS v (8 * g + i)) = false
        ∧ t.is (R.SLICE_DATA_VALID v (8 * g + i)) = false ∧ t.is (R.SLICE_DATA_FROZEN v (8 * g + i)) = false
        ∧ t.rd (R.SLICE_STAT_SETTLE_LEFT v (8 * g + i)) = settleCount s v (8 * g + i)))
  ∧ (∀ (w : Vat) (g : Fin 8) (s : State),
    Calm s →
    alignedGroup s w g = true ∨ syncDue s w g = false →
    Answers (.syncResetEffect w g) s (fun t => CycleOnly s t))
  ∧ (∀ (g : Fin 8) (s : State),
    Calm s →
    Answers (.groupClockLoss g) s (fun t => ∀ v : Vat, s.vatLive v = true → s.is (R.SGRP_STAT_CLKLOSS v g) = false →
      t.is (R.SGRP_STAT_CLKLOSS v g) = true ∧ t.is (R.SGRP_STAT_CLKLOSS_F v g) = true
      ∧ ∀ i : Fin 8, s.is (R.SLICE_CFG_PRESET v (8 * g + i)) = true →
        t.is (R.SLICE_DATA_CLKLOSS v (8 * g + i)) = true ∧ t.is (R.SLICE_DATA_VALID v (8 * g + i)) = false))
  ∧ (∀ (g : Fin 8) (s : State),
    Calm s →
    Fits s →
    Answers (.groupClockReturn g) s (fun t => ∀ v : Vat, s.vatLive v = true → s.is (R.SGRP_STAT_CLKLOSS v g) = true →
      t.is (R.SGRP_STAT_CLKLOSS v g) = false ∧ (getGrp t v g).autoPend = 0xFF))

/-- A rotation step lets the free slice shadow the next channel that may be shadowed, one choice for every vat in which a
step may begin; elsewhere it changes nothing. A matching comparison hands the channel over and tests the slice that served
it; a first mismatch sets MISM_F and tests the shadowing slice, a second retires the slice that served. A passed test frees
the slice and counts; a failed one retires it and stops the rotation. Where the spec leaves a point open, this follows the
choice of notes/assumptions/50.md. -/
def Obligations.SlicesRotate : Prop :=
  (∀ (w : Vat) (g : Fin 8) (i : Nat) (s : State),
    Calm s →
    Fits s →
    mayRotate s w g = true →
    nextRotated s (rotationLead s g) g = some i →
    Answers (.rotationStep w g) s (fun t => (∀ v : Vat, mayRotate s v g = true → s.rd (R.SGRP_ROT_FREE v g) < 72 →
        (getGrp t v g).rot = .shadowing (s.rd (R.SGRP_ROT_FREE v g)) i false
        ∧ t.rd (R.SLICE_PHYS_MODE v (s.rd (R.SGRP_ROT_FREE v g))) = 2
        ∧ t.rd (R.SLICE_PHYS_CHAN v (s.rd (R.SGRP_ROT_FREE v g))) = 8 * g + i)
      ∧ (∀ v : Vat, mayRotate s v g = false → (getGrp t v g).rot = (getGrp s v g).rot)
      ∧ Frame s t ([Vat.A, Vat.B].flatMap (fun v =>
        [R.SLICE_PHYS_MODE v (s.rd (R.SGRP_ROT_FREE v g)), R.SLICE_PHYS_CHAN v (s.rd (R.SGRP_ROT_FREE v g))]))))
  ∧ (∀ (w : Vat) (g : Fin 8) (s : State),
    Calm s →
    mayRotate s w g = false ∨ nextRotated s (rotationLead s g) g = none →
    Answers (.rotationStep w g) s (fun t => CycleOnly s t))
  ∧ (∀ (v : Vat) (g c : Fin 8) (f o : Fin 72) (rep : Bool) (s : State),
    Calm s →
    s.vatLive v = true →
    (getGrp s v g).rot = .shadowing f c rep →
    s.rd (R.SLICE_STAT_SERVED_BY v (8 * g + c)) = o →
    f ≠ o →
    Answers (.rotationCompare v g true) s (fun t => t.rd (R.SLICE_STAT_SERVED_BY v (8 * g + c)) = f
      ∧ t.rd (R.SLICE_PHYS_MODE v f) = 1 ∧ t.rd (R.SLICE_PHYS_CHAN v f) = 8 * g + c ∧ t.rd (R.SLICE_PHYS_MODE v o) = 3
      ∧ t.rd (R.SGRP_ROT_FREE v g) = o ∧ (getGrp t v g).rot = .testing o none ∧ (getGrp t v g).lastRot = c
      ∧ Frame s t [R.SLICE_STAT_SERVED_BY v (8 * g + c), whole (R.SLICE_PHYS v f), whole (R.SLICE_PHYS v o), R.SGRP_ROT_FREE v g]))
  ∧ (∀ (v : Vat) (g c : Fin 8) (f : Fin 72) (s : State),
    Calm s →
    s.vatLive v = true →
    (getGrp s v g).rot = .shadowing f c false →
    Answers (.rotationCompare v g false) s (fun t => t.is (R.SGRP_ROT_MISM_F v g) = true ∧ t.rd (R.SLICE_PHYS_MODE v f) = 3
      ∧ (getGrp t v g).rot = .testing f (some c)
      ∧ Frame s t [R.SGRP_ROT_MISM_F v g, R.SLICE_PHYS_MODE v f, R.SGRP_ROT_FREE v g]))
  ∧ (∀ (v : Vat) (g c : Fin 8) (f o : Fin 72) (s : State),
    Calm s →
    s.vatLive v = true →
    (getGrp s v g).rot = .shadowing f c true →
    s.rd (R.SLICE_STAT_SERVED_BY v (8 * g + c)) = o →
    f ≠ o →
    Answers (.rotationCompare v g false) s (fun t => t.is (R.SLICE_PHYS_RETIRED v o) = true ∧ t.rd (R.SLICE_PHYS_MODE v o) = 0
      ∧ t.rd (R.SLICE_STAT_SERVED_BY v (8 * g + c)) = f ∧ t.is (R.SGRP_ROT_ROT_STOP v g) = true
      ∧ t.is (R.SGRP_ROT_MISM_F v g) = true ∧ (getGrp t v g).rot = .idle ∧ t.rdBit R.OWN_DEG_DEG_CAUSE 1 = true))
  ∧ (∀ (v : Vat) (g : Fin 8) (f : Fin 72) (s : State),
    Calm s →
    s.vatLive v = true →
    (getGrp s v g).rot = .testing f none →
    Answers (.sliceTestComplete v g true) s (fun t => t.rd (R.SLICE_PHYS_TPASS v f) = min (s.rd (R.SLICE_PHYS_TPASS v f) + 1) 255
      ∧ t.is (R.SLICE_PHYS_TFAIL v f) = false ∧ t.rd (R.SLICE_PHYS_MODE v f) = 0 ∧ (getGrp t v g).rot = .idle
      ∧ t.rd (R.SGRP_ROT_STEPS v g) = (s.rd (R.SGRP_ROT_STEPS v g) + 1) % 65536
      ∧ Frame s t [R.SLICE_PHYS_TPASS v f, R.SLICE_PHYS_TFAIL v f, R.SLICE_PHYS_MODE v f, R.SGRP_ROT_STEPS v g]))
  ∧ (∀ (v : Vat) (g c : Fin 8) (f : Fin 72) (s : State),
    Calm s →
    s.vatLive v = true →
    (getGrp s v g).rot = .testing f (some c) →
    Answers (.sliceTestComplete v g true) s (fun t => t.rd (R.SLICE_PHYS_TPASS v f) = min (s.rd (R.SLICE_PHYS_TPASS v f) + 1) 255
      ∧ t.rd (R.SLICE_PHYS_MODE v f) = 2 ∧ t.rd (R.SLICE_PHYS_CHAN v f) = 8 * g + c ∧ (getGrp t v g).rot = .shadowing f c true))
  ∧ (∀ (v : Vat) (g : Fin 8) (f : Fin 72) (again : Option Nat) (s : State),
    Calm s →
    s.vatLive v = true →
    (getGrp s v g).rot = .testing f again →
    Answers (.sliceTestComplete v g false) s (fun t => t.is (R.SLICE_PHYS_TFAIL v f) = true ∧ t.is (R.SLICE_PHYS_RETIRED v f) = true
      ∧ t.rd (R.SLICE_PHYS_MODE v f) = 0 ∧ t.is (R.SGRP_ROT_ROT_STOP v g) = true ∧ (getGrp t v g).rot = .idle
      ∧ t.rdBit R.OWN_DEG_DEG_CAUSE 1 = true))

/-! ## Auxiliary links (04_aux_conversion.md) -/

/-- A good frame's result enters AUXk_DATA, and one not yet consumed is overwritten with OVR_F and OVR_TAG; a bad frame
counts, and the third in a row sets LINK_FAIL, which takes VALID from the link's entries. The read by the transfer engine
moves the result to its table entry in its coding. A frame within which the vat joined, or a frame end where none is on its
way, gives no result. An injected trigger of a link that selects it makes the sequence pending, and where the link is idle,
or began a pass in this very cycle, starts its first frame; a later one is lost. An entry that has held a good result and is
too old goes STALE. Where the spec leaves a point open, this follows the choice of notes/assumptions/52.md. -/
def Obligations.AuxLinksDeliver : Prop :=
  (∀ (v : Vat) (k : Fin 4) (e : BitVec 4) (r : BitVec 16) (inj : Bool) (s : State),
    Calm s →
    auxRuns s v k = true →
    (getAux s v k).skip = false →
    (getAux s v k).cur = some (e.toNat, inj) →
    Answers (.auxFrameComplete v k e 0 r) s (fun t => t.rd (R.AUX_DATA_RESULT v k) = r.toNat ∧ t.rd (R.AUX_DATA_CHAN v k) = e.toNat
      ∧ t.is (R.AUX_DATA_INJ v k) = inj ∧ t.is (R.AUX_DATA_FULL v k) = true
      ∧ (s.is (R.AUX_DATA_FULL v k) = true → t.is (R.AUX_STAT_OVR_F v k) = true
        ∧ t.rd (R.AUX_STAT_OVR_TAG v k) = s.rd (R.AUX_DATA_CHAN v k))
      ∧ (getAux t v k).badRun = 0))
  ∧ (∀ (v : Vat) (k : Fin 4) (e st : BitVec 4) (r : BitVec 16) (ch : Nat) (inj : Bool) (s : State),
    Calm s →
    auxRuns s v k = true →
    (getAux s v k).skip = false →
    (getAux s v k).cur = some (ch, inj) →
    e.toNat ≠ ch ∨ st ≠ 0 →
    Answers (.auxFrameComplete v k e st r) s (fun t => t.rd (R.AUX_STAT_ERRCNT v k) = min (s.rd (R.AUX_STAT_ERRCNT v k) + 1) 65535
      ∧ t.rd (whole (R.AUX_DATA v k)) = s.rd (whole (R.AUX_DATA v k))
      ∧ (getAux t v k).badRun = min ((getAux s v k).badRun + 1) 3
      ∧ ((getAux s v k).badRun = 2 → s.is (R.AUX_STAT_LINK_FAIL v k) = false → t.is (R.AUX_STAT_LINK_FAIL v k) = true
        ∧ ∀ j : Fin 16, t.is (R.AX_VALID v (16 * k + j)) = false ∧ t.is (R.AX_LINKF v (16 * k + j)) = true)))
  ∧ (∀ (v : Vat) (k : Fin 4) (e st : BitVec 4) (r : BitVec 16) (s : State),
    Calm s →
    auxRuns s v k = false ∨ (getAux s v k).cur = none ∨ (getAux s v k).skip = true →
    Answers (.auxFrameComplete v k e st r) s (fun t => Frame s t [] ∧ (getAux t v k).badRun = (getAux s v k).badRun
      ∧ (auxRuns s v k = true → (getAux t v k).skip = true → (getAux t v k).cur = none)))
  ∧ (∀ (v : Vat) (k : Fin 4) (s : State),
    Calm s →
    s.vatLive v = true →
    s.is (R.AUX_DATA_FULL v k) = true →
    s.rdBit (R.FW_FROZEN_FROZEN v) 9 = false →
    (s.vat v).aux.length = 4 →
    Answers (.auxkDataRead v k) s (fun t =>
      t.rd (R.AX_VALUE v (16 * k + s.rd (R.AUX_DATA_CHAN v k)))
        = (if s.rdBit (R.AUX_CODING_CODING v k) (s.rd (R.AUX_DATA_CHAN v k)) then (s.rd (R.AUX_DATA_RESULT v k) + 2 ^ 15) % 2 ^ 16
          else s.rd (R.AUX_DATA_RESULT v k))
      ∧ t.is (R.AX_VALID v (16 * k + s.rd (R.AUX_DATA_CHAN v k))) = !s.is (R.AUX_STAT_LINK_FAIL v k)
      ∧ t.is (R.AX_STALE v (16 * k + s.rd (R.AUX_DATA_CHAN v k))) = false ∧ t.is (R.AUX_DATA_FULL v k) = false
      ∧ bitOf (getAux t v k).got (s.rd (R.AUX_DATA_CHAN v k)) = true
      ∧ t.rd (R.AX_UPD v (16 * k + s.rd (R.AUX_DATA_CHAN v k))) = (s.rd (R.AX_UPD v (16 * k + s.rd (R.AUX_DATA_CHAN v k))) + 1) % 256
      ∧ Frame s t [whole (R.AX v (16 * k + s.rd (R.AUX_DATA_CHAN v k))), R.AUX_DATA_FULL v k]))
  ∧ (∀ (v : Vat) (e : TrigEvent) (p : Fin 8) (k : Fin 4) (s : State),
    Calm s →
    injSelected s v k e p = true →
    auxRuns s v k = true →
    Fits s →
    (List.range 4).all (fun j => j == k.val || !(auxRuns s v j && injSelected s v j e p)) = true →
    Answers (.injectedTrigger v ⟨e, p⟩) s (fun t =>
      (s.is (R.AUX_INJ_ILEN v k) = false ∨ (getAux s v k).inj.isSome = true → getAux t v k = getAux s v k)
      ∧ (s.is (R.AUX_INJ_ILEN v k) = true → (getAux s v k).inj.isSome = true → (getAux s v k).trigPt ≠ some s.pt →
        t.is (R.AUX_STAT_INJ_LOST_F v k) = true ∧ Frame s t [R.AUX_STAT_INJ_LOST_F v k])
      ∧ (s.is (R.AUX_INJ_ILEN v k) = false ∨ (getAux s v k).inj = none ∨ (getAux s v k).trigPt = some s.pt → Frame s t [])
      ∧ (s.is (R.AUX_INJ_ILEN v k) = true → (getAux s v k).inj = none → (getAux t v k).inj.isSome = true
        ∧ (getAux t v k).trigPt = some s.pt
        ∧ ((getAux s v k).passPt = some s.pt → (getAux t v k).reg = some 0)
        ∧ ((getAux s v k).cur = none ∨ (getAux s v k).passPt = some s.pt →
          (getAux t v k).cur = some (s.rd (R.AUX_INJ_ISEQ v k) % 16, true)))))
  ∧ (∀ (v : Vat) (e : TrigEvent) (p : Fin 8) (s : State),
    Calm s →
    (List.range 4).all (fun j => !(auxRuns s v j && injSelected s v j e p)) = true →
    Answers (.injectedTrigger v ⟨e, p⟩) s (fun t => CycleOnly s t))
  ∧ (∀ (v : Vat) (n : Fin 64) (s : State),
    Calm s →
    s.vatLive v = true →
    s.is (R.AUX_CODING_AGE_LIMIT v (n / 16)) = true →
    bitOf (getAux s v (n / 16)).got (n % 16) = true →
    s.is (R.AX_STALE v n) = false →
    Answers (.auxAgeLimit v n) s (fun t => t.is (R.AX_STALE v n) = true ∧ t.is (R.AX_VALID v n) = false
      ∧ Frame s t [R.AX_STALE v n, R.AX_VALID v n]))
  ∧ (∀ (v : Vat) (n : Fin 64) (s : State),
    Calm s →
    s.vatLive v = false ∨ s.is (R.AUX_CODING_AGE_LIMIT v (n / 16)) = false ∨ bitOf (getAux s v (n / 16)).got (n % 16) = false ∨ s.is (R.AX_STALE v n) = true →
    Answers (.auxAgeLimit v n) s (fun t => CycleOnly s t))

/-! ## Position inputs and set-point pins (08_traction_and_dc.md, 05_control_engines.md) -/

/-- An accepted quadrature edge moves the count by one within COUNTS and takes the time of the edge; a phase error counts,
clears REF and VALID and sets STALE; an index in ZMODE 1 sets the count to ZPOS and holds the reference, unless it is a later
one outside the tolerance, which counts as an error and clears a reference that is held. A good SSI frame gives the position;
a bad one counts in ERRCNT and BADRUN. A rising set-point edge completes a period. Where the spec leaves a point open, this
follows the choice of notes/assumptions/53.md. -/
def Obligations.PositionInputs : Prop :=
  (∀ (v : Vat) (i : Fin 4) (s : State),
    Calm s →
    s.vatLive v = true →
    s.is (R.POS_CFG_EN v i) = true →
    Fits s →
    Answers (.encoderEdge v i .up) s (fun t => (getPos t v i).cnt = ((getPos s v i).cnt + 1) % s.rd (R.POS_COUNTS_COUNTS v i)
      ∧ (getPos t v i).tedge = s.pt % 2 ^ 32 ∧ Frame s t [])
    ∧ Answers (.encoderEdge v i .down) s (fun t =>
      (getPos t v i).cnt = ((getPos s v i).cnt + (s.rd (R.POS_COUNTS_COUNTS v i) - 1)) % s.rd (R.POS_COUNTS_COUNTS v i)
      ∧ (getPos t v i).tedge = s.pt % 2 ^ 32 ∧ Frame s t [])
    ∧ Answers (.encoderEdge v i .phaseError) s (fun t => t.is (R.POS_STAT_PHERR_F v i) = true ∧ t.is (R.POS_STAT_REF v i) = false
      ∧ t.is (R.POS_STAT_VALID v i) = false ∧ t.is (R.POS_STAT_STALE v i) = true
      ∧ t.rd (R.POS_STAT_ERRCNT v i) = min (s.rd (R.POS_STAT_ERRCNT v i) + 1) 65535 ∧ Frame s t [whole (R.POS_STAT v i)])
    ∧ (s.rd (R.POS_CFG_ZMODE v i) ≠ 1 → Answers (.encoderEdge v i .index) s (fun t => CycleOnly s t))
    ∧ (s.rd (R.POS_CFG_ZMODE v i) = 1 →
      Answers (.encoderEdge v i .index) s (fun t => (getPos t v i).cnt = s.rd (R.POS_ZPOS_ZPOS v i)
        ∧ (getPos t v i).indexed = true ∧ Frame s t [whole (R.POS_STAT v i)]
        ∧ ((getPos s v i).indexed = false ∨ circDist (s.rd (R.POS_COUNTS_COUNTS v i)) (getPos s v i).cnt (s.rd (R.POS_ZPOS_ZPOS v i))
            ≤ s.rd (R.POS_COUNTS_ZTOL v i) ∨ s.is (R.POS_STAT_REF v i) = false →
          t.is (R.POS_STAT_REF v i) = true ∧ t.is (R.POS_STAT_STALE v i) = false
          ∧ t.is (R.POS_STAT_VALID v i) = (!s.is (R.POS_STAT_FROZEN v i)))
        ∧ ((getPos s v i).indexed = true → s.rd (R.POS_COUNTS_ZTOL v i)
            < circDist (s.rd (R.POS_COUNTS_COUNTS v i)) (getPos s v i).cnt (s.rd (R.POS_ZPOS_ZPOS v i)) →
          t.is (R.POS_STAT_IDXERR_F v i) = true ∧ t.rd (R.POS_STAT_ERRCNT v i) = min (s.rd (R.POS_STAT_ERRCNT v i) + 1) 65535
          ∧ (s.is (R.POS_STAT_REF v i) = true → t.is (R.POS_STAT_REF v i) = false ∧ t.is (R.POS_STAT_VALID v i) = false
            ∧ t.is (R.POS_STAT_STALE v i) = true)))))
  ∧ (∀ (v : Vat) (i : Fin 4) (word : BitVec 33) (at_ : Nat) (s : State),
    Calm s →
    s.vatLive v = true →
    s.is (R.POS_CFG_EN v (4 + i)) = true →
    (getPos s v (4 + i)).frame = some at_ →
    Answers (.ssiFrameComplete v i true word) s (fun t => t.is (R.POS_STAT_NORESP_F v (4 + i)) = true
      ∧ t.rd (R.POS_STAT_ERRCNT v (4 + i)) = min (s.rd (R.POS_STAT_ERRCNT v (4 + i)) + 1) 65535
      ∧ t.rd (R.POS_STAT_BADRUN v (4 + i)) = min (s.rd (R.POS_STAT_BADRUN v (4 + i)) + 1) 7
      ∧ (getPos t v (4 + i)).frame = none ∧ Frame s t [whole (R.POS_STAT v (4 + i))])
    ∧ (s.is (R.POS_CFG_PAR v (4 + i)) = false → s.is (R.POS_CFG_ERREN v (4 + i)) = false → s.rd (R.POS_ZPOS_JUMP v (4 + i)) = 0 →
      Answers (.ssiFrameComplete v i false word) s (fun t =>
        (getPos t v (4 + i)).cnt = ssiPosition s v (4 + i) (word.toNat % 2 ^ (s.rd (R.POS_CFG_NBITS1 v (4 + i)) + 1))
        ∧ (getPos t v (4 + i)).tedge = at_ % 2 ^ 32 ∧ t.rd (R.POS_STAT_BADRUN v (4 + i)) = 0
        ∧ (getPos t v (4 + i)).frame = none ∧ Frame s t [R.POS_STAT_BADRUN v (4 + i)])))
  ∧ (∀ (v : Vat) (i : Fin 4) (e : EncEvent) (s : State),
    Calm s →
    s.vatLive v = false ∨ s.is (R.POS_CFG_EN v i) = false →
    Answers (.encoderEdge v i e) s (fun t => CycleOnly s t))
  ∧ (∀ (v : Vat) (i : Fin 8) (s : State),
    Calm s →
    s.vatLive v = true →
    Fits s →
    Answers (.setpEdge v i true) s (fun t => nth (t.vat v).setps i {} = setpEdge (nth (s.vat v).setps i {}) s.pt true
      ∧ (nth (t.vat v).setps i {}).rise = some s.pt ∧ Frame s t [])
    ∧ Answers (.setpEdge v i false) s (fun t => (nth (t.vat v).setps i {}).fall = some s.pt
      ∧ (nth (t.vat v).setps i {}).period = (nth (s.vat v).setps i {}).period ∧ Frame s t []))

/-! ## Control engines and run-ahead (05_control_engines.md, 06_run_ahead.md) -/

/-- A plain evaluation that ends goes to its commit; a speculative one waits for the arrival samples of its predicted inputs,
then goes to its commit where every residual lies in its band, and otherwise counts a squash and runs again plainly. An
arrival sample found absent is no longer awaited by the evaluation, or the MIGRATE tick's captures, that awaited it, and
where a current channel of a grid port lacks it the port enters its pattern. Where no evaluation runs, or nothing awaits the
sample, nothing changes. Where the spec leaves a point open, this follows the choice of notes/assumptions/23.md. -/
def Obligations.EvaluationsEnd : Prop :=
  (∀ (v : Vat) (c : Fin 8) (k : Nat) (e : EvalSt) (s : State),
    Calm s →
    engRuns s v c = true →
    runningSlot s v c = some k →
    (getSlot s v c k).evals.find? (fun e => e.phase == .running) = some e →
    e.mode ≠ .spec ∨ (e.judgeable (getSlot s v c k) = true ∧ (entries (getSlot s v c k)).any (entrySquashes e) = false) →
    Answers (.evaluationEnd v c) s (fun t => (committing t v c k).isSome = true
      ∧ t.rd (R.WHEY_NSQUASH_NSQUASH v c k) = s.rd (R.WHEY_NSQUASH_NSQUASH v c k) ∧ t.owner = s.owner ∧ t.mem = s.mem))
  ∧ (∀ (v : Vat) (c : Fin 8) (k : Nat) (e : EvalSt) (s : State),
    Calm s →
    engRuns s v c = true →
    runningSlot s v c = some k →
    (getSlot s v c k).evals.find? (fun e => e.phase == .running) = some e →
    e.mode = .spec →
    e.judgeable (getSlot s v c k) = false →
    Answers (.evaluationEnd v c) s (fun t =>
      (getSlot t v c k).evals.any (fun x => x.phase == .ended && x.mode == .spec && x.tick == e.tick) = true ∧ t.mem = s.mem))
  ∧ (∀ (v : Vat) (c : Fin 8) (k : Nat) (e : EvalSt) (s : State),
    Calm s →
    Fits s →
    engRuns s v c = true →
    runningSlot s v c = some k →
    (getSlot s v c k).evals.find? (fun e => e.phase == .running) = some e →
    e.mode = .spec →
    e.judgeable (getSlot s v c k) = true →
    (entries (getSlot s v c k)).any (entrySquashes e) = true →
    Answers (.evaluationEnd v c) s (fun t => t.rd (R.WHEY_NSQUASH_NSQUASH v c k) = min (s.rd (R.WHEY_NSQUASH_NSQUASH v c k) + 1) (2 ^ 31 - 1)
      ∧ (getSlot t v c k).evals.any (fun x => x.mode == .rerun && x.squashed && x.tick == e.tick) = true ∧ t.mem = s.mem))
  ∧ (∀ (v : Vat) (c : Fin 8) (s : State),
    Calm s →
    engRuns s v c = false ∨ runningSlot s v c = none →
    Answers (.evaluationEnd v c) s (fun t => CycleOnly s t))
  ∧ (∀ (v : Vat) (p : Fin 8) (n : Fin 64) (c k : Nat) (s : State),
    Calm s →
    s.vatLive v = true →
    portGraph s v p = some (c, k) →
    engFrozen s v c = false →
    (getSlot s v c k).migCaps.any (awaits (getSlot s v c k) n) = false →
    (getSlot s v c k).evals.any (fun e => e.caps.any (awaits (getSlot s v c k) n)) = true →
    Answers (.arrivalTimeout v p n) s (fun t => ((getSlot t v c k).evals.filter (fun e => e.caps.any (awaits (getSlot s v c k) n))).length + 1
      = ((getSlot s v c k).evals.filter (fun e => e.caps.any (awaits (getSlot s v c k) n))).length))
  ∧ (∀ (v : Vat) (p : Fin 8) (n : Fin 64) (c k : Nat) (s : State),
    Calm s →
    s.vatLive v = true →
    portGraph s v p = some (c, k) →
    (getSlot s v c k).migCaps.any (awaits (getSlot s v c k) n) = true →
    Answers (.arrivalTimeout v p n) s (fun t => (getSlot t v c k).migCaps.any (awaits (getSlot s v c k) n) = false
      ∧ (getSlot t v c k).migCaps.length = (getSlot s v c k).migCaps.length ∧ (getSlot t v c k).evals = (getSlot s v c k).evals))
  ∧ (∀ (v : Vat) (p : Fin 8) (n : Fin 64) (s : State),
    Steady s v →
    s.vatLive v = true →
    gridPort s v p = true →
    portState s v p = RUN →
    loneActive s v p = true →
    (getPort s v p).await.contains n.val = true →
    (currChans s v p).contains n.val = true →
    Answers (.arrivalTimeout v p n) s (fun t => PatternEntered s t v p causeIFBLOSS (nextPattern s v p)
      ∧ t.is (R.GRID_STAT_ILOSS_F v p) = true))
  ∧ (∀ (v : Vat) (p : Fin 8) (n : Fin 64) (s : State),
    Calm s →
    s.vatLive v = false ∨ ((getPort s v p).await.contains n.val = false ∧ portGraph s v p = none) →
    Answers (.arrivalTimeout v p n) s (fun t => CycleOnly s t))

/-- A completed commit records its tick, ends the run of misses, leaves the slot, awaits the judgement of the next reload,
and the writes of its burst that were still out, of duties and of the period, have landed, the last to each shadow standing
with the tick as tag; a tick that both vats commit with one signature ends the runs of asymmetric misses, and one that the
other vat missed counts for it. Where the vats' reloads have differed by such a tick, the difference is a mismatch now (log
entry 29). A deadline that an evaluation has missed counts it, with outcome MISSED and every HIST zero; a second tick in a
row that the other vat commits is a fault of its vat. A double-bit error in an open bank runs the evaluation again plainly;
in a write-back it is the vat's critical state; a frozen engine reads no bank. Without a commit in progress, an evaluation or
an open bank nothing changes. Where the spec leaves a point open, this follows the choice of notes/assumptions/22.md and
notes/assumptions/26.md and notes/assumptions/29.md. -/
def Obligations.CommitsAndDeadlines : Prop :=
  (∀ (v : Vat) (c : Fin 8) (k : Fin 4) (e : EvalSt) (s : State),
    Calm s →
    Fits s →
    engRuns s v c = true →
    committing s v c k = some e →
    (peerSeen s v (s.rd (R.GS_BIND_PORT v c k)) e.tick).all (fun x => if x.outcome = 0 then x.csig == commitSignature s v c k e else x.outcome != 1 || !missedBefore s v.other (s.rd (R.GS_BIND_PORT v c k))) = true →
    s.arb.doubts.contains (s.rd (R.GS_BIND_PORT v c k), e.tick) = false ∨ (peerSeen s v (s.rd (R.GS_BIND_PORT v c k)) e.tick).any (fun x => x.outcome == 0) = false →
    Answers (.commitComplete v c k) s (fun t => t.rd (R.GS_TICK_VAL v c k) = e.tick % 2 ^ 32 ∧ t.rd (R.GS_OUT_MISSRUN v c k) = 0
      ∧ (getSlot t v c k).committed = true
      ∧ (getSlot t v c k).landing = some ⟨e.tick, e.began == .spec, e.squashed, e.reloads⟩
      ∧ (getSlot t v c k).evals.length + 1 = (getSlot s v c k).evals.length
      ∧ (∀ n : Fin 32, t.rd (R.LEG_SHD_SHD v n) = (lastDuty (e.writes.drop e.landed) n).getD (s.rd (R.LEG_SHD_SHD v n)) % 2 ^ 16
        ∧ t.rd (R.LEG_SHTAG_VAL v n) = (if (lastDuty (e.writes.drop e.landed) n).isSome then e.tick % 2 ^ 32 else s.rd (R.LEG_SHTAG_VAL v n)))
      ∧ (∀ q : Fin 8, t.rd (R.PORT_PERSHD_PERSHD v q)
          = (lastPeriod (e.writes.drop e.landed) q).getD (s.rd (R.PORT_PERSHD_PERSHD v q)) % 2 ^ 16
        ∧ t.rd (R.PORT_PERTAG_VAL v q) = (if (lastPeriod (e.writes.drop e.landed) q).isSome then e.tick % 2 ^ 32 else s.rd (R.PORT_PERTAG_VAL v q)))
      ∧ t.owner = s.owner
      ∧ t.is (R.PORT_PWMSTAT_BURST v (s.rd (R.GS_BIND_PORT v c k))) = false
      ∧ ((peerSeen s v (s.rd (R.GS_BIND_PORT v c k)) e.tick).any (fun x => x.outcome != 0) = true → t.is R.OWN_MMF_ASYM_F = true)
      ∧ ((peerSeen s v (s.rd (R.GS_BIND_PORT v c k)) e.tick).any (fun x => x.outcome == 1) = true →
        missedBefore t v.other (s.rd (R.GS_BIND_PORT v c k)) = true)
      ∧ ((peerSeen s v (s.rd (R.GS_BIND_PORT v c k)) e.tick).any (fun x => x.outcome == 0) = true →
        ∀ w : Vat, missedBefore t w (s.rd (R.GS_BIND_PORT v c k)) = false)))
  ∧ (∀ (v : Vat) (c : Fin 8) (k : Fin 4) (e : EvalSt) (s : State),
    Calm s →
    Fits s →
    engRuns s v c = true →
    committing s v c k = some e →
    (peerSeen s v (s.rd (R.GS_BIND_PORT v c k)) e.tick).any (fun x => x.outcome == 0) = true →
    s.arb.doubts.contains (s.rd (R.GS_BIND_PORT v c k), e.tick) = true →
    compared s (.reload (Fin.ofNat 8 (s.rd (R.GS_BIND_PORT v c k))) (BitVec.ofNat 32 e.tick)) = true →
    joiningVat s = none →
    Answers (.commitComplete v c k) s (fun t => t.rd (R.GS_TICK_VAL v c k) = e.tick % 2 ^ 32 ∧ t.rd (R.GS_OUT_MISSRUN v c k) = 0
      ∧ t.is R.OWN_MMF_RELOAD_F = true ∧ t.arb.doubts.contains (s.rd (R.GS_BIND_PORT v c k), e.tick) = false ∧ t.arb.drill = none
      ∧ t.arb.attr.isSome = true ∧ t.owner = s.owner))
  ∧ (∀ (v : Vat) (c : Fin 8) (k : Fin 4) (s : State),
    Calm s →
    engRuns s v c = false ∨ committing s v c k = none →
    Answers (.commitComplete v c k) s (fun t => CycleOnly s t))
  ∧ (∀ (v : Vat) (c : Fin 8) (k : Fin 4) (landed : Nat) (e : EvalSt) (s : State),
    Calm s →
    Fits s →
    s.vatLive v = true →
    engRetired s v c = false →
    (getSlot s v c k).evals.find? (fun e => !e.missed) = some e →
    (peerSeen s v (s.rd (R.GS_BIND_PORT v c k)) e.tick).all (fun x => x.outcome != 0 || !missedBefore s v (s.rd (R.GS_BIND_PORT v c k))) = true →
    Answers (.deadlineAbandon v c k landed) s (fun t => t.rd (R.GS_OUT_OUTCOME v c k) = 4
      ∧ t.rd (R.GS_MISSES_VAL v c k) = min (s.rd (R.GS_MISSES_VAL v c k) + 1) (2 ^ 32 - 1)
      ∧ t.rd (R.GS_OUT_MISSRUN v c k) = min (s.rd (R.GS_OUT_MISSRUN v c k) + 1) 15
      ∧ t.rdBit (R.CE_TICKSTAT_MISS_F v c) k = true
      ∧ (engFrozen s v c = false → (getSlot t v c k).evals.length + 1 = (getSlot s v c k).evals.length)
      ∧ (∀ q : Fin 16, q.val < (getSlot s v c k).preds.length → t.rd (R.WE_CFG_HIST v c k q) = 0)
      ∧ t.mem = s.mem ∧ t.owner = s.owner
      ∧ ((peerSeen s v (s.rd (R.GS_BIND_PORT v c k)) e.tick).any (fun x => x.outcome == 0) = true →
        t.is R.OWN_MMF_ASYM_F = true ∧ missedBefore t v (s.rd (R.GS_BIND_PORT v c k)) = true)))
  ∧ (∀ (v : Vat) (c : Fin 8) (k : Fin 4) (landed : Nat) (e : EvalSt) (s : State),
    Fits s →
    s.vatLive v = true →
    engRetired s v c = false →
    (getSlot s v c k).evals.find? (fun e => !e.missed) = some e →
    s.variant.dual = true →
    (peerSeen s v (s.rd (R.GS_BIND_PORT v c k)) e.tick).any (fun x => x.outcome == 0) = true →
    missedBefore s v (s.rd (R.GS_BIND_PORT v c k)) = true →
    s.is (R.VAT_ROLE_JOINING v) = false →
    (RunningStandby s v → Answers (.deadlineAbandon v c k landed) s (fun t => VatResetTaken t v ∧ t.rdBit (R.VAT_ROLE_FLTSRC v) 6 = true))
      ∧ (OwnerWithStandby s v → Answers (.deadlineAbandon v c k landed) s (fun t => TakenOver t v (fltOwnCause 6))))
  ∧ (∀ (v : Vat) (c : Fin 8) (k : Fin 4) (landed : Nat) (s : State),
    Calm s →
    s.vatLive v = false ∨ engRetired s v c = true ∨ (getSlot s v c k).evals.all (fun e => e.missed) = true →
    Answers (.deadlineAbandon v c k landed) s (fun t => CycleOnly s t))
  ∧ (∀ (v : Vat) (c : Fin 8) (k : Fin 4) (b : Bool) (e : EvalSt) (s : State),
    Calm s →
    Fits s →
    s.vatLive v = true →
    (getSlot s v c k).evals.find? (fun e => e.holds && e.bank == boolNat b) = some e →
    e.phase ≠ .committing →
    engFrozen s v c = false →
    Answers (.wheyDoubleBitError v c k b) s (fun t =>
      (getSlot t v c k).evals.any (fun x => x.mode == .rerun && x.tick == e.tick && x.writes.isEmpty) = true
      ∧ t.mem = s.mem ∧ t.owner = s.owner ∧ (t.vat v).inReset = false))
  ∧ (∀ (v : Vat) (c : Fin 8) (k : Fin 4) (b : Bool) (e : EvalSt) (s : State),
    RunningStandby s v →
    s.vatLive v = true →
    (getSlot s v c k).evals.find? (fun e => e.holds && e.bank == boolNat b) = some e →
    e.phase = .committing →
    engFrozen s v c = false →
    Answers (.wheyDoubleBitError v c k b) s (fun t => VatResetTaken t v ∧ t.rd R.RST_CAUSE_CODE = 0x07))
  ∧ (∀ (v : Vat) (c : Fin 8) (k : Fin 4) (b : Bool) (e : EvalSt) (s : State),
    OwnerWithStandby s v →
    s.vatLive v = true →
    (getSlot s v c k).evals.find? (fun e => e.holds && e.bank == boolNat b) = some e →
    e.phase = .committing →
    engFrozen s v c = false →
    Answers (.wheyDoubleBitError v c k b) s (fun t => TakenOver t v 3 ∧ t.rd R.RST_CAUSE_CODE = 0x07))
  ∧ (∀ (v : Vat) (c : Fin 8) (k : Fin 4) (b : Bool) (s : State),
    Calm s →
    s.vatLive v = false ∨ engFrozen s v c = true ∨ (getSlot s v c k).evals.find? (fun e => e.holds && e.bank == boolNat b) = none →
    Answers (.wheyDoubleBitError v c k b) s (fun t => CycleOnly s t))

/-- A due self-test starts; a passed one counts in STPASS; a failed one sets STFAIL, retires the engine, degrades the device,
and lets every bound graph migrate; a late one sets STLATE_F. A write of WADDR selects its word, unless a higher master has
written WADDR in the same cycle. Each does so in a computing engine or vat and changes no other register. Where the spec
leaves a point open, this follows the choice of notes/assumptions/8.md and notes/assumptions/26.md. -/
def Obligations.SelfTestsRun : Prop :=
  (∀ (v : Vat) (c : Fin 8) (s : State),
    Calm s →
    Fits s →
    engRuns s v c = true →
    Answers (.selfTestDue v c) s (fun t => (getEng t v c).testing = true ∧ Frame s t [])
    ∧ Answers (.selfTestLate v c) s (fun t => t.is (R.CE_STAT_STLATE_F v c) = true ∧ Frame s t [R.CE_STAT_STLATE_F v c]))
  ∧ (∀ (v : Vat) (c : Fin 8) (landed : Nat) (s : State),
    Calm s →
    Fits s →
    engRuns s v c = true →
    (getEng s v c).testing = true →
    Answers (.selfTestComplete v c true landed) s (fun t => (getEng t v c).testing = false
      ∧ t.rd (R.CE_STAT_STPASS v c) = (s.rd (R.CE_STAT_STPASS v c) + 1) % 65536 ∧ Frame s t [R.CE_STAT_STPASS v c])
    ∧ Answers (.selfTestComplete v c false landed) s (fun t => t.is (R.CE_STAT_STFAIL v c) = true ∧ engRetired t v c = true
      ∧ (getEng t v c).testing = false ∧ t.rdBit R.OWN_DEG_DEG_CAUSE 0 = true ∧ t.owner = s.owner
      ∧ (s.is (R.VAT_ROLE_JOINING v) = false → t.mem = s.mem ∧ ∀ k : Fin 4, s.is (R.GS_BIND_BOUND v c k) = true →
        (getSlot t v c k).evals = [] ∧ ((getSlot s v c k).entered = true → (getSlot t v c k).migrating = true))))
  ∧ (∀ (v : Vat) (c : Fin 8) (ok : Bool) (landed : Nat) (s : State),
    Calm s →
    engRuns s v c = false ∨ (getEng s v c).testing = false →
    Answers (.selfTestComplete v c ok landed) s (fun t => CycleOnly s t)
    ∧ (engRuns s v c = false → Answers (.selfTestDue v c) s (fun t => CycleOnly s t) ∧ Answers (.selfTestLate v c) s (fun t => CycleOnly s t)))
  ∧ (∀ (v : Vat) (c : Fin 8) (a : BitVec 13) (s : State),
    Calm s →
    s.vatLive v = true →
    Answers (.waddrWrite v c a) s (fun t => (s.overtaken (supMaster v) (R.WADDR v c) = false → t.rd (R.WADDR_WADDR v c) = a.toNat)
      ∧ (s.overtaken (supMaster v) (R.WADDR v c) = true → Frame s t []) ∧ Frame s t [R.WADDR_WADDR v c]))

/-! ## Guards (07_grid_forming.md, 08_traction_and_dc.md) -/

/-- An open-loop ride at its limit takes the port into FAULT_PATTERN with cause VFB_TIMEOUT and OLEXP_F; the return of the
voltages ends it. An observer ride at its limit becomes the zero-effort ramp with OBSEXP_F; the return of the position ends
it; the ramp at its limit takes the port into FAULT_PATTERN with cause PFB_LOSS. Lost restoration clears RLIVE in every
computing vat, and no offset accepted before it is still to be applied. Where the spec leaves a point open, this follows the
choice of notes/assumptions/25.md. -/
def Obligations.RidesEnd : Prop :=
  (∀ (v : Vat) (p : Fin 8) (s : State),
    Steady s v →
    s.vatLive v = true →
    s.is (R.GRID_STAT_OL v p) = true →
    portState s v p = RUN →
    loneActive s v p = true →
    Answers (.openLoopTimeout v p) s (fun t => PatternEntered s t v p causeVFBTIMEOUT (nextPattern s v p)
      ∧ t.is (R.GRID_STAT_OLEXP_F v p) = true ∧ t.is (R.GRID_STAT_OL v p) = false))
  ∧ (∀ (v : Vat) (p : Fin 8) (s : State),
    Steady s v →
    s.vatLive v = true →
    s.is (R.GRID_STAT_OL v p) = true →
    (getGuard s v p).okTick = true →
    Answers (.openLoopRecovery v p) s (fun t => t.is (R.GRID_STAT_OL v p) = false ∧ portState t v p = portState s v p
      ∧ t.rd (R.GRID_STAT_OL_LEFT v p) = olAllowance s v p * 10 % 2 ^ (R.GRID_STAT_OL_LEFT v p).width ∧ Frame s t []))
  ∧ (∀ (v : Vat) (p : Fin 8) (s : State),
    Steady s v →
    s.vatLive v = true →
    s.is (R.DRV_STAT_OBS v p) = true →
    Answers (.observerRideTimeout v p) s (fun t => t.is (R.DRV_STAT_OBS v p) = false ∧ t.is (R.DRV_STAT_ZR v p) = true
      ∧ t.is (R.DRV_STAT_OBSEXP_F v p) = true ∧ t.rd (R.DRV_STAT_OBS_LEFT v p) = 0 ∧ portState t v p = portState s v p
      ∧ Frame s t [R.DRV_STAT_OBSEXP_F v p, R.DRV_STAT_OBS_LEFT v p])
    ∧ ((getGuard s v p).okTick = true → Answers (.observerRideRecovery v p) s (fun t => t.is (R.DRV_STAT_OBS v p) = false
      ∧ t.is (R.DRV_STAT_ZR v p) = s.is (R.DRV_STAT_ZR v p) ∧ portState t v p = portState s v p ∧ Frame s t [])))
  ∧ (∀ (v : Vat) (p : Fin 8) (s : State),
    Steady s v →
    s.vatLive v = true →
    s.is (R.DRV_STAT_ZR v p) = true →
    portState s v p = RUN →
    loneActive s v p = true →
    Answers (.zeroEffortTimeout v p) s (fun t => PatternEntered s t v p causePFBLOSS (nextPattern s v p)
      ∧ t.is (R.DRV_STAT_ZRTO_F v p) = true ∧ t.is (R.DRV_STAT_ZR v p) = false))
  ∧ (∀ (p : Fin 8) (s : State),
    Calm s →
    Answers (.restorationLoss p) s (fun t => ∀ v : Vat, s.vatLive v = true → s.is (R.GRID_RSTAT_RLIVE v p) = true →
      t.is (R.GRID_RSTAT_RLIVE v p) = false ∧ t.is (R.GRID_RSTAT_RLOSS_F v p) = true ∧ (Fits s → (getGuard t v p).pend = [])))

/-! ## The Harp path and orders (12_safety_functions.md) -/

/-- A demand on an input in use takes STO with source 1, or starts SS1 with source 0, as FUNC says; a release only ends the
demand. A pair whose channels disagree too long latches its discrepancy and demands on both; it clears when both have
demanded and then released. A rail fault latches RAIL and takes STO with source 4. Where the spec leaves a point open, this
follows the choice of notes/assumptions/100.md. -/
def Obligations.HarpInputsAct : Prop :=
  (∀ (i : Fin 4) (s : State),
    Calm s →
    s.dev.operating = true →
    s.rdBit R.HARP_CFG_INEN i = true →
    paired s (i / 2) = false →
    inIsSs1 s i = false →
    s.rdBit R.HARP_STAT_DEM i = false →
    Answers (.harpInDemand i) s (fun t => t.dev = .safeStop ∧ t.is R.SAFE_STAT_STO = true ∧ t.rd R.SAFE_STAT_STOSRC = 1 ∧ GateOff t
      ∧ t.is R.SAFE_FLAGS_DEMAND_F = true ∧ t.rdBit R.HARP_STAT_DEM i = true ∧ t.rdBit R.HARP_STAT_IN i = false))
  ∧ (∀ (i : Fin 4) (s : State),
    Calm s →
    s.dev.operating = true →
    s.rdBit R.HARP_CFG_INEN i = true →
    paired s (i / 2) = false →
    inIsSs1 s i = true →
    s.rd R.HARP_STAT_DEM = demands s →
    s.rdBit R.HARP_STAT_DEM i = false →
    s.is R.SAFE_STAT_SS1_ACT = false →
    Answers (.harpInDemand i) s (fun t => (t.is R.SAFE_STAT_SS1_ACT = true ∨ t.dev = .safeStop) ∧ t.rd R.SAFE_STAT_SS1SRC = 0
      ∧ t.is R.SAFE_FLAGS_SS1_F = true ∧ t.is R.SAFE_FLAGS_DEMAND_F = true ∧ t.rdBit R.HARP_STAT_DEM i = true))
  ∧ (∀ (i : Fin 4) (s : State),
    Calm s →
    s.dev ≠ .off →
    paired s (i / 2) = false →
    s.rd R.HARP_STAT_DEM = demands s →
    Answers (.harpInRelease i) s (fun t => t.rdBit R.HARP_STAT_IN i = true ∧ t.rdBit R.HARP_STAT_DEM i = false
      ∧ (∀ j : Fin 4, j ≠ i → t.rdBit R.HARP_STAT_DEM j = s.rdBit R.HARP_STAT_DEM j ∧ t.rdBit R.HARP_STAT_IN j = s.rdBit R.HARP_STAT_IN j)
      ∧ Frame s t [R.HARP_STAT_IN, R.HARP_STAT_DEM]))
  ∧ (∀ (b : Bool) (s : State),
    Calm s →
    paired s (boolNat b) = true →
    (getPair s (boolNat b)).waiting = true →
    s.is (discLatch (boolNat b)) = false →
    Answers (.discrepancyTimeout b) s (fun t => t.is (discLatch (boolNat b)) = true ∧ t.is R.SAFE_FLAGS_DISC_F = true
      ∧ t.rdBit R.HARP_STAT_DEM (2 * boolNat b) = true ∧ t.rdBit R.HARP_STAT_DEM (2 * boolNat b + 1) = true
      ∧ (getPair t (boolNat b)).waiting = false ∧ (getPair t (boolNat b)).bothSeen = false))
  ∧ (∀ (k : Fin 2) (i : Fin 4) (s : State),
    Calm s →
    s.dev ≠ .off →
    i / 2 = k.val →
    paired s k = true →
    s.rdBit R.HARP_CFG_INEN (2 * k) = true →
    s.rdBit R.HARP_CFG_INEN (2 * k + 1) = true →
    inDemands s (4 * k + 1 - i) = false →
    s.is (discLatch k) = true →
    (getPair s k).bothSeen = true →
    Answers (.harpInRelease i) s (fun t => t.is (discLatch k) = false ∧ t.rdBit R.HARP_STAT_DEM (2 * k) = false
      ∧ t.rdBit R.HARP_STAT_DEM (2 * k + 1) = false ∧ (getPair t k).bothSeen = false))
  ∧ (∀ (s : State),
    Calm s →
    s.dev.operating = true →
    s.is R.SAFE_STAT_RAIL = false →
    Answers .railFault s (fun t => t.is R.SAFE_STAT_RAIL = true ∧ t.is R.SAFE_FLAGS_RAIL_F = true ∧ t.dev = .safeStop
      ∧ t.rd R.SAFE_STAT_STOSRC = 4 ∧ GateOff t))

/-- When SS1_TIME has elapsed STO follows: the device is in SAFE_STOP, the gate is false, SS1_ACT and the ride are over,
STOSRC says whether SS1 ran for the arbiter's patterns, and every port that is not RETIRED is IDLE in both vats. A ride whose
time has run out starts SS1 with source 2; without one, or without safe stop 1, nothing changes. Where the spec leaves a
point open, this follows the choice of notes/assumptions/12.md. -/
def Obligations.StopsEndInSafeStop : Prop :=
  (∀ (s : State),
    Calm s →
    s.is R.SAFE_STAT_SS1_ACT = true →
    s.dev ≠ .off →
    Answers .ss1Timeout s (fun t => t.dev = .safeStop ∧ t.is R.SAFE_STAT_STO = true ∧ GateOff t
      ∧ t.rd R.SAFE_STAT_STOSRC = (if s.harp.ss1Kind = .normal then 3 else 6) ∧ t.is R.SAFE_FLAGS_STO_F = true
      ∧ t.is R.SAFE_STAT_SS1_ACT = false ∧ t.is R.SAFE_STAT_RIDE = false ∧ t.arb.hold = none
      ∧ ∀ v : Vat, s.hasVat v = true → ∀ p : Fin 8, portState t v p = (if portState s v p = RETIRED then RETIRED else IDLE)))
  ∧ (∀ (s : State),
    Calm s →
    s.dev.operating = true →
    s.is R.SAFE_STAT_RIDE = true →
    s.rd R.SAFE_STAT_DG_LEFT = 0 →
    s.is R.SAFE_STAT_SS1_ACT = false →
    Answers .rideExpiry s (fun t => (t.is R.SAFE_STAT_SS1_ACT = true ∨ t.dev = .safeStop) ∧ t.rd R.SAFE_STAT_SS1SRC = 2
      ∧ t.is R.SAFE_FLAGS_RIDEEXP_F = true ∧ t.is R.SAFE_FLAGS_SS1_F = true ∧ t.is R.SAFE_STAT_RIDE = false
      ∧ t.rd R.SAFE_STAT_DG_LEFT = 0))
  ∧ (∀ (s : State),
    Calm s →
    (s.is R.SAFE_STAT_RIDE = false ∨ s.rd R.SAFE_STAT_DG_LEFT ≠ 0 → Answers .rideExpiry s (fun t => CycleOnly s t))
    ∧ (s.is R.SAFE_STAT_SS1_ACT = false → Answers .ss1Timeout s (fun t => CycleOnly s t)))

/-- An output falls when its OFFDLY has passed since the permit became false. A test that falls due lowers its output, or
waits while another runs; a passed test counts, a failed one is a safety fault, as are a feedback that differs from its
expected level and a cross-connection, and the first safety fault starts the ride with DEGRADE_TIME. A demand in the cycle in
which a pulse ends takes the test back, neither passed nor failed, and counts it abandoned (R278). A feedback that does not
differ, or a delay, a test or its end that is not due, changes nothing. Where the spec leaves a point open, this follows the
choice of notes/assumptions/15.md and notes/assumptions/101.md. -/
def Obligations.HarpOutputsTested : Prop :=
  (∀ (n : Fin 4) (s : State),
    Calm s →
    nth s.harp.offPend n false = true →
    s.is R.HARP_STAT_GATE = false →
    s.is R.SAFE_STAT_SS1_ACT = false →
    Answers (.harpOutOffDelay n) s (fun t => t.rdBit R.HARP_STAT_OUT n = false
      ∧ (∀ m : Fin 4, m ≠ n → t.rdBit R.HARP_STAT_OUT m = s.rdBit R.HARP_STAT_OUT m) ∧ Frame s t []))
  ∧ (∀ (n : Fin 4) (s : State),
    Calm s →
    testDue s n = true →
    s.is R.HARP_STAT_TP = false →
    Answers (.testPulseDue n) s (fun t => t.rdBit R.HARP_STAT_OUT n = false ∧ t.rd R.HARP_STAT_TP = 2 ^ n.val
      ∧ (∀ m : Fin 4, m ≠ n → t.rdBit R.HARP_STAT_OUT m = s.rdBit R.HARP_STAT_OUT m) ∧ Frame s t []))
  ∧ (∀ (n : Fin 4) (s : State),
    Calm s →
    testDue s n = true →
    s.harp.testWait.length = 4 →
    s.is R.HARP_STAT_TP = true →
    Answers (.testPulseDue n) s (fun t => t.rd R.HARP_STAT_OUT = s.rd R.HARP_STAT_OUT ∧ t.rd R.HARP_STAT_TP = s.rd R.HARP_STAT_TP
      ∧ nth t.harp.testWait n false = true ∧ Frame s t []))
  ∧ (∀ (n : Fin 4) (ch : BitVec 4) (s : State),
    Calm s →
    s.is R.SAFE_STAT_SS1_ACT = false →
    s.rdBit R.HARP_STAT_TP n = true →
    crossed s n ch.toNat = false →
    Answers (.testPulseEnd n true true ch) s (fun t => t.rdBit R.HARP_STAT_OUT n = true ∧ t.rdBit R.HARP_STAT_TP n = false
      ∧ t.rd R.HARP_CNT_TESTS = min (s.rd R.HARP_CNT_TESTS + 1) 65535 ∧ Frame s t [R.HARP_CNT_TESTS]))
  ∧ (∀ (n : Fin 4) (a b : Bool) (ch : BitVec 4) (s : State),
    Calm s →
    s.is R.SAFE_STAT_SS1_ACT = false →
    s.rdBit R.HARP_STAT_TP n = true →
    (a && b) = false →
    Answers (.testPulseEnd n a b ch) s (fun t => t.rdBit R.HARP_STAT_OUT n = true ∧ t.rdBit R.HARP_STAT_TP n = false
      ∧ t.is R.SAFE_FLAGS_TPFAIL_F = true ∧ t.rdBit ⟨R.SAFE_FAULT, 0, 32⟩ 3 = true
      ∧ t.rd R.HARP_CNT_TESTS = s.rd R.HARP_CNT_TESTS
      ∧ (s.dev.operating = true → s.rd ⟨R.SAFE_FAULT, 0, 6⟩ = 0 → s.is R.SAFE_STAT_RIDE = false → t.is R.SAFE_STAT_RIDE = true
          ∧ t.rd R.SAFE_STAT_DG_LEFT = s.rd R.SAFE_CFG_DEGRADE_TIME * 10 ∧ t.is R.SAFE_FLAGS_RIDE_F = true
          ∧ t.rdBit R.OWN_DEG_DEG_CAUSE 9 = true)))
  ∧ (∀ (n : Fin 4) (a b : Bool) (ch : BitVec 4) (s : State),
    Calm s →
    s.rdBit R.HARP_STAT_TP n = true →
    crossed s n ch.toNat = true →
    Answers (.testPulseEnd n a b ch) s (fun t => t.is R.SAFE_FLAGS_XSHORT_F = true ∧ t.rdBit ⟨R.SAFE_FAULT, 0, 32⟩ 5 = true))
  ∧ (∀ (i n : Fin 4) (x : TestEnd) (s : State),
    Calm s →
    s.dev.operating = true →
    s.rdBit R.HARP_CFG_INEN i = true →
    paired s (i / 2) = false →
    inIsSs1 s i = false →
    s.rdBit R.HARP_STAT_DEM i = false →
    s.is R.HARP_STAT_GATE = true →
    s.rd R.HARP_STAT_TP = 0 →
    s.harp.tested = some x →
    x.out = n.val →
    x.vt = s.time.vt →
    Answers (.harpInDemand i) s (fun t => t.dev = .safeStop ∧ t.rd R.HARP_CNT_TESTS = x.tests % 65536 ∧ t.is R.SAFE_FLAGS_TPFAIL_F = x.failed
      ∧ t.rdBit ⟨R.SAFE_FAULT, 0, 32⟩ 3 = x.fault ∧ t.rdBit R.HARP_STAT_OUT n = false ∧ t.is R.SAFE_FLAGS_TPABND_F = true
      ∧ t.rd R.HARP_CNT_ABANDONED = min (s.rd R.HARP_CNT_ABANDONED + 1) 65535))
  ∧ (∀ (n : Fin 4) (s : State),
    Calm s →
    s.is R.SAFE_STAT_SS1_ACT = false →
    s.dev.operating = true →
    feedbackDiffers s n = true →
    Answers (.feedbackError n) s (fun t => t.is R.SAFE_FLAGS_FBERR_F = true ∧ t.rdBit ⟨R.SAFE_FAULT, 0, 32⟩ 4 = true
      ∧ (s.rd ⟨R.SAFE_FAULT, 0, 6⟩ = 0 → s.is R.SAFE_STAT_RIDE = false → t.is R.SAFE_STAT_RIDE = true
        ∧ t.rdBit R.OWN_DEG_DEG_CAUSE 9 = true ∧ t.rd R.SAFE_STAT_DG_LEFT = s.rd R.SAFE_CFG_DEGRADE_TIME * 10
        ∧ t.harp.rideNs = s.rd R.SAFE_CFG_DEGRADE_TIME * 1000000000)
      ∧ (s.rd ⟨R.SAFE_FAULT, 0, 6⟩ ≠ 0 ∨ s.is R.SAFE_STAT_RIDE = true → t.rd R.SAFE_STAT_RIDE = s.rd R.SAFE_STAT_RIDE
        ∧ t.rd R.SAFE_STAT_DG_LEFT = s.rd R.SAFE_STAT_DG_LEFT ∧ t.harp.rideNs = s.harp.rideNs)))
  ∧ (∀ (n : Fin 4) (s : State),
    Calm s →
    feedbackDiffers s n = false ∨ s.dev.onward = false →
    Answers (.feedbackError n) s (fun t => CycleOnly s t))
  ∧ (∀ (n : Fin 4) (ok1 ok2 : Bool) (ch : BitVec 4) (s : State),
    Calm s →
    (s.rdBit R.HARP_STAT_TP n = false → Answers (.testPulseEnd n ok1 ok2 ch) s (fun t => CycleOnly s t))
    ∧ (testDue s n = false → Answers (.testPulseDue n) s (fun t => CycleOnly s t))
    ∧ (nth s.harp.offPend n false = false ∨ s.is R.HARP_STAT_GATE = true → Answers (.harpOutOffDelay n) s (fun t => CycleOnly s t)))

/-- The writer that stands for a signal is one of its writers, and no other beats it in rank, message time or channel. At a
boundary every signal takes its final value, and a stop-class order on a port or on the device withdraws the port's run-class
orders. STO and SS1 orders act with their sources; a rising SAFE_RESTART leaves SAFE_STOP if R272 allows it, and is refused
otherwise; a rising CLEAR leaves FAULT_PATTERN if no cause is present, and is refused otherwise. Where the spec leaves a
point open, this follows the choice of notes/assumptions/14.md and notes/assumptions/100.md. -/
def Obligations.OrdersResolve : Prop :=
  (∀ (s : State) (sig : Nat) (w : Writer),
    standing s sig = some w →
    w ∈ s.ord.writers ∧ w.signal = sig ∧ ∀ x ∈ s.ord.writers, x.signal = sig → x.beats w = false)
  ∧ (∀ (s : State),
    Calm s →
    s.dev.onward = true →
    Answers .orderResolution s (fun t => ∀ w ∈ s.ord.writers, orderValue t w.signal = finalValue s w.signal))
  ∧ (∀ (s : State) (p : Fin 8) (o : Fin 3) (q : Fin 6) (x : Writer),
    3 ≤ q.val →
    standing s (orderSignal q p) = some x →
    x.value ≠ 0 →
    finalValue s (orderSignal o p) = 0)
  ∧ (∀ (s : State) (p : Fin 8) (o : Fin 3) (d : Fin 2) (x : Writer),
    standing s (0x40 + d) = some x →
    x.value ≠ 0 →
    finalValue s (orderSignal o p) = 0)
  ∧ (∀ (s : State) (x : Writer),
    Calm s →
    s.dev.operating = true →
    standing s 0x41 = some x →
    x.value ≠ 0 →
    Answers .orderResolution s (fun t => t.dev = .safeStop ∧ t.is R.SAFE_STAT_STO = true ∧ GateOff t
      ∧ t.rd R.SAFE_STAT_STOSRC = (if x.chan = 6 then 5 else 2)))
  ∧ (∀ (s : State) (x : Writer),
    Calm s →
    s.dev.operating = true →
    s.is R.SAFE_STAT_SS1_ACT = false →
    standingValue s 0x41 = 0 →
    standing s 0x40 = some x →
    x.value ≠ 0 →
    Answers .orderResolution s (fun t => (t.is R.SAFE_STAT_SS1_ACT = true ∨ t.dev = .safeStop) ∧ t.rd R.SAFE_STAT_SS1SRC = 1
      ∧ t.is R.SAFE_FLAGS_SS1_F = true))
  ∧ (∀ (s : State),
    Calm s →
    s.dev = .safeStop →
    restartAllowed s = true →
    s.is R.SAFE_STAT_SS1_ACT = false →
    orderValue s 0x42 = 0 →
    standingValue s 0x42 ≠ 0 →
    Answers .orderResolution s (fun t => t.dev.operating = true ∧ t.is R.SAFE_STAT_STO = false ∧ t.is R.HARP_STAT_GATE = true
      ∧ ∀ n : Fin 4, s.is (R.HARP_OUT_EN n) = true → t.rdBit R.HARP_STAT_OUT n = true))
  ∧ (∀ (s : State),
    Calm s →
    s.dev = .safeStop →
    s.is R.SAFE_STAT_SS1_ACT = false →
    restartAllowed s = false →
    Answers .orderResolution s (fun t => t.dev = .safeStop ∧ t.rd R.HARP_STAT_GATE = s.rd R.HARP_STAT_GATE))
  ∧ (∀ (s : State) (v : Vat) (p : Fin 8),
    Steady s v →
    s.dev.operating = true →
    s.vatLive v = true →
    s.is (R.PORT_CFG_LNK_EN v p) = false →
    (List.range 8).all (fun q => partner s v q != some p.val) = true →
    portState s v p = FAULTPAT →
    orderValue s (orderSignal 2 p) = 0 →
    finalValue s (orderSignal 2 p) ≠ 0 →
    standingValue s 0x42 = 0 →
    (List.range 8).all (fun q => standingValue s (orderSignal 5 q) == 0) = true →
    causesPresent s v p = [] →
    Answers .orderResolution s (fun t => portState t v p ≠ FAULTPAT))
  ∧ (∀ (s : State) (v : Vat) (p : Fin 8),
    Steady s v →
    s.dev.operating = true →
    s.vatLive v = true →
    s.is (R.PORT_CFG_LNK_EN v p) = false →
    (List.range 8).all (fun q => partner s v q != some p.val) = true →
    portState s v p = FAULTPAT →
    finalValue s (orderSignal 2 p) ≠ 0 →
    standingValue s 0x42 = 0 →
    (List.range 8).all (fun q => standingValue s (orderSignal 5 q) == 0) = true →
    causesPresent s v p ≠ [] →
    Answers .orderResolution s (fun t => portState t v p = FAULTPAT))

/-! ## The Rind (13_rind.md) -/

/-- A Rind reset restores energy and time from the newest valid slot, closes an open session and enters METER, or ERROR where
a check fails or no slot is valid. A commit adds the energies of the second's samples by their sign, opens, keeps or closes
the session, writes the next slot and publishes; a warning of the brown-out monitor adds what was metered since (of its last
bits, which no row brings, a free value: log entry 80) and writes a slot. A window adds reactive energy by its sign and
publishes its means. Of the second that a warning has paid for, the commit adds the rest. A stale input is marked from there
on, and its return ends that. The integrity checks mend a bad copy or end in ERROR. An impulse falls due when its energy has
been metered, and leaves or waits. What a Rind without its supply is told changes nothing. Where the spec leaves a point
open, this follows the choice of notes/assumptions/80.md and notes/assumptions/81.md. -/
def Obligations.RindMetersAndCommits : Prop :=
  (∀ (wd rom a b : Bool) (ok : BitVec 32) (q : RindSlot) (s : State),
    s.variant.metered = true →
    newestSlot s.rind ok = some q →
    Answers (.rindReset wd rom a b ok) s (fun t => t.rind.powered = true ∧ t.rind.state = (if rom && (a || b) then 1 else 2)
      ∧ t.rind.energy = q.energy.map (fun e => e * 2 ^ 32) ∧ t.rind.mtQ = q.mt * 25000000 ∧ t.rind.sess = none ∧ t.rind.sealOpen = false
      ∧ (rom = true → t.rind.fwSum = romSum) ∧ (a = true → b = false → t.rind.par1 = s.rind.par0)
      ∧ (a = false → b = true → t.rind.par0 = s.rind.par1)
      ∧ t.rd R.R_STAT_STATE = (if rom && (a || b) then 1 else 2) ∧ t.is R.R_STAT_FWERR = !rom ∧ t.is R.R_STAT_PARERR = !(a || b)
      ∧ t.is R.R_STAT_NVERR = false ∧ t.is R.R_STAT_WDRST = wd ∧ t.rd R.R_MT_LO_VAL = q.mt % 2 ^ 32
      ∧ (s.rind.sess.isSome = true → (t.rind.ring.getLast?).map (fun e => e.1) = some s.rind.sessNum)
      ∧ t.mem = s.mem ∧ t.nv = s.nv ∧ t.trust = s.trust ∧ t.time = s.time))
  ∧ (∀ (wd rom a b : Bool) (ok : BitVec 32) (s : State),
    s.variant.metered = true →
    newestSlot s.rind ok = none →
    Answers (.rindReset wd rom a b ok) s (fun t => t.rind.powered = true ∧ t.rind.state = 2 ∧ t.is R.R_STAT_NVERR = true ∧ t.rd R.R_STAT_STATE = 2))
  ∧ (∀ (s : State),
    RindFits s →
    Answers .rindBrownoutWarning s (fun t => SlotWritten s t ∧ RegsKept s t [] ∧ t.mem = s.mem
      ∧ t.rind.sec = (meter s (Config.lastBits s.free)).rind.sec ∧ t.rind.paid = t.rind.sec
      ∧ ∀ i : Fin 6, nth t.rind.energy i 0 = nth s.rind.energy i 0 + secondEnergy s (meter s (Config.lastBits s.free)).rind.sec s.rind.paid i))
  ∧ (∀ (bits : MeterBits) (s : State),
    RindFits s →
    Answers (.commitSlot bits) s (fun t => SlotWritten s t
      ∧ (∀ i : Fin 6, nth t.rind.energy i 0 = nth s.rind.energy i 0 + secondEnergy s (meter s bits).rind.sec s.rind.paid i)
      ∧ (∀ i : Fin 8, t.regs.get (R.R_IN i) = (if unusedInput s i then 0 else rmsOf (meter s bits).rind.sec i)
        ∧ t.is (R.R_INST_STALE i) = isStale s i ∧ t.is (R.R_INST_VALID i) = (!isStale s i && !unusedInput s i))
      ∧ t.rind.sec = {} ∧ t.rind.paid = {} ∧ t.rd R.R_STAT_PUBSEQ = (s.rd R.R_STAT_PUBSEQ + 2) % 65536
      ∧ (∀ i : Fin 12, t.rd (R.R_E_VAL i) = nth t.rind.wh (i.val / 2) 0 / 2 ^ (32 * (i.val % 2)) % 2 ^ 32)
      ∧ (∀ i : Fin 32, t.regs.get (R.R_PAR i) = parWord s i)
      ∧ t.mem = s.mem ∧ t.nv = s.nv ∧ t.trust = s.trust ∧ t.time = s.time))
  ∧ (∀ (bits : MeterBits) (s : State),
    RindFits s →
    s.rind.state = 1 →
    s.rind.sess = none →
    secondAbove (meter s bits) = true →
    Answers (.commitSlot bits) s (fun t => t.rind.sess.map (fun q => (q.startMt, q.startE, q.below)) = some (s.rind.mt - 1000, s.rind.commitE, 0)
      ∧ t.rind.sessNum = (s.rind.sessNum + 1) % 2 ^ 32 ∧ t.is R.R_STAT_SESSION = true))
  ∧ (∀ (bits : MeterBits) (q : RindSession) (s : State),
    RindFits s →
    s.rind.state = 1 →
    s.rind.sess = some q →
    getBits (parWord s 14) 0 10 ≤ q.below + 1 →
    secondAbove (meter s bits) = false →
    Answers (.commitSlot bits) s (fun t => t.rind.sess = none ∧ t.is R.R_STAT_SESSION = false
      ∧ (t.rind.ring.getLast?).map (fun e => e.1) = some s.rind.sessNum ∧ t.rind.sessNum = s.rind.sessNum))
  ∧ (∀ (bits : MeterBits) (q : RindSession) (s : State),
    RindFits s →
    s.rind.state = 1 →
    s.rind.sess = some q →
    secondAbove (meter s bits) = true ∨ q.below + 1 < getBits (parWord s 14) 0 10 →
    Answers (.commitSlot bits) s (fun t => t.rind.sess.map (fun x => (x.startMt, x.startE, x.below))
        = some (q.startMt, q.startE, if secondAbove (meter s bits) then 0 else q.below + 1)
      ∧ t.is R.R_STAT_SESSION = true ∧ t.rind.ring = s.rind.ring ∧ t.rind.sessNum = s.rind.sessNum))
  ∧ (∀ (bits : MeterBits) (s : State),
    RindFits s →
    Answers (.rindPublication bits) s (fun t =>
      let u := meter s bits
      t.rind.energy = (if s.rind.state = 1
          then modNth s.rind.energy (if F32.lt (reactive u) 0 then 2 else 3) (fun e => e + reactiveEnergy (reactive u)) else s.rind.energy)
      ∧ t.regs.get R.R_QAC = reactive u
      ∧ t.regs.get R.R_FAC = (if hasVoltage s then Config.rindTrack (parCfg s 2 1) (dftFreq s) u.rind.dft else 0)
      ∧ t.regs.get R.R_PAC = signedMean u.rind.win.ac u.rind.win.n
      ∧ t.regs.get R.R_PDC = signedMean ((u.rind.win.dcPos : Int) - u.rind.win.dcNeg) u.rind.win.n
      ∧ (∀ i : Fin 8, t.regs.get (R.R_IN200 i) = (if unusedInput s i then 0 else rmsOf u.rind.win i))
      ∧ t.rind.win = {} ∧ t.rind.dft = List.replicate 8 (0, 0) ∧ t.rd R.R_STAT_PUBSEQ = (s.rd R.R_STAT_PUBSEQ + 2) % 65536
      ∧ t.mem = s.mem ∧ t.time = s.time))
  ∧ (∀ (i : Fin 8) (bits : MeterBits) (s : State),
    RindFits s →
    Answers (.rindInputStale ⟨i, bits⟩) s (fun t => t.rind.stale = setBit s.rind.stale i true ∧ RegsKept s t []
      ∧ t.rind.sec = (meter s bits).rind.sec ∧ t.rind.win = (meter s bits).rind.win
      ∧ (t.rind.sess.map (fun q => bitOf q.flags 3) = s.rind.sess.map (fun _ => true)))
    ∧ Answers (.rindInputReturn ⟨i, bits⟩) s (fun t => t.rind = { (meter s bits).rind with stale := setBit s.rind.stale i false }
      ∧ RegsKept s t []))
  ∧ (∀ (d rom a b : Bool) (s : State),
    RindFits s →
    Answers (.rindIntegrityCheck d rom a b) s (fun t => t.rind.fwErr = (s.rind.fwErr || (d && !rom)) ∧ t.rind.parErr = (s.rind.parErr || !(a || b))
      ∧ t.rind.state = (if (d && !rom) || !(a || b) then 2 else s.rind.state)
      ∧ t.rind.par0 = (if !a && b then s.rind.par1 else s.rind.par0) ∧ t.rind.par1 = (if a && !b then s.rind.par0 else s.rind.par1)
      ∧ (d = true → (t.rind.fwSum = romSum ↔ rom = true)) ∧ RegsKept s t []))
  ∧ (∀ (s : State),
    RindFits s →
    impulseDue s = true →
    s.rind.pulseQ = 0 →
    pulseFree s.rind = true →
    Answers .energyImpulse s (fun t => t.rind = { s.rind with pulseAt := some s.rind.mt, pulseAcc := s.rind.pulseAcc - pulseUnit }
      ∧ RegsKept s t []))
  ∧ (∀ (s : State),
    RindFits s →
    impulseDue s = true →
    s.rind.pulseQ ≠ 0 ∨ pulseFree s.rind = false →
    Answers .energyImpulse s (fun t => t.rind = { s.rind with
        pulseAcc := s.rind.pulseAcc - pulseUnit, pulseQ := min (s.rind.pulseQ + 1) 65535, pulseOvf := s.rind.pulseOvf || decide (65535 ≤ s.rind.pulseQ + 1) }))
  ∧ (∀ (i : Fin 8) (bits : MeterBits) (a b d e : Bool) (s : State),
    (impulseDue s = false → Answers .energyImpulse s (fun t => CycleOnly s t))
    ∧ (rindUp s = false → Answers (.commitSlot bits) s (fun t => CycleOnly s t) ∧ Answers .rindBrownoutWarning s (fun t => CycleOnly s t)
      ∧ Answers (.rindPublication bits) s (fun t => CycleOnly s t) ∧ Answers (.rindInputStale ⟨i, bits⟩) s (fun t => CycleOnly s t)
      ∧ Answers (.rindInputReturn ⟨i, bits⟩) s (fun t => CycleOnly s t) ∧ Answers (.rindIntegrityCheck a b d e) s (fun t => CycleOnly s t)))

/-- Each request gets one response frame. READ gives the window's words, and one that leaves the window, is unaligned, or is
of no word or more than 64, gets status 1; RECORD and AUDITREC give what is held, or status 3; SEALWR writes a parameter in
range and MTSET sets MT only while the seal is open, each counting in AUDIT; a bad frame gets status 2, with its own command
byte where it is long enough to have one, a frame of right CRC that is none of the six requests, by its CMD or its length,
gets status 1, and a well-formed request is no bad frame. Outside the Rind no register, no memory, no store, no trust state
and no time base changes but that a new tap input takes VALID from the tap. Where the spec leaves a point open, this follows
the choice of notes/assumptions/82.md and notes/assumptions/83.md. -/
def Obligations.RindPortAnswers : Prop :=
  (∀ (s : State),
    RindFits s →
    Answers .sealAccept s (fun t => t.rind = { s.rind with sealOpen := true } ∧ RindFrame s t [])
    ∧ Answers .sealRelease s (fun t => t.rind = { s.rind with sealOpen := false } ∧ RindFrame s t []))
  ∧ (∀ (o : BitVec 16) (n : BitVec 8) (s : State),
    RindFits s →
    (1 ≤ n.toNat && n.toNat ≤ 64 && o.toNat % 4 == 0 && o.toNat + 4 * n.toNat ≤ 0x1000) = true →
    Answers (.rindRead o n) s (fun t => RindFrame s t [] ∧ t.rind = { s.rind with tx := portFrame 1 0 ((List.range n.toNat).flatMap (fun i =>
        leBytes 4 (readReg s (0x70000000 + (o.toNat + 4 * i))).toNat)) }))
  ∧ (∀ (o : BitVec 16) (n : BitVec 8) (s : State),
    RindFits s →
    (1 ≤ n.toNat && n.toNat ≤ 64 && o.toNat % 4 == 0 && o.toNat + 4 * n.toNat ≤ 0x1000) = false →
    Answers (.rindRead o n) s (fun t => RindFrame s t [] ∧ t.rind = { s.rind with tx := portFrame 1 1 [] }))
  ∧ (∀ (n : BitVec 32) (s : State),
    RindFits s →
    Answers (.rindRecord n) s (fun t => RindFrame s t [] ∧ t.rind = { s.rind with tx :=
        (match s.rind.ring.find? (fun e => e.1 == n.toNat) with
        | some e => portFrame 2 0 e.2
        | none => portFrame 2 3 []) }))
  ∧ (∀ (i : BitVec 8) (s : State),
    RindFits s →
    Answers (.rindAuditrec i) s (fun t => RindFrame s t [] ∧ t.rind = { s.rind with tx :=
        (if 32 ≤ i.toNat then portFrame 3 1 [] else
          match auditAt s.rind i.toNat with
          | some a => portFrame 3 0 (fitBytes 32 (Config.auditBytes [a.id, a.old.toNat, a.new.toNat, a.mt, a.audit]))
          | none => portFrame 3 3 []) }))
  ∧ (∀ (id : BitVec 8) (bs : List Byte) (i : Nat) (s : State),
    RindFits s →
    s.rind.sealOpen = true →
    parPlace id.toNat = some (i, bs.length) →
    parInRange id.toNat bs = true →
    Answers (.rindSealwr id bs) s (fun t => parBytes t i (bs.length / 4) = bs
      ∧ (∀ k < 32, k < i ∨ i + bs.length / 4 ≤ k → parWord t k = parWord s k) ∧ (s.rind.par0 = s.rind.par1 → t.rind.par0 = t.rind.par1)
      ∧ RindFrame s t [R.TAP_DATA_VALID] ∧ t.rind.audit = (s.rind.audit + 1) % 2 ^ 32 ∧ t.rind.tx = portFrame 0x10 0 [] ∧ t.rind.energy = s.rind.energy
      ∧ (t.rind.audits.getLast?).map (fun a => (a.id, a.mt, a.audit)) = some (id.toNat, s.rind.mt, (s.rind.audit + 1) % 2 ^ 32)))
  ∧ (∀ (id : BitVec 8) (bs : List Byte) (s : State),
    RindFits s →
    (s.rind.sealOpen && (parPlace id.toNat).any (fun p => p.2 == bs.length) && parInRange id.toNat bs) = false →
    Answers (.rindSealwr id bs) s (fun t => RindFrame s t [] ∧ t.rind = { s.rind with tx := portFrame 0x10 1 [] }))
  ∧ (∀ (mt : BitVec 64) (s : State),
    RindFits s →
    Answers (.rindMtset mt) s (fun t => RindFrame s t []
      ∧ (if s.rind.sealOpen then t.rind.mt = mt.toNat ∧ t.rind.mtSet = true ∧ t.rind.audit = (s.rind.audit + 1) % 2 ^ 32
            ∧ t.rind.tx = portFrame 0x11 0 [] ∧ t.rind.energy = s.rind.energy
          else t.rind = { s.rind with tx := portFrame 0x11 1 [] })))
  ∧ (∀ (frame : List Byte) (s : State),
    RindFits s →
    frameOk frame = false →
    Answers (.rindPortFrameError frame) s (fun t => RindFrame s t []
      ∧ (4 ≤ frame.length → t.rind = { s.rind with tx := portFrame (nth frame 3 0).toNat 2 [] })
      ∧ (frame.length < 4 → t.rind = { s.rind with tx := portFrame (s.freeVal.toNat % 256) 2 [] })))
  ∧ (∀ (cmd : Nat) (payload : List Byte) (s : State),
    cmd < 256 →
    payload.length < 65535 →
    (rindUp s = false ∨ frameServed (requestFrame cmd payload) = true →
      Answers (.rindPortFrameError (requestFrame cmd payload)) s (fun t => CycleOnly s t))
    ∧ (RindFits s → frameServed (requestFrame cmd payload) = false →
      Answers (.rindPortFrameError (requestFrame cmd payload)) s (fun t => RindFrame s t [] ∧ t.rind = { s.rind with tx := portFrame cmd 1 [] })))

/-- A correction that passes the checks of R299 counts up CORRSEQ, and what BUDGET allows of its offset waits to be slewed;
any other changes only LASTCORR. The port answers LASTCORR, and the poll of the mailbox acts on the message there. The tap
decimator gives a sample when its settling is over and its bitstream changes. The Rind down takes VALID from the tap and sets
RDOWN, unless the tap's receiver is itself in reset. Without the Rind or the tap nothing changes. Where the spec leaves a
point open, this follows the choice of notes/assumptions/84.md. -/
def Obligations.CorrectionsAndTap : Prop :=
  (∀ (m : BitVec 768) (s : State),
    RindFits s →
    Answers (.rindMtcorr m) s (fun t => CorrectionTaken s t ((List.range 96).map (fun i => m.extractLsb' (8 * i) 8))
      ∧ t.rind.tx = portFrame 0x20 0 [BitVec.ofNat 8 t.rind.lastCorr] ∧ RegsKept s t [])
    ∧ Answers .mailboxPoll s (fun t => CorrectionTaken s t (mailBytes s) ∧ RegsKept s t []))
  ∧ (∀ (bits : BitVec 128) (s : State),
    RindFits s →
    tapNamed s = true →
    s.dev ≠ .off →
    s.rind.tapOn = true →
    Answers (.tapSample bits) s (fun t => t.rd R.TAP_STAT_SEQ = (s.rd R.TAP_STAT_SEQ + 1) % 65536
      ∧ t.is R.TAP_DATA_STALE = decide ((tapRun s.rind bits).2.1 = 4096)
      ∧ t.is R.TAP_DATA_VALID = (decide (s.rd R.TAP_STAT_SETTLE_LEFT = 0) && decide ((tapRun s.rind bits).2.1 ≠ 4096))
      ∧ (s.rd R.TAP_STAT_SETTLE_LEFT = 0 → t.signedRd R.TAP_DATA_SAMPLE = tapValue s bits ∧ t.is R.TAP_DATA_SUPP = false)
      ∧ ((tapRun s.rind bits).2.2 = true → s.is R.TAP_DATA_STALE = false → t.is R.TAP_STAT_STALE_F = true)
      ∧ (s.rd R.TAP_STAT_SETTLE_LEFT ≠ 0 → t.rd R.TAP_STAT_SETTLE_LEFT = s.rd R.TAP_STAT_SETTLE_LEFT - 1)
      ∧ RegsKept s t [whole R.TAP_DATA, whole R.TAP_STAT]))
  ∧ (∀ (bits : BitVec 128) (s : State),
    RindFits s →
    tapNamed s = true →
    s.dev ≠ .off →
    s.rind.tapOn = false →
    Answers (.tapSample bits) s (fun t => t.rd R.TAP_STAT_SETTLE_LEFT = 2 ∧ t.is R.TAP_DATA_SUPP = true ∧ t.is R.TAP_DATA_VALID = false
      ∧ t.rind.tapOn = true))
  ∧ (∀ (bits : BitVec 128) (m : BitVec 768) (s : State),
    (rindUp s = false ∨ tapNamed s = false ∨ s.dev = .off → Answers (.tapSample bits) s (fun t => CycleOnly s t))
    ∧ (rindUp s = false → Answers .mailboxPoll s (fun t => CycleOnly s t) ∧ Answers (.rindMtcorr m) s (fun t => CycleOnly s t)))
  ∧ (∀ (s : State),
    s.variant.metered = true →
    s.dev ≠ .off →
    Answers (.rindDown true) s (fun t => t.rind.powered = false ∧ t.rind.state = 0 ∧ t.is R.TAP_DATA_RDOWN = true ∧ t.is R.TAP_DATA_VALID = false
      ∧ t.rind.tapOn = false ∧ (s.is R.TAP_DATA_RDOWN = false → t.is R.TAP_STAT_RDOWN_F = true) ∧ t.rind.energy = s.rind.energy
      ∧ RegsKept s t [R.TAP_DATA_RDOWN, R.TAP_DATA_VALID, R.TAP_STAT_RDOWN_F])
    ∧ Answers (.rindDown false) s (fun t => t.rind = s.rind ∧ t.is R.TAP_DATA_RDOWN = true
      ∧ (s.is R.TAP_DATA_RDOWN = false → t.is R.TAP_STAT_RDOWN_F = true)
      ∧ RegsKept s t [R.TAP_DATA_RDOWN, R.TAP_STAT_RDOWN_F]))
  ∧ (∀ (power : Bool) (s : State),
    s.variant.metered = true →
    s.dev = .off →
    Answers (.rindDown power) s (fun t => t.rind.powered = (s.rind.powered && !power) ∧ t.rind.energy = s.rind.energy ∧ RegsKept s t []))

/-! ## CAN (14_can_fd.md) -/

/-- A frame that matches an entry in format, identifier and length, and that passes authentication where the entry asks it,
ends the entry's timeout, is counted and stamped, and makes the entry a writer of each of its signals. Where a move of
entries makes a frame match two, both take it. One of another length is discarded with DLCERR_F, one that fails
authentication with AUTHERR_F; one that matches none, and a remote frame, is ignored. An entry that times out writes its
DEFAULTs. A channel that is not on the bus receives nothing. A frame that carries a service request is no frame of the
catalogue (R395): ServiceMessages says what it does. Where the spec leaves a point open, this follows the choice of
notes/assumptions/60.md. -/
def Obligations.CanReceives : Prop :=
  (∀ (c : Fin 6) (f : CanFrame) (sof : BitVec 32) (x : CanEntry) (s : State),
    Calm s →
    CanFits s →
    canOn s c = true →
    isRequestFrame s c f = false →
    catalogueRuns s = true →
    f.rtr = false →
    (matchEntries s c f).filter (fitsEntry f) = [x] →
    x.auth = false →
    (x.sigs.map (fun g => g.signal)).Nodup →
    Answers (.canFrameRx c f sof) s (fun t => t.is (R.CANE_STAT_TIMEDOUT c x.place) = false ∧ t.regs.get (R.CANE_TS c x.place) = sof
      ∧ t.rd (R.CANE_STAT_FRAMES c x.place) = (s.rd (R.CANE_STAT_FRAMES c x.place) + 1) % 2 ^ (R.CANE_STAT_FRAMES c x.place).width
      ∧ SignalsWritten s t x (fun g => payloadRaw g (leValue (frameBytes f)))
      ∧ Frame s t [whole (R.CANE_TS c x.place), whole (R.CANE_STAT c x.place), whole (R.CAN_STAT c)]))
  ∧ (∀ (c : Fin 6) (f : CanFrame) (sof : BitVec 32) (x : CanEntry) (s : State),
    Calm s →
    CanFits s →
    canOn s c = true →
    isRequestFrame s c f = false →
    catalogueRuns s = true →
    f.rtr = false →
    (matchEntries s c f).filter (fitsEntry f) = [x] →
    x.auth = true →
    (x.sigs.map (fun g => g.signal)).Nodup →
    Answers (.canFrameRx c f sof) s (fun t => if (authentic s x (frameBytes f)).isSome then
        t.is (R.CANE_STAT_TIMEDOUT c x.place) = false ∧ t.regs.get (R.CANE_TS c x.place) = sof
          ∧ SignalsWritten s t x (fun g => payloadRaw g (leValue (frameBytes f)))
      else t.is (R.CAN_FLAGS_AUTHERR_F c) = true ∧ t.rd (R.CAN_ERRS_AUTHERRS c) = min (s.rd (R.CAN_ERRS_AUTHERRS c) + 1) 65535
          ∧ t.ord = s.ord ∧ Frame s t [R.CAN_FLAGS_AUTHERR_F c, R.CAN_ERRS_AUTHERRS c, whole (R.CAN_STAT c)]))
  ∧ (∀ (c : Fin 6) (f : CanFrame) (sof : BitVec 32) (x : CanEntry) (s : State),
    Calm s →
    canOn s c = true →
    isRequestFrame s c f = false →
    catalogueRuns s = true →
    f.rtr = false →
    (matchEntries s c f).head? = some x →
    (matchEntries s c f).filter (fitsEntry f) = [] →
    Answers (.canFrameRx c f sof) s (fun t => t.is (R.CAN_FLAGS_DLCERR_F c) = true ∧ t.ord = s.ord
      ∧ Frame s t [R.CAN_FLAGS_DLCERR_F c, whole (R.CAN_STAT c)]))
  ∧ (∀ (c : Fin 6) (f : CanFrame) (sof : BitVec 32) (s : State),
    Calm s →
    canOn s c = true →
    isRequestFrame s c f = false →
    f.rtr = true ∨ catalogueRuns s = false ∨ matchEntries s c f = [] →
    Answers (.canFrameRx c f sof) s (fun t => t.ord = s.ord ∧ t.can = s.can ∧ Frame s t [whole (R.CAN_STAT c)]))
  ∧ (∀ (c : Fin 6) (f : CanFrame) (sof : BitVec 32) (x y : CanEntry) (s : State),
    Calm s →
    CanFits s →
    canOn s c = true →
    isRequestFrame s c f = false →
    catalogueRuns s = true →
    f.rtr = false →
    (matchEntries s c f).filter (fitsEntry f) = [x, y] →
    x.auth = false →
    y.auth = false →
    x.place ≠ y.place →
    Answers (.canFrameRx c f sof) s (fun t => t.regs.get (R.CANE_TS c x.place) = sof ∧ t.regs.get (R.CANE_TS c y.place) = sof
      ∧ t.is (R.CANE_STAT_TIMEDOUT c x.place) = false ∧ t.is (R.CANE_STAT_TIMEDOUT c y.place) = false
      ∧ Frame s t [whole (R.CANE_TS c x.place), whole (R.CANE_STAT c x.place), whole (R.CANE_TS c y.place), whole (R.CANE_STAT c y.place),
        whole (R.CAN_STAT c)]))
  ∧ (∀ (c : Fin 6) (e : Fin 64) (f : CanFrame) (sof : BitVec 32) (s : State),
    Calm s →
    (canOn s c = false → isRequestFrame s c f = false → Answers (.canFrameRx c f sof) s (fun t => CycleOnly s t))
    ∧ ((findEntry s c e).all (fun x => x.transmit || x.period == 0 || s.is (R.CANE_STAT_TIMEDOUT x.home x.place)) = true →
      Answers (.rxTimeout c e) s (fun t => CycleOnly s t)))
  ∧ (∀ (c : Fin 6) (e : Fin 64) (x : CanEntry) (s : State),
    Calm s →
    CanFits s →
    findEntry s c e = some x →
    s.dev.onward = true →
    x.transmit = false →
    x.period ≠ 0 →
    s.is (R.CANE_STAT_TIMEDOUT x.home x.place) = false →
    (x.sigs.map (fun g => g.signal)).Nodup →
    Answers (.rxTimeout c e) s (fun t => t.is (R.CANE_STAT_TIMEDOUT x.home x.place) = true ∧ t.is (R.CAN_FLAGS_TIMEOUT_F x.home) = true
      ∧ t.rd (R.CAN_ERRS_TIMEOUTS x.home) = min (s.rd (R.CAN_ERRS_TIMEOUTS x.home) + 1) 65535
      ∧ SignalsWritten s t x CanSig.default
      ∧ Frame s t [R.CANE_STAT_TIMEDOUT x.home x.place, R.CAN_FLAGS_TIMEOUT_F x.home, R.CAN_ERRS_TIMEOUTS x.home]))

/-- A periodic frame that falls due joins the queue or the express slot with current values; one still waiting is replaced in
place with TXLATE_F, and a full queue sets TXOVR_F. The first event-driven entry whose values differ from those last sent is
queued. An acknowledged transmission leaves with its entry's identifier, clears ACKRUN and BUS_ALONE, and counts for its
entry; one without acknowledgement stays, and at LONELY_LIMIT the channel is alone and sends only probes, at most one in 100
ms. What no channel has on the bus, and an entry that is not served, changes nothing. Where the spec leaves a point open,
this follows the choice of notes/assumptions/62.md. -/
def Obligations.CanTransmits : Prop :=
  (∀ (c : Fin 6) (e : Fin 64) (b : Option (BitVec 32)) (x : CanEntry) (s : State),
    Calm s →
    CanFits s →
    findEntry s c e = some x →
    x.transmit = true →
    x.period ≠ 0 →
    served s x = true →
    waitingFrames s x = 0 →
    x.express = false →
    Answers (.periodicTxDue c e b) s (fun t =>
      if (getCan s x.home).queue.length < 16 then
        (getCan t x.home).queue = (getCan s x.home).queue ++ [{ assemble s x 0 with came := s.canTime }] ∧ (getCan t x.home).express = (getCan s x.home).express
          ∧ t.rd (R.CAN_TXQ_DEPTH x.home) = (getCan s x.home).queue.length + 1
      else t.can = s.can ∧ t.is (R.CAN_FLAGS_TXOVR_F x.home) = true))
  ∧ (∀ (c : Fin 6) (e : Fin 64) (b : Option (BitVec 32)) (x : CanEntry) (s : State),
    Calm s →
    CanFits s →
    findEntry s c e = some x →
    x.transmit = true →
    x.period ≠ 0 →
    served s x = true →
    waitingFrames s x = 0 →
    x.express = true →
    Answers (.periodicTxDue c e b) s (fun t => (getCan t x.home).express = (getCan s x.home).express ++ [{ assemble s x 0 with came := s.canTime }]
      ∧ (getCan t x.home).queue = (getCan s x.home).queue ∧ t.is (R.CAN_TXQ_XBUSY x.home) = true))
  ∧ (∀ (c : Fin 6) (e : Fin 64) (x : CanEntry) (s : State),
    Calm s →
    CanFits s →
    findEntry s c e = some x →
    x.transmit = true →
    x.period ≠ 0 →
    served s x = true →
    waitingFrames s x ≠ 0 →
    Answers (.periodicTxDue c e none) s (fun t => t.is (R.CAN_FLAGS_TXLATE_F x.home) = true
      ∧ (getCan t x.home).queue = replaceFrame (x.chan, x.pos) (assemble s x 0) (getCan s x.home).queue
      ∧ (getCan t x.home).express = replaceFrame (x.chan, x.pos) (assemble s x 0) (getCan s x.home).express
      ∧ Frame s t [R.CAN_FLAGS_TXLATE_F x.home]))
  ∧ (∀ (c : Fin 6) (e : Fin 64) (x : CanEntry) (sof : BitVec 32) (xp : Bool) (f : TxFrame) (s : State),
    Calm s →
    CanFits s →
    findEntry s c e = some x →
    x.transmit = true →
    x.period ≠ 0 →
    served s x = true →
    (getCan s x.home).onBus (s.sofTime sof.toNat) = some (xp, f) →
    f.entry = some (x.chan, x.pos) →
    x.express = false →
    (getCan s x.home).queue.length < 16 →
    Answers (.periodicTxDue c e (some sof)) s (fun t =>
      if waitingFrames s x = 1 then
        (getCan t x.home).queue = (getCan s x.home).queue ++ [{ assemble s x 1 with came := s.canTime }]
          ∧ (getCan t x.home).express = (getCan s x.home).express
      else t.is (R.CAN_FLAGS_TXLATE_F x.home) = true
          ∧ (getCan t x.home).queue = replaceWaiting (!xp) (x.chan, x.pos) (assemble s x 1) (getCan s x.home).queue
          ∧ (getCan t x.home).express = replaceWaiting xp (x.chan, x.pos) (assemble s x 1) (getCan s x.home).express))
  ∧ (∀ (c : Fin 6) (e : Fin 64) (b : Option (BitVec 32)) (s : State),
    Calm s →
    (findEntry s c e).all (fun x => !(x.transmit && x.period != 0 && served s x)) = true →
    Answers (.periodicTxDue c e b) s (fun t => CycleOnly s t))
  ∧ (∀ (pre post : List CanEntry) (x : CanEntry) (s : State),
    Calm s →
    CanFits s →
    s.can.entries = pre ++ x :: post →
    pre.all (fun y => !eventDue s y) = true →
    eventDue s x = true →
    x.express = true ∨ (getCan s x.home).queue.length < 16 →
    Answers .eventTxCheck s (fun t => { assemble s x 0 with came := s.canTime } ∈ (getCan t x.home).queue ++ (getCan t x.home).express))
  ∧ (∀ (s : State),
    Calm s →
    s.can.entries.all (fun y => !eventDue s y) = true →
    Answers .eventTxCheck s (fun t => t.can = s.can ∧ t.ord = s.ord ∧ Frame s t []))
  ∧ (∀ (c : Fin 6) (sof : BitVec 32) (d : BitVec 7) (xp : Bool) (f : TxFrame) (x : CanEntry) (s : State),
    Calm s →
    CanFits s →
    mayTransmit s c = true →
    (getCan s c).onBus (s.sofTime sof.toNat) = some (xp, f) →
    f.entry = some (x.chan, x.pos) →
    findEntry s x.chan x.pos = some x →
    c ≠ 0 ∨ s.trust.txSegs = [] →
    (frameTdc s c f).all (fun o => decide (d.toNat + o ≤ 127)) = true →
    Answers (.canTxComplete c true sof d) s (fun t => (getCan t c).queue ++ (getCan t c).express
          = (dropSent xp (getCan s c)).queue ++ (dropSent xp (getCan s c)).express
      ∧ t.rd (R.CAN_STAT_ACKRUN c) = 0 ∧ t.is (R.CAN_STAT_BUS_ALONE c) = false ∧ t.rd (R.CAN_STAT_TEC c) = s.rd (R.CAN_STAT_TEC c) - 1
      ∧ (findEntry t x.chan x.pos).map (fun y => y.sent) = some (some f.vals) ∧ t.regs.get (R.CANE_TS x.home x.place) = sof
      ∧ t.rd (R.CAN_TXQ_DEPTH c) = (dropSent xp (getCan s c)).queue.length % 32 ∧ (getCan t c).probing = false
      ∧ (getCan t c).out = some (x.id, x.ide, f.data)))
  ∧ (∀ (c : Fin 6) (sof : BitVec 32) (d : BitVec 7) (xp : Bool) (f : TxFrame) (s : State),
    Calm s →
    CanFits s →
    mayTransmit s c = true →
    (getCan s c).onBus (s.sofTime sof.toNat) = some (xp, f) →
    (frameTdc s c f).all (fun o => decide (d.toNat + o ≤ 127)) = true →
    s.rd (R.CAN_STAT_STATE c) = 2 ∨ tecFull s c = false →
    Answers (.canTxComplete c false sof d) s (fun t => (getCan t c).queue = (getCan s c).queue ∧ (getCan t c).express = (getCan s c).express
      ∧ t.rd (R.CAN_STAT_ACKRUN c) = min (s.rd (R.CAN_STAT_ACKRUN c) + 1) 255
      ∧ (s.rd (R.CAN_CFG_LONELY_LIMIT c) ≤ s.rd (R.CAN_STAT_ACKRUN c) + 1 → s.is (R.CAN_STAT_BUS_ALONE c) = false →
          t.is (R.CAN_STAT_BUS_ALONE c) = true ∧ t.is (R.CAN_FLAGS_ALONE_F c) = true)
      ∧ t.rd (R.CAN_STAT_TEC c) = (if s.rd (R.CAN_STAT_STATE c) = 2 then s.rd (R.CAN_STAT_TEC c) else min (s.rd (R.CAN_STAT_TEC c) + 8) 255)
      ∧ (getCan t c).probing = false ∧ Frame s t [whole (R.CAN_STAT c), R.CAN_FLAGS_ALONE_F c, R.CAN_TDC_TDCV c]))
  ∧ (∀ (c : Fin 6) (a : Bool) (sof : BitVec 32) (d : BitVec 7) (xp : Bool) (f : TxFrame) (o : Nat) (s : State),
    Calm s →
    CanFits s →
    mayTransmit s c = true →
    (getCan s c).onBus (s.sofTime sof.toNat) = some (xp, f) →
    frameTdc s c f = some o →
    127 < d.toNat + o →
    tecFull s c = false →
    Answers (.canTxComplete c a sof d) s (fun t => (getCan t c).queue = (getCan s c).queue ∧ (getCan t c).express = (getCan s c).express
      ∧ t.rd (R.CAN_TDC_TDCV c) = d.toNat ∧ t.rd (R.CAN_STAT_TEC c) = s.rd (R.CAN_STAT_TEC c) + 8 ∧ (getCan t c).probing = false))
  ∧ (∀ (c : Fin 6) (s : State),
    Calm s →
    CanFits s →
    mayProbe s c = true →
    Answers (.lonelyProbe c) s (fun t => (getCan t c).probing = true ∧ (getCan t c).probedAt = some s.time.vt
      ∧ (getCan t c).queue = (getCan s c).queue ∧ (getCan t c).express = (getCan s c).express ∧ Frame s t []))
  ∧ (∀ (c : Fin 6) (a : Bool) (sof : BitVec 32) (d : BitVec 7) (s : State),
    Calm s →
    (mayProbe s c = false → Answers (.lonelyProbe c) s (fun t => CycleOnly s t))
    ∧ (mayTransmit s c = false ∨ (getCan s c).onBus (s.sofTime sof.toNat) = none → Answers (.canTxComplete c a sof d) s (fun t => CycleOnly s t)))

/-- An error raises TEC or REC as ISO 11898-1 says, and 128 makes the channel error-passive; one that ends a transmission
measures its loop delay where TDC asks it and it has got so far. An error that takes TEC past 255 is bus-off, which is
counted and recovers to error-active with cleared counters; the RETMAX-th within 60 s retires the channel, whose waiting
frames are cancelled and, at the next boundary, join channel ALT with its entries, unless there is none or it is retired. A
channel that is off, restricted or listening counts no error, and what is not due changes nothing. Where the spec leaves a
point open, this follows the choice of notes/assumptions/61.md. -/
def Obligations.CanErrorsAndRetirement : Prop :=
  (∀ (c : Fin 6) (k : CanErr) (s : State),
    Calm s →
    canOn s c = true →
    canMode s c = 1 →
    s.rd (R.CAN_STAT_STATE c) ≠ 0 →
    k = .receive ∨ k = .receiveFirst →
    Answers (.canErrorDetected c k) s (fun t =>
      t.rd (R.CAN_STAT_TEC c) = s.rd (R.CAN_STAT_TEC c)
      ∧ t.rd (R.CAN_STAT_REC c) = min (s.rd (R.CAN_STAT_REC c) + (if k = .receive then 1 else 8)) 255
      ∧ t.rd (R.CAN_STAT_STATE c) = (if 128 ≤ t.rd (R.CAN_STAT_TEC c) ∨ 128 ≤ t.rd (R.CAN_STAT_REC c) then 2 else 1)
      ∧ Frame s t [R.CAN_STAT_REC c, R.CAN_STAT_STATE c]))
  ∧ (∀ (c : Fin 6) (sof : BitVec 32) (d : Option (BitVec 7)) (s : State),
    Calm s →
    canOn s c = true →
    canMode s c = 1 →
    s.rd (R.CAN_STAT_STATE c) ≠ 0 →
    tecFull s c = false →
    Answers (.canErrorDetected c (.transmit sof d)) s (fun t =>
      t.rd (R.CAN_STAT_TEC c) = s.rd (R.CAN_STAT_TEC c) + 8 ∧ t.rd (R.CAN_STAT_REC c) = s.rd (R.CAN_STAT_REC c)
      ∧ t.rd (R.CAN_STAT_STATE c) = (if 128 ≤ t.rd (R.CAN_STAT_TEC c) ∨ 128 ≤ t.rd (R.CAN_STAT_REC c) then 2 else 1)
      ∧ t.rd (R.CAN_TDC_TDCV c) = (match d, (getCan s c).onBus (s.sofTime sof.toNat) with
        | some x, some (_, f) => if (frameTdc s c f).isSome then x.toNat else s.rd (R.CAN_TDC_TDCV c)
        | _, _ => s.rd (R.CAN_TDC_TDCV c))
      ∧ Frame s t [R.CAN_STAT_TEC c, R.CAN_STAT_STATE c, R.CAN_TDC_TDCV c]))
  ∧ (∀ (c : Fin 6) (s : State),
    Calm s →
    CanFits s →
    canOn s c = true →
    canMode s c = 1 →
    tecFull s c = true →
    s.rd (R.CAN_CFG_RETMAX c) = 0 →
    ∀ i ∈ [Instr.busOff c, .canErrorDetected c (.transmit 0 none)], Answers i s (fun t => t.rd (R.CAN_STAT_TEC c) = 255 ∧ t.rd (R.CAN_STAT_STATE c) = 3 ∧ t.is (R.CAN_FLAGS_BOFF_F c) = true
      ∧ t.rd (R.CAN_CNT_BOFFS c) = min (s.rd (R.CAN_CNT_BOFFS c) + 1) 65535 ∧ (getCan t c).queue = (getCan s c).queue
      ∧ (getCan t c).express = (getCan s c).express ∧ Frame s t [R.CAN_STAT_STATE c, R.CAN_STAT_TEC c, R.CAN_FLAGS_BOFF_F c, R.CAN_CNT_BOFFS c]))
  ∧ (∀ (c : Fin 6) (s : State),
    Calm s →
    CanFits s →
    canOn s c = true →
    canMode s c = 1 →
    tecFull s c = true →
    s.dev ≠ .recovery →
    s.rd (R.CAN_CFG_RETMAX c) ≠ 0 →
    s.rd (R.CAN_CFG_RETMAX c) ≤ ((getCan s c).boffs.filter (fun t => decide (s.time.vt < t + 60000000000))).length + 1 →
    Answers (.busOff c) s (fun t => t.rd (R.CAN_STAT_STATE c) = 3 ∧ t.is (R.CAN_STAT_RETIRED c) = true ∧ t.is (R.CAN_FLAGS_RETIRE_F c) = true
      ∧ (getCan t c).queue = [] ∧ (getCan t c).express = [] ∧ (getCan t c).cancelled = (getCan s c).queue.filter (fun f => f.entry.isSome)
      ∧ (getCan t c).cancelledX = (getCan s c).express ∧ t.rdBit R.OWN_DEG_DEG_CAUSE 5 = true))
  ∧ (∀ (c : Fin 6) (s : State),
    Calm s →
    s.rdBit R.CLK_STAT_GOOD 5 = true →
    s.rd (R.CAN_STAT_STATE c) = 3 →
    s.is (R.CAN_STAT_RETIRED c) = false →
    Answers (.busOffRecovery c) s (fun t => t.rd (R.CAN_STAT_STATE c) = 1 ∧ t.rd (R.CAN_STAT_TEC c) = 0 ∧ t.rd (R.CAN_STAT_REC c) = 0
      ∧ t.can = s.can ∧ Frame s t [R.CAN_STAT_STATE c, R.CAN_STAT_TEC c, R.CAN_STAT_REC c]))
  ∧ (∀ (c : Fin 6) (a : Fin 6) (s : State),
    Calm s →
    CanFits s →
    s.is (R.CAN_STAT_RETIRED c) = true →
    (getCan s c).moved = false →
    (getCan s c).alt = some a.val →
    s.is (R.CAN_STAT_RETIRED a) = false →
    (getCan s a).queue.length + (getCan s c).cancelled.length ≤ 16 →
    a ≠ c →
    Answers (.entryMove c) s (fun t => (getCan t c).moved = true ∧ (getCan t c).cancelled = []
      ∧ (getCan t a).queue = (getCan s a).queue ++ (getCan s c).cancelled.map (fun f => { f with came := s.canTime })
      ∧ (getCan t a).express = (getCan s a).express ++ (getCan s c).cancelledX.map (fun f => { f with came := s.canTime })
      ∧ t.can.entries.map (fun x => (x.chan, x.pos, x.sigs)) = s.can.entries.map (fun x => (x.chan, x.pos, x.sigs))
      ∧ t.can.entries.all (fun x => x.home != c.val) = true))
  ∧ (∀ (c : Fin 6) (s : State),
    Calm s →
    CanFits s →
    s.is (R.CAN_STAT_RETIRED c) = true →
    (getCan s c).moved = false →
    (getCan s c).alt.all (fun a => s.is (R.CAN_STAT_RETIRED a)) = true →
    Answers (.entryMove c) s (fun t => (getCan t c).moved = true ∧ (getCan t c).cancelled = [] ∧ t.can.entries = s.can.entries ∧ Frame s t []))
  ∧ (∀ (c : Fin 6) (k : CanErr) (s : State),
    Calm s →
    (canOn s c = false ∨ canMode s c ≠ 1 → Answers (.canErrorDetected c k) s (fun t => CycleOnly s t))
    ∧ (canOn s c = false ∨ canMode s c ≠ 1 ∨ tecFull s c = false → Answers (.busOff c) s (fun t => CycleOnly s t))
    ∧ (s.rdBit R.CLK_STAT_GOOD 5 = false ∨ s.rd (R.CAN_STAT_STATE c) ≠ 3 ∨ s.is (R.CAN_STAT_RETIRED c) = true →
      Answers (.busOffRecovery c) s (fun t => CycleOnly s t))
    ∧ (s.is (R.CAN_STAT_RETIRED c) = false ∨ (getCan s c).moved = true → Answers (.entryMove c) s (fun t => CycleOnly s t)))

/-! ## Ethernet and time (15_network_time.md) -/

/-- A received frame is learned by its source, stamped, and given to the ports its destination calls for: a port that is free
starts it, a busy one keeps it in the queue of its PCP; an errored one is counted and goes nowhere. A PTP message reaches the
host, and with ROLE 0 passes between the ports corrected. A head that is due launches at its port's turn, or is late by the
rules of LATEWIN and LATEMODE, or is dropped where the link is lost. The source of restoration frames sends on every port
with a link; the protocol's messages are sent where its state calls for them, each type with a sequence of its own on each
port, and a delay request is answered; an aged address leaves the table. What is not due, or has no link, changes nothing.
Where the spec leaves a point open, this follows the choice of notes/assumptions/70.md and notes/assumptions/71.md. -/
def Obligations.NetworkFrames : Prop :=
  (∀ (p : Fin 2) (f : List Byte) (bad : Bool) (res : Nat) (r : PtpResult) (s : State),
    Calm s →
    linkUp s p = true →
    ethFrameGood bad f = false →
    Answers (.ethFrameRx p f bad res r) s (fun t => t.rd (R.ETH_STAT_RXERRS p) = min (s.rd (R.ETH_STAT_RXERRS p) + 1) 65535
      ∧ t.is (R.ETH_STAT_RXERR_F p) = true ∧ t.net = s.net ∧ Frame s t [R.ETH_STAT_RXERRS p, R.ETH_STAT_RXERR_F p]))
  ∧ (∀ (p : Fin 2) (f : List Byte) (res : Nat) (r : PtpResult) (s : State),
    Calm s →
    NetFits s →
    linkUp s p = true →
    ethFrameGood false f = true →
    s.rd R.PTP_CFG_ROLE = 2 ∨ ptpOffset s f = none →
    ownDomain s f = false →
    netRuns s = false ∨ restPayload s f = none →
    Answers (.ethFrameRx p f false res r) s (fun t =>
      (∀ q : Fin 3, if (egress (learn s p f) p f).contains q.val then SentOn s t q { frame := f }
        else nth t.net.out q [] = nth s.net.out q [] ∧ ∀ i : Fin 8, nth t.net.waiting (8 * q + i) [] = nth s.net.waiting (8 * q + i) [])
      ∧ (fieldBe f 6 1 % 2 = 0 → (eraseKey (fieldBe f 6 6) s.net.table).length < 256 →
        lookupKey (fieldBe f 6 6) t.net.table = some (p.val, s.time.vt))
      ∧ nth t.net.rxStamp p 0 = (ingressStamp s p res).toNat
      ∧ t.net = { s.net with
        table := t.net.table, out := t.net.out, rxStamp := t.net.rxStamp, txStamp := t.net.txStamp, freeAt := t.net.freeAt, waiting := t.net.waiting } ∧ Frame s t []))
  ∧ (∀ (p : Fin 2) (f : List Byte) (res o : Nat) (r : PtpResult) (s : State),
    Calm s →
    NetFits s →
    linkUp s p = true →
    ethFrameGood false f = true →
    s.rd R.PTP_CFG_ROLE = 0 →
    ptpOffset s f = some o →
    (egress (learn s p f) p f).contains (1 - p) = true →
    Answers (.ethFrameRx p f false res r) s (fun t => SentOn s t 2 { frame := f }
      ∧ SentOn s t (1 - p) { frame := f, since := some (p, ingressStamp s p res) }))
  ∧ (∀ (f : List Byte) (p stamp o : Nat) (since : Int) (s : State),
    (fieldBe f o 1 % 16 = 0 ∧ bitOf (fieldBe f (o + 6) 1) 1 = false) ∨ fieldBe f o 1 % 16 = 1 →
    throughClock s p since stamp f o = (s, correct s f o ((stamp : Int) - since
      + (if fieldBe f o 1 % 16 = 0 ∧ s.is R.PTP_CFG_DELAY = true then nth s.net.linkDelay p 0 else 0 : Nat))))
  ∧ (∀ (p : Fin 2) (q : Fin 8) (l : Nat) (f : List Byte) (rest : List (Nat × List Byte)) (s : State),
    Calm s →
    NetFits s →
    macsRun s = true →
    linkUp s p = false ∨ (portFree s p = true ∧ roomAbove s p q f = true) →
    nth s.net.ltq (8 * p + q) [] = (l, f) :: rest →
    l ≤ s.nt + 8 →
    Answers (.launchTimeDue p q) s (fun t => nth t.net.ltq (8 * p + q) [] = rest
      ∧ nth t.net.out p [] = (if linkUp s p && (decide (lateness s p l ≤ max 8 (s.rd (R.ETH_LTQ_LATEWIN p q) * 1000))
          || s.is (R.ETH_LTQ_LATEMODE p q)) then (stampOwn s p (egressStamp s p) f).1 else nth s.net.out p [])
      ∧ t.rd (R.ETH_LTQ_LATES p q) = (if linkUp s p && decide (lateness s p l ≤ max 8 (s.rd (R.ETH_LTQ_LATEWIN p q) * 1000))
          then s.rd (R.ETH_LTQ_LATES p q) else min (s.rd (R.ETH_LTQ_LATES p q) + 1) 65535)
      ∧ Frame s t [R.ETH_LTQ_LATES p q]))
  ∧ (∀ (p : Fin 2) (q : Fin 8) (f : List Byte) (bad : Bool) (res : Nat) (r : PtpResult) (s : State),
    Calm s →
    (macsRun s = false ∨ (nth s.net.ltq (8 * p + q) []).head?.all (fun e => decide (s.nt + 8 < e.1)) = true
        ∨ (linkUp s p = true ∧ (portFree s p = false ∨ (nth s.net.ltq (8 * p + q) []).head?.all (fun e => !roomAbove s p q e.2) = true))
          → Answers (.launchTimeDue p q) s (fun t => CycleOnly s t))
    ∧ (linkUp s p = false → Answers (.ethFrameRx p f bad res r) s (fun t => CycleOnly s t)))
  ∧ (∀ (p : Fin 8) (v : Vat) (s : State),
    Calm s →
    Fits s →
    s.owner = some v →
    ownerRuns s = true →
    netRuns s = true →
    s.dev.onward = true →
    gridPort s v p = true →
    s.is (R.GRID_REST_RSRC v p) = true →
    s.net.ltq.length = 16 →
    linkUp s 0 = true →
    s.is (R.ETH_LTQ_LT_EN 0 (s.rd R.REST_Q_REST_Q)) = true →
    Answers (.restorationBroadcast p) s (fun t => (∀ x : Vat, s.hasVat x = true →
          (getGuard t x p).dfrNext = dfrNext s v p ∧ (getGuard t x p).seqOut = ((getGuard s v p).seqOut + 1) % 2 ^ 16)
      ∧ (nth t.net.ltq (s.rd R.REST_Q_REST_Q) []).map (fun e => e.1)
          = (nth s.net.ltq (s.rd R.REST_Q_REST_Q) []).map (fun e => e.1) ++ [s.nt + s.rd R.REST_Q_REST_LNCH * 1000]))
  ∧ (∀ (p : Fin 8) (s : State),
    Calm s →
    ownerRuns s = false ∨ netRuns s = false ∨ s.dev.onward = false ∨ s.owner.all (fun v => !(gridPort s v p && s.is (R.GRID_REST_RSRC v p))) = true →
    Answers (.restorationBroadcast p) s (fun t => CycleOnly s t))
  ∧ (∀ (m : PtpMessage) (s : State),
    Calm s →
    NetFits s →
    ptpRuns s = true →
    Answers (.ptpMessageInterval m) s (fun t =>
      (∀ i : Fin 8, nth t.net.sent i 0 = (if (messagePorts s m).any (fun q => seqPool s q m == i.val) then
        (nth s.net.sent i 0 + 1) % 65536 else nth s.net.sent i 0))
      ∧ (∀ q : Fin 2, q.val ∈ messagePorts s m → SentOn s t q { frame := intervalFrame s q m })
      ∧ t.net = { s.net with
        sent := t.net.sent, table := t.net.table, out := t.net.out, txStamp := t.net.txStamp, freeAt := t.net.freeAt, waiting := t.net.waiting }
      ∧ Frame s t []))
  ∧ (∀ (p : Fin 2) (f : List Byte) (res o : Nat) (s : State),
    Calm s →
    NetFits s →
    linkUp s p = true →
    ptpRuns s = true →
    ethFrameGood false f = true →
    ownDomain s f = true →
    ptpOffset s f = some o →
    restPayload s f = none →
    (fieldBe f o 1 % 16 = 1 ∧ s.is R.PTP_CFG_DELAY = false ∧ s.net.role = .master) ∨ (fieldBe f o 1 % 16 = 2 ∧ s.is R.PTP_CFG_DELAY = true) →
    Answers (.ethFrameRx p f false res .nothing) s (fun t =>
      let body := ptpTime (ingressStamp s p res).toNat ++ (f.drop (o + 20)).take 10
      SentOn s t p { frame := (if s.is R.PTP_CFG_DELAY then
          ptpFrame s p 3 (!s.is R.PTP_CFG_ONESTEP) (fieldBe f (o + 8) 8) (fieldBe f (o + 30) 2) 127 body
        else ptpFrame s p 9 false (fieldBe f (o + 8) 8) (fieldBe f (o + 30) 2) (s.rd R.PTP_INT_LOGDREQ) body) }))
  ∧ (∀ (m : PtpMessage) (s : State),
    Calm s →
    ptpRuns s = false →
    Answers (.ptpMessageInterval m) s (fun t => CycleOnly s t))
  ∧ (∀ (mac : BitVec 48) (s : State),
    Calm s →
    (addressAged s mac.toNat = true → Answers (.addressAgeing mac) s (fun t => lookupKey mac.toNat t.net.table = none
        ∧ t.net = { s.net with table := eraseKey mac.toNat s.net.table } ∧ Frame s t []))
    ∧ (addressAged s mac.toNat = false → Answers (.addressAgeing mac) s (fun t => CycleOnly s t)))

/-- Without NT_SYNC an offset beyond STEPTHR steps NT, any other sets NT_FREQ within 500 ppm; the sixteenth offset in a row
within SYNC_THR sets NT_SYNC. STEP_GO steps NT only without NT_SYNC and with domain N released. The best master clock
algorithm chooses the role anew at an Announce and where Announces fail to come; a message that comes while no supervisor
runs is held with its timestamp. A loss of Sync messages, or of the last link, clears NT_SYNC and NT holds over. A request
captures all four bases together; each ms NT and PT are captured for conversion; PPS_OUT rises as OMODE allows. A request
while the device is off, a loss of what is not there, or a link that may not rise, changes nothing. Where the spec leaves a
point open, this follows the choice of notes/assumptions/71.md and notes/assumptions/72.md. -/
def Obligations.NetworkTimeDisciplined : Prop :=
  (∀ (p : Fin 2) (f : List Byte) (res : Nat) (ns : Int) (w : BitVec 32) (s : State),
    Disciplined s p f false →
    s.is R.NT_STAT_SYNC = false →
    s.rd R.SYNC_CFG_STEPTHR * 1000 < ns.natAbs →
    s.rd R.SYNC_CFG_SYNC_THR < ns.natAbs →
    .N ∈ s.rst.released →
    Answers (.ethFrameRx p f false res (.offset ns w)) s (fun t => t.nt = unsignedOf 64 ((s.nt : Int) + signedOf 64 (unsignedOf 64 (-ns)))
      ∧ t.is R.NT_STAT_STEP_F = true ∧ t.rd R.NT_STAT_STEPS = min (s.rd R.NT_STAT_STEPS + 1) 255
      ∧ t.is R.NT_STAT_SYNC = false ∧ t.rd R.NT_FREQ_VAL = s.rd R.NT_FREQ_VAL ∧ t.time.vt = s.time.vt ∧ t.time.ptQ = s.time.ptQ))
  ∧ (∀ (p : Fin 2) (f : List Byte) (res : Nat) (ns : Int) (w : BitVec 32) (s : State),
    Disciplined s p f false →
    s.is R.NT_STAT_SYNC = true ∨ ns.natAbs ≤ s.rd R.SYNC_CFG_STEPTHR * 1000 →
    Answers (.ethFrameRx p f false res (.offset ns w)) s (fun t => t.signedRd R.NT_FREQ_VAL = clampInt (-549755813) 549755813 (signedOf 32 w.toNat)
      ∧ t.time = s.time
      ∧ (s.is R.NT_STAT_SYNC = false → t.is R.NT_STAT_SYNC = (decide (ns.natAbs ≤ s.rd R.SYNC_CFG_SYNC_THR) && decide (15 ≤ s.net.inRow)))
      ∧ (s.is R.NT_STAT_SYNC = true → t.is R.NT_STAT_SYNC = (decide (ns.natAbs ≤ s.rd R.SYNC_CFG_SYNC_THR) || decide (s.net.outRow < 2)))
      ∧ t.is R.NT_STAT_HOLD = !t.is R.NT_STAT_SYNC))
  ∧ (∀ (s : State),
    Calm s →
    s.dev ≠ .off →
    s.is R.NT_STAT_SYNC = false →
    .N ∈ s.rst.released →
    Answers .stepGo s (fun t => t.nt = unsignedOf 64 ((s.nt : Int) + ntStep s) ∧ t.is R.NT_STAT_STEP_F = true
      ∧ t.rd R.NT_STAT_STEPS = min (s.rd R.NT_STAT_STEPS + 1) 255 ∧ t.time = { s.time with ntQ := t.time.ntQ }
      ∧ RegsKept s t [R.NT_STAT_STEP_F, R.NT_STAT_STEPS]))
  ∧ (∀ (s : State),
    Calm s →
    s.is R.NT_STAT_SYNC = true →
    Answers .stepGo s (fun t => t.net = s.net ∧ Frame s t [])
    ∧ Answers .ntSyncLoss s (fun t => t.is R.NT_STAT_SYNC = false ∧ t.is R.NT_STAT_HOLD = true ∧ t.is R.NT_STAT_SYNCLOSS_F = true
      ∧ t.time = s.time ∧ t.rd R.NT_FREQ_VAL = s.rd R.NT_FREQ_VAL))
  ∧ (∀ (p : Fin 2) (s : State),
    Calm s →
    ptpRuns s = true →
    Answers (.announceReceiptTimeout p) s (fun t =>
      let r := bestRole (dropForeign s p)
      t.net.role = r ∧ t.net.foreign = modNth s.net.foreign p (fun _ => none)
      ∧ t.is R.NT_STAT_GM = decide (r = .master)
      ∧ t.is R.NT_STAT_SYNC = (s.is R.NT_STAT_SYNC || (decide (r = .master) && s.is R.PTP_CFG_GM_OK))
      ∧ t.is R.NT_STAT_HOLD = (!(decide (r = .master) && s.is R.PTP_CFG_GM_OK) && (s.is R.NT_STAT_HOLD || decide (s.net.role = .slave p)))
      ∧ Frame s t [R.NT_STAT_GM, R.NT_STAT_HOLD, R.NT_STAT_SYNC]))
  ∧ (∀ (p : Fin 2) (f : List Byte) (res o : Nat) (s : State),
    Calm s →
    s.net.foreign.length = 2 →
    linkUp s p = true →
    ptpRuns s = true →
    ethFrameGood false f = true →
    ownDomain s f = true →
    ptpOffset s f = some o →
    fieldBe f o 1 % 16 = 11 →
    restPayload s f = none →
    Answers (.ethFrameRx p f false res .nothing) s (fun t =>
      nth t.net.foreign p none = (if takesForeign s p (announcedSet f o) then some (announcedSet f o) else nth s.net.foreign p none)
      ∧ nth t.net.foreign (1 - p) none = nth s.net.foreign (1 - p) none ∧ t.net.role = bestRole t
      ∧ t.is R.NT_STAT_GM = decide (t.net.role = .master) ∧ t.time = s.time))
  ∧ (∀ (p : Fin 2) (f : List Byte) (res : Nat) (r : PtpResult) (s : State),
    Calm s →
    linkUp s p = true →
    netRuns s = true →
    s.rd R.PTP_CFG_ROLE < 2 →
    ownerRuns s = false →
    ethFrameGood false f = true →
    ownDomain s f = true →
    restPayload s f = none →
    Answers (.ethFrameRx p f false res r) s (fun t =>
      t.net.held = s.net.held ++ [⟨p, f, (ingressStamp s p res).toNat, r⟩] ∧ t.time = s.time ∧ t.net.role = s.net.role))
  ∧ (∀ (p : Fin 2) (s : State),
    Calm s →
    s.is (R.ETH_STAT_LINK p) = true →
    Answers (.ethLinkLoss p) s (fun t => t.is (R.ETH_STAT_LINK p) = false ∧ t.is (R.ETH_STAT_LINKDN_F p) = true
      ∧ t.is R.NT_STAT_SYNC = (s.is R.NT_STAT_SYNC && s.is (R.ETH_STAT_LINK (1 - p.val)))
      ∧ t.rd (R.ETH_STAT_LINK (1 - p.val)) = s.rd (R.ETH_STAT_LINK (1 - p.val)) ∧ nth t.net.foreign p none = none ∧ t.time = s.time))
  ∧ (∀ (p : Fin 2) (x : BitVec 2) (s : State),
    Calm s →
    macsRun s = true →
    s.is (R.ETH_CFG_EN p) = true →
    Answers (.ethLinkUp p x) s (fun t => t.is (R.ETH_STAT_LINK p) = true
      ∧ t.rd (R.ETH_STAT_SPNOW p) = (if s.is (R.ETH_CFG_SPEED p) then s.rd (R.ETH_CFG_SPEED p) else x.toNat) ∧ t.net = s.net
      ∧ t.is R.NT_STAT_SYNC = (s.is R.NT_STAT_SYNC || (decide (s.net.role = .master) && s.is R.NT_STAT_GM && s.is R.PTP_CFG_GM_OK))
      ∧ Frame s t [R.ETH_STAT_LINK p, R.ETH_STAT_SPNOW p, R.NT_STAT_SYNC, R.NT_STAT_HOLD]))
  ∧ (∀ (s : State),
    Calm s →
    s.dev ≠ .off →
    Answers .ctsReq s (fun t => Captured s t true false ∧ Frame s t captureFields)
    ∧ Answers .internalCrossCapture s (fun t => t.time = { s.time with caps := (s.nt, s.pt) :: s.time.caps.take 1 } ∧ RegsKept s t []))
  ∧ (∀ (p : Fin 2) (x : BitVec 2) (s : State),
    Calm s →
    (s.dev = .off → Answers .stepGo s (fun t => CycleOnly s t) ∧ Answers .ctsReq s (fun t => CycleOnly s t)
      ∧ Answers .internalCrossCapture s (fun t => CycleOnly s t))
    ∧ (s.is R.NT_STAT_SYNC = false → Answers .ntSyncLoss s (fun t => CycleOnly s t))
    ∧ (ptpRuns s = false → Answers (.announceReceiptTimeout p) s (fun t => CycleOnly s t))
    ∧ (s.is (R.ETH_STAT_LINK p) = false → Answers (.ethLinkLoss p) s (fun t => CycleOnly s t))
    ∧ (macsRun s = false ∨ s.is (R.ETH_CFG_EN p) = false → Answers (.ethLinkUp p x) s (fun t => CycleOnly s t)))
  ∧ (∀ (s : State),
    Calm s →
    Answers .ppsOutSecond s (fun t => t.net = { s.net with ppsEnd :=
        (if macsRun s && (s.rd R.PPS_CFG_OMODE == 1 || (s.rd R.PPS_CFG_OMODE == 2 && s.is R.NT_STAT_SYNC))
        then some (s.time.vt + s.rd R.PPS_CFG_PPSW * 1000000) else s.net.ppsEnd) }
      ∧ Frame s t []))

/-- R351. Whatever edge comes, the time bases and everything outside the capture registers and PPS_STAT stay as they are,
apart from the record of the flag and what the cycle itself does; an accepted edge sets PPSIN_F, counts, and takes a capture
where PPSCAP = 1, one capture for a request in the same cycle. -/
def Obligations.PpsInOnlyCaptures : Prop :=
  (∀ (rise req : Bool) (s : State),
    Calm s →
    Answers (.ppsInEdge rise req) s (fun t => t.time = s.time ∧ t.rd R.NT_FREQ_VAL = s.rd R.NT_FREQ_VAL
      ∧ Frame s t (captureFields ++ [R.PPS_STAT_PPSIN_F, R.PPS_STAT_PPSINS])
      ∧ cycleRest { t with net := s.net } = cycleRest s ∧ t.net = { s.net with ppsIn := t.net.ppsIn }))
  ∧ (∀ (rise req : Bool) (s : State),
    Calm s →
    s.dev ≠ .off →
    ppsAccepted s rise = true →
    Answers (.ppsInEdge rise req) s (fun t => t.is R.PPS_STAT_PPSIN_F = true
      ∧ t.rd R.PPS_STAT_PPSINS = (s.rd R.PPS_STAT_PPSINS + 1) % 65536
      ∧ (s.is R.CTS_CTL_PPSCAP = true → Captured s t req true) ∧ (s.is R.CTS_CTL_PPSCAP = false → req = true → Captured s t true false)))
  ∧ (∀ (rise : Bool) (s : State),
    Calm s →
    s.dev ≠ .off →
    ppsAccepted s rise = false →
    Answers (.ppsInEdge rise false) s (fun t => t.net = s.net ∧ Frame s t []))

/-! ## The service path (18_trust_and_access.md) -/

/-- Segments in order collect into a message; one out of order, or a time-out, discards it with STATUS 2. A complete message
outside a session is held as the request, and so is one of the session whose CTR is the next and whose tag is right; any
other gets STATUS 3. A command that the lifecycle, the sender's levels or the device state do not allow gets STATUS 1 or 3
and does nothing. HELLO answers with a fresh key and nonce, AUTH opens a session where its checks pass, END and 60 s of
silence end it. A command whose request is not held does nothing. Where the spec leaves a point open, this follows the choice
of notes/assumptions/91.md. -/
def Obligations.ServiceMessages : Prop :=
  (∀ (seg : BitVec 512) (s : State),
    Calm s →
    serviceRuns s = true →
    s.trust.request = none →
    (nth (segmentBytes seg) 0 0).toNat = s.trust.rxNext % 128 →
    s.trust.rxNext < 66 →
    Answers (.serviceSegment seg) s (fun t => t.trust = { s.trust with rxNext := s.trust.rxNext + 1, rxBytes := s.trust.rxBytes ++ (segmentBytes seg).drop 1 }
      ∧ t.mem = s.mem ∧ t.nv = s.nv ∧ RegsKept s t [whole (R.CAN_STAT 0)]))
  ∧ (∀ (seg : BitVec 512) (s : State),
    Calm s →
    CanFits s →
    serviceRuns s = true →
    s.trust.request = none →
    (nth (segmentBytes seg) 0 0).toNat % 128 ≠ s.trust.rxNext % 128 ∨ 66 ≤ s.trust.rxNext →
    Answers (.serviceSegment seg) s (fun t => Responded t (nth s.trust.rxBytes 2 0).toNat 2 [] ∧ t.trust.rxNext = 0 ∧ t.trust.rxBytes = []
      ∧ ServiceFrame s t [whole (R.CAN_STAT 0)]))
  ∧ (∀ (seg : BitVec 512) (m : List Byte) (s : State),
    Calm s →
    serviceRuns s = true →
    s.trust.request = none →
    (nth (segmentBytes seg) 0 0).toNat = s.trust.rxNext % 128 + 128 →
    s.trust.rxNext < 66 →
    m = s.trust.rxBytes ++ (segmentBytes seg).drop 1 →
    leValue ((m.drop 4).take 8) = 0 →
    leValue (m.take 2) ≤ 4096 →
    (12 + leValue (m.take 2) + 62) / 63 = s.trust.rxNext + 1 →
    knownCommands.contains (nth m 2 0).toNat = true →
    Answers (.serviceSegment seg) s (fun t => t.trust = { s.trust with rxNext := 0, rxBytes := [], request := some ⟨(nth m 2 0).toNat, 0, (m.drop 12).take (leValue (m.take 2)), false⟩ }))
  ∧ (∀ (seg : BitVec 512) (m : List Byte) (q : Session) (len ctr : Nat) (s : State),
    Calm s →
    CanFits s →
    serviceRuns s = true →
    s.trust.request = none →
    s.trust.rxNext = 0 →
    (nth (segmentBytes seg) 0 0).toNat = 128 →
    m = s.trust.rxBytes ++ (segmentBytes seg).drop 1 →
    leValue (m.take 2) = len →
    leValue ((m.drop 4).take 8) = ctr →
    ctr ≠ 0 →
    (12 + len + 16 + 62) / 63 = 1 →
    s.trust.session = some q →
    knownCommands.contains (nth m 2 0).toNat = true →
    Answers (.serviceSegment seg) s (fun t =>
      match (if ctr = q.ctrIn + 1 && cryptoRuns s then gcmOpen (beBytes 32 q.key.toNat) (gcmIv 0 ctr) (m.take 12) ((m.drop 12).take len)
        (((m.drop 12).take (len + 16)).drop len) else none) with
      | some b => t.trust = { s.trust with rxNext := 0, rxBytes := [], request := some ⟨(nth m 2 0).toNat, ctr, b, true⟩, session := some { q with ctrIn := ctr } }
      | none => Responded t (nth m 2 0).toNat 3 [] ∧ t.is R.TRUST_FLAGS_AUTHFAIL_F = true ∧ t.trust.session = s.trust.session))
  ∧ (∀ (s : State),
    Calm s →
    (s.trust.session = none → Answers .sessionIdleTimeout s (fun t => CycleOnly s t))
    ∧ (serviceRuns s = false ∨ s.trust.rxNext = 0 → Answers .serviceSegmentTimeout s (fun t => CycleOnly s t))
    ∧ (serviceRuns s = false ∨ s.trust.request.all (fun r => r.cmd != 3) = true → Answers .endSession s (fun t => CycleOnly s t)))
  ∧ (∀ (i : Instr) (s : State),
    Calm s →
    (serviceRow i).any (fun w => !serviceRuns s || s.trust.request.all (fun r => r.cmd != w.1)) = true →
    Answers i s (fun t => CycleOnly s t))
  ∧ (∀ (s : State),
    Calm s →
    CanFits s →
    serviceRuns s = true →
    s.trust.rxNext ≠ 0 →
    s.trust.request = none →
    Answers .serviceSegmentTimeout s (fun t => Responded t (nth s.trust.rxBytes 2 0).toNat 2 [] ∧ t.trust.rxNext = 0
      ∧ t.trust.session = s.trust.session ∧ ServiceFrame s t []))
  ∧ (∀ (i : Instr) (r : Request) (k : Nat) (s : State),
    Judged i s r k →
    k ≠ 0 →
    Answers i s (fun t => Responded t r.cmd k [] ∧ ServiceFrame s t [] ∧ t.trust.dbg = s.trust.dbg ∧ t.ord = s.ord ∧ t.arb.drill = s.arb.drill
      ∧ (s.log.full = false → Logged t ((if k = 1 then 0x1100 else 0x1200) + r.cmd))))
  ∧ (∀ (r : Request) (s : State),
    Judged .hello s r 0 →
    s.is R.TRUST_STAT_IDOK = true →
    cryptoRuns s = true →
    Answers .hello s (fun t => t.trust.request = none ∧ t.trust.hello = some s.free ∧ s.free < t.free ∧ t.trust.session.isSome = s.trust.session.isSome
      ∧ Responded t 1 0 (helloBody s ++ idSign s.free (helloBody s))
      ∧ ServiceFrame s t []))
  ∧ (∀ (r : Request) (n : Nat) (s : State),
    Judged .auth s r 0 →
    s.trust.hello = some n →
    Answers .auth s (fun t => if s.is R.TRUST_STAT_IDOK && cryptoRuns s && authOk s r.body n then
        t.trust.session.map (fun q => (some q.key, q.levels, q.serial, q.ctrIn)) = some
            (sessionKey n ((r.body.drop 344).take 96), leValue ((r.body.drop 2).take 2) % 32,
              leValue ((r.body.drop 4).take 4), 0)
          ∧ t.is R.TRUST_STAT_SESSION = true ∧ t.rd R.TRUST_STAT_SLEVELS = leValue ((r.body.drop 2).take 2) % 32 ∧ Responded t 2 0 []
      else Responded t 2 3 [] ∧ t.is R.TRUST_FLAGS_AUTHFAIL_F = true ∧ t.trust.session.isSome = s.trust.session.isSome
        ∧ t.rd R.TRUST_FLAGS_AUTHFAILS = min (s.rd R.TRUST_FLAGS_AUTHFAILS + 1) (2 ^ R.TRUST_FLAGS_AUTHFAILS.width - 1)))
  ∧ (∀ (r : Request) (s : State),
    Judged .auth s r 0 →
    s.trust.hello = none →
    Answers .auth s (fun t => Responded t 2 3 [] ∧ t.is R.TRUST_FLAGS_AUTHFAIL_F = true
      ∧ ServiceFrame s t [R.TRUST_FLAGS_AUTHFAIL_F, R.TRUST_FLAGS_AUTHFAILS]))
  ∧ (∀ (r : Request) (q : Session) (s : State),
    Calm s →
    CanFits s →
    s.trust.request = some r →
    r.cmd = 3 →
    serviceRuns s = true →
    s.trust.life ≠ 2 →
    r.inSession = true →
    s.trust.session = some q →
    Answers .endSession s (fun t => Responded t 3 0 [] ∧ t.trust.session = none ∧ t.is R.TRUST_STAT_SESSION = false ∧ t.rd R.TRUST_STAT_SLEVELS = 0
      ∧ ServiceFrame s t [R.TRUST_STAT_SESSION, R.TRUST_STAT_SLEVELS]))
  ∧ (∀ (r : Request) (s : State),
    Calm s →
    CanFits s →
    s.trust.request = some r →
    r.cmd = 3 →
    serviceRuns s = true →
    s.trust.life ≠ 2 →
    r.inSession = false →
    Answers .endSession s (fun t => Responded t 3 (if s.trust.life = 0 then 1 else 3) [] ∧ t.trust.session = s.trust.session ∧ ServiceFrame s t []))
  ∧ (∀ (q : Session) (s : State),
    Calm s →
    s.trust.session = some q →
    Answers .sessionIdleTimeout s (fun t => t.trust = { s.trust with session := none } ∧ t.is R.TRUST_STAT_SESSION = false
      ∧ t.rd R.TRUST_STAT_SLEVELS = 0 ∧ RegsKept s t [R.TRUST_STAT_SESSION, R.TRUST_STAT_SLEVELS]))
  ∧ (∀ (f : CanFrame) (sof : BitVec 32) (s : State),
    isRequestFrame s 0 f = true →
    Answers (.canFrameRx 0 f sof) s (fun t => exec (.serviceSegment f.data) s = .next t))

/-- Judged and allowed, READ answers the words it may read, and a word with a double-bit error is a bus error and, in
critical memory, its vat's error, WHEY_SELECT sets WADDR unless a higher master has in the same cycle, ORDER writes channel
6's value at SVC_RANK, SENSE_SYNC requests resets of channels that no running graph consumes, HANDOVER_DRILL passes ownership
to an eligible standby, VAT_RESET resets a standby, SYS_RESET and RECOVERY_EXIT reset the device with cause 0x0C,
SAFETY_CLEAR clears quiet safety faults and the ride, and CAN_FLUSH empties a channel but for a frame that has won
arbitration. Where the spec leaves a point open, this follows the choice of notes/assumptions/17.md and
notes/assumptions/54.md and notes/assumptions/90.md and notes/assumptions/92.md and notes/assumptions/101.md and
notes/assumptions/105.md. -/
def Obligations.ServiceOperates : Prop :=
  (∀ (r : Request) (s : State),
    Judged .read s r 0 →
    Answers .read s (fun t =>
      ((readWords s r).all (fun a => readUpset s a != 2 || (criticalAt a).isNone) = true → ServiceFrame s t brineFields)
      ∧ ((readWords s r).all (fun a => readUpset s a == 0) = true ∨ readAllowed s (r.field 0) (r.field 1) = false → ServiceFrame s t [])
      ∧ (if readAllowed s (r.field 0) (r.field 1) && (readWords s r).all (fun a => readUpset s a != 2) then
          Responded t 0x10 0 ((readWords s r).flatMap (fun a => leBytes 4 (busWord s a).toNat))
        else Responded t 0x10 1 [])
      ∧ ∀ (v : Vat) (a : Nat), (readWords s r).find? (fun a => readUpset s a == 2) = some a → criticalAt a = some v →
        (RunningStandby s v → VatResetTaken t v ∧ t.rd R.RST_CAUSE_CODE = 0x07)
          ∧ (OwnerWithStandby s v → TakenOver t v 3 ∧ t.rd R.RST_CAUSE_CODE = 0x07)))
  ∧ (∀ (r : Request) (s : State),
    Judged .wheySelect s r 0 →
    Answers .wheySelect s (fun t => if s.hasVat (namedVat r) && decide (r.field 1 < 8) then
        Responded t 0x11 0 [] ∧ (if s.vatLive (namedVat r) && !s.overtaken 35 (R.WADDR (namedVat r) (r.field 1)) then
            t.rd (R.WADDR_WADDR (namedVat r) (r.field 1)) = r.field 2 % 2 ^ (R.WADDR_WADDR .A 0).width
              ∧ ServiceFrame s t [R.WADDR_WADDR (namedVat r) (r.field 1)]
          else ServiceFrame s t [])
      else Responded t 0x11 1 [] ∧ ServiceFrame s t []))
  ∧ (∀ (r : Request) (s : State),
    Judged .order s r 0 →
    Answers .order s (fun t => ServiceFrame s t [] ∧ (if (orderClass (r.field 0)).isSome then
        Responded t 0x20 0 [] ∧ t.ord.writers.any (fun x => x.signal == r.field 0 && x.chan == 6 && x.rank == s.rd R.ORD_CFG_SVC_RANK
          && x.value == (r.field 1 : Int) && x.time == messageTime s) = true
      else Responded t 0x20 1 [] ∧ t.ord = s.ord)))
  ∧ (∀ (r : Request) (s : State),
    Judged .senseSync s r 0 →
    r.body.length = 8 →
    Answers .senseSync s (fun t => if (List.range 64).any (fun n => bitOf (nth r.body (n / 8) 0).toNat (n % 8) && consumedRunning s n) then
        Responded t 0x21 1 [] ∧ ServiceFrame s t []
      else Responded t 0x21 0 [] ∧ ∀ (v : Vat) (g : Fin 8), s.vatLive v = true → (nth r.body g 0) ≠ 0 →
        t.is (R.SGRP_SYNC_GO v g) = true ∧ Nat.land (t.rd (R.SGRP_SYNC_MASK v g)) (nth r.body g 0).toNat = (nth r.body g 0).toNat))
  ∧ (∀ (r : Request) (s : State),
    Judged .senseSync s r 0 →
    r.body.length ≠ 8 →
    Answers .senseSync s (fun t => Responded t 0x21 2 [] ∧ ServiceFrame s t []))
  ∧ (∀ (r : Request) (o : Vat) (s : State),
    Judged .handoverDrill s r 0 →
    s.arb.drill = none →
    s.owner = some o →
    drillAllowed s = true →
    Answers .handoverDrill s (fun t => Responded t 0x22 0 [] ∧ t.owner = some o.other ∧ t.rd R.OWN_STAT_CAUSE = 7
      ∧ t.is R.OWN_STAT_DRILL = true ∧ t.rd (R.VAT_ROLE_ROLE o.other) = roleACTIVE ∧ t.rd (R.VAT_ROLE_ROLE o) = roleSTANDBY
      ∧ t.arb.drill.map (fun d => (d.origin, d.returned)) = some (o, false)))
  ∧ (∀ (r : Request) (s : State),
    Judged .handoverDrill s r 0 →
    s.arb.drill ≠ none ∨ drillAllowed s = false →
    Answers .handoverDrill s (fun t => Responded t 0x22 1 [] ∧ t.owner = s.owner ∧ t.arb.drill = none))
  ∧ (∀ (r : Request) (s : State),
    Judged .vatReset s r 0 →
    s.hasVat .B = true →
    Answers .vatReset s (fun t =>
      (s.owner = some (namedVat r) → eligible s (namedVat r).other = false → anyPortIn s [RUN] = true →
        Responded t 0x23 1 [] ∧ ServiceFrame s t [])
      ∧ (RunningStandby s (namedVat r) → Responded t 0x23 0 [] ∧ VatResetTaken t (namedVat r) ∧ t.rd R.RST_CAUSE_CODE = 0x0C)
      ∧ (OwnerWithStandby s (namedVat r) → Responded t 0x23 0 [] ∧ TakenOver t (namedVat r) 3 ∧ t.rd R.RST_CAUSE_CODE = 0x0C)))
  ∧ (∀ (r : Request) (s : State),
    Judged .sysReset s r 0 →
    s.rst.phase ≠ .por →
    Answers .sysReset s (fun t => SysResetTaken s t 0x0C ∧ t.trust.session = none ∧ t.trust.dbg = 0))
  ∧ (∀ (r : Request) (s : State),
    Judged .safetyClear s r 0 →
    Answers .safetyClear s (fun t => if faultsQuiet s then
        Responded t 0x25 0 [] ∧ t.regs.get R.SAFE_FAULT = 0 ∧ t.is R.SAFE_STAT_RIDE = false ∧ t.rdBit R.OWN_DEG_DEG_CAUSE 9 = false
      else Responded t 0x25 1 [] ∧ t.regs.get R.SAFE_FAULT = s.regs.get R.SAFE_FAULT ∧ ServiceFrame s t []))
  ∧ (∀ (won : Option (BitVec 32)) (r : Request) (s : State),
    Judged (.canFlush won) s r 0 →
    won.bind (fun w => (getCan s (r.field 0)).onBus (s.sofTime w.toNat)) = none →
    Answers (.canFlush won) s (fun t => Responded t 0x26 (if r.field 0 < 6 then 0 else 1) []
      ∧ ∀ c : Fin 6, c ≠ 0 → (getCan t c).queue = (if r.field 0 = c then [] else (getCan s c).queue)
        ∧ (getCan t c).express = (if r.field 0 = c then [] else (getCan s c).express)))
  ∧ (∀ (sof : BitVec 32) (r : Request) (s : State),
    Judged (.canFlush (some sof)) s r 0 →
    Answers (.canFlush (some sof)) s (fun t => Responded t 0x26 (if r.field 0 < 6 then 0 else 1) []
      ∧ ∀ c : Fin 6, c ≠ 0 → r.field 0 = c → ∀ xp f, (getCan s c).onBus (s.sofTime sof.toNat) = some (xp, f) →
        (getCan t c).queue = (if xp then [] else (getCan s c).queue.take 1)
          ∧ (getCan t c).express = (if xp then (getCan s c).express.take 1 else []) ∧ t.is (R.CAN_FLAGS_CANCEL_LATE_F c) = true
          ∧ t.rd (R.CAN_CNT_CANCEL_LATES c) = min (s.rd (R.CAN_CNT_CANCEL_LATES c) + 1) 65535))
  ∧ (∀ (r : Request) (s : State),
    Judged .recoveryExit s r 0 →
    s.rst.phase ≠ .por →
    Answers .recoveryExit s (fun t => if s.is R.DEV_STATE_RECSTRAP then Responded t 0x27 1 [] ∧ t.dev = .recovery
      else t.dev = .off ∧ t.rd R.RST_CAUSE_CODE = 0x0C ∧ t.rd R.RST_CAUSE_LEVEL = 2 ∧ t.nv = { s.nv with fails0 := some 0, fails1 := some 0 }
        ∧ t.rd R.START_FAILS_COUNT = 0))

/-- Judged and allowed, WHEEL_ERASE empties a slot that may be written and WHEEL_WRITE programs it and answers by the
read-back, SAFE_CONFIRM confirms the safety check value, MT_CORRECT fills MT_MAIL, the patch commands write a checked image
or empty the area, CERT_REVOKE only raises CERT_MIN, the debug commands set the level, OWNER_XFER fuses the next slot and
then revokes the old one, with the blows that are made standing, DECOMMISSION blows its fuse. Where the spec leaves a point
open, this follows the choice of notes/assumptions/90.md and notes/assumptions/92.md. -/
def Obligations.ServiceConfigures : Prop :=
  (∀ (r : Request) (s : State),
    Judged .wheelErase s r 0 →
    Answers .wheelErase s (fun t => if slotWritable s (r.field 0) then
        Responded t 0x30 0 [] ∧ t.nv = { s.nv with badSlots := s.nv.badSlots.filter (· != r.field 0) } ∧ BytesCleared t (slotBase (r.field 0)) (slotBase (r.field 0 + 1)) ∧ BytesKept s t (slotBase (r.field 0)) 0x1000000
      else Responded t 0x30 1 [] ∧ t.mem = s.mem))
  ∧ (∀ (ok : Bool) (r : Request) (k off : Nat) (data : List Byte) (s : State),
    Judged (.wheelWrite ok) s r 0 →
    r.body = [BitVec.ofNat 8 k, 0, 0, 0] ++ leBytes 4 off ++ data →
    slotWritable s k = true →
    off % 4 = 0 →
    data.length % 4 = 0 →
    data.length ≤ 4080 →
    off + data.length ≤ 0x1000000 →
    Answers (.wheelWrite ok) s (fun t => Responded t 0x31 (if ok then 0 else 1) [] ∧ BytesKept s t (slotBase k + off) data.length
      ∧ (ok = false → k ∈ t.nv.badSlots) ∧ (ok = true → t.nv = s.nv ∧ (List.range data.length).all (fun i => Memory.read t.mem (slotBase k + off + i) == nth data i 0) = true)))
  ∧ (∀ (ok : Bool) (r : Request) (s : State),
    Judged (.wheelWrite ok) s r 0 →
    slotWritable s (nth r.body 0 0).toNat = false ∨ r.body.length < 8 ∨ ((r.body.drop 1).take 3).any (· != 0) = true →
    Answers (.wheelWrite ok) s (fun t => Responded t 0x31 (if r.body.length < 8 ∨ ((r.body.drop 1).take 3).any (· != 0) = true ∨ leValue ((r.body.drop 4).take 4) % 4 ≠ 0
        ∨ (r.body.drop 8).length % 4 ≠ 0 ∨ 4080 < (r.body.drop 8).length
        ∨ 0x1000000 < leValue ((r.body.drop 4).take 4) + (r.body.drop 8).length then 2 else 1) [] ∧ ServiceFrame s t []))
  ∧ (∀ (r : Request) (s : State),
    Judged .safeConfirm s r 0 →
    Answers .safeConfirm s (fun t => if r.field 0 = s.rd R.SAFE_CRC_VAL ∧ anyPortIn s [RUN] = false then
        Responded t 0x32 0 [] ∧ confirmed t (r.field 0) = true
          ∧ (confirmed s (r.field 0) = false → t.is R.WHL_STAT_RESTRICT = false
            ∧ t.nv = { s.nv with conf0 := some ((confShown s).confirm (r.field 0)), conf1 := some ((confShown s).confirm (r.field 0)) })
          ∧ (confirmed s (r.field 0) = true → ServiceFrame s t [])
      else Responded t 0x32 1 [] ∧ ServiceFrame s t []))
  ∧ (∀ (r : Request) (s : State),
    Judged .mtCorrect s r 0 →
    s.variant.metered = true →
    r.body.length = 96 →
    Answers .mtCorrect s (fun t => Responded t 0x33 0 [] ∧ mailBytes t = r.body
      ∧ ServiceFrame s t ((List.range 24).map R.MT_MAIL_VAL)))
  ∧ (∀ (r : Request) (s : State),
    Judged .mtCorrect s r 0 →
    s.variant.metered = false →
    Answers .mtCorrect s (fun t => Responded t 0x33 1 [] ∧ ServiceFrame s t []))
  ∧ (∀ (r : Request) (s : State),
    Calm s →
    CanFits s →
    s.trust.request = some r →
    r.cmd = 0x34 →
    serviceRuns s = true →
    judgeRequest s r (some 2) (patchState s) = 0 →
    (Config.patchErases r.body = false → Answers .patchWrite s (fun t =>
        Responded t 0x34 (if patchCode s (Config.patchImage r.body) = 0 then 0 else 1) [] ∧ BytesKept s t ferroBase patchSize
        ∧ (patchCode s (Config.patchImage r.body) ≠ 0 → t.mem = s.mem)
        ∧ (patchCode s (Config.patchImage r.body) = 0 → ∀ i : Fin 16384,
            Memory.read t.mem (ferroBase + i) = nth ((Config.patchImage r.body).take patchSize) i 0))
      ∧ Answers .patchErase s (fun t => CycleOnly s t))
    ∧ (Config.patchErases r.body = true → Answers .patchErase s (fun t =>
        Responded t 0x34 0 [] ∧ BytesCleared t ferroBase (ferroBase + patchSize) ∧ BytesKept s t ferroBase patchSize)
      ∧ Answers .patchWrite s (fun t => CycleOnly s t)))
  ∧ (∀ (r : Request) (s : State),
    Judged .certRevoke s r 0 →
    Answers .certRevoke s (fun t => Responded t 0x35 0 [] ∧ t.rd R.CERT_MIN_VAL = max (s.rd R.CERT_MIN_VAL) (r.field 0 % 2 ^ 32)
      ∧ t.nv = { s.nv with certMin := s.nv.certMin.put (max (s.rd R.CERT_MIN_VAL) (r.field 0 % 2 ^ 32)) }
      ∧ ServiceFrame { s with nv := t.nv } t [R.CERT_MIN_VAL]))
  ∧ (∀ (r : Request) (s : State),
    Judged .debugUnlock s r 0 →
    Answers .debugUnlock s (fun t => (if r.field 0 = 1 ∨ r.field 0 = 2 then Responded t 0x40 0 [] ∧ t.trust.dbg = r.field 0
      else Responded t 0x40 1 [] ∧ t.trust.dbg = s.trust.dbg) ∧ ServiceFrame s t []))
  ∧ (∀ (r : Request) (s : State),
    Judged .debugLock s r 0 →
    Answers .debugLock s (fun t => Responded t 0x41 0 [] ∧ t.trust.dbg = 0 ∧ ServiceFrame s t []))
  ∧ (∀ (fuse : FuseResult) (r : Request) (i : Fin 4) (s : State),
    Judged (.ownerXfer fuse) s r 0 →
    OneOwner s.trust →
    r.body.length = 48 →
    s.trust.slots.length = 4 →
    freeOwnerSlot s.trust = some i.val →
    Answers (.ownerXfer fuse) s (fun t =>
      (powerLost fuse = false → Responded t 0x50 (if fuse = .done then 0 else 1) [] ∧ RegsKept s t responseFields ∧ t.mem = s.mem)
      ∧ (powerLost fuse = true → t.dev = .off ∧ t.rst.phase = .por ∧ t.rd R.RST_CAUSE_CODE = 2 ∧ t.rd R.RST_CAUSE_LEVEL = 1)
      ∧ nth t.trust.slots i {} = (if blowMade fuse 0 then
          { hash := beValue r.body, written := true, valid := blowMade fuse 1, revoked := fuse == .differs } else nth s.trust.slots i {})
      ∧ (∀ k : Fin 4, k ≠ i → nth t.trust.slots k {} = (if s.trust.ownerSlot = some k.val && blowMade fuse 2 then
          { nth s.trust.slots k {} with revoked := true } else nth s.trust.slots k {}))
      ∧ (fuse = .done → t.trust.ownerHash = some (beValue r.body))
      ∧ (blowMade fuse 1 = false → t.trust.ownerHash = s.trust.ownerHash)))
  ∧ (∀ (fuse : FuseResult) (r : Request) (s : State),
    Judged (.ownerXfer fuse) s r 0 →
    r.body.length = 48 →
    powerLost fuse = false →
    freeOwnerSlot s.trust = none →
    Answers (.ownerXfer fuse) s (fun t => Responded t 0x50 1 [] ∧ ServiceFrame s t []))
  ∧ (∀ (fuse : FuseResult) (r : Request) (s : State),
    Judged (.ownerXfer fuse) s r 0 →
    r.body.length ≠ 48 →
    Answers (.ownerXfer fuse) s (fun t => Responded t 0x50 2 [] ∧ ServiceFrame s t []))
  ∧ (∀ (r : Request) (s : State),
    Judged .decommission s r 0 →
    Answers .decommission s (fun t => if Config.vddaInRange s.time.vt then
        Responded t 0x51 0 [] ∧ t.trust.decomFuse = true ∧ t.trust.life = 2 ∧ t.trust.slots = s.trust.slots
          ∧ RegsKept s t responseFields ∧ t.mem = s.mem
      else Responded t 0x51 1 [] ∧ ServiceFrame s t []))

/-! ## Access (18_trust_and_access.md) -/

/-- A write that the table admits does what the register's access codes say and nothing else, but that a flag the hardware
has set in the same cycle stays set (R11); one into an absent block does nothing. A bus error changes nothing and is logged,
and a read that ends in one for a double-bit error in critical memory is its vat's error besides; what is no violation or no
bus error, or comes from a master that can issue nothing, changes nothing. A violation is not performed: its master is
frozen, the first is recorded and each counted; a frozen vat master's vat faults, so that a standby is reset and an owner
hands over with CAUSE 4, its record kept. Of two writes of one cycle to a register the higher master's stands, and of two
violations the lower master's is the one recorded. The debug access acts within its level only, and not at all in POR or with
its master frozen; each of its writes sets DBGWR_F. Where the spec leaves a point open, this follows the choice of
notes/assumptions/93.md and notes/assumptions/94.md and notes/assumptions/105.md. -/
def Obligations.AccessesJudged : Prop :=
  (∀ (m : BitVec 6) (a : BitVec 32) (data : BusData) (w : Master) (row : RegRow) (is : List Nat) (s : State),
    Issued s m w a true →
    data.width = .word →
    (regionOf s a.toNat).regs = true →
    (denied s w a.toNat true).1 = false →
    plainRegister a.toNat = true →
    findReg a.toNat = some (row, is) →
    Answers (.registerWrite m a data) s (fun t =>
      Frame (s.wrWord a.toNat (codesWord s m.toNat a.toNat data.data row)) t (jtagTrace m true)
      ∧ ∀ n : Nat, t.overtaken n a.toNat = (s.overtaken n a.toNat || decide (n < m.toNat))))
  ∧ (∀ (m : BitVec 6) (a : BitVec 32) (data : BusData) (w : Master) (s : State),
    Calm s →
    masterOf m.toNat = some w →
    issues s m.toNat a.toNat true = true →
    busErrorAt s a.toNat (widthBytes data.width) true = false →
    absentAt s a.toNat = false →
    (regionOf s a.toNat).regs = false →
    (denied s w a.toNat true).1 = false →
    Answers (.registerWrite m a data) s (fun t => RegsKept s t (jtagTrace m true) ∧ (if a.toNat / 0x10000 ≠ 0x4060 then
        t.readBytes a.toNat (widthBytes data.width) = leBytes (widthBytes data.width) data.data.toNat
          ∧ BytesKept s t a.toNat (widthBytes data.width) ∧ t.nv = s.nv
      else (0x40605000 ≤ a.toNat → a.toNat < 0x4060BFC0 → t.mem = s.mem ∧ t.nv = s.nv)
        ∧ (0x40604000 ≤ a.toNat → a.toNat < 0x40605000 → t.mem = s.mem ∧ (data.width = .byte → busByte t a.toNat = data.data.setWidth 8)
          ∧ t.nv = (overwriteStore s (a.toNat - 0x40600000) (leBytes (widthBytes data.width) data.data.toNat)).nv))))
  ∧ (∀ (m : BitVec 6) (a : BitVec 32) (data : BusData) (s : State),
    Calm s →
    absentAt s a.toNat = true →
    Answers (.registerWrite m a data) s (fun t => CycleOnly s t))
  ∧ (∀ (m : BitVec 6) (w : Master) (a : BitVec 32) (data : BusData) (s : State),
    Issued s m w a true →
    data.width = .word →
    (denied s w a.toNat true).1 = true →
    Answers (.registerWrite m a data) s (fun t => exec (.firewallViolation m a ⟨true, data.landed⟩) s = .next t))
  ∧ (∀ (m : BitVec 6) (w : Master) (a : BitVec 32) (b : Bool) (n : Nat) (s : State),
    Issued s m w a b →
    (denied s w a.toNat b).1 = true →
    32 ≤ m.toNat →
    s.net.role ≠ .master →
    Answers (.firewallViolation m a ⟨b, n⟩) s (fun t => t.rdBit R.CFW_FROZEN_FROZEN (m.toNat - 32) = true
      ∧ t.rd R.CFW_INFO_VIOLS = min (s.rd R.CFW_INFO_VIOLS + 1) 65535
      ∧ (s.is R.CFW_INFO_REC_F = false ∨ (s.bus.violC = s.time.vt ∧ m.toNat < s.rd R.CFW_INFO_MASTER) → t.rd R.CFW_ADDR_VAL = a.toNat ∧ t.rd R.CFW_INFO_MASTER = m.toNat ∧ t.is R.CFW_INFO_WRITE = b
          ∧ t.is R.CFW_INFO_REC_F = true)
      ∧ (s.is R.CFW_INFO_REC_F = true → s.bus.violC ≠ s.time.vt ∨ s.rd R.CFW_INFO_MASTER ≤ m.toNat → t.rd R.CFW_ADDR_VAL = s.rd R.CFW_ADDR_VAL ∧ t.rd R.CFW_INFO_MASTER = s.rd R.CFW_INFO_MASTER)
      ∧ Frame s t ([R.CFW_FROZEN_FROZEN, whole R.CFW_ADDR, whole R.CFW_INFO] ++ jtagTrace m b)))
  ∧ (∀ (m : BitVec 6) (w : Master) (v : Vat) (a : BitVec 32) (b : Bool) (n : Nat) (s : State),
    Issued s m w a b →
    (denied s w a.toNat b).1 = true →
    masterVat m.toNat = some v →
    RunningStandby s v →
    s.is (R.FW_INFO_REC_F v) = false →
    Answers (.firewallViolation m a ⟨b, n⟩) s (fun t => VatResetTaken t v ∧ t.rd (R.FW_ADDR_VAL v) = a.toNat
      ∧ t.rd (R.FW_INFO_MASTER v) = m.toNat % 16 ∧ t.is (R.FW_INFO_WRITE v) = b ∧ t.is (R.FW_INFO_REC_F v) = true
      ∧ t.rd (R.FW_INFO_VIOLS v) = min (s.rd (R.FW_INFO_VIOLS v) + 1) 65535))
  ∧ (∀ (m : BitVec 6) (w : Master) (v : Vat) (a : BitVec 32) (b : Bool) (n : Nat) (s : State),
    Issued s m w a b →
    (denied s w a.toNat b).1 = true →
    masterVat m.toNat = some v →
    OwnerWithStandby s v →
    s.is (R.FW_INFO_REC_F v) = false →
    Answers (.firewallViolation m a ⟨b, n⟩) s (fun t => TakenOver t v 4 ∧ t.rd (R.FW_ADDR_VAL v) = a.toNat
      ∧ t.rd (R.FW_INFO_MASTER v) = m.toNat % 16 ∧ t.is (R.FW_INFO_WRITE v) = b))
  ∧ (∀ (m : BitVec 6) (w : Master) (a : BitVec 32) (x : AccessWidth) (b : Bool) (s : State),
    Calm s →
    masterOf m.toNat = some w →
    issues s m.toNat a.toNat b = true →
    busErrorAt s a.toNat (widthBytes x) b = true →
    Answers (.busErrorAccess m a x b) s (fun t => Frame s t (jtagTrace m b)
      ∧ (s.log.full = false → Logged t (0x1500 + m.toNat + boolNat b * 128))))
  ∧ (∀ (m : BitVec 6) (w : Master) (a : BitVec 32) (x : AccessWidth) (b : Bool) (n : Nat) (s : State),
    Calm s →
    masterOf m.toNat = some w →
    ((denied s w a.toNat b).1 = false ∨ issues s m.toNat a.toNat b = false → Answers (.firewallViolation m a ⟨b, n⟩) s (fun t => CycleOnly s t))
    ∧ (issues s m.toNat a.toNat b = false ∨ (busErrorAt s a.toNat (widthBytes x) b = false ∧ (b = true ∨ readFails s w a.toNat = false)) →
      Answers (.busErrorAccess m a x b) s (fun t => CycleOnly s t))
    ∧ (issues s m.toNat a.toNat false = true → busErrorAt s a.toNat (widthBytes x) false = false → readFails s w a.toNat = true →
      Answers (.busErrorAccess m a x false) s (fun t =>
        ((criticalAt a.toNat).isNone = true → Frame s t [] ∧ (s.log.full = false → Logged t (0x1500 + m.toNat)))
        ∧ ∀ v : Vat, criticalAt a.toNat = some v →
          (RunningStandby s v → VatResetTaken t v ∧ t.rd R.RST_CAUSE_CODE = 0x07)
            ∧ (OwnerWithStandby s v → TakenOver t v 3 ∧ t.rd R.RST_CAUSE_CODE = 0x07))))
  ∧ (∀ (op : JtagOp) (s : State),
    Calm s →
    s.rst.phase = .por ∨ masterFrozen s 36 = true →
    Answers (.jtagAccess op) s (fun t => CycleOnly s t))
  ∧ (∀ (a : BitVec 32) (b : BitVec 32) (s : State),
    Calm s →
    s.trust.debugLevel = 0 →
    Answers (.jtagAccess (.read a)) s (fun t => t.trust = s.trust ∧ Frame s t [])
    ∧ Answers (.jtagAccess (.write a b)) s (fun t => t.trust = s.trust ∧ Frame s t []))
  ∧ (∀ (cells : List (Nat × Nat × Bool)) (s : State),
    Calm s →
    s.rst.phase ≠ .por →
    masterFrozen s 36 = false →
    Answers (.jtagAccess .idcode) s (fun t => t.trust = { s.trust with extest := false, cells := [] } ∧ RegsKept s t [])
    ∧ Answers (.jtagAccess (.extest cells)) s (fun t =>
      t.trust = { s.trust with extest := extestOk s, cells := if extestOk s then cells else [] } ∧ RegsKept s t []))
  ∧ (∀ (a : BitVec 32) (s : State),
    Issued s 36 .jtag a false →
    s.rst.phase ≠ .por →
    (denied s .jtag a.toNat false).1 = false →
    Answers (.jtagAccess (.read a)) s (fun t => (readUpset s a.toNat ≠ 2 → Frame s t brineFields) ∧ (readUpset s a.toNat = 0 → Frame s t [])
      ∧ (readUpset s a.toNat = 2 → (criticalAt a.toNat).isNone = true → Frame s t [] ∧ (s.log.full = false → Logged t 0x1524))
      ∧ ∀ v : Vat, readUpset s a.toNat = 2 → criticalAt a.toNat = some v → (RunningStandby s v → VatResetTaken t v)
        ∧ (OwnerWithStandby s v → TakenOver t v 3)))
  ∧ (∀ (a data : BitVec 32) (row : RegRow) (is : List Nat) (s : State),
    Issued s 36 .jtag a true →
    s.rst.phase ≠ .por →
    (denied s .jtag a.toNat true).1 = false →
    plainRegister a.toNat = true →
    findReg a.toNat = some (row, is) →
    Answers (.jtagAccess (.write a data)) s (fun t => t.is R.TRUST_FLAGS_DBGWR_F = true
      ∧ Frame (s.wrWord a.toNat (codesWord s 36 a.toNat data row)) t [R.TRUST_FLAGS_DBGWR_F]))
  ∧ (∀ (a data : BitVec 32) (s : State),
    Calm s →
    canIssue s 36 = true →
    s.rst.phase ≠ .por →
    s.trust.debugLevel = 2 →
    Answers (.jtagAccess (.write a data)) s (fun t => t.is R.TRUST_FLAGS_DBGWR_F = true
      ∧ (absentAt s a.toNat = true ∨ busErrorAt s a.toNat 4 true = true → Frame s t [R.TRUST_FLAGS_DBGWR_F])
      ∧ (Issued s 36 .jtag a true → (denied s .jtag a.toNat true).1 = true → t.rdBit R.CFW_FROZEN_FROZEN 4 = true
        ∧ Frame s t [R.TRUST_FLAGS_DBGWR_F, R.CFW_FROZEN_FROZEN, whole R.CFW_ADDR, whole R.CFW_INFO])))
  ∧ (∀ (a data : BitVec 32) (s : State),
    s.rst.phase ≠ .por →
    exec (.jtagAccess (.write a data)) s = exec (.registerWrite 36 a ⟨.word, data, 0⟩) s)

/-! ## Records (19_readback_and_records.md) -/

/-- The oldest queued record enters the ring at HEAD as 16 bytes; a matching trigger begins the post-trigger phase of an
armed segment. A capture that has its POST frames is complete and the next segment is armed, or recording ends or overwrites
the oldest as OVWR says. The mirror copies the next record into the tail area with its LAP. What tells of lost records has
SOURCE 0x06, the model's choice (log entry 7), and is in the queue when the write that makes room for it is done (log entry
103). Brine counts errors, and clears a word with a double-bit error, a log or tail slot whole, while a word of the store's
supervisor area overwrites what stands there; one in a vat's critical state clears nothing and resets the vat. The store's
refresh changes nothing, nor does a scrub of a memory that is absent or in reset, a write with no record queued, a mirror
with none waiting, or the end of a capture that lacks frames. Where the spec leaves a point open, this follows the choice of
notes/assumptions/7.md and notes/assumptions/103.md and notes/assumptions/104.md and notes/assumptions/105.md. -/
def Obligations.RecordsKept : Prop :=
  (∀ (r : LogRec) (q : List LogRec) (s : State),
    Calm s →
    s.log.queue = r :: q →
    triggersOf s r = [] →
    s.log.queue.length ≤ s.log.mark →
    Answers .logRecordWrite s (fun t => t.readBytes (logRing + 16 * s.rd R.LOG_HEAD_HEAD) 16 = r.bytes
      ∧ BytesKept s t (logRing + 16 * s.rd R.LOG_HEAD_HEAD) 16
      ∧ t.rd R.LOG_HEAD_HEAD = (s.rd R.LOG_HEAD_HEAD + 1) % 16384
      ∧ t.rd R.LOG_HEAD_WRAPS = (s.rd R.LOG_HEAD_WRAPS + (if s.rd R.LOG_HEAD_HEAD = 16383 then 1 else 0)) % 65536
      ∧ t.log.written = s.log.written + 1 ∧ t.log.queue.take q.length = q
      ∧ RegsKept s t [whole R.LOG_HEAD, R.LOG_TAIL_MLAG]))
  ∧ (∀ (r : LogRec) (q : List LogRec) (k : Nat) (ks : List Nat) (s : State),
    Calm s →
    s.log.queue = r :: q →
    triggersOf s r = k :: ks →
    s.rcd.phase = .armed →
    Answers .logRecordWrite s (fun t => t.rcd.phase = .post (s.rd R.REC_POST_POST) ∧ t.rcd.npre = min (s.rd R.REC_CFG_PRE) s.rcd.taken
      ∧ (t.readMem (segBase s (s.rd R.REC_STAT_ARMSEG))).toNat = 2 + k * 4 ∧ t.rd R.LOG_HEAD_HEAD = (s.rd R.LOG_HEAD_HEAD + 1) % 16384))
  ∧ (∀ (r : LogRec) (q : List LogRec) (n : Nat) (s : State),
    Calm s →
    s.log.queue = r :: q →
    s.rcd.phase = .post n →
    Answers .logRecordWrite s (fun t => t.rcd = s.rcd
      ∧ t.rd R.REC_POST_TRIGLOST = min (s.rd R.REC_POST_TRIGLOST + (triggersOf s r).length) 65535))
  ∧ (∀ (r : LogRec) (q : List LogRec) (s : State),
    Calm s →
    s.log.queue = r :: q →
    q.length < 64 →
    triggersOf s r = [] →
    s.log.lostPend ≠ 0 →
    Answers .logRecordWrite s (fun t =>
      t.log.queue.any (fun e => e.source == 0x06 && e.code == 0x1601 && e.data == s.log.lostPend % 2 ^ 32) = true))
  ∧ (∀ (s : State),
    Calm s →
    s.rcd.phase = .post 0 →
    s.rd R.REC_STAT_ARMSEG < recSegs s →
    (List.range (recSegs s)).any (fun g => !(s.rcd.complete ++ [s.rd R.REC_STAT_ARMSEG]).contains g) = true →
    Answers .captureComplete s (fun t => t.rcd.phase = .armed ∧ t.rcd.complete = s.rcd.complete ++ [s.rd R.REC_STAT_ARMSEG]
      ∧ (s.rcd.complete ++ [s.rd R.REC_STAT_ARMSEG]).contains (t.rd R.REC_STAT_ARMSEG) = false ∧ t.rd R.REC_STAT_ARMSEG < recSegs s
      ∧ (t.readMem (segBase s (s.rd R.REC_STAT_ARMSEG))).toNat % 4 = 3
      ∧ (t.readMem (segBase s (t.rd R.REC_STAT_ARMSEG))).toNat = 1
      ∧ (s.log.full = false → Logged t 0x1603) ∧ RegsKept s t [R.REC_STAT_ARMSEG]))
  ∧ (∀ (o : Nat) (rest : List Nat) (s : State),
    Calm s →
    s.rcd.phase = .post 0 →
    s.rcd.complete ++ [s.rd R.REC_STAT_ARMSEG] = o :: rest →
    o < 8 →
    (List.range (recSegs s)).all (fun g => (s.rcd.complete ++ [s.rd R.REC_STAT_ARMSEG]).contains g) = true →
    Answers .captureComplete s (fun t => if s.is R.REC_CFG_OVWR then t.rcd.phase = .armed ∧ t.rd R.REC_STAT_ARMSEG = o
        ∧ t.rcd.complete = (o :: rest).filter (fun g => g != o)
      else t.rcd.phase = .off ∧ t.rcd.complete = o :: rest))
  ∧ (∀ (s : State),
    Calm s →
    s.log.mirror < s.log.written →
    s.log.written ≤ s.log.mirror + 256 →
    Answers .tailMirror s (fun t => t.readBytes (ferroBase + 0xC000 + s.rd R.LOG_TAIL_TAILSEL * 0x1000 + s.log.mirrored % 256 * 16) 16
          = modNth (s.readBytes (logRing + 16 * (s.log.mirror % logSlots)) 16) 3 (fun _ => BitVec.ofNat 8 (s.log.mirrored / 256 % 255 + 1))
      ∧ BytesKept s t (ferroBase + 0xC000 + s.rd R.LOG_TAIL_TAILSEL * 0x1000 + s.log.mirrored % 256 * 16) 16
      ∧ t.log.mirror = s.log.mirror + 1 ∧ t.rd R.LOG_TAIL_MLAG = min (s.log.written - s.log.mirror - 1) 256 ∧ RegsKept s t [R.LOG_TAIL_MLAG]))
  ∧ (∀ (m : Fin 8) (off : Nat) (s : State),
    Calm s →
    s.dev ≠ .off →
    s.variant.dual = true →
    Answers (.brineScrub m off .clean) s (fun t => Frame s t [])
    ∧ Answers (.brineScrub m off .single) s (fun t => t.rd (R.BRINE_SBE_VAL m) = min (s.rd (R.BRINE_SBE_VAL m) + 1) (2 ^ 32 - 1)
      ∧ t.rd (R.BRINE_LAST_VAL m) = off % 0x400000 / 4 * 4 ∧ t.is (R.BRINE_FLAGS_SBE_F m) = true
      ∧ Frame s t [R.BRINE_SBE_VAL m, R.BRINE_LAST_VAL m, R.BRINE_FLAGS_SBE_F m]))
  ∧ (∀ (m : Fin 8) (off : Nat) (x : ScrubResult) (s : State),
    Calm s →
    (s.dev = .off ∨ (∃ v, brineVat m = some v ∧ s.hasVat v = false) → Answers (.brineScrub m off x) s (fun t => CycleOnly s t))
    ∧ (s.log.queue = [] → Answers .logRecordWrite s (fun t => CycleOnly s t))
    ∧ (s.log.written ≤ s.log.mirror → Answers .tailMirror s (fun t => CycleOnly s t))
    ∧ (s.rcd.phase ≠ .post 0 → Answers .captureComplete s (fun t => CycleOnly s t))
    ∧ Answers .nvStoreRefresh s (fun t => CycleOnly s t))
  ∧ (∀ (m : Fin 2) (b n off : Nat) (s : State),
    Calm s →
    s.dev ≠ .off →
    brineBase m = some (b, n) →
    off < n →
    off % 4 = 0 →
    Answers (.brineScrub (m.castLE (by decide)) off .double) s (fun t => (if m.val = 1 ∧ 0x4000 ≤ off ∧ off < 0x5000 then t.mem = s.mem ∧ t.nv = (overwriteStore s off [0, 0, 0, 0]).nv
        else if (m.val = 0 ∧ 0x40000 ≤ off ∧ off < 0x80000) ∨ (m.val = 1 ∧ 0xC000 ≤ off) then
          t.readBytes (b + off / 16 * 16) 16 = List.replicate 16 0 ∧ BytesKept s t (b + off / 16 * 16) 16
        else t.readMem (b + off) = 0 ∧ BytesKept s t (b + off) 4)
      ∧ t.rd (R.BRINE_DBE_DBE m) = min (s.rd (R.BRINE_DBE_DBE m) + 1) 65535 ∧ t.rd (R.BRINE_LAST_VAL m) = off
      ∧ t.is (R.BRINE_FLAGS_DBE_F m) = true ∧ (s.log.full = false → Logged t (0x1400 + m.val))
      ∧ RegsKept s t [R.BRINE_DBE_DBE m, R.BRINE_LAST_VAL m, R.BRINE_FLAGS_DBE_F m]))
  ∧ (∀ (m : Fin 8) (v : Vat) (off : Nat) (s : State),
    RunningStandby s v →
    brineVat m = some v →
    m.val % 3 ≠ 1 →
    Answers (.brineScrub m off .double) s (fun t => VatResetTaken t v ∧ t.rd R.RST_CAUSE_CODE = 0x07 ∧ t.rd (R.BRINE_DBE_DBE m) = min (s.rd (R.BRINE_DBE_DBE m) + 1) 65535))
  ∧ (∀ (m : Fin 8) (v : Vat) (off : Nat) (s : State),
    Calm s →
    s.dev ≠ .off →
    s.hasVat v = true →
    brineVat m = some v →
    m.val % 3 = 1 →
    off < 0x40000 →
    off % 4 = 0 →
    wheyBankOf s v off = none →
    Answers (.brineScrub m off .double) s (fun t => t.rd (R.BRINE_DBE_DBE m) = min (s.rd (R.BRINE_DBE_DBE m) + 1) 65535
      ∧ t.rd (R.BRINE_LAST_VAL m) = off
      ∧ (off / 0x8000 < (s.vat v).engines.length → lookupKey (off % 0x8000 / 4) (getEng t v (off / 0x8000)).whey = none)
      ∧ t.mem = s.mem ∧ RegsKept s t [R.BRINE_DBE_DBE m, R.BRINE_LAST_VAL m, R.BRINE_FLAGS_DBE_F m]))

/-- R421. A record that finds the queue full does not enter it; LOST counts up to its limit, and the source's SEQ goes on, so
that the gap shows it. When writing a record makes room, one record 0x1601 carries the number lost, and the number starts
again: what it then holds is only what later records of the cycle lost. Nothing lost, no record 0x1601. Of the record's
SOURCE and of its place, which R421 does not name, nothing is said here: RecordsKept says what the model chooses. -/
def Obligations.LostRecordsReported : Prop :=
  (∀ (s : State) (src code data : Nat),
    s.log.full = true →
    (s.event src code data).log.queue = s.log.queue ∧ (s.event src code data).rd R.LOG_STAT_LOST = min (s.rd R.LOG_STAT_LOST + 1) 65535
      ∧ (s.event src code data).is R.LOG_STAT_LOST_F = true ∧ (s.event src code data).log.lostPend = s.log.lostPend + 1
      ∧ (src < s.log.seqs.length → nth (s.event src code data).log.seqs src 0 = (nth s.log.seqs src 0 + 1) % 65536))
  ∧ (∀ (r : LogRec) (q : List LogRec) (s : State),
    Calm s →
    s.log.queue = r :: q →
    q.length < 64 →
    triggersOf s r = [] →
    s.log.lostPend ≠ 0 →
    (writeRecord s).log.lostPend = 0
      ∧ Answers .logRecordWrite s (fun t =>
        (t.log.queue.filter (fun e => e.code == 0x1601)).length = (q.filter (fun e => e.code == 0x1601)).length + 1
        ∧ t.log.queue.any (fun e => e.code == 0x1601 && e.data == s.log.lostPend % 2 ^ 32) = true
        ∧ t.rd R.LOG_STAT_LOST = min (s.rd R.LOG_STAT_LOST + t.log.lostPend) 65535 ∧ (t.log.lostPend = 0 ∨ t.log.full = true)))
  ∧ (∀ (s : State),
    s.log.lostPend = 0 →
    ((writeRecord s).log.queue.filter (fun e => e.code == 0x1601)).length ≤ (s.log.queue.filter (fun e => e.code == 0x1601)).length)
  ∧ (∀ (s : State) (src code data : Nat),
    s.log.full = false →
    (s.event src code data).log.queue.length = s.log.queue.length + 1 ∧ (s.event src code data).rd R.LOG_STAT_LOST = s.rd R.LOG_STAT_LOST
      ∧ ((s.event src code data).log.queue.getLast?).map (fun e => (e.source, e.seq, e.code)) = some (src, nth s.log.seqs src 0, code))
end

