-- ==== Sys2Proof/Laws/Bits.lean ====
section
/-! SUPPORT. Laws of bit fields and of the canonical lists that hold the registers and the memory: reading what was written,
what a write leaves alone, and that every operation keeps the canonical form. -/

namespace Sys2Proof.Machine

/-! ## Canonical lists -/

section Lists

variable {α : Type}

theorem lookupKey_eraseKey_self (k : Nat) (l : List (Nat × α)) : lookupKey k (eraseKey k l) = none := by
  induction l with
  | nil => rfl
  | cons e l ih =>
    obtain ⟨j, w⟩ := e
    by_cases h : j = k <;> simp [eraseKey, lookupKey, h, ih]

theorem lookupKey_eraseKey_other {j k : Nat} (h : j ≠ k) (l : List (Nat × α)) :
    lookupKey j (eraseKey k l) = lookupKey j l := by
  induction l with
  | nil => rfl
  | cons e l ih =>
    obtain ⟨i, w⟩ := e
    by_cases hi : i = k
    · simp [eraseKey, lookupKey, hi, ih, Ne.symm h]
    · by_cases hj : i = j
      · subst hj; simp [eraseKey, lookupKey, hi]
      · simp [eraseKey, lookupKey, hi, hj, ih]

theorem lookupKey_insertKey_self (k : Nat) (v : α) (l : List (Nat × α)) (h : lookupKey k l = none) :
    lookupKey k (insertKey k v l) = some v := by
  induction l with
  | nil => simp [insertKey, lookupKey]
  | cons e l ih =>
    obtain ⟨j, w⟩ := e
    by_cases hj : j = k
    · simp [lookupKey, hj] at h
    · simp only [lookupKey, hj, if_false] at h
      by_cases hk : k < j <;> simp [insertKey, lookupKey, hk, hj, ih h]

theorem lookupKey_insertKey_other {j k : Nat} (h : j ≠ k) (v : α) (l : List (Nat × α)) :
    lookupKey j (insertKey k v l) = lookupKey j l := by
  induction l with
  | nil => simp [insertKey, lookupKey, Ne.symm h]
  | cons e l ih =>
    obtain ⟨i, w⟩ := e
    by_cases hk : k < i
    · simp [insertKey, lookupKey, hk, Ne.symm h]
    · by_cases hi : i = j
      · subst hi; simp [insertKey, lookupKey, hk]
      · simp [insertKey, lookupKey, hk, hi, ih]

theorem keysAbove_trans {i j : Nat} (h : i < j) (l : List (Nat × α)) (hl : keysAbove j l = true) :
    keysAbove i l = true := by
  induction l with
  | nil => rfl
  | cons e l ih =>
    simp only [keysAbove, Bool.and_eq_true, decide_eq_true_eq] at hl ⊢
    exact ⟨by omega, ih hl.2⟩

theorem keysAbove_eraseKey (i k : Nat) (l : List (Nat × α)) (h : keysAbove i l = true) :
    keysAbove i (eraseKey k l) = true := by
  induction l with
  | nil => rfl
  | cons e l ih =>
    simp only [keysAbove, Bool.and_eq_true, decide_eq_true_eq] at h
    by_cases hk : e.1 = k <;> simp [eraseKey, keysAbove, hk, ih h.2]
    omega

theorem keysAbove_insertKey {i k : Nat} (hk : i < k) (v : α) (l : List (Nat × α)) (h : keysAbove i l = true) :
    keysAbove i (insertKey k v l) = true := by
  induction l with
  | nil => simp [insertKey, keysAbove, hk]
  | cons e l ih =>
    simp only [keysAbove, Bool.and_eq_true, decide_eq_true_eq] at h
    by_cases hj : k < e.1 <;> simp [insertKey, keysAbove, hj, hk, h, ih h.2]

variable [DecidableEq α] (dflt : Nat → α)

/-- Read after write, same key. -/
@[simp] theorem getKey_putKey_self (k : Nat) (v : α) (l : List (Nat × α)) : getKey dflt k (putKey dflt k v l) = v := by
  unfold putKey
  split
  · next h => simp [getKey, lookupKey_eraseKey_self, h]
  · simp [getKey, lookupKey_insertKey_self k v _ (lookupKey_eraseKey_self k l)]

/-- Read after write, another key. -/
theorem getKey_putKey_other {j k : Nat} (h : j ≠ k) (v : α) (l : List (Nat × α)) :
    getKey dflt j (putKey dflt k v l) = getKey dflt j l := by
  unfold putKey
  split <;> simp [getKey, lookupKey_insertKey_other h, lookupKey_eraseKey_other h]

theorem canonical_eraseKey (k : Nat) (l : List (Nat × α)) (h : canonical dflt l = true) :
    canonical dflt (eraseKey k l) = true := by
  induction l with
  | nil => rfl
  | cons e l ih =>
    simp only [canonical, Bool.and_eq_true, decide_eq_true_eq] at h
    by_cases hk : e.1 = k
    · simpa [eraseKey, hk] using ih h.2
    · simp only [eraseKey, hk, if_false, canonical, Bool.and_eq_true, decide_eq_true_eq]
      exact ⟨⟨h.1.1, keysAbove_eraseKey _ _ _ h.1.2⟩, ih h.2⟩

theorem canonical_insertKey (k : Nat) (v : α) (hv : v ≠ dflt k) (l : List (Nat × α)) (h : canonical dflt l = true)
    (hk : lookupKey k l = none) : canonical dflt (insertKey k v l) = true := by
  induction l with
  | nil => simp [insertKey, canonical, keysAbove, hv]
  | cons e l ih =>
    obtain ⟨j, w⟩ := e
    have h' := h
    simp only [canonical, Bool.and_eq_true, decide_eq_true_eq] at h
    have hj : j ≠ k := by rintro rfl; simp [lookupKey] at hk
    simp only [lookupKey, hj, if_false] at hk
    by_cases hlt : k < j
    · simp only [insertKey, hlt, if_true]
      rw [canonical]
      simp [h', hv, keysAbove, hlt, keysAbove_trans hlt l h.1.2]
    · simp only [insertKey, hlt, if_false, canonical, Bool.and_eq_true, decide_eq_true_eq]
      exact ⟨⟨h.1.1, keysAbove_insertKey (by omega) v l h.1.2⟩, ih h.2 hk⟩

/-- Writing a key keeps the canonical form. -/
theorem canonical_putKey (k : Nat) (v : α) (l : List (Nat × α)) (h : canonical dflt l = true) :
    canonical dflt (putKey dflt k v l) = true := by
  unfold putKey
  split
  · exact canonical_eraseKey dflt k l h
  · next hv => exact canonical_insertKey dflt k v hv _ (canonical_eraseKey dflt k l h) (lookupKey_eraseKey_self k l)

omit [DecidableEq α] in
theorem keysAbove_filter (q : Nat × α → Bool) (i : Nat) (l : List (Nat × α)) (h : keysAbove i l = true) :
    keysAbove i (l.filter q) = true := by
  induction l with
  | nil => rfl
  | cons e l ih =>
    simp only [keysAbove, Bool.and_eq_true, decide_eq_true_eq] at h
    by_cases hq : q e <;> simp [List.filter, hq, keysAbove, h, ih h.2]

/-- Dropping entries keeps the canonical form. -/
theorem canonical_filter (q : Nat × α → Bool) (l : List (Nat × α)) (h : canonical dflt l = true) :
    canonical dflt (l.filter q) = true := by
  induction l with
  | nil => rfl
  | cons e l ih =>
    obtain ⟨j, w⟩ := e
    simp only [canonical, Bool.and_eq_true, decide_eq_true_eq] at h
    by_cases hq : q (j, w)
    · simp [List.filter, hq, canonical, h.1.1, keysAbove_filter q j l h.1.2, ih h.2]
    · simpa [List.filter, hq] using ih h.2

end Lists

/-! ## The register file -/

@[simp] theorem RegFile.get_set_self (r : RegFile) (a : Nat) (w : Word) : (r.set a w).get a = w :=
  getKey_putKey_self porValue a w r

theorem RegFile.get_set_other {a b : Nat} (h : a ≠ b) (r : RegFile) (w : Word) : (r.set b w).get a = r.get a :=
  getKey_putKey_other porValue h w r

theorem RegFile.canonical_set (r : RegFile) (a : Nat) (w : Word) (h : canonical porValue r = true) :
    canonical porValue (r.set a w) = true := canonical_putKey porValue a w r h

theorem RegFile.keysAbove_mapRegs (f : Nat → Word → Word) (i : Nat) (r : RegFile) (h : keysAbove i r = true) :
    keysAbove i (r.mapRegs f) = true := by
  induction r with
  | nil => rfl
  | cons e r ih =>
    simp only [keysAbove, Bool.and_eq_true, decide_eq_true_eq] at h
    by_cases hf : f e.1 e.2 = porValue e.1
    · simpa [RegFile.mapRegs, List.filterMap, hf] using ih h.2
    · simpa [RegFile.mapRegs, List.filterMap, hf, keysAbove, h.1] using ih h.2

/-- A reset of the register file keeps its canonical form. -/
theorem RegFile.canonical_mapRegs (f : Nat → Word → Word) (r : RegFile) (h : canonical porValue r = true) :
    canonical porValue (r.mapRegs f) = true := by
  induction r with
  | nil => rfl
  | cons e r ih =>
    simp only [canonical, Bool.and_eq_true, decide_eq_true_eq] at h
    by_cases hf : f e.1 e.2 = porValue e.1
    · simpa [RegFile.mapRegs, List.filterMap, hf] using ih h.2
    · have := ih h.2
      have hk := RegFile.keysAbove_mapRegs f e.1 r h.1.2
      simp only [RegFile.mapRegs] at this hk
      simp [RegFile.mapRegs, List.filterMap, hf, canonical, this, hk]

/-! ## Bit fields -/

theorem getBits_lt (x : Word) (lo width : Nat) : getBits x lo width < 2 ^ width := Nat.mod_lt _ (Nat.two_pow_pos _)

theorem setBits_toNat_lt (x lo width n : Nat) (hw : lo + width ≤ 32) (hx : x < 2 ^ 32) :
    x / 2 ^ (lo + width) * 2 ^ (lo + width) + n % 2 ^ width * 2 ^ lo + x % 2 ^ lo < 2 ^ 32 := by
  obtain ⟨k, hk⟩ := Nat.exists_eq_add_of_le hw
  have hn : n % 2 ^ width < 2 ^ width := Nat.mod_lt _ (Nat.two_pow_pos _)
  have hl : x % 2 ^ lo < 2 ^ lo := Nat.mod_lt _ (Nat.two_pow_pos _)
  have hq : x / 2 ^ (lo + width) < 2 ^ k := by
    rw [Nat.div_lt_iff_lt_mul (Nat.two_pow_pos _), ← pow_add, Nat.add_comm k, ← hk]
    exact hx
  have h1 : (n % 2 ^ width + 1) * 2 ^ lo ≤ 2 ^ width * 2 ^ lo := Nat.mul_le_mul_right _ hn
  have h2 : (x / 2 ^ (lo + width) + 1) * 2 ^ (lo + width) ≤ 2 ^ k * 2 ^ (lo + width) := Nat.mul_le_mul_right _ hq
  rw [← pow_add, Nat.add_comm k, ← hk] at h2
  rw [← pow_add, Nat.add_comm width] at h1
  nlinarith

theorem setBits_toNat (x : Word) (lo width n : Nat) (hw : lo + width ≤ 32) :
    (setBits x lo width n).toNat =
      x.toNat / 2 ^ (lo + width) * 2 ^ (lo + width) + n % 2 ^ width * 2 ^ lo + x.toNat % 2 ^ lo := by
  unfold setBits
  rw [BitVec.toNat_ofNat, Nat.mod_eq_of_lt]
  exact setBits_toNat_lt _ _ _ _ hw x.isLt

/-- A field read after a write of it. -/
theorem getBits_setBits_self (x : Word) (lo width n : Nat) (hw : lo + width ≤ 32) :
    getBits (setBits x lo width n) lo width = n % 2 ^ width := by
  unfold getBits
  rw [setBits_toNat x lo width n hw]
  have hl : x.toNat % 2 ^ lo < 2 ^ lo := Nat.mod_lt _ (Nat.two_pow_pos _)
  have e : x.toNat / 2 ^ (lo + width) * 2 ^ (lo + width) + n % 2 ^ width * 2 ^ lo + x.toNat % 2 ^ lo
      = x.toNat % 2 ^ lo + 2 ^ lo * (x.toNat / 2 ^ (lo + width) * 2 ^ width + n % 2 ^ width) := by
    rw [pow_add]; ring
  rw [e, Nat.add_mul_div_left _ _ (Nat.two_pow_pos _), Nat.div_eq_of_lt hl, Nat.zero_add, Nat.mul_add_mod_self_right,
    Nat.mod_mod]

/-- A field read after a write of a lower one. -/
theorem getBits_setBits_above (x : Word) (lo width n lo' width' : Nat) (hw : lo + width ≤ 32) (h : lo + width ≤ lo') :
    getBits (setBits x lo width n) lo' width' = getBits x lo' width' := by
  unfold getBits
  rw [setBits_toNat x lo width n hw]
  obtain ⟨k, rfl⟩ := Nat.exists_eq_add_of_le h
  have hn : n % 2 ^ width < 2 ^ width := Nat.mod_lt _ (Nat.two_pow_pos _)
  have hl : x.toNat % 2 ^ lo < 2 ^ lo := Nat.mod_lt _ (Nat.two_pow_pos _)
  have hs : n % 2 ^ width * 2 ^ lo + x.toNat % 2 ^ lo < 2 ^ (lo + width) := by
    have h1 : (n % 2 ^ width + 1) * 2 ^ lo ≤ 2 ^ width * 2 ^ lo := Nat.mul_le_mul_right _ hn
    rw [← pow_add, Nat.add_comm width] at h1
    nlinarith
  rw [pow_add 2 (lo + width) k, ← Nat.div_div_eq_div_mul, ← Nat.div_div_eq_div_mul, Nat.add_assoc,
    Nat.add_comm (_ * _), Nat.add_mul_div_right _ _ (Nat.two_pow_pos _), Nat.div_eq_of_lt hs, Nat.zero_add]

/-- A field read after a write of a higher one. -/
theorem getBits_setBits_below (x : Word) (lo width n lo' width' : Nat) (hw : lo + width ≤ 32) (h : lo' + width' ≤ lo) :
    getBits (setBits x lo width n) lo' width' = getBits x lo' width' := by
  unfold getBits
  rw [setBits_toNat x lo width n hw]
  obtain ⟨k, rfl⟩ := Nat.exists_eq_add_of_le h
  set y := x.toNat
  have e : y / 2 ^ (lo' + width' + k + width) * 2 ^ (lo' + width' + k + width) + n % 2 ^ width * 2 ^ (lo' + width' + k)
      + y % 2 ^ (lo' + width' + k)
      = y % 2 ^ (lo' + width' + k) + 2 ^ lo' * (2 ^ width' * (2 ^ k * (y / 2 ^ (lo' + width' + k + width) * 2 ^ width + n % 2 ^ width))) := by
    rw [pow_add, pow_add, pow_add]; ring
  rw [e, Nat.add_mul_div_left _ _ (Nat.two_pow_pos _), Nat.add_mul_mod_self_left]
  have e2 : lo' + width' + k = lo' + (width' + k) := by omega
  rw [e2, pow_add 2 lo', Nat.mod_mul_right_div_self, pow_add, Nat.mod_mul_right_mod]

end Sys2Proof.Machine
end

