-- ==== Sys2Proof/Laws/Keep.lean ====
section
/-! SUPPORT. What every operation of the model keeps: the canonical forms, the queue, the variant, and blown fuses. `Kept r s`
says that `s` keeps what `r` had; each operation `f` has one lemma `f_kept`, so that a claim about every command cites the lemma
of its meaning and unfolds nothing. This file: the relation, and the shared operations of Ops.lean. -/

namespace Sys2Proof.Machine

open Sys2Proof

theorem FusesKept.refl (t : TrustSt) : FusesKept t t := ⟨id, id, fun _ => id, fun _ => id⟩

theorem FusesKept.trans {t u w : TrustSt} (a : FusesKept t u) (b : FusesKept u w) : FusesKept t w :=
  ⟨b.owned ∘ a.owned, b.decommissioned ∘ a.decommissioned, fun k => b.valid k ∘ a.valid k,
    fun k => b.revoked k ∘ a.revoked k⟩

/-- What the OTP keeps: blown fuses, and that one slot at most has an owner. -/
structure OtpKept (t u : TrustSt) : Prop where
  blown : FusesKept t u
  one : OneOwner t → OneOwner u

theorem OtpKept.refl (t : TrustSt) : OtpKept t t := ⟨FusesKept.refl t, id⟩

theorem OtpKept.trans {t u w : TrustSt} (a : OtpKept t u) (b : OtpKept u w) : OtpKept t w := ⟨a.blown.trans b.blown, b.one ∘ a.one⟩

/-- `s` keeps what `r` had. -/
structure Kept (r s : State) : Prop where
  canon : Canonical r → Canonical s
  pend : s.pending = r.pending
  variant : s.variant = r.variant
  fuses : OtpKept r.trust s.trust

theorem Kept.refl (s : State) : Kept s s := ⟨id, rfl, rfl, OtpKept.refl _⟩

theorem Kept.trans {r s t : State} (a : Kept r s) (b : Kept s t) : Kept r t :=
  ⟨b.canon ∘ a.canon, b.pend.trans a.pend, b.variant.trans a.variant, a.fuses.trans b.fuses⟩

/-- A change of other fields keeps everything. -/
theorem Kept.congr {r s t : State} (h : Kept r s) (hr : t.regs = s.regs) (hm : t.mem = s.mem) (hp : t.pending = s.pending)
    (hv : t.variant = s.variant) (ht : t.trust = s.trust) : Kept r t :=
  ⟨fun c => ⟨by rw [hr]; exact (h.canon c).regs, by rw [hm]; exact (h.canon c).mem⟩, hp.trans h.pend, hv.trans h.variant,
    by rw [ht]; exact h.fuses⟩

/-- The same for a state written as an update of `s`. -/
theorem Kept.update {r s : State} (h : Kept r s) {dev : DevState} {time : TimeSt} {rst : ResetSt} {clk : ClockSt} {vatA vatB : VatSt}
    {arb : ArbSt} {harp : HarpSt} {ord : OrderSt} {log : LogSt} {whl : WheelSt} {rind : RindSt} {nv : NvSt} {rcd : RecSt}
    {can : CanSt} {net : NetSt} {bus : BusSt} {free : Nat} :
    Kept r ⟨s.pending, s.variant, dev, s.regs, s.mem, time, rst, clk, vatA, vatB, arb, harp, ord, log, whl, s.trust, rind, nv,
      rcd, can, net, bus, free⟩ := h.congr rfl rfl rfl rfl rfl

/-- A change of the registers that keeps their canonical form. -/
theorem Kept.regs {r s : State} (h : Kept r s) (g : RegFile → RegFile)
    (hg : ∀ x, canonical porValue x = true → canonical porValue (g x) = true) : Kept r { s with regs := g s.regs } :=
  ⟨fun c => ⟨hg _ (h.canon c).regs, (h.canon c).mem⟩, h.pend, h.variant, h.fuses⟩

/-- A change of the memory that keeps its canonical form. -/
theorem Kept.mem {r s : State} (h : Kept r s) (g : Memory → Memory)
    (hg : ∀ x, Memory.wf x = true → Memory.wf (g x) = true) : Kept r { s with mem := g s.mem } :=
  ⟨fun c => ⟨(h.canon c).regs, hg _ (h.canon c).mem⟩, h.pend, h.variant, h.fuses⟩

/-- A change of the trust state that clears no fuse. -/
theorem Kept.trust {r s : State} (h : Kept r s) (u : TrustSt) (hu : OtpKept s.trust u) : Kept r { s with trust := u } :=
  ⟨fun c => ⟨(h.canon c).regs, (h.canon c).mem⟩, h.pend, h.variant, h.fuses.trans hu⟩

/-- `s` keeps what `r` had, but that a transfer of ownership may have been cut short. -/
structure KeptBlown (r s : State) : Prop where
  canon : Canonical r → Canonical s
  pend : s.pending = r.pending
  variant : s.variant = r.variant
  fuses : FusesKept r.trust s.trust

theorem Kept.blown {r s : State} (h : Kept r s) : KeptBlown r s := ⟨h.canon, h.pend, h.variant, h.fuses.blown⟩

theorem KeptBlown.step {r s t : State} (h : KeptBlown r s) (g : Kept s t) : KeptBlown r t :=
  ⟨g.canon ∘ h.canon, g.pend.trans h.pend, g.variant.trans h.variant, h.fuses.trans g.fuses.blown⟩

/-- A change of the trust state that clears no fuse. -/
theorem KeptBlown.trust {r s : State} (h : KeptBlown r s) (u : TrustSt) (hu : FusesKept s.trust u) :
    KeptBlown r { s with trust := u } :=
  ⟨fun c => ⟨(h.canon c).regs, (h.canon c).mem⟩, h.pend, h.variant, h.fuses.trans hu⟩

theorem Memory.wf_write (m : Memory) (a : Nat) (b : Byte) (h : Memory.wf m = true) : Memory.wf (Memory.write m a b) = true :=
  canonical_putKey memDefault a b m h

theorem Memory.wf_clear (m : Memory) (lo hi : Nat) (h : Memory.wf m = true) : Memory.wf (Memory.clear m lo hi) = true :=
  canonical_filter memDefault _ m h

/-- Clearing a span of memory. -/
theorem Kept.clear {r s : State} (h : Kept r s) (lo hi : Nat) : Kept r { s with mem := Memory.clear s.mem lo hi } :=
  h.mem (fun m => Memory.clear m lo hi) (fun m hm => Memory.wf_clear m lo hi hm)

theorem foldl_kept {α : Type} {r : State} (f : State → α → State) (hf : ∀ t a, Kept r t → Kept r (f t a)) (l : List α)
    {s : State} (h : Kept r s) : Kept r (l.foldl f s) := by
  induction l generalizing s with
  | nil => exact h
  | cons a l ih => exact ih (hf s a h)

theorem foldr_kept {α : Type} {r : State} (f : α → State → State) (hf : ∀ t a, Kept r t → Kept r (f a t)) (l : List α)
    {s : State} (h : Kept r s) : Kept r (l.foldr f s) := by
  induction l with
  | nil => exact h
  | cons a l ih => exact hf _ a ih

theorem forN_kept {r s : State} (h : Kept r s) {n : Nat} {f : State → Nat → State}
    (hf : ∀ t i, Kept r t → Kept r (f t i)) : Kept r (forN n s f) := foldl_kept f hf _ h

theorem forVats_kept {r s : State} (h : Kept r s) {f : State → Vat → State}
    (hf : ∀ t v, Kept r t → Kept r (f t v)) : Kept r (forVats s f) := foldl_kept f hf _ h

theorem State.wr_kept {r s : State} (h : Kept r s) (f : Field) (n : Nat) : Kept r (s.wr f n) :=
  h.regs (fun x => x.set f.addr (setBits (s.regs.get f.addr) f.lo f.width n)) (fun x hx => RegFile.canonical_set x _ _ hx)

theorem State.wrWord_kept {r s : State} (h : Kept r s) (a : Nat) (w : Word) : Kept r (s.wrWord a w) :=
  h.regs (fun x => x.set a w) (fun x hx => RegFile.canonical_set x _ _ hx)

theorem State.wrPair_kept {r s : State} (h : Kept r s) (lo hi : Field) (x : Nat) : Kept r (s.wrPair lo hi x) :=
  wr_kept (wr_kept h lo _) hi _

theorem State.mark_kept {r s : State} (h : Kept r s) (a i : Nat) : Kept r (s.mark a i) := h.congr rfl rfl rfl rfl rfl

theorem State.noteWrite_kept {r s : State} (h : Kept r s) (m a : Nat) : Kept r (s.noteWrite m a) := by
  unfold State.noteWrite
  split
  · exact h
  · exact h.congr rfl rfl rfl rfl rfl

theorem State.set1_kept {r s : State} (h : Kept r s) (f : Field) : Kept r (s.set1 f) := mark_kept (wr_kept h f 1) _ _

theorem State.clr_kept {r s : State} (h : Kept r s) (f : Field) : Kept r (s.clr f) := wr_kept h f 0

theorem State.wrBit_kept {r s : State} (h : Kept r s) (f : Field) (i : Nat) (b : Bool) : Kept r (s.wrBit f i b) :=
  wr_kept h f _

theorem State.setBit1_kept {r s : State} (h : Kept r s) (f : Field) (i : Nat) : Kept r (s.setBit1 f i) :=
  mark_kept (wrBit_kept h f i true) _ _

theorem State.wrAs_kept {r s : State} (h : Kept r s) (m : Nat) (f : Field) (n : Nat) : Kept r (s.wrAs m f n) := by
  unfold State.wrAs
  split
  · exact noteWrite_kept h m _
  · exact noteWrite_kept (wr_kept h f n) m _

theorem State.incSat_kept {r s : State} (h : Kept r s) (f : Field) (n : Nat) : Kept r (s.incSat f n) := wr_kept h f _

theorem State.incWrap_kept {r s : State} (h : Kept r s) (f : Field) : Kept r (s.incWrap f) := wr_kept h f _

theorem State.setVat_kept {r s : State} (h : Kept r s) (v : Vat) (x : VatSt) : Kept r (s.setVat v x) := by
  cases v <;> exact h.congr rfl rfl rfl rfl rfl

theorem State.modVat_kept {r s : State} (h : Kept r s) (v : Vat) (f : VatSt → VatSt) : Kept r (s.modVat v f) :=
  setVat_kept h v _

theorem State.useFree_kept {r s : State} (h : Kept r s) : Kept r s.useFree := h.congr rfl rfl rfl rfl rfl

theorem State.writeByte_kept {r s : State} (h : Kept r s) (a : Nat) (b : Byte) : Kept r (s.writeByte a b) :=
  h.mem (fun m => Memory.write m a b) (fun m hm => Memory.wf_write m a b hm)

theorem State.writeBytes_kept {r s : State} (h : Kept r s) (a : Nat) (bs : List Byte) : Kept r (s.writeBytes a bs) := by
  induction bs generalizing s a with
  | nil => exact h
  | cons b bs ih => exact ih (writeByte_kept h a b) (a + 1)

theorem State.writeMem_kept {r s : State} (h : Kept r s) (a : Nat) (w : Word) : Kept r (s.writeMem a w) :=
  writeBytes_kept h a _

theorem State.countLost_kept {r s : State} (h : Kept r s) (lost : Bool) : Kept r (s.countLost lost) := by
  cases lost
  · exact h
  · exact set1_kept (incSat_kept h _ _) _

theorem State.endLog_kept {r s : State} (h : Kept r s) : Kept r s.endLog := h.update

theorem State.event_kept {r s : State} (h : Kept r s) (source code data : Nat) : Kept r (s.event source code data) :=
  countLost_kept h.update _

theorem State.vatEvent_kept {r s : State} (h : Kept r s) (v : Vat) (u code data : Nat) :
    Kept r (s.vatEvent v u code data) := by
  unfold State.vatEvent
  split
  · exact h
  · exact event_kept h _ _ _

theorem State.vatFlagEdge_kept {r s : State} (h : Kept r s) (v : Vat) (u : Nat) (f : Field) : Kept r (s.vatFlagEdge v u f) :=
  vatEvent_kept (set1_kept h f) v u _ _

theorem State.flag_kept {r s : State} (h : Kept r s) (source : Nat) (f : Field) : Kept r (s.flag source f) := by
  unfold State.flag
  split
  · exact mark_kept h _ _
  · exact event_kept (set1_kept h f) _ _ _

theorem State.vatFlag_kept {r s : State} (h : Kept r s) (v : Vat) (u : Nat) (f : Field) : Kept r (s.vatFlag v u f) := by
  unfold State.vatFlag
  split
  · exact h
  · exact flag_kept h _ f

theorem State.vatFlagBit_kept {r s : State} (h : Kept r s) (v : Vat) (u : Nat) (f : Field) (i : Nat) :
    Kept r (s.vatFlagBit v u f i) := vatFlag_kept h v u _

end Sys2Proof.Machine
end

