-- ==== Sys2Proof/Laws/KeepPorts.lean ====
section
/-! SUPPORT. What the operations of Machine/Ports.lean keep (Laws/Keep.lean): one lemma for each. -/

namespace Sys2Proof.Machine

open Sys2Proof

theorem modPort_kept {s₀ s : State} (hs : Kept s₀ s) (v : Vat) (p : Nat) (f : PortSt → PortSt) : Kept s₀ (modPort s v p f) := by
  unfold modPort
  repeat' first
    | with_reducible assumption
    | with_reducible apply State.modVat_kept

theorem modLeg_kept {s₀ s : State} (hs : Kept s₀ s) (v : Vat) (n : Nat) (f : LegSt → LegSt) : Kept s₀ (modLeg s v n f) := by
  unfold modLeg
  repeat' first
    | with_reducible assumption
    | with_reducible apply State.modVat_kept

theorem modDlr_kept {s₀ s : State} (hs : Kept s₀ s) (v : Vat) (n : Nat) (f : DlrSt → DlrSt) : Kept s₀ (modDlr s v n f) := by
  unfold modDlr
  repeat' first
    | with_reducible assumption
    | with_reducible apply State.modVat_kept

theorem enRises_kept {s₀ s : State} (hs : Kept s₀ s) (v : Vat) (n : Nat) : Kept s₀ (enRises s v n) := by
  unfold enRises
  repeat' first
    | with_reducible assumption
    | with_reducible apply State.set1_kept
    | with_reducible apply modLeg_kept
    | (with_reducible refine foldl_kept _ ?_ _ ?_)
    | (with_reducible refine foldr_kept _ ?_ _ ?_)
    | split

theorem setPins_kept {s₀ s : State} (hs : Kept s₀ s) (v : Vat) (n : Nat) (pulse : Bool) (en : Bool) : Kept s₀ (setPins s v n pulse en) := by
  unfold setPins
  repeat' first
    | with_reducible assumption
    | (extract_lets +onlyGivenNames t; refine (fun (g : Kept s₀ t) => ?_) ?_; clear_value t; rotate_left; subst t)
    | with_reducible apply enRises_kept
    | with_reducible apply modLeg_kept
    | with_reducible apply State.wr_kept
    | (with_reducible refine foldl_kept _ ?_ _ ?_)
    | (with_reducible refine foldr_kept _ ?_ _ ?_)
    | split

theorem setPortPins_kept {s₀ s : State} (hs : Kept s₀ s) (v : Vat) (p : Nat) (pulse : Bool) (en : Bool) : Kept s₀ (setPortPins s v p pulse en) := by
  unfold setPortPins
  repeat' first
    | with_reducible assumption
    | with_reducible apply setPins_kept
    | (with_reducible refine foldl_kept _ ?_ _ ?_)
    | (with_reducible refine foldr_kept _ ?_ _ ?_)
    | split
    | (intro t x y g)
    | (intro t x g)

theorem drivePattern_kept {s₀ s : State} (hs : Kept s₀ s) (v : Vat) (p : Nat) (fp : Nat) : Kept s₀ (drivePattern s v p fp) := by
  unfold drivePattern
  repeat' first
    | with_reducible assumption
    | with_reducible apply setPortPins_kept
    | with_reducible apply State.wr_kept

theorem toAllOff_kept {s₀ s : State} (hs : Kept s₀ s) (v : Vat) (p : Nat) : Kept s₀ (toAllOff s v p) := by
  unfold toAllOff
  repeat' first
    | with_reducible assumption
    | with_reducible apply State.vatEvent_kept
    | with_reducible apply State.set1_kept
    | with_reducible apply drivePattern_kept

theorem ascFallback_kept {s₀ s : State} (hs : Kept s₀ s) (v : Vat) (p : Nat) : Kept s₀ (ascFallback s v p) := by
  unfold ascFallback
  repeat' first
    | with_reducible assumption
    | with_reducible apply toAllOff_kept
    | (with_reducible refine foldl_kept _ ?_ _ ?_)
    | (with_reducible refine foldr_kept _ ?_ _ ?_)
    | split
    | (intro t x y g)
    | (intro t x g)
    | (intro t g)
    | (extract_lets +onlyGivenNames t; clear_value t)

theorem modGuard_kept {s₀ s : State} (hs : Kept s₀ s) (v : Vat) (p : Nat) (f : GuardSt → GuardSt) : Kept s₀ (modGuard s v p f) := by
  unfold modGuard
  repeat' first
    | with_reducible assumption
    | with_reducible apply State.modVat_kept

theorem restoreOl_kept {s₀ s : State} (hs : Kept s₀ s) (v : Vat) (p : Nat) : Kept s₀ (restoreOl s v p) := by
  unfold restoreOl
  repeat' first
    | with_reducible assumption
    | with_reducible apply modGuard_kept
    | with_reducible apply State.wr_kept

theorem leaveRun_kept {s₀ s : State} (hs : Kept s₀ s) (v : Vat) (p : Nat) : Kept s₀ (leaveRun s v p) := by
  unfold leaveRun
  repeat' first
    | with_reducible assumption
    | (extract_lets +onlyGivenNames t; refine (fun (g : Kept s₀ t) => ?_) ?_; clear_value t; rotate_left; subst t)
    | with_reducible apply modPort_kept
    | with_reducible apply State.clr_kept
    | with_reducible apply modLeg_kept
    | with_reducible apply restoreOl_kept
    | (with_reducible refine foldl_kept _ ?_ _ ?_)
    | (with_reducible refine foldr_kept _ ?_ _ ?_)
    | split
    | (intro t x y g)
    | (intro t x g)

theorem enterRun_kept {s₀ s : State} (hs : Kept s₀ s) (v : Vat) (p : Nat) : Kept s₀ (enterRun s v p) := by
  unfold enterRun
  repeat' first
    | with_reducible assumption
    | with_reducible apply modLeg_kept
    | (with_reducible refine foldl_kept _ ?_ _ ?_)
    | (with_reducible refine foldr_kept _ ?_ _ ?_)
    | split
    | (intro t x y g)
    | (intro t x g)

theorem setPortState_kept {s₀ s : State} (hs : Kept s₀ s) (v : Vat) (p : Nat) (new : Nat) (cause : Nat) : Kept s₀ (setPortState s v p new cause) := by
  unfold setPortState
  repeat' first
    | with_reducible assumption
    | (extract_lets +onlyGivenNames t; refine (fun (g : Kept s₀ t) => ?_) ?_; clear_value t; rotate_left; subst t)
    | with_reducible apply leaveRun_kept
    | with_reducible apply modPort_kept
    | with_reducible apply State.clr_kept
    | with_reducible apply setPortPins_kept
    | with_reducible apply enterRun_kept
    | with_reducible apply State.vatEvent_kept
    | with_reducible apply State.wr_kept
    | (with_reducible refine foldl_kept _ ?_ _ ?_)
    | (with_reducible refine foldr_kept _ ?_ _ ?_)
    | split
    | (intro t x y g)
    | (intro t x g)
    | (intro t g)
    | (extract_lets +onlyGivenNames t; clear_value t)

theorem enterPattern1_kept {s₀ s : State} (hs : Kept s₀ s) (v : Vat) (p : Nat) (cause : Nat) (fp : Nat) (fallback : Bool) : Kept s₀ (enterPattern1 s v p cause fp fallback) := by
  unfold enterPattern1
  repeat' first
    | with_reducible assumption
    | (extract_lets +onlyGivenNames t; refine (fun (g : Kept s₀ t) => ?_) ?_; clear_value t; rotate_left; subst t)
    | with_reducible apply setPortState_kept
    | with_reducible apply State.incSat_kept
    | with_reducible apply State.wr_kept
    | with_reducible apply toAllOff_kept
    | with_reducible apply drivePattern_kept
    | (with_reducible refine foldl_kept _ ?_ _ ?_)
    | (with_reducible refine foldr_kept _ ?_ _ ?_)
    | split

theorem enterUnitPattern_kept {s₀ s : State} (hs : Kept s₀ s) (v : Vat) (p : Nat) (cause : Nat → Nat) : Kept s₀ (enterUnitPattern s v p cause) := by
  unfold enterUnitPattern
  repeat' first
    | with_reducible assumption
    | (extract_lets +onlyGivenNames t; refine (fun (g : Kept s₀ t) => ?_) ?_; clear_value t; rotate_left; subst t)
    | with_reducible apply enterPattern1_kept
    | with_reducible apply setPortState_kept
    | (with_reducible refine foldl_kept _ ?_ _ ?_)
    | (with_reducible refine foldr_kept _ ?_ _ ?_)
    | split
    | (intro t x y g)
    | (intro t x g)
    | (intro t g)
    | (extract_lets +onlyGivenNames t; clear_value t)

theorem enterFaultPattern_kept {s₀ s : State} (hs : Kept s₀ s) (v : Vat) (p : Nat) (cause : Nat) : Kept s₀ (enterFaultPattern s v p cause) := by
  unfold enterFaultPattern
  repeat' first
    | with_reducible assumption
    | with_reducible apply enterUnitPattern_kept

theorem armEffects_kept {s₀ s : State} (hs : Kept s₀ s) (v : Vat) (q : Nat) : Kept s₀ (armEffects s v q) := by
  unfold armEffects
  repeat' first
    | with_reducible assumption
    | with_reducible apply State.wrBit_kept
    | with_reducible apply State.vatFlagBit_kept
    | with_reducible apply State.vatFlagEdge_kept
    | (with_reducible refine foldl_kept _ ?_ _ ?_)
    | (with_reducible refine foldr_kept _ ?_ _ ?_)
    | split
    | (intro t x y g)
    | (intro t x g)

theorem actOnCauses_kept {s₀ s : State} (hs : Kept s₀ s) (v : Vat) (p : Nat) : Kept s₀ (actOnCauses s v p) := by
  unfold actOnCauses
  repeat' first
    | with_reducible assumption
    | (extract_lets +onlyGivenNames t; refine (fun (g : Kept s₀ t) => ?_) ?_; clear_value t; rotate_left; subst t)
    | with_reducible apply armEffects_kept
    | with_reducible apply enterUnitPattern_kept
    | (with_reducible refine foldl_kept _ ?_ _ ?_)
    | (with_reducible refine foldr_kept _ ?_ _ ?_)
    | split
    | (intro t x y g)
    | (intro t x g)
    | (intro t g)
    | (extract_lets +onlyGivenNames t; clear_value t)

theorem setUnitState_kept {s₀ s : State} (hs : Kept s₀ s) (v : Vat) (p : Nat) (new : Nat) : Kept s₀ (setUnitState s v p new) := by
  unfold setUnitState
  repeat' first
    | with_reducible assumption
    | with_reducible apply setPortState_kept
    | (with_reducible refine foldl_kept _ ?_ _ ?_)
    | (with_reducible refine foldr_kept _ ?_ _ ?_)
    | split
    | (intro t x y g)
    | (intro t x g)

theorem armUnit_kept {s₀ s : State} (hs : Kept s₀ s) (v : Vat) (p : Nat) : Kept s₀ (armUnit s v p) := by
  unfold armUnit
  repeat' first
    | with_reducible assumption
    | (extract_lets +onlyGivenNames t; refine (fun (g : Kept s₀ t) => ?_) ?_; clear_value t; rotate_left; subst t)
    | with_reducible apply setUnitState_kept
    | with_reducible apply actOnCauses_kept
    | (with_reducible refine foldl_kept _ ?_ _ ?_)
    | (with_reducible refine foldr_kept _ ?_ _ ?_)
    | split

end Sys2Proof.Machine
end

