-- ==== Sys2Proof/Laws/KeepSafe.lean ====
section
/-! SUPPORT. What the operations of Machine/Safe.lean keep (Laws/Keep.lean): one lemma for each. -/

namespace Sys2Proof.Machine

open Sys2Proof

theorem setDev_kept {s₀ s : State} (hs : Kept s₀ s) (d : DevState) : Kept s₀ (setDev s d) := by
  unfold setDev
  repeat' first
    | with_reducible assumption
    | (extract_lets +onlyGivenNames t; refine (fun (g : Kept s₀ t) => ?_) ?_; clear_value t; rotate_left; subst t)
    | with_reducible apply State.event_kept
    | (with_reducible refine foldl_kept _ ?_ _ ?_)
    | (with_reducible refine foldr_kept _ ?_ _ ?_)
    | split
    | (intro t x y g)
    | (intro t x g)
    | (intro t g)
    | (extract_lets +onlyGivenNames t; clear_value t)
    | with_reducible apply Kept.update

theorem takeBackTest_kept {s₀ s : State} (hs : Kept s₀ s) (t : TestEnd) : Kept s₀ (takeBackTest s t) := by
  unfold takeBackTest
  repeat' first
    | with_reducible assumption
    | (extract_lets +onlyGivenNames t; refine (fun (g : Kept s₀ t) => ?_) ?_; clear_value t; rotate_left; subst t)
    | with_reducible apply State.wr_kept
    | with_reducible apply State.wrBit_kept
    | (with_reducible refine foldl_kept _ ?_ _ ?_)
    | (with_reducible refine foldr_kept _ ?_ _ ?_)
    | split

theorem countAbandoned_kept {s₀ s : State} (hs : Kept s₀ s) (n : Nat) : Kept s₀ (countAbandoned s n) := by
  unfold countAbandoned
  repeat' first
    | with_reducible assumption
    | with_reducible apply State.event_kept
    | with_reducible apply State.incSat_kept
    | with_reducible apply State.set1_kept

theorem abandonTest_kept {s₀ s : State} (hs : Kept s₀ s) (n : Nat) : Kept s₀ (abandonTest s n) := by
  unfold abandonTest
  repeat' first
    | with_reducible assumption
    | (extract_lets +onlyGivenNames t; refine (fun (g : Kept s₀ t) => ?_) ?_; clear_value t; rotate_left; subst t)
    | with_reducible apply countAbandoned_kept
    | with_reducible apply State.wrBit_kept
    | with_reducible apply takeBackTest_kept
    | (with_reducible refine foldl_kept _ ?_ _ ?_)
    | (with_reducible refine foldr_kept _ ?_ _ ?_)
    | split
    | (intro t x y g)
    | (intro t x g)
    | (intro t g)
    | (extract_lets +onlyGivenNames t; clear_value t)
    | with_reducible apply Kept.update

theorem gateOff_kept {s₀ s : State} (hs : Kept s₀ s) : Kept s₀ (gateOff s) := by
  unfold gateOff
  repeat' first
    | with_reducible assumption
    | (extract_lets +onlyGivenNames t; refine (fun (g : Kept s₀ t) => ?_) ?_; clear_value t; rotate_left; subst t)
    | with_reducible apply forN_kept
    | with_reducible apply abandonTest_kept
    | with_reducible apply State.wrBit_kept
    | with_reducible apply State.clr_kept
    | (with_reducible refine foldl_kept _ ?_ _ ?_)
    | (with_reducible refine foldr_kept _ ?_ _ ?_)
    | split
    | (intro t x y g)
    | (intro t x g)
    | (intro t g)
    | (extract_lets +onlyGivenNames t; clear_value t)
    | with_reducible apply Kept.update

theorem gateOn_kept {s₀ s : State} (hs : Kept s₀ s) : Kept s₀ (gateOn s) := by
  unfold gateOn
  repeat' first
    | with_reducible assumption
    | with_reducible apply forN_kept
    | with_reducible apply State.wrBit_kept
    | with_reducible apply State.set1_kept
    | (with_reducible refine foldl_kept _ ?_ _ ?_)
    | (with_reducible refine foldr_kept _ ?_ _ ?_)
    | split
    | (intro t x y g)
    | (intro t x g)
    | (intro t g)
    | (extract_lets +onlyGivenNames t; clear_value t)
    | with_reducible apply Kept.update

theorem idlePorts_kept {s₀ s : State} (hs : Kept s₀ s) : Kept s₀ (idlePorts s) := by
  unfold idlePorts
  repeat' first
    | with_reducible assumption
    | with_reducible apply forVats_kept
    | with_reducible apply forN_kept
    | with_reducible apply setPortState_kept
    | (with_reducible refine foldl_kept _ ?_ _ ?_)
    | (with_reducible refine foldr_kept _ ?_ _ ?_)
    | split
    | (intro t x y g)
    | (intro t x g)

theorem endRide_kept {s₀ s : State} (hs : Kept s₀ s) : Kept s₀ (endRide s) := by
  unfold endRide
  repeat' first
    | with_reducible assumption
    | (extract_lets +onlyGivenNames t; refine (fun (g : Kept s₀ t) => ?_) ?_; clear_value t; rotate_left; subst t)
    | with_reducible apply State.clr_kept
    | (with_reducible refine foldl_kept _ ?_ _ ?_)
    | (with_reducible refine foldr_kept _ ?_ _ ?_)
    | split
    | (intro t x y g)
    | (intro t x g)
    | (intro t g)
    | (extract_lets +onlyGivenNames t; clear_value t)
    | with_reducible apply Kept.update

theorem enterSafeStop_kept {s₀ s : State} (hs : Kept s₀ s) (src : Nat) : Kept s₀ (enterSafeStop s src) := by
  unfold enterSafeStop
  repeat' first
    | with_reducible assumption
    | (extract_lets +onlyGivenNames t; refine (fun (g : Kept s₀ t) => ?_) ?_; clear_value t; rotate_left; subst t)
    | with_reducible apply gateOff_kept
    | with_reducible apply State.clr_kept
    | with_reducible apply State.wr_kept
    | with_reducible apply State.set1_kept
    | with_reducible apply State.event_kept
    | with_reducible apply endRide_kept
    | with_reducible apply idlePorts_kept
    | with_reducible apply setDev_kept
    | (with_reducible refine foldl_kept _ ?_ _ ?_)
    | (with_reducible refine foldr_kept _ ?_ _ ?_)
    | split
    | (intro t x y g)
    | (intro t x g)
    | (intro t g)
    | (extract_lets +onlyGivenNames t; clear_value t)
    | with_reducible apply Kept.update

theorem takeSto_kept {s₀ s : State} (hs : Kept s₀ s) (src : Nat) : Kept s₀ (takeSto s src) := by
  unfold takeSto
  repeat' first
    | with_reducible assumption
    | with_reducible apply enterSafeStop_kept
    | (with_reducible refine foldl_kept _ ?_ _ ?_)
    | (with_reducible refine foldr_kept _ ?_ _ ?_)
    | split

theorem startSs1_kept {s₀ s : State} (hs : Kept s₀ s) (src : Nat) (kind : Ss1Kind) : Kept s₀ (startSs1 s src kind) := by
  unfold startSs1
  repeat' first
    | with_reducible assumption
    | (extract_lets +onlyGivenNames t; refine (fun (g : Kept s₀ t) => ?_) ?_; clear_value t; rotate_left; subst t)
    | with_reducible apply State.wr_kept
    | with_reducible apply State.set1_kept
    | with_reducible apply State.event_kept
    | with_reducible apply endRide_kept
    | (with_reducible refine foldl_kept _ ?_ _ ?_)
    | (with_reducible refine foldr_kept _ ?_ _ ?_)
    | split
    | (intro t x y g)
    | (intro t x g)
    | (intro t g)
    | (extract_lets +onlyGivenNames t; clear_value t)
    | with_reducible apply Kept.update

theorem notePresent_kept {s₀ s : State} (hs : Kept s₀ s) (bit : Nat) : Kept s₀ (notePresent s bit) := by
  unfold notePresent
  repeat' first
    | with_reducible assumption
    | (with_reducible refine foldl_kept _ ?_ _ ?_)
    | (with_reducible refine foldr_kept _ ?_ _ ?_)
    | split
    | (intro t x y g)
    | (intro t x g)
    | (intro t g)
    | (extract_lets +onlyGivenNames t; clear_value t)
    | with_reducible apply Kept.update

theorem safetyFault_kept {s₀ s : State} (hs : Kept s₀ s) (bit : Nat) : Kept s₀ (safetyFault s bit) := by
  unfold safetyFault
  repeat' first
    | with_reducible assumption
    | (extract_lets +onlyGivenNames t; refine (fun (g : Kept s₀ t) => ?_) ?_; clear_value t; rotate_left; subst t)
    | with_reducible apply notePresent_kept
    | with_reducible apply State.wrBit_kept
    | with_reducible apply State.wr_kept
    | with_reducible apply State.set1_kept
    | with_reducible apply State.event_kept
    | (with_reducible refine foldl_kept _ ?_ _ ?_)
    | (with_reducible refine foldr_kept _ ?_ _ ?_)
    | split
    | (intro t x y g)
    | (intro t x g)
    | (intro t g)
    | (extract_lets +onlyGivenNames t; clear_value t)
    | with_reducible apply Kept.update

theorem ordersOnUnit_kept {s₀ s : State} (hs : Kept s₀ s) (v : Vat) (p : Nat) : Kept s₀ (ordersOnUnit s v p) := by
  unfold ordersOnUnit
  repeat' first
    | with_reducible assumption
    | (extract_lets +onlyGivenNames t; refine (fun (g : Kept s₀ t) => ?_) ?_; clear_value t; rotate_left; subst t)
    | with_reducible apply setUnitState_kept
    | with_reducible apply armUnit_kept
    | (with_reducible refine foldl_kept _ ?_ _ ?_)
    | (with_reducible refine foldr_kept _ ?_ _ ?_)
    | split

theorem ordersOnPorts_kept {s₀ s : State} (hs : Kept s₀ s) : Kept s₀ (ordersOnPorts s) := by
  unfold ordersOnPorts
  repeat' first
    | with_reducible assumption
    | with_reducible apply forVats_kept
    | with_reducible apply forN_kept
    | with_reducible apply ordersOnUnit_kept
    | (with_reducible refine foldl_kept _ ?_ _ ?_)
    | (with_reducible refine foldr_kept _ ?_ _ ?_)
    | split
    | (intro t x y g)
    | (intro t x g)

theorem degSet_kept {s₀ s : State} (hs : Kept s₀ s) (bit : Nat) : Kept s₀ (degSet s bit) := by
  unfold degSet
  repeat' first
    | with_reducible assumption
    | (extract_lets +onlyGivenNames t; refine (fun (g : Kept s₀ t) => ?_) ?_; clear_value t; rotate_left; subst t)
    | with_reducible apply State.wrBit_kept
    | with_reducible apply State.event_kept
    | (with_reducible refine foldl_kept _ ?_ _ ?_)
    | (with_reducible refine foldr_kept _ ?_ _ ?_)
    | split

theorem refreshDeg_kept {s₀ s : State} (hs : Kept s₀ s) : Kept s₀ (refreshDeg s) := by
  unfold refreshDeg
  repeat' first
    | with_reducible assumption
    | with_reducible apply State.event_kept
    | with_reducible apply State.wr_kept
    | (with_reducible refine foldl_kept _ ?_ _ ?_)
    | (with_reducible refine foldr_kept _ ?_ _ ?_)
    | split
    | (intro t x y g)
    | (intro t x g)
    | (intro t g)
    | (extract_lets +onlyGivenNames t; clear_value t)

theorem refreshDev_kept {s₀ s : State} (hs : Kept s₀ s) : Kept s₀ (refreshDev s) := by
  unfold refreshDev
  repeat' first
    | with_reducible assumption
    | with_reducible apply setDev_kept
    | (with_reducible refine foldl_kept _ ?_ _ ?_)
    | (with_reducible refine foldr_kept _ ?_ _ ?_)
    | split

theorem ss1End_kept {s₀ s : State} (hs : Kept s₀ s) : Kept s₀ (ss1End s) := by
  unfold ss1End
  repeat' first
    | with_reducible assumption
    | with_reducible apply enterSafeStop_kept
    | (with_reducible refine foldl_kept _ ?_ _ ?_)
    | (with_reducible refine foldr_kept _ ?_ _ ?_)
    | split

end Sys2Proof.Machine
end

