-- ==== Sys2Proof/Laws/KeepResetCore.lean ====
section
/-! SUPPORT. What the operations of Machine/ResetCore.lean keep (Laws/Keep.lean): one lemma for each. -/

namespace Sys2Proof.Machine

open Sys2Proof

theorem vatRegsReset_kept {r s : State} (h : Kept r s) (v : Vat) (pick : Nat → Bool) : Kept r (vatRegsReset s v pick) := by
  unfold vatRegsReset
  exact h.regs (fun x => x.mapRegs _) (fun x hx => RegFile.canonical_mapRegs _ x hx)

theorem recordCause_kept {s₀ s : State} (hs : Kept s₀ s) (code : Nat) (level : Nat) (vat : Nat) : Kept s₀ (recordCause s code level vat) := by
  unfold recordCause
  repeat' first
    | with_reducible assumption
    | (extract_lets +onlyGivenNames t; refine (fun (g : Kept s₀ t) => ?_) ?_; clear_value t; rotate_left; subst t)
    | with_reducible apply State.wr_kept
    | with_reducible apply State.incSat_kept
    | (with_reducible refine foldl_kept _ ?_ _ ?_)
    | (with_reducible refine foldr_kept _ ?_ _ ?_)
    | split

theorem Memory.wf_clearSrams (m : Memory) (h : Memory.wf m = true) : Memory.wf (clearSrams m) = true := by
  unfold clearSrams
  exact Memory.wf_clear _ _ _ (Memory.wf_clear _ _ _ (Memory.wf_clear _ _ _ (Memory.wf_clear _ _ _ (Memory.wf_clear _ _ _ h))))

theorem sysCleared_kept {r s : State} (h : Kept r s) (clockLoss : Bool) : Kept r (sysCleared s clockLoss) := by
  refine ⟨fun c => ⟨?_, Memory.wf_clearSrams _ (h.canon c).mem⟩, h.pend, h.variant, h.fuses.trans ⟨⟨id, id, fun _ => id, fun _ => id⟩, id⟩⟩
  have g := RegFile.canonical_mapRegs (fun a w =>
    match findReg a with
    | some (row, is) => keepBits (BitVec.ofNat 32 (porOf row is)) w row.keepSys
    | none => 0) s.regs (h.canon c).regs
  unfold sysCleared
  dsimp only
  split
  · exact g
  · exact RegFile.canonical_set _ _ _ g

theorem recordSys_kept {s₀ s : State} (hs : Kept s₀ s) (code : Nat) (again : Bool) : Kept s₀ (recordSys s code again) := by
  unfold recordSys
  repeat' first
    | with_reducible assumption
    | with_reducible apply State.wr_kept
    | with_reducible apply recordCause_kept
    | (with_reducible refine foldl_kept _ ?_ _ ?_)
    | (with_reducible refine foldr_kept _ ?_ _ ?_)
    | split

theorem sysReset_kept {s₀ s : State} (hs : Kept s₀ s) (code : Nat) : Kept s₀ (sysReset s code) := by
  unfold sysReset
  repeat' first
    | with_reducible assumption
    | with_reducible apply recordSys_kept
    | with_reducible apply sysCleared_kept
    | (with_reducible refine foldl_kept _ ?_ _ ?_)
    | (with_reducible refine foldr_kept _ ?_ _ ?_)
    | split
    | (intro t x y g)
    | (intro t x g)
    | (intro t g)
    | (extract_lets +onlyGivenNames t; clear_value t)
    | with_reducible apply Kept.update

theorem requestSys_kept {s₀ s : State} (hs : Kept s₀ s) (code : Nat) : Kept s₀ (requestSys s code) := by
  unfold requestSys
  repeat' first
    | with_reducible assumption
    | with_reducible apply sysReset_kept
    | (with_reducible refine foldl_kept _ ?_ _ ?_)
    | (with_reducible refine foldr_kept _ ?_ _ ?_)
    | split

theorem porCleared_kept {r s : State} (h : Kept r s) : Kept r (porCleared s) :=
  ⟨fun c => ⟨RegFile.canonical_mapRegs (fun a w =>
    match findReg a with
    | some (row, is) => keepBits (BitVec.ofNat 32 (porOf row is)) w row.keepPor
    | none => 0) _ (h.canon c).regs, Memory.wf_clearSrams _ (h.canon c).mem⟩, h.pend, h.variant,
    h.fuses.trans ⟨⟨id, id, fun _ => id, fun _ => id⟩, id⟩⟩

theorem brownOut_kept {s₀ s : State} (hs : Kept s₀ s) : Kept s₀ (brownOut s) := by
  unfold brownOut
  repeat' first
    | with_reducible assumption
    | (extract_lets +onlyGivenNames t; refine (fun (g : Kept s₀ t) => ?_) ?_; clear_value t; rotate_left; subst t)
    | with_reducible apply recordCause_kept
    | with_reducible apply porCleared_kept
    | (with_reducible refine foldl_kept _ ?_ _ ?_)
    | (with_reducible refine foldr_kept _ ?_ _ ?_)
    | split
    | (intro t x y g)
    | (intro t x g)
    | (intro t g)
    | (extract_lets +onlyGivenNames t; clear_value t)
    | with_reducible apply Kept.update

end Sys2Proof.Machine
end

