-- ==== Sys2Proof/Laws/KeepVats.lean ====
section
/-! SUPPORT. What the operations of Machine/Vats.lean keep (Laws/Keep.lean): one lemma for each. -/

namespace Sys2Proof.Machine

open Sys2Proof

theorem setRole_kept {s₀ s : State} (hs : Kept s₀ s) (v : Vat) (r : Nat) : Kept s₀ (setRole s v r) := by
  unfold setRole
  repeat' first
    | with_reducible assumption
    | with_reducible apply State.event_kept
    | with_reducible apply State.wr_kept
    | (with_reducible refine foldl_kept _ ?_ _ ?_)
    | (with_reducible refine foldr_kept _ ?_ _ ?_)
    | split

theorem resetPulse_kept {s₀ s : State} (hs : Kept s₀ s) (v : Vat) : Kept s₀ (resetPulse s v) := by
  unfold resetPulse
  repeat' first
    | with_reducible assumption
    | (extract_lets +onlyGivenNames t; refine (fun (g : Kept s₀ t) => ?_) ?_; clear_value t; rotate_left; subst t)
    | with_reducible apply vatRegsReset_kept
    | with_reducible apply State.modVat_kept

theorem finishHandover_kept {s₀ s : State} (hs : Kept s₀ s) : Kept s₀ (finishHandover s) := by
  unfold finishHandover
  repeat' first
    | with_reducible assumption
    | (extract_lets +onlyGivenNames t; refine (fun (g : Kept s₀ t) => ?_) ?_; clear_value t; rotate_left; subst t)
    | with_reducible apply State.clr_kept
    | with_reducible apply resetPulse_kept
    | (with_reducible refine foldl_kept _ ?_ _ ?_)
    | (with_reducible refine foldr_kept _ ?_ _ ?_)
    | split
    | (intro t x y g)
    | (intro t x g)
    | (intro t g)
    | (extract_lets +onlyGivenNames t; clear_value t)
    | with_reducible apply Kept.update

theorem foldEvents_kept {s₀ s : State} (hs : Kept s₀ s) (v : Vat) (p : Nat) (peak : Bool) : Kept s₀ (foldEvents s v p peak) := by
  unfold foldEvents
  repeat' first
    | with_reducible assumption
    | with_reducible apply modPort_kept
    | (with_reducible refine foldl_kept _ ?_ _ ?_)
    | (with_reducible refine foldr_kept _ ?_ _ ?_)
    | split

theorem passPending_kept {s₀ s : State} (hs : Kept s₀ s) : Kept s₀ (passPending s) := by
  unfold passPending
  repeat' first
    | with_reducible assumption
    | (extract_lets +onlyGivenNames t; refine (fun (g : Kept s₀ t) => ?_) ?_; clear_value t; rotate_left; subst t)
    | with_reducible apply finishHandover_kept
    | with_reducible apply State.wr_kept
    | (with_reducible refine foldl_kept _ ?_ _ ?_)
    | (with_reducible refine foldr_kept _ ?_ _ ?_)
    | split
    | (intro t x y g)
    | (intro t x g)
    | (intro t g)
    | with_reducible apply Kept.update

theorem passAll_kept {s₀ s : State} (hs : Kept s₀ s) : Kept s₀ (passAll s) := by
  unfold passAll
  repeat' first
    | with_reducible assumption
    | (extract_lets +onlyGivenNames t; refine (fun (g : Kept s₀ t) => ?_) ?_; clear_value t; rotate_left; subst t)
    | with_reducible apply finishHandover_kept
    | with_reducible apply State.wr_kept
    | (with_reducible refine foldl_kept _ ?_ _ ?_)
    | (with_reducible refine foldr_kept _ ?_ _ ?_)
    | split
    | (intro t x y g)
    | (intro t x g)
    | (intro t g)
    | (extract_lets +onlyGivenNames t; clear_value t)
    | with_reducible apply Kept.update

theorem abortDrill_kept {s₀ s : State} (hs : Kept s₀ s) : Kept s₀ (abortDrill s) := by
  unfold abortDrill
  repeat' first
    | with_reducible assumption
    | with_reducible apply State.event_kept
    | with_reducible apply State.set1_kept
    | with_reducible apply State.clr_kept
    | (with_reducible refine foldl_kept _ ?_ _ ?_)
    | (with_reducible refine foldr_kept _ ?_ _ ?_)
    | split
    | (intro t x y g)
    | (intro t x g)
    | (intro t g)
    | (extract_lets +onlyGivenNames t; clear_value t)
    | with_reducible apply Kept.update

theorem sigdefMove_kept {s₀ s : State} (hs : Kept s₀ s) (e : Nat) (i : Nat) (n : Nat) (e' : Nat) (i' : Nat) : Kept s₀ (sigdefMove s e i n e' i') := by
  unfold sigdefMove
  repeat' first
    | with_reducible assumption
    | with_reducible apply forN_kept
    | with_reducible apply State.wr_kept
    | (with_reducible refine foldl_kept _ ?_ _ ?_)
    | (with_reducible refine foldr_kept _ ?_ _ ?_)
    | split
    | (intro t x y g)
    | (intro t x g)
    | (intro t g)
    | (extract_lets +onlyGivenNames t; clear_value t)

theorem sigdefFollow_kept {s₀ s : State} (hs : Kept s₀ s) (v : Vat) : Kept s₀ (sigdefFollow s v) := by
  unfold sigdefFollow
  repeat' first
    | with_reducible assumption
    | with_reducible apply sigdefMove_kept
    | (with_reducible refine foldl_kept _ ?_ _ ?_)
    | (with_reducible refine foldr_kept _ ?_ _ ?_)
    | split
    | (intro t x y g)
    | (intro t x g)

theorem stayWith_kept {s₀ s : State} (hs : Kept s₀ s) (old : Option Vat) (new : Vat) : Kept s₀ (stayWith s old new) := by
  unfold stayWith
  repeat' first
    | with_reducible assumption
    | with_reducible apply forVats_kept
    | with_reducible apply forN_kept
    | with_reducible apply modPort_kept
    | with_reducible apply passPending_kept
    | with_reducible apply State.set1_kept
    | with_reducible apply State.wr_kept
    | (with_reducible refine foldl_kept _ ?_ _ ?_)
    | (with_reducible refine foldr_kept _ ?_ _ ?_)
    | split
    | (intro t x y g)
    | (intro t x g)
    | (intro t g)
    | (extract_lets +onlyGivenNames t; clear_value t)
    | with_reducible apply Kept.update

theorem standDown_kept {s₀ s : State} (hs : Kept s₀ s) (old : Option Vat) : Kept s₀ (standDown s old) := by
  unfold standDown
  repeat' first
    | with_reducible assumption
    | with_reducible apply setRole_kept
    | (with_reducible refine foldl_kept _ ?_ _ ?_)
    | (with_reducible refine foldr_kept _ ?_ _ ?_)
    | split

theorem takeover_kept {s₀ s : State} (hs : Kept s₀ s) (new : Vat) (cause : Nat) : Kept s₀ (takeover s new cause) := by
  unfold takeover
  repeat' first
    | with_reducible assumption
    | with_reducible apply State.incSat_kept
    | with_reducible apply State.wr_kept
    | with_reducible apply State.event_kept
    | with_reducible apply sigdefFollow_kept
    | with_reducible apply setRole_kept
    | with_reducible apply standDown_kept
    | with_reducible apply stayWith_kept
    | (with_reducible refine foldl_kept _ ?_ _ ?_)
    | (with_reducible refine foldr_kept _ ?_ _ ?_)
    | split

theorem noStandby_kept {s₀ s : State} (hs : Kept s₀ s) (cause : Nat) : Kept s₀ (noStandby s cause) := by
  unfold noStandby
  repeat' first
    | with_reducible assumption
    | (extract_lets +onlyGivenNames t; refine (fun (g : Kept s₀ t) => ?_) ?_; clear_value t; rotate_left; subst t)
    | with_reducible apply abortDrill_kept
    | with_reducible apply passAll_kept
    | with_reducible apply State.event_kept
    | with_reducible apply State.incSat_kept
    | with_reducible apply State.wr_kept
    | with_reducible apply startSs1_kept
    | (with_reducible refine foldl_kept _ ?_ _ ?_)
    | (with_reducible refine foldr_kept _ ?_ _ ?_)
    | split
    | (intro t x y g)
    | (intro t x g)
    | (intro t g)
    | (extract_lets +onlyGivenNames t; clear_value t)
    | with_reducible apply Kept.update

theorem putInReset_kept {s₀ s : State} (hs : Kept s₀ s) (v : Vat) : Kept s₀ (putInReset s v) := by
  unfold putInReset
  repeat' first
    | with_reducible assumption
    | (extract_lets +onlyGivenNames t; refine (fun (g : Kept s₀ t) => ?_) ?_; clear_value t; rotate_left; subst t)
    | with_reducible apply setRole_kept
    | with_reducible apply vatRegsReset_kept
    | with_reducible apply State.clr_kept
    | with_reducible apply State.setVat_kept
    | (with_reducible refine foldl_kept _ ?_ _ ?_)
    | (with_reducible refine foldr_kept _ ?_ _ ?_)
    | split
    | (intro t x y g)
    | (intro t x g)
    | (intro t g)
    | (extract_lets +onlyGivenNames t; clear_value t)
    | with_reducible apply Kept.update

theorem failVat_kept {s₀ s : State} (hs : Kept s₀ s) (v : Vat) : Kept s₀ (failVat s v) := by
  unfold failVat
  repeat' first
    | with_reducible assumption
    | (extract_lets +onlyGivenNames t; refine (fun (g : Kept s₀ t) => ?_) ?_; clear_value t; rotate_left; subst t)
    | with_reducible apply State.incSat_kept
    | with_reducible apply setRole_kept
    | (with_reducible refine foldl_kept _ ?_ _ ?_)
    | (with_reducible refine foldr_kept _ ?_ _ ?_)
    | split

theorem recordVatCause_kept {s₀ s : State} (hs : Kept s₀ s) (v : Vat) (code : Option Nat) : Kept s₀ (recordVatCause s v code) := by
  unfold recordVatCause
  repeat' first
    | with_reducible assumption
    | (extract_lets +onlyGivenNames t; refine (fun (g : Kept s₀ t) => ?_) ?_; clear_value t; rotate_left; subst t)
    | with_reducible apply State.useFree_kept
    | with_reducible apply State.incSat_kept
    | with_reducible apply recordCause_kept
    | (with_reducible refine foldl_kept _ ?_ _ ?_)
    | (with_reducible refine foldr_kept _ ?_ _ ?_)
    | split
    | (intro t x y g)
    | (intro t x g)
    | (intro t g)
    | (extract_lets +onlyGivenNames t; clear_value t)
    | with_reducible apply Kept.update

theorem vatReset_kept {s₀ s : State} (hs : Kept s₀ s) (v : Vat) (code : Option Nat) (ownCause : Nat) (count : Bool) : Kept s₀ (vatReset s v code ownCause count) := by
  unfold vatReset
  repeat' first
    | with_reducible assumption
    | (extract_lets +onlyGivenNames t; refine (fun (g : Kept s₀ t) => ?_) ?_; clear_value t; rotate_left; subst t)
    | with_reducible apply sysReset_kept
    | with_reducible apply recordVatCause_kept
    | with_reducible apply failVat_kept
    | with_reducible apply takeover_kept
    | with_reducible apply abortDrill_kept
    | with_reducible apply noStandby_kept
    | with_reducible apply putInReset_kept
    | with_reducible apply idlePorts_kept
    | (with_reducible refine foldl_kept _ ?_ _ ?_)
    | (with_reducible refine foldr_kept _ ?_ _ ?_)
    | split
    | (intro t x y g)
    | (intro t x g)
    | (intro t g)
    | (extract_lets +onlyGivenNames t; clear_value t)
    | with_reducible apply Kept.update

theorem noteFlt_kept {s₀ s : State} (hs : Kept s₀ s) (v : Vat) : Kept s₀ (noteFlt s v) := by
  unfold noteFlt
  repeat' first
    | with_reducible assumption
    | (with_reducible refine foldl_kept _ ?_ _ ?_)
    | (with_reducible refine foldr_kept _ ?_ _ ?_)
    | split
    | (intro t x y g)
    | (intro t x g)
    | (intro t g)
    | (extract_lets +onlyGivenNames t; clear_value t)
    | with_reducible apply Kept.update

theorem failJoin_kept {s₀ s : State} (hs : Kept s₀ s) (v : Vat) : Kept s₀ (failJoin s v) := by
  unfold failJoin
  repeat' first
    | with_reducible assumption
    | (extract_lets +onlyGivenNames t; refine (fun (g : Kept s₀ t) => ?_) ?_; clear_value t; rotate_left; subst t)
    | with_reducible apply State.event_kept
    | with_reducible apply vatReset_kept
    | with_reducible apply State.set1_kept
    | (with_reducible refine foldl_kept _ ?_ _ ?_)
    | (with_reducible refine foldr_kept _ ?_ _ ?_)
    | split

theorem raiseFltWith_kept {s₀ s : State} (hs : Kept s₀ s) (v : Vat) (src : Nat) (code : Option Nat) (ownCause : Nat) : Kept s₀ (raiseFltWith s v src code ownCause) := by
  unfold raiseFltWith
  repeat' first
    | with_reducible assumption
    | (extract_lets +onlyGivenNames t; refine (fun (g : Kept s₀ t) => ?_) ?_; clear_value t; rotate_left; subst t)
    | with_reducible apply State.set1_kept
    | with_reducible apply State.wrBit_kept
    | with_reducible apply noteFlt_kept
    | with_reducible apply vatReset_kept
    | with_reducible apply failJoin_kept
    | with_reducible apply abortDrill_kept
    | (with_reducible refine foldl_kept _ ?_ _ ?_)
    | (with_reducible refine foldr_kept _ ?_ _ ?_)
    | split

theorem raiseFlt_kept {s₀ s : State} (hs : Kept s₀ s) (v : Vat) (src : Nat) : Kept s₀ (raiseFlt s v src) := by
  unfold raiseFlt
  repeat' first
    | with_reducible assumption
    | with_reducible apply raiseFltWith_kept

theorem noteMismatch_kept {s₀ s : State} (hs : Kept s₀ s) (k : MismatchKind) : Kept s₀ (noteMismatch s k) := by
  unfold noteMismatch
  repeat' first
    | with_reducible assumption
    | (extract_lets +onlyGivenNames t; refine (fun (g : Kept s₀ t) => ?_) ?_; clear_value t; rotate_left; subst t)
    | with_reducible apply State.incSat_kept
    | with_reducible apply State.wr_kept
    | with_reducible apply State.wrWord_kept
    | with_reducible apply State.set1_kept
    | (with_reducible refine foldl_kept _ ?_ _ ?_)
    | (with_reducible refine foldr_kept _ ?_ _ ?_)
    | split

theorem logMismatch_kept {s₀ s : State} (hs : Kept s₀ s) : Kept s₀ (logMismatch s) := by
  unfold logMismatch
  repeat' first
    | with_reducible assumption
    | with_reducible apply State.event_kept

theorem compareMismatch_kept {s₀ s : State} (hs : Kept s₀ s) (k : MismatchKind) : Kept s₀ (compareMismatch s k) := by
  unfold compareMismatch
  repeat' first
    | with_reducible assumption
    | (extract_lets +onlyGivenNames t; refine (fun (g : Kept s₀ t) => ?_) ?_; clear_value t; rotate_left; subst t)
    | with_reducible apply abortDrill_kept
    | with_reducible apply noteMismatch_kept
    | with_reducible apply failJoin_kept
    | with_reducible apply logMismatch_kept
    | (with_reducible refine foldl_kept _ ?_ _ ?_)
    | (with_reducible refine foldr_kept _ ?_ _ ?_)
    | split
    | (intro t x y g)
    | (intro t x g)
    | (intro t g)
    | (extract_lets +onlyGivenNames t; clear_value t)
    | with_reducible apply Kept.update

theorem watchItem_kept {s₀ s : State} (hs : Kept s₀ s) (k : MismatchKind) : Kept s₀ (watchItem s k) := by
  unfold watchItem
  repeat' first
    | with_reducible assumption
    | with_reducible apply compareMismatch_kept
    | (with_reducible refine foldl_kept _ ?_ _ ?_)
    | (with_reducible refine foldr_kept _ ?_ _ ?_)
    | split
    | (intro t x y g)
    | (intro t x g)
    | (intro t g)
    | (extract_lets +onlyGivenNames t; clear_value t)
    | with_reducible apply Kept.update

theorem watchVats_kept {s₀ s : State} (hs : Kept s₀ s) : Kept s₀ (watchVats s) := by
  unfold watchVats
  repeat' first
    | with_reducible assumption
    | with_reducible apply watchItem_kept
    | (with_reducible refine foldl_kept _ ?_ _ ?_)
    | (with_reducible refine foldr_kept _ ?_ _ ?_)
    | split
    | (intro t x y g)
    | (intro t x g)
    | (intro t g)
    | (extract_lets +onlyGivenNames t; clear_value t)
    | with_reducible apply Kept.update

theorem dueSysReset_kept {s₀ s : State} (hs : Kept s₀ s) : Kept s₀ (dueSysReset s) := by
  unfold dueSysReset
  repeat' first
    | with_reducible assumption
    | with_reducible apply sysReset_kept
    | (with_reducible refine foldl_kept _ ?_ _ ?_)
    | (with_reducible refine foldr_kept _ ?_ _ ?_)
    | split

theorem settle_kept {s₀ s : State} (hs : Kept s₀ s) : Kept s₀ (settle s) := by
  unfold settle
  repeat' first
    | with_reducible assumption
    | with_reducible apply State.endLog_kept
    | with_reducible apply dueSysReset_kept
    | with_reducible apply refreshDev_kept
    | with_reducible apply refreshDeg_kept
    | with_reducible apply ss1End_kept
    | with_reducible apply ordersOnPorts_kept
    | (with_reducible refine foldl_kept _ ?_ _ ?_)
    | (with_reducible refine foldr_kept _ ?_ _ ?_)
    | split

end Sys2Proof.Machine
end

