-- ==== Sys2Proof/Laws/KeepSense.lean ====
section
/-! SUPPORT. What the operations of Machine/Sense.lean keep (Laws/Keep.lean): one lemma for each. -/

namespace Sys2Proof.Machine

open Sys2Proof

theorem modChan_kept {s₀ s : State} (hs : Kept s₀ s) (v : Vat) (n : Nat) (f : ChanSt → ChanSt) : Kept s₀ (modChan s v n f) := by
  unfold modChan
  repeat' first
    | with_reducible assumption
    | with_reducible apply State.modVat_kept

theorem modGrp_kept {s₀ s : State} (hs : Kept s₀ s) (v : Vat) (g : Nat) (f : GrpSt → GrpSt) : Kept s₀ (modGrp s v g f) := by
  unfold modGrp
  repeat' first
    | with_reducible assumption
    | with_reducible apply State.modVat_kept

theorem refreshValid_kept {s₀ s : State} (hs : Kept s₀ s) (v : Vat) (n : Nat) : Kept s₀ (refreshValid s v n) := by
  unfold refreshValid
  repeat' first
    | with_reducible assumption
    | with_reducible apply State.wr_kept

theorem beginSettle_kept {s₀ s : State} (hs : Kept s₀ s) (v : Vat) (n : Nat) : Kept s₀ (beginSettle s v n) := by
  unfold beginSettle
  repeat' first
    | with_reducible assumption
    | with_reducible apply refreshValid_kept
    | with_reducible apply State.set1_kept
    | with_reducible apply State.wr_kept

theorem restartChan_kept {s₀ s : State} (hs : Kept s₀ s) (v : Vat) (n : Nat) : Kept s₀ (restartChan s v n) := by
  unfold restartChan
  repeat' first
    | with_reducible assumption
    | (extract_lets +onlyGivenNames t; refine (fun (g : Kept s₀ t) => ?_) ?_; clear_value t; rotate_left; subst t)
    | with_reducible apply modChan_kept
    | with_reducible apply State.wr_kept
    | with_reducible apply State.clr_kept
    | with_reducible apply beginSettle_kept
    | (with_reducible refine foldl_kept _ ?_ _ ?_)
    | (with_reducible refine foldr_kept _ ?_ _ ?_)
    | split

theorem abandonRotation_kept {s₀ s : State} (hs : Kept s₀ s) (v : Vat) (g : Nat) : Kept s₀ (abandonRotation s v g) := by
  unfold abandonRotation
  repeat' first
    | with_reducible assumption
    | with_reducible apply modGrp_kept
    | with_reducible apply State.wr_kept
    | (with_reducible refine foldl_kept _ ?_ _ ?_)
    | (with_reducible refine foldr_kept _ ?_ _ ?_)
    | split

theorem requestAuto_kept {s₀ s : State} (hs : Kept s₀ s) (v : Vat) (g : Nat) : Kept s₀ (requestAuto s v g) := by
  unfold requestAuto
  repeat' first
    | with_reducible assumption
    | with_reducible apply modGrp_kept
    | with_reducible apply abandonRotation_kept

theorem requestSync_kept {s₀ s : State} (hs : Kept s₀ s) (v : Vat) (g : Nat) (mask : Nat) : Kept s₀ (requestSync s v g mask) := by
  unfold requestSync
  repeat' first
    | with_reducible assumption
    | with_reducible apply State.set1_kept
    | with_reducible apply State.wr_kept

theorem takeSync_kept {s₀ s : State} (hs : Kept s₀ s) (v : Vat) (g : Nat) : Kept s₀ (takeSync s v g) := by
  unfold takeSync
  repeat' first
    | with_reducible assumption
    | with_reducible apply forN_kept
    | with_reducible apply restartChan_kept
    | with_reducible apply modGrp_kept
    | with_reducible apply State.clr_kept
    | (with_reducible refine foldl_kept _ ?_ _ ?_)
    | (with_reducible refine foldr_kept _ ?_ _ ?_)
    | split
    | (intro t x y g)
    | (intro t x g)

theorem setMclkPhase_kept {s₀ s : State} (hs : Kept s₀ s) (v : Vat) (g : Nat) : Kept s₀ (setMclkPhase s v g) := by
  unfold setMclkPhase
  repeat' first
    | with_reducible assumption
    | with_reducible apply modGrp_kept

theorem syncAtTick_kept {s₀ s : State} (hs : Kept s₀ s) (p : Nat) : Kept s₀ (syncAtTick s p) := by
  unfold syncAtTick
  repeat' first
    | with_reducible assumption
    | with_reducible apply forN_kept
    | with_reducible apply forVats_kept
    | with_reducible apply takeSync_kept
    | with_reducible apply setMclkPhase_kept
    | (with_reducible refine foldl_kept _ ?_ _ ?_)
    | (with_reducible refine foldr_kept _ ?_ _ ?_)
    | split
    | (intro t x y g)
    | (intro t x g)

theorem loseChan_kept {s₀ s : State} (hs : Kept s₀ s) (v : Vat) (n : Nat) : Kept s₀ (loseChan s v n) := by
  unfold loseChan
  repeat' first
    | with_reducible assumption
    | (extract_lets +onlyGivenNames t; refine (fun (g : Kept s₀ t) => ?_) ?_; clear_value t; rotate_left; subst t)
    | with_reducible apply State.vatFlagEdge_kept
    | with_reducible apply State.set1_kept
    | with_reducible apply modChan_kept
    | with_reducible apply refreshValid_kept
    | (with_reducible refine foldl_kept _ ?_ _ ?_)
    | (with_reducible refine foldr_kept _ ?_ _ ?_)
    | split

theorem groupLoss_kept {s₀ s : State} (hs : Kept s₀ s) (v : Vat) (g : Nat) : Kept s₀ (groupLoss s v g) := by
  unfold groupLoss
  repeat' first
    | with_reducible assumption
    | (extract_lets +onlyGivenNames t; refine (fun (g : Kept s₀ t) => ?_) ?_; clear_value t; rotate_left; subst t)
    | with_reducible apply State.vatFlag_kept
    | with_reducible apply State.set1_kept
    | with_reducible apply forN_kept
    | with_reducible apply loseChan_kept
    | (with_reducible refine foldl_kept _ ?_ _ ?_)
    | (with_reducible refine foldr_kept _ ?_ _ ?_)
    | split
    | (intro t x y g)
    | (intro t x g)

theorem groupReturn_kept {s₀ s : State} (hs : Kept s₀ s) (v : Vat) (g : Nat) : Kept s₀ (groupReturn s v g) := by
  unfold groupReturn
  repeat' first
    | with_reducible assumption
    | with_reducible apply requestAuto_kept
    | with_reducible apply State.clr_kept
    | (with_reducible refine foldl_kept _ ?_ _ ?_)
    | (with_reducible refine foldr_kept _ ?_ _ ?_)
    | split

theorem syncEffect_kept {s₀ s : State} (hs : Kept s₀ s) (v : Vat) (g : Nat) : Kept s₀ (syncEffect s v g) := by
  unfold syncEffect
  repeat' first
    | with_reducible assumption
    | with_reducible apply forVats_kept
    | with_reducible apply takeSync_kept
    | (with_reducible refine foldl_kept _ ?_ _ ?_)
    | (with_reducible refine foldr_kept _ ?_ _ ?_)
    | split
    | (intro t x y g)
    | (intro t x g)

theorem tryFreeze_kept {s₀ s : State} (hs : Kept s₀ s) (v : Vat) (n : Nat) : Kept s₀ (tryFreeze s v n) := by
  unfold tryFreeze
  repeat' first
    | with_reducible assumption
    | with_reducible apply modChan_kept
    | with_reducible apply refreshValid_kept
    | with_reducible apply State.vatFlagEdge_kept
    | with_reducible apply State.set1_kept
    | (with_reducible refine foldl_kept _ ?_ _ ?_)
    | (with_reducible refine foldr_kept _ ?_ _ ?_)
    | split
    | (intro t x y g)
    | (intro t x g)
    | (intro t g)
    | (extract_lets +onlyGivenNames t; clear_value t)

theorem freezeSample_kept {s₀ s : State} (hs : Kept s₀ s) (v : Vat) (n : Nat) (q : Int) : Kept s₀ (freezeSample s v n q) := by
  unfold freezeSample
  repeat' first
    | with_reducible assumption
    | with_reducible apply tryFreeze_kept
    | with_reducible apply modChan_kept
    | with_reducible apply refreshValid_kept
    | with_reducible apply State.clr_kept
    | (with_reducible refine foldl_kept _ ?_ _ ?_)
    | (with_reducible refine foldr_kept _ ?_ _ ?_)
    | split
    | (intro t x y g)
    | (intro t x g)
    | (intro t g)
    | (extract_lets +onlyGivenNames t; clear_value t)

theorem goStale_kept {s₀ s : State} (hs : Kept s₀ s) (v : Vat) (n : Nat) : Kept s₀ (goStale s v n) := by
  unfold goStale
  repeat' first
    | with_reducible assumption
    | with_reducible apply modChan_kept
    | with_reducible apply refreshValid_kept
    | with_reducible apply State.vatFlagEdge_kept
    | with_reducible apply State.set1_kept
    | (with_reducible refine foldl_kept _ ?_ _ ?_)
    | (with_reducible refine foldr_kept _ ?_ _ ?_)
    | split

theorem endStale_kept {s₀ s : State} (hs : Kept s₀ s) (v : Vat) (n : Nat) : Kept s₀ (endStale s v n) := by
  unfold endStale
  repeat' first
    | with_reducible assumption
    | with_reducible apply beginSettle_kept
    | with_reducible apply State.clr_kept
    | (with_reducible refine foldl_kept _ ?_ _ ?_)
    | (with_reducible refine foldr_kept _ ?_ _ ?_)
    | split

theorem shadow_kept {s₀ s : State} (hs : Kept s₀ s) (v : Vat) (g : Nat) (f : Nat) (c : Nat) (rep : Bool) : Kept s₀ (shadow s v g f c rep) := by
  unfold shadow
  repeat' first
    | with_reducible assumption
    | (extract_lets +onlyGivenNames t; refine (fun (g : Kept s₀ t) => ?_) ?_; clear_value t; rotate_left; subst t)
    | with_reducible apply State.wr_kept
    | with_reducible apply modGrp_kept

theorem rotationStep_kept {s₀ s : State} (hs : Kept s₀ s) (v : Vat) (g : Nat) : Kept s₀ (rotationStep s v g) := by
  unfold rotationStep
  repeat' first
    | with_reducible assumption
    | with_reducible apply forVats_kept
    | with_reducible apply shadow_kept
    | (with_reducible refine foldl_kept _ ?_ _ ?_)
    | (with_reducible refine foldr_kept _ ?_ _ ?_)
    | split
    | (intro t x y g)
    | (intro t x g)

theorem retireSlice_kept {s₀ s : State} (hs : Kept s₀ s) (v : Vat) (g : Nat) (f : Nat) : Kept s₀ (retireSlice s v g f) := by
  unfold retireSlice
  repeat' first
    | with_reducible assumption
    | (extract_lets +onlyGivenNames t; refine (fun (g : Kept s₀ t) => ?_) ?_; clear_value t; rotate_left; subst t)
    | with_reducible apply State.vatEvent_kept
    | with_reducible apply State.wr_kept
    | with_reducible apply State.set1_kept
    | with_reducible apply modGrp_kept
    | with_reducible apply degSet_kept

theorem handChannel_kept {s₀ s : State} (hs : Kept s₀ s) (v : Vat) (g : Nat) (f : Nat) (c : Nat) : Kept s₀ (handChannel s v g f c) := by
  unfold handChannel
  repeat' first
    | with_reducible assumption
    | with_reducible apply State.wr_kept
    | with_reducible apply modGrp_kept

theorem testSlice_kept {s₀ s : State} (hs : Kept s₀ s) (v : Vat) (g : Nat) (f : Nat) (again : Option Nat) : Kept s₀ (testSlice s v g f again) := by
  unfold testSlice
  repeat' first
    | with_reducible assumption
    | (extract_lets +onlyGivenNames t; refine (fun (g : Kept s₀ t) => ?_) ?_; clear_value t; rotate_left; subst t)
    | with_reducible apply State.wr_kept
    | with_reducible apply modGrp_kept

theorem rotationCompare_kept {s₀ s : State} (hs : Kept s₀ s) (v : Vat) (g : Nat) (same : Bool) : Kept s₀ (rotationCompare s v g same) := by
  unfold rotationCompare
  repeat' first
    | with_reducible assumption
    | (extract_lets +onlyGivenNames t; refine (fun (g : Kept s₀ t) => ?_) ?_; clear_value t; rotate_left; subst t)
    | with_reducible apply testSlice_kept
    | with_reducible apply handChannel_kept
    | with_reducible apply State.vatEvent_kept
    | with_reducible apply State.set1_kept
    | with_reducible apply retireSlice_kept
    | with_reducible apply modGrp_kept
    | (with_reducible refine foldl_kept _ ?_ _ ?_)
    | (with_reducible refine foldr_kept _ ?_ _ ?_)
    | split

theorem sliceTested_kept {s₀ s : State} (hs : Kept s₀ s) (v : Vat) (g : Nat) (ok : Bool) : Kept s₀ (sliceTested s v g ok) := by
  unfold sliceTested
  repeat' first
    | with_reducible assumption
    | (extract_lets +onlyGivenNames t; refine (fun (g : Kept s₀ t) => ?_) ?_; clear_value t; rotate_left; subst t)
    | with_reducible apply State.clr_kept
    | with_reducible apply State.incSat_kept
    | with_reducible apply shadow_kept
    | with_reducible apply modGrp_kept
    | with_reducible apply State.incWrap_kept
    | with_reducible apply State.wr_kept
    | with_reducible apply retireSlice_kept
    | with_reducible apply State.set1_kept
    | (with_reducible refine foldl_kept _ ?_ _ ?_)
    | (with_reducible refine foldr_kept _ ?_ _ ?_)
    | split

theorem execGroupClockLoss_kept {s₀ s t : State} {g : Fin 8} (hs : Kept s₀ s) (e : execGroupClockLoss g s = .next t) : Kept s₀ t := by
  unfold execGroupClockLoss at e
  cases e
  repeat' first
    | with_reducible assumption
    | with_reducible apply settle_kept
    | with_reducible apply forVats_kept
    | with_reducible apply groupLoss_kept
    | (with_reducible refine foldl_kept _ ?_ _ ?_)
    | exact fun _ => ⟨⟨id, id, fun _ => id, fun _ => id⟩, id⟩
    | split
    | (intro t x g)

theorem execGroupClockReturn_kept {s₀ s t : State} {g : Fin 8} (hs : Kept s₀ s) (e : execGroupClockReturn g s = .next t) : Kept s₀ t := by
  unfold execGroupClockReturn at e
  cases e
  repeat' first
    | with_reducible assumption
    | with_reducible apply settle_kept
    | with_reducible apply forVats_kept
    | with_reducible apply groupReturn_kept
    | (with_reducible refine foldl_kept _ ?_ _ ?_)
    | exact fun _ => ⟨⟨id, id, fun _ => id, fun _ => id⟩, id⟩
    | split
    | (intro t x g)

theorem execSgrpSyncGo_kept {s₀ s t : State} {v : Vat} {g : Fin 8} {mask : BitVec 8} (hs : Kept s₀ s) (e : execSgrpSyncGo v g mask s = .next t) : Kept s₀ t := by
  unfold execSgrpSyncGo at e
  cases e
  repeat' first
    | with_reducible assumption
    | with_reducible apply settle_kept
    | with_reducible apply requestSync_kept
    | (with_reducible refine foldl_kept _ ?_ _ ?_)
    | exact fun _ => ⟨⟨id, id, fun _ => id, fun _ => id⟩, id⟩
    | split

theorem execSyncResetEffect_kept {s₀ s t : State} {v : Vat} {g : Fin 8} (hs : Kept s₀ s) (e : execSyncResetEffect v g s = .next t) : Kept s₀ t := by
  unfold execSyncResetEffect at e
  cases e
  repeat' first
    | with_reducible assumption
    | with_reducible apply settle_kept
    | with_reducible apply syncEffect_kept

theorem execFrozenSet_kept {s₀ s t : State} {v : Vat} {n : Fin 64} (hs : Kept s₀ s) (e : execFrozenSet v n s = .next t) : Kept s₀ t := by
  unfold execFrozenSet at e
  cases e
  repeat' first
    | with_reducible assumption
    | with_reducible apply settle_kept
    | with_reducible apply tryFreeze_kept
    | (with_reducible refine foldl_kept _ ?_ _ ?_)
    | exact fun _ => ⟨⟨id, id, fun _ => id, fun _ => id⟩, id⟩
    | split

theorem execFreshnessStale_kept {s₀ s t : State} {v : Vat} {n : Fin 64} (hs : Kept s₀ s) (e : execFreshnessStale v n s = .next t) : Kept s₀ t := by
  unfold execFreshnessStale at e
  cases e
  repeat' first
    | with_reducible assumption
    | with_reducible apply settle_kept
    | with_reducible apply goStale_kept
    | (with_reducible refine foldl_kept _ ?_ _ ?_)
    | exact fun _ => ⟨⟨id, id, fun _ => id, fun _ => id⟩, id⟩
    | split

theorem execStaleClear_kept {s₀ s t : State} {v : Vat} {n : Fin 64} (hs : Kept s₀ s) (e : execStaleClear v n s = .next t) : Kept s₀ t := by
  unfold execStaleClear at e
  cases e
  repeat' first
    | with_reducible assumption
    | with_reducible apply settle_kept
    | with_reducible apply endStale_kept
    | (with_reducible refine foldl_kept _ ?_ _ ?_)
    | exact fun _ => ⟨⟨id, id, fun _ => id, fun _ => id⟩, id⟩
    | split

theorem execRotationStep_kept {s₀ s t : State} {v : Vat} {g : Fin 8} (hs : Kept s₀ s) (e : execRotationStep v g s = .next t) : Kept s₀ t := by
  unfold execRotationStep at e
  cases e
  repeat' first
    | with_reducible assumption
    | with_reducible apply settle_kept
    | with_reducible apply rotationStep_kept

theorem execRotationCompare_kept {s₀ s t : State} {v : Vat} {g : Fin 8} {same : Bool} (hs : Kept s₀ s) (e : execRotationCompare v g same s = .next t) : Kept s₀ t := by
  unfold execRotationCompare at e
  cases e
  repeat' first
    | with_reducible assumption
    | with_reducible apply settle_kept
    | with_reducible apply rotationCompare_kept
    | (with_reducible refine foldl_kept _ ?_ _ ?_)
    | exact fun _ => ⟨⟨id, id, fun _ => id, fun _ => id⟩, id⟩
    | split

theorem execSliceTestComplete_kept {s₀ s t : State} {v : Vat} {g : Fin 8} {ok : Bool} (hs : Kept s₀ s) (e : execSliceTestComplete v g ok s = .next t) : Kept s₀ t := by
  unfold execSliceTestComplete at e
  cases e
  repeat' first
    | with_reducible assumption
    | with_reducible apply settle_kept
    | with_reducible apply sliceTested_kept
    | (with_reducible refine foldl_kept _ ?_ _ ?_)
    | exact fun _ => ⟨⟨id, id, fun _ => id, fun _ => id⟩, id⟩
    | split

end Sys2Proof.Machine
end

