-- ==== Sys2Proof/Laws/KeepAuxLink.lean ====
section
/-! SUPPORT. What the operations of Machine/AuxLink.lean keep (Laws/Keep.lean): one lemma for each. -/

namespace Sys2Proof.Machine

open Sys2Proof

theorem modAux_kept {s₀ s : State} (hs : Kept s₀ s) (v : Vat) (k : Nat) (f : AuxSt → AuxSt) : Kept s₀ (modAux s v k f) := by
  unfold modAux
  repeat' first
    | with_reducible assumption
    | with_reducible apply State.modVat_kept

theorem auxNext_kept {s₀ s : State} (hs : Kept s₀ s) (v : Vat) (k : Nat) : Kept s₀ (auxNext s v k) := by
  unfold auxNext
  repeat' first
    | with_reducible assumption
    | with_reducible apply modAux_kept
    | (with_reducible refine foldl_kept _ ?_ _ ?_)
    | (with_reducible refine foldr_kept _ ?_ _ ?_)
    | split
    | (intro t x y g)
    | (intro t x g)
    | (intro t g)
    | (extract_lets +onlyGivenNames t; clear_value t)

theorem auxStart_kept {s₀ s : State} (hs : Kept s₀ s) (v : Vat) (k : Nat) : Kept s₀ (auxStart s v k) := by
  unfold auxStart
  repeat' first
    | with_reducible assumption
    | with_reducible apply auxNext_kept
    | with_reducible apply modAux_kept
    | (with_reducible refine foldl_kept _ ?_ _ ?_)
    | (with_reducible refine foldr_kept _ ?_ _ ?_)
    | split

theorem auxPass_kept {s₀ s : State} (hs : Kept s₀ s) (v : Vat) (k : Nat) : Kept s₀ (auxPass s v k) := by
  unfold auxPass
  repeat' first
    | with_reducible assumption
    | with_reducible apply auxNext_kept
    | with_reducible apply modAux_kept

theorem auxTick_kept {s₀ s : State} (hs : Kept s₀ s) (v : Vat) (p : Nat) : Kept s₀ (auxTick s v p) := by
  unfold auxTick
  repeat' first
    | with_reducible assumption
    | with_reducible apply forN_kept
    | with_reducible apply State.vatFlagEdge_kept
    | with_reducible apply auxPass_kept
    | (with_reducible refine foldl_kept _ ?_ _ ?_)
    | (with_reducible refine foldr_kept _ ?_ _ ?_)
    | split
    | (intro t x y g)
    | (intro t x g)

theorem injStart_kept {s₀ s : State} (hs : Kept s₀ s) (v : Vat) (k : Nat) : Kept s₀ (injStart s v k) := by
  unfold injStart
  repeat' first
    | with_reducible assumption
    | with_reducible apply auxNext_kept
    | with_reducible apply modAux_kept

theorem injTrigger_kept {s₀ s : State} (hs : Kept s₀ s) (v : Vat) (k : Nat) : Kept s₀ (injTrigger s v k) := by
  unfold injTrigger
  repeat' first
    | with_reducible assumption
    | with_reducible apply injStart_kept
    | with_reducible apply State.vatFlagEdge_kept
    | (with_reducible refine foldl_kept _ ?_ _ ?_)
    | (with_reducible refine foldr_kept _ ?_ _ ?_)
    | split

theorem injEvent_kept {s₀ s : State} (hs : Kept s₀ s) (v : Vat) (e : TrigEvent) (p : Nat) : Kept s₀ (injEvent s v e p) := by
  unfold injEvent
  repeat' first
    | with_reducible assumption
    | with_reducible apply forN_kept
    | with_reducible apply injTrigger_kept
    | (with_reducible refine foldl_kept _ ?_ _ ?_)
    | (with_reducible refine foldr_kept _ ?_ _ ?_)
    | split
    | (intro t x y g)
    | (intro t x g)

theorem injTrip_kept {s₀ s : State} (hs : Kept s₀ s) (v : Vat) (i : Nat) : Kept s₀ (injTrip s v i) := by
  unfold injTrip
  repeat' first
    | with_reducible assumption
    | with_reducible apply forN_kept
    | with_reducible apply injTrigger_kept
    | (with_reducible refine foldl_kept _ ?_ _ ?_)
    | (with_reducible refine foldr_kept _ ?_ _ ?_)
    | split
    | (intro t x y g)
    | (intro t x g)

theorem setLinkFail_kept {s₀ s : State} (hs : Kept s₀ s) (v : Vat) (k : Nat) (b : Bool) : Kept s₀ (setLinkFail s v k b) := by
  unfold setLinkFail
  repeat' first
    | with_reducible assumption
    | (extract_lets +onlyGivenNames t; refine (fun (g : Kept s₀ t) => ?_) ?_; clear_value t; rotate_left; subst t)
    | with_reducible apply State.wr_kept
    | with_reducible apply forN_kept
    | with_reducible apply State.clr_kept
    | (with_reducible refine foldl_kept _ ?_ _ ?_)
    | (with_reducible refine foldr_kept _ ?_ _ ?_)
    | split
    | (intro t x y g)
    | (intro t x g)

theorem auxDeliver_kept {s₀ s : State} (hs : Kept s₀ s) (v : Vat) (k : Nat) (chan : Nat) (inj : Bool) (result : BitVec 16) : Kept s₀ (auxDeliver s v k chan inj result) := by
  unfold auxDeliver
  repeat' first
    | with_reducible assumption
    | (extract_lets +onlyGivenNames t; refine (fun (g : Kept s₀ t) => ?_) ?_; clear_value t; rotate_left; subst t)
    | with_reducible apply State.vatFlagEdge_kept
    | with_reducible apply State.wr_kept
    | with_reducible apply State.set1_kept
    | (with_reducible refine foldl_kept _ ?_ _ ?_)
    | (with_reducible refine foldr_kept _ ?_ _ ?_)
    | split

theorem auxBad_kept {s₀ s : State} (hs : Kept s₀ s) (v : Vat) (k : Nat) : Kept s₀ (auxBad s v k) := by
  unfold auxBad
  repeat' first
    | with_reducible assumption
    | (extract_lets +onlyGivenNames t; refine (fun (g : Kept s₀ t) => ?_) ?_; clear_value t; rotate_left; subst t)
    | with_reducible apply State.incSat_kept
    | with_reducible apply State.vatFlag_kept
    | with_reducible apply modAux_kept
    | with_reducible apply State.vatEvent_kept
    | with_reducible apply setLinkFail_kept
    | (with_reducible refine foldl_kept _ ?_ _ ?_)
    | (with_reducible refine foldr_kept _ ?_ _ ?_)
    | split
    | (intro t x y g)
    | (intro t x g)
    | (intro t g)
    | (extract_lets +onlyGivenNames t; clear_value t)

theorem auxGood_kept {s₀ s : State} (hs : Kept s₀ s) (v : Vat) (k : Nat) (chan : Nat) (inj : Bool) (result : BitVec 16) : Kept s₀ (auxGood s v k chan inj result) := by
  unfold auxGood
  repeat' first
    | with_reducible assumption
    | with_reducible apply modAux_kept
    | with_reducible apply setLinkFail_kept
    | with_reducible apply auxDeliver_kept
    | (with_reducible refine foldl_kept _ ?_ _ ?_)
    | (with_reducible refine foldr_kept _ ?_ _ ?_)
    | split

theorem auxFrame_kept {s₀ s : State} (hs : Kept s₀ s) (v : Vat) (k : Nat) (echo : BitVec 4) (status : BitVec 4) (result : BitVec 16) : Kept s₀ (auxFrame s v k echo status result) := by
  unfold auxFrame
  repeat' first
    | with_reducible assumption
    | (extract_lets +onlyGivenNames t; refine (fun (g : Kept s₀ t) => ?_) ?_; clear_value t; rotate_left; subst t)
    | with_reducible apply auxGood_kept
    | with_reducible apply auxBad_kept
    | with_reducible apply auxNext_kept
    | with_reducible apply modAux_kept
    | (with_reducible refine foldl_kept _ ?_ _ ?_)
    | (with_reducible refine foldr_kept _ ?_ _ ?_)
    | split

theorem auxRead_kept {s₀ s : State} (hs : Kept s₀ s) (v : Vat) (k : Nat) : Kept s₀ (auxRead s v k) := by
  unfold auxRead
  repeat' first
    | with_reducible assumption
    | with_reducible apply modAux_kept
    | with_reducible apply State.clr_kept
    | with_reducible apply State.incWrap_kept
    | with_reducible apply State.wr_kept
    | (with_reducible refine foldl_kept _ ?_ _ ?_)
    | (with_reducible refine foldr_kept _ ?_ _ ?_)
    | split

theorem auxAge_kept {s₀ s : State} (hs : Kept s₀ s) (v : Vat) (n : Nat) : Kept s₀ (auxAge s v n) := by
  unfold auxAge
  repeat' first
    | with_reducible assumption
    | with_reducible apply State.clr_kept
    | with_reducible apply State.set1_kept
    | (with_reducible refine foldl_kept _ ?_ _ ?_)
    | (with_reducible refine foldr_kept _ ?_ _ ?_)
    | split

theorem execInjectedTrigger_kept {s₀ s t : State} {v : Vat} {e : PortEvent} (hs : Kept s₀ s) (e : execInjectedTrigger v e s = .next t) : Kept s₀ t := by
  unfold execInjectedTrigger at e
  cases e
  repeat' first
    | with_reducible assumption
    | with_reducible apply settle_kept
    | with_reducible apply injEvent_kept

theorem execAuxFrameComplete_kept {s₀ s t : State} {v : Vat} {k : Fin 4} {echo : BitVec 4} {status : BitVec 4} {result : BitVec 16} (hs : Kept s₀ s) (e : execAuxFrameComplete v k echo status result s = .next t) : Kept s₀ t := by
  unfold execAuxFrameComplete at e
  cases e
  repeat' first
    | with_reducible assumption
    | with_reducible apply settle_kept
    | with_reducible apply auxFrame_kept
    | (with_reducible refine foldl_kept _ ?_ _ ?_)
    | exact fun _ => ⟨⟨id, id, fun _ => id, fun _ => id⟩, id⟩
    | split

theorem execAuxkDataRead_kept {s₀ s t : State} {v : Vat} {k : Fin 4} (hs : Kept s₀ s) (e : execAuxkDataRead v k s = .next t) : Kept s₀ t := by
  unfold execAuxkDataRead at e
  cases e
  repeat' first
    | with_reducible assumption
    | with_reducible apply settle_kept
    | with_reducible apply auxRead_kept
    | (with_reducible refine foldl_kept _ ?_ _ ?_)
    | exact fun _ => ⟨⟨id, id, fun _ => id, fun _ => id⟩, id⟩
    | split

theorem execAuxAgeLimit_kept {s₀ s t : State} {v : Vat} {n : Fin 64} (hs : Kept s₀ s) (e : execAuxAgeLimit v n s = .next t) : Kept s₀ t := by
  unfold execAuxAgeLimit at e
  cases e
  repeat' first
    | with_reducible assumption
    | with_reducible apply settle_kept
    | with_reducible apply auxAge_kept
    | (with_reducible refine foldl_kept _ ?_ _ ?_)
    | exact fun _ => ⟨⟨id, id, fun _ => id, fun _ => id⟩, id⟩
    | split

end Sys2Proof.Machine
end

