-- ==== Sys2Proof/Laws/KeepPosition.lean ====
section
/-! SUPPORT. What the operations of Machine/Position.lean keep (Laws/Keep.lean): one lemma for each. -/

namespace Sys2Proof.Machine

open Sys2Proof

theorem modPos_kept {s₀ s : State} (hs : Kept s₀ s) (v : Vat) (i : Nat) (f : PosSt → PosSt) : Kept s₀ (modPos s v i f) := by
  unfold modPos
  repeat' first
    | with_reducible assumption
    | with_reducible apply State.modVat_kept

theorem encInvalid_kept {s₀ s : State} (hs : Kept s₀ s) (v : Vat) (i : Nat) : Kept s₀ (encInvalid s v i) := by
  unfold encInvalid
  repeat' first
    | with_reducible assumption
    | with_reducible apply State.set1_kept
    | with_reducible apply State.clr_kept

theorem encPhaseError_kept {s₀ s : State} (hs : Kept s₀ s) (v : Vat) (i : Nat) : Kept s₀ (encPhaseError s v i) := by
  unfold encPhaseError
  repeat' first
    | with_reducible assumption
    | (extract_lets +onlyGivenNames t; refine (fun (g : Kept s₀ t) => ?_) ?_; clear_value t; rotate_left; subst t)
    | with_reducible apply State.incSat_kept
    | with_reducible apply State.vatFlag_kept
    | with_reducible apply modPos_kept
    | with_reducible apply encInvalid_kept
    | with_reducible apply State.clr_kept

theorem encIndex_kept {s₀ s : State} (hs : Kept s₀ s) (v : Vat) (i : Nat) : Kept s₀ (encIndex s v i) := by
  unfold encIndex
  repeat' first
    | with_reducible assumption
    | (extract_lets +onlyGivenNames t; refine (fun (g : Kept s₀ t) => ?_) ?_; clear_value t; rotate_left; subst t)
    | with_reducible apply modPos_kept
    | with_reducible apply State.incSat_kept
    | with_reducible apply State.vatFlag_kept
    | with_reducible apply encInvalid_kept
    | with_reducible apply State.clr_kept
    | with_reducible apply State.set1_kept
    | with_reducible apply State.wr_kept
    | (with_reducible refine foldl_kept _ ?_ _ ?_)
    | (with_reducible refine foldr_kept _ ?_ _ ?_)
    | split
    | (intro t x y g)
    | (intro t x g)
    | (intro t g)
    | (extract_lets +onlyGivenNames t; clear_value t)

theorem encStep_kept {s₀ s : State} (hs : Kept s₀ s) (v : Vat) (i : Nat) (up : Bool) : Kept s₀ (encStep s v i up) := by
  unfold encStep
  repeat' first
    | with_reducible assumption
    | with_reducible apply modPos_kept

theorem posFreeze_kept {s₀ s : State} (hs : Kept s₀ s) (v : Vat) (i : Nat) (mq : Bool) : Kept s₀ (posFreeze s v i mq) := by
  unfold posFreeze
  repeat' first
    | with_reducible assumption
    | (extract_lets +onlyGivenNames t; refine (fun (g : Kept s₀ t) => ?_) ?_; clear_value t; rotate_left; subst t)
    | with_reducible apply modPos_kept
    | with_reducible apply State.clr_kept
    | with_reducible apply State.set1_kept
    | (with_reducible refine foldl_kept _ ?_ _ ?_)
    | (with_reducible refine foldr_kept _ ?_ _ ?_)
    | split
    | (intro t x y g)
    | (intro t x g)
    | (intro t g)
    | (extract_lets +onlyGivenNames t; clear_value t)

theorem encCapture_kept {s₀ s : State} (hs : Kept s₀ s) (v : Vat) (i : Nat) : Kept s₀ (encCapture s v i) := by
  unfold encCapture
  repeat' first
    | with_reducible assumption
    | with_reducible apply modPos_kept

theorem ssiStart_kept {s₀ s : State} (hs : Kept s₀ s) (v : Vat) (i : Nat) : Kept s₀ (ssiStart s v i) := by
  unfold ssiStart
  repeat' first
    | with_reducible assumption
    | with_reducible apply modPos_kept
    | with_reducible apply State.vatFlag_kept
    | (with_reducible refine foldl_kept _ ?_ _ ?_)
    | (with_reducible refine foldr_kept _ ?_ _ ?_)
    | split
    | (intro t x y g)
    | (intro t x g)
    | (intro t g)
    | (extract_lets +onlyGivenNames t; clear_value t)

theorem posCapture_kept {s₀ s : State} (hs : Kept s₀ s) (v : Vat) (i : Nat) (mq : Bool) : Kept s₀ (posCapture s v i mq) := by
  unfold posCapture
  repeat' first
    | with_reducible assumption
    | (extract_lets +onlyGivenNames t; refine (fun (g : Kept s₀ t) => ?_) ?_; clear_value t; rotate_left; subst t)
    | with_reducible apply encCapture_kept
    | with_reducible apply State.wr_kept
    | with_reducible apply State.clr_kept
    | with_reducible apply posFreeze_kept
    | with_reducible apply modPos_kept
    | with_reducible apply ssiStart_kept
    | (with_reducible refine foldl_kept _ ?_ _ ?_)
    | (with_reducible refine foldr_kept _ ?_ _ ?_)
    | split

theorem ssiBad_kept {s₀ s : State} (hs : Kept s₀ s) (v : Vat) (i : Nat) : Kept s₀ (ssiBad s v i) := by
  unfold ssiBad
  repeat' first
    | with_reducible assumption
    | (extract_lets +onlyGivenNames t; refine (fun (g : Kept s₀ t) => ?_) ?_; clear_value t; rotate_left; subst t)
    | with_reducible apply State.incSat_kept
    | with_reducible apply State.vatFlag_kept
    | with_reducible apply modPos_kept
    | with_reducible apply encInvalid_kept
    | (with_reducible refine foldl_kept _ ?_ _ ?_)
    | (with_reducible refine foldr_kept _ ?_ _ ?_)
    | split

theorem ssiGood_kept {s₀ s : State} (hs : Kept s₀ s) (v : Vat) (i : Nat) (pos : Nat) (t : Nat) : Kept s₀ (ssiGood s v i pos t) := by
  unfold ssiGood
  repeat' first
    | with_reducible assumption
    | with_reducible apply modPos_kept
    | with_reducible apply State.wr_kept

theorem ssiFrame_kept {s₀ s : State} (hs : Kept s₀ s) (v : Vat) (i : Nat) (noresp : Bool) (word : Nat) : Kept s₀ (ssiFrame s v i noresp word) := by
  unfold ssiFrame
  repeat' first
    | with_reducible assumption
    | (extract_lets +onlyGivenNames t; refine (fun (g : Kept s₀ t) => ?_) ?_; clear_value t; rotate_left; subst t)
    | with_reducible apply modPos_kept
    | with_reducible apply State.vatFlag_kept
    | with_reducible apply ssiBad_kept
    | with_reducible apply ssiGood_kept
    | (with_reducible refine foldl_kept _ ?_ _ ?_)
    | (with_reducible refine foldr_kept _ ?_ _ ?_)
    | split
    | (intro t x y g)
    | (intro t x g)
    | (intro t g)
    | (extract_lets +onlyGivenNames t; clear_value t)

theorem ssiClock_kept {s₀ s : State} (hs : Kept s₀ s) (v : Vat) (i : Nat) : Kept s₀ (ssiClock s v i) := by
  unfold ssiClock
  repeat' first
    | with_reducible assumption
    | with_reducible apply modPos_kept
    | (with_reducible refine foldl_kept _ ?_ _ ?_)
    | (with_reducible refine foldr_kept _ ?_ _ ?_)
    | split

theorem execEncoderEdge_kept {s₀ s t : State} {v : Vat} {i : Fin 4} {e : EncEvent} (hs : Kept s₀ s) (e : execEncoderEdge v i e s = .next t) : Kept s₀ t := by
  unfold execEncoderEdge at e
  cases e
  repeat' first
    | with_reducible assumption
    | with_reducible apply settle_kept
    | with_reducible apply encStep_kept
    | with_reducible apply encPhaseError_kept
    | with_reducible apply encIndex_kept
    | (with_reducible refine foldl_kept _ ?_ _ ?_)
    | exact fun _ => ⟨⟨id, id, fun _ => id, fun _ => id⟩, id⟩
    | split

theorem execSsiFrameComplete_kept {s₀ s t : State} {v : Vat} {i : Fin 4} {noresp : Bool} {word : BitVec 33} (hs : Kept s₀ s) (e : execSsiFrameComplete v i noresp word s = .next t) : Kept s₀ t := by
  unfold execSsiFrameComplete at e
  cases e
  repeat' first
    | with_reducible assumption
    | with_reducible apply settle_kept
    | with_reducible apply ssiFrame_kept
    | with_reducible apply ssiClock_kept
    | (with_reducible refine foldl_kept _ ?_ _ ?_)
    | exact fun _ => ⟨⟨id, id, fun _ => id, fun _ => id⟩, id⟩
    | split

theorem execSetpEdge_kept {s₀ s t : State} {v : Vat} {i : Fin 8} {rising : Bool} (hs : Kept s₀ s) (e : execSetpEdge v i rising s = .next t) : Kept s₀ t := by
  unfold execSetpEdge at e
  cases e
  repeat' first
    | with_reducible assumption
    | with_reducible apply settle_kept
    | with_reducible apply State.modVat_kept
    | (with_reducible refine foldl_kept _ ?_ _ ?_)
    | exact fun _ => ⟨⟨id, id, fun _ => id, fun _ => id⟩, id⟩
    | split

end Sys2Proof.Machine
end

