-- ==== Sys2Proof/Laws/KeepPulse.lean ====
section
/-! SUPPORT. What the operations of Machine/Pulse.lean keep (Laws/Keep.lean): one lemma for each. -/

namespace Sys2Proof.Machine

open Sys2Proof

theorem startCarrier_kept {s₀ s : State} (hs : Kept s₀ s) (v : Vat) (p : Nat) : Kept s₀ (startCarrier s v p) := by
  unfold startCarrier
  repeat' first
    | with_reducible assumption
    | with_reducible apply modLeg_kept
    | with_reducible apply modPort_kept
    | (with_reducible refine foldl_kept _ ?_ _ ?_)
    | (with_reducible refine foldr_kept _ ?_ _ ?_)
    | split
    | (intro t x y g)
    | (intro t x g)

theorem carrierEvent_kept {s₀ s : State} (hs : Kept s₀ s) (v : Vat) (p : Nat) (valley : Bool) : Kept s₀ (carrierEvent s v p valley) := by
  unfold carrierEvent
  repeat' first
    | with_reducible assumption
    | (extract_lets +onlyGivenNames t; refine (fun (g : Kept s₀ t) => ?_) ?_; clear_value t; rotate_left; subst t)
    | with_reducible apply foldEvents_kept
    | with_reducible apply modPort_kept
    | (with_reducible refine foldl_kept _ ?_ _ ?_)
    | (with_reducible refine foldr_kept _ ?_ _ ?_)
    | split
    | (intro t x y g)
    | (intro t x g)

theorem refreshCmp_kept {s₀ s : State} (hs : Kept s₀ s) (v : Vat) (p : Nat) : Kept s₀ (refreshCmp s v p) := by
  unfold refreshCmp
  repeat' first
    | with_reducible assumption
    | with_reducible apply State.wr_kept
    | (with_reducible refine foldl_kept _ ?_ _ ?_)
    | (with_reducible refine foldr_kept _ ?_ _ ?_)
    | split
    | (intro t x y g)
    | (intro t x g)

theorem chargeDone_kept {s₀ s : State} (hs : Kept s₀ s) (v : Vat) (n : Nat) (ago : Nat) : Kept s₀ (chargeDone s v n ago) := by
  unfold chargeDone
  repeat' first
    | with_reducible assumption
    | with_reducible apply modLeg_kept
    | (with_reducible refine foldl_kept _ ?_ _ ?_)
    | (with_reducible refine foldr_kept _ ?_ _ ?_)
    | split

theorem openBlanking_kept {s₀ s : State} (hs : Kept s₀ s) (v : Vat) (p : Nat) (n : Nat) (t : Nat) : Kept s₀ (openBlanking s v p n t) := by
  unfold openBlanking
  repeat' first
    | with_reducible assumption
    | with_reducible apply State.set1_kept
    | with_reducible apply modPort_kept
    | (with_reducible refine foldl_kept _ ?_ _ ?_)
    | (with_reducible refine foldr_kept _ ?_ _ ?_)
    | split
    | (intro t x y g)
    | (intro t x g)
    | (intro t g)
    | (extract_lets +onlyGivenNames t; clear_value t)

theorem openWindows_kept {s₀ s : State} (hs : Kept s₀ s) (v : Vat) (p : Nat) : Kept s₀ (openWindows s v p) := by
  unfold openWindows
  repeat' first
    | with_reducible assumption
    | with_reducible apply modPort_kept
    | with_reducible apply State.set1_kept
    | (with_reducible refine foldl_kept _ ?_ _ ?_)
    | (with_reducible refine foldr_kept _ ?_ _ ?_)
    | split

theorem endLow_kept {s₀ s : State} (hs : Kept s₀ s) (v : Vat) (n : Nat) (t : Nat) : Kept s₀ (endLow s v n t) := by
  unfold endLow
  repeat' first
    | with_reducible assumption
    | with_reducible apply chargeDone_kept
    | with_reducible apply modLeg_kept
    | (with_reducible refine foldl_kept _ ?_ _ ?_)
    | (with_reducible refine foldr_kept _ ?_ _ ?_)
    | split

theorem emitEdge_kept {s₀ s : State} (hs : Kept s₀ s) (v : Vat) (p : Nat) (n : Nat) (high : Bool) (t : Nat) : Kept s₀ (emitEdge s v p n high t) := by
  unfold emitEdge
  repeat' first
    | with_reducible assumption
    | (extract_lets +onlyGivenNames t; refine (fun (g : Kept s₀ t) => ?_) ?_; clear_value t; rotate_left; subst t)
    | with_reducible apply endLow_kept
    | with_reducible apply modLeg_kept
    | with_reducible apply State.wr_kept
    | with_reducible apply openBlanking_kept
    | (with_reducible refine foldl_kept _ ?_ _ ?_)
    | (with_reducible refine foldr_kept _ ?_ _ ?_)
    | split

theorem insertRefresh_kept {s₀ s : State} (hs : Kept s₀ s) (v : Vat) (p : Nat) (n : Nat) (t : Nat) (len : Nat) : Kept s₀ (insertRefresh s v p n t len) := by
  unfold insertRefresh
  repeat' first
    | with_reducible assumption
    | with_reducible apply State.incSat_kept
    | with_reducible apply emitEdge_kept
    | with_reducible apply modLeg_kept
    | (with_reducible refine foldl_kept _ ?_ _ ?_)
    | (with_reducible refine foldr_kept _ ?_ _ ?_)
    | split

theorem endRefresh_kept {s₀ s : State} (hs : Kept s₀ s) (v : Vat) (p : Nat) (n : Nat) : Kept s₀ (endRefresh s v p n) := by
  unfold endRefresh
  repeat' first
    | with_reducible assumption
    | (extract_lets +onlyGivenNames t; refine (fun (g : Kept s₀ t) => ?_) ?_; clear_value t; rotate_left; subst t)
    | with_reducible apply endLow_kept
    | with_reducible apply modLeg_kept
    | with_reducible apply emitEdge_kept
    | (with_reducible refine foldl_kept _ ?_ _ ?_)
    | (with_reducible refine foldr_kept _ ?_ _ ?_)
    | split
    | (intro t x y g)
    | (intro t x g)
    | (intro t g)
    | (extract_lets +onlyGivenNames t; clear_value t)

theorem refreshAhead_kept {s₀ s : State} (hs : Kept s₀ s) (v : Vat) (p : Nat) (n : Nat) : Kept s₀ (refreshAhead s v p n) := by
  unfold refreshAhead
  repeat' first
    | with_reducible assumption
    | (extract_lets +onlyGivenNames t; refine (fun (g : Kept s₀ t) => ?_) ?_; clear_value t; rotate_left; subst t)
    | with_reducible apply insertRefresh_kept
    | with_reducible apply modLeg_kept
    | (with_reducible refine foldl_kept _ ?_ _ ?_)
    | (with_reducible refine foldr_kept _ ?_ _ ?_)
    | split
    | (intro t x y g)
    | (intro t x g)
    | (intro t g)
    | (extract_lets +onlyGivenNames t; clear_value t)

theorem bootstrapValley_kept {s₀ s : State} (hs : Kept s₀ s) (v : Vat) (p : Nat) (n : Nat) (perOld : Nat) (cmpOld : Nat) : Kept s₀ (bootstrapValley s v p n perOld cmpOld) := by
  unfold bootstrapValley
  repeat' first
    | with_reducible assumption
    | with_reducible apply modLeg_kept
    | with_reducible apply insertRefresh_kept
    | (with_reducible refine foldl_kept _ ?_ _ ?_)
    | (with_reducible refine foldr_kept _ ?_ _ ?_)
    | split

theorem takePeriod_kept {s₀ s : State} (hs : Kept s₀ s) (v : Vat) (p : Nat) : Kept s₀ (takePeriod s v p) := by
  unfold takePeriod
  repeat' first
    | with_reducible assumption
    | with_reducible apply refreshCmp_kept
    | with_reducible apply State.wr_kept
    | (with_reducible refine foldl_kept _ ?_ _ ?_)
    | (with_reducible refine foldr_kept _ ?_ _ ?_)
    | split
    | (intro t x y g)
    | (intro t x g)

theorem refreshLegs_kept {s₀ s : State} (hs : Kept s₀ s) (v : Vat) (p : Nat) (perOld : Nat) (old : Nat → Nat) : Kept s₀ (refreshLegs s v p perOld old) := by
  unfold refreshLegs
  repeat' first
    | with_reducible assumption
    | with_reducible apply bootstrapValley_kept
    | (with_reducible refine foldl_kept _ ?_ _ ?_)
    | (with_reducible refine foldr_kept _ ?_ _ ?_)
    | split
    | (intro t x y g)
    | (intro t x g)

theorem portValley_kept {s₀ s : State} (hs : Kept s₀ s) (v : Vat) (p : Nat) : Kept s₀ (portValley s v p) := by
  unfold portValley
  repeat' first
    | with_reducible assumption
    | with_reducible apply refreshLegs_kept
    | with_reducible apply takePeriod_kept
    | with_reducible apply carrierEvent_kept

theorem trailEdge_kept {s₀ s : State} (hs : Kept s₀ s) (v : Vat) (p : Nat) (n : Nat) (rise : Bool) : Kept s₀ (trailEdge s v p n rise) := by
  unfold trailEdge
  repeat' first
    | with_reducible assumption
    | with_reducible apply modLeg_kept
    | with_reducible apply emitEdge_kept
    | (with_reducible refine foldl_kept _ ?_ _ ?_)
    | (with_reducible refine foldr_kept _ ?_ _ ?_)
    | split

theorem applyEdge_kept {s₀ s : State} (hs : Kept s₀ s) (v : Vat) (p : Nat) (n : Nat) (rise : Bool) : Kept s₀ (applyEdge s v p n rise) := by
  unfold applyEdge
  repeat' first
    | with_reducible assumption
    | with_reducible apply modLeg_kept
    | with_reducible apply trailEdge_kept
    | (with_reducible refine foldl_kept _ ?_ _ ?_)
    | (with_reducible refine foldr_kept _ ?_ _ ?_)
    | split

theorem filterEdge_kept {s₀ s : State} (hs : Kept s₀ s) (v : Vat) (p : Nat) (n : Nat) (rise : Bool) : Kept s₀ (filterEdge s v p n rise) := by
  unfold filterEdge
  repeat' first
    | with_reducible assumption
    | with_reducible apply applyEdge_kept
    | with_reducible apply State.incSat_kept
    | (with_reducible refine foldl_kept _ ?_ _ ?_)
    | (with_reducible refine foldr_kept _ ?_ _ ?_)
    | split

theorem placeEdge_kept {s₀ s : State} (hs : Kept s₀ s) (v : Vat) (p : Nat) (n : Nat) (rise : Bool) : Kept s₀ (placeEdge s v p n rise) := by
  unfold placeEdge
  repeat' first
    | with_reducible assumption
    | with_reducible apply applyEdge_kept
    | with_reducible apply filterEdge_kept
    | (with_reducible refine foldl_kept _ ?_ _ ?_)
    | (with_reducible refine foldr_kept _ ?_ _ ?_)
    | split
    | (intro t x y g)
    | (intro t x g)
    | (intro t g)
    | (extract_lets +onlyGivenNames t; clear_value t)

theorem legTime_kept {s₀ s : State} (hs : Kept s₀ s) (v : Vat) (p : Nat) (n : Nat) : Kept s₀ (legTime s v p n) := by
  unfold legTime
  repeat' first
    | with_reducible assumption
    | (extract_lets +onlyGivenNames t; refine (fun (g : Kept s₀ t) => ?_) ?_; clear_value t; rotate_left; subst t)
    | with_reducible apply emitEdge_kept
    | with_reducible apply refreshAhead_kept
    | with_reducible apply endRefresh_kept
    | (with_reducible refine foldl_kept _ ?_ _ ?_)
    | (with_reducible refine foldr_kept _ ?_ _ ?_)
    | split

theorem portTime_kept {s₀ s : State} (hs : Kept s₀ s) (v : Vat) (p : Nat) : Kept s₀ (portTime s v p) := by
  unfold portTime
  repeat' first
    | with_reducible assumption
    | with_reducible apply legTime_kept
    | (with_reducible refine foldl_kept _ ?_ _ ?_)
    | (with_reducible refine foldr_kept _ ?_ _ ?_)
    | split
    | (intro t x y g)
    | (intro t x g)

theorem generatorEdge_kept {s₀ s : State} (hs : Kept s₀ s) (v : Vat) (p : Nat) (n : Nat) (x4 : GenEdge) : Kept s₀ (generatorEdge s v p n x4) := by
  unfold generatorEdge
  repeat' first
    | with_reducible assumption
    | (extract_lets +onlyGivenNames t; refine (fun (g : Kept s₀ t) => ?_) ?_; clear_value t; rotate_left; subst t)
    | with_reducible apply placeEdge_kept
    | with_reducible apply bootstrapValley_kept
    | with_reducible apply injEvent_kept
    | with_reducible apply portValley_kept
    | (with_reducible refine foldl_kept _ ?_ _ ?_)
    | (with_reducible refine foldr_kept _ ?_ _ ?_)
    | split

theorem takeSet_kept {s₀ s : State} (hs : Kept s₀ s) (v : Vat) (p : Nat) (k : Nat) : Kept s₀ (takeSet s v p k) := by
  unfold takeSet
  repeat' first
    | with_reducible assumption
    | (extract_lets +onlyGivenNames t; refine (fun (g : Kept s₀ t) => ?_) ?_; clear_value t; rotate_left; subst t)
    | with_reducible apply State.wr_kept
    | with_reducible apply modPort_kept
    | (with_reducible refine foldl_kept _ ?_ _ ?_)
    | (with_reducible refine foldr_kept _ ?_ _ ?_)
    | split
    | (intro t x y g)
    | (intro t x g)

theorem coherenceError_kept {s₀ s : State} (hs : Kept s₀ s) (v : Vat) (p : Nat) : Kept s₀ (coherenceError s v p) := by
  unfold coherenceError
  repeat' first
    | with_reducible assumption
    | (extract_lets +onlyGivenNames t; refine (fun (g : Kept s₀ t) => ?_) ?_; clear_value t; rotate_left; subst t)
    | with_reducible apply State.incSat_kept
    | with_reducible apply State.setBit1_kept
    | with_reducible apply State.wr_kept
    | with_reducible apply State.vatEvent_kept
    | with_reducible apply modPort_kept
    | with_reducible apply enterUnitPattern_kept
    | with_reducible apply State.vatFlagBit_kept
    | (with_reducible refine foldl_kept _ ?_ _ ?_)
    | (with_reducible refine foldr_kept _ ?_ _ ?_)
    | split
    | (intro t x y g)
    | (intro t x g)
    | (intro t g)
    | (extract_lets +onlyGivenNames t; clear_value t)

theorem reloadDecision_kept {s₀ s : State} (hs : Kept s₀ s) (v : Vat) (p : Nat) : Kept s₀ (reloadDecision s v p) := by
  unfold reloadDecision
  repeat' first
    | with_reducible assumption
    | with_reducible apply takeSet_kept
    | with_reducible apply coherenceError_kept
    | (with_reducible refine foldl_kept _ ?_ _ ?_)
    | (with_reducible refine foldr_kept _ ?_ _ ?_)
    | split

theorem firstLevel_kept {s₀ s : State} (hs : Kept s₀ s) (v : Vat) (p : Nat) (n : Nat) : Kept s₀ (firstLevel s v p n) := by
  unfold firstLevel
  repeat' first
    | with_reducible assumption
    | (extract_lets +onlyGivenNames t; refine (fun (g : Kept s₀ t) => ?_) ?_; clear_value t; rotate_left; subst t)
    | with_reducible apply modLeg_kept
    | with_reducible apply setPins_kept
    | with_reducible apply emitEdge_kept
    | (with_reducible refine foldl_kept _ ?_ _ ?_)
    | (with_reducible refine foldr_kept _ ?_ _ ?_)
    | split
    | (intro t x y g)
    | (intro t x g)
    | (intro t g)
    | (extract_lets +onlyGivenNames t; clear_value t)

theorem followLeg_kept {s₀ s : State} (hs : Kept s₀ s) (v : Vat) (p : Nat) (n : Nat) (first : Bool) : Kept s₀ (followLeg s v p n first) := by
  unfold followLeg
  repeat' first
    | with_reducible assumption
    | with_reducible apply firstLevel_kept
    | with_reducible apply applyEdge_kept
    | with_reducible apply modLeg_kept
    | (with_reducible refine foldl_kept _ ?_ _ ?_)
    | (with_reducible refine foldr_kept _ ?_ _ ?_)
    | split
    | (intro t x y g)
    | (intro t x g)
    | (intro t g)
    | (extract_lets +onlyGivenNames t; clear_value t)

theorem followReload_kept {s₀ s : State} (hs : Kept s₀ s) (v : Vat) (p : Nat) : Kept s₀ (followReload s v p) := by
  unfold followReload
  repeat' first
    | with_reducible assumption
    | with_reducible apply modPort_kept
    | with_reducible apply followLeg_kept
    | (with_reducible refine foldl_kept _ ?_ _ ?_)
    | (with_reducible refine foldr_kept _ ?_ _ ?_)
    | split
    | (intro t x y g)
    | (intro t x g)

theorem reloadPort_kept {s₀ s : State} (hs : Kept s₀ s) (v : Vat) (p : Nat) (valley : Bool) : Kept s₀ (reloadPort s v p valley) := by
  unfold reloadPort
  repeat' first
    | with_reducible assumption
    | with_reducible apply carrierEvent_kept
    | with_reducible apply reloadDecision_kept
    | with_reducible apply takePeriod_kept
    | with_reducible apply refreshCmp_kept
    | with_reducible apply modPort_kept
    | with_reducible apply followReload_kept
    | with_reducible apply refreshLegs_kept
    | (with_reducible refine foldl_kept _ ?_ _ ?_)
    | (with_reducible refine foldr_kept _ ?_ _ ?_)
    | split
    | (intro t x y g)
    | (intro t x g)

theorem resolveTrips_kept {s₀ s : State} (hs : Kept s₀ s) (v : Vat) (p : Nat) (is : List Nat) : Kept s₀ (resolveTrips s v p is) := by
  unfold resolveTrips
  repeat' first
    | with_reducible assumption
    | (extract_lets +onlyGivenNames t; refine (fun (g : Kept s₀ t) => ?_) ?_; clear_value t; rotate_left; subst t)
    | with_reducible apply State.wrBit_kept
    | with_reducible apply State.vatEvent_kept
    | with_reducible apply State.incSat_kept
    | with_reducible apply State.set1_kept
    | with_reducible apply enterFaultPattern_kept
    | (with_reducible refine foldl_kept _ ?_ _ ?_)
    | (with_reducible refine foldr_kept _ ?_ _ ?_)
    | split
    | (intro t x y g)
    | (intro t x g)
    | (intro t g)
    | (extract_lets +onlyGivenNames t; clear_value t)

theorem resolveTrip_kept {s₀ s : State} (hs : Kept s₀ s) (v : Vat) (p : Nat) (i : Nat) : Kept s₀ (resolveTrip s v p i) := by
  unfold resolveTrip
  repeat' first
    | with_reducible assumption
    | with_reducible apply resolveTrips_kept

theorem closeWindow_kept {s₀ s : State} (hs : Kept s₀ s) (v : Vat) (p : Nat) : Kept s₀ (closeWindow s v p) := by
  unfold closeWindow
  repeat' first
    | with_reducible assumption
    | with_reducible apply resolveTrips_kept
    | with_reducible apply State.clr_kept
    | (with_reducible refine foldl_kept _ ?_ _ ?_)
    | (with_reducible refine foldr_kept _ ?_ _ ?_)
    | split

theorem tripAtPort_kept {s₀ s : State} (hs : Kept s₀ s) (v : Vat) (i : Nat) (p : Nat) : Kept s₀ (tripAtPort s v i p) := by
  unfold tripAtPort
  repeat' first
    | with_reducible assumption
    | with_reducible apply enterUnitPattern_kept
    | with_reducible apply State.wrBit_kept
    | (with_reducible refine foldl_kept _ ?_ _ ?_)
    | (with_reducible refine foldr_kept _ ?_ _ ?_)
    | split

theorem registerTrip_kept {s₀ s : State} (hs : Kept s₀ s) (v : Vat) (i : Nat) : Kept s₀ (registerTrip s v i) := by
  unfold registerTrip
  repeat' first
    | with_reducible assumption
    | (extract_lets +onlyGivenNames t; refine (fun (g : Kept s₀ t) => ?_) ?_; clear_value t; rotate_left; subst t)
    | with_reducible apply State.incSat_kept
    | with_reducible apply State.set1_kept
    | with_reducible apply injTrip_kept
    | with_reducible apply State.vatEvent_kept
    | with_reducible apply forN_kept
    | with_reducible apply tripAtPort_kept
    | (with_reducible refine foldl_kept _ ?_ _ ?_)
    | (with_reducible refine foldr_kept _ ?_ _ ?_)
    | split
    | (intro t x y g)
    | (intro t x g)

theorem execGeneratorEdge_kept {s₀ s t : State} {v : Vat} {leg : Fin 32} {e : GenEdge} (hs : Kept s₀ s) (e : execGeneratorEdge v leg e s = .next t) : Kept s₀ t := by
  unfold execGeneratorEdge at e
  cases e
  repeat' first
    | with_reducible assumption
    | with_reducible apply settle_kept
    | with_reducible apply passPending_kept
    | with_reducible apply generatorEdge_kept
    | (with_reducible refine foldl_kept _ ?_ _ ?_)
    | exact fun _ => ⟨⟨id, id, fun _ => id, fun _ => id⟩, id⟩
    | split

theorem execDelayLineRecal_kept {s₀ s t : State} {_v : Vat} {_leg : Fin 32} (hs : Kept s₀ s) (e : execDelayLineRecal _v _leg s = .next t) : Kept s₀ t := by
  unfold execDelayLineRecal at e
  cases e
  repeat' first
    | with_reducible assumption
    | with_reducible apply settle_kept

theorem execSoftTripResolution_kept {s₀ s t : State} {v : Vat} {p : Fin 8} {i : Fin 8} (hs : Kept s₀ s) (e : execSoftTripResolution v p i s = .next t) : Kept s₀ t := by
  unfold execSoftTripResolution at e
  cases e
  repeat' first
    | with_reducible assumption
    | with_reducible apply settle_kept
    | with_reducible apply resolveTrip_kept
    | (with_reducible refine foldl_kept _ ?_ _ ?_)
    | exact fun _ => ⟨⟨id, id, fun _ => id, fun _ => id⟩, id⟩
    | split

theorem execBlankingWindowClose_kept {s₀ s t : State} {v : Vat} {p : Fin 8} (hs : Kept s₀ s) (e : execBlankingWindowClose v p s = .next t) : Kept s₀ t := by
  unfold execBlankingWindowClose at e
  cases e
  repeat' first
    | with_reducible assumption
    | with_reducible apply settle_kept
    | with_reducible apply closeWindow_kept
    | (with_reducible refine foldl_kept _ ?_ _ ?_)
    | exact fun _ => ⟨⟨id, id, fun _ => id, fun _ => id⟩, id⟩
    | split

theorem execTripRegistration_kept {s₀ s t : State} {v : Vat} {i : Fin 8} (hs : Kept s₀ s) (e : execTripRegistration v i s = .next t) : Kept s₀ t := by
  unfold execTripRegistration at e
  cases e
  repeat' first
    | with_reducible assumption
    | with_reducible apply settle_kept
    | with_reducible apply registerTrip_kept
    | (with_reducible refine foldl_kept _ ?_ _ ?_)
    | exact fun _ => ⟨⟨id, id, fun _ => id, fun _ => id⟩, id⟩
    | split

theorem execTripLevelRelease_kept {s₀ s t : State} {v : Vat} {i : Fin 8} (hs : Kept s₀ s) (e : execTripLevelRelease v i s = .next t) : Kept s₀ t := by
  unfold execTripLevelRelease at e
  cases e
  repeat' first
    | with_reducible assumption
    | with_reducible apply settle_kept
    | with_reducible apply State.clr_kept
    | (with_reducible refine foldl_kept _ ?_ _ ?_)
    | exact fun _ => ⟨⟨id, id, fun _ => id, fun _ => id⟩, id⟩
    | split

end Sys2Proof.Machine
end

