-- ==== Sys2Proof/Laws/KeepDriverLink.lean ====
section
/-! SUPPORT. What the operations of Machine/DriverLink.lean keep (Laws/Keep.lean): one lemma for each. -/

namespace Sys2Proof.Machine

open Sys2Proof

theorem holdOff_kept {s₀ s : State} (hs : Kept s₀ s) (v : Vat) (p : Nat) : Kept s₀ (holdOff s v p) := by
  unfold holdOff
  repeat' first
    | with_reducible assumption
    | (with_reducible refine foldl_kept _ ?_ _ ?_)
    | (with_reducible refine foldr_kept _ ?_ _ ?_)
    | split
    | (intro t x y g)
    | (intro t x g)
    | (intro t g)
    | (extract_lets +onlyGivenNames t; clear_value t)
    | with_reducible apply Kept.update

theorem holdFallback_kept {s₀ s : State} (hs : Kept s₀ s) (v : Vat) (p : Nat) : Kept s₀ (holdFallback s v p) := by
  unfold holdFallback
  repeat' first
    | with_reducible assumption
    | with_reducible apply holdOff_kept
    | (with_reducible refine foldl_kept _ ?_ _ ?_)
    | (with_reducible refine foldr_kept _ ?_ _ ?_)
    | split
    | (intro t x y g)
    | (intro t x g)
    | (intro t g)
    | (extract_lets +onlyGivenNames t; clear_value t)

theorem monitorBreak_kept {s₀ s : State} (hs : Kept s₀ s) (v : Vat) (n : Nat) : Kept s₀ (monitorBreak s v n) := by
  unfold monitorBreak
  repeat' first
    | with_reducible assumption
    | with_reducible apply holdOff_kept
    | (with_reducible refine foldl_kept _ ?_ _ ?_)
    | (with_reducible refine foldr_kept _ ?_ _ ?_)
    | split

theorem actOnLeg_kept {s₀ s : State} (hs : Kept s₀ s) (v : Vat) (n : Nat) (before : Bool × Bool × Bool) : Kept s₀ (actOnLeg s v n before) := by
  unfold actOnLeg
  repeat' first
    | with_reducible assumption
    | with_reducible apply State.wr_kept
    | with_reducible apply enterFaultPattern_kept
    | with_reducible apply State.vatFlagEdge_kept
    | with_reducible apply holdFallback_kept
    | with_reducible apply ascFallback_kept
    | (with_reducible refine foldl_kept _ ?_ _ ?_)
    | (with_reducible refine foldr_kept _ ?_ _ ?_)
    | split

theorem linkLost_kept {s₀ s : State} (hs : Kept s₀ s) (v : Vat) (n : Nat) : Kept s₀ (linkLost s v n) := by
  unfold linkLost
  repeat' first
    | with_reducible assumption
    | (extract_lets +onlyGivenNames t; refine (fun (g : Kept s₀ t) => ?_) ?_; clear_value t; rotate_left; subst t)
    | with_reducible apply State.vatEvent_kept
    | with_reducible apply State.set1_kept
    | with_reducible apply State.clr_kept
    | with_reducible apply modDlr_kept
    | (with_reducible refine foldl_kept _ ?_ _ ?_)
    | (with_reducible refine foldr_kept _ ?_ _ ?_)
    | split

theorem countBad_kept {s₀ s : State} (hs : Kept s₀ s) (v : Vat) (n : Nat) : Kept s₀ (countBad s v n) := by
  unfold countBad
  repeat' first
    | with_reducible assumption
    | with_reducible apply State.incSat_kept
    | with_reducible apply State.vatFlag_kept

theorem badFrame_kept {s₀ s : State} (hs : Kept s₀ s) (v : Vat) (n : Nat) : Kept s₀ (badFrame s v n) := by
  unfold badFrame
  repeat' first
    | with_reducible assumption
    | (extract_lets +onlyGivenNames t; refine (fun (g : Kept s₀ t) => ?_) ?_; clear_value t; rotate_left; subst t)
    | with_reducible apply countBad_kept
    | with_reducible apply modDlr_kept
    | with_reducible apply linkLost_kept
    | (with_reducible refine foldl_kept _ ?_ _ ?_)
    | (with_reducible refine foldr_kept _ ?_ _ ?_)
    | split
    | (intro t x y g)
    | (intro t x g)
    | (intro t g)
    | (extract_lets +onlyGivenNames t; clear_value t)

theorem endDisregard_kept {s₀ s : State} (hs : Kept s₀ s) (v : Vat) (n : Nat) : Kept s₀ (endDisregard s v n) := by
  unfold endDisregard
  repeat' first
    | with_reducible assumption
    | with_reducible apply State.clr_kept
    | (with_reducible refine foldl_kept _ ?_ _ ?_)
    | (with_reducible refine foldr_kept _ ?_ _ ?_)
    | split

theorem huvReport_kept {s₀ s : State} (hs : Kept s₀ s) (v : Vat) (n : Nat) (huv : Bool) : Kept s₀ (huvReport s v n huv) := by
  unfold huvReport
  repeat' first
    | with_reducible assumption
    | with_reducible apply endDisregard_kept
    | with_reducible apply State.vatFlag_kept
    | with_reducible apply modDlr_kept
    | (with_reducible refine foldl_kept _ ?_ _ ?_)
    | (with_reducible refine foldr_kept _ ?_ _ ?_)
    | split

theorem checkFrame_kept {s₀ s : State} (hs : Kept s₀ s) (v : Vat) (n : Nat) (f : Nat) (enSteady : Bool) : Kept s₀ (checkFrame s v n f enSteady) := by
  unfold checkFrame
  repeat' first
    | with_reducible assumption
    | (extract_lets +onlyGivenNames t; refine (fun (g : Kept s₀ t) => ?_) ?_; clear_value t; rotate_left; subst t)
    | with_reducible apply State.set1_kept
    | with_reducible apply State.vatEvent_kept
    | with_reducible apply modDlr_kept
    | (with_reducible refine foldl_kept _ ?_ _ ?_)
    | (with_reducible refine foldr_kept _ ?_ _ ?_)
    | split
    | (intro t x y g)
    | (intro t x g)
    | (intro t g)
    | (extract_lets +onlyGivenNames t; clear_value t)

theorem logBits_kept {s₀ s : State} (hs : Kept s₀ s) (v : Vat) (n : Nat) (f : Nat) : Kept s₀ (logBits s v n f) := by
  unfold logBits
  repeat' first
    | with_reducible assumption
    | with_reducible apply State.vatEvent_kept
    | with_reducible apply modDlr_kept
    | (with_reducible refine foldl_kept _ ?_ _ ?_)
    | (with_reducible refine foldr_kept _ ?_ _ ?_)
    | split

theorem goodFrame_kept {s₀ s : State} (hs : Kept s₀ s) (v : Vat) (n : Nat) (f : Nat) (enSteady : Bool) : Kept s₀ (goodFrame s v n f enSteady) := by
  unfold goodFrame
  repeat' first
    | with_reducible assumption
    | with_reducible apply State.incSat_kept
    | with_reducible apply State.wr_kept
    | with_reducible apply logBits_kept
    | with_reducible apply modDlr_kept
    | with_reducible apply State.set1_kept
    | with_reducible apply checkFrame_kept
    | with_reducible apply huvReport_kept
    | (with_reducible refine foldl_kept _ ?_ _ ?_)
    | (with_reducible refine foldr_kept _ ?_ _ ?_)
    | split

theorem asctOver_kept {s₀ s : State} (hs : Kept s₀ s) (v : Vat) (p : Nat) : Kept s₀ (asctOver s v p) := by
  unfold asctOver
  repeat' first
    | with_reducible assumption
    | with_reducible apply holdOff_kept
    | with_reducible apply toAllOff_kept
    | (with_reducible refine foldl_kept _ ?_ _ ?_)
    | (with_reducible refine foldr_kept _ ?_ _ ?_)
    | split
    | (intro t x y g)
    | (intro t x g)

theorem execDstFrame_kept {s₀ s t : State} {v : Vat} {leg : Fin 32} {frame : BitVec 24} {formed : Bool} {enSteady : Bool} (hs : Kept s₀ s) (e : execDstFrame v leg frame formed enSteady s = .next t) : Kept s₀ t := by
  unfold execDstFrame at e
  cases e
  repeat' first
    | with_reducible assumption
    | with_reducible apply settle_kept
    | with_reducible apply goodFrame_kept
    | with_reducible apply badFrame_kept
    | with_reducible apply actOnLeg_kept
    | (with_reducible refine foldl_kept _ ?_ _ ?_)
    | exact fun _ => ⟨⟨id, id, fun _ => id, fun _ => id⟩, id⟩
    | split

theorem execFaultBreak_kept {s₀ s t : State} {v : Vat} {leg : Fin 32} (hs : Kept s₀ s) (e : execFaultBreak v leg s = .next t) : Kept s₀ t := by
  unfold execFaultBreak at e
  cases e
  repeat' first
    | with_reducible assumption
    | with_reducible apply settle_kept
    | with_reducible apply monitorBreak_kept
    | with_reducible apply State.vatEvent_kept
    | with_reducible apply State.incSat_kept
    | with_reducible apply State.set1_kept
    | with_reducible apply actOnLeg_kept
    | (with_reducible refine foldl_kept _ ?_ _ ?_)
    | exact fun _ => ⟨⟨id, id, fun _ => id, fun _ => id⟩, id⟩
    | split

theorem execFaultBreakEnd_kept {s₀ s t : State} {v : Vat} {leg : Fin 32} (hs : Kept s₀ s) (e : execFaultBreakEnd v leg s = .next t) : Kept s₀ t := by
  unfold execFaultBreakEnd at e
  cases e
  repeat' first
    | with_reducible assumption
    | with_reducible apply settle_kept
    | with_reducible apply actOnLeg_kept
    | with_reducible apply State.clr_kept
    | (with_reducible refine foldl_kept _ ?_ _ ?_)
    | exact fun _ => ⟨⟨id, id, fun _ => id, fun _ => id⟩, id⟩
    | split

theorem execDstLineError_kept {s₀ s t : State} {v : Vat} {leg : Fin 32} (hs : Kept s₀ s) (e : execDstLineError v leg s = .next t) : Kept s₀ t := by
  unfold execDstLineError at e
  cases e
  repeat' first
    | with_reducible assumption
    | with_reducible apply settle_kept
    | with_reducible apply countBad_kept
    | (with_reducible refine foldl_kept _ ?_ _ ?_)
    | exact fun _ => ⟨⟨id, id, fun _ => id, fun _ => id⟩, id⟩
    | split

theorem execDriverLinkLoss_kept {s₀ s t : State} {v : Vat} {leg : Fin 32} (hs : Kept s₀ s) (e : execDriverLinkLoss v leg s = .next t) : Kept s₀ t := by
  unfold execDriverLinkLoss at e
  cases e
  repeat' first
    | with_reducible assumption
    | with_reducible apply settle_kept
    | with_reducible apply actOnLeg_kept
    | with_reducible apply linkLost_kept
    | (with_reducible refine foldl_kept _ ?_ _ ?_)
    | exact fun _ => ⟨⟨id, id, fun _ => id, fun _ => id⟩, id⟩
    | split

theorem execAsctExpiry_kept {s₀ s t : State} {v : Vat} {p : Fin 8} (hs : Kept s₀ s) (e : execAsctExpiry v p s = .next t) : Kept s₀ t := by
  unfold execAsctExpiry at e
  cases e
  repeat' first
    | with_reducible assumption
    | with_reducible apply settle_kept
    | with_reducible apply asctOver_kept
    | (with_reducible refine foldl_kept _ ?_ _ ?_)
    | exact fun _ => ⟨⟨id, id, fun _ => id, fun _ => id⟩, id⟩
    | split

end Sys2Proof.Machine
end

