-- ==== Sys2Proof/Laws/KeepEvaluate.lean ====
section
/-! SUPPORT. What the operations of Machine/Evaluate.lean keep (Laws/Keep.lean): one lemma for each. -/

namespace Sys2Proof.Machine

open Sys2Proof

theorem modEng_kept {s₀ s : State} (hs : Kept s₀ s) (v : Vat) (c : Nat) (f : EngSt → EngSt) : Kept s₀ (modEng s v c f) := by
  unfold modEng
  repeat' first
    | with_reducible assumption
    | with_reducible apply State.modVat_kept

theorem modSlot_kept {s₀ s : State} (hs : Kept s₀ s) (v : Vat) (c : Nat) (k : Nat) (f : GraphSt → GraphSt) : Kept s₀ (modSlot s v c k f) := by
  unfold modSlot
  repeat' first
    | with_reducible assumption
    | with_reducible apply modEng_kept

theorem writeEng_kept {s₀ s : State} (hs : Kept s₀ s) (v : Vat) (c : Nat) (o : Nat) (w : Word) : Kept s₀ (writeEng s v c o w) := by
  unfold writeEng
  repeat' first
    | with_reducible assumption
    | with_reducible apply State.writeMem_kept

end Sys2Proof.Machine
end

