-- ==== Sys2Proof/Laws/KeepGuards.lean ====
section
/-! SUPPORT. What the operations of Machine/Guards.lean keep (Laws/Keep.lean): one lemma for each. -/

namespace Sys2Proof.Machine

open Sys2Proof

theorem currentLoss_kept {s₀ s : State} (hs : Kept s₀ s) (v : Vat) (p : Nat) : Kept s₀ (currentLoss s v p) := by
  unfold currentLoss
  repeat' first
    | with_reducible assumption
    | with_reducible apply enterFaultPattern_kept
    | with_reducible apply State.vatFlagEdge_kept

theorem voltageLoss_kept {s₀ s : State} (hs : Kept s₀ s) (v : Vat) (p : Nat) : Kept s₀ (voltageLoss s v p) := by
  unfold voltageLoss
  repeat' first
    | with_reducible assumption
    | with_reducible apply enterFaultPattern_kept
    | with_reducible apply State.vatFlagEdge_kept
    | with_reducible apply State.set1_kept
    | with_reducible apply modGuard_kept
    | with_reducible apply State.wr_kept
    | (with_reducible refine foldl_kept _ ?_ _ ?_)
    | (with_reducible refine foldr_kept _ ?_ _ ?_)
    | split

theorem feedbackTest_kept {s₀ s : State} (hs : Kept s₀ s) (v : Vat) (p : Nat) (lost : Nat → Bool) : Kept s₀ (feedbackTest s v p lost) := by
  unfold feedbackTest
  repeat' first
    | with_reducible assumption
    | with_reducible apply currentLoss_kept
    | with_reducible apply voltageLoss_kept
    | (with_reducible refine foldl_kept _ ?_ _ ?_)
    | (with_reducible refine foldr_kept _ ?_ _ ?_)
    | split

theorem arrivalLoss_kept {s₀ s : State} (hs : Kept s₀ s) (v : Vat) (p : Nat) (n : Nat) : Kept s₀ (arrivalLoss s v p n) := by
  unfold arrivalLoss
  repeat' first
    | with_reducible assumption
    | (extract_lets +onlyGivenNames t; refine (fun (g : Kept s₀ t) => ?_) ?_; clear_value t; rotate_left; subst t)
    | with_reducible apply modGuard_kept
    | with_reducible apply feedbackTest_kept
    | (with_reducible refine foldl_kept _ ?_ _ ?_)
    | (with_reducible refine foldr_kept _ ?_ _ ?_)
    | split

theorem startZr_kept {s₀ s : State} (hs : Kept s₀ s) (v : Vat) (p : Nat) : Kept s₀ (startZr s v p) := by
  unfold startZr
  repeat' first
    | with_reducible assumption
    | with_reducible apply State.set1_kept
    | with_reducible apply State.clr_kept

theorem positionLoss_kept {s₀ s : State} (hs : Kept s₀ s) (v : Vat) (p : Nat) : Kept s₀ (positionLoss s v p) := by
  unfold positionLoss
  repeat' first
    | with_reducible assumption
    | (extract_lets +onlyGivenNames t; refine (fun (g : Kept s₀ t) => ?_) ?_; clear_value t; rotate_left; subst t)
    | with_reducible apply State.vatFlagEdge_kept
    | with_reducible apply modGuard_kept
    | with_reducible apply State.wr_kept
    | with_reducible apply State.set1_kept
    | with_reducible apply startZr_kept
    | (with_reducible refine foldl_kept _ ?_ _ ?_)
    | (with_reducible refine foldr_kept _ ?_ _ ?_)
    | split
    | (intro t x y g)
    | (intro t x g)
    | (intro t g)
    | (extract_lets +onlyGivenNames t; clear_value t)

theorem gridTick_kept {s₀ s : State} (hs : Kept s₀ s) (v : Vat) (p : Nat) : Kept s₀ (gridTick s v p) := by
  unfold gridTick
  repeat' first
    | with_reducible assumption
    | (extract_lets +onlyGivenNames t; refine (fun (g : Kept s₀ t) => ?_) ?_; clear_value t; rotate_left; subst t)
    | with_reducible apply modGuard_kept
    | with_reducible apply feedbackTest_kept

theorem driveTick_kept {s₀ s : State} (hs : Kept s₀ s) (v : Vat) (p : Nat) : Kept s₀ (driveTick s v p) := by
  unfold driveTick
  repeat' first
    | with_reducible assumption
    | (extract_lets +onlyGivenNames t; refine (fun (g : Kept s₀ t) => ?_) ?_; clear_value t; rotate_left; subst t)
    | with_reducible apply modGuard_kept
    | with_reducible apply feedbackTest_kept
    | with_reducible apply positionLoss_kept
    | (with_reducible refine foldl_kept _ ?_ _ ?_)
    | (with_reducible refine foldr_kept _ ?_ _ ?_)
    | split
    | (intro t x y g)
    | (intro t x g)
    | (intro t g)
    | (extract_lets +onlyGivenNames t; clear_value t)

theorem guardTick_kept {s₀ s : State} (hs : Kept s₀ s) (v : Vat) (p : Nat) : Kept s₀ (guardTick s v p) := by
  unfold guardTick
  repeat' first
    | with_reducible assumption
    | with_reducible apply gridTick_kept
    | with_reducible apply driveTick_kept
    | (with_reducible refine foldl_kept _ ?_ _ ?_)
    | (with_reducible refine foldr_kept _ ?_ _ ?_)
    | split

theorem observerCommit_kept {s₀ s : State} (hs : Kept s₀ s) (v : Vat) (p : Nat) : Kept s₀ (observerCommit s v p) := by
  unfold observerCommit
  repeat' first
    | with_reducible assumption
    | with_reducible apply startZr_kept
    | (with_reducible refine foldl_kept _ ?_ _ ?_)
    | (with_reducible refine foldr_kept _ ?_ _ ?_)
    | split
    | (intro t x y g)
    | (intro t x g)
    | (intro t g)
    | (extract_lets +onlyGivenNames t; clear_value t)

theorem guardCommit_kept {s₀ s : State} (hs : Kept s₀ s) (v : Vat) (p : Nat) : Kept s₀ (guardCommit s v p) := by
  unfold guardCommit
  repeat' first
    | with_reducible assumption
    | (extract_lets +onlyGivenNames t; refine (fun (g : Kept s₀ t) => ?_) ?_; clear_value t; rotate_left; subst t)
    | with_reducible apply modPort_kept
    | with_reducible apply enterFaultPattern_kept
    | with_reducible apply State.vatFlagEdge_kept
    | with_reducible apply observerCommit_kept
    | (with_reducible refine foldl_kept _ ?_ _ ?_)
    | (with_reducible refine foldr_kept _ ?_ _ ?_)
    | split

theorem acceptRest_kept {s₀ s : State} (hs : Kept s₀ s) (v : Vat) (p : Nat) (f : RestFrame) : Kept s₀ (acceptRest s v p f) := by
  unfold acceptRest
  repeat' first
    | with_reducible assumption
    | (extract_lets +onlyGivenNames t; refine (fun (g : Kept s₀ t) => ?_) ?_; clear_value t; rotate_left; subst t)
    | with_reducible apply modGuard_kept
    | with_reducible apply State.incWrap_kept
    | with_reducible apply State.set1_kept
    | (with_reducible refine foldl_kept _ ?_ _ ?_)
    | (with_reducible refine foldr_kept _ ?_ _ ?_)
    | split
    | (intro t x y g)
    | (intro t x g)
    | (intro t g)
    | (extract_lets +onlyGivenNames t; clear_value t)

theorem receiveRest_kept {s₀ s : State} (hs : Kept s₀ s) (v : Vat) (p : Nat) (f : RestFrame) : Kept s₀ (receiveRest s v p f) := by
  unfold receiveRest
  repeat' first
    | with_reducible assumption
    | (extract_lets +onlyGivenNames t; refine (fun (g : Kept s₀ t) => ?_) ?_; clear_value t; rotate_left; subst t)
    | with_reducible apply State.vatFlagEdge_kept
    | with_reducible apply State.vatFlag_kept
    | with_reducible apply acceptRest_kept
    | (with_reducible refine foldl_kept _ ?_ _ ?_)
    | (with_reducible refine foldr_kept _ ?_ _ ?_)
    | split

theorem receiveRestAll_kept {s₀ s : State} (hs : Kept s₀ s) (f : RestFrame) : Kept s₀ (receiveRestAll s f) := by
  unfold receiveRestAll
  repeat' first
    | with_reducible assumption
    | with_reducible apply State.useFree_kept
    | with_reducible apply forVats_kept
    | with_reducible apply forN_kept
    | with_reducible apply receiveRest_kept
    | (with_reducible refine foldl_kept _ ?_ _ ?_)
    | (with_reducible refine foldr_kept _ ?_ _ ?_)
    | split
    | (intro t x y g)
    | (intro t x g)

theorem loseRest_kept {s₀ s : State} (hs : Kept s₀ s) (v : Vat) (p : Nat) : Kept s₀ (loseRest s v p) := by
  unfold loseRest
  repeat' first
    | with_reducible assumption
    | with_reducible apply modGuard_kept
    | with_reducible apply State.vatFlagEdge_kept
    | with_reducible apply State.clr_kept
    | (with_reducible refine foldl_kept _ ?_ _ ?_)
    | (with_reducible refine foldr_kept _ ?_ _ ?_)
    | split

theorem loseRestAll_kept {s₀ s : State} (hs : Kept s₀ s) : Kept s₀ (loseRestAll s) := by
  unfold loseRestAll
  repeat' first
    | with_reducible assumption
    | with_reducible apply forVats_kept
    | with_reducible apply forN_kept
    | with_reducible apply loseRest_kept
    | (with_reducible refine foldl_kept _ ?_ _ ?_)
    | (with_reducible refine foldr_kept _ ?_ _ ?_)
    | split
    | (intro t x y g)
    | (intro t x g)

theorem dfrTick_kept {s₀ s : State} (hs : Kept s₀ s) (v : Vat) (p : Nat) (ts : Word) : Kept s₀ (dfrTick s v p ts) := by
  unfold dfrTick
  repeat' first
    | with_reducible assumption
    | with_reducible apply State.wr_kept
    | with_reducible apply modGuard_kept
    | (with_reducible refine foldl_kept _ ?_ _ ?_)
    | (with_reducible refine foldr_kept _ ?_ _ ?_)
    | split

theorem execOpenLoopTimeout_kept {s₀ s t : State} {v : Vat} {p : Fin 8} (hs : Kept s₀ s) (e : execOpenLoopTimeout v p s = .next t) : Kept s₀ t := by
  unfold execOpenLoopTimeout at e
  cases e
  repeat' first
    | with_reducible assumption
    | with_reducible apply settle_kept
    | with_reducible apply restoreOl_kept
    | with_reducible apply enterFaultPattern_kept
    | with_reducible apply State.vatFlag_kept
    | (with_reducible refine foldl_kept _ ?_ _ ?_)
    | exact fun _ => ⟨⟨id, id, fun _ => id, fun _ => id⟩, id⟩
    | split

theorem execOpenLoopRecovery_kept {s₀ s t : State} {v : Vat} {p : Fin 8} (hs : Kept s₀ s) (e : execOpenLoopRecovery v p s = .next t) : Kept s₀ t := by
  unfold execOpenLoopRecovery at e
  cases e
  repeat' first
    | with_reducible assumption
    | with_reducible apply settle_kept
    | with_reducible apply restoreOl_kept
    | with_reducible apply State.clr_kept
    | (with_reducible refine foldl_kept _ ?_ _ ?_)
    | exact fun _ => ⟨⟨id, id, fun _ => id, fun _ => id⟩, id⟩
    | split

theorem execObserverRideTimeout_kept {s₀ s t : State} {v : Vat} {p : Fin 8} (hs : Kept s₀ s) (e : execObserverRideTimeout v p s = .next t) : Kept s₀ t := by
  unfold execObserverRideTimeout at e
  cases e
  repeat' first
    | with_reducible assumption
    | with_reducible apply settle_kept
    | with_reducible apply modGuard_kept
    | with_reducible apply State.wr_kept
    | with_reducible apply startZr_kept
    | with_reducible apply State.vatFlag_kept
    | (with_reducible refine foldl_kept _ ?_ _ ?_)
    | exact fun _ => ⟨⟨id, id, fun _ => id, fun _ => id⟩, id⟩
    | split

theorem execObserverRideRecovery_kept {s₀ s t : State} {v : Vat} {p : Fin 8} (hs : Kept s₀ s) (e : execObserverRideRecovery v p s = .next t) : Kept s₀ t := by
  unfold execObserverRideRecovery at e
  cases e
  repeat' first
    | with_reducible assumption
    | with_reducible apply settle_kept
    | with_reducible apply modGuard_kept
    | with_reducible apply State.clr_kept
    | (with_reducible refine foldl_kept _ ?_ _ ?_)
    | exact fun _ => ⟨⟨id, id, fun _ => id, fun _ => id⟩, id⟩
    | split

theorem execZeroEffortTimeout_kept {s₀ s t : State} {v : Vat} {p : Fin 8} (hs : Kept s₀ s) (e : execZeroEffortTimeout v p s = .next t) : Kept s₀ t := by
  unfold execZeroEffortTimeout at e
  cases e
  repeat' first
    | with_reducible assumption
    | with_reducible apply settle_kept
    | with_reducible apply enterFaultPattern_kept
    | with_reducible apply State.vatFlag_kept
    | (with_reducible refine foldl_kept _ ?_ _ ?_)
    | exact fun _ => ⟨⟨id, id, fun _ => id, fun _ => id⟩, id⟩
    | split

theorem execRestorationLoss_kept {s₀ s t : State} {p : Fin 8} (hs : Kept s₀ s) (e : execRestorationLoss p s = .next t) : Kept s₀ t := by
  unfold execRestorationLoss at e
  cases e
  repeat' first
    | with_reducible assumption
    | with_reducible apply settle_kept
    | with_reducible apply forVats_kept
    | with_reducible apply loseRest_kept
    | (with_reducible refine foldl_kept _ ?_ _ ?_)
    | exact fun _ => ⟨⟨id, id, fun _ => id, fun _ => id⟩, id⟩
    | split
    | (intro t x g)

end Sys2Proof.Machine
end

