-- ==== Sys2Proof/Laws/KeepEngine.lean ====
section
/-! SUPPORT. What the operations of Machine/Engine.lean keep (Laws/Keep.lean): one lemma for each. -/

namespace Sys2Proof.Machine

open Sys2Proof

theorem modEvals_kept {s₀ s : State} (hs : Kept s₀ s) (v : Vat) (c : Nat) (k : Nat) (f : List EvalSt → List EvalSt) : Kept s₀ (modEvals s v c k f) := by
  unfold modEvals
  repeat' first
    | with_reducible assumption
    | with_reducible apply modSlot_kept

theorem refreshWhey_kept {s₀ s : State} (hs : Kept s₀ s) (v : Vat) (c : Nat) (k : Nat) : Kept s₀ (refreshWhey s v c k) := by
  unfold refreshWhey
  repeat' first
    | with_reducible assumption
    | (extract_lets +onlyGivenNames t; refine (fun (g : Kept s₀ t) => ?_) ?_; clear_value t; rotate_left; subst t)
    | with_reducible apply State.wr_kept
    | with_reducible apply State.set1_kept
    | with_reducible apply State.clr_kept
    | (with_reducible refine foldl_kept _ ?_ _ ?_)
    | (with_reducible refine foldr_kept _ ?_ _ ?_)
    | split
    | (intro t x y g)
    | (intro t x g)
    | (intro t g)
    | (extract_lets +onlyGivenNames t; clear_value t)

theorem closeXhat_kept {s₀ s : State} (hs : Kept s₀ s) (v : Vat) (c : Nat) (k : Nat) : Kept s₀ (closeXhat s v c k) := by
  unfold closeXhat
  repeat' first
    | with_reducible assumption
    | with_reducible apply forN_kept
    | with_reducible apply State.clr_kept
    | (with_reducible refine foldl_kept _ ?_ _ ?_)
    | (with_reducible refine foldr_kept _ ?_ _ ?_)
    | split
    | (intro t x y g)
    | (intro t x g)

theorem schedule_kept {s₀ s : State} (hs : Kept s₀ s) (v : Vat) (c : Nat) : Kept s₀ (schedule s v c) := by
  unfold schedule
  repeat' first
    | with_reducible assumption
    | (extract_lets +onlyGivenNames t; refine (fun (g : Kept s₀ t) => ?_) ?_; clear_value t; rotate_left; subst t)
    | with_reducible apply refreshWhey_kept
    | with_reducible apply modEvals_kept
    | with_reducible apply State.wr_kept
    | (with_reducible refine foldl_kept _ ?_ _ ?_)
    | (with_reducible refine foldr_kept _ ?_ _ ?_)
    | split

theorem excuseTick_kept {s₀ s : State} (hs : Kept s₀ s) (p : Nat) (tick : Nat) : Kept s₀ (excuseTick s p tick) := by
  unfold excuseTick
  repeat' first
    | with_reducible assumption
    | (with_reducible refine foldl_kept _ ?_ _ ?_)
    | (with_reducible refine foldr_kept _ ?_ _ ?_)
    | split
    | (intro t x y g)
    | (intro t x g)
    | (intro t g)
    | (extract_lets +onlyGivenNames t; clear_value t)
    | with_reducible apply Kept.update

theorem asymMiss_kept {s₀ s : State} (hs : Kept s₀ s) (w : Vat) (p : Nat) (tick : Nat) (counts : Bool) : Kept s₀ (asymMiss s w p tick counts) := by
  unfold asymMiss
  repeat' first
    | with_reducible assumption
    | (extract_lets +onlyGivenNames t; refine (fun (g : Kept s₀ t) => ?_) ?_; clear_value t; rotate_left; subst t)
    | with_reducible apply State.event_kept
    | with_reducible apply State.set1_kept
    | with_reducible apply excuseTick_kept
    | with_reducible apply raiseFlt_kept
    | (with_reducible refine foldl_kept _ ?_ _ ?_)
    | (with_reducible refine foldr_kept _ ?_ _ ?_)
    | split
    | (intro t x y g)
    | (intro t x g)
    | (intro t g)
    | (extract_lets +onlyGivenNames t; clear_value t)
    | with_reducible apply Kept.update

theorem settleDoubt_kept {s₀ s : State} (hs : Kept s₀ s) (p : Nat) (tick : Nat) : Kept s₀ (settleDoubt s p tick) := by
  unfold settleDoubt
  repeat' first
    | with_reducible assumption
    | with_reducible apply compareMismatch_kept
    | (with_reducible refine foldl_kept _ ?_ _ ?_)
    | (with_reducible refine foldr_kept _ ?_ _ ?_)
    | split
    | (intro t x y g)
    | (intro t x g)
    | (intro t g)
    | (extract_lets +onlyGivenNames t; clear_value t)
    | with_reducible apply Kept.update

theorem compareCommits_kept {s₀ s : State} (hs : Kept s₀ s) (p : Nat) (tick : Nat) (a : Nat) (b : Nat) : Kept s₀ (compareCommits s p tick a b) := by
  unfold compareCommits
  repeat' first
    | with_reducible assumption
    | (extract_lets +onlyGivenNames t; refine (fun (g : Kept s₀ t) => ?_) ?_; clear_value t; rotate_left; subst t)
    | with_reducible apply settleDoubt_kept
    | with_reducible apply compareMismatch_kept
    | (with_reducible refine foldl_kept _ ?_ _ ?_)
    | (with_reducible refine foldr_kept _ ?_ _ ?_)
    | split
    | (intro t x y g)
    | (intro t x g)
    | (intro t g)
    | (extract_lets +onlyGivenNames t; clear_value t)
    | with_reducible apply Kept.update

theorem compareOutcome_kept {s₀ s : State} (hs : Kept s₀ s) (v : Vat) (p : Nat) (tick : Nat) (outcome : Nat) (csig : Nat) : Kept s₀ (compareOutcome s v p tick outcome csig) := by
  unfold compareOutcome
  repeat' first
    | with_reducible assumption
    | (extract_lets +onlyGivenNames t; refine (fun (g : Kept s₀ t) => ?_) ?_; clear_value t; rotate_left; subst t)
    | with_reducible apply compareCommits_kept
    | with_reducible apply asymMiss_kept
    | (with_reducible refine foldl_kept _ ?_ _ ?_)
    | (with_reducible refine foldr_kept _ ?_ _ ?_)
    | split
    | (intro t x y g)
    | (intro t x g)
    | (intro t g)
    | (extract_lets +onlyGivenNames t; clear_value t)
    | with_reducible apply Kept.update

theorem missed_kept {s₀ s : State} (hs : Kept s₀ s) (v : Vat) (c : Nat) (k : Nat) (tick : Nat) : Kept s₀ (missed s v c k tick) := by
  unfold missed
  repeat' first
    | with_reducible assumption
    | with_reducible apply State.wr_kept
    | with_reducible apply State.incSat_kept
    | with_reducible apply State.setBit1_kept
    | with_reducible apply State.vatEvent_kept
    | with_reducible apply forN_kept
    | with_reducible apply State.set1_kept
    | with_reducible apply compareOutcome_kept
    | (with_reducible refine foldl_kept _ ?_ _ ?_)
    | (with_reducible refine foldr_kept _ ?_ _ ?_)
    | split
    | (intro t x y g)
    | (intro t x g)

theorem judgeLanding_kept {s₀ s : State} (hs : Kept s₀ s) (v : Vat) (c : Nat) (k : Nat) : Kept s₀ (judgeLanding s v c k) := by
  unfold judgeLanding
  repeat' first
    | with_reducible assumption
    | (extract_lets +onlyGivenNames t; refine (fun (g : Kept s₀ t) => ?_) ?_; clear_value t; rotate_left; subst t)
    | with_reducible apply modSlot_kept
    | with_reducible apply State.wr_kept
    | with_reducible apply State.incSat_kept
    | (with_reducible refine foldl_kept _ ?_ _ ?_)
    | (with_reducible refine foldr_kept _ ?_ _ ?_)
    | split

theorem beginEval_kept {s₀ s : State} (hs : Kept s₀ s) (v : Vat) (c : Nat) (k : Nat) (p : Nat) : Kept s₀ (beginEval s v c k p) := by
  unfold beginEval
  repeat' first
    | with_reducible assumption
    | with_reducible apply modEvals_kept
    | with_reducible apply State.wr_kept
    | with_reducible apply State.set1_kept
    | with_reducible apply State.incSat_kept
    | with_reducible apply State.clr_kept
    | with_reducible apply schedule_kept
    | with_reducible apply refreshWhey_kept
    | (with_reducible refine foldl_kept _ ?_ _ ?_)
    | (with_reducible refine foldr_kept _ ?_ _ ?_)
    | split
    | (intro t x y g)
    | (intro t x g)

theorem storeResults_kept {s₀ s : State} (hs : Kept s₀ s) (v : Vat) (c : Nat) (k : Nat) (e : EvalSt) : Kept s₀ (storeResults s v c k e) := by
  unfold storeResults
  repeat' first
    | with_reducible assumption
    | with_reducible apply modEng_kept
    | with_reducible apply modEvals_kept

theorem judgeEntry_kept {s₀ s : State} (hs : Kept s₀ s) (v : Vat) (c : Nat) (k : Nat) (e : EvalSt) (q : Nat × PredDef) : Kept s₀ (judgeEntry s v c k e q) := by
  unfold judgeEntry
  repeat' first
    | with_reducible assumption
    | with_reducible apply State.clr_kept
    | with_reducible apply State.set1_kept
    | with_reducible apply State.wr_kept
    | (with_reducible refine foldl_kept _ ?_ _ ?_)
    | (with_reducible refine foldr_kept _ ?_ _ ?_)
    | split

theorem verdict_kept {s₀ s : State} (hs : Kept s₀ s) (v : Vat) (c : Nat) (k : Nat) (q : EvalSt → Bool) : Kept s₀ (verdict s v c k q) := by
  unfold verdict
  repeat' first
    | with_reducible assumption
    | with_reducible apply judgeEntry_kept
    | with_reducible apply modEvals_kept
    | with_reducible apply State.incSat_kept
    | with_reducible apply schedule_kept
    | with_reducible apply refreshWhey_kept
    | (with_reducible refine foldl_kept _ ?_ _ ?_)
    | (with_reducible refine foldr_kept _ ?_ _ ?_)
    | split
    | (intro t x y g)
    | (intro t x g)
    | (intro t g)
    | (extract_lets +onlyGivenNames t; clear_value t)

theorem endEval_kept {s₀ s : State} (hs : Kept s₀ s) (v : Vat) (c : Nat) : Kept s₀ (endEval s v c) := by
  unfold endEval
  repeat' first
    | with_reducible assumption
    | (extract_lets +onlyGivenNames t; refine (fun (g : Kept s₀ t) => ?_) ?_; clear_value t; rotate_left; subst t)
    | with_reducible apply storeResults_kept
    | with_reducible apply modEvals_kept
    | with_reducible apply schedule_kept
    | with_reducible apply refreshWhey_kept
    | with_reducible apply verdict_kept
    | (with_reducible refine foldl_kept _ ?_ _ ?_)
    | (with_reducible refine foldr_kept _ ?_ _ ?_)
    | split

theorem awaitArrivals_kept {s₀ s : State} (hs : Kept s₀ s) (v : Vat) (c : Nat) (k : Nat) (p : Nat) : Kept s₀ (awaitArrivals s v c k p) := by
  unfold awaitArrivals
  repeat' first
    | with_reducible assumption
    | with_reducible apply modPort_kept

theorem guardArrival_kept {s₀ s : State} (hs : Kept s₀ s) (v : Vat) (p : Nat) (n : Nat) (ok : Bool) : Kept s₀ (guardArrival s v p n ok) := by
  unfold guardArrival
  repeat' first
    | with_reducible assumption
    | (extract_lets +onlyGivenNames t; refine (fun (g : Kept s₀ t) => ?_) ?_; clear_value t; rotate_left; subst t)
    | with_reducible apply modPort_kept
    | with_reducible apply arrivalLoss_kept
    | (with_reducible refine foldl_kept _ ?_ _ ?_)
    | (with_reducible refine foldr_kept _ ?_ _ ?_)
    | split

theorem arrive_kept {s₀ s : State} (hs : Kept s₀ s) (v : Vat) (p : Nat) (n : Nat) (x : Int) (ok : Bool) : Kept s₀ (arrive s v p n x ok) := by
  unfold arrive
  repeat' first
    | with_reducible assumption
    | (extract_lets +onlyGivenNames t; refine (fun (g : Kept s₀ t) => ?_) ?_; clear_value t; rotate_left; subst t)
    | with_reducible apply guardArrival_kept
    | with_reducible apply modSlot_kept
    | with_reducible apply modEvals_kept
    | with_reducible apply verdict_kept
    | with_reducible apply schedule_kept
    | (with_reducible refine foldl_kept _ ?_ _ ?_)
    | (with_reducible refine foldr_kept _ ?_ _ ?_)
    | split
    | (intro t x y g)
    | (intro t x g)
    | (intro t g)
    | (extract_lets +onlyGivenNames t; clear_value t)

theorem copyGraph_kept {s₀ s : State} (hs : Kept s₀ s) (v : Vat) (c : Nat) (ds : List InstDef) (w : Vat) (f : Nat) (es : List InstDef) : Kept s₀ (copyGraph s v c ds w f es) := by
  unfold copyGraph
  repeat' first
    | with_reducible assumption
    | (extract_lets +onlyGivenNames t; refine (fun (g : Kept s₀ t) => ?_) ?_; clear_value t; rotate_left; subst t)
    | with_reducible apply writeEng_kept
    | (with_reducible refine foldl_kept _ ?_ _ ?_)
    | (with_reducible refine foldr_kept _ ?_ _ ?_)
    | split
    | (intro t x y g)
    | (intro t x g)

theorem landWrite_kept {s₀ s : State} (hs : Kept s₀ s) (v : Vat) (tick : Nat) (x3 : ShadowWrite) : Kept s₀ (landWrite s v tick x3) := by
  unfold landWrite
  repeat' first
    | with_reducible assumption
    | with_reducible apply State.wr_kept
    | (with_reducible refine foldl_kept _ ?_ _ ?_)
    | (with_reducible refine foldr_kept _ ?_ _ ?_)
    | split

theorem closeBurst_kept {s₀ s : State} (hs : Kept s₀ s) (v : Vat) (p : Nat) : Kept s₀ (closeBurst s v p) := by
  unfold closeBurst
  repeat' first
    | with_reducible assumption
    | (extract_lets +onlyGivenNames t; refine (fun (g : Kept s₀ t) => ?_) ?_; clear_value t; rotate_left; subst t)
    | with_reducible apply State.clr_kept
    | with_reducible apply modPort_kept
    | (with_reducible refine foldl_kept _ ?_ _ ?_)
    | (with_reducible refine foldr_kept _ ?_ _ ?_)
    | split

theorem landUpTo_kept {s₀ s : State} (hs : Kept s₀ s) (v : Vat) (c : Nat) (k : Nat) (n : Nat) : Kept s₀ (landUpTo s v c k n) := by
  unfold landUpTo
  repeat' first
    | with_reducible assumption
    | with_reducible apply landWrite_kept
    | with_reducible apply modEvals_kept
    | with_reducible apply modPort_kept
    | with_reducible apply State.wr_kept
    | (with_reducible refine foldl_kept _ ?_ _ ?_)
    | (with_reducible refine foldr_kept _ ?_ _ ?_)
    | split
    | (intro t x y g)
    | (intro t x g)

theorem writeBack_kept {s₀ s : State} (hs : Kept s₀ s) (v : Vat) (c : Nat) (k : Nat) (e : EvalSt) : Kept s₀ (writeBack s v c k e) := by
  unfold writeBack
  repeat' first
    | with_reducible assumption
    | with_reducible apply writeEng_kept
    | (with_reducible refine foldl_kept _ ?_ _ ?_)
    | (with_reducible refine foldr_kept _ ?_ _ ?_)
    | split
    | (intro t x y g)
    | (intro t x g)

theorem pushHistory_kept {s₀ s : State} (hs : Kept s₀ s) (v : Vat) (c : Nat) (g : GraphSt) (cap : Cap) : Kept s₀ (pushHistory s v c g cap) := by
  unfold pushHistory
  repeat' first
    | with_reducible assumption
    | with_reducible apply writeEng_kept
    | (with_reducible refine foldl_kept _ ?_ _ ?_)
    | (with_reducible refine foldr_kept _ ?_ _ ?_)
    | split

theorem bumpHist_kept {s₀ s : State} (hs : Kept s₀ s) (v : Vat) (c : Nat) (k : Nat) (caps : List Cap) (q : Nat × PredDef) : Kept s₀ (bumpHist s v c k caps q) := by
  unfold bumpHist
  repeat' first
    | with_reducible assumption
    | with_reducible apply State.wr_kept

theorem commitHistory_kept {s₀ s : State} (hs : Kept s₀ s) (v : Vat) (c : Nat) (k : Nat) (e : EvalSt) : Kept s₀ (commitHistory s v c k e) := by
  unfold commitHistory
  repeat' first
    | with_reducible assumption
    | (extract_lets +onlyGivenNames t; refine (fun (g : Kept s₀ t) => ?_) ?_; clear_value t; rotate_left; subst t)
    | with_reducible apply pushHistory_kept
    | with_reducible apply bumpHist_kept
    | with_reducible apply State.wr_kept
    | (with_reducible refine foldl_kept _ ?_ _ ?_)
    | (with_reducible refine foldr_kept _ ?_ _ ?_)
    | split
    | (intro t x y g)
    | (intro t x g)

theorem commitMove_kept {s₀ s : State} (hs : Kept s₀ s) (v : Vat) (m : Nat × Bool) : Kept s₀ (commitMove s v m) := by
  unfold commitMove
  repeat' first
    | with_reducible assumption
    | with_reducible apply tryFreeze_kept
    | with_reducible apply modChan_kept

theorem commitViews_kept {s₀ s : State} (hs : Kept s₀ s) (v : Vat) (p : Nat) (e : EvalSt) : Kept s₀ (commitViews s v p e) := by
  unfold commitViews
  repeat' first
    | with_reducible assumption
    | (extract_lets +onlyGivenNames t; refine (fun (g : Kept s₀ t) => ?_) ?_; clear_value t; rotate_left; subst t)
    | with_reducible apply commitMove_kept
    | with_reducible apply State.wr_kept
    | (with_reducible refine foldl_kept _ ?_ _ ?_)
    | (with_reducible refine foldr_kept _ ?_ _ ?_)
    | split
    | (intro t x y g)
    | (intro t x g)

theorem commitFlags_kept {s₀ s : State} (hs : Kept s₀ s) (v : Vat) (c : Nat) (k : Nat) (p : Nat) (e : EvalSt) : Kept s₀ (commitFlags s v c k p e) := by
  unfold commitFlags
  repeat' first
    | with_reducible assumption
    | (extract_lets +onlyGivenNames t; refine (fun (g : Kept s₀ t) => ?_) ?_; clear_value t; rotate_left; subst t)
    | with_reducible apply State.vatEvent_kept
    | with_reducible apply State.vatFlagBit_kept
    | with_reducible apply commitViews_kept
    | with_reducible apply State.vatFlag_kept
    | (with_reducible refine foldl_kept _ ?_ _ ?_)
    | (with_reducible refine foldr_kept _ ?_ _ ?_)
    | split
    | (intro t x y g)
    | (intro t x g)

theorem mirrorCommit_kept {s₀ s : State} (hs : Kept s₀ s) (v : Vat) (c : Nat) (k : Nat) (p : Nat) (e : EvalSt) : Kept s₀ (mirrorCommit s v c k p e) := by
  unfold mirrorCommit
  repeat' first
    | with_reducible assumption
    | with_reducible apply copyGraph_kept
    | with_reducible apply modSlot_kept
    | with_reducible apply guardCommit_kept
    | with_reducible apply commitViews_kept
    | (with_reducible refine foldl_kept _ ?_ _ ?_)
    | (with_reducible refine foldr_kept _ ?_ _ ?_)
    | split

theorem completeCommit_kept {s₀ s : State} (hs : Kept s₀ s) (v : Vat) (c : Nat) (k : Nat) : Kept s₀ (completeCommit s v c k) := by
  unfold completeCommit
  repeat' first
    | with_reducible assumption
    | with_reducible apply closeBurst_kept
    | with_reducible apply landUpTo_kept
    | with_reducible apply commitHistory_kept
    | with_reducible apply writeBack_kept
    | with_reducible apply commitFlags_kept
    | with_reducible apply State.wr_kept
    | with_reducible apply modSlot_kept
    | with_reducible apply mirrorCommit_kept
    | with_reducible apply guardCommit_kept
    | with_reducible apply compareOutcome_kept
    | with_reducible apply schedule_kept
    | with_reducible apply refreshWhey_kept
    | (with_reducible refine foldl_kept _ ?_ _ ?_)
    | (with_reducible refine foldr_kept _ ?_ _ ?_)
    | split

theorem abandon_kept {s₀ s : State} (hs : Kept s₀ s) (v : Vat) (c : Nat) (k : Nat) (landed : Nat) : Kept s₀ (abandon s v c k landed) := by
  unfold abandon
  repeat' first
    | with_reducible assumption
    | (extract_lets +onlyGivenNames t; refine (fun (g : Kept s₀ t) => ?_) ?_; clear_value t; rotate_left; subst t)
    | with_reducible apply closeBurst_kept
    | with_reducible apply landUpTo_kept
    | with_reducible apply modEvals_kept
    | with_reducible apply missed_kept
    | with_reducible apply closeXhat_kept
    | with_reducible apply schedule_kept
    | with_reducible apply refreshWhey_kept
    | (with_reducible refine foldl_kept _ ?_ _ ?_)
    | (with_reducible refine foldr_kept _ ?_ _ ?_)
    | split
    | (intro t x y g)
    | (intro t x g)
    | (intro t g)
    | (extract_lets +onlyGivenNames t; clear_value t)

theorem wheyError_kept {s₀ s : State} (hs : Kept s₀ s) (v : Vat) (c : Nat) (k : Nat) (b : Nat) : Kept s₀ (wheyError s v c k b) := by
  unfold wheyError
  repeat' first
    | with_reducible assumption
    | (extract_lets +onlyGivenNames t; refine (fun (g : Kept s₀ t) => ?_) ?_; clear_value t; rotate_left; subst t)
    | with_reducible apply raiseFlt_kept
    | with_reducible apply State.vatEvent_kept
    | with_reducible apply modEvals_kept
    | with_reducible apply closeXhat_kept
    | with_reducible apply schedule_kept
    | with_reducible apply refreshWhey_kept
    | (with_reducible refine foldl_kept _ ?_ _ ?_)
    | (with_reducible refine foldr_kept _ ?_ _ ?_)
    | split

theorem refreshLoad_kept {s₀ s : State} (hs : Kept s₀ s) (v : Vat) (c : Nat) : Kept s₀ (refreshLoad s v c) := by
  unfold refreshLoad
  repeat' first
    | with_reducible assumption
    | with_reducible apply State.wr_kept

theorem bindRegs_kept {s₀ s : State} (hs : Kept s₀ s) (v : Vat) (c : Nat) (k : Nat) (w : WheelGraph) (fb : Bool) : Kept s₀ (bindRegs s v c k w fb) := by
  unfold bindRegs
  repeat' first
    | with_reducible assumption
    | (extract_lets +onlyGivenNames t; refine (fun (g : Kept s₀ t) => ?_) ?_; clear_value t; rotate_left; subst t)
    | with_reducible apply State.wr_kept
    | with_reducible apply State.wrWord_kept
    | with_reducible apply State.set1_kept
    | (with_reducible refine foldl_kept _ ?_ _ ?_)
    | (with_reducible refine foldr_kept _ ?_ _ ?_)
    | split
    | (intro t x y g)
    | (intro t x g)

theorem bindGraph_kept {s₀ s : State} (hs : Kept s₀ s) (v : Vat) (c : Nat) (k : Nat) (w : WheelGraph) (fb : Bool) : Kept s₀ (bindGraph s v c k w fb) := by
  unfold bindGraph
  repeat' first
    | with_reducible assumption
    | with_reducible apply refreshLoad_kept
    | with_reducible apply modSlot_kept
    | with_reducible apply bindRegs_kept

theorem writeDescSlot_kept {s₀ s : State} (hs : Kept s₀ s) (v : Vat) (c : Nat) (k : Nat) (defs : List InstDef) : Kept s₀ (writeDescSlot s v c k defs) := by
  unfold writeDescSlot
  repeat' first
    | with_reducible assumption
    | with_reducible apply writeEng_kept
    | (with_reducible refine foldl_kept _ ?_ _ ?_)
    | (with_reducible refine foldr_kept _ ?_ _ ?_)
    | split
    | (intro t x y g)
    | (intro t x g)

theorem clearSlot_kept {s₀ s : State} (hs : Kept s₀ s) (v : Vat) (c : Nat) (k : Nat) : Kept s₀ (clearSlot s v c k) := by
  unfold clearSlot
  repeat' first
    | with_reducible assumption
    | with_reducible apply State.wrWord_kept
    | with_reducible apply refreshLoad_kept
    | with_reducible apply modSlot_kept
    | (with_reducible refine foldl_kept _ ?_ _ ?_)
    | (with_reducible refine foldr_kept _ ?_ _ ?_)
    | split
    | (intro t x y g)
    | (intro t x g)

theorem renumField_kept {s₀ s : State} (hs : Kept s₀ s) (f : Field) (old : Nat) (new : Nat) (n : Nat) : Kept s₀ (renumField s f old new n) := by
  unfold renumField
  repeat' first
    | with_reducible assumption
    | with_reducible apply State.wr_kept
    | (with_reducible refine foldl_kept _ ?_ _ ?_)
    | (with_reducible refine foldr_kept _ ?_ _ ?_)
    | split
    | (intro t x y g)
    | (intro t x g)
    | (intro t g)
    | (extract_lets +onlyGivenNames t; clear_value t)

theorem renumVat_kept {s₀ s : State} (hs : Kept s₀ s) (v : Vat) (p : Nat) (old : Nat) (new : Nat) (n : Nat) : Kept s₀ (renumVat s v p old new n) := by
  unfold renumVat
  repeat' first
    | with_reducible assumption
    | with_reducible apply renumField_kept
    | with_reducible apply modPort_kept
    | (with_reducible refine foldl_kept _ ?_ _ ?_)
    | (with_reducible refine foldr_kept _ ?_ _ ?_)
    | split
    | (intro t x y g)
    | (intro t x g)

theorem copyHist_kept {s₀ s : State} (hs : Kept s₀ s) (v : Vat) (c : Nat) (k : Nat) (w : Vat) (f : Nat) (j : Nat) (n : Nat) : Kept s₀ (copyHist s v c k w f j n) := by
  unfold copyHist
  repeat' first
    | with_reducible assumption
    | with_reducible apply forN_kept
    | with_reducible apply State.wr_kept
    | (with_reducible refine foldl_kept _ ?_ _ ?_)
    | (with_reducible refine foldr_kept _ ?_ _ ?_)
    | split
    | (intro t x y g)
    | (intro t x g)

theorem copyModel_kept {s₀ s : State} (hs : Kept s₀ s) (v : Vat) (c : Nat) (k : Nat) (f : Nat) (j : Nat) (w : WheelGraph) : Kept s₀ (copyModel s v c k f j w) := by
  unfold copyModel
  repeat' first
    | with_reducible assumption
    | (extract_lets +onlyGivenNames t; refine (fun (g : Kept s₀ t) => ?_) ?_; clear_value t; rotate_left; subst t)
    | with_reducible apply forN_kept
    | with_reducible apply State.wrWord_kept
    | with_reducible apply renumField_kept
    | (with_reducible refine foldl_kept _ ?_ _ ?_)
    | (with_reducible refine foldr_kept _ ?_ _ ?_)
    | split
    | (intro t x y g)
    | (intro t x g)

theorem moveGraph_kept {s₀ s : State} (hs : Kept s₀ s) (v : Vat) (c : Nat) (k : Nat) (w : WheelGraph) (j : Nat) : Kept s₀ (moveGraph s v c k w j) := by
  unfold moveGraph
  repeat' first
    | with_reducible assumption
    | with_reducible apply writeDescSlot_kept
    | with_reducible apply bindGraph_kept
    | with_reducible apply State.wrWord_kept
    | with_reducible apply copyModel_kept
    | with_reducible apply copyHist_kept
    | with_reducible apply copyGraph_kept
    | with_reducible apply modSlot_kept
    | with_reducible apply pushHistory_kept
    | with_reducible apply bumpHist_kept
    | with_reducible apply renumVat_kept
    | with_reducible apply sigdefMove_kept
    | with_reducible apply State.setBit1_kept
    | with_reducible apply clearSlot_kept
    | with_reducible apply State.vatEvent_kept
    | (with_reducible refine foldl_kept _ ?_ _ ?_)
    | (with_reducible refine foldr_kept _ ?_ _ ?_)
    | split
    | (intro t x y g)
    | (intro t x g)

theorem engineLost_kept {s₀ s : State} (hs : Kept s₀ s) (v : Vat) (p : Nat) : Kept s₀ (engineLost s v p) := by
  unfold engineLost
  repeat' first
    | with_reducible assumption
    | (extract_lets +onlyGivenNames t; refine (fun (g : Kept s₀ t) => ?_) ?_; clear_value t; rotate_left; subst t)
    | with_reducible apply modPort_kept
    | with_reducible apply enterFaultPattern_kept
    | (with_reducible refine foldl_kept _ ?_ _ ?_)
    | (with_reducible refine foldr_kept _ ?_ _ ?_)
    | split

theorem migrateTick_kept {s₀ s : State} (hs : Kept s₀ s) (v : Vat) (c : Nat) (k : Nat) (p : Nat) : Kept s₀ (migrateTick s v c k p) := by
  unfold migrateTick
  repeat' first
    | with_reducible assumption
    | (extract_lets +onlyGivenNames t; refine (fun (g : Kept s₀ t) => ?_) ?_; clear_value t; rotate_left; subst t)
    | with_reducible apply compareOutcome_kept
    | with_reducible apply State.wr_kept
    | with_reducible apply engineLost_kept
    | with_reducible apply modSlot_kept
    | (with_reducible refine foldl_kept _ ?_ _ ?_)
    | (with_reducible refine foldr_kept _ ?_ _ ?_)
    | split
    | (intro t x y g)
    | (intro t x g)
    | (intro t g)
    | (extract_lets +onlyGivenNames t; clear_value t)

theorem finishMigration_kept {s₀ s : State} (hs : Kept s₀ s) (v : Vat) (c : Nat) (k : Nat) (p : Nat) : Kept s₀ (finishMigration s v c k p) := by
  unfold finishMigration
  repeat' first
    | with_reducible assumption
    | with_reducible apply moveGraph_kept
    | with_reducible apply engineLost_kept
    | with_reducible apply modSlot_kept
    | (with_reducible refine foldl_kept _ ?_ _ ?_)
    | (with_reducible refine foldr_kept _ ?_ _ ?_)
    | split

theorem arriveGraph_kept {s₀ s : State} (hs : Kept s₀ s) (v : Vat) (p : Nat) : Kept s₀ (arriveGraph s v p) := by
  unfold arriveGraph
  repeat' first
    | with_reducible assumption
    | with_reducible apply finishMigration_kept
    | (with_reducible refine foldl_kept _ ?_ _ ?_)
    | (with_reducible refine foldr_kept _ ?_ _ ?_)
    | split

theorem graphTick_kept {s₀ s : State} (hs : Kept s₀ s) (v : Vat) (p : Nat) : Kept s₀ (graphTick s v p) := by
  unfold graphTick
  repeat' first
    | with_reducible assumption
    | with_reducible apply migrateTick_kept
    | with_reducible apply awaitArrivals_kept
    | with_reducible apply beginEval_kept
    | (with_reducible refine foldl_kept _ ?_ _ ?_)
    | (with_reducible refine foldr_kept _ ?_ _ ?_)
    | split
    | (intro t x y g)
    | (intro t x g)
    | (intro t g)
    | (extract_lets +onlyGivenNames t; clear_value t)

theorem joinModel_kept {s₀ s : State} (hs : Kept s₀ s) (v : Vat) (c : Nat) (k : Nat) (w : WheelGraph) : Kept s₀ (joinModel s v c k w) := by
  unfold joinModel
  repeat' first
    | with_reducible assumption
    | (extract_lets +onlyGivenNames t; refine (fun (g : Kept s₀ t) => ?_) ?_; clear_value t; rotate_left; subst t)
    | with_reducible apply forN_kept
    | with_reducible apply State.wrWord_kept
    | with_reducible apply State.wr_kept
    | (with_reducible refine foldl_kept _ ?_ _ ?_)
    | (with_reducible refine foldr_kept _ ?_ _ ?_)
    | split
    | (intro t x y g)
    | (intro t x g)

theorem placeGraph_kept {s₀ s : State} (hs : Kept s₀ s) (v : Vat) (c : Nat) (k : Nat) (w : WheelGraph) (fb : Bool) : Kept s₀ (placeGraph s v c k w fb) := by
  unfold placeGraph
  repeat' first
    | with_reducible assumption
    | (extract_lets +onlyGivenNames t; refine (fun (g : Kept s₀ t) => ?_) ?_; clear_value t; rotate_left; subst t)
    | with_reducible apply joinModel_kept
    | with_reducible apply bindGraph_kept
    | with_reducible apply modSlot_kept
    | with_reducible apply renumVat_kept
    | (with_reducible refine foldl_kept _ ?_ _ ?_)
    | (with_reducible refine foldr_kept _ ?_ _ ?_)
    | split

theorem refreshLeft_kept {s₀ s : State} (hs : Kept s₀ s) (v : Vat) : Kept s₀ (refreshLeft s v) := by
  unfold refreshLeft
  repeat' first
    | with_reducible assumption
    | with_reducible apply State.wr_kept

theorem moveWaiting_kept {s₀ s : State} (hs : Kept s₀ s) (v : Vat) (c : Nat) (k : Nat) : Kept s₀ (moveWaiting s v c k) := by
  unfold moveWaiting
  repeat' first
    | with_reducible assumption
    | (extract_lets +onlyGivenNames t; refine (fun (g : Kept s₀ t) => ?_) ?_; clear_value t; rotate_left; subst t)
    | with_reducible apply failJoin_kept
    | with_reducible apply placeGraph_kept
    | with_reducible apply clearSlot_kept
    | with_reducible apply writeDescSlot_kept
    | (with_reducible refine foldl_kept _ ?_ _ ?_)
    | (with_reducible refine foldr_kept _ ?_ _ ?_)
    | split

theorem cutBurst_kept {s₀ s : State} (hs : Kept s₀ s) (v : Vat) (c : Nat) (k : Nat) (landed : Nat) : Kept s₀ (cutBurst s v c k landed) := by
  unfold cutBurst
  repeat' first
    | with_reducible assumption
    | with_reducible apply closeBurst_kept
    | with_reducible apply landUpTo_kept
    | (with_reducible refine foldl_kept _ ?_ _ ?_)
    | (with_reducible refine foldr_kept _ ?_ _ ?_)
    | split

theorem retireEngine_kept {s₀ s : State} (hs : Kept s₀ s) (v : Vat) (c : Nat) (landed : Nat) : Kept s₀ (retireEngine s v c landed) := by
  unfold retireEngine
  repeat' first
    | with_reducible assumption
    | (extract_lets +onlyGivenNames t; refine (fun (g : Kept s₀ t) => ?_) ?_; clear_value t; rotate_left; subst t)
    | with_reducible apply forN_kept
    | with_reducible apply cutBurst_kept
    | with_reducible apply closeXhat_kept
    | with_reducible apply modSlot_kept
    | with_reducible apply refreshWhey_kept
    | with_reducible apply modEng_kept
    | with_reducible apply degSet_kept
    | with_reducible apply State.vatEvent_kept
    | with_reducible apply State.wr_kept
    | with_reducible apply refreshLeft_kept
    | with_reducible apply moveWaiting_kept
    | (with_reducible refine foldl_kept _ ?_ _ ?_)
    | (with_reducible refine foldr_kept _ ?_ _ ?_)
    | split
    | (intro t x y g)
    | (intro t x g)

theorem freezeEngine_kept {s₀ s : State} (hs : Kept s₀ s) (v : Vat) (c : Nat) (landed : Nat) : Kept s₀ (freezeEngine s v c landed) := by
  unfold freezeEngine
  repeat' first
    | with_reducible assumption
    | (extract_lets +onlyGivenNames t; refine (fun (g : Kept s₀ t) => ?_) ?_; clear_value t; rotate_left; subst t)
    | with_reducible apply forN_kept
    | with_reducible apply cutBurst_kept
    | with_reducible apply State.wr_kept
    | (with_reducible refine foldl_kept _ ?_ _ ?_)
    | (with_reducible refine foldr_kept _ ?_ _ ?_)
    | split
    | (intro t x y g)
    | (intro t x g)

theorem countReload_kept {s₀ s : State} (hs : Kept s₀ s) (v : Vat) (p : Nat) : Kept s₀ (countReload s v p) := by
  unfold countReload
  repeat' first
    | with_reducible assumption
    | with_reducible apply judgeLanding_kept
    | with_reducible apply modEvals_kept
    | (with_reducible refine foldl_kept _ ?_ _ ?_)
    | (with_reducible refine foldr_kept _ ?_ _ ?_)
    | split

theorem differentTags_kept {s₀ s : State} (hs : Kept s₀ s) (p : Nat) (tag : Nat) (k : Nat) : Kept s₀ (differentTags s p tag k) := by
  unfold differentTags
  repeat' first
    | with_reducible assumption
    | with_reducible apply compareMismatch_kept
    | (with_reducible refine foldl_kept _ ?_ _ ?_)
    | (with_reducible refine foldr_kept _ ?_ _ ?_)
    | split
    | (intro t x y g)
    | (intro t x g)
    | (intro t g)
    | (extract_lets +onlyGivenNames t; clear_value t)
    | with_reducible apply Kept.update

theorem reloadAgreed_kept {s₀ s : State} (hs : Kept s₀ s) (p : Nat) : Kept s₀ (reloadAgreed s p) := by
  unfold reloadAgreed
  repeat' first
    | with_reducible assumption
    | with_reducible apply forVats_kept
    | with_reducible apply modPort_kept
    | (with_reducible refine foldl_kept _ ?_ _ ?_)
    | (with_reducible refine foldr_kept _ ?_ _ ?_)
    | split
    | (intro t x y g)
    | (intro t x g)

theorem compareReload_kept {s₀ s : State} (hs : Kept s₀ s) (v : Vat) (p : Nat) : Kept s₀ (compareReload s v p) := by
  unfold compareReload
  repeat' first
    | with_reducible assumption
    | with_reducible apply reloadAgreed_kept
    | with_reducible apply compareMismatch_kept
    | with_reducible apply differentTags_kept
    | (with_reducible refine foldl_kept _ ?_ _ ?_)
    | (with_reducible refine foldr_kept _ ?_ _ ?_)
    | split
    | (intro t x y g)
    | (intro t x g)
    | (intro t g)
    | (extract_lets +onlyGivenNames t; clear_value t)
    | with_reducible apply Kept.update

theorem reloadAt_kept {s₀ s : State} (hs : Kept s₀ s) (v : Vat) (p : Nat) (valley : Bool) (landed : Nat) : Kept s₀ (reloadAt s v p valley landed) := by
  unfold reloadAt
  repeat' first
    | with_reducible assumption
    | (extract_lets +onlyGivenNames t; refine (fun (g : Kept s₀ t) => ?_) ?_; clear_value t; rotate_left; subst t)
    | with_reducible apply landUpTo_kept
    | with_reducible apply compareReload_kept
    | with_reducible apply countReload_kept
    | with_reducible apply reloadPort_kept
    | (with_reducible refine foldl_kept _ ?_ _ ?_)
    | (with_reducible refine foldr_kept _ ?_ _ ?_)
    | split

theorem execEvaluationEnd_kept {s₀ s t : State} {v : Vat} {c : Fin 8} (hs : Kept s₀ s) (e : execEvaluationEnd v c s = .next t) : Kept s₀ t := by
  unfold execEvaluationEnd at e
  cases e
  repeat' first
    | with_reducible assumption
    | with_reducible apply settle_kept
    | with_reducible apply endEval_kept
    | (with_reducible refine foldl_kept _ ?_ _ ?_)
    | exact fun _ => ⟨⟨id, id, fun _ => id, fun _ => id⟩, id⟩
    | split

theorem execArrivalTimeout_kept {s₀ s t : State} {v : Vat} {p : Fin 8} {n : Fin 64} (hs : Kept s₀ s) (e : execArrivalTimeout v p n s = .next t) : Kept s₀ t := by
  unfold execArrivalTimeout at e
  cases e
  repeat' first
    | with_reducible assumption
    | with_reducible apply settle_kept
    | with_reducible apply arrive_kept
    | (with_reducible refine foldl_kept _ ?_ _ ?_)
    | exact fun _ => ⟨⟨id, id, fun _ => id, fun _ => id⟩, id⟩
    | split

theorem execCommitComplete_kept {s₀ s t : State} {v : Vat} {c : Fin 8} {k : Fin 4} (hs : Kept s₀ s) (e : execCommitComplete v c k s = .next t) : Kept s₀ t := by
  unfold execCommitComplete at e
  cases e
  repeat' first
    | with_reducible assumption
    | with_reducible apply settle_kept
    | with_reducible apply completeCommit_kept
    | (with_reducible refine foldl_kept _ ?_ _ ?_)
    | exact fun _ => ⟨⟨id, id, fun _ => id, fun _ => id⟩, id⟩
    | split

theorem execDeadlineAbandon_kept {s₀ s t : State} {v : Vat} {c : Fin 8} {k : Fin 4} {landed : Nat} (hs : Kept s₀ s) (e : execDeadlineAbandon v c k landed s = .next t) : Kept s₀ t := by
  unfold execDeadlineAbandon at e
  cases e
  repeat' first
    | with_reducible assumption
    | with_reducible apply settle_kept
    | with_reducible apply abandon_kept
    | (with_reducible refine foldl_kept _ ?_ _ ?_)
    | exact fun _ => ⟨⟨id, id, fun _ => id, fun _ => id⟩, id⟩
    | split

theorem execWheyDoubleBitError_kept {s₀ s t : State} {v : Vat} {c : Fin 8} {k : Fin 4} {b : Bool} (hs : Kept s₀ s) (e : execWheyDoubleBitError v c k b s = .next t) : Kept s₀ t := by
  unfold execWheyDoubleBitError at e
  cases e
  repeat' first
    | with_reducible assumption
    | with_reducible apply settle_kept
    | with_reducible apply wheyError_kept
    | (with_reducible refine foldl_kept _ ?_ _ ?_)
    | exact fun _ => ⟨⟨id, id, fun _ => id, fun _ => id⟩, id⟩
    | split

theorem execWaddrWrite_kept {s₀ s t : State} {v : Vat} {c : Fin 8} {a : BitVec 13} (hs : Kept s₀ s) (e : execWaddrWrite v c a s = .next t) : Kept s₀ t := by
  unfold execWaddrWrite at e
  cases e
  repeat' first
    | with_reducible assumption
    | with_reducible apply settle_kept
    | with_reducible apply State.wrAs_kept
    | (with_reducible refine foldl_kept _ ?_ _ ?_)
    | exact fun _ => ⟨⟨id, id, fun _ => id, fun _ => id⟩, id⟩
    | split

theorem execSelfTestDue_kept {s₀ s t : State} {v : Vat} {c : Fin 8} (hs : Kept s₀ s) (e : execSelfTestDue v c s = .next t) : Kept s₀ t := by
  unfold execSelfTestDue at e
  cases e
  repeat' first
    | with_reducible assumption
    | with_reducible apply settle_kept
    | with_reducible apply modEng_kept
    | (with_reducible refine foldl_kept _ ?_ _ ?_)
    | exact fun _ => ⟨⟨id, id, fun _ => id, fun _ => id⟩, id⟩
    | split

theorem execSelfTestComplete_kept {s₀ s t : State} {v : Vat} {c : Fin 8} {ok : Bool} {landed : Nat} (hs : Kept s₀ s) (e : execSelfTestComplete v c ok landed s = .next t) : Kept s₀ t := by
  unfold execSelfTestComplete at e
  cases e
  repeat' first
    | with_reducible assumption
    | with_reducible apply settle_kept
    | with_reducible apply modEng_kept
    | with_reducible apply State.incWrap_kept
    | with_reducible apply retireEngine_kept
    | with_reducible apply State.set1_kept
    | (with_reducible refine foldl_kept _ ?_ _ ?_)
    | exact fun _ => ⟨⟨id, id, fun _ => id, fun _ => id⟩, id⟩
    | split

theorem execSelfTestLate_kept {s₀ s t : State} {v : Vat} {c : Fin 8} (hs : Kept s₀ s) (e : execSelfTestLate v c s = .next t) : Kept s₀ t := by
  unfold execSelfTestLate at e
  cases e
  repeat' first
    | with_reducible assumption
    | with_reducible apply settle_kept
    | with_reducible apply State.vatFlagEdge_kept
    | (with_reducible refine foldl_kept _ ?_ _ ?_)
    | exact fun _ => ⟨⟨id, id, fun _ => id, fun _ => id⟩, id⟩
    | split

end Sys2Proof.Machine
end

