-- ==== Sys2Proof/Laws/KeepRecords.lean ====
section
/-! SUPPORT. What the operations of Machine/Records.lean keep (Laws/Keep.lean): one lemma for each. -/

namespace Sys2Proof.Machine

open Sys2Proof

theorem headerWord_kept {s₀ s : State} (hs : Kept s₀ s) (g : Nat) (i : Nat) (w : Nat) : Kept s₀ (headerWord s g i w) := by
  unfold headerWord
  repeat' first
    | with_reducible assumption
    | with_reducible apply State.writeMem_kept

theorem armSegment_kept {s₀ s : State} (hs : Kept s₀ s) (g : Nat) : Kept s₀ (armSegment s g) := by
  unfold armSegment
  repeat' first
    | with_reducible assumption
    | with_reducible apply headerWord_kept
    | with_reducible apply State.wr_kept
    | (with_reducible refine foldl_kept _ ?_ _ ?_)
    | (with_reducible refine foldr_kept _ ?_ _ ?_)
    | split
    | (intro t x y g)
    | (intro t x g)
    | (intro t g)
    | (extract_lets +onlyGivenNames t; clear_value t)
    | with_reducible apply Kept.update

theorem startRecorder_kept {s₀ s : State} (hs : Kept s₀ s) : Kept s₀ (startRecorder s) := by
  unfold startRecorder
  repeat' first
    | with_reducible assumption
    | with_reducible apply armSegment_kept
    | (with_reducible refine foldl_kept _ ?_ _ ?_)
    | (with_reducible refine foldr_kept _ ?_ _ ?_)
    | split

theorem putFrame_kept {s₀ s : State} (hs : Kept s₀ s) (tick : Nat) (vals : List (Int × Bool)) : Kept s₀ (putFrame s tick vals) := by
  unfold putFrame
  repeat' first
    | with_reducible assumption
    | (extract_lets +onlyGivenNames t; refine (fun (g : Kept s₀ t) => ?_) ?_; clear_value t; rotate_left; subst t)
    | with_reducible apply State.writeBytes_kept
    | (with_reducible refine foldl_kept _ ?_ _ ?_)
    | (with_reducible refine foldr_kept _ ?_ _ ?_)
    | split
    | (intro t x y g)
    | (intro t x g)
    | (intro t g)
    | (extract_lets +onlyGivenNames t; clear_value t)
    | with_reducible apply Kept.update

theorem fillFrames_kept {s₀ s : State} (hs : Kept s₀ s) (n : Nat) (first : Nat) : Kept s₀ (fillFrames s n first) := by
  unfold fillFrames
  repeat' first
    | with_reducible assumption
    | with_reducible apply forN_kept
    | with_reducible apply putFrame_kept
    | (with_reducible refine foldl_kept _ ?_ _ ?_)
    | (with_reducible refine foldr_kept _ ?_ _ ?_)
    | split
    | (intro t x y g)
    | (intro t x g)

theorem recorderTick_kept {s₀ s : State} (hs : Kept s₀ s) (v : Vat) (p : Nat) : Kept s₀ (recorderTick s v p) := by
  unfold recorderTick
  repeat' first
    | with_reducible assumption
    | (extract_lets +onlyGivenNames t; refine (fun (g : Kept s₀ t) => ?_) ?_; clear_value t; rotate_left; subst t)
    | with_reducible apply fillFrames_kept
    | with_reducible apply putFrame_kept
    | (with_reducible refine foldl_kept _ ?_ _ ?_)
    | (with_reducible refine foldr_kept _ ?_ _ ?_)
    | split
    | (intro t x y g)
    | (intro t x g)
    | (intro t g)
    | (extract_lets +onlyGivenNames t; clear_value t)

theorem fireTriggers_kept {s₀ s : State} (hs : Kept s₀ s) (ts : List Nat) (r : LogRec) : Kept s₀ (fireTriggers s ts r) := by
  unfold fireTriggers
  repeat' first
    | with_reducible assumption
    | with_reducible apply State.incSat_kept
    | with_reducible apply headerWord_kept
    | with_reducible apply State.event_kept
    | (with_reducible refine foldl_kept _ ?_ _ ?_)
    | (with_reducible refine foldr_kept _ ?_ _ ?_)
    | split
    | (intro t x y g)
    | (intro t x g)
    | (intro t g)
    | (extract_lets +onlyGivenNames t; clear_value t)
    | with_reducible apply Kept.update

theorem completeCapture_kept {s₀ s : State} (hs : Kept s₀ s) : Kept s₀ (completeCapture s) := by
  unfold completeCapture
  repeat' first
    | with_reducible assumption
    | (extract_lets +onlyGivenNames t; refine (fun (g : Kept s₀ t) => ?_) ?_; clear_value t; rotate_left; subst t)
    | with_reducible apply headerWord_kept
    | with_reducible apply State.event_kept
    | with_reducible apply armSegment_kept
    | (with_reducible refine foldl_kept _ ?_ _ ?_)
    | (with_reducible refine foldr_kept _ ?_ _ ?_)
    | split
    | (intro t x y g)
    | (intro t x g)
    | (intro t g)
    | (extract_lets +onlyGivenNames t; clear_value t)
    | with_reducible apply Kept.update

theorem refreshLag_kept {s₀ s : State} (hs : Kept s₀ s) : Kept s₀ (refreshLag s) := by
  unfold refreshLag
  repeat' first
    | with_reducible assumption
    | with_reducible apply State.wr_kept

theorem enterRing_kept {s₀ s : State} (hs : Kept s₀ s) (r : LogRec) : Kept s₀ (enterRing s r) := by
  unfold enterRing
  repeat' first
    | with_reducible assumption
    | (extract_lets +onlyGivenNames t; refine (fun (g : Kept s₀ t) => ?_) ?_; clear_value t; rotate_left; subst t)
    | with_reducible apply State.writeBytes_kept
    | with_reducible apply State.wr_kept
    | with_reducible apply State.incWrap_kept
    | (with_reducible refine foldl_kept _ ?_ _ ?_)
    | (with_reducible refine foldr_kept _ ?_ _ ?_)
    | split
    | (intro t x y g)
    | (intro t x g)
    | (intro t g)
    | (extract_lets +onlyGivenNames t; clear_value t)
    | with_reducible apply Kept.update

theorem reportLost_kept {s₀ s : State} (hs : Kept s₀ s) : Kept s₀ (reportLost s) := by
  unfold reportLost
  repeat' first
    | with_reducible assumption
    | with_reducible apply State.event_kept
    | (with_reducible refine foldl_kept _ ?_ _ ?_)
    | (with_reducible refine foldr_kept _ ?_ _ ?_)
    | split
    | (intro t x y g)
    | (intro t x g)
    | (intro t g)
    | (extract_lets +onlyGivenNames t; clear_value t)
    | with_reducible apply Kept.update

theorem writeRecord_kept {s₀ s : State} (hs : Kept s₀ s) : Kept s₀ (writeRecord s) := by
  unfold writeRecord
  repeat' first
    | with_reducible assumption
    | with_reducible apply enterRing_kept
    | with_reducible apply refreshLag_kept
    | with_reducible apply reportLost_kept
    | with_reducible apply fireTriggers_kept
    | (with_reducible refine foldl_kept _ ?_ _ ?_)
    | (with_reducible refine foldr_kept _ ?_ _ ?_)
    | split
    | (intro t x y g)
    | (intro t x g)
    | (intro t g)
    | (extract_lets +onlyGivenNames t; clear_value t)
    | with_reducible apply Kept.update

theorem mirrorRecord_kept {s₀ s : State} (hs : Kept s₀ s) : Kept s₀ (mirrorRecord s) := by
  unfold mirrorRecord
  repeat' first
    | with_reducible assumption
    | with_reducible apply State.writeBytes_kept
    | with_reducible apply refreshLag_kept
    | (with_reducible refine foldl_kept _ ?_ _ ?_)
    | (with_reducible refine foldr_kept _ ?_ _ ?_)
    | split
    | (intro t x y g)
    | (intro t x g)
    | (intro t g)
    | (extract_lets +onlyGivenNames t; clear_value t)
    | with_reducible apply Kept.update

theorem selectTail_kept {s₀ s : State} (hs : Kept s₀ s) : Kept s₀ (selectTail s) := by
  unfold selectTail
  repeat' first
    | with_reducible assumption
    | (extract_lets +onlyGivenNames t; refine (fun (g : Kept s₀ t) => ?_) ?_; clear_value t; rotate_left; subst t)
    | with_reducible apply Kept.clear
    | with_reducible apply State.wr_kept
    | with_reducible apply State.writeMem_kept
    | (with_reducible refine foldl_kept _ ?_ _ ?_)
    | (with_reducible refine foldr_kept _ ?_ _ ?_)
    | split
    | (intro t x y g)
    | (intro t x g)
    | (intro t g)
    | (extract_lets +onlyGivenNames t; clear_value t)
    | with_reducible apply Kept.update

theorem brineEvent_kept {s₀ s : State} (hs : Kept s₀ s) (m : Nat) (code : Nat) (data : Nat) : Kept s₀ (brineEvent s m code data) := by
  unfold brineEvent
  repeat' first
    | with_reducible assumption
    | with_reducible apply State.event_kept
    | with_reducible apply State.vatEvent_kept
    | (with_reducible refine foldl_kept _ ?_ _ ?_)
    | (with_reducible refine foldr_kept _ ?_ _ ?_)
    | split

theorem brineFlag_kept {s₀ s : State} (hs : Kept s₀ s) (m : Nat) (f : Field) : Kept s₀ (brineFlag s m f) := by
  unfold brineFlag
  repeat' first
    | with_reducible assumption
    | with_reducible apply State.flag_kept
    | with_reducible apply State.set1_kept
    | (with_reducible refine foldl_kept _ ?_ _ ?_)
    | (with_reducible refine foldr_kept _ ?_ _ ?_)
    | split

theorem brineSingle_kept {s₀ s : State} (hs : Kept s₀ s) (m : Nat) (off : Nat) : Kept s₀ (brineSingle s m off) := by
  unfold brineSingle
  repeat' first
    | with_reducible assumption
    | with_reducible apply brineFlag_kept
    | with_reducible apply State.wr_kept
    | with_reducible apply State.incSat_kept

theorem overwriteByte_kept {s₀ s : State} (hs : Kept s₀ s) (off : Nat) (b : Byte) : Kept s₀ (overwriteByte s off b) := by
  unfold overwriteByte
  repeat' first
    | with_reducible assumption
    | (with_reducible refine foldl_kept _ ?_ _ ?_)
    | (with_reducible refine foldr_kept _ ?_ _ ?_)
    | split
    | (intro t x y g)
    | (intro t x g)
    | (intro t g)
    | (extract_lets +onlyGivenNames t; clear_value t)
    | with_reducible apply Kept.update

theorem overwriteStore_kept {s₀ s : State} (hs : Kept s₀ s) (off : Nat) (bs : List Byte) : Kept s₀ (overwriteStore s off bs) := by
  induction bs generalizing s off with
  | nil => exact hs
  | cons b bs ih => exact ih (overwriteByte_kept hs off b) (off + 1)

theorem State.zeroBytes_kept {s₀ s : State} (hs : Kept s₀ s) (a : Nat) (n : Nat) : Kept s₀ (State.zeroBytes s a n) := by
  unfold State.zeroBytes
  repeat' first
    | with_reducible assumption
    | with_reducible apply State.writeBytes_kept

theorem zeroWord_kept {s₀ s : State} (hs : Kept s₀ s) (m : Nat) (b : Nat) (off : Nat) : Kept s₀ (zeroWord s m b off) := by
  unfold zeroWord
  repeat' first
    | with_reducible assumption
    | with_reducible apply State.zeroBytes_kept
    | with_reducible apply overwriteStore_kept
    | with_reducible apply State.writeMem_kept
    | (with_reducible refine foldl_kept _ ?_ _ ?_)
    | (with_reducible refine foldr_kept _ ?_ _ ?_)
    | split

theorem countRead_kept {s₀ s : State} (hs : Kept s₀ s) (a : Nat) : Kept s₀ (countRead s a) := by
  unfold countRead
  repeat' first
    | with_reducible assumption
    | with_reducible apply brineSingle_kept
    | (with_reducible refine foldl_kept _ ?_ _ ?_)
    | (with_reducible refine foldr_kept _ ?_ _ ?_)
    | split

theorem brineZero_kept {s₀ s : State} (hs : Kept s₀ s) (m : Nat) (off : Nat) : Kept s₀ (brineZero s m off) := by
  unfold brineZero
  repeat' first
    | with_reducible assumption
    | with_reducible apply zeroWord_kept
    | with_reducible apply modEng_kept
    | (with_reducible refine foldl_kept _ ?_ _ ?_)
    | (with_reducible refine foldr_kept _ ?_ _ ?_)
    | split

theorem readDouble_kept {s₀ s : State} (hs : Kept s₀ s) (a : Nat) : Kept s₀ (readDouble s a) := by
  unfold readDouble
  repeat' first
    | with_reducible assumption
    | with_reducible apply raiseFlt_kept
    | (with_reducible refine foldl_kept _ ?_ _ ?_)
    | (with_reducible refine foldr_kept _ ?_ _ ?_)
    | split

theorem brineDouble_kept {s₀ s : State} (hs : Kept s₀ s) (m : Nat) (off : Nat) : Kept s₀ (brineDouble s m off) := by
  unfold brineDouble
  repeat' first
    | with_reducible assumption
    | (extract_lets +onlyGivenNames t; refine (fun (g : Kept s₀ t) => ?_) ?_; clear_value t; rotate_left; subst t)
    | with_reducible apply State.wr_kept
    | with_reducible apply State.incSat_kept
    | with_reducible apply State.set1_kept
    | with_reducible apply brineEvent_kept
    | with_reducible apply brineZero_kept
    | with_reducible apply wheyError_kept
    | with_reducible apply raiseFlt_kept
    | (with_reducible refine foldl_kept _ ?_ _ ?_)
    | (with_reducible refine foldr_kept _ ?_ _ ?_)
    | split

theorem execCaptureComplete_kept {s₀ s t : State}  (hs : Kept s₀ s) (e : execCaptureComplete s = .next t) : Kept s₀ t := by
  unfold execCaptureComplete at e
  cases e
  repeat' first
    | with_reducible assumption
    | with_reducible apply settle_kept
    | with_reducible apply completeCapture_kept

theorem execLogRecordWrite_kept {s₀ s t : State}  (hs : Kept s₀ s) (e : execLogRecordWrite s = .next t) : Kept s₀ t := by
  unfold execLogRecordWrite at e
  cases e
  repeat' first
    | with_reducible assumption
    | with_reducible apply settle_kept
    | with_reducible apply writeRecord_kept

theorem execTailMirror_kept {s₀ s t : State}  (hs : Kept s₀ s) (e : execTailMirror s = .next t) : Kept s₀ t := by
  unfold execTailMirror at e
  cases e
  repeat' first
    | with_reducible assumption
    | with_reducible apply settle_kept
    | with_reducible apply mirrorRecord_kept

theorem execBrineScrub_kept {s₀ s t : State} {m : Fin 8} {off : Nat} {r : ScrubResult} (hs : Kept s₀ s) (e : execBrineScrub m off r s = .next t) : Kept s₀ t := by
  unfold execBrineScrub at e
  cases e
  repeat' first
    | with_reducible assumption
    | with_reducible apply settle_kept
    | with_reducible apply brineSingle_kept
    | with_reducible apply brineDouble_kept
    | (with_reducible refine foldl_kept _ ?_ _ ?_)
    | exact fun _ => ⟨⟨id, id, fun _ => id, fun _ => id⟩, id⟩
    | split

theorem execNvStoreRefresh_kept {s₀ s t : State}  (hs : Kept s₀ s) (e : execNvStoreRefresh s = .next t) : Kept s₀ t := by
  unfold execNvStoreRefresh at e
  cases e
  repeat' first
    | with_reducible assumption
    | with_reducible apply settle_kept

end Sys2Proof.Machine
end

