-- ==== Sys2Proof/Laws/KeepSenseOut.lean ====
section
/-! SUPPORT. What the operations of Machine/SenseOut.lean keep (Laws/Keep.lean): one lemma for each. -/

namespace Sys2Proof.Machine

open Sys2Proof

theorem calSample_kept {s₀ s : State} (hs : Kept s₀ s) (v : Vat) (n : Nat) (q : Int) : Kept s₀ (calSample s v n q) := by
  unfold calSample
  repeat' first
    | with_reducible assumption
    | with_reducible apply modChan_kept
    | (with_reducible refine foldl_kept _ ?_ _ ?_)
    | (with_reducible refine foldr_kept _ ?_ _ ?_)
    | split

theorem calWindow_kept {s₀ s : State} (hs : Kept s₀ s) (v : Vat) (n : Nat) : Kept s₀ (calWindow s v n) := by
  unfold calWindow
  repeat' first
    | with_reducible assumption
    | (extract_lets +onlyGivenNames t; refine (fun (g : Kept s₀ t) => ?_) ?_; clear_value t; rotate_left; subst t)
    | with_reducible apply State.wr_kept
    | with_reducible apply State.vatEvent_kept
    | with_reducible apply modChan_kept
    | (with_reducible refine foldl_kept _ ?_ _ ?_)
    | (with_reducible refine foldr_kept _ ?_ _ ?_)
    | split
    | (intro t x y g)
    | (intro t x g)
    | (intro t g)
    | (extract_lets +onlyGivenNames t; clear_value t)

theorem beginWindow_kept {s₀ s : State} (hs : Kept s₀ s) : Kept s₀ (beginWindow s) := by
  unfold beginWindow
  repeat' first
    | with_reducible assumption
    | with_reducible apply forVats_kept
    | with_reducible apply forN_kept
    | with_reducible apply modPort_kept
    | (with_reducible refine foldl_kept _ ?_ _ ?_)
    | (with_reducible refine foldr_kept _ ?_ _ ?_)
    | split
    | (intro t x y g)
    | (intro t x g)
    | (intro t g)
    | (extract_lets +onlyGivenNames t; clear_value t)
    | with_reducible apply Kept.update

theorem takeMonitor_kept {s₀ s : State} (hs : Kept s₀ s) (v : Vat) (n : Nat) : Kept s₀ (takeMonitor s v n) := by
  unfold takeMonitor
  repeat' first
    | with_reducible assumption
    | (extract_lets +onlyGivenNames t; refine (fun (g : Kept s₀ t) => ?_) ?_; clear_value t; rotate_left; subst t)
    | with_reducible apply modChan_kept
    | with_reducible apply State.vatFlagEdge_kept
    | with_reducible apply State.set1_kept
    | with_reducible apply State.clr_kept
    | (with_reducible refine foldl_kept _ ?_ _ ?_)
    | (with_reducible refine foldr_kept _ ?_ _ ?_)
    | split
    | (intro t x y g)
    | (intro t x g)
    | (intro t g)
    | (extract_lets +onlyGivenNames t; clear_value t)

theorem settleOutput_kept {s₀ s : State} (hs : Kept s₀ s) (v : Vat) (n : Nat) : Kept s₀ (settleOutput s v n) := by
  unfold settleOutput
  repeat' first
    | with_reducible assumption
    | (extract_lets +onlyGivenNames t; refine (fun (g : Kept s₀ t) => ?_) ?_; clear_value t; rotate_left; subst t)
    | with_reducible apply State.wr_kept
    | with_reducible apply takeMonitor_kept
    | with_reducible apply State.clr_kept
    | (with_reducible refine foldl_kept _ ?_ _ ?_)
    | (with_reducible refine foldr_kept _ ?_ _ ?_)
    | split
    | (intro t x y g)
    | (intro t x g)
    | (intro t g)
    | (extract_lets +onlyGivenNames t; clear_value t)

theorem takeSample_kept {s₀ s : State} (hs : Kept s₀ s) (v : Vat) (n : Nat) (x : Int) (sat : Bool) : Kept s₀ (takeSample s v n x sat) := by
  unfold takeSample
  repeat' first
    | with_reducible assumption
    | (extract_lets +onlyGivenNames t; refine (fun (g : Kept s₀ t) => ?_) ?_; clear_value t; rotate_left; subst t)
    | with_reducible apply State.incWrap_kept
    | with_reducible apply State.wr_kept
    | with_reducible apply settleOutput_kept
    | with_reducible apply State.vatFlag_kept
    | with_reducible apply freezeSample_kept
    | with_reducible apply refreshValid_kept
    | with_reducible apply calSample_kept
    | (with_reducible refine foldl_kept _ ?_ _ ?_)
    | (with_reducible refine foldr_kept _ ?_ _ ?_)
    | split
    | (intro t x y g)
    | (intro t x g)
    | (intro t g)
    | (extract_lets +onlyGivenNames t; clear_value t)

theorem sliceOutput_kept {s₀ s : State} (hs : Kept s₀ s) (v : Vat) (n : Nat) (bits : BitVec 256) : Kept s₀ (sliceOutput s v n bits) := by
  unfold sliceOutput
  repeat' first
    | with_reducible assumption
    | with_reducible apply takeSample_kept
    | with_reducible apply modChan_kept

theorem pairFault_kept {s₀ s : State} (hs : Kept s₀ s) (v : Vat) (k : Nat) (p : Nat) : Kept s₀ (pairFault s v k p) := by
  unfold pairFault
  repeat' first
    | with_reducible assumption
    | (extract_lets +onlyGivenNames t; refine (fun (g : Kept s₀ t) => ?_) ?_; clear_value t; rotate_left; subst t)
    | with_reducible apply State.vatEvent_kept
    | with_reducible apply State.set1_kept
    | with_reducible apply State.wr_kept
    | with_reducible apply safetyFault_kept
    | with_reducible apply State.wrBit_kept
    | with_reducible apply enterFaultPattern_kept
    | (with_reducible refine foldl_kept _ ?_ _ ?_)
    | (with_reducible refine foldr_kept _ ?_ _ ?_)
    | split

theorem pairTick_kept {s₀ s : State} (hs : Kept s₀ s) (v : Vat) (k : Nat) (p : Nat) : Kept s₀ (pairTick s v k p) := by
  unfold pairTick
  repeat' first
    | with_reducible assumption
    | (extract_lets +onlyGivenNames t; refine (fun (g : Kept s₀ t) => ?_) ?_; clear_value t; rotate_left; subst t)
    | with_reducible apply State.set1_kept
    | with_reducible apply State.wrWord_kept
    | with_reducible apply State.clr_kept
    | with_reducible apply State.wr_kept
    | with_reducible apply notePresent_kept
    | with_reducible apply pairFault_kept
    | (with_reducible refine foldl_kept _ ?_ _ ?_)
    | (with_reducible refine foldr_kept _ ?_ _ ?_)
    | split
    | (intro t x y g)
    | (intro t x g)
    | (intro t g)
    | (extract_lets +onlyGivenNames t; clear_value t)

theorem pairsTick_kept {s₀ s : State} (hs : Kept s₀ s) (v : Vat) (p : Nat) : Kept s₀ (pairsTick s v p) := by
  unfold pairsTick
  repeat' first
    | with_reducible assumption
    | with_reducible apply forN_kept
    | with_reducible apply pairTick_kept
    | (with_reducible refine foldl_kept _ ?_ _ ?_)
    | (with_reducible refine foldr_kept _ ?_ _ ?_)
    | split
    | (intro t x y g)
    | (intro t x g)

theorem execGcalWindow_kept {s₀ s t : State}  (hs : Kept s₀ s) (e : execGcalWindow s = .next t) : Kept s₀ t := by
  unfold execGcalWindow at e
  cases e
  repeat' first
    | with_reducible assumption
    | with_reducible apply settle_kept
    | with_reducible apply beginWindow_kept
    | with_reducible apply forVats_kept
    | with_reducible apply forN_kept
    | with_reducible apply calWindow_kept
    | (with_reducible refine foldl_kept _ ?_ _ ?_)
    | exact fun _ => ⟨⟨id, id, fun _ => id, fun _ => id⟩, id⟩
    | split
    | (intro t x g)

theorem execSliceOutput_kept {s₀ s t : State} {v : Vat} {n : Fin 64} {bits : BitVec 256} {arr : BitVec 8} (hs : Kept s₀ s) (e : execSliceOutput v n bits arr s = .next t) : Kept s₀ t := by
  unfold execSliceOutput at e
  cases e
  repeat' first
    | with_reducible assumption
    | (extract_lets +onlyGivenNames t; refine (fun (g : Kept s₀ t) => ?_) ?_; clear_value t; rotate_left; subst t)
    | with_reducible apply settle_kept
    | with_reducible apply sliceOutput_kept
    | with_reducible apply forN_kept
    | with_reducible apply arrive_kept
    | (with_reducible refine foldl_kept _ ?_ _ ?_)
    | exact fun _ => ⟨⟨id, id, fun _ => id, fun _ => id⟩, id⟩
    | split
    | (intro t x g)

end Sys2Proof.Machine
end

