-- ==== Sys2Proof/Laws/KeepJoin.lean ====
section
/-! SUPPORT. What the operations of Machine/Join.lean keep (Laws/Keep.lean): one lemma for each. -/

namespace Sys2Proof.Machine

open Sys2Proof

theorem takeRegs_kept {s₀ s : State} (hs : Kept s₀ s) (v : Vat) (lo : Nat) (hi : Nat) : Kept s₀ (takeRegs s v lo hi) := by
  unfold takeRegs
  repeat' first
    | with_reducible assumption
    | with_reducible apply State.wrWord_kept
    | (with_reducible refine foldl_kept _ ?_ _ ?_)
    | (with_reducible refine foldr_kept _ ?_ _ ?_)
    | split
    | (intro t x y g)
    | (intro t x g)

theorem joinChan_kept {s₀ s : State} (hs : Kept s₀ s) (v : Vat) (n : Nat) : Kept s₀ (joinChan s v n) := by
  unfold joinChan
  repeat' first
    | with_reducible assumption
    | with_reducible apply State.wr_kept
    | with_reducible apply State.wrWord_kept
    | with_reducible apply loseChan_kept
    | with_reducible apply modChan_kept
    | with_reducible apply restartChan_kept
    | (with_reducible refine foldl_kept _ ?_ _ ?_)
    | (with_reducible refine foldr_kept _ ?_ _ ?_)
    | split

theorem joinGroup_kept {s₀ s : State} (hs : Kept s₀ s) (v : Vat) (g : Nat) : Kept s₀ (joinGroup s v g) := by
  unfold joinGroup
  repeat' first
    | with_reducible assumption
    | with_reducible apply State.vatFlag_kept
    | with_reducible apply State.set1_kept
    | with_reducible apply State.clr_kept
    | with_reducible apply State.wrWord_kept
    | with_reducible apply State.wr_kept
    | with_reducible apply modGrp_kept
    | with_reducible apply forN_kept
    | with_reducible apply joinChan_kept
    | (with_reducible refine foldl_kept _ ?_ _ ?_)
    | (with_reducible refine foldr_kept _ ?_ _ ?_)
    | split
    | (intro t x y g)
    | (intro t x g)

theorem joinFree_kept {s₀ s : State} (hs : Kept s₀ s) (v : Vat) (g : Nat) : Kept s₀ (joinFree s v g) := by
  unfold joinFree
  repeat' first
    | with_reducible assumption
    | with_reducible apply State.wr_kept
    | (with_reducible refine foldl_kept _ ?_ _ ?_)
    | (with_reducible refine foldr_kept _ ?_ _ ?_)
    | split

theorem joinRetired_kept {s₀ s : State} (hs : Kept s₀ s) (v : Vat) (f : Nat) : Kept s₀ (joinRetired s v f) := by
  unfold joinRetired
  repeat' first
    | with_reducible assumption
    | (extract_lets +onlyGivenNames t; refine (fun (g : Kept s₀ t) => ?_) ?_; clear_value t; rotate_left; subst t)
    | with_reducible apply State.wr_kept
    | with_reducible apply modGrp_kept
    | (with_reducible refine foldl_kept _ ?_ _ ?_)
    | (with_reducible refine foldr_kept _ ?_ _ ?_)
    | split

theorem joinSlices_kept {s₀ s : State} (hs : Kept s₀ s) (v : Vat) : Kept s₀ (joinSlices s v) := by
  unfold joinSlices
  repeat' first
    | with_reducible assumption
    | (extract_lets +onlyGivenNames t; refine (fun (g : Kept s₀ t) => ?_) ?_; clear_value t; rotate_left; subst t)
    | with_reducible apply forN_kept
    | with_reducible apply joinGroup_kept
    | with_reducible apply State.wr_kept
    | with_reducible apply joinFree_kept
    | with_reducible apply joinRetired_kept
    | (with_reducible refine foldl_kept _ ?_ _ ?_)
    | (with_reducible refine foldr_kept _ ?_ _ ?_)
    | split
    | (intro t x y g)
    | (intro t x g)

theorem joinPositions_kept {s₀ s : State} (hs : Kept s₀ s) (v : Vat) : Kept s₀ (joinPositions s v) := by
  unfold joinPositions
  repeat' first
    | with_reducible assumption
    | with_reducible apply forN_kept
    | with_reducible apply State.wr_kept
    | with_reducible apply modPos_kept
    | (with_reducible refine foldl_kept _ ?_ _ ?_)
    | (with_reducible refine foldr_kept _ ?_ _ ?_)
    | split
    | (intro t x y g)
    | (intro t x g)

theorem joinPulse_kept {s₀ s : State} (hs : Kept s₀ s) (v : Vat) : Kept s₀ (joinPulse s v) := by
  unfold joinPulse
  repeat' first
    | with_reducible assumption
    | with_reducible apply takeRegs_kept
    | with_reducible apply State.modVat_kept

theorem joinFallback_kept {s₀ s : State} (hs : Kept s₀ s) (v : Vat) (w : WheelGraph) : Kept s₀ (joinFallback s v w) := by
  unfold joinFallback
  repeat' first
    | with_reducible assumption
    | with_reducible apply placeGraph_kept
    | with_reducible apply failJoin_kept
    | (with_reducible refine foldl_kept _ ?_ _ ?_)
    | (with_reducible refine foldr_kept _ ?_ _ ?_)
    | split

theorem joinGraphs_kept {s₀ s : State} (hs : Kept s₀ s) (v : Vat) : Kept s₀ (joinGraphs s v) := by
  unfold joinGraphs
  repeat' first
    | with_reducible assumption
    | (extract_lets +onlyGivenNames t; refine (fun (g : Kept s₀ t) => ?_) ?_; clear_value t; rotate_left; subst t)
    | with_reducible apply forN_kept
    | with_reducible apply State.wr_kept
    | with_reducible apply clearSlot_kept
    | with_reducible apply placeGraph_kept
    | with_reducible apply joinFallback_kept
    | (with_reducible refine foldl_kept _ ?_ _ ?_)
    | (with_reducible refine foldr_kept _ ?_ _ ?_)
    | split
    | (intro t x y g)
    | (intro t x g)

theorem releaseVat_kept {s₀ s : State} (hs : Kept s₀ s) (v : Vat) : Kept s₀ (releaseVat s v) := by
  unfold releaseVat
  repeat' first
    | with_reducible assumption
    | (extract_lets +onlyGivenNames t; refine (fun (g : Kept s₀ t) => ?_) ?_; clear_value t; rotate_left; subst t)
    | with_reducible apply State.modVat_kept
    | with_reducible apply State.clr_kept
    | with_reducible apply setRole_kept
    | with_reducible apply State.set1_kept
    | with_reducible apply State.wr_kept
    | with_reducible apply refreshLeft_kept
    | with_reducible apply joinGraphs_kept
    | with_reducible apply joinPositions_kept
    | with_reducible apply joinSlices_kept
    | with_reducible apply joinPulse_kept
    | (with_reducible refine foldl_kept _ ?_ _ ?_)
    | (with_reducible refine foldr_kept _ ?_ _ ?_)
    | split
    | (intro t x y g)
    | (intro t x g)
    | (intro t g)
    | (extract_lets +onlyGivenNames t; clear_value t)
    | with_reducible apply Kept.update

theorem copyEngineMemory_kept {s₀ s : State} (hs : Kept s₀ s) (v : Vat) : Kept s₀ (copyEngineMemory s v) := by
  unfold copyEngineMemory
  repeat' first
    | with_reducible assumption
    | with_reducible apply Kept.clear
    | with_reducible apply State.writeByte_kept
    | (with_reducible refine foldl_kept _ ?_ _ ?_)
    | (with_reducible refine foldr_kept _ ?_ _ ?_)
    | split
    | (intro t x y g)
    | (intro t x g)

theorem placeGuests_kept {s₀ s : State} (hs : Kept s₀ s) (v : Vat) : Kept s₀ (placeGuests s v) := by
  unfold placeGuests
  repeat' first
    | with_reducible assumption
    | with_reducible apply forN_kept
    | with_reducible apply writeDescSlot_kept
    | (with_reducible refine foldl_kept _ ?_ _ ?_)
    | (with_reducible refine foldr_kept _ ?_ _ ?_)
    | split
    | (intro t x y g)
    | (intro t x g)

theorem enterGraph_kept {s₀ s : State} (hs : Kept s₀ s) (v : Vat) (c : Nat) (k : Nat) (f : Nat) (j : Nat) : Kept s₀ (enterGraph s v c k f j) := by
  unfold enterGraph
  repeat' first
    | with_reducible assumption
    | with_reducible apply copyGraph_kept
    | with_reducible apply copyHist_kept
    | with_reducible apply State.wrWord_kept
    | with_reducible apply modSlot_kept

theorem enterTick_kept {s₀ s : State} (hs : Kept s₀ s) (v : Vat) (p : Nat) : Kept s₀ (enterTick s v p) := by
  unfold enterTick
  repeat' first
    | with_reducible assumption
    | with_reducible apply refreshLeft_kept
    | with_reducible apply enterGraph_kept
    | (with_reducible refine foldl_kept _ ?_ _ ?_)
    | (with_reducible refine foldr_kept _ ?_ _ ?_)
    | split
    | (intro t x y g)
    | (intro t x g)
    | (intro t g)
    | (extract_lets +onlyGivenNames t; clear_value t)

theorem claimAgainst_kept {s₀ s : State} (hs : Kept s₀ s) (v : Vat) : Kept s₀ (claimAgainst s v) := by
  unfold claimAgainst
  repeat' first
    | with_reducible assumption
    | with_reducible apply vatReset_kept
    | (with_reducible refine foldl_kept _ ?_ _ ?_)
    | (with_reducible refine foldr_kept _ ?_ _ ?_)
    | split

theorem joinCheck_kept {s₀ s : State} (hs : Kept s₀ s) (v : Vat) : Kept s₀ (joinCheck s v) := by
  unfold joinCheck
  repeat' first
    | with_reducible assumption
    | (extract_lets +onlyGivenNames t; refine (fun (g : Kept s₀ t) => ?_) ?_; clear_value t; rotate_left; subst t)
    | with_reducible apply State.incSat_kept
    | with_reducible apply State.clr_kept
    | with_reducible apply State.set1_kept
    | with_reducible apply claimAgainst_kept
    | with_reducible apply State.event_kept
    | (with_reducible refine foldl_kept _ ?_ _ ?_)
    | (with_reducible refine foldr_kept _ ?_ _ ?_)
    | split

theorem heartbeatLost_kept {s₀ s : State} (hs : Kept s₀ s) (v : Vat) : Kept s₀ (heartbeatLost s v) := by
  unfold heartbeatLost
  repeat' first
    | with_reducible assumption
    | with_reducible apply raiseFlt_kept
    | with_reducible apply State.event_kept
    | with_reducible apply State.set1_kept
    | (with_reducible refine foldl_kept _ ?_ _ ?_)
    | (with_reducible refine foldr_kept _ ?_ _ ?_)
    | split

theorem vatFaultFlag_kept {s₀ s : State} (hs : Kept s₀ s) (v : Vat) (src : Nat) : Kept s₀ (vatFaultFlag s v src) := by
  unfold vatFaultFlag
  repeat' first
    | with_reducible assumption
    | (extract_lets +onlyGivenNames t; refine (fun (g : Kept s₀ t) => ?_) ?_; clear_value t; rotate_left; subst t)
    | with_reducible apply raiseFlt_kept
    | with_reducible apply noteFlt_kept
    | with_reducible apply State.set1_kept
    | with_reducible apply State.wrBit_kept
    | with_reducible apply failJoin_kept
    | with_reducible apply vatReset_kept
    | (with_reducible refine foldl_kept _ ?_ _ ?_)
    | (with_reducible refine foldr_kept _ ?_ _ ?_)
    | split

theorem attributeTo_kept {s₀ s : State} (hs : Kept s₀ s) (v : Vat) : Kept s₀ (attributeTo s v) := by
  unfold attributeTo
  repeat' first
    | with_reducible assumption
    | (extract_lets +onlyGivenNames t; refine (fun (g : Kept s₀ t) => ?_) ?_; clear_value t; rotate_left; subst t)
    | with_reducible apply logMismatch_kept
    | with_reducible apply State.wr_kept
    | with_reducible apply vatReset_kept
    | (with_reducible refine foldl_kept _ ?_ _ ?_)
    | (with_reducible refine foldr_kept _ ?_ _ ?_)
    | split

theorem unattributed_kept {s₀ s : State} (hs : Kept s₀ s) : Kept s₀ (unattributed s) := by
  unfold unattributed
  repeat' first
    | with_reducible assumption
    | (extract_lets +onlyGivenNames t; refine (fun (g : Kept s₀ t) => ?_) ?_; clear_value t; rotate_left; subst t)
    | with_reducible apply logMismatch_kept
    | with_reducible apply State.set1_kept
    | with_reducible apply State.wr_kept
    | with_reducible apply safetyFault_kept
    | with_reducible apply vatReset_kept
    | with_reducible apply setRole_kept
    | (with_reducible refine foldl_kept _ ?_ _ ?_)
    | (with_reducible refine foldr_kept _ ?_ _ ?_)
    | split
    | (intro t x y g)
    | (intro t x g)
    | (intro t g)
    | (extract_lets +onlyGivenNames t; clear_value t)
    | with_reducible apply Kept.update

theorem attributionEnd_kept {s₀ s : State} (hs : Kept s₀ s) : Kept s₀ (attributionEnd s) := by
  unfold attributionEnd
  repeat' first
    | with_reducible assumption
    | with_reducible apply attributeTo_kept
    | with_reducible apply unattributed_kept
    | (with_reducible refine foldl_kept _ ?_ _ ?_)
    | (with_reducible refine foldr_kept _ ?_ _ ?_)
    | split
    | (intro t x y g)
    | (intro t x g)
    | (intro t g)
    | (extract_lets +onlyGivenNames t; clear_value t)
    | with_reducible apply Kept.update

theorem refuseClaim_kept {s₀ s : State} (hs : Kept s₀ s) (v : Vat) (c : Bool) : Kept s₀ (refuseClaim s v c) := by
  unfold refuseClaim
  repeat' first
    | with_reducible assumption
    | with_reducible apply State.event_kept
    | (with_reducible refine foldl_kept _ ?_ _ ?_)
    | (with_reducible refine foldr_kept _ ?_ _ ?_)
    | split

theorem freeClaim_kept {s₀ s : State} (hs : Kept s₀ s) (a : Bool) (b : Bool) : Kept s₀ (freeClaim s a b) := by
  unfold freeClaim
  repeat' first
    | with_reducible assumption
    | with_reducible apply takeover_kept
    | (with_reducible refine foldl_kept _ ?_ _ ?_)
    | (with_reducible refine foldr_kept _ ?_ _ ?_)
    | split
    | (intro t x y g)
    | (intro t x g)
    | (intro t g)
    | (extract_lets +onlyGivenNames t; clear_value t)

theorem claims_kept {s₀ s : State} (hs : Kept s₀ s) (a : Bool) (b : Bool) : Kept s₀ (claims s a b) := by
  unfold claims
  repeat' first
    | with_reducible assumption
    | (extract_lets +onlyGivenNames t; refine (fun (g : Kept s₀ t) => ?_) ?_; clear_value t; rotate_left; subst t)
    | with_reducible apply refuseClaim_kept
    | with_reducible apply freeClaim_kept
    | with_reducible apply claimAgainst_kept
    | (with_reducible refine foldl_kept _ ?_ _ ?_)
    | (with_reducible refine foldr_kept _ ?_ _ ?_)
    | split
    | (intro t x y g)
    | (intro t x g)
    | (intro t g)
    | (extract_lets +onlyGivenNames t; clear_value t)

theorem failDrill_kept {s₀ s : State} (hs : Kept s₀ s) (o : Vat) : Kept s₀ (failDrill s o) := by
  unfold failDrill
  repeat' first
    | with_reducible assumption
    | with_reducible apply noteFlt_kept
    | with_reducible apply State.set1_kept
    | with_reducible apply State.wrBit_kept
    | with_reducible apply State.event_kept
    | with_reducible apply State.clr_kept
    | with_reducible apply vatReset_kept
    | with_reducible apply setRole_kept
    | (with_reducible refine foldl_kept _ ?_ _ ?_)
    | (with_reducible refine foldr_kept _ ?_ _ ?_)
    | split
    | (intro t x y g)
    | (intro t x g)
    | (intro t g)
    | (extract_lets +onlyGivenNames t; clear_value t)
    | with_reducible apply Kept.update

theorem padMismatch_kept {s₀ s : State} (hs : Kept s₀ s) (n : Nat) : Kept s₀ (padMismatch s n) := by
  unfold padMismatch
  repeat' first
    | with_reducible assumption
    | (extract_lets +onlyGivenNames t; refine (fun (g : Kept s₀ t) => ?_) ?_; clear_value t; rotate_left; subst t)
    | with_reducible apply State.incSat_kept
    | with_reducible apply State.set1_kept
    | with_reducible apply State.wr_kept
    | with_reducible apply State.wrWord_kept
    | with_reducible apply logMismatch_kept
    | with_reducible apply failDrill_kept
    | with_reducible apply abortDrill_kept
    | with_reducible apply safetyFault_kept
    | with_reducible apply raiseFltWith_kept
    | (with_reducible refine foldl_kept _ ?_ _ ?_)
    | (with_reducible refine foldr_kept _ ?_ _ ?_)
    | split
    | (intro t x y g)
    | (intro t x g)
    | (intro t g)
    | (extract_lets +onlyGivenNames t; clear_value t)
    | with_reducible apply Kept.update

theorem handItem_kept {s₀ s : State} (hs : Kept s₀ s) (item : HandItem) : Kept s₀ (handItem s item) := by
  unfold handItem
  repeat' first
    | with_reducible assumption
    | with_reducible apply finishHandover_kept
    | with_reducible apply State.wrBit_kept
    | (with_reducible refine foldl_kept _ ?_ _ ?_)
    | (with_reducible refine foldr_kept _ ?_ _ ?_)
    | split
    | (intro t x y g)
    | (intro t x g)
    | (intro t g)
    | (extract_lets +onlyGivenNames t; clear_value t)
    | with_reducible apply Kept.update

theorem startDrill_kept {s₀ s : State} (hs : Kept s₀ s) (back : Bool) : Kept s₀ (startDrill s back) := by
  unfold startDrill
  repeat' first
    | with_reducible assumption
    | (extract_lets +onlyGivenNames t; refine (fun (g : Kept s₀ t) => ?_) ?_; clear_value t; rotate_left; subst t)
    | with_reducible apply State.set1_kept
    | with_reducible apply takeover_kept
    | (with_reducible refine foldl_kept _ ?_ _ ?_)
    | (with_reducible refine foldr_kept _ ?_ _ ?_)
    | split
    | (intro t x y g)
    | (intro t x g)
    | (intro t g)
    | (extract_lets +onlyGivenNames t; clear_value t)
    | with_reducible apply Kept.update

theorem passDrill_kept {s₀ s : State} (hs : Kept s₀ s) : Kept s₀ (passDrill s) := by
  unfold passDrill
  repeat' first
    | with_reducible assumption
    | with_reducible apply State.event_kept
    | with_reducible apply State.incSat_kept
    | with_reducible apply State.set1_kept
    | with_reducible apply State.clr_kept
    | (with_reducible refine foldl_kept _ ?_ _ ?_)
    | (with_reducible refine foldr_kept _ ?_ _ ?_)
    | split
    | (intro t x y g)
    | (intro t x g)
    | (intro t g)
    | (extract_lets +onlyGivenNames t; clear_value t)
    | with_reducible apply Kept.update

theorem drillCheckEnd_kept {s₀ s : State} (hs : Kept s₀ s) : Kept s₀ (drillCheckEnd s) := by
  unfold drillCheckEnd
  repeat' first
    | with_reducible assumption
    | with_reducible apply abortDrill_kept
    | with_reducible apply takeover_kept
    | with_reducible apply passDrill_kept
    | (with_reducible refine foldl_kept _ ?_ _ ?_)
    | (with_reducible refine foldr_kept _ ?_ _ ?_)
    | split
    | (intro t x y g)
    | (intro t x g)
    | (intro t g)
    | (extract_lets +onlyGivenNames t; clear_value t)
    | with_reducible apply Kept.update

theorem execVatRelease_kept {s₀ s t : State} {v : Vat} (hs : Kept s₀ s) (e : execVatRelease v s = .next t) : Kept s₀ t := by
  unfold execVatRelease at e
  cases e
  repeat' first
    | with_reducible assumption
    | with_reducible apply settle_kept
    | with_reducible apply releaseVat_kept
    | (with_reducible refine foldl_kept _ ?_ _ ?_)
    | exact fun _ => ⟨⟨id, id, fun _ => id, fun _ => id⟩, id⟩
    | split

theorem execJoinCopyComplete_kept {s₀ s t : State} {v : Vat} (hs : Kept s₀ s) (e : execJoinCopyComplete v s = .next t) : Kept s₀ t := by
  unfold execJoinCopyComplete at e
  cases e
  repeat' first
    | with_reducible assumption
    | with_reducible apply settle_kept
    | with_reducible apply State.modVat_kept
    | with_reducible apply placeGuests_kept
    | with_reducible apply copyEngineMemory_kept
    | (with_reducible refine foldl_kept _ ?_ _ ?_)
    | exact fun _ => ⟨⟨id, id, fun _ => id, fun _ => id⟩, id⟩
    | split

theorem execRejoinTimeout_kept {s₀ s t : State} {v : Vat} (hs : Kept s₀ s) (e : execRejoinTimeout v s = .next t) : Kept s₀ t := by
  unfold execRejoinTimeout at e
  cases e
  repeat' first
    | with_reducible assumption
    | with_reducible apply settle_kept
    | with_reducible apply failJoin_kept
    | (with_reducible refine foldl_kept _ ?_ _ ?_)
    | exact fun _ => ⟨⟨id, id, fun _ => id, fun _ => id⟩, id⟩
    | split

theorem execHeartbeatLost_kept {s₀ s t : State} {v : Vat} (hs : Kept s₀ s) (e : execHeartbeatLost v s = .next t) : Kept s₀ t := by
  unfold execHeartbeatLost at e
  cases e
  repeat' first
    | with_reducible assumption
    | with_reducible apply settle_kept
    | with_reducible apply heartbeatLost_kept

theorem execVatFaultFlag_kept {s₀ s t : State} {v : Vat} {src : Fin 8} (hs : Kept s₀ s) (e : execVatFaultFlag v src s = .next t) : Kept s₀ t := by
  unfold execVatFaultFlag at e
  cases e
  repeat' first
    | with_reducible assumption
    | with_reducible apply settle_kept
    | with_reducible apply vatFaultFlag_kept

theorem execCompareMismatch_kept {s₀ s t : State} {kind : MismatchKind} (hs : Kept s₀ s) (e : execCompareMismatch kind s = .next t) : Kept s₀ t := by
  unfold execCompareMismatch at e
  cases e
  repeat' first
    | with_reducible assumption
    | with_reducible apply settle_kept
    | with_reducible apply compareMismatch_kept

theorem execAttributionWindowEnd_kept {s₀ s t : State}  (hs : Kept s₀ s) (e : execAttributionWindowEnd s = .next t) : Kept s₀ t := by
  unfold execAttributionWindowEnd at e
  cases e
  repeat' first
    | with_reducible assumption
    | with_reducible apply settle_kept
    | with_reducible apply attributionEnd_kept

theorem execUnattrWindowExpiry_kept {s₀ s t : State}  (hs : Kept s₀ s) (e : execUnattrWindowExpiry s = .next t) : Kept s₀ t := by
  unfold execUnattrWindowExpiry at e
  cases e
  repeat' first
    | with_reducible assumption
    | with_reducible apply settle_kept
    | (with_reducible refine foldl_kept _ ?_ _ ?_)
    | exact fun _ => ⟨⟨id, id, fun _ => id, fun _ => id⟩, id⟩
    | split
    | (intro t x g)
    | (intro t g)
    | (extract_lets +onlyGivenNames t; clear_value t)
    | with_reducible apply Kept.update

theorem execOwnershipClaim_kept {s₀ s t : State} {a : Bool} {b : Bool} (hs : Kept s₀ s) (e : execOwnershipClaim a b s = .next t) : Kept s₀ t := by
  unfold execOwnershipClaim at e
  cases e
  repeat' first
    | with_reducible assumption
    | with_reducible apply settle_kept
    | with_reducible apply claims_kept
    | (with_reducible refine foldl_kept _ ?_ _ ?_)
    | exact fun _ => ⟨⟨id, id, fun _ => id, fun _ => id⟩, id⟩
    | split

theorem execPadMismatch_kept {s₀ s t : State} {leg : Fin 32} (hs : Kept s₀ s) (e : execPadMismatch leg s = .next t) : Kept s₀ t := by
  unfold execPadMismatch at e
  cases e
  repeat' first
    | with_reducible assumption
    | with_reducible apply settle_kept
    | with_reducible apply padMismatch_kept
    | (with_reducible refine foldl_kept _ ?_ _ ?_)
    | exact fun _ => ⟨⟨id, id, fun _ => id, fun _ => id⟩, id⟩
    | split

theorem execPadRecurrenceWindowEnd_kept {s₀ s t : State}  (hs : Kept s₀ s) (e : execPadRecurrenceWindowEnd s = .next t) : Kept s₀ t := by
  unfold execPadRecurrenceWindowEnd at e
  cases e
  repeat' first
    | with_reducible assumption
    | with_reducible apply settle_kept
    | (with_reducible refine foldl_kept _ ?_ _ ?_)
    | exact fun _ => ⟨⟨id, id, fun _ => id, fun _ => id⟩, id⟩
    | split
    | (intro t x g)
    | (intro t g)
    | (extract_lets +onlyGivenNames t; clear_value t)
    | with_reducible apply Kept.update

theorem execLegHandover_kept {s₀ s t : State} {item : HandItem} (hs : Kept s₀ s) (e : execLegHandover item s = .next t) : Kept s₀ t := by
  unfold execLegHandover at e
  cases e
  repeat' first
    | with_reducible assumption
    | with_reducible apply settle_kept
    | with_reducible apply handItem_kept

theorem execDrillCheckWindowEnd_kept {s₀ s t : State}  (hs : Kept s₀ s) (e : execDrillCheckWindowEnd s = .next t) : Kept s₀ t := by
  unfold execDrillCheckWindowEnd at e
  cases e
  repeat' first
    | with_reducible assumption
    | with_reducible apply settle_kept
    | with_reducible apply drillCheckEnd_kept

end Sys2Proof.Machine
end

