-- ==== Sys2Proof/Laws/KeepCan.lean ====
section
/-! SUPPORT. What the operations of Machine/Can.lean keep (Laws/Keep.lean): one lemma for each. -/

namespace Sys2Proof.Machine

open Sys2Proof

theorem modCan_kept {s₀ s : State} (hs : Kept s₀ s) (c : Nat) (f : CanChan → CanChan) : Kept s₀ (modCan s c f) := by
  unfold modCan
  repeat' first
    | with_reducible assumption
    | (with_reducible refine foldl_kept _ ?_ _ ?_)
    | (with_reducible refine foldr_kept _ ?_ _ ?_)
    | split
    | (intro t x y g)
    | (intro t x g)
    | (intro t g)
    | (extract_lets +onlyGivenNames t; clear_value t)
    | with_reducible apply Kept.update

theorem modEntry_kept {s₀ s : State} (hs : Kept s₀ s) (c : Nat) (e : Nat) (f : CanEntry → CanEntry) : Kept s₀ (modEntry s c e f) := by
  unfold modEntry
  repeat' first
    | with_reducible assumption
    | (with_reducible refine foldl_kept _ ?_ _ ?_)
    | (with_reducible refine foldr_kept _ ?_ _ ?_)
    | split
    | (intro t x y g)
    | (intro t x g)
    | (intro t g)
    | (extract_lets +onlyGivenNames t; clear_value t)
    | with_reducible apply Kept.update

theorem putWriter_kept {s₀ s : State} (hs : Kept s₀ s) (w : Writer) : Kept s₀ (putWriter s w) := by
  unfold putWriter
  repeat' first
    | with_reducible assumption
    | (with_reducible refine foldl_kept _ ?_ _ ?_)
    | (with_reducible refine foldr_kept _ ?_ _ ?_)
    | split
    | (intro t x y g)
    | (intro t x g)
    | (intro t g)
    | (extract_lets +onlyGivenNames t; clear_value t)
    | with_reducible apply Kept.update

theorem writeSignals_kept {s₀ s : State} (hs : Kept s₀ s) (x : CanEntry) (val : CanSig → Int) : Kept s₀ (writeSignals s x val) := by
  unfold writeSignals
  repeat' first
    | with_reducible assumption
    | with_reducible apply putWriter_kept
    | (with_reducible refine foldl_kept _ ?_ _ ?_)
    | (with_reducible refine foldr_kept _ ?_ _ ?_)
    | split
    | (intro t x y g)
    | (intro t x g)

theorem timeoutEntry_kept {s₀ s : State} (hs : Kept s₀ s) (x : CanEntry) : Kept s₀ (timeoutEntry s x) := by
  unfold timeoutEntry
  repeat' first
    | with_reducible assumption
    | (extract_lets +onlyGivenNames t; refine (fun (g : Kept s₀ t) => ?_) ?_; clear_value t; rotate_left; subst t)
    | with_reducible apply State.set1_kept
    | with_reducible apply State.event_kept
    | with_reducible apply State.incSat_kept
    | with_reducible apply writeSignals_kept

theorem keepFv_kept {s₀ s : State} (hs : Kept s₀ s) (x : CanEntry) (fv : Nat) : Kept s₀ (keepFv s x fv) := by
  unfold keepFv
  repeat' first
    | with_reducible assumption
    | (extract_lets +onlyGivenNames t; refine (fun (g : Kept s₀ t) => ?_) ?_; clear_value t; rotate_left; subst t)
    | with_reducible apply modEntry_kept
    | (with_reducible refine foldl_kept _ ?_ _ ?_)
    | (with_reducible refine foldr_kept _ ?_ _ ?_)
    | split
    | (intro t x y g)
    | (intro t x g)
    | (intro t g)
    | with_reducible apply Kept.update

theorem acceptFrame_kept {s₀ s : State} (hs : Kept s₀ s) (x : CanEntry) (bytes : List Byte) (sof : Word) : Kept s₀ (acceptFrame s x bytes sof) := by
  unfold acceptFrame
  repeat' first
    | with_reducible assumption
    | (extract_lets +onlyGivenNames t; refine (fun (g : Kept s₀ t) => ?_) ?_; clear_value t; rotate_left; subst t)
    | with_reducible apply State.clr_kept
    | with_reducible apply State.wrWord_kept
    | with_reducible apply State.incWrap_kept
    | with_reducible apply writeSignals_kept

theorem takeFrame_kept {s₀ s : State} (hs : Kept s₀ s) (c : Nat) (x : CanEntry) (f : CanFrame) (sof : Word) : Kept s₀ (takeFrame s c x f sof) := by
  unfold takeFrame
  repeat' first
    | with_reducible assumption
    | with_reducible apply acceptFrame_kept
    | with_reducible apply keepFv_kept
    | with_reducible apply State.event_kept
    | with_reducible apply State.incSat_kept
    | with_reducible apply State.set1_kept
    | (with_reducible refine foldl_kept _ ?_ _ ?_)
    | (with_reducible refine foldr_kept _ ?_ _ ?_)
    | split

theorem refreshErr_kept {s₀ s : State} (hs : Kept s₀ s) (c : Nat) : Kept s₀ (refreshErr s c) := by
  unfold refreshErr
  repeat' first
    | with_reducible assumption
    | with_reducible apply State.wr_kept
    | (with_reducible refine foldl_kept _ ?_ _ ?_)
    | (with_reducible refine foldr_kept _ ?_ _ ?_)
    | split

theorem goodReception_kept {s₀ s : State} (hs : Kept s₀ s) (c : Nat) : Kept s₀ (goodReception s c) := by
  unfold goodReception
  repeat' first
    | with_reducible assumption
    | with_reducible apply refreshErr_kept
    | with_reducible apply State.wr_kept
    | with_reducible apply State.useFree_kept
    | (with_reducible refine foldl_kept _ ?_ _ ?_)
    | (with_reducible refine foldr_kept _ ?_ _ ?_)
    | split
    | (intro t x y g)
    | (intro t x g)
    | (intro t g)
    | (extract_lets +onlyGivenNames t; clear_value t)

theorem discardFrame_kept {s₀ s : State} (hs : Kept s₀ s) (c : Nat) (x : CanEntry) : Kept s₀ (discardFrame s c x) := by
  unfold discardFrame
  repeat' first
    | with_reducible assumption
    | with_reducible apply State.event_kept
    | with_reducible apply State.set1_kept

theorem receiveFrame_kept {s₀ s : State} (hs : Kept s₀ s) (c : Nat) (f : CanFrame) (sof : Word) : Kept s₀ (receiveFrame s c f sof) := by
  unfold receiveFrame
  repeat' first
    | with_reducible assumption
    | (extract_lets +onlyGivenNames t; refine (fun (g : Kept s₀ t) => ?_) ?_; clear_value t; rotate_left; subst t)
    | with_reducible apply goodReception_kept
    | with_reducible apply discardFrame_kept
    | with_reducible apply takeFrame_kept
    | (with_reducible refine foldl_kept _ ?_ _ ?_)
    | (with_reducible refine foldr_kept _ ?_ _ ?_)
    | split
    | (intro t x y g)
    | (intro t x g)
    | (intro t g)
    | (extract_lets +onlyGivenNames t; clear_value t)

theorem refreshQueue_kept {s₀ s : State} (hs : Kept s₀ s) (c : Nat) : Kept s₀ (refreshQueue s c) := by
  unfold refreshQueue
  repeat' first
    | with_reducible assumption
    | with_reducible apply State.wr_kept
    | (with_reducible refine foldl_kept _ ?_ _ ?_)
    | (with_reducible refine foldr_kept _ ?_ _ ?_)
    | split
    | (intro t x y g)
    | (intro t x g)

theorem enqueue_kept {s₀ s : State} (hs : Kept s₀ s) (c : Nat) (express : Bool) (f : TxFrame) : Kept s₀ (enqueue s c express f) := by
  unfold enqueue
  repeat' first
    | with_reducible assumption
    | with_reducible apply refreshQueue_kept
    | with_reducible apply modCan_kept
    | with_reducible apply State.flag_kept
    | (with_reducible refine foldl_kept _ ?_ _ ?_)
    | (with_reducible refine foldr_kept _ ?_ _ ?_)
    | split

theorem feedService_kept {s₀ s : State} (hs : Kept s₀ s) : Kept s₀ (feedService s) := by
  unfold feedService
  repeat' first
    | with_reducible assumption
    | (with_reducible exact Kept.trust (by with_reducible assumption) _ ⟨⟨id, id, fun _ => id, fun _ => id⟩, id⟩)
    | with_reducible apply refreshQueue_kept
    | with_reducible apply modCan_kept
    | (with_reducible refine foldl_kept _ ?_ _ ?_)
    | (with_reducible refine foldr_kept _ ?_ _ ?_)
    | split
    | (intro t x y g)
    | (intro t x g)
    | (intro t g)
    | (extract_lets +onlyGivenNames t; clear_value t)

theorem periodicDue_kept {s₀ s : State} (hs : Kept s₀ s) (x : CanEntry) (onBus : Option Nat) : Kept s₀ (periodicDue s x onBus) := by
  unfold periodicDue
  repeat' first
    | with_reducible assumption
    | with_reducible apply enqueue_kept
    | with_reducible apply State.flag_kept
    | with_reducible apply modCan_kept
    | (with_reducible refine foldl_kept _ ?_ _ ?_)
    | (with_reducible refine foldr_kept _ ?_ _ ?_)
    | split
    | (intro t x y g)
    | (intro t x g)
    | (intro t g)
    | (extract_lets +onlyGivenNames t; clear_value t)

theorem eventCheck_kept {s₀ s : State} (hs : Kept s₀ s) (x : CanEntry) : Kept s₀ (eventCheck s x) := by
  unfold eventCheck
  repeat' first
    | with_reducible assumption
    | with_reducible apply enqueue_kept
    | (with_reducible refine foldl_kept _ ?_ _ ?_)
    | (with_reducible refine foldr_kept _ ?_ _ ?_)
    | split

theorem countSent_kept {s₀ s : State} (hs : Kept s₀ s) (f : TxFrame) (sof : Word) : Kept s₀ (countSent s f sof) := by
  unfold countSent
  repeat' first
    | with_reducible assumption
    | (extract_lets +onlyGivenNames t; refine (fun (g : Kept s₀ t) => ?_) ?_; clear_value t; rotate_left; subst t)
    | with_reducible apply State.incWrap_kept
    | with_reducible apply State.wrWord_kept
    | with_reducible apply modEntry_kept
    | (with_reducible refine foldl_kept _ ?_ _ ?_)
    | (with_reducible refine foldr_kept _ ?_ _ ?_)
    | split
    | (intro t x y g)
    | (intro t x g)
    | (intro t g)
    | (extract_lets +onlyGivenNames t; clear_value t)
    | with_reducible apply Kept.update

theorem txAcked_kept {s₀ s : State} (hs : Kept s₀ s) (c : Nat) (express : Bool) (f : TxFrame) (sof : Word) : Kept s₀ (txAcked s c express f sof) := by
  unfold txAcked
  repeat' first
    | with_reducible assumption
    | with_reducible apply modCan_kept
    | with_reducible apply State.wr_kept
    | with_reducible apply State.clr_kept
    | with_reducible apply refreshQueue_kept
    | with_reducible apply countSent_kept
    | with_reducible apply refreshErr_kept
    | with_reducible apply feedService_kept
    | (with_reducible refine foldl_kept _ ?_ _ ?_)
    | (with_reducible refine foldr_kept _ ?_ _ ?_)
    | split

theorem retireChannel_kept {s₀ s : State} (hs : Kept s₀ s) (c : Nat) : Kept s₀ (retireChannel s c) := by
  unfold retireChannel
  repeat' first
    | with_reducible assumption
    | (extract_lets +onlyGivenNames t; refine (fun (g : Kept s₀ t) => ?_) ?_; clear_value t; rotate_left; subst t)
    | with_reducible apply State.event_kept
    | with_reducible apply State.set1_kept
    | with_reducible apply modCan_kept
    | with_reducible apply degSet_kept
    | with_reducible apply refreshQueue_kept

theorem busOff_kept {s₀ s : State} (hs : Kept s₀ s) (c : Nat) : Kept s₀ (busOff s c) := by
  unfold busOff
  repeat' first
    | with_reducible assumption
    | (extract_lets +onlyGivenNames t; refine (fun (g : Kept s₀ t) => ?_) ?_; clear_value t; rotate_left; subst t)
    | with_reducible apply State.incSat_kept
    | with_reducible apply State.set1_kept
    | with_reducible apply State.wr_kept
    | with_reducible apply State.event_kept
    | with_reducible apply modCan_kept
    | with_reducible apply retireChannel_kept
    | (with_reducible refine foldl_kept _ ?_ _ ?_)
    | (with_reducible refine foldr_kept _ ?_ _ ?_)
    | split
    | (intro t x y g)
    | (intro t x g)
    | (intro t g)
    | (extract_lets +onlyGivenNames t; clear_value t)

theorem txError_kept {s₀ s : State} (hs : Kept s₀ s) (c : Nat) : Kept s₀ (txError s c) := by
  unfold txError
  repeat' first
    | with_reducible assumption
    | (extract_lets +onlyGivenNames t; refine (fun (g : Kept s₀ t) => ?_) ?_; clear_value t; rotate_left; subst t)
    | with_reducible apply modCan_kept
    | with_reducible apply State.incSat_kept
    | with_reducible apply busOff_kept
    | with_reducible apply refreshErr_kept
    | (with_reducible refine foldl_kept _ ?_ _ ?_)
    | (with_reducible refine foldr_kept _ ?_ _ ?_)
    | split
    | (intro t x y g)
    | (intro t x g)
    | (intro t g)
    | (extract_lets +onlyGivenNames t; clear_value t)

theorem txUnacked_kept {s₀ s : State} (hs : Kept s₀ s) (c : Nat) : Kept s₀ (txUnacked s c) := by
  unfold txUnacked
  repeat' first
    | with_reducible assumption
    | (extract_lets +onlyGivenNames t; refine (fun (g : Kept s₀ t) => ?_) ?_; clear_value t; rotate_left; subst t)
    | with_reducible apply State.incSat_kept
    | with_reducible apply modCan_kept
    | with_reducible apply txError_kept
    | with_reducible apply State.event_kept
    | with_reducible apply State.set1_kept
    | (with_reducible refine foldl_kept _ ?_ _ ?_)
    | (with_reducible refine foldr_kept _ ?_ _ ?_)
    | split

theorem measureDelay_kept {s₀ s : State} (hs : Kept s₀ s) (c : Nat) (f : TxFrame) (tdcv : Nat) : Kept s₀ (measureDelay s c f tdcv) := by
  unfold measureDelay
  repeat' first
    | with_reducible assumption
    | with_reducible apply State.wr_kept
    | (with_reducible refine foldl_kept _ ?_ _ ?_)
    | (with_reducible refine foldr_kept _ ?_ _ ?_)
    | split

theorem txComplete_kept {s₀ s : State} (hs : Kept s₀ s) (c : Nat) (acked : Bool) (sof : Word) (tdcv : Nat) : Kept s₀ (txComplete s c acked sof tdcv) := by
  unfold txComplete
  repeat' first
    | with_reducible assumption
    | (extract_lets +onlyGivenNames t; refine (fun (g : Kept s₀ t) => ?_) ?_; clear_value t; rotate_left; subst t)
    | with_reducible apply measureDelay_kept
    | with_reducible apply txError_kept
    | with_reducible apply txAcked_kept
    | with_reducible apply txUnacked_kept
    | (with_reducible refine foldl_kept _ ?_ _ ?_)
    | (with_reducible refine foldr_kept _ ?_ _ ?_)
    | split
    | (intro t x y g)
    | (intro t x g)
    | (intro t g)
    | (extract_lets +onlyGivenNames t; clear_value t)

theorem transmitError_kept {s₀ s : State} (hs : Kept s₀ s) (c : Nat) (sof : Word) (tdcv : Option (BitVec 7)) : Kept s₀ (transmitError s c sof tdcv) := by
  unfold transmitError
  repeat' first
    | with_reducible assumption
    | with_reducible apply txError_kept
    | with_reducible apply measureDelay_kept
    | (with_reducible refine foldl_kept _ ?_ _ ?_)
    | (with_reducible refine foldr_kept _ ?_ _ ?_)
    | split

theorem canError_kept {s₀ s : State} (hs : Kept s₀ s) (c : Nat) (x2 : CanErr) : Kept s₀ (canError s c x2) := by
  unfold canError
  repeat' first
    | with_reducible assumption
    | with_reducible apply transmitError_kept
    | with_reducible apply refreshErr_kept
    | with_reducible apply State.incSat_kept
    | (with_reducible refine foldl_kept _ ?_ _ ?_)
    | (with_reducible refine foldr_kept _ ?_ _ ?_)
    | split

theorem moveEntry_kept {s₀ s : State} (hs : Kept s₀ s) (a : Nat) (x : CanEntry) : Kept s₀ (moveEntry s a x) := by
  unfold moveEntry
  repeat' first
    | with_reducible assumption
    | (extract_lets +onlyGivenNames t; refine (fun (g : Kept s₀ t) => ?_) ?_; clear_value t; rotate_left; subst t)
    | with_reducible apply modEntry_kept
    | with_reducible apply State.set1_kept
    | with_reducible apply State.wrWord_kept
    | (with_reducible refine foldl_kept _ ?_ _ ?_)
    | (with_reducible refine foldr_kept _ ?_ _ ?_)
    | split
    | (intro t x y g)
    | (intro t x g)
    | (intro t g)
    | (extract_lets +onlyGivenNames t; clear_value t)

theorem moveFrames_kept {s₀ s : State} (hs : Kept s₀ s) (c : Nat) (a : Nat) : Kept s₀ (moveFrames s c a) := by
  unfold moveFrames
  repeat' first
    | with_reducible assumption
    | with_reducible apply modCan_kept
    | with_reducible apply enqueue_kept
    | (with_reducible refine foldl_kept _ ?_ _ ?_)
    | (with_reducible refine foldr_kept _ ?_ _ ?_)
    | split
    | (intro t x y g)
    | (intro t x g)

theorem entryMove_kept {s₀ s : State} (hs : Kept s₀ s) (c : Nat) : Kept s₀ (entryMove s c) := by
  unfold entryMove
  repeat' first
    | with_reducible assumption
    | with_reducible apply modCan_kept
    | with_reducible apply moveFrames_kept
    | with_reducible apply moveEntry_kept
    | (with_reducible refine foldl_kept _ ?_ _ ?_)
    | (with_reducible refine foldr_kept _ ?_ _ ?_)
    | split
    | (intro t x y g)
    | (intro t x g)

theorem flushChannel_kept {s₀ s : State} (hs : Kept s₀ s) (c : Nat) (won : Option Nat) : Kept s₀ (flushChannel s c won) := by
  unfold flushChannel
  repeat' first
    | with_reducible assumption
    | with_reducible apply modCan_kept
    | with_reducible apply State.incSat_kept
    | with_reducible apply State.set1_kept
    | with_reducible apply refreshQueue_kept
    | with_reducible apply State.event_kept
    | (with_reducible refine foldl_kept _ ?_ _ ?_)
    | (with_reducible refine foldr_kept _ ?_ _ ?_)
    | split
    | (intro t x y g)
    | (intro t x g)
    | (intro t g)
    | (extract_lets +onlyGivenNames t; clear_value t)

theorem execRxTimeout_kept {s₀ s t : State} {c : Fin 6} {e : Fin 64} (hs : Kept s₀ s) (e : execRxTimeout c e s = .next t) : Kept s₀ t := by
  unfold execRxTimeout at e
  cases e
  repeat' first
    | with_reducible assumption
    | with_reducible apply settle_kept
    | with_reducible apply timeoutEntry_kept
    | (with_reducible refine foldl_kept _ ?_ _ ?_)
    | exact fun _ => ⟨⟨id, id, fun _ => id, fun _ => id⟩, id⟩
    | split

theorem execPeriodicTxDue_kept {s₀ s t : State} {c : Fin 6} {e : Fin 64} {onBus : Option (BitVec 32)} (hs : Kept s₀ s) (e : execPeriodicTxDue c e onBus s = .next t) : Kept s₀ t := by
  unfold execPeriodicTxDue at e
  cases e
  repeat' first
    | with_reducible assumption
    | with_reducible apply settle_kept
    | with_reducible apply periodicDue_kept
    | (with_reducible refine foldl_kept _ ?_ _ ?_)
    | exact fun _ => ⟨⟨id, id, fun _ => id, fun _ => id⟩, id⟩
    | split

theorem execEventTxCheck_kept {s₀ s t : State}  (hs : Kept s₀ s) (e : execEventTxCheck s = .next t) : Kept s₀ t := by
  unfold execEventTxCheck at e
  cases e
  repeat' first
    | with_reducible assumption
    | with_reducible apply settle_kept
    | with_reducible apply eventCheck_kept
    | (with_reducible refine foldl_kept _ ?_ _ ?_)
    | exact fun _ => ⟨⟨id, id, fun _ => id, fun _ => id⟩, id⟩
    | split
    | (intro t x g)

theorem execCanTxComplete_kept {s₀ s t : State} {c : Fin 6} {acked : Bool} {sof : BitVec 32} {tdcv : BitVec 7} (hs : Kept s₀ s) (e : execCanTxComplete c acked sof tdcv s = .next t) : Kept s₀ t := by
  unfold execCanTxComplete at e
  cases e
  repeat' first
    | with_reducible assumption
    | with_reducible apply settle_kept
    | with_reducible apply txComplete_kept
    | (with_reducible refine foldl_kept _ ?_ _ ?_)
    | exact fun _ => ⟨⟨id, id, fun _ => id, fun _ => id⟩, id⟩
    | split

theorem execLonelyProbe_kept {s₀ s t : State} {c : Fin 6} (hs : Kept s₀ s) (e : execLonelyProbe c s = .next t) : Kept s₀ t := by
  unfold execLonelyProbe at e
  cases e
  repeat' first
    | with_reducible assumption
    | with_reducible apply settle_kept
    | with_reducible apply modCan_kept
    | (with_reducible refine foldl_kept _ ?_ _ ?_)
    | exact fun _ => ⟨⟨id, id, fun _ => id, fun _ => id⟩, id⟩
    | split

theorem execCanErrorDetected_kept {s₀ s t : State} {c : Fin 6} {k : CanErr} (hs : Kept s₀ s) (e : execCanErrorDetected c k s = .next t) : Kept s₀ t := by
  unfold execCanErrorDetected at e
  cases e
  repeat' first
    | with_reducible assumption
    | with_reducible apply settle_kept
    | with_reducible apply canError_kept
    | (with_reducible refine foldl_kept _ ?_ _ ?_)
    | exact fun _ => ⟨⟨id, id, fun _ => id, fun _ => id⟩, id⟩
    | split

theorem execBusOff_kept {s₀ s t : State} {c : Fin 6} (hs : Kept s₀ s) (e : execBusOff c s = .next t) : Kept s₀ t := by
  unfold execBusOff at e
  cases e
  repeat' first
    | with_reducible assumption
    | with_reducible apply settle_kept
    | with_reducible apply txError_kept
    | (with_reducible refine foldl_kept _ ?_ _ ?_)
    | exact fun _ => ⟨⟨id, id, fun _ => id, fun _ => id⟩, id⟩
    | split

theorem execBusOffRecovery_kept {s₀ s t : State} {c : Fin 6} (hs : Kept s₀ s) (e : execBusOffRecovery c s = .next t) : Kept s₀ t := by
  unfold execBusOffRecovery at e
  cases e
  repeat' first
    | with_reducible assumption
    | with_reducible apply settle_kept
    | with_reducible apply State.wr_kept
    | (with_reducible refine foldl_kept _ ?_ _ ?_)
    | exact fun _ => ⟨⟨id, id, fun _ => id, fun _ => id⟩, id⟩
    | split

theorem execEntryMove_kept {s₀ s t : State} {c : Fin 6} (hs : Kept s₀ s) (e : execEntryMove c s = .next t) : Kept s₀ t := by
  unfold execEntryMove at e
  cases e
  repeat' first
    | with_reducible assumption
    | with_reducible apply settle_kept
    | with_reducible apply entryMove_kept
    | (with_reducible refine foldl_kept _ ?_ _ ?_)
    | exact fun _ => ⟨⟨id, id, fun _ => id, fun _ => id⟩, id⟩
    | split

end Sys2Proof.Machine
end

