-- ==== Sys2Proof/Laws/KeepOrders.lean ====
section
/-! SUPPORT. What the operations of Machine/Orders.lean keep (Laws/Keep.lean): one lemma for each. -/

namespace Sys2Proof.Machine

open Sys2Proof

theorem noteLoser_kept {s₀ s : State} (hs : Kept s₀ s) (w : Writer) : Kept s₀ (noteLoser s w) := by
  unfold noteLoser
  repeat' first
    | with_reducible assumption
    | with_reducible apply State.useFree_kept
    | with_reducible apply State.wrWord_kept
    | with_reducible apply State.wr_kept
    | with_reducible apply State.event_kept
    | with_reducible apply State.set1_kept
    | (with_reducible refine foldl_kept _ ?_ _ ?_)
    | (with_reducible refine foldr_kept _ ?_ _ ?_)
    | split

theorem noteLosers_kept {s₀ s : State} (hs : Kept s₀ s) : Kept s₀ (noteLosers s) := by
  unfold noteLosers
  repeat' first
    | with_reducible assumption
    | (extract_lets +onlyGivenNames t; refine (fun (g : Kept s₀ t) => ?_) ?_; clear_value t; rotate_left; subst t)
    | with_reducible apply noteLoser_kept
    | (with_reducible refine foldl_kept _ ?_ _ ?_)
    | (with_reducible refine foldr_kept _ ?_ _ ?_)
    | split
    | (intro t x y g)
    | (intro t x g)
    | (intro t g)
    | (extract_lets +onlyGivenNames t; clear_value t)
    | with_reducible apply Kept.update

theorem setPair_kept {s₀ s : State} (hs : Kept s₀ s) (k : Nat) (q : PairSt) : Kept s₀ (setPair s k q) := by
  unfold setPair
  repeat' first
    | with_reducible assumption
    | (with_reducible refine foldl_kept _ ?_ _ ?_)
    | (with_reducible refine foldr_kept _ ?_ _ ?_)
    | split
    | (intro t x y g)
    | (intro t x g)
    | (intro t g)
    | (extract_lets +onlyGivenNames t; clear_value t)
    | with_reducible apply Kept.update

theorem clearPort_kept {s₀ s : State} (hs : Kept s₀ s) (v : Vat) (p : Nat) : Kept s₀ (clearPort s v p) := by
  unfold clearPort
  repeat' first
    | with_reducible assumption
    | with_reducible apply setUnitState_kept
    | with_reducible apply State.vatEvent_kept
    | (with_reducible refine foldl_kept _ ?_ _ ?_)
    | (with_reducible refine foldr_kept _ ?_ _ ?_)
    | split

theorem markAsserted_kept {s₀ s : State} (hs : Kept s₀ s) : Kept s₀ (markAsserted s) := by
  unfold markAsserted
  repeat' first
    | with_reducible assumption
    | (with_reducible refine foldl_kept _ ?_ _ ?_)
    | (with_reducible refine foldr_kept _ ?_ _ ?_)
    | split
    | (intro t x y g)
    | (intro t x g)
    | (intro t g)
    | (extract_lets +onlyGivenNames t; clear_value t)
    | with_reducible apply Kept.update

theorem safeRestart_kept {s₀ s : State} (hs : Kept s₀ s) : Kept s₀ (safeRestart s) := by
  unfold safeRestart
  repeat' first
    | with_reducible assumption
    | with_reducible apply State.event_kept
    | with_reducible apply setDev_kept
    | with_reducible apply markAsserted_kept
    | with_reducible apply gateOn_kept
    | with_reducible apply State.clr_kept
    | (with_reducible refine foldl_kept _ ?_ _ ?_)
    | (with_reducible refine foldr_kept _ ?_ _ ?_)
    | split

theorem releasePattern_kept {s₀ s : State} (hs : Kept s₀ s) (p : Nat) : Kept s₀ (releasePattern s p) := by
  unfold releasePattern
  repeat' first
    | with_reducible assumption
    | with_reducible apply forVats_kept
    | with_reducible apply asctOver_kept
    | (with_reducible refine foldl_kept _ ?_ _ ?_)
    | (with_reducible refine foldr_kept _ ?_ _ ?_)
    | split
    | (intro t x y g)
    | (intro t x g)

theorem deviceOrders_kept {s₀ s : State} (hs : Kept s₀ s) (old : List (Nat × Int)) : Kept s₀ (deviceOrders s old) := by
  unfold deviceOrders
  repeat' first
    | with_reducible assumption
    | (extract_lets +onlyGivenNames t; refine (fun (g : Kept s₀ t) => ?_) ?_; clear_value t; rotate_left; subst t)
    | with_reducible apply takeSto_kept
    | with_reducible apply startSs1_kept
    | with_reducible apply safeRestart_kept
    | (with_reducible refine foldl_kept _ ?_ _ ?_)
    | (with_reducible refine foldr_kept _ ?_ _ ?_)
    | split

theorem portOrders_kept {s₀ s : State} (hs : Kept s₀ s) (old : List (Nat × Int)) (p : Nat) : Kept s₀ (portOrders s old p) := by
  unfold portOrders
  repeat' first
    | with_reducible assumption
    | (extract_lets +onlyGivenNames t; refine (fun (g : Kept s₀ t) => ?_) ?_; clear_value t; rotate_left; subst t)
    | with_reducible apply releasePattern_kept
    | with_reducible apply forVats_kept
    | with_reducible apply clearPort_kept
    | (with_reducible refine foldl_kept _ ?_ _ ?_)
    | (with_reducible refine foldr_kept _ ?_ _ ?_)
    | split
    | (intro t x y g)
    | (intro t x g)

theorem resolveOrders_kept {s₀ s : State} (hs : Kept s₀ s) : Kept s₀ (resolveOrders s) := by
  unfold resolveOrders
  repeat' first
    | with_reducible assumption
    | with_reducible apply noteLosers_kept
    | with_reducible apply forN_kept
    | with_reducible apply deviceOrders_kept
    | with_reducible apply portOrders_kept
    | (with_reducible refine foldl_kept _ ?_ _ ?_)
    | (with_reducible refine foldr_kept _ ?_ _ ?_)
    | split
    | (intro t x y g)
    | (intro t x g)
    | (intro t g)
    | (extract_lets +onlyGivenNames t; clear_value t)
    | with_reducible apply Kept.update

theorem refreshDemands_kept {s₀ s : State} (hs : Kept s₀ s) : Kept s₀ (refreshDemands s) := by
  unfold refreshDemands
  repeat' first
    | with_reducible assumption
    | (extract_lets +onlyGivenNames t; refine (fun (g : Kept s₀ t) => ?_) ?_; clear_value t; rotate_left; subst t)
    | with_reducible apply State.wr_kept
    | with_reducible apply State.event_kept
    | with_reducible apply State.set1_kept
    | with_reducible apply takeSto_kept
    | with_reducible apply startSs1_kept
    | (with_reducible refine foldl_kept _ ?_ _ ?_)
    | (with_reducible refine foldr_kept _ ?_ _ ?_)
    | split
    | (intro t x y g)
    | (intro t x g)
    | (intro t g)
    | (extract_lets +onlyGivenNames t; clear_value t)

theorem pairStep_kept {s₀ s : State} (hs : Kept s₀ s) (k : Nat) : Kept s₀ (pairStep s k) := by
  unfold pairStep
  repeat' first
    | with_reducible assumption
    | (extract_lets +onlyGivenNames t; refine (fun (g : Kept s₀ t) => ?_) ?_; clear_value t; rotate_left; subst t)
    | with_reducible apply setPair_kept
    | with_reducible apply State.clr_kept
    | (with_reducible refine foldl_kept _ ?_ _ ?_)
    | (with_reducible refine foldr_kept _ ?_ _ ?_)
    | split
    | (intro t x y g)
    | (intro t x g)
    | (intro t g)
    | (extract_lets +onlyGivenNames t; clear_value t)

theorem inputLevel_kept {s₀ s : State} (hs : Kept s₀ s) (i : Nat) (high : Bool) : Kept s₀ (inputLevel s i high) := by
  unfold inputLevel
  repeat' first
    | with_reducible assumption
    | with_reducible apply refreshDemands_kept
    | with_reducible apply pairStep_kept
    | with_reducible apply State.wrBit_kept
    | (with_reducible refine foldl_kept _ ?_ _ ?_)
    | (with_reducible refine foldr_kept _ ?_ _ ?_)
    | split

theorem judgeInputs_kept {s₀ s : State} (hs : Kept s₀ s) : Kept s₀ (judgeInputs s) := by
  unfold judgeInputs
  repeat' first
    | with_reducible assumption
    | with_reducible apply refreshDemands_kept
    | with_reducible apply pairStep_kept

theorem latchDiscrepancy_kept {s₀ s : State} (hs : Kept s₀ s) (k : Nat) : Kept s₀ (latchDiscrepancy s k) := by
  unfold latchDiscrepancy
  repeat' first
    | with_reducible assumption
    | (extract_lets +onlyGivenNames t; refine (fun (g : Kept s₀ t) => ?_) ?_; clear_value t; rotate_left; subst t)
    | with_reducible apply setPair_kept
    | with_reducible apply refreshDemands_kept
    | with_reducible apply State.event_kept
    | with_reducible apply State.set1_kept
    | (with_reducible refine foldl_kept _ ?_ _ ?_)
    | (with_reducible refine foldr_kept _ ?_ _ ?_)
    | split
    | (intro t x y g)
    | (intro t x g)
    | (intro t g)
    | (extract_lets +onlyGivenNames t; clear_value t)

theorem railFault_kept {s₀ s : State} (hs : Kept s₀ s) : Kept s₀ (railFault s) := by
  unfold railFault
  repeat' first
    | with_reducible assumption
    | with_reducible apply takeSto_kept
    | with_reducible apply State.flag_kept
    | with_reducible apply State.set1_kept
    | (with_reducible refine foldl_kept _ ?_ _ ?_)
    | (with_reducible refine foldr_kept _ ?_ _ ?_)
    | split

theorem ss1Timeout_kept {s₀ s : State} (hs : Kept s₀ s) : Kept s₀ (ss1Timeout s) := by
  unfold ss1Timeout
  repeat' first
    | with_reducible assumption
    | with_reducible apply enterSafeStop_kept
    | (with_reducible refine foldl_kept _ ?_ _ ?_)
    | (with_reducible refine foldr_kept _ ?_ _ ?_)
    | split

theorem rideExpiry_kept {s₀ s : State} (hs : Kept s₀ s) : Kept s₀ (rideExpiry s) := by
  unfold rideExpiry
  repeat' first
    | with_reducible assumption
    | with_reducible apply startSs1_kept
    | with_reducible apply State.event_kept
    | with_reducible apply State.set1_kept
    | (with_reducible refine foldl_kept _ ?_ _ ?_)
    | (with_reducible refine foldr_kept _ ?_ _ ?_)
    | split

theorem outOffDelay_kept {s₀ s : State} (hs : Kept s₀ s) (n : Nat) : Kept s₀ (outOffDelay s n) := by
  unfold outOffDelay
  repeat' first
    | with_reducible assumption
    | (extract_lets +onlyGivenNames t; refine (fun (g : Kept s₀ t) => ?_) ?_; clear_value t; rotate_left; subst t)
    | with_reducible apply State.wrBit_kept
    | (with_reducible refine foldl_kept _ ?_ _ ?_)
    | (with_reducible refine foldr_kept _ ?_ _ ?_)
    | split
    | (intro t x y g)
    | (intro t x g)
    | (intro t g)
    | (extract_lets +onlyGivenNames t; clear_value t)
    | with_reducible apply Kept.update

theorem setWait_kept {s₀ s : State} (hs : Kept s₀ s) (n : Nat) (b : Bool) : Kept s₀ (setWait s n b) := by
  unfold setWait
  repeat' first
    | with_reducible assumption
    | (with_reducible refine foldl_kept _ ?_ _ ?_)
    | (with_reducible refine foldr_kept _ ?_ _ ?_)
    | split
    | (intro t x y g)
    | (intro t x g)
    | (intro t g)
    | (extract_lets +onlyGivenNames t; clear_value t)
    | with_reducible apply Kept.update

theorem testPulseDue_kept {s₀ s : State} (hs : Kept s₀ s) (n : Nat) : Kept s₀ (testPulseDue s n) := by
  unfold testPulseDue
  repeat' first
    | with_reducible assumption
    | with_reducible apply setWait_kept
    | with_reducible apply State.wrBit_kept
    | (with_reducible refine foldl_kept _ ?_ _ ?_)
    | (with_reducible refine foldr_kept _ ?_ _ ?_)
    | split

theorem outFault_kept {s₀ s : State} (hs : Kept s₀ s) (n : Nat) (kind : Nat) (bit : Nat) (f : Field) : Kept s₀ (outFault s n kind bit f) := by
  unfold outFault
  repeat' first
    | with_reducible assumption
    | with_reducible apply safetyFault_kept
    | with_reducible apply State.event_kept
    | with_reducible apply State.set1_kept

theorem testPulseEnd_kept {s₀ s : State} (hs : Kept s₀ s) (n : Nat) (ok : Bool) (changed : Nat) : Kept s₀ (testPulseEnd s n ok changed) := by
  unfold testPulseEnd
  repeat' first
    | with_reducible assumption
    | (extract_lets +onlyGivenNames t; refine (fun (g : Kept s₀ t) => ?_) ?_; clear_value t; rotate_left; subst t)
    | with_reducible apply State.wrBit_kept
    | with_reducible apply State.incSat_kept
    | with_reducible apply outFault_kept
    | (with_reducible refine foldl_kept _ ?_ _ ?_)
    | (with_reducible refine foldr_kept _ ?_ _ ?_)
    | split
    | (intro t x y g)
    | (intro t x g)
    | (intro t g)
    | (extract_lets +onlyGivenNames t; clear_value t)
    | with_reducible apply Kept.update

theorem feedbackError_kept {s₀ s : State} (hs : Kept s₀ s) (n : Nat) : Kept s₀ (feedbackError s n) := by
  unfold feedbackError
  repeat' first
    | with_reducible assumption
    | with_reducible apply outFault_kept
    | (with_reducible refine foldl_kept _ ?_ _ ?_)
    | (with_reducible refine foldr_kept _ ?_ _ ?_)
    | split

theorem execOrderResolution_kept {s₀ s t : State}  (hs : Kept s₀ s) (e : execOrderResolution s = .next t) : Kept s₀ t := by
  unfold execOrderResolution at e
  cases e
  repeat' first
    | with_reducible assumption
    | with_reducible apply settle_kept
    | with_reducible apply resolveOrders_kept

theorem execHarpInDemand_kept {s₀ s t : State} {i : Fin 4} (hs : Kept s₀ s) (e : execHarpInDemand i s = .next t) : Kept s₀ t := by
  unfold execHarpInDemand at e
  cases e
  repeat' first
    | with_reducible assumption
    | with_reducible apply settle_kept
    | with_reducible apply inputLevel_kept

theorem execHarpInRelease_kept {s₀ s t : State} {i : Fin 4} (hs : Kept s₀ s) (e : execHarpInRelease i s = .next t) : Kept s₀ t := by
  unfold execHarpInRelease at e
  cases e
  repeat' first
    | with_reducible assumption
    | with_reducible apply settle_kept
    | with_reducible apply inputLevel_kept

theorem execDiscrepancyTimeout_kept {s₀ s t : State} {pairB : Bool} (hs : Kept s₀ s) (e : execDiscrepancyTimeout pairB s = .next t) : Kept s₀ t := by
  unfold execDiscrepancyTimeout at e
  cases e
  repeat' first
    | with_reducible assumption
    | with_reducible apply settle_kept
    | with_reducible apply latchDiscrepancy_kept

theorem execRailFault_kept {s₀ s t : State}  (hs : Kept s₀ s) (e : execRailFault s = .next t) : Kept s₀ t := by
  unfold execRailFault at e
  cases e
  repeat' first
    | with_reducible assumption
    | with_reducible apply settle_kept
    | with_reducible apply railFault_kept

theorem execSs1Timeout_kept {s₀ s t : State}  (hs : Kept s₀ s) (e : execSs1Timeout s = .next t) : Kept s₀ t := by
  unfold execSs1Timeout at e
  cases e
  repeat' first
    | with_reducible assumption
    | with_reducible apply settle_kept
    | with_reducible apply ss1Timeout_kept

theorem execRideExpiry_kept {s₀ s t : State}  (hs : Kept s₀ s) (e : execRideExpiry s = .next t) : Kept s₀ t := by
  unfold execRideExpiry at e
  cases e
  repeat' first
    | with_reducible assumption
    | with_reducible apply settle_kept
    | with_reducible apply rideExpiry_kept

theorem execHarpOutOffDelay_kept {s₀ s t : State} {n : Fin 4} (hs : Kept s₀ s) (e : execHarpOutOffDelay n s = .next t) : Kept s₀ t := by
  unfold execHarpOutOffDelay at e
  cases e
  repeat' first
    | with_reducible assumption
    | with_reducible apply settle_kept
    | with_reducible apply outOffDelay_kept

theorem execTestPulseDue_kept {s₀ s t : State} {n : Fin 4} (hs : Kept s₀ s) (e : execTestPulseDue n s = .next t) : Kept s₀ t := by
  unfold execTestPulseDue at e
  cases e
  repeat' first
    | with_reducible assumption
    | with_reducible apply settle_kept
    | with_reducible apply testPulseDue_kept

theorem execTestPulseEnd_kept {s₀ s t : State} {n : Fin 4} {offOk : Bool} {onOk : Bool} {changed : BitVec 4} (hs : Kept s₀ s) (e : execTestPulseEnd n offOk onOk changed s = .next t) : Kept s₀ t := by
  unfold execTestPulseEnd at e
  cases e
  repeat' first
    | with_reducible assumption
    | with_reducible apply settle_kept
    | with_reducible apply testPulseEnd_kept

theorem execFeedbackError_kept {s₀ s t : State} {n : Fin 4} (hs : Kept s₀ s) (e : execFeedbackError n s = .next t) : Kept s₀ t := by
  unfold execFeedbackError at e
  cases e
  repeat' first
    | with_reducible assumption
    | with_reducible apply settle_kept
    | with_reducible apply feedbackError_kept

end Sys2Proof.Machine
end

