-- ==== Sys2Proof/Laws/KeepNet.lean ====
section
/-! SUPPORT. What the operations of Machine/Net.lean keep (Laws/Keep.lean): one lemma for each. -/

namespace Sys2Proof.Machine

open Sys2Proof

theorem modNet_kept {s₀ s : State} (hs : Kept s₀ s) (f : NetSt → NetSt) : Kept s₀ (modNet s f) := by
  unfold modNet
  repeat' first
    | with_reducible assumption
    | (with_reducible refine foldl_kept _ ?_ _ ?_)
    | (with_reducible refine foldr_kept _ ?_ _ ?_)
    | split
    | (intro t x y g)
    | (intro t x g)
    | (intro t g)
    | with_reducible apply Kept.update

theorem loseSync_kept {s₀ s : State} (hs : Kept s₀ s) : Kept s₀ (loseSync s) := by
  unfold loseSync
  repeat' first
    | with_reducible assumption
    | (extract_lets +onlyGivenNames t; refine (fun (g : Kept s₀ t) => ?_) ?_; clear_value t; rotate_left; subst t)
    | with_reducible apply State.set1_kept
    | with_reducible apply modNet_kept
    | with_reducible apply loseRestAll_kept
    | with_reducible apply State.event_kept
    | with_reducible apply State.clr_kept
    | (with_reducible refine foldl_kept _ ?_ _ ?_)
    | (with_reducible refine foldr_kept _ ?_ _ ?_)
    | split

theorem gainSync_kept {s₀ s : State} (hs : Kept s₀ s) : Kept s₀ (gainSync s) := by
  unfold gainSync
  repeat' first
    | with_reducible assumption
    | with_reducible apply State.clr_kept
    | with_reducible apply State.event_kept
    | with_reducible apply State.set1_kept
    | (with_reducible refine foldl_kept _ ?_ _ ?_)
    | (with_reducible refine foldr_kept _ ?_ _ ?_)
    | split

theorem gmSync_kept {s₀ s : State} (hs : Kept s₀ s) : Kept s₀ (gmSync s) := by
  unfold gmSync
  repeat' first
    | with_reducible assumption
    | with_reducible apply gainSync_kept
    | (with_reducible refine foldl_kept _ ?_ _ ?_)
    | (with_reducible refine foldr_kept _ ?_ _ ?_)
    | split

theorem takeRole_kept {s₀ s : State} (hs : Kept s₀ s) (r : PtpRole) : Kept s₀ (takeRole s r) := by
  unfold takeRole
  repeat' first
    | with_reducible assumption
    | (extract_lets +onlyGivenNames t; refine (fun (g : Kept s₀ t) => ?_) ?_; clear_value t; rotate_left; subst t)
    | with_reducible apply modNet_kept
    | with_reducible apply gmSync_kept
    | with_reducible apply State.wr_kept
    | (with_reducible refine foldl_kept _ ?_ _ ?_)
    | (with_reducible refine foldr_kept _ ?_ _ ?_)
    | split

theorem dropForeign_kept {s₀ s : State} (hs : Kept s₀ s) (p : Nat) : Kept s₀ (dropForeign s p) := by
  unfold dropForeign
  repeat' first
    | with_reducible assumption
    | with_reducible apply modNet_kept

theorem applyStep_kept {s₀ s : State} (hs : Kept s₀ s) : Kept s₀ (applyStep s) := by
  unfold applyStep
  repeat' first
    | with_reducible assumption
    | with_reducible apply State.event_kept
    | with_reducible apply State.incSat_kept
    | with_reducible apply State.set1_kept
    | (with_reducible refine foldl_kept _ ?_ _ ?_)
    | (with_reducible refine foldr_kept _ ?_ _ ?_)
    | split
    | (intro t x y g)
    | (intro t x g)
    | (intro t g)
    | (extract_lets +onlyGivenNames t; clear_value t)
    | with_reducible apply Kept.update

theorem stepGo_kept {s₀ s : State} (hs : Kept s₀ s) : Kept s₀ (stepGo s) := by
  unfold stepGo
  repeat' first
    | with_reducible assumption
    | with_reducible apply applyStep_kept
    | (with_reducible refine foldl_kept _ ?_ _ ?_)
    | (with_reducible refine foldr_kept _ ?_ _ ?_)
    | split

theorem setFreq_kept {s₀ s : State} (hs : Kept s₀ s) (w : Word) : Kept s₀ (setFreq s w) := by
  unfold setFreq
  repeat' first
    | with_reducible assumption
    | with_reducible apply State.wr_kept

theorem takeOffset_kept {s₀ s : State} (hs : Kept s₀ s) (ns : Int) (freq : Word) : Kept s₀ (takeOffset s ns freq) := by
  unfold takeOffset
  repeat' first
    | with_reducible assumption
    | with_reducible apply modNet_kept
    | with_reducible apply stepGo_kept
    | with_reducible apply State.wrWord_kept
    | with_reducible apply setFreq_kept
    | with_reducible apply gainSync_kept
    | with_reducible apply loseSync_kept
    | with_reducible apply State.wr_kept
    | (with_reducible refine foldl_kept _ ?_ _ ?_)
    | (with_reducible refine foldr_kept _ ?_ _ ?_)
    | split
    | (intro t x y g)
    | (intro t x g)
    | (intro t g)
    | (extract_lets +onlyGivenNames t; clear_value t)
    | with_reducible apply Kept.update

theorem announceTimeout_kept {s₀ s : State} (hs : Kept s₀ s) (p : Fin 2) : Kept s₀ (announceTimeout s p) := by
  unfold announceTimeout
  repeat' first
    | with_reducible assumption
    | (extract_lets +onlyGivenNames t; refine (fun (g : Kept s₀ t) => ?_) ?_; clear_value t; rotate_left; subst t)
    | with_reducible apply State.set1_kept
    | with_reducible apply dropForeign_kept
    | with_reducible apply takeRole_kept
    | (with_reducible refine foldl_kept _ ?_ _ ?_)
    | (with_reducible refine foldr_kept _ ?_ _ ?_)
    | split

theorem throughClock_kept {s₀ s : State} (hs : Kept s₀ s) (p : Nat) (since : Int) (stamp : Nat) (f : List Byte) (o : Nat) : Kept s₀ (throughClock s p since stamp f o).1 := by
  unfold throughClock
  repeat' first
    | with_reducible assumption
    | with_reducible apply modNet_kept
    | with_reducible apply State.incSat_kept
    | (with_reducible refine foldl_kept _ ?_ _ ?_)
    | (with_reducible refine foldr_kept _ ?_ _ ?_)
    | split
    | (intro t x y g)
    | (intro t x g)
    | (intro t g)
    | (extract_lets +onlyGivenNames t; clear_value t)

theorem departing_kept {s₀ s : State} (hs : Kept s₀ s) (stamp : Nat) (f : QFrame) : Kept s₀ (departing s stamp f).1 := by
  unfold departing
  repeat' first
    | with_reducible assumption
    | with_reducible apply throughClock_kept
    | (with_reducible refine foldl_kept _ ?_ _ ?_)
    | (with_reducible refine foldr_kept _ ?_ _ ?_)
    | split

theorem transmit_kept {s₀ s : State} (hs : Kept s₀ s) (p : Nat) (f : QFrame) : Kept s₀ (transmit s p f) := by
  unfold transmit
  repeat' first
    | with_reducible assumption
    | with_reducible apply departing_kept
    | with_reducible apply modNet_kept

theorem drainPort_kept {s₀ s : State} (hs : Kept s₀ s) (p : Nat) : Kept s₀ (drainPort s p) := by
  unfold drainPort
  repeat' first
    | with_reducible assumption
    | with_reducible apply transmit_kept
    | with_reducible apply modNet_kept
    | (with_reducible refine foldl_kept _ ?_ _ ?_)
    | (with_reducible refine foldr_kept _ ?_ _ ?_)
    | split

theorem sendOn_kept {s₀ s : State} (hs : Kept s₀ s) (p : Nat) (q : Nat) (f : QFrame) : Kept s₀ (sendOn s p q f) := by
  unfold sendOn
  repeat' first
    | with_reducible assumption
    | with_reducible apply modNet_kept
    | with_reducible apply drainPort_kept
    | (with_reducible refine foldl_kept _ ?_ _ ?_)
    | (with_reducible refine foldr_kept _ ?_ _ ?_)
    | split

theorem sendOut_kept {s₀ s : State} (hs : Kept s₀ s) (p : Nat) (f : QFrame) : Kept s₀ (sendOut s p f) := by
  unfold sendOut
  repeat' first
    | with_reducible assumption
    | with_reducible apply sendOn_kept

theorem learn_kept {s₀ s : State} (hs : Kept s₀ s) (p : Nat) (f : List Byte) : Kept s₀ (learn s p f) := by
  unfold learn
  repeat' first
    | with_reducible assumption
    | with_reducible apply modNet_kept
    | (with_reducible refine foldl_kept _ ?_ _ ?_)
    | (with_reducible refine foldr_kept _ ?_ _ ?_)
    | split
    | (intro t x y g)
    | (intro t x g)
    | (intro t g)
    | (extract_lets +onlyGivenNames t; clear_value t)

theorem forward_kept {s₀ s : State} (hs : Kept s₀ s) (p : Nat) (raw : Nat) (f : List Byte) : Kept s₀ (forward s p raw f) := by
  unfold forward
  repeat' first
    | with_reducible assumption
    | (extract_lets +onlyGivenNames t; refine (fun (g : Kept s₀ t) => ?_) ?_; clear_value t; rotate_left; subst t)
    | with_reducible apply sendOut_kept
    | (with_reducible refine foldl_kept _ ?_ _ ?_)
    | (with_reducible refine foldr_kept _ ?_ _ ?_)
    | split
    | (intro t x y g)
    | (intro t x g)
    | (intro t g)
    | (extract_lets +onlyGivenNames t; clear_value t)

theorem hostSend_kept {s₀ s : State} (hs : Kept s₀ s) (p : Nat) (f : List Byte) : Kept s₀ (hostSend s p f) := by
  unfold hostSend
  repeat' first
    | with_reducible assumption
    | with_reducible apply sendOut_kept
    | with_reducible apply learn_kept

theorem enqueueLaunch_kept {s₀ s : State} (hs : Kept s₀ s) (p : Nat) (q : Nat) (launch : Nat) (f : List Byte) : Kept s₀ (enqueueLaunch s p q launch f) := by
  unfold enqueueLaunch
  repeat' first
    | with_reducible assumption
    | (extract_lets +onlyGivenNames t; refine (fun (g : Kept s₀ t) => ?_) ?_; clear_value t; rotate_left; subst t)
    | with_reducible apply learn_kept
    | with_reducible apply modNet_kept
    | with_reducible apply sendOn_kept
    | (with_reducible refine foldl_kept _ ?_ _ ?_)
    | (with_reducible refine foldr_kept _ ?_ _ ?_)
    | split

theorem restorationBroadcast_kept {s₀ s : State} (hs : Kept s₀ s) (v : Vat) (p : Nat) : Kept s₀ (restorationBroadcast s v p) := by
  unfold restorationBroadcast
  repeat' first
    | with_reducible assumption
    | with_reducible apply forVats_kept
    | with_reducible apply modGuard_kept
    | with_reducible apply enqueueLaunch_kept
    | with_reducible apply receiveRestAll_kept
    | (with_reducible refine foldl_kept _ ?_ _ ?_)
    | (with_reducible refine foldr_kept _ ?_ _ ?_)
    | split
    | (intro t x y g)
    | (intro t x g)

theorem answerDelay_kept {s₀ s : State} (hs : Kept s₀ s) (h : HeldPtp) (o : Nat) : Kept s₀ (answerDelay s h o) := by
  unfold answerDelay
  repeat' first
    | with_reducible assumption
    | with_reducible apply hostSend_kept
    | (with_reducible refine foldl_kept _ ?_ _ ?_)
    | (with_reducible refine foldr_kept _ ?_ _ ?_)
    | split
    | (intro t x y g)
    | (intro t x g)
    | (intro t g)
    | (extract_lets +onlyGivenNames t; clear_value t)

theorem hearAnnounce_kept {s₀ s : State} (hs : Kept s₀ s) (h : HeldPtp) (o : Nat) : Kept s₀ (hearAnnounce s h o) := by
  unfold hearAnnounce
  repeat' first
    | with_reducible assumption
    | with_reducible apply modNet_kept
    | with_reducible apply takeRole_kept
    | (with_reducible refine foldl_kept _ ?_ _ ?_)
    | (with_reducible refine foldr_kept _ ?_ _ ?_)
    | split

theorem processPtp_kept {s₀ s : State} (hs : Kept s₀ s) (h : HeldPtp) : Kept s₀ (processPtp s h) := by
  unfold processPtp
  repeat' first
    | with_reducible assumption
    | (extract_lets +onlyGivenNames t; refine (fun (g : Kept s₀ t) => ?_) ?_; clear_value t; rotate_left; subst t)
    | with_reducible apply hearAnnounce_kept
    | with_reducible apply answerDelay_kept
    | with_reducible apply takeOffset_kept
    | with_reducible apply modNet_kept
    | (with_reducible refine foldl_kept _ ?_ _ ?_)
    | (with_reducible refine foldr_kept _ ?_ _ ?_)
    | split

theorem takePtp_kept {s₀ s : State} (hs : Kept s₀ s) (h : HeldPtp) : Kept s₀ (takePtp s h) := by
  unfold takePtp
  repeat' first
    | with_reducible assumption
    | with_reducible apply processPtp_kept
    | with_reducible apply modNet_kept
    | (with_reducible refine foldl_kept _ ?_ _ ?_)
    | (with_reducible refine foldr_kept _ ?_ _ ?_)
    | split

theorem resumePtp_kept {s₀ s : State} (hs : Kept s₀ s) : Kept s₀ (resumePtp s) := by
  unfold resumePtp
  repeat' first
    | with_reducible assumption
    | with_reducible apply processPtp_kept
    | with_reducible apply modNet_kept
    | (with_reducible refine foldl_kept _ ?_ _ ?_)
    | (with_reducible refine foldr_kept _ ?_ _ ?_)
    | split
    | (intro t x y g)
    | (intro t x g)

theorem receiveEth_kept {s₀ s : State} (hs : Kept s₀ s) (p : Nat) (f : List Byte) (bad : Bool) (raw : Nat) (r : PtpResult) : Kept s₀ (receiveEth s p f bad raw r) := by
  unfold receiveEth
  repeat' first
    | with_reducible assumption
    | (extract_lets +onlyGivenNames t; refine (fun (g : Kept s₀ t) => ?_) ?_; clear_value t; rotate_left; subst t)
    | with_reducible apply State.flag_kept
    | with_reducible apply State.incSat_kept
    | with_reducible apply modNet_kept
    | with_reducible apply forward_kept
    | with_reducible apply learn_kept
    | with_reducible apply takePtp_kept
    | with_reducible apply receiveRestAll_kept
    | (with_reducible refine foldl_kept _ ?_ _ ?_)
    | (with_reducible refine foldr_kept _ ?_ _ ?_)
    | split
    | (intro t x y g)
    | (intro t x g)
    | (intro t g)
    | (extract_lets +onlyGivenNames t; clear_value t)

theorem countLate_kept {s₀ s : State} (hs : Kept s₀ s) (p : Nat) (q : Nat) (dropped : Bool) : Kept s₀ (countLate s p q dropped) := by
  unfold countLate
  repeat' first
    | with_reducible assumption
    | with_reducible apply State.event_kept
    | with_reducible apply State.incSat_kept

theorem launchHead_kept {s₀ s : State} (hs : Kept s₀ s) (p : Nat) (q : Nat) : Kept s₀ (launchHead s p q) := by
  unfold launchHead
  repeat' first
    | with_reducible assumption
    | (extract_lets +onlyGivenNames t; refine (fun (g : Kept s₀ t) => ?_) ?_; clear_value t; rotate_left; subst t)
    | with_reducible apply modNet_kept
    | with_reducible apply countLate_kept
    | with_reducible apply transmit_kept
    | (with_reducible refine foldl_kept _ ?_ _ ?_)
    | (with_reducible refine foldr_kept _ ?_ _ ?_)
    | split
    | (intro t x y g)
    | (intro t x g)
    | (intro t g)
    | (extract_lets +onlyGivenNames t; clear_value t)

theorem linkLoss_kept {s₀ s : State} (hs : Kept s₀ s) (p : Nat) : Kept s₀ (linkLoss s p) := by
  unfold linkLoss
  repeat' first
    | with_reducible assumption
    | (extract_lets +onlyGivenNames t; refine (fun (g : Kept s₀ t) => ?_) ?_; clear_value t; rotate_left; subst t)
    | with_reducible apply State.event_kept
    | with_reducible apply State.set1_kept
    | with_reducible apply State.clr_kept
    | with_reducible apply dropForeign_kept
    | with_reducible apply modNet_kept
    | with_reducible apply loseSync_kept
    | (with_reducible refine foldl_kept _ ?_ _ ?_)
    | (with_reducible refine foldr_kept _ ?_ _ ?_)
    | split

theorem capture_kept {s₀ s : State} (hs : Kept s₀ s) (req : Bool) (pps : Bool) : Kept s₀ (capture s req pps) := by
  unfold capture
  repeat' first
    | with_reducible assumption
    | with_reducible apply forN_kept
    | with_reducible apply State.wr_kept
    | with_reducible apply State.incWrap_kept
    | (with_reducible refine foldl_kept _ ?_ _ ?_)
    | (with_reducible refine foldr_kept _ ?_ _ ?_)
    | split
    | (intro t x y g)
    | (intro t x g)

theorem ppsIn_kept {s₀ s : State} (hs : Kept s₀ s) (rising : Bool) (req : Bool) : Kept s₀ (ppsIn s rising req) := by
  unfold ppsIn
  repeat' first
    | with_reducible assumption
    | (extract_lets +onlyGivenNames t; refine (fun (g : Kept s₀ t) => ?_) ?_; clear_value t; rotate_left; subst t)
    | with_reducible apply capture_kept
    | with_reducible apply modNet_kept
    | with_reducible apply State.incWrap_kept
    | with_reducible apply State.flag_kept
    | (with_reducible refine foldl_kept _ ?_ _ ?_)
    | (with_reducible refine foldr_kept _ ?_ _ ?_)
    | split
    | (intro t x y g)
    | (intro t x g)
    | (intro t g)
    | (extract_lets +onlyGivenNames t; clear_value t)

theorem ppsSecond_kept {s₀ s : State} (hs : Kept s₀ s) : Kept s₀ (ppsSecond s) := by
  unfold ppsSecond
  repeat' first
    | with_reducible assumption
    | with_reducible apply modNet_kept
    | (with_reducible refine foldl_kept _ ?_ _ ?_)
    | (with_reducible refine foldr_kept _ ?_ _ ?_)
    | split

theorem execStepGo_kept {s₀ s t : State}  (hs : Kept s₀ s) (e : execStepGo s = .next t) : Kept s₀ t := by
  unfold execStepGo at e
  cases e
  repeat' first
    | with_reducible assumption
    | with_reducible apply settle_kept
    | with_reducible apply stepGo_kept
    | (with_reducible refine foldl_kept _ ?_ _ ?_)
    | exact fun _ => ⟨⟨id, id, fun _ => id, fun _ => id⟩, id⟩
    | split

theorem execNtSyncLoss_kept {s₀ s t : State}  (hs : Kept s₀ s) (e : execNtSyncLoss s = .next t) : Kept s₀ t := by
  unfold execNtSyncLoss at e
  cases e
  repeat' first
    | with_reducible assumption
    | with_reducible apply settle_kept
    | with_reducible apply loseSync_kept
    | (with_reducible refine foldl_kept _ ?_ _ ?_)
    | exact fun _ => ⟨⟨id, id, fun _ => id, fun _ => id⟩, id⟩
    | split

theorem execAnnounceReceiptTimeout_kept {s₀ s t : State} {p : Fin 2} (hs : Kept s₀ s) (e : execAnnounceReceiptTimeout p s = .next t) : Kept s₀ t := by
  unfold execAnnounceReceiptTimeout at e
  cases e
  repeat' first
    | with_reducible assumption
    | with_reducible apply settle_kept
    | with_reducible apply announceTimeout_kept
    | (with_reducible refine foldl_kept _ ?_ _ ?_)
    | exact fun _ => ⟨⟨id, id, fun _ => id, fun _ => id⟩, id⟩
    | split

theorem execRestorationBroadcast_kept {s₀ s t : State} {p : Fin 8} (hs : Kept s₀ s) (e : execRestorationBroadcast p s = .next t) : Kept s₀ t := by
  unfold execRestorationBroadcast at e
  cases e
  repeat' first
    | with_reducible assumption
    | with_reducible apply settle_kept
    | with_reducible apply restorationBroadcast_kept
    | (with_reducible refine foldl_kept _ ?_ _ ?_)
    | exact fun _ => ⟨⟨id, id, fun _ => id, fun _ => id⟩, id⟩
    | split

theorem execEthFrameRx_kept {s₀ s t : State} {p : Fin 2} {frame : List Byte} {bad : Bool} {residence : Nat} {ptp : PtpResult} (hs : Kept s₀ s) (e : execEthFrameRx p frame bad residence ptp s = .next t) : Kept s₀ t := by
  unfold execEthFrameRx at e
  cases e
  repeat' first
    | with_reducible assumption
    | with_reducible apply settle_kept
    | with_reducible apply receiveEth_kept
    | (with_reducible refine foldl_kept _ ?_ _ ?_)
    | exact fun _ => ⟨⟨id, id, fun _ => id, fun _ => id⟩, id⟩
    | split

theorem execAddressAgeing_kept {s₀ s t : State} {mac : BitVec 48} (hs : Kept s₀ s) (e : execAddressAgeing mac s = .next t) : Kept s₀ t := by
  unfold execAddressAgeing at e
  cases e
  repeat' first
    | with_reducible assumption
    | with_reducible apply settle_kept
    | with_reducible apply modNet_kept
    | (with_reducible refine foldl_kept _ ?_ _ ?_)
    | exact fun _ => ⟨⟨id, id, fun _ => id, fun _ => id⟩, id⟩
    | split

theorem execPtpMessageInterval_kept {s₀ s t : State} {m : PtpMessage} (hs : Kept s₀ s) (e : execPtpMessageInterval m s = .next t) : Kept s₀ t := by
  unfold execPtpMessageInterval at e
  cases e
  repeat' first
    | with_reducible assumption
    | with_reducible apply settle_kept
    | with_reducible apply modNet_kept
    | with_reducible apply hostSend_kept
    | (with_reducible refine foldl_kept _ ?_ _ ?_)
    | exact fun _ => ⟨⟨id, id, fun _ => id, fun _ => id⟩, id⟩
    | split
    | (intro t x g)

theorem execLaunchTimeDue_kept {s₀ s t : State} {p : Fin 2} {q : Fin 8} (hs : Kept s₀ s) (e : execLaunchTimeDue p q s = .next t) : Kept s₀ t := by
  unfold execLaunchTimeDue at e
  cases e
  repeat' first
    | with_reducible assumption
    | with_reducible apply settle_kept
    | with_reducible apply launchHead_kept
    | (with_reducible refine foldl_kept _ ?_ _ ?_)
    | exact fun _ => ⟨⟨id, id, fun _ => id, fun _ => id⟩, id⟩
    | split

theorem execEthLinkLoss_kept {s₀ s t : State} {p : Fin 2} (hs : Kept s₀ s) (e : execEthLinkLoss p s = .next t) : Kept s₀ t := by
  unfold execEthLinkLoss at e
  cases e
  repeat' first
    | with_reducible assumption
    | with_reducible apply settle_kept
    | with_reducible apply linkLoss_kept
    | (with_reducible refine foldl_kept _ ?_ _ ?_)
    | exact fun _ => ⟨⟨id, id, fun _ => id, fun _ => id⟩, id⟩
    | split

theorem execEthLinkUp_kept {s₀ s t : State} {p : Fin 2} {speed : BitVec 2} (hs : Kept s₀ s) (e : execEthLinkUp p speed s = .next t) : Kept s₀ t := by
  unfold execEthLinkUp at e
  cases e
  repeat' first
    | with_reducible assumption
    | with_reducible apply settle_kept
    | with_reducible apply gmSync_kept
    | with_reducible apply State.wr_kept
    | with_reducible apply State.set1_kept
    | (with_reducible refine foldl_kept _ ?_ _ ?_)
    | exact fun _ => ⟨⟨id, id, fun _ => id, fun _ => id⟩, id⟩
    | split

theorem execCtsReq_kept {s₀ s t : State}  (hs : Kept s₀ s) (e : execCtsReq s = .next t) : Kept s₀ t := by
  unfold execCtsReq at e
  cases e
  repeat' first
    | with_reducible assumption
    | with_reducible apply settle_kept
    | with_reducible apply capture_kept
    | (with_reducible refine foldl_kept _ ?_ _ ?_)
    | exact fun _ => ⟨⟨id, id, fun _ => id, fun _ => id⟩, id⟩
    | split

theorem execPpsInEdge_kept {s₀ s t : State} {rising : Bool} {req : Bool} (hs : Kept s₀ s) (e : execPpsInEdge rising req s = .next t) : Kept s₀ t := by
  unfold execPpsInEdge at e
  cases e
  repeat' first
    | with_reducible assumption
    | with_reducible apply settle_kept
    | with_reducible apply ppsIn_kept
    | (with_reducible refine foldl_kept _ ?_ _ ?_)
    | exact fun _ => ⟨⟨id, id, fun _ => id, fun _ => id⟩, id⟩
    | split

theorem execPpsOutSecond_kept {s₀ s t : State}  (hs : Kept s₀ s) (e : execPpsOutSecond s = .next t) : Kept s₀ t := by
  unfold execPpsOutSecond at e
  cases e
  repeat' first
    | with_reducible assumption
    | with_reducible apply settle_kept
    | with_reducible apply ppsSecond_kept

theorem execInternalCrossCapture_kept {s₀ s t : State}  (hs : Kept s₀ s) (e : execInternalCrossCapture s = .next t) : Kept s₀ t := by
  unfold execInternalCrossCapture at e
  cases e
  repeat' first
    | with_reducible assumption
    | with_reducible apply settle_kept
    | (with_reducible refine foldl_kept _ ?_ _ ?_)
    | exact fun _ => ⟨⟨id, id, fun _ => id, fun _ => id⟩, id⟩
    | split
    | (intro t x g)
    | (intro t g)
    | (extract_lets +onlyGivenNames t; clear_value t)
    | with_reducible apply Kept.update

end Sys2Proof.Machine
end

