-- ==== Sys2Proof/Laws/KeepRind.lean ====
section
/-! SUPPORT. What the operations of Machine/Rind.lean keep (Laws/Keep.lean): one lemma for each. -/

namespace Sys2Proof.Machine

open Sys2Proof

theorem modRind_kept {s₀ s : State} (hs : Kept s₀ s) (f : RindSt → RindSt) : Kept s₀ (modRind s f) := by
  unfold modRind
  repeat' first
    | with_reducible assumption
    | (with_reducible refine foldl_kept _ ?_ _ ?_)
    | (with_reducible refine foldr_kept _ ?_ _ ?_)
    | split
    | (intro t x y g)
    | (intro t x g)
    | (intro t g)
    | with_reducible apply Kept.update

theorem putParBytes_kept {s₀ s : State} (hs : Kept s₀ s) (i : Nat) (bs : List Byte) : Kept s₀ (putParBytes s i bs) := by
  unfold putParBytes
  repeat' first
    | with_reducible assumption
    | with_reducible apply modRind_kept

theorem tapRestart_kept {s₀ s : State} (hs : Kept s₀ s) : Kept s₀ (tapRestart s) := by
  unfold tapRestart
  repeat' first
    | with_reducible assumption
    | with_reducible apply modRind_kept
    | with_reducible apply State.clr_kept

theorem tapBegin_kept {s₀ s : State} (hs : Kept s₀ s) : Kept s₀ (tapBegin s) := by
  unfold tapBegin
  repeat' first
    | with_reducible assumption
    | with_reducible apply modRind_kept
    | with_reducible apply State.set1_kept
    | with_reducible apply State.wr_kept
    | (with_reducible refine foldl_kept _ ?_ _ ?_)
    | (with_reducible refine foldr_kept _ ?_ _ ?_)
    | split

theorem bumpPub_kept {s₀ s : State} (hs : Kept s₀ s) : Kept s₀ (bumpPub s) := by
  unfold bumpPub
  repeat' first
    | with_reducible assumption
    | (extract_lets +onlyGivenNames t; refine (fun (g : Kept s₀ t) => ?_) ?_; clear_value t; rotate_left; subst t)
    | with_reducible apply State.wr_kept
    | with_reducible apply State.clr_kept
    | (with_reducible refine foldl_kept _ ?_ _ ?_)
    | (with_reducible refine foldr_kept _ ?_ _ ?_)
    | split

theorem publishStatus_kept {s₀ s : State} (hs : Kept s₀ s) : Kept s₀ (publishStatus s) := by
  unfold publishStatus
  repeat' first
    | with_reducible assumption
    | with_reducible apply forN_kept
    | with_reducible apply State.wr_kept
    | with_reducible apply State.wrWord_kept
    | (with_reducible refine foldl_kept _ ?_ _ ?_)
    | (with_reducible refine foldr_kept _ ?_ _ ?_)
    | split
    | (intro t x y g)
    | (intro t x g)

theorem drainPulse_kept {s₀ s : State} (hs : Kept s₀ s) : Kept s₀ (drainPulse s) := by
  unfold drainPulse
  repeat' first
    | with_reducible assumption
    | with_reducible apply modRind_kept
    | (with_reducible refine foldl_kept _ ?_ _ ?_)
    | (with_reducible refine foldr_kept _ ?_ _ ?_)
    | split

theorem refillBudget_kept {s₀ s : State} (hs : Kept s₀ s) : Kept s₀ (refillBudget s) := by
  unfold refillBudget
  repeat' first
    | with_reducible assumption
    | with_reducible apply modRind_kept

theorem impulse_kept {s₀ s : State} (hs : Kept s₀ s) : Kept s₀ (impulse s) := by
  unfold impulse
  repeat' first
    | with_reducible assumption
    | (extract_lets +onlyGivenNames t; refine (fun (g : Kept s₀ t) => ?_) ?_; clear_value t; rotate_left; subst t)
    | with_reducible apply modRind_kept
    | (with_reducible refine foldl_kept _ ?_ _ ?_)
    | (with_reducible refine foldr_kept _ ?_ _ ?_)
    | split

theorem sessFlag_kept {s₀ s : State} (hs : Kept s₀ s) (bit : Nat) : Kept s₀ (sessFlag s bit) := by
  unfold sessFlag
  repeat' first
    | with_reducible assumption
    | with_reducible apply modRind_kept

theorem closeSession_kept {s₀ s : State} (hs : Kept s₀ s) (endMt : Nat) (e : List Nat) (extra : Nat) : Kept s₀ (closeSession s endMt e extra) := by
  unfold closeSession
  repeat' first
    | with_reducible assumption
    | with_reducible apply modRind_kept
    | with_reducible apply State.useFree_kept
    | with_reducible apply forN_kept
    | with_reducible apply State.wr_kept
    | (with_reducible refine foldl_kept _ ?_ _ ?_)
    | (with_reducible refine foldr_kept _ ?_ _ ?_)
    | split
    | (intro t x y g)
    | (intro t x g)

theorem openSession_kept {s₀ s : State} (hs : Kept s₀ s) (before : List Nat) : Kept s₀ (openSession s before) := by
  unfold openSession
  repeat' first
    | with_reducible assumption
    | with_reducible apply modRind_kept

theorem sessionStep_kept {s₀ s : State} (hs : Kept s₀ s) (above : Bool) (before : List Nat) : Kept s₀ (sessionStep s above before) := by
  unfold sessionStep
  repeat' first
    | with_reducible assumption
    | (extract_lets +onlyGivenNames t; refine (fun (g : Kept s₀ t) => ?_) ?_; clear_value t; rotate_left; subst t)
    | with_reducible apply openSession_kept
    | with_reducible apply modRind_kept
    | with_reducible apply closeSession_kept
    | (with_reducible refine foldl_kept _ ?_ _ ?_)
    | (with_reducible refine foldr_kept _ ?_ _ ?_)
    | split
    | (intro t x y g)
    | (intro t x g)
    | (intro t g)
    | (extract_lets +onlyGivenNames t; clear_value t)

theorem meterPeriod_kept {s₀ s : State} (hs : Kept s₀ s) (bits : BitVec 2048) : Kept s₀ (meterPeriod s bits) := by
  unfold meterPeriod
  repeat' first
    | with_reducible assumption
    | (extract_lets +onlyGivenNames t; refine (fun (g : Kept s₀ t) => ?_) ?_; clear_value t; rotate_left; subst t)
    | with_reducible apply modRind_kept
    | with_reducible apply sessFlag_kept
    | (with_reducible refine foldl_kept _ ?_ _ ?_)
    | (with_reducible refine foldr_kept _ ?_ _ ?_)
    | split
    | (intro t x y g)
    | (intro t x g)
    | (intro t g)
    | (extract_lets +onlyGivenNames t; clear_value t)

theorem meter_kept {s₀ s : State} (hs : Kept s₀ s) (bits : MeterBits) : Kept s₀ (meter s bits) := by
  unfold meter
  repeat' first
    | with_reducible assumption
    | with_reducible apply meterPeriod_kept
    | (with_reducible refine foldl_kept _ ?_ _ ?_)
    | (with_reducible refine foldr_kept _ ?_ _ ?_)
    | split
    | (intro t x y g)
    | (intro t x g)

theorem addEnergy_kept {s₀ s : State} (hs : Kept s₀ s) (i : Nat) (n : Nat) : Kept s₀ (addEnergy s i n) := by
  unfold addEnergy
  repeat' first
    | with_reducible assumption
    | with_reducible apply modRind_kept

theorem meterSecond_kept {s₀ s : State} (hs : Kept s₀ s) : Kept s₀ (meterSecond s) := by
  unfold meterSecond
  repeat' first
    | with_reducible assumption
    | with_reducible apply addEnergy_kept

theorem clearSecond_kept {s₀ s : State} (hs : Kept s₀ s) : Kept s₀ (clearSecond s) := by
  unfold clearSecond
  repeat' first
    | with_reducible assumption
    | with_reducible apply modRind_kept

theorem writeSlot_kept {s₀ s : State} (hs : Kept s₀ s) : Kept s₀ (writeSlot s) := by
  unfold writeSlot
  repeat' first
    | with_reducible assumption
    | with_reducible apply modRind_kept

theorem publishInput_kept {s₀ s : State} (hs : Kept s₀ s) (i : Nat) : Kept s₀ (publishInput s i) := by
  unfold publishInput
  repeat' first
    | with_reducible assumption
    | (extract_lets +onlyGivenNames t; refine (fun (g : Kept s₀ t) => ?_) ?_; clear_value t; rotate_left; subst t)
    | with_reducible apply State.wrWord_kept
    | with_reducible apply State.wr_kept
    | with_reducible apply modRind_kept

theorem commit_kept {s₀ s : State} (hs : Kept s₀ s) (bits : MeterBits) : Kept s₀ (commit s bits) := by
  unfold commit
  repeat' first
    | with_reducible assumption
    | (extract_lets +onlyGivenNames t; refine (fun (g : Kept s₀ t) => ?_) ?_; clear_value t; rotate_left; subst t)
    | with_reducible apply meter_kept
    | with_reducible apply refillBudget_kept
    | with_reducible apply drainPulse_kept
    | with_reducible apply meterSecond_kept
    | with_reducible apply sessionStep_kept
    | with_reducible apply writeSlot_kept
    | with_reducible apply modRind_kept
    | with_reducible apply bumpPub_kept
    | with_reducible apply publishStatus_kept
    | with_reducible apply clearSecond_kept
    | with_reducible apply forN_kept
    | with_reducible apply publishInput_kept
    | (with_reducible refine foldl_kept _ ?_ _ ?_)
    | (with_reducible refine foldr_kept _ ?_ _ ?_)
    | split
    | (intro t x y g)
    | (intro t x g)

theorem brownoutWarning_kept {s₀ s : State} (hs : Kept s₀ s) : Kept s₀ (brownoutWarning s) := by
  unfold brownoutWarning
  repeat' first
    | with_reducible assumption
    | (extract_lets +onlyGivenNames t; refine (fun (g : Kept s₀ t) => ?_) ?_; clear_value t; rotate_left; subst t)
    | with_reducible apply meter_kept
    | with_reducible apply State.useFree_kept
    | with_reducible apply writeSlot_kept
    | with_reducible apply modRind_kept
    | with_reducible apply meterSecond_kept
    | (with_reducible refine foldl_kept _ ?_ _ ?_)
    | (with_reducible refine foldr_kept _ ?_ _ ?_)
    | split

theorem publish_kept {s₀ s : State} (hs : Kept s₀ s) (bits : MeterBits) : Kept s₀ (publish s bits) := by
  unfold publish
  repeat' first
    | with_reducible assumption
    | (extract_lets +onlyGivenNames t; refine (fun (g : Kept s₀ t) => ?_) ?_; clear_value t; rotate_left; subst t)
    | with_reducible apply meter_kept
    | with_reducible apply addEnergy_kept
    | with_reducible apply forN_kept
    | with_reducible apply State.wrWord_kept
    | with_reducible apply bumpPub_kept
    | with_reducible apply modRind_kept
    | (with_reducible refine foldl_kept _ ?_ _ ?_)
    | (with_reducible refine foldr_kept _ ?_ _ ?_)
    | split
    | (intro t x y g)
    | (intro t x g)

theorem setStale_kept {s₀ s : State} (hs : Kept s₀ s) (i : Nat) (b : Bool) : Kept s₀ (setStale s i b) := by
  unfold setStale
  repeat' first
    | with_reducible assumption
    | with_reducible apply modRind_kept

theorem checkRom_kept {s₀ s : State} (hs : Kept s₀ s) (ok : Bool) : Kept s₀ (checkRom s ok) := by
  unfold checkRom
  repeat' first
    | with_reducible assumption
    | with_reducible apply modRind_kept
    | with_reducible apply State.useFree_kept
    | (with_reducible refine foldl_kept _ ?_ _ ?_)
    | (with_reducible refine foldr_kept _ ?_ _ ?_)
    | split

theorem checkPars_kept {s₀ s : State} (hs : Kept s₀ s) (ok0 : Bool) (ok1 : Bool) : Kept s₀ (checkPars s ok0 ok1) := by
  unfold checkPars
  repeat' first
    | with_reducible assumption
    | with_reducible apply modRind_kept

theorem clearWindow_kept {s₀ s : State} (hs : Kept s₀ s) : Kept s₀ (clearWindow s) := by
  unfold clearWindow
  repeat' first
    | with_reducible assumption
    | (extract_lets +onlyGivenNames t; refine (fun (g : Kept s₀ t) => ?_) ?_; clear_value t; rotate_left; subst t)
    | with_reducible apply State.wrWord_kept
    | with_reducible apply forN_kept
    | with_reducible apply State.wr_kept
    | (with_reducible refine foldl_kept _ ?_ _ ?_)
    | (with_reducible refine foldr_kept _ ?_ _ ?_)
    | split
    | (intro t x y g)
    | (intro t x g)

theorem rindReset_kept {s₀ s : State} (hs : Kept s₀ s) (watchdog : Bool) (romOk : Bool) (par0 : Bool) (par1 : Bool) (slots : BitVec 32) : Kept s₀ (rindReset s watchdog romOk par0 par1 slots) := by
  unfold rindReset
  repeat' first
    | with_reducible assumption
    | with_reducible apply modRind_kept
    | with_reducible apply clearWindow_kept
    | with_reducible apply closeSession_kept
    | with_reducible apply checkPars_kept
    | with_reducible apply checkRom_kept
    | with_reducible apply publishStatus_kept
    | with_reducible apply tapRestart_kept
    | (with_reducible refine foldl_kept _ ?_ _ ?_)
    | (with_reducible refine foldr_kept _ ?_ _ ?_)
    | split
    | (intro t x y g)
    | (intro t x g)
    | (intro t g)
    | (extract_lets +onlyGivenNames t; clear_value t)
    | with_reducible apply Kept.update

theorem auditWrite_kept {s₀ s : State} (hs : Kept s₀ s) (id : Nat) (old : Word) : Kept s₀ (auditWrite s id old) := by
  unfold auditWrite
  repeat' first
    | with_reducible assumption
    | (extract_lets +onlyGivenNames t; refine (fun (g : Kept s₀ t) => ?_) ?_; clear_value t; rotate_left; subst t)
    | with_reducible apply modRind_kept
    | with_reducible apply sessFlag_kept

theorem sealWrite_kept {s₀ s t : State} (hs : Kept s₀ s) {id : Nat} {bs : List Byte} (e : sealWrite s id bs = some t) :
    Kept s₀ t := by
  unfold sealWrite at e
  split at e
  · cases e
  · split at e
    · cases e
    · cases e
      refine auditWrite_kept ?_ _ _
      split
      · exact putParBytes_kept hs _ _
      · exact tapRestart_kept (putParBytes_kept hs _ _)

theorem respond_kept {s₀ s : State} (hs : Kept s₀ s) (cmd : Nat) (status : Nat) (payload : List Byte) : Kept s₀ (respond s cmd status payload) := by
  unfold respond
  repeat' first
    | with_reducible assumption
    | with_reducible apply modRind_kept

theorem setMt_kept {s₀ s : State} (hs : Kept s₀ s) (mt : Nat) : Kept s₀ (setMt s mt) := by
  unfold setMt
  repeat' first
    | with_reducible assumption
    | with_reducible apply auditWrite_kept
    | with_reducible apply modRind_kept
    | with_reducible apply State.useFree_kept

theorem badPortFrame_kept {s₀ s : State} (hs : Kept s₀ s) (f : List Byte) : Kept s₀ (badPortFrame s f) := by
  unfold badPortFrame
  repeat' first
    | with_reducible assumption
    | with_reducible apply respond_kept
    | with_reducible apply State.useFree_kept
    | (with_reducible refine foldl_kept _ ?_ _ ?_)
    | (with_reducible refine foldr_kept _ ?_ _ ?_)
    | split

theorem strayFrame_kept {s₀ s : State} (hs : Kept s₀ s) (f : List Byte) : Kept s₀ (strayFrame s f) := by
  unfold strayFrame
  repeat' first
    | with_reducible assumption
    | with_reducible apply badPortFrame_kept
    | with_reducible apply respond_kept
    | (with_reducible refine foldl_kept _ ?_ _ ?_)
    | (with_reducible refine foldr_kept _ ?_ _ ?_)
    | split

theorem takeCorr_kept {s₀ s : State} (hs : Kept s₀ s) (m : List Byte) : Kept s₀ (takeCorr s m) := by
  unfold takeCorr
  repeat' first
    | with_reducible assumption
    | (extract_lets +onlyGivenNames t; refine (fun (g : Kept s₀ t) => ?_) ?_; clear_value t; rotate_left; subst t)
    | with_reducible apply refillBudget_kept
    | with_reducible apply modRind_kept
    | with_reducible apply sessFlag_kept
    | (with_reducible refine foldl_kept _ ?_ _ ?_)
    | (with_reducible refine foldr_kept _ ?_ _ ?_)
    | split
    | (intro t x y g)
    | (intro t x g)
    | (intro t g)
    | (extract_lets +onlyGivenNames t; clear_value t)

theorem tapOutput_kept {s₀ s : State} (hs : Kept s₀ s) (x : Int) (stale : Bool) : Kept s₀ (tapOutput s x stale) := by
  unfold tapOutput
  repeat' first
    | with_reducible assumption
    | with_reducible apply State.clr_kept
    | with_reducible apply State.wr_kept
    | (with_reducible refine foldl_kept _ ?_ _ ?_)
    | (with_reducible refine foldr_kept _ ?_ _ ?_)
    | split
    | (intro t x y g)
    | (intro t x g)
    | (intro t g)
    | (extract_lets +onlyGivenNames t; clear_value t)

theorem tapSample_kept {s₀ s : State} (hs : Kept s₀ s) (bits : BitVec 128) : Kept s₀ (tapSample s bits) := by
  unfold tapSample
  repeat' first
    | with_reducible assumption
    | (extract_lets +onlyGivenNames t; refine (fun (g : Kept s₀ t) => ?_) ?_; clear_value t; rotate_left; subst t)
    | with_reducible apply tapBegin_kept
    | with_reducible apply modRind_kept
    | with_reducible apply State.flag_kept
    | with_reducible apply State.incWrap_kept
    | with_reducible apply State.wr_kept
    | with_reducible apply tapOutput_kept
    | (with_reducible refine foldl_kept _ ?_ _ ?_)
    | (with_reducible refine foldr_kept _ ?_ _ ?_)
    | split

theorem rindDown_kept {s₀ s : State} (hs : Kept s₀ s) (power : Bool) : Kept s₀ (rindDown s power) := by
  unfold rindDown
  repeat' first
    | with_reducible assumption
    | (extract_lets +onlyGivenNames t; refine (fun (g : Kept s₀ t) => ?_) ?_; clear_value t; rotate_left; subst t)
    | with_reducible apply modRind_kept
    | with_reducible apply tapRestart_kept
    | with_reducible apply State.flag_kept
    | with_reducible apply State.set1_kept
    | (with_reducible refine foldl_kept _ ?_ _ ?_)
    | (with_reducible refine foldr_kept _ ?_ _ ?_)
    | split

theorem execEnergyImpulse_kept {s₀ s t : State}  (hs : Kept s₀ s) (e : execEnergyImpulse s = .next t) : Kept s₀ t := by
  unfold execEnergyImpulse at e
  cases e
  repeat' first
    | with_reducible assumption
    | with_reducible apply settle_kept
    | with_reducible apply impulse_kept
    | (with_reducible refine foldl_kept _ ?_ _ ?_)
    | exact fun _ => ⟨⟨id, id, fun _ => id, fun _ => id⟩, id⟩
    | split

theorem execCommitSlot_kept {s₀ s t : State} {bits : MeterBits} (hs : Kept s₀ s) (e : execCommitSlot bits s = .next t) : Kept s₀ t := by
  unfold execCommitSlot at e
  cases e
  repeat' first
    | with_reducible assumption
    | with_reducible apply settle_kept
    | with_reducible apply commit_kept
    | (with_reducible refine foldl_kept _ ?_ _ ?_)
    | exact fun _ => ⟨⟨id, id, fun _ => id, fun _ => id⟩, id⟩
    | split

theorem execRindBrownoutWarning_kept {s₀ s t : State}  (hs : Kept s₀ s) (e : execRindBrownoutWarning s = .next t) : Kept s₀ t := by
  unfold execRindBrownoutWarning at e
  cases e
  repeat' first
    | with_reducible assumption
    | with_reducible apply settle_kept
    | with_reducible apply brownoutWarning_kept
    | (with_reducible refine foldl_kept _ ?_ _ ?_)
    | exact fun _ => ⟨⟨id, id, fun _ => id, fun _ => id⟩, id⟩
    | split

theorem execRindPublication_kept {s₀ s t : State} {bits : MeterBits} (hs : Kept s₀ s) (e : execRindPublication bits s = .next t) : Kept s₀ t := by
  unfold execRindPublication at e
  cases e
  repeat' first
    | with_reducible assumption
    | with_reducible apply settle_kept
    | with_reducible apply publish_kept
    | (with_reducible refine foldl_kept _ ?_ _ ?_)
    | exact fun _ => ⟨⟨id, id, fun _ => id, fun _ => id⟩, id⟩
    | split

theorem execRindInputStale_kept {s₀ s t : State} {x : InputChange} (hs : Kept s₀ s) (e : execRindInputStale x s = .next t) : Kept s₀ t := by
  unfold execRindInputStale at e
  cases e
  repeat' first
    | with_reducible assumption
    | with_reducible apply settle_kept
    | with_reducible apply sessFlag_kept
    | with_reducible apply setStale_kept
    | with_reducible apply meter_kept
    | (with_reducible refine foldl_kept _ ?_ _ ?_)
    | exact fun _ => ⟨⟨id, id, fun _ => id, fun _ => id⟩, id⟩
    | split

theorem execRindInputReturn_kept {s₀ s t : State} {x : InputChange} (hs : Kept s₀ s) (e : execRindInputReturn x s = .next t) : Kept s₀ t := by
  unfold execRindInputReturn at e
  cases e
  repeat' first
    | with_reducible assumption
    | with_reducible apply settle_kept
    | with_reducible apply setStale_kept
    | with_reducible apply meter_kept
    | (with_reducible refine foldl_kept _ ?_ _ ?_)
    | exact fun _ => ⟨⟨id, id, fun _ => id, fun _ => id⟩, id⟩
    | split

theorem execRindReset_kept {s₀ s t : State} {watchdog : Bool} {romOk : Bool} {par0 : Bool} {par1 : Bool} {slots : BitVec 32} (hs : Kept s₀ s) (e : execRindReset watchdog romOk par0 par1 slots s = .next t) : Kept s₀ t := by
  unfold execRindReset at e
  cases e
  repeat' first
    | with_reducible assumption
    | with_reducible apply settle_kept
    | with_reducible apply rindReset_kept
    | (with_reducible refine foldl_kept _ ?_ _ ?_)
    | exact fun _ => ⟨⟨id, id, fun _ => id, fun _ => id⟩, id⟩
    | split

theorem execRindIntegrityCheck_kept {s₀ s t : State} {daily : Bool} {romOk : Bool} {par0 : Bool} {par1 : Bool} (hs : Kept s₀ s) (e : execRindIntegrityCheck daily romOk par0 par1 s = .next t) : Kept s₀ t := by
  unfold execRindIntegrityCheck at e
  cases e
  repeat' first
    | with_reducible assumption
    | with_reducible apply settle_kept
    | with_reducible apply checkPars_kept
    | with_reducible apply checkRom_kept
    | (with_reducible refine foldl_kept _ ?_ _ ?_)
    | exact fun _ => ⟨⟨id, id, fun _ => id, fun _ => id⟩, id⟩
    | split

theorem execSealAccept_kept {s₀ s t : State}  (hs : Kept s₀ s) (e : execSealAccept s = .next t) : Kept s₀ t := by
  unfold execSealAccept at e
  cases e
  repeat' first
    | with_reducible assumption
    | with_reducible apply settle_kept
    | with_reducible apply modRind_kept
    | (with_reducible refine foldl_kept _ ?_ _ ?_)
    | exact fun _ => ⟨⟨id, id, fun _ => id, fun _ => id⟩, id⟩
    | split

theorem execSealRelease_kept {s₀ s t : State}  (hs : Kept s₀ s) (e : execSealRelease s = .next t) : Kept s₀ t := by
  unfold execSealRelease at e
  cases e
  repeat' first
    | with_reducible assumption
    | with_reducible apply settle_kept
    | with_reducible apply modRind_kept
    | (with_reducible refine foldl_kept _ ?_ _ ?_)
    | exact fun _ => ⟨⟨id, id, fun _ => id, fun _ => id⟩, id⟩
    | split

theorem execRindRead_kept {s₀ s t : State} {offset : BitVec 16} {count : BitVec 8} (hs : Kept s₀ s) (e : execRindRead offset count s = .next t) : Kept s₀ t := by
  unfold execRindRead at e
  cases e
  repeat' first
    | with_reducible assumption
    | with_reducible apply settle_kept
    | with_reducible apply respond_kept
    | (with_reducible refine foldl_kept _ ?_ _ ?_)
    | exact fun _ => ⟨⟨id, id, fun _ => id, fun _ => id⟩, id⟩
    | split

theorem execRindRecord_kept {s₀ s t : State} {session : BitVec 32} (hs : Kept s₀ s) (e : execRindRecord session s = .next t) : Kept s₀ t := by
  unfold execRindRecord at e
  cases e
  repeat' first
    | with_reducible assumption
    | with_reducible apply settle_kept
    | with_reducible apply respond_kept
    | (with_reducible refine foldl_kept _ ?_ _ ?_)
    | exact fun _ => ⟨⟨id, id, fun _ => id, fun _ => id⟩, id⟩
    | split

theorem execRindAuditrec_kept {s₀ s t : State} {index : BitVec 8} (hs : Kept s₀ s) (e : execRindAuditrec index s = .next t) : Kept s₀ t := by
  unfold execRindAuditrec at e
  cases e
  repeat' first
    | with_reducible assumption
    | with_reducible apply settle_kept
    | with_reducible apply respond_kept
    | (with_reducible refine foldl_kept _ ?_ _ ?_)
    | exact fun _ => ⟨⟨id, id, fun _ => id, fun _ => id⟩, id⟩
    | split

theorem execRindSealwr_kept {s₀ s t : State} {id : BitVec 8} {value : List Byte} (hs : Kept s₀ s)
    (e : execRindSealwr id value s = .next t) : Kept s₀ t := by
  unfold execRindSealwr at e
  cases e
  refine settle_kept ?_
  split
  · exact hs
  · split
    · next h => exact respond_kept (sealWrite_kept hs h) _ _ _
    · exact respond_kept hs _ _ _

theorem execRindMtset_kept {s₀ s t : State} {mt : BitVec 64} (hs : Kept s₀ s) (e : execRindMtset mt s = .next t) : Kept s₀ t := by
  unfold execRindMtset at e
  cases e
  repeat' first
    | with_reducible assumption
    | with_reducible apply settle_kept
    | with_reducible apply respond_kept
    | with_reducible apply setMt_kept
    | (with_reducible refine foldl_kept _ ?_ _ ?_)
    | exact fun _ => ⟨⟨id, id, fun _ => id, fun _ => id⟩, id⟩
    | split

theorem execRindPortFrameError_kept {s₀ s t : State} {frame : List Byte} (hs : Kept s₀ s) (e : execRindPortFrameError frame s = .next t) : Kept s₀ t := by
  unfold execRindPortFrameError at e
  cases e
  repeat' first
    | with_reducible assumption
    | with_reducible apply settle_kept
    | with_reducible apply strayFrame_kept
    | (with_reducible refine foldl_kept _ ?_ _ ?_)
    | exact fun _ => ⟨⟨id, id, fun _ => id, fun _ => id⟩, id⟩
    | split

theorem execRindMtcorr_kept {s₀ s t : State} {msg : BitVec 768} (hs : Kept s₀ s) (e : execRindMtcorr msg s = .next t) : Kept s₀ t := by
  unfold execRindMtcorr at e
  cases e
  repeat' first
    | with_reducible assumption
    | (extract_lets +onlyGivenNames t; refine (fun (g : Kept s₀ t) => ?_) ?_; clear_value t; rotate_left; subst t)
    | with_reducible apply settle_kept
    | with_reducible apply takeCorr_kept
    | with_reducible apply respond_kept
    | (with_reducible refine foldl_kept _ ?_ _ ?_)
    | exact fun _ => ⟨⟨id, id, fun _ => id, fun _ => id⟩, id⟩
    | split

theorem execMailboxPoll_kept {s₀ s t : State}  (hs : Kept s₀ s) (e : execMailboxPoll s = .next t) : Kept s₀ t := by
  unfold execMailboxPoll at e
  cases e
  repeat' first
    | with_reducible assumption
    | with_reducible apply settle_kept
    | with_reducible apply takeCorr_kept
    | (with_reducible refine foldl_kept _ ?_ _ ?_)
    | exact fun _ => ⟨⟨id, id, fun _ => id, fun _ => id⟩, id⟩
    | split

theorem execTapSample_kept {s₀ s t : State} {bits : BitVec 128} (hs : Kept s₀ s) (e : execTapSample bits s = .next t) : Kept s₀ t := by
  unfold execTapSample at e
  cases e
  repeat' first
    | with_reducible assumption
    | with_reducible apply settle_kept
    | with_reducible apply tapSample_kept
    | (with_reducible refine foldl_kept _ ?_ _ ?_)
    | exact fun _ => ⟨⟨id, id, fun _ => id, fun _ => id⟩, id⟩
    | split

theorem execRindDown_kept {s₀ s t : State} {power : Bool} (hs : Kept s₀ s) (e : execRindDown power s = .next t) : Kept s₀ t := by
  unfold execRindDown at e
  cases e
  repeat' first
    | with_reducible assumption
    | with_reducible apply settle_kept
    | with_reducible apply rindDown_kept
    | (with_reducible refine foldl_kept _ ?_ _ ?_)
    | exact fun _ => ⟨⟨id, id, fun _ => id, fun _ => id⟩, id⟩
    | split

end Sys2Proof.Machine
end

