-- ==== Sys2Proof/Laws/KeepService.lean ====
section
/-! SUPPORT. What the operations of Machine/Service.lean keep (Laws/Keep.lean): one lemma for each. -/

namespace Sys2Proof.Machine

open Sys2Proof

theorem modTrust_kept {s₀ s : State} (hs : Kept s₀ s) (f : TrustSt → TrustSt) (hf : ∀ t, OtpKept t (f t)) :
    Kept s₀ (modTrust s f) := hs.trust _ (hf _)

theorem sendResponse_kept {s₀ s : State} (hs : Kept s₀ s) (cmd : Nat) (status : Nat) (body : List Byte) (sess : Option Session) : Kept s₀ (sendResponse s cmd status body sess) := by
  unfold sendResponse
  repeat' first
    | with_reducible assumption
    | (with_reducible exact Kept.trust (by with_reducible assumption) _ ⟨⟨id, id, fun _ => id, fun _ => id⟩, id⟩)
    | with_reducible apply modTrust_kept
    | with_reducible apply feedService_kept
    | (with_reducible refine foldl_kept _ ?_ _ ?_)
    | (with_reducible refine foldr_kept _ ?_ _ ?_)
    | exact fun _ => ⟨⟨id, id, fun _ => id, fun _ => id⟩, id⟩

theorem logCommand_kept {s₀ s : State} (hs : Kept s₀ s) (cmd : Nat) (status : Nat) (serial : Nat) : Kept s₀ (logCommand s cmd status serial) := by
  unfold logCommand
  repeat' first
    | with_reducible assumption
    | with_reducible apply State.event_kept
    | (with_reducible refine foldl_kept _ ?_ _ ?_)
    | (with_reducible refine foldr_kept _ ?_ _ ?_)
    | split

theorem authFail_kept {s₀ s : State} (hs : Kept s₀ s) : Kept s₀ (authFail s) := by
  unfold authFail
  repeat' first
    | with_reducible assumption
    | with_reducible apply State.incSat_kept
    | with_reducible apply State.set1_kept

theorem clearSegments_kept {s₀ s : State} (hs : Kept s₀ s) : Kept s₀ (clearSegments s) := by
  unfold clearSegments
  repeat' first
    | with_reducible assumption
    | (with_reducible exact Kept.trust (by with_reducible assumption) _ ⟨⟨id, id, fun _ => id, fun _ => id⟩, id⟩)
    | with_reducible apply modTrust_kept
    | (with_reducible refine foldl_kept _ ?_ _ ?_)
    | (with_reducible refine foldr_kept _ ?_ _ ?_)
    | exact fun _ => ⟨⟨id, id, fun _ => id, fun _ => id⟩, id⟩

theorem discardMessage_kept {s₀ s : State} (hs : Kept s₀ s) : Kept s₀ (discardMessage s) := by
  unfold discardMessage
  repeat' first
    | with_reducible assumption
    | with_reducible apply State.event_kept
    | with_reducible apply sendResponse_kept
    | with_reducible apply clearSegments_kept

theorem holdRequest_kept {s₀ s : State} (hs : Kept s₀ s) (r : Request) : Kept s₀ (holdRequest s r) := by
  unfold holdRequest
  repeat' first
    | with_reducible assumption
    | (with_reducible exact Kept.trust (by with_reducible assumption) _ ⟨⟨id, id, fun _ => id, fun _ => id⟩, id⟩)
    | with_reducible apply modTrust_kept
    | with_reducible apply State.event_kept
    | with_reducible apply sendResponse_kept
    | (with_reducible refine foldl_kept _ ?_ _ ?_)
    | (with_reducible refine foldr_kept _ ?_ _ ?_)
    | exact fun _ => ⟨⟨id, id, fun _ => id, fun _ => id⟩, id⟩
    | split

theorem sessionRequest_kept {s₀ s : State} (hs : Kept s₀ s) (cmd : Nat) (ctr : Nat) (h : List Byte) (rest : List Byte) : Kept s₀ (sessionRequest s cmd ctr h rest) := by
  unfold sessionRequest
  repeat' first
    | with_reducible assumption
    | (with_reducible exact Kept.trust (by with_reducible assumption) _ ⟨⟨id, id, fun _ => id, fun _ => id⟩, id⟩)
    | with_reducible apply logCommand_kept
    | with_reducible apply sendResponse_kept
    | with_reducible apply authFail_kept
    | with_reducible apply holdRequest_kept
    | with_reducible apply modTrust_kept
    | (with_reducible refine foldl_kept _ ?_ _ ?_)
    | (with_reducible refine foldr_kept _ ?_ _ ?_)
    | exact fun _ => ⟨⟨id, id, fun _ => id, fun _ => id⟩, id⟩
    | split
    | (intro t x y g)
    | (intro t x g)
    | (intro t g)
    | (extract_lets +onlyGivenNames t; clear_value t)

theorem completeMessage_kept {s₀ s : State} (hs : Kept s₀ s) : Kept s₀ (completeMessage s) := by
  unfold completeMessage
  repeat' first
    | with_reducible assumption
    | (extract_lets +onlyGivenNames t; refine (fun (g : Kept s₀ t) => ?_) ?_; clear_value t; rotate_left; subst t)
    | with_reducible apply discardMessage_kept
    | with_reducible apply clearSegments_kept
    | with_reducible apply holdRequest_kept
    | with_reducible apply sessionRequest_kept
    | (with_reducible refine foldl_kept _ ?_ _ ?_)
    | (with_reducible refine foldr_kept _ ?_ _ ?_)
    | split
    | (intro t x y g)
    | (intro t x g)
    | (intro t g)
    | (extract_lets +onlyGivenNames t; clear_value t)

theorem takeSegment_kept {s₀ s : State} (hs : Kept s₀ s) (seg : BitVec 512) : Kept s₀ (takeSegment s seg) := by
  unfold takeSegment
  repeat' first
    | with_reducible assumption
    | (extract_lets +onlyGivenNames t; refine (fun (g : Kept s₀ t) => ?_) ?_; clear_value t; rotate_left; subst t)
    | (with_reducible exact Kept.trust (by with_reducible assumption) _ ⟨⟨id, id, fun _ => id, fun _ => id⟩, id⟩)
    | with_reducible apply goodReception_kept
    | with_reducible apply discardMessage_kept
    | with_reducible apply modTrust_kept
    | with_reducible apply completeMessage_kept
    | (with_reducible refine foldl_kept _ ?_ _ ?_)
    | (with_reducible refine foldr_kept _ ?_ _ ?_)
    | exact fun _ => ⟨⟨id, id, fun _ => id, fun _ => id⟩, id⟩
    | split
    | (intro t x y g)
    | (intro t x g)
    | (intro t g)
    | (extract_lets +onlyGivenNames t; clear_value t)

theorem serve_kept {s₀ s : State} (hs : Kept s₀ s) (cmd : Nat) (level : Option Nat) (okState : State → Bool)
    (act : State → Request → Answer) (after : State → State) (ha : ∀ t r, Kept s₀ t → Kept s₀ (act t r).1)
    (hf : ∀ t, Kept s₀ t → Kept s₀ (after t)) : Kept s₀ (serve s cmd level okState act after) := by
  unfold serve
  split
  · exact hs
  · split
    · exact hs
    · extract_lets sess k a t u
      have h1 : Kept s₀ a.1 := by
        subst a
        split
        · exact ha _ _ hs
        · exact hs
      clear_value a
      have h2 : Kept s₀ u := by
        subst u t
        with_reducible refine sendResponse_kept (logCommand_kept (modTrust_kept h1 _ ?_) _ _ _) _ _ _ _
        exact fun _ => ⟨⟨id, id, fun _ => id, fun _ => id⟩, id⟩
      clear_value u
      split
      · exact hf _ h2
      · exact h2

theorem serve_blown {s₀ s : State} (hs : KeptBlown s₀ s) (cmd : Nat) (level : Option Nat) (okState : State → Bool)
    (act : State → Request → Answer) (after : State → State) (ha : ∀ t r, KeptBlown s₀ t → KeptBlown s₀ (act t r).1)
    (hf : ∀ t, Kept t (after t)) : KeptBlown s₀ (serve s cmd level okState act after) := by
  unfold serve
  split
  · exact hs
  · split
    · exact hs
    · extract_lets sess k a t u
      have h1 : KeptBlown s₀ a.1 := by
        subst a
        split
        · exact ha _ _ hs
        · exact hs
      clear_value a
      have h2 : KeptBlown s₀ u := by
        refine h1.step ?_
        subst u t
        with_reducible refine sendResponse_kept (logCommand_kept (modTrust_kept (Kept.refl _) _ ?_) _ _ _) _ _ _ _
        exact fun _ => ⟨⟨id, id, fun _ => id, fun _ => id⟩, id⟩
      clear_value u
      split
      · exact h2.step (hf _)
      · exact h2

theorem accept_kept {s₀ s : State} (hs : Kept s₀ s) : Kept s₀ (accept s).1 := hs

theorem refuse_kept {s₀ s : State} (hs : Kept s₀ s) : Kept s₀ (refuse s).1 := hs

theorem endSessionAs_kept {s₀ s : State} (hs : Kept s₀ s) (reason : Nat) : Kept s₀ (endSessionAs s reason) := by
  unfold endSessionAs
  repeat' first
    | with_reducible assumption
    | (extract_lets +onlyGivenNames t; refine (fun (g : Kept s₀ t) => ?_) ?_; clear_value t; rotate_left; subst t)
    | (with_reducible exact Kept.trust (by with_reducible assumption) _ ⟨⟨id, id, fun _ => id, fun _ => id⟩, id⟩)
    | with_reducible apply modTrust_kept
    | with_reducible apply State.event_kept
    | with_reducible apply State.wr_kept
    | with_reducible apply State.clr_kept
    | (with_reducible refine foldl_kept _ ?_ _ ?_)
    | (with_reducible refine foldr_kept _ ?_ _ ?_)
    | exact fun _ => ⟨⟨id, id, fun _ => id, fun _ => id⟩, id⟩
    | split

theorem doHello_kept {s₀ s : State} (hs : Kept s₀ s) (x1 : Request) : Kept s₀ (doHello s x1).1 := by
  unfold doHello
  repeat' first
    | with_reducible assumption
    | (with_reducible exact Kept.trust (by with_reducible assumption) _ ⟨⟨id, id, fun _ => id, fun _ => id⟩, id⟩)
    | with_reducible apply refuse_kept
    | with_reducible apply modTrust_kept
    | with_reducible apply State.useFree_kept
    | (with_reducible refine foldl_kept _ ?_ _ ?_)
    | (with_reducible refine foldr_kept _ ?_ _ ?_)
    | exact fun _ => ⟨⟨id, id, fun _ => id, fun _ => id⟩, id⟩
    | split

theorem openService_kept {s₀ s : State} (hs : Kept s₀ s) (b : List Byte) (n : Nat) : Kept s₀ (openService s b n) := by
  unfold openService
  repeat' first
    | with_reducible assumption
    | (extract_lets +onlyGivenNames t; refine (fun (g : Kept s₀ t) => ?_) ?_; clear_value t; rotate_left; subst t)
    | (with_reducible exact Kept.trust (by with_reducible assumption) _ ⟨⟨id, id, fun _ => id, fun _ => id⟩, id⟩)
    | with_reducible apply endSessionAs_kept
    | with_reducible apply modTrust_kept
    | with_reducible apply State.event_kept
    | with_reducible apply State.incSat_kept
    | with_reducible apply State.wr_kept
    | with_reducible apply State.set1_kept
    | (with_reducible refine foldl_kept _ ?_ _ ?_)
    | (with_reducible refine foldr_kept _ ?_ _ ?_)
    | exact fun _ => ⟨⟨id, id, fun _ => id, fun _ => id⟩, id⟩

theorem doAuth_kept {s₀ s : State} (hs : Kept s₀ s) (r : Request) : Kept s₀ (doAuth s r).1 := by
  unfold doAuth
  repeat' first
    | with_reducible assumption
    | with_reducible apply accept_kept
    | with_reducible apply openService_kept
    | with_reducible apply State.event_kept
    | with_reducible apply authFail_kept
    | (with_reducible refine foldl_kept _ ?_ _ ?_)
    | (with_reducible refine foldr_kept _ ?_ _ ?_)
    | split

theorem doRead_kept {s₀ s : State} (hs : Kept s₀ s) (r : Request) : Kept s₀ (doRead s r).1 := by
  unfold doRead
  repeat' first
    | with_reducible assumption
    | with_reducible apply refuse_kept
    | with_reducible apply readDouble_kept
    | with_reducible apply State.event_kept
    | with_reducible apply forN_kept
    | with_reducible apply countRead_kept
    | (with_reducible refine foldl_kept _ ?_ _ ?_)
    | (with_reducible refine foldr_kept _ ?_ _ ?_)
    | split
    | (intro t x y g)
    | (intro t x g)
    | (intro t g)
    | (extract_lets +onlyGivenNames t; clear_value t)

theorem doWheySelect_kept {s₀ s : State} (hs : Kept s₀ s) (r : Request) : Kept s₀ (doWheySelect s r).1 := by
  unfold doWheySelect
  repeat' first
    | with_reducible assumption
    | with_reducible apply refuse_kept
    | with_reducible apply accept_kept
    | with_reducible apply State.wrAs_kept
    | (with_reducible refine foldl_kept _ ?_ _ ?_)
    | (with_reducible refine foldr_kept _ ?_ _ ?_)
    | split
    | (intro t x y g)
    | (intro t x g)
    | (intro t g)
    | (extract_lets +onlyGivenNames t; clear_value t)

theorem doOrder_kept {s₀ s : State} (hs : Kept s₀ s) (r : Request) : Kept s₀ (doOrder s r).1 := by
  unfold doOrder
  repeat' first
    | with_reducible assumption
    | with_reducible apply accept_kept
    | with_reducible apply putWriter_kept
    | with_reducible apply refuse_kept
    | (with_reducible refine foldl_kept _ ?_ _ ?_)
    | (with_reducible refine foldr_kept _ ?_ _ ?_)
    | split

theorem doSenseSync_kept {s₀ s : State} (hs : Kept s₀ s) (r : Request) : Kept s₀ (doSenseSync s r).1 := by
  unfold doSenseSync
  repeat' first
    | with_reducible assumption
    | with_reducible apply refuse_kept
    | with_reducible apply forN_kept
    | with_reducible apply State.event_kept
    | with_reducible apply accept_kept
    | with_reducible apply forVats_kept
    | with_reducible apply requestSync_kept
    | (with_reducible refine foldl_kept _ ?_ _ ?_)
    | (with_reducible refine foldr_kept _ ?_ _ ?_)
    | split
    | (intro t x y g)
    | (intro t x g)
    | (intro t g)
    | (extract_lets +onlyGivenNames t; clear_value t)

theorem doDrill_kept {s₀ s : State} (hs : Kept s₀ s) (r : Request) : Kept s₀ (doDrill s r).1 := by
  unfold doDrill
  repeat' first
    | with_reducible assumption
    | with_reducible apply refuse_kept
    | with_reducible apply abortDrill_kept
    | with_reducible apply accept_kept
    | with_reducible apply startDrill_kept
    | (with_reducible refine foldl_kept _ ?_ _ ?_)
    | (with_reducible refine foldr_kept _ ?_ _ ?_)
    | split

theorem doVatReset_kept {s₀ s : State} (hs : Kept s₀ s) (r : Request) : Kept s₀ (doVatReset s r).1 := by
  unfold doVatReset
  repeat' first
    | with_reducible assumption
    | with_reducible apply refuse_kept
    | with_reducible apply accept_kept
    | with_reducible apply raiseFltWith_kept
    | (with_reducible refine foldl_kept _ ?_ _ ?_)
    | (with_reducible refine foldr_kept _ ?_ _ ?_)
    | split
    | (intro t x y g)
    | (intro t x g)
    | (intro t g)
    | (extract_lets +onlyGivenNames t; clear_value t)

theorem doSafetyClear_kept {s₀ s : State} (hs : Kept s₀ s) (x1 : Request) : Kept s₀ (doSafetyClear s x1).1 := by
  unfold doSafetyClear
  repeat' first
    | with_reducible assumption
    | with_reducible apply accept_kept
    | with_reducible apply State.event_kept
    | with_reducible apply endRide_kept
    | with_reducible apply State.wrWord_kept
    | with_reducible apply refuse_kept
    | (with_reducible refine foldl_kept _ ?_ _ ?_)
    | (with_reducible refine foldr_kept _ ?_ _ ?_)
    | split

theorem doFlush_kept {s₀ s : State} (hs : Kept s₀ s) (won : Option (BitVec 32)) (r : Request) : Kept s₀ (doFlush won s r).1 := by
  unfold doFlush
  repeat' first
    | with_reducible assumption
    | with_reducible apply accept_kept
    | with_reducible apply flushChannel_kept
    | with_reducible apply refuse_kept
    | (with_reducible refine foldl_kept _ ?_ _ ?_)
    | (with_reducible refine foldr_kept _ ?_ _ ?_)
    | split

theorem setStartFails_kept {s₀ s : State} (hs : Kept s₀ s) (n : Nat) : Kept s₀ (setStartFails s n) := by
  unfold setStartFails
  repeat' first
    | with_reducible assumption
    | (extract_lets +onlyGivenNames t; refine (fun (g : Kept s₀ t) => ?_) ?_; clear_value t; rotate_left; subst t)
    | with_reducible apply State.wr_kept
    | (with_reducible refine foldl_kept _ ?_ _ ?_)
    | (with_reducible refine foldr_kept _ ?_ _ ?_)
    | split
    | (intro t x y g)
    | (intro t x g)
    | (intro t g)
    | (extract_lets +onlyGivenNames t; clear_value t)
    | with_reducible apply Kept.update

theorem doRecoveryExit_kept {s₀ s : State} (hs : Kept s₀ s) (x1 : Request) : Kept s₀ (doRecoveryExit s x1).1 := by
  unfold doRecoveryExit
  repeat' first
    | with_reducible assumption
    | with_reducible apply refuse_kept
    | with_reducible apply accept_kept
    | with_reducible apply setStartFails_kept
    | (with_reducible refine foldl_kept _ ?_ _ ?_)
    | (with_reducible refine foldr_kept _ ?_ _ ?_)
    | split

theorem doWheelErase_kept {s₀ s : State} (hs : Kept s₀ s) (r : Request) : Kept s₀ (doWheelErase s r).1 := by
  unfold doWheelErase
  repeat' first
    | with_reducible assumption
    | (extract_lets +onlyGivenNames t; refine (fun (g : Kept s₀ t) => ?_) ?_; clear_value t; rotate_left; subst t)
    | with_reducible apply Kept.clear
    | with_reducible apply accept_kept
    | with_reducible apply refuse_kept
    | (with_reducible refine foldl_kept _ ?_ _ ?_)
    | (with_reducible refine foldr_kept _ ?_ _ ?_)
    | split
    | (intro t x y g)
    | (intro t x g)
    | (intro t g)
    | (extract_lets +onlyGivenNames t; clear_value t)
    | with_reducible apply Kept.update

theorem doWheelWrite_kept {s₀ s : State} (hs : Kept s₀ s) (ok : Bool) (r : Request) : Kept s₀ (doWheelWrite ok s r).1 := by
  unfold doWheelWrite
  repeat' first
    | with_reducible assumption
    | (extract_lets +onlyGivenNames t; refine (fun (g : Kept s₀ t) => ?_) ?_; clear_value t; rotate_left; subst t)
    | with_reducible apply refuse_kept
    | with_reducible apply accept_kept
    | with_reducible apply State.writeBytes_kept
    | (with_reducible refine foldl_kept _ ?_ _ ?_)
    | (with_reducible refine foldr_kept _ ?_ _ ?_)
    | split
    | (intro t x y g)
    | (intro t x g)
    | (intro t g)
    | (extract_lets +onlyGivenNames t; clear_value t)
    | with_reducible apply Kept.update

theorem showConf_kept {s₀ s : State} (hs : Kept s₀ s) (c : ConfCopy) : Kept s₀ (showConf s c) := by
  unfold showConf
  repeat' first
    | with_reducible assumption
    | (extract_lets +onlyGivenNames t; refine (fun (g : Kept s₀ t) => ?_) ?_; clear_value t; rotate_left; subst t)
    | with_reducible apply State.wr_kept

theorem doSafeConfirm_kept {s₀ s : State} (hs : Kept s₀ s) (r : Request) : Kept s₀ (doSafeConfirm s r).1 := by
  unfold doSafeConfirm
  repeat' first
    | with_reducible assumption
    | with_reducible apply refuse_kept
    | with_reducible apply accept_kept
    | with_reducible apply State.clr_kept
    | with_reducible apply showConf_kept
    | with_reducible apply State.event_kept
    | (with_reducible refine foldl_kept _ ?_ _ ?_)
    | (with_reducible refine foldr_kept _ ?_ _ ?_)
    | split
    | (intro t x y g)
    | (intro t x g)
    | (intro t g)
    | (extract_lets +onlyGivenNames t; clear_value t)
    | with_reducible apply Kept.update

theorem doMtCorrect_kept {s₀ s : State} (hs : Kept s₀ s) (r : Request) : Kept s₀ (doMtCorrect s r).1 := by
  unfold doMtCorrect
  repeat' first
    | with_reducible assumption
    | with_reducible apply refuse_kept
    | with_reducible apply accept_kept
    | with_reducible apply forN_kept
    | with_reducible apply State.wrAs_kept
    | (with_reducible refine foldl_kept _ ?_ _ ?_)
    | (with_reducible refine foldr_kept _ ?_ _ ?_)
    | split
    | (intro t x y g)
    | (intro t x g)

theorem erasePatch_kept {s₀ s : State} (hs : Kept s₀ s) : Kept s₀ (erasePatch s) := by
  unfold erasePatch
  repeat' first
    | with_reducible assumption
    | with_reducible apply Kept.clear

theorem doPatchWrite_kept {s₀ s : State} (hs : Kept s₀ s) (r : Request) : Kept s₀ (doPatchWrite s r).1 := by
  unfold doPatchWrite
  repeat' first
    | with_reducible assumption
    | with_reducible apply refuse_kept
    | with_reducible apply accept_kept
    | with_reducible apply State.writeBytes_kept
    | with_reducible apply erasePatch_kept
    | (with_reducible refine foldl_kept _ ?_ _ ?_)
    | (with_reducible refine foldr_kept _ ?_ _ ?_)
    | split
    | (intro t x y g)
    | (intro t x g)
    | (intro t g)
    | (extract_lets +onlyGivenNames t; clear_value t)

theorem doCertRevoke_kept {s₀ s : State} (hs : Kept s₀ s) (r : Request) : Kept s₀ (doCertRevoke s r).1 := by
  unfold doCertRevoke
  repeat' first
    | with_reducible assumption
    | with_reducible apply accept_kept
    | with_reducible apply State.wr_kept
    | (with_reducible refine foldl_kept _ ?_ _ ?_)
    | (with_reducible refine foldr_kept _ ?_ _ ?_)
    | split
    | (intro t x y g)
    | (intro t x g)
    | (intro t g)
    | (extract_lets +onlyGivenNames t; clear_value t)
    | with_reducible apply Kept.update

theorem doDebugUnlock_kept {s₀ s : State} (hs : Kept s₀ s) (r : Request) : Kept s₀ (doDebugUnlock s r).1 := by
  unfold doDebugUnlock
  repeat' first
    | with_reducible assumption
    | (with_reducible exact Kept.trust (by with_reducible assumption) _ ⟨⟨id, id, fun _ => id, fun _ => id⟩, id⟩)
    | with_reducible apply accept_kept
    | with_reducible apply modTrust_kept
    | with_reducible apply refuse_kept
    | (with_reducible refine foldl_kept _ ?_ _ ?_)
    | (with_reducible refine foldr_kept _ ?_ _ ?_)
    | exact fun _ => ⟨⟨id, id, fun _ => id, fun _ => id⟩, id⟩
    | split
    | (intro t x y g)
    | (intro t x g)
    | (intro t g)
    | (extract_lets +onlyGivenNames t; clear_value t)

theorem freeOwnerSlot_unblown {t : TrustSt} {i : Nat} (h : freeOwnerSlot t = some i) :
    (nth t.slots i {}).valid = false ∧ (nth t.slots i {}).revoked = false := by
  have := List.find?_some h
  simp only [Bool.and_eq_true, Bool.not_eq_true'] at this
  exact ⟨this.1.2, this.2⟩

theorem nth_modNth {α : Type} (l : List α) (i k : Nat) (f : α → α) (d : α) :
    nth (modNth l i f) k d = if i = k then (if k < l.length then f (nth l k d) else d) else nth l k d := by
  unfold nth modNth
  by_cases h : k < l.length
  · by_cases hi : i = k <;> simp [List.getD, List.getElem?_modify, hi, h]
  · simp [List.getD, List.getElem?_eq_none (by simpa using h), h]

theorem fuseSlot_fuses {t : TrustSt} {i : Nat} (h : freeOwnerSlot t = some i) (hash : Nat) (r : FuseResult) :
    FusesKept t (fuseSlot t i hash r) := by
  obtain ⟨hv, hr⟩ := freeOwnerSlot_unblown h
  unfold fuseSlot
  split
  · exact FusesKept.refl _
  · refine ⟨id, id, fun k hk => ?_, fun k hk => ?_⟩ <;>
    · have hne : i ≠ k := by rintro rfl; simp_all
      simpa [nth_modNth, hne] using hk

theorem revokeOne_fuses (t : TrustSt) (k : Nat) :
    FusesKept t { t with slots := modNth t.slots k (fun q => { q with revoked := true }) } := by
  refine ⟨id, id, fun j hj => ?_, fun j hj => ?_⟩
  · by_cases h : k = j
    · by_cases hl : j < t.slots.length
      · simpa [nth_modNth, h, hl] using hj
      · simp [nth, List.getD, List.getElem?_eq_none (by simpa using hl : t.slots.length ≤ j)] at hj
    · simpa [nth_modNth, h] using hj
  · by_cases h : k = j
    · by_cases hl : j < t.slots.length
      · simp [nth_modNth, h, hl]
      · simp [nth, List.getD, List.getElem?_eq_none (by simpa using hl : t.slots.length ≤ j)] at hj
    · simpa [nth_modNth, h] using hj

theorem revokeSlot_fuses (t : TrustSt) (old : Option Nat) : FusesKept t (revokeSlot t old) := by
  unfold revokeSlot
  split
  · exact revokeOne_fuses _ _
  · exact FusesKept.refl _

theorem ownerSlot_none {t : TrustSt} (h : t.ownerSlot = none) (k : Fin 4) : ownsSlot t k = false := by
  have := List.find?_eq_none.mp h k.val (by simp)
  simpa [ownsSlot] using this

theorem ownsSlot_fuse {t : TrustSt} {i : Nat} (hash : Nat) (r : FuseResult) {k : Nat} (hk : k ≠ i) :
    ownsSlot (fuseSlot t i hash r) k = ownsSlot t k := by
  unfold fuseSlot
  split
  · rfl
  · simp [ownsSlot, nth_modNth, Ne.symm hk]

/-- A slot fused where no slot has an owner is the only one. -/
theorem fuseSlot_first {t : TrustSt} (h : t.ownerSlot = none) (i hash : Nat) (r : FuseResult) : OneOwner (fuseSlot t i hash r) := by
  have key : ∀ j : Fin 4, ownsSlot (fuseSlot t i hash r) j = true → j.val = i := fun j hj => by
    by_contra hne
    rw [ownsSlot_fuse hash r hne, ownerSlot_none h j] at hj
    cases hj
  exact fun j k hj hk => Fin.ext ((key j hj).trans (key k hk).symm)

/-- A fusing that fails before VALID gives its slot no owner. -/
theorem fuseSlot_failed {t : TrustSt} (h : OneOwner t) (i hash : Nat) {r : FuseResult} (hr : r ≠ .done) (hc : cutShort r = false) :
    OneOwner (fuseSlot t i hash r) := by
  have hv : blowMade r 1 = false := by
    cases r with
    | done => exact absurd rfl hr
    | differs => rfl
    | notMade n => revert hc; revert n; decide
    | powerLoss n => revert hc; revert n; decide
  have key : ∀ j : Fin 4, ownsSlot (fuseSlot t i hash r) j = true → ownsSlot t j = true := fun j hj => by
    unfold fuseSlot at hj
    split at hj
    · exact hj
    · by_cases e : i = j.val
      · subst e
        by_cases hl : j.val < t.slots.length
        · simp [ownsSlot, nth_modNth, hv, hl] at hj
        · simp [ownsSlot, nth_modNth, hl] at hj
      · simpa [ownsSlot, nth_modNth, e] using hj
  exact fun j k hj hk => h j k (key j hj) (key k hk)

/-- A transfer that is not cut short leaves one owner at most: the new one. -/
theorem transfer_one {t : TrustSt} (h : OneOwner t) (i hash : Nat) : OneOwner (revokeSlot (fuseSlot t i hash .done) t.ownerSlot) := by
  cases ho : t.ownerSlot with
  | none => exact fuseSlot_first ho i hash .done
  | some o =>
    have key : ∀ j : Fin 4, ownsSlot (revokeSlot (fuseSlot t i hash .done) (some o)) j = true → j.val = i := fun j hj => by
      by_contra hne
      have hj' : ownsSlot t j = true ∧ j.val ≠ o := by
        by_cases e : o = j.val
        · subst e
          by_cases hl : j.val < (fuseSlot t i hash .done).slots.length
          · simp [revokeSlot, ownsSlot, nth_modNth, hl] at hj
          · simp [revokeSlot, ownsSlot, nth_modNth, hl] at hj
        · have : ownsSlot (fuseSlot t i hash .done) j = true := by simpa [revokeSlot, ownsSlot, nth_modNth, e] using hj
          exact ⟨by rwa [ownsSlot_fuse hash .done hne] at this, fun x => e x.symm⟩
      have hs := List.find?_some ho
      have hm := List.mem_of_find?_eq_some ho
      have ho4 : o < 4 := by simpa using hm
      have := h j ⟨o, ho4⟩ hj'.1 (by simpa [ownsSlot] using hs)
      exact hj'.2 (congrArg Fin.val this)
    exact fun j k hj hk => Fin.ext ((key j hj).trans (key k hk).symm)

theorem doOwnerXfer_blown {s₀ s : State} (hs : KeptBlown s₀ s) (fuse : FuseResult) (r : Request) :
    KeptBlown s₀ (doOwnerXfer fuse s r).1 := by
  unfold doOwnerXfer
  split
  · exact hs
  · split
    · exact hs
    · next i hi =>
      extract_lets old t u
      have ht : KeptBlown s₀ t := hs.trust _ (fuseSlot_fuses hi _ _)
      clear_value t
      have hu : KeptBlown s₀ u := by
        dsimp only [u]
        split
        · exact ht.trust _ (revokeSlot_fuses _ _)
        · exact ht
      clear_value u
      split
      · exact hu
      · split
        · exact hu.step (State.event_kept (Kept.refl u) _ _ _)
        · exact hu

theorem doOwnerXfer_kept {s₀ s : State} (hs : Kept s₀ s) {fuse : FuseResult} (hc : cutShort fuse = false) (r : Request) :
    Kept s₀ (doOwnerXfer fuse s r).1 := by
  unfold doOwnerXfer
  split
  · exact hs
  · split
    · exact hs
    · next i hi =>
      extract_lets old t u
      have hu : Kept s₀ u := by
        by_cases hd : fuse = .done
        · subst hd
          refine hs.trust _ ⟨(fuseSlot_fuses hi _ _).trans (revokeSlot_fuses _ _), fun h => transfer_one h i _⟩
        · have hb : blowMade fuse 2 = false := by
            cases fuse with
            | done => exact absurd rfl hd
            | differs => rfl
            | notMade n => revert n; decide
            | powerLoss n => revert n; decide
          have : u = t := by simp [u, hb]
          rw [this]
          exact hs.trust _ ⟨fuseSlot_fuses hi _ _, fun h => fuseSlot_failed h i _ hd hc⟩
      clear_value u
      split
      · exact accept_kept hu
      · split
        · exact accept_kept (State.event_kept hu _ _ _)
        · exact hu

theorem doDecommission_kept {s₀ s : State} (hs : Kept s₀ s) (r : Request) : Kept s₀ (doDecommission s r).1 := by
  unfold doDecommission
  split
  · exact hs
  · refine accept_kept (State.event_kept (modTrust_kept hs _ ?_) _ _ _)
    exact fun _ => ⟨⟨id, fun _ => rfl, fun _ => id, fun _ => id⟩, id⟩

theorem execCanFrameRx_kept {s₀ s t : State} {c : Fin 6} {f : CanFrame} {sof : BitVec 32} (hs : Kept s₀ s) (e : execCanFrameRx c f sof s = .next t) : Kept s₀ t := by
  unfold execCanFrameRx at e
  cases e
  repeat' first
    | with_reducible assumption
    | with_reducible apply settle_kept
    | with_reducible apply takeSegment_kept
    | with_reducible apply receiveFrame_kept
    | (with_reducible refine foldl_kept _ ?_ _ ?_)
    | exact fun _ => ⟨⟨id, id, fun _ => id, fun _ => id⟩, id⟩
    | split

theorem execServiceSegment_kept {s₀ s t : State} {seg : BitVec 512} (hs : Kept s₀ s) (e : execServiceSegment seg s = .next t) : Kept s₀ t := by
  unfold execServiceSegment at e
  cases e
  repeat' first
    | with_reducible assumption
    | with_reducible apply settle_kept
    | with_reducible apply takeSegment_kept
    | (with_reducible refine foldl_kept _ ?_ _ ?_)
    | exact fun _ => ⟨⟨id, id, fun _ => id, fun _ => id⟩, id⟩
    | split

theorem execServiceSegmentTimeout_kept {s₀ s t : State}  (hs : Kept s₀ s) (e : execServiceSegmentTimeout s = .next t) : Kept s₀ t := by
  unfold execServiceSegmentTimeout at e
  cases e
  repeat' first
    | with_reducible assumption
    | with_reducible apply settle_kept
    | with_reducible apply discardMessage_kept
    | (with_reducible refine foldl_kept _ ?_ _ ?_)
    | exact fun _ => ⟨⟨id, id, fun _ => id, fun _ => id⟩, id⟩
    | split

theorem execHello_kept {s₀ s t : State} (hs : Kept s₀ s) (e : execHello s = .next t) : Kept s₀ t := by
  unfold execHello at e
  cases e
  exact settle_kept (serve_kept hs _ _ _ _ _ (fun _ _ g => doHello_kept g _) (fun _ g => g))

theorem execAuth_kept {s₀ s t : State} (hs : Kept s₀ s) (e : execAuth s = .next t) : Kept s₀ t := by
  unfold execAuth at e
  cases e
  exact settle_kept (serve_kept hs _ _ _ _ _ (fun _ _ g => doAuth_kept g _) (fun _ g => g))

theorem execEndSession_kept {s₀ s t : State} (hs : Kept s₀ s) (e : execEndSession s = .next t) : Kept s₀ t := by
  unfold execEndSession at e
  cases e
  exact settle_kept (serve_kept hs _ _ _ _ _ (fun _ _ g => g) (fun _ g => endSessionAs_kept g _))

theorem execSessionIdleTimeout_kept {s₀ s t : State}  (hs : Kept s₀ s) (e : execSessionIdleTimeout s = .next t) : Kept s₀ t := by
  unfold execSessionIdleTimeout at e
  cases e
  repeat' first
    | with_reducible assumption
    | with_reducible apply settle_kept
    | with_reducible apply endSessionAs_kept

theorem execRead_kept {s₀ s t : State} (hs : Kept s₀ s) (e : execRead s = .next t) : Kept s₀ t := by
  unfold execRead at e
  cases e
  exact settle_kept (serve_kept hs _ _ _ _ _ (fun _ _ g => doRead_kept g _) (fun _ g => g))

theorem execWheySelect_kept {s₀ s t : State} (hs : Kept s₀ s) (e : execWheySelect s = .next t) : Kept s₀ t := by
  unfold execWheySelect at e
  cases e
  exact settle_kept (serve_kept hs _ _ _ _ _ (fun _ _ g => doWheySelect_kept g _) (fun _ g => g))

theorem execOrder_kept {s₀ s t : State} (hs : Kept s₀ s) (e : execOrder s = .next t) : Kept s₀ t := by
  unfold execOrder at e
  cases e
  exact settle_kept (serve_kept hs _ _ _ _ _ (fun _ _ g => doOrder_kept g _) (fun _ g => g))

theorem execSenseSync_kept {s₀ s t : State} (hs : Kept s₀ s) (e : execSenseSync s = .next t) : Kept s₀ t := by
  unfold execSenseSync at e
  cases e
  exact settle_kept (serve_kept hs _ _ _ _ _ (fun _ _ g => doSenseSync_kept g _) (fun _ g => g))

theorem execHandoverDrill_kept {s₀ s t : State} (hs : Kept s₀ s) (e : execHandoverDrill s = .next t) : Kept s₀ t := by
  unfold execHandoverDrill at e
  cases e
  exact settle_kept (serve_kept hs _ _ _ _ _ (fun _ _ g => doDrill_kept g _) (fun _ g => g))

theorem execVatReset_kept {s₀ s t : State} (hs : Kept s₀ s) (e : execVatReset s = .next t) : Kept s₀ t := by
  unfold execVatReset at e
  cases e
  exact settle_kept (serve_kept hs _ _ _ _ _ (fun _ _ g => doVatReset_kept g _) (fun _ g => g))

theorem execSysReset_kept {s₀ s t : State} (hs : Kept s₀ s) (e : execSysReset s = .next t) : Kept s₀ t := by
  unfold execSysReset at e
  cases e
  exact settle_kept (serve_kept hs _ _ _ _ _ (fun _ _ g => g) (fun _ g => sysReset_kept g _))

theorem execSafetyClear_kept {s₀ s t : State} (hs : Kept s₀ s) (e : execSafetyClear s = .next t) : Kept s₀ t := by
  unfold execSafetyClear at e
  cases e
  exact settle_kept (serve_kept hs _ _ _ _ _ (fun _ _ g => doSafetyClear_kept g _) (fun _ g => g))

theorem execCanFlush_kept {s₀ s t : State} {won : Option (BitVec 32)} (hs : Kept s₀ s) (e : execCanFlush won s = .next t) : Kept s₀ t := by
  unfold execCanFlush at e
  cases e
  exact settle_kept (serve_kept hs _ _ _ _ _ (fun _ _ g => doFlush_kept g _ _) (fun _ g => g))

theorem execRecoveryExit_kept {s₀ s t : State} (hs : Kept s₀ s) (e : execRecoveryExit s = .next t) : Kept s₀ t := by
  unfold execRecoveryExit at e
  cases e
  exact settle_kept (serve_kept hs _ _ _ _ _ (fun _ _ g => doRecoveryExit_kept g _) (fun _ g => sysReset_kept g _))

theorem execWheelErase_kept {s₀ s t : State} (hs : Kept s₀ s) (e : execWheelErase s = .next t) : Kept s₀ t := by
  unfold execWheelErase at e
  cases e
  exact settle_kept (serve_kept hs _ _ _ _ _ (fun _ _ g => doWheelErase_kept g _) (fun _ g => g))

theorem execWheelWrite_kept {s₀ s t : State} {readOk : Bool} (hs : Kept s₀ s) (e : execWheelWrite readOk s = .next t) : Kept s₀ t := by
  unfold execWheelWrite at e
  cases e
  exact settle_kept (serve_kept hs _ _ _ _ _ (fun _ _ g => doWheelWrite_kept g _ _) (fun _ g => g))

theorem execSafeConfirm_kept {s₀ s t : State} (hs : Kept s₀ s) (e : execSafeConfirm s = .next t) : Kept s₀ t := by
  unfold execSafeConfirm at e
  cases e
  exact settle_kept (serve_kept hs _ _ _ _ _ (fun _ _ g => doSafeConfirm_kept g _) (fun _ g => g))

theorem execMtCorrect_kept {s₀ s t : State} (hs : Kept s₀ s) (e : execMtCorrect s = .next t) : Kept s₀ t := by
  unfold execMtCorrect at e
  cases e
  exact settle_kept (serve_kept hs _ _ _ _ _ (fun _ _ g => doMtCorrect_kept g _) (fun _ g => g))

theorem execPatchWrite_kept {s₀ s t : State} (hs : Kept s₀ s) (e : execPatchWrite s = .next t) : Kept s₀ t := by
  unfold execPatchWrite at e
  cases e
  refine settle_kept ?_
  split
  · exact serve_kept hs _ _ _ _ _ (fun _ _ g => doPatchWrite_kept g _) (fun _ g => g)
  · exact hs

theorem execPatchErase_kept {s₀ s t : State} (hs : Kept s₀ s) (e : execPatchErase s = .next t) : Kept s₀ t := by
  unfold execPatchErase at e
  cases e
  refine settle_kept ?_
  split
  · exact serve_kept hs _ _ _ _ _ (fun _ _ g => erasePatch_kept g) (fun _ g => g)
  · exact hs

theorem execCertRevoke_kept {s₀ s t : State} (hs : Kept s₀ s) (e : execCertRevoke s = .next t) : Kept s₀ t := by
  unfold execCertRevoke at e
  cases e
  exact settle_kept (serve_kept hs _ _ _ _ _ (fun _ _ g => doCertRevoke_kept g _) (fun _ g => g))

theorem execDebugUnlock_kept {s₀ s t : State} (hs : Kept s₀ s) (e : execDebugUnlock s = .next t) : Kept s₀ t := by
  unfold execDebugUnlock at e
  cases e
  exact settle_kept (serve_kept hs _ _ _ _ _ (fun _ _ g => doDebugUnlock_kept g _) (fun _ g => g))

theorem execDebugLock_kept {s₀ s t : State} (hs : Kept s₀ s) (e : execDebugLock s = .next t) : Kept s₀ t := by
  unfold execDebugLock at e
  cases e
  exact settle_kept (serve_kept hs _ _ _ _ _ (fun _ _ g => (by refine accept_kept ?_; refine modTrust_kept g _ ?_; exact fun _ => ⟨⟨id, id, fun _ => id, fun _ => id⟩, id⟩)) (fun _ g => g))

theorem execOwnerXfer_kept {s₀ s t : State} {fuse : FuseResult} (hs : Kept s₀ s) (hc : cutShort fuse = false)
    (e : execOwnerXfer fuse s = .next t) : Kept s₀ t := by
  unfold execOwnerXfer at e
  cases e
  refine settle_kept (serve_kept hs _ _ _ _ _ (fun _ _ g => doOwnerXfer_kept g hc _) (fun _ g => ?_))
  split
  · exact brownOut_kept g
  · exact g

theorem execOwnerXfer_blown {s₀ s t : State} {fuse : FuseResult} (hs : KeptBlown s₀ s) (e : execOwnerXfer fuse s = .next t) :
    KeptBlown s₀ t := by
  unfold execOwnerXfer at e
  cases e
  refine KeptBlown.step ?_ (settle_kept (Kept.refl _))
  refine serve_blown hs _ _ _ _ _ (fun _ _ g => doOwnerXfer_blown g _ _) (fun u => ?_)
  split
  · exact brownOut_kept (Kept.refl u)
  · exact Kept.refl u

theorem execDecommission_kept {s₀ s t : State} (hs : Kept s₀ s) (e : execDecommission s = .next t) : Kept s₀ t := by
  unfold execDecommission at e
  cases e
  exact settle_kept (serve_kept hs _ _ _ _ _ (fun _ _ g => doDecommission_kept g _) (fun _ g => g))

end Sys2Proof.Machine
end

