-- ==== Sys2Proof/Laws/KeepAccess.lean ====
section
/-! SUPPORT. What the operations of Machine/Access.lean keep (Laws/Keep.lean): one lemma for each. -/

namespace Sys2Proof.Machine

open Sys2Proof

theorem masterEvent_kept {s₀ s : State} (hs : Kept s₀ s) (m : Nat) (code : Nat) (data : Nat) : Kept s₀ (masterEvent s m code data) := by
  unfold masterEvent
  repeat' first
    | with_reducible assumption
    | with_reducible apply State.event_kept
    | with_reducible apply State.vatEvent_kept
    | (with_reducible refine foldl_kept _ ?_ _ ?_)
    | (with_reducible refine foldr_kept _ ?_ _ ?_)
    | split

theorem setViolVt_kept {s₀ s : State} (hs : Kept s₀ s) (w : Option Vat) : Kept s₀ (setViolVt s w) := by
  unfold setViolVt
  repeat' first
    | with_reducible assumption
    | (with_reducible refine foldl_kept _ ?_ _ ?_)
    | (with_reducible refine foldr_kept _ ?_ _ ?_)
    | split
    | (intro t x y g)
    | (intro t x g)
    | (intro t g)
    | (extract_lets +onlyGivenNames t; clear_value t)
    | with_reducible apply Kept.update

theorem recordVat_kept {s₀ s : State} (hs : Kept s₀ s) (v : Vat) (m : Nat) (a : Nat) (write : Bool) (byRegion : Bool) (landed : Nat) : Kept s₀ (recordVat s v m a write byRegion landed) := by
  unfold recordVat
  repeat' first
    | with_reducible assumption
    | (extract_lets +onlyGivenNames t; refine (fun (g : Kept s₀ t) => ?_) ?_; clear_value t; rotate_left; subst t)
    | with_reducible apply freezeEngine_kept
    | with_reducible apply State.wrBit_kept
    | with_reducible apply setViolVt_kept
    | with_reducible apply State.set1_kept
    | with_reducible apply State.wr_kept
    | with_reducible apply State.incSat_kept
    | (with_reducible refine foldl_kept _ ?_ _ ?_)
    | (with_reducible refine foldr_kept _ ?_ _ ?_)
    | split

theorem recordCommon_kept {s₀ s : State} (hs : Kept s₀ s) (m : Nat) (a : Nat) (write : Bool) : Kept s₀ (recordCommon s m a write) := by
  unfold recordCommon
  repeat' first
    | with_reducible assumption
    | (extract_lets +onlyGivenNames t; refine (fun (g : Kept s₀ t) => ?_) ?_; clear_value t; rotate_left; subst t)
    | with_reducible apply State.wrBit_kept
    | with_reducible apply setViolVt_kept
    | with_reducible apply State.set1_kept
    | with_reducible apply State.wr_kept
    | with_reducible apply State.incSat_kept
    | (with_reducible refine foldl_kept _ ?_ _ ?_)
    | (with_reducible refine foldr_kept _ ?_ _ ?_)
    | split

theorem freezeEffect_kept {s₀ s : State} (hs : Kept s₀ s) (m : Nat) : Kept s₀ (freezeEffect s m) := by
  unfold freezeEffect
  repeat' first
    | with_reducible assumption
    | with_reducible apply raiseFlt_kept
    | with_reducible apply loseSync_kept
    | with_reducible apply State.clr_kept
    | with_reducible apply modNet_kept
    | (with_reducible refine foldl_kept _ ?_ _ ?_)
    | (with_reducible refine foldr_kept _ ?_ _ ?_)
    | split

theorem violation_kept {s₀ s : State} (hs : Kept s₀ s) (m : Nat) (a : Nat) (write : Bool) (byRegion : Bool) (landed : Nat) : Kept s₀ (violation s m a write byRegion landed) := by
  unfold violation
  repeat' first
    | with_reducible assumption
    | (extract_lets +onlyGivenNames t; refine (fun (g : Kept s₀ t) => ?_) ?_; clear_value t; rotate_left; subst t)
    | with_reducible apply recordVat_kept
    | with_reducible apply recordCommon_kept
    | with_reducible apply freezeEffect_kept
    | with_reducible apply masterEvent_kept
    | (with_reducible refine foldl_kept _ ?_ _ ?_)
    | (with_reducible refine foldr_kept _ ?_ _ ?_)
    | split

theorem busError_kept {s₀ s : State} (hs : Kept s₀ s) (m : Nat) (a : Nat) (write : Bool) : Kept s₀ (busError s m a write) := by
  unfold busError
  repeat' first
    | with_reducible assumption
    | with_reducible apply masterEvent_kept

theorem noteJtagWrite_kept {s₀ s : State} (hs : Kept s₀ s) : Kept s₀ (noteJtagWrite s) := by
  unfold noteJtagWrite
  repeat' first
    | with_reducible assumption
    | with_reducible apply State.event_kept
    | with_reducible apply State.set1_kept

theorem noteIssue_kept {s₀ s : State} (hs : Kept s₀ s) (m : Nat) (write : Bool) : Kept s₀ (noteIssue s m write) := by
  unfold noteIssue
  repeat' first
    | with_reducible assumption
    | with_reducible apply noteJtagWrite_kept
    | (with_reducible refine foldl_kept _ ?_ _ ?_)
    | (with_reducible refine foldr_kept _ ?_ _ ?_)
    | split

theorem failRead_kept {s₀ s : State} (hs : Kept s₀ s) (m : Nat) (a : Nat) : Kept s₀ (failRead s m a) := by
  unfold failRead
  repeat' first
    | with_reducible assumption
    | with_reducible apply readDouble_kept
    | with_reducible apply busError_kept

theorem busAccess_kept {s₀ s : State} (hs : Kept s₀ s) (m : Nat) (a : Nat) (width : Nat) (dir : BusDir) (act : State → State) (ha : ∀ t, Kept s₀ t → Kept s₀ (act t)) : Kept s₀ (busAccess s m a width dir act) := by
  unfold busAccess
  repeat' first
    | with_reducible assumption
    | with_reducible apply noteIssue_kept
    | with_reducible apply busError_kept
    | with_reducible apply violation_kept
    | (with_reducible refine foldl_kept _ ?_ _ ?_)
    | (with_reducible refine foldr_kept _ ?_ _ ?_)
    | (with_reducible refine ha _ ?_)
    | split
    | (intro t x y g)
    | (intro t x g)
    | (intro t g)
    | (extract_lets +onlyGivenNames t; clear_value t)

theorem wordAccess_kept {s₀ s : State} (hs : Kept s₀ s) (m : Nat) (a : Nat) (write : Bool) (act : State → State) (ha : ∀ t, Kept s₀ t → Kept s₀ (act t)) : Kept s₀ (wordAccess s m a write act) := by
  unfold wordAccess
  repeat' first
    | with_reducible assumption
    | with_reducible apply busAccess_kept

theorem landBits_kept {s₀ s : State} (hs : Kept s₀ s) (a : Nat) (row : RegRow) (data : Word) : Kept s₀ (landBits s a row data) := by
  unfold landBits
  repeat' first
    | with_reducible assumption
    | with_reducible apply State.wrWord_kept

theorem applyCodes_kept {s₀ s : State} (hs : Kept s₀ s) (m : Nat) (a : Nat) (data : Word) : Kept s₀ (applyCodes s m a data) := by
  unfold applyCodes
  repeat' first
    | with_reducible assumption
    | (extract_lets +onlyGivenNames t; refine (fun (g : Kept s₀ t) => ?_) ?_; clear_value t; rotate_left; subst t)
    | with_reducible apply landBits_kept
    | with_reducible apply masterEvent_kept
    | (with_reducible refine foldl_kept _ ?_ _ ?_)
    | (with_reducible refine foldr_kept _ ?_ _ ?_)
    | split
    | (intro t x y g)
    | (intro t x g)
    | (intro t g)
    | (extract_lets +onlyGivenNames t; clear_value t)

theorem storeWrite_kept {s₀ s : State} (hs : Kept s₀ s) (m : Nat) (a : Nat) (data : Word) : Kept s₀ (storeWrite s m a data) := by
  unfold storeWrite
  repeat' first
    | with_reducible assumption
    | (extract_lets +onlyGivenNames t; refine (fun (g : Kept s₀ t) => ?_) ?_; clear_value t; rotate_left; subst t)
    | with_reducible apply sysReset_kept
    | with_reducible apply raiseFltWith_kept
    | with_reducible apply setFreq_kept
    | with_reducible apply stepGo_kept
    | with_reducible apply applyCodes_kept
    | with_reducible apply capture_kept
    | with_reducible apply requestSync_kept
    | with_reducible apply State.wr_kept
    | (with_reducible refine foldl_kept _ ?_ _ ?_)
    | (with_reducible refine foldr_kept _ ?_ _ ?_)
    | split

theorem storeMemory_kept {s₀ s : State} (hs : Kept s₀ s) (a : Nat) (n : Nat) (data : Word) : Kept s₀ (storeMemory s a n data) := by
  unfold storeMemory
  repeat' first
    | with_reducible assumption
    | with_reducible apply overwriteStore_kept
    | with_reducible apply State.writeBytes_kept
    | (with_reducible refine foldl_kept _ ?_ _ ?_)
    | (with_reducible refine foldr_kept _ ?_ _ ?_)
    | split

theorem landBusWrite_kept {s₀ s : State} (hs : Kept s₀ s) (m : Nat) (a : Nat) (n : Nat) (data : Word) : Kept s₀ (landBusWrite s m a n data) := by
  unfold landBusWrite
  repeat' first
    | with_reducible assumption
    | with_reducible apply storeWrite_kept
    | with_reducible apply State.noteWrite_kept
    | with_reducible apply storeMemory_kept
    | (with_reducible refine foldl_kept _ ?_ _ ?_)
    | (with_reducible refine foldr_kept _ ?_ _ ?_)
    | split

theorem jtagWrite_kept {s₀ s : State} (hs : Kept s₀ s) (a : Nat) (data : Word) : Kept s₀ (jtagWrite s a data) := by
  unfold jtagWrite
  repeat' first
    | with_reducible assumption
    | with_reducible apply noteJtagWrite_kept
    | with_reducible apply wordAccess_kept
    | with_reducible apply landBusWrite_kept
    | (with_reducible refine foldl_kept _ ?_ _ ?_)
    | (with_reducible refine foldr_kept _ ?_ _ ?_)
    | split
    | (intro t x y g)
    | (intro t x g)
    | (intro t g)

theorem jtagRead_kept {s₀ s : State} (hs : Kept s₀ s) (a : Nat) : Kept s₀ (jtagRead s a) := by
  unfold jtagRead
  repeat' first
    | with_reducible assumption
    | with_reducible apply wordAccess_kept
    | with_reducible apply failRead_kept
    | with_reducible apply countRead_kept
    | (with_reducible refine foldl_kept _ ?_ _ ?_)
    | (with_reducible refine foldr_kept _ ?_ _ ?_)
    | split
    | (intro t x y g)
    | (intro t x g)
    | (intro t g)

theorem jtagDo_kept {s₀ s : State} (hs : Kept s₀ s) (op : JtagOp) : Kept s₀ (jtagDo s op) := by
  unfold jtagDo
  repeat' first
    | with_reducible assumption
    | (with_reducible exact Kept.trust (by with_reducible assumption) _ ⟨⟨id, id, fun _ => id, fun _ => id⟩, id⟩)
    | with_reducible apply modTrust_kept
    | with_reducible apply jtagRead_kept
    | with_reducible apply jtagWrite_kept
    | (with_reducible refine foldl_kept _ ?_ _ ?_)
    | (with_reducible refine foldr_kept _ ?_ _ ?_)
    | exact fun _ => ⟨⟨id, id, fun _ => id, fun _ => id⟩, id⟩
    | split

theorem execFirewallViolation_kept {s₀ s t : State} {m : BitVec 6} {addr : BitVec 32} {dir : BusDir} (hs : Kept s₀ s) (e : execFirewallViolation m addr dir s = .next t) : Kept s₀ t := by
  unfold execFirewallViolation at e
  cases e
  repeat' first
    | with_reducible assumption
    | with_reducible apply settle_kept
    | with_reducible apply noteIssue_kept
    | with_reducible apply violation_kept
    | (with_reducible refine foldl_kept _ ?_ _ ?_)
    | exact fun _ => ⟨⟨id, id, fun _ => id, fun _ => id⟩, id⟩
    | split
    | (intro t x g)
    | (intro t g)
    | (extract_lets +onlyGivenNames t; clear_value t)

theorem execBusErrorAccess_kept {s₀ s t : State} {m : BitVec 6} {addr : BitVec 32} {width : AccessWidth} {write : Bool} (hs : Kept s₀ s) (e : execBusErrorAccess m addr width write s = .next t) : Kept s₀ t := by
  unfold execBusErrorAccess at e
  cases e
  repeat' first
    | with_reducible assumption
    | with_reducible apply settle_kept
    | with_reducible apply noteIssue_kept
    | with_reducible apply busError_kept
    | with_reducible apply failRead_kept
    | (with_reducible refine foldl_kept _ ?_ _ ?_)
    | exact fun _ => ⟨⟨id, id, fun _ => id, fun _ => id⟩, id⟩
    | split
    | (intro t x g)
    | (intro t g)
    | (extract_lets +onlyGivenNames t; clear_value t)

theorem execRegisterWrite_kept {s₀ s t : State} {m : BitVec 6} {addr : BitVec 32} {data : BusData} (hs : Kept s₀ s) (e : execRegisterWrite m addr data s = .next t) : Kept s₀ t := by
  unfold execRegisterWrite at e
  cases e
  repeat' first
    | with_reducible assumption
    | with_reducible apply settle_kept
    | with_reducible apply busAccess_kept
    | with_reducible apply landBusWrite_kept
    | (with_reducible refine foldl_kept _ ?_ _ ?_)
    | exact fun _ => ⟨⟨id, id, fun _ => id, fun _ => id⟩, id⟩
    | split
    | (intro t x g)
    | (intro t g)

theorem execJtagAccess_kept {s₀ s t : State} {op : JtagOp} (hs : Kept s₀ s) (e : execJtagAccess op s = .next t) : Kept s₀ t := by
  unfold execJtagAccess at e
  cases e
  repeat' first
    | with_reducible assumption
    | with_reducible apply settle_kept
    | with_reducible apply jtagDo_kept
    | (with_reducible refine foldl_kept _ ?_ _ ?_)
    | exact fun _ => ⟨⟨id, id, fun _ => id, fun _ => id⟩, id⟩
    | split

end Sys2Proof.Machine
end

