-- ==== Sys2Proof/Laws/KeepWheelRegs.lean ====
section
/-! SUPPORT. What the operations of Machine/WheelRegs.lean keep (Laws/Keep.lean): one lemma for each. -/

namespace Sys2Proof.Machine

open Sys2Proof

theorem putWheelWord_kept {s₀ s : State} (hs : Kept s₀ s) (a : Nat) (w : Word) : Kept s₀ (putWheelWord s a w) := by
  unfold putWheelWord
  repeat' first
    | with_reducible assumption
    | with_reducible apply setFreq_kept
    | with_reducible apply State.wrWord_kept
    | (with_reducible refine foldl_kept _ ?_ _ ?_)
    | (with_reducible refine foldr_kept _ ?_ _ ?_)
    | split

end Sys2Proof.Machine
end

