-- ==== Sys2Proof/Laws/KeepLoad.lean ====
section
/-! SUPPORT. What the operations of Machine/Load.lean keep (Laws/Keep.lean): one lemma for each. -/

namespace Sys2Proof.Machine

open Sys2Proof

theorem startFailure_kept {s₀ s : State} (hs : Kept s₀ s) : Kept s₀ (startFailure s) := by
  unfold startFailure
  repeat' first
    | with_reducible assumption
    | with_reducible apply sysReset_kept
    | with_reducible apply State.event_kept

theorem rejectSlot_kept {s₀ s : State} (hs : Kept s₀ s) (k : Nat) (c : Nat) : Kept s₀ (rejectSlot s k c) := by
  unfold rejectSlot
  repeat' first
    | with_reducible assumption
    | with_reducible apply State.event_kept
    | with_reducible apply State.wr_kept

theorem fuseOwner_kept {s₀ s : State} (hs : Kept s₀ s) (k : Nat) (r : FuseResult) : Kept s₀ (fuseOwner s k r).1 := by
  unfold fuseOwner
  split
  · exact hs
  · next hl =>
    split
    · exact hs
    · next i hi =>
      have ho : s.trust.ownerSlot = none := by
        by_contra hne
        apply hl
        obtain ⟨o, ho⟩ := Option.ne_none_iff_exists'.mp hne
        unfold TrustSt.life
        simp [ho]
        split <;> simp
      extract_lets t u
      have ht : Kept s₀ t := hs.trust _ ⟨fuseSlot_fuses hi _ _, fun _ => fuseSlot_first ho _ _ _⟩
      clear_value t
      have hu : Kept s₀ u := by
        dsimp only [u]
        split
        · exact ht.trust _ ⟨⟨fun _ => rfl, id, fun _ => id, fun _ => id⟩, id⟩
        · exact ht
      clear_value u
      split
      · exact brownOut_kept hu
      · split <;> exact hu

theorem judgeSlot_kept {s₀ s : State} (hs : Kept s₀ s) (k : Nat) (r : FlashRead) (fuse : FuseResult) :
    Kept s₀ (judgeSlot s k r fuse).1 := by
  unfold judgeSlot
  split
  · exact rejectSlot_kept hs _ _
  · have h := fuseOwner_kept hs k fuse
    split
    · next t c e =>
      rw [e] at h
      dsimp only
      split
      · exact h
      · exact rejectSlot_kept h _ _
    · next t e => rw [e] at h; exact State.wr_kept h _ _

theorem judgeSlots_kept {s₀ s : State} (hs : Kept s₀ s) (reads : Nat → FlashRead) (fuses : Nat → FuseResult) (ks : List Nat) :
    Kept s₀ (judgeSlots s reads fuses ks).1 := by
  induction ks generalizing s with
  | nil => exact hs
  | cons k ks ih =>
    unfold judgeSlots
    have h := judgeSlot_kept hs k (reads k) (fuses k)
    split
    · next t e => rw [e] at h; exact h
    · next t e =>
      rw [e] at h
      split
      · exact h
      · exact ih h

theorem rejectHeaders_kept {s₀ s : State} (hs : Kept s₀ s) (reads : Nat → FlashRead) : Kept s₀ (rejectHeaders s reads) := by
  unfold rejectHeaders
  repeat' first
    | with_reducible assumption
    | with_reducible apply rejectSlot_kept
    | (with_reducible refine foldl_kept _ ?_ _ ?_)
    | (with_reducible refine foldr_kept _ ?_ _ ?_)
    | split
    | (intro t x y g)
    | (intro t x g)

theorem chooseSlot_kept {s₀ s : State} (hs : Kept s₀ s) (reads : Nat → FlashRead) (fuses : Nat → FuseResult) : Kept s₀ (chooseSlot s reads fuses).1 := by
  unfold chooseSlot
  repeat' first
    | with_reducible assumption
    | with_reducible apply judgeSlots_kept
    | with_reducible apply State.wr_kept
    | with_reducible apply rejectHeaders_kept

theorem applyRegWord_kept {s₀ s : State} (hs : Kept s₀ s) (q : Nat × Word) : Kept s₀ (applyRegWord s q) := by
  unfold applyRegWord
  repeat' first
    | with_reducible assumption
    | (extract_lets +onlyGivenNames t; refine (fun (g : Kept s₀ t) => ?_) ?_; clear_value t; rotate_left; subst t)
    | with_reducible apply putWheelWord_kept
    | with_reducible apply stepGo_kept
    | (with_reducible refine foldl_kept _ ?_ _ ?_)
    | (with_reducible refine foldr_kept _ ?_ _ ?_)
    | split

theorem writeEngWords_kept {s₀ s : State} (hs : Kept s₀ s) (v : Vat) (c : Nat) (o : Nat) (ws : List Word) :
    Kept s₀ (writeEngWords s v c o ws) := by
  induction ws generalizing s o with
  | nil => exact hs
  | cons w ws ih => exact ih (writeEng_kept hs v c o w) (o + 1)

theorem writeInst_kept {s₀ s : State} (hs : Kept s₀ s) (v : Vat) (c : Nat) (slot : Nat) (i : Nat) (b : RawBlock) (d : InstDef) : Kept s₀ (writeInst s v c slot i b d) := by
  unfold writeInst
  repeat' first
    | with_reducible assumption
    | (extract_lets +onlyGivenNames t; refine (fun (g : Kept s₀ t) => ?_) ?_; clear_value t; rotate_left; subst t)
    | with_reducible apply writeEng_kept
    | with_reducible apply writeEngWords_kept

theorem writePlaced_kept {s₀ s : State} (hs : Kept s₀ s) (v : Vat) (c : Nat) (slot : Nat) (p : Placed) : Kept s₀ (writePlaced s v c slot p) := by
  unfold writePlaced
  repeat' first
    | with_reducible assumption
    | with_reducible apply writeInst_kept
    | (with_reducible refine foldl_kept _ ?_ _ ?_)
    | (with_reducible refine foldr_kept _ ?_ _ ?_)
    | split
    | (intro t x y g)
    | (intro t x g)

theorem writeEngine_kept {s₀ s : State} (hs : Kept s₀ s) (v : Vat) (c : Nat) (l : EngineLay) : Kept s₀ (writeEngine s v c l) := by
  unfold writeEngine
  repeat' first
    | with_reducible assumption
    | (extract_lets +onlyGivenNames t; refine (fun (g : Kept s₀ t) => ?_) ?_; clear_value t; rotate_left; subst t)
    | with_reducible apply writePlaced_kept
    | with_reducible apply writeEngWords_kept
    | with_reducible apply State.wr_kept
    | (with_reducible refine foldl_kept _ ?_ _ ?_)
    | (with_reducible refine foldr_kept _ ?_ _ ?_)
    | split
    | (intro t x y g)
    | (intro t x g)

theorem applyGraphs_kept {s₀ s : State} (hs : Kept s₀ s) (w : WheelImage) : Kept s₀ (applyGraphs s w) := by
  unfold applyGraphs
  repeat' first
    | with_reducible assumption
    | (extract_lets +onlyGivenNames t; refine (fun (g : Kept s₀ t) => ?_) ?_; clear_value t; rotate_left; subst t)
    | with_reducible apply forVats_kept
    | with_reducible apply writeEngine_kept
    | with_reducible apply bindGraph_kept
    | (with_reducible refine foldl_kept _ ?_ _ ?_)
    | (with_reducible refine foldr_kept _ ?_ _ ?_)
    | split
    | (intro t x y g)
    | (intro t x g)
    | (intro t g)
    | (extract_lets +onlyGivenNames t; clear_value t)
    | with_reducible apply Kept.update

theorem applyCan_kept {s₀ s : State} (hs : Kept s₀ s) (w : WheelImage) : Kept s₀ (applyCan s w) := by
  unfold applyCan
  repeat' first
    | with_reducible assumption
    | (extract_lets +onlyGivenNames t; refine (fun (g : Kept s₀ t) => ?_) ?_; clear_value t; rotate_left; subst t)
    | (with_reducible exact Kept.trust (by with_reducible assumption) _ ⟨⟨id, id, fun _ => id, fun _ => id⟩, id⟩)
    | with_reducible apply modTrust_kept
    | with_reducible apply modCan_kept
    | with_reducible apply writeSignals_kept
    | with_reducible apply State.set1_kept
    | with_reducible apply forN_kept
    | with_reducible apply State.wr_kept
    | (with_reducible refine foldl_kept _ ?_ _ ?_)
    | (with_reducible refine foldr_kept _ ?_ _ ?_)
    | exact fun _ => ⟨⟨id, id, fun _ => id, fun _ => id⟩, id⟩
    | split
    | (intro t x y g)
    | (intro t x g)
    | (intro t g)
    | (extract_lets +onlyGivenNames t; clear_value t)
    | with_reducible apply Kept.update

theorem startPeriods_kept {s₀ s : State} (hs : Kept s₀ s) : Kept s₀ (startPeriods s) := by
  unfold startPeriods
  repeat' first
    | with_reducible assumption
    | with_reducible apply forVats_kept
    | with_reducible apply forN_kept
    | with_reducible apply State.wr_kept
    | with_reducible apply refreshCmp_kept
    | with_reducible apply modPort_kept
    | (with_reducible refine foldl_kept _ ?_ _ ?_)
    | (with_reducible refine foldr_kept _ ?_ _ ?_)
    | split
    | (intro t x y g)
    | (intro t x g)

theorem wheelRegisters_kept {s₀ s : State} (hs : Kept s₀ s) (k : Nat) (rs : List WheelRec) : Kept s₀ (wheelRegisters s k rs) := by
  unfold wheelRegisters
  repeat' first
    | with_reducible assumption
    | with_reducible apply State.wr_kept
    | with_reducible apply State.event_kept

theorem applyWheel_kept {s₀ s : State} (hs : Kept s₀ s) (k : Nat) (rs : List WheelRec) : Kept s₀ (applyWheel s k rs) := by
  unfold applyWheel
  repeat' first
    | with_reducible assumption
    | (extract_lets +onlyGivenNames t; refine (fun (g : Kept s₀ t) => ?_) ?_; clear_value t; rotate_left; subst t)
    | with_reducible apply wheelRegisters_kept
    | with_reducible apply startPeriods_kept
    | with_reducible apply applyCan_kept
    | with_reducible apply applyGraphs_kept
    | with_reducible apply applyRegWord_kept
    | (with_reducible refine foldl_kept _ ?_ _ ?_)
    | (with_reducible refine foldr_kept _ ?_ _ ?_)
    | split
    | (intro t x y g)
    | (intro t x g)
    | (intro t g)
    | (extract_lets +onlyGivenNames t; clear_value t)

theorem applyPatch_kept {s₀ s : State} (hs : Kept s₀ s) : Kept s₀ (applyPatch s) := by
  unfold applyPatch
  repeat' first
    | with_reducible assumption
    | with_reducible apply State.set1_kept
    | with_reducible apply State.event_kept
    | with_reducible apply State.wr_kept
    | (with_reducible refine foldl_kept _ ?_ _ ?_)
    | (with_reducible refine foldr_kept _ ?_ _ ?_)
    | split
    | (intro t x y g)
    | (intro t x g)
    | (intro t g)
    | (extract_lets +onlyGivenNames t; clear_value t)

theorem startVats_kept {s₀ s : State} (hs : Kept s₀ s) : Kept s₀ (startVats s) := by
  unfold startVats
  repeat' first
    | with_reducible assumption
    | (extract_lets +onlyGivenNames t; refine (fun (g : Kept s₀ t) => ?_) ?_; clear_value t; rotate_left; subst t)
    | with_reducible apply forVats_kept
    | with_reducible apply State.set1_kept
    | with_reducible apply State.modVat_kept
    | with_reducible apply takeover_kept
    | with_reducible apply setRole_kept
    | (with_reducible refine foldl_kept _ ?_ _ ?_)
    | (with_reducible refine foldr_kept _ ?_ _ ?_)
    | split
    | (intro t x y g)
    | (intro t x g)

theorem startGroup_kept {s₀ s : State} (hs : Kept s₀ s) (v : Vat) (g : Nat) : Kept s₀ (startGroup s v g) := by
  unfold startGroup
  repeat' first
    | with_reducible assumption
    | (extract_lets +onlyGivenNames t; refine (fun (g : Kept s₀ t) => ?_) ?_; clear_value t; rotate_left; subst t)
    | with_reducible apply requestAuto_kept
    | with_reducible apply groupLoss_kept
    | (with_reducible refine foldl_kept _ ?_ _ ?_)
    | (with_reducible refine foldr_kept _ ?_ _ ?_)
    | split

theorem startRamp_kept {s₀ s : State} (hs : Kept s₀ s) : Kept s₀ (startRamp s) := by
  unfold startRamp
  repeat' first
    | with_reducible assumption
    | (extract_lets +onlyGivenNames t; refine (fun (g : Kept s₀ t) => ?_) ?_; clear_value t; rotate_left; subst t)
    | with_reducible apply State.set1_kept
    | with_reducible apply State.wrWord_kept
    | (with_reducible refine foldl_kept _ ?_ _ ?_)
    | (with_reducible refine foldr_kept _ ?_ _ ?_)
    | split

theorem startUnits_kept {s₀ s : State} (hs : Kept s₀ s) : Kept s₀ (startUnits s) := by
  unfold startUnits
  repeat' first
    | with_reducible assumption
    | (extract_lets +onlyGivenNames t; refine (fun (g : Kept s₀ t) => ?_) ?_; clear_value t; rotate_left; subst t)
    | with_reducible apply forVats_kept
    | with_reducible apply forN_kept
    | with_reducible apply startCarrier_kept
    | with_reducible apply startGroup_kept
    | with_reducible apply auxStart_kept
    | with_reducible apply startRecorder_kept
    | with_reducible apply startRamp_kept
    | (with_reducible refine foldl_kept _ ?_ _ ?_)
    | (with_reducible refine foldr_kept _ ?_ _ ?_)
    | split
    | (intro t x y g)
    | (intro t x g)
    | (intro t g)
    | (extract_lets +onlyGivenNames t; clear_value t)
    | with_reducible apply Kept.update

theorem enterReady_kept {s₀ s : State} (hs : Kept s₀ s) : Kept s₀ (enterReady s) := by
  unfold enterReady
  repeat' first
    | with_reducible assumption
    | (extract_lets +onlyGivenNames t; refine (fun (g : Kept s₀ t) => ?_) ?_; clear_value t; rotate_left; subst t)
    | with_reducible apply markAsserted_kept
    | with_reducible apply judgeInputs_kept
    | with_reducible apply State.wr_kept
    | with_reducible apply enterSafeStop_kept
    | with_reducible apply setDev_kept
    | with_reducible apply gateOn_kept
    | (with_reducible refine foldl_kept _ ?_ _ ?_)
    | (with_reducible refine foldr_kept _ ?_ _ ?_)
    | split
    | (intro t x y g)
    | (intro t x g)
    | (intro t g)
    | (extract_lets +onlyGivenNames t; clear_value t)
    | with_reducible apply Kept.update

theorem resetFlagged_kept {s₀ s : State} (hs : Kept s₀ s) : Kept s₀ (resetFlagged s) := by
  unfold resetFlagged
  repeat' first
    | with_reducible assumption
    | with_reducible apply vatReset_kept
    | (with_reducible refine foldl_kept _ ?_ _ ?_)
    | (with_reducible refine foldr_kept _ ?_ _ ?_)
    | split
    | (intro t x y g)
    | (intro t x g)

theorem loadWheel_kept {s₀ s : State} (hs : Kept s₀ s) (reads : Nat → FlashRead) (fuses : Nat → FuseResult) :
    Kept s₀ (loadWheel s reads fuses) := by
  unfold loadWheel
  have h := chooseSlot_kept hs reads fuses
  split
  · exact startFailure_kept hs
  · split
    · next t e =>
      rw [e] at h
      split
      · exact h
      · exact startFailure_kept h
    · next t k e =>
      rw [e] at h
      exact resetFlagged_kept (enterReady_kept (startUnits_kept (startVats_kept (applyPatch_kept (applyWheel_kept h _ _)))))

theorem execWheelLoaded_kept {s₀ s t : State} {r0 : FlashRead} {r1 : FlashRead} {fuse0 : FuseResult} {fuse1 : FuseResult} (hs : Kept s₀ s) (e : execWheelLoaded r0 r1 fuse0 fuse1 s = .next t) : Kept s₀ t := by
  unfold execWheelLoaded at e
  cases e
  repeat' first
    | with_reducible assumption
    | with_reducible apply settle_kept
    | with_reducible apply loadWheel_kept
    | (with_reducible refine foldl_kept _ ?_ _ ?_)
    | exact fun _ => ⟨⟨id, id, fun _ => id, fun _ => id⟩, id⟩
    | split

end Sys2Proof.Machine
end

