-- ==== Sys2Proof/Laws/KeepStart.lean ====
section
/-! SUPPORT. What the operations of Machine/Start.lean keep (Laws/Keep.lean): one lemma for each. -/

namespace Sys2Proof.Machine

open Sys2Proof

theorem powerOn_kept {s₀ s : State} (hs : Kept s₀ s) (strap : Nat) (idFails : Nat) (bank33 : Nat) : Kept s₀ (powerOn s strap idFails bank33) := by
  unfold powerOn
  repeat' first
    | with_reducible assumption
    | with_reducible apply recordCause_kept
    | with_reducible apply porCleared_kept
    | with_reducible apply State.wr_kept
    | (with_reducible refine foldl_kept _ ?_ _ ?_)
    | (with_reducible refine foldr_kept _ ?_ _ ?_)
    | split
    | (intro t x y g)
    | (intro t x g)
    | (intro t g)
    | (extract_lets +onlyGivenNames t; clear_value t)
    | with_reducible apply Kept.update

theorem recordHeld_kept {s₀ s : State} (hs : Kept s₀ s) (held : Nat) : Kept s₀ (recordHeld s held) := by
  unfold recordHeld
  repeat' first
    | with_reducible assumption
    | with_reducible apply State.wr_kept
    | (with_reducible refine foldl_kept _ ?_ _ ?_)
    | (with_reducible refine foldr_kept _ ?_ _ ?_)
    | split

theorem checkerFails_kept {s₀ s : State} (hs : Kept s₀ s) (v : Vat) : Kept s₀ (checkerFails s v) := by
  unfold checkerFails
  repeat' first
    | with_reducible assumption
    | with_reducible apply vatReset_kept
    | with_reducible apply raiseFltWith_kept
    | (with_reducible refine foldl_kept _ ?_ _ ?_)
    | (with_reducible refine foldr_kept _ ?_ _ ?_)
    | split

theorem stageTrims_kept {s₀ s : State} (hs : Kept s₀ s) (ok : Bool) : Kept s₀ (stageTrims s ok) := by
  unfold stageTrims
  repeat' first
    | with_reducible assumption
    | (extract_lets +onlyGivenNames t; refine (fun (g : Kept s₀ t) => ?_) ?_; clear_value t; rotate_left; subst t)
    | with_reducible apply State.set1_kept
    | with_reducible apply startFailure_kept
    | with_reducible apply State.wr_kept
    | (with_reducible refine foldl_kept _ ?_ _ ?_)
    | (with_reducible refine foldr_kept _ ?_ _ ?_)
    | split
    | (intro t x y g)
    | (intro t x g)
    | (intro t g)
    | (extract_lets +onlyGivenNames t; clear_value t)
    | with_reducible apply Kept.update

theorem beginLog_kept {s₀ s : State} (hs : Kept s₀ s) : Kept s₀ (beginLog s) := by
  unfold beginLog
  repeat' first
    | with_reducible assumption
    | (extract_lets +onlyGivenNames t; refine (fun (g : Kept s₀ t) => ?_) ?_; clear_value t; rotate_left; subst t)
    | with_reducible apply State.event_kept
    | with_reducible apply selectTail_kept
    | (with_reducible refine foldl_kept _ ?_ _ ?_)
    | (with_reducible refine foldr_kept _ ?_ _ ?_)
    | split

theorem recoveryCheck_kept {s₀ s : State} (hs : Kept s₀ s) (k : Nat) (r : FlashRead) : Kept s₀ (recoveryCheck s k r) := by
  unfold recoveryCheck
  repeat' first
    | with_reducible assumption
    | with_reducible apply rejectSlot_kept
    | with_reducible apply State.wr_kept
    | (with_reducible refine foldl_kept _ ?_ _ ?_)
    | (with_reducible refine foldr_kept _ ?_ _ ?_)
    | split

theorem enterRecovery_kept {s₀ s : State} (hs : Kept s₀ s) (flash : FlashOpen) (r1 : FlashRead) : Kept s₀ (enterRecovery s flash r1) := by
  unfold enterRecovery
  repeat' first
    | with_reducible assumption
    | with_reducible apply State.event_kept
    | with_reducible apply setDev_kept
    | with_reducible apply recoveryCheck_kept
    | with_reducible apply State.wr_kept
    | (with_reducible refine foldl_kept _ ?_ _ ?_)
    | (with_reducible refine foldr_kept _ ?_ _ ?_)
    | split
    | (intro t x y g)
    | (intro t x g)
    | (intro t g)
    | (extract_lets +onlyGivenNames t; clear_value t)
    | with_reducible apply Kept.update

theorem readStore_kept {s₀ s : State} (hs : Kept s₀ s) : Kept s₀ (readStore s) := by
  unfold readStore
  repeat' first
    | with_reducible assumption
    | (extract_lets +onlyGivenNames t; refine (fun (g : Kept s₀ t) => ?_) ?_; clear_value t; rotate_left; subst t)
    | with_reducible apply State.wrPair_kept
    | with_reducible apply State.wr_kept
    | with_reducible apply showConf_kept
    | (with_reducible refine foldl_kept _ ?_ _ ?_)
    | (with_reducible refine foldr_kept _ ?_ _ ?_)
    | split

theorem judgeStart_kept {s₀ s : State} (hs : Kept s₀ s) (flash : FlashOpen) (r1 : FlashRead) : Kept s₀ (judgeStart s flash r1) := by
  unfold judgeStart
  repeat' first
    | with_reducible assumption
    | (extract_lets +onlyGivenNames t; refine (fun (g : Kept s₀ t) => ?_) ?_; clear_value t; rotate_left; subst t)
    | (with_reducible exact Kept.trust (by with_reducible assumption) _ ⟨⟨id, id, fun _ => id, fun _ => id⟩, id⟩)
    | with_reducible apply readStore_kept
    | with_reducible apply State.wr_kept
    | with_reducible apply modTrust_kept
    | with_reducible apply enterRecovery_kept
    | with_reducible apply beginLog_kept
    | with_reducible apply setStartFails_kept
    | (with_reducible refine foldl_kept _ ?_ _ ?_)
    | (with_reducible refine foldr_kept _ ?_ _ ?_)
    | exact fun t => ⟨⟨fun h => by simp [h], id, fun _ => id, fun _ => id⟩, id⟩
    | exact fun _ => ⟨⟨id, id, fun _ => id, fun _ => id⟩, id⟩
    | split
    | (intro t x y g)
    | (intro t x g)
    | (intro t g)
    | (extract_lets +onlyGivenNames t; clear_value t)
    | with_reducible apply Kept.update

theorem releaseDomain_kept {s₀ s : State} (hs : Kept s₀ s) (d : Domain) : Kept s₀ (releaseDomain s d) := by
  unfold releaseDomain
  repeat' first
    | with_reducible assumption
    | (extract_lets +onlyGivenNames t; refine (fun (g : Kept s₀ t) => ?_) ?_; clear_value t; rotate_left; subst t)
    | with_reducible apply setDev_kept
    | with_reducible apply State.wr_kept
    | with_reducible apply State.set1_kept
    | (with_reducible refine foldl_kept _ ?_ _ ?_)
    | (with_reducible refine foldr_kept _ ?_ _ ?_)
    | split
    | (intro t x y g)
    | (intro t x g)
    | (intro t g)
    | (extract_lets +onlyGivenNames t; clear_value t)
    | with_reducible apply Kept.update

theorem countWithdrawn_kept {s₀ s : State} (hs : Kept s₀ s) (d : Domain) : Kept s₀ (countWithdrawn s d) := by
  unfold countWithdrawn
  repeat' first
    | with_reducible assumption
    | (with_reducible refine foldl_kept _ ?_ _ ?_)
    | (with_reducible refine foldr_kept _ ?_ _ ?_)
    | split
    | (intro t x y g)
    | (intro t x g)
    | (intro t g)
    | (extract_lets +onlyGivenNames t; clear_value t)
    | with_reducible apply Kept.update

theorem withdrawStart_kept {s₀ s : State} (hs : Kept s₀ s) (d : Domain) : Kept s₀ (withdrawStart s d) := by
  unfold withdrawStart
  repeat' first
    | with_reducible assumption
    | (extract_lets +onlyGivenNames t; refine (fun (g : Kept s₀ t) => ?_) ?_; clear_value t; rotate_left; subst t)
    | with_reducible apply State.wrBit_kept
    | with_reducible apply countWithdrawn_kept
    | with_reducible apply State.wr_kept
    | with_reducible apply startFailure_kept
    | (with_reducible refine foldl_kept _ ?_ _ ?_)
    | (with_reducible refine foldr_kept _ ?_ _ ?_)
    | split

theorem withdrawVat_kept {s₀ s : State} (hs : Kept s₀ s) (d : Domain) (v : Vat) : Kept s₀ (withdrawVat s d v) := by
  unfold withdrawVat
  repeat' first
    | with_reducible assumption
    | (extract_lets +onlyGivenNames t; refine (fun (g : Kept s₀ t) => ?_) ?_; clear_value t; rotate_left; subst t)
    | with_reducible apply State.wrBit_kept
    | with_reducible apply countWithdrawn_kept
    | with_reducible apply failVat_kept
    | (with_reducible refine foldl_kept _ ?_ _ ?_)
    | (with_reducible refine foldr_kept _ ?_ _ ?_)
    | split
    | (intro t x y g)
    | (intro t x g)
    | (intro t g)
    | (extract_lets +onlyGivenNames t; clear_value t)
    | with_reducible apply Kept.update

theorem withdrawInRecovery_kept {s₀ s : State} (hs : Kept s₀ s) (d : Domain) (v : Vat) : Kept s₀ (withdrawInRecovery s d v) := by
  unfold withdrawInRecovery
  repeat' first
    | with_reducible assumption
    | (extract_lets +onlyGivenNames t; refine (fun (g : Kept s₀ t) => ?_) ?_; clear_value t; rotate_left; subst t)
    | with_reducible apply State.wrBit_kept
    | with_reducible apply countWithdrawn_kept
    | with_reducible apply failVat_kept
    | (with_reducible refine foldl_kept _ ?_ _ ?_)
    | (with_reducible refine foldr_kept _ ?_ _ ?_)
    | split

theorem raiseFloor_kept {s₀ s : State} (hs : Kept s₀ s) : Kept s₀ (raiseFloor s) := by
  unfold raiseFloor
  repeat' first
    | with_reducible assumption
    | with_reducible apply State.event_kept
    | with_reducible apply State.wrPair_kept
    | (with_reducible refine foldl_kept _ ?_ _ ?_)
    | (with_reducible refine foldr_kept _ ?_ _ ?_)
    | split
    | (intro t x y g)
    | (intro t x g)
    | (intro t g)
    | (extract_lets +onlyGivenNames t; clear_value t)
    | with_reducible apply Kept.update

theorem raisePatchFloor_kept {s₀ s : State} (hs : Kept s₀ s) : Kept s₀ (raisePatchFloor s) := by
  unfold raisePatchFloor
  repeat' first
    | with_reducible assumption
    | with_reducible apply State.wrPair_kept
    | (with_reducible refine foldl_kept _ ?_ _ ?_)
    | (with_reducible refine foldr_kept _ ?_ _ ?_)
    | split
    | (intro t x y g)
    | (intro t x g)
    | (intro t g)
    | (extract_lets +onlyGivenNames t; clear_value t)
    | with_reducible apply Kept.update

theorem execPowerOnReset_kept {s₀ s t : State} {strap : BitVec 2} {idFails : Fin 4} {bank33 : BitVec 8} (hs : Kept s₀ s) (e : execPowerOnReset strap idFails bank33 s = .next t) : Kept s₀ t := by
  unfold execPowerOnReset at e
  cases e
  repeat' first
    | with_reducible assumption
    | with_reducible apply settle_kept
    | with_reducible apply powerOn_kept

theorem execBrownOut_kept {s₀ s t : State}  (hs : Kept s₀ s) (e : execBrownOut s = .next t) : Kept s₀ t := by
  unfold execBrownOut at e
  cases e
  repeat' first
    | with_reducible assumption
    | with_reducible apply settle_kept
    | with_reducible apply brownOut_kept
    | (with_reducible refine foldl_kept _ ?_ _ ?_)
    | exact fun _ => ⟨⟨id, id, fun _ => id, fun _ => id⟩, id⟩
    | split

theorem execResetNAssert_kept {s₀ s t : State}  (hs : Kept s₀ s) (e : execResetNAssert s = .next t) : Kept s₀ t := by
  unfold execResetNAssert at e
  cases e
  repeat' first
    | with_reducible assumption
    | (extract_lets +onlyGivenNames t; refine (fun (g : Kept s₀ t) => ?_) ?_; clear_value t; rotate_left; subst t)
    | with_reducible apply settle_kept
    | with_reducible apply sysReset_kept
    | (with_reducible refine foldl_kept _ ?_ _ ?_)
    | exact fun _ => ⟨⟨id, id, fun _ => id, fun _ => id⟩, id⟩
    | split
    | (intro t x g)
    | (intro t g)
    | (extract_lets +onlyGivenNames t; clear_value t)
    | with_reducible apply Kept.update

theorem execResetNHeld_kept {s₀ s t : State}  (hs : Kept s₀ s) (e : execResetNHeld s = .next t) : Kept s₀ t := by
  unfold execResetNHeld at e
  cases e
  repeat' first
    | with_reducible assumption
    | (extract_lets +onlyGivenNames t; refine (fun (g : Kept s₀ t) => ?_) ?_; clear_value t; rotate_left; subst t)
    | with_reducible apply settle_kept
    | with_reducible apply State.wr_kept
    | with_reducible apply State.set1_kept
    | (with_reducible refine foldl_kept _ ?_ _ ?_)
    | exact fun _ => ⟨⟨id, id, fun _ => id, fun _ => id⟩, id⟩
    | split
    | (intro t x g)
    | (intro t g)
    | (extract_lets +onlyGivenNames t; clear_value t)
    | with_reducible apply Kept.update

theorem execResetNRelease_kept {s₀ s t : State} {held : Nat} (hs : Kept s₀ s) (e : execResetNRelease held s = .next t) : Kept s₀ t := by
  unfold execResetNRelease at e
  cases e
  repeat' first
    | with_reducible assumption
    | with_reducible apply settle_kept
    | with_reducible apply recordHeld_kept
    | (with_reducible refine foldl_kept _ ?_ _ ?_)
    | exact fun _ => ⟨⟨id, id, fun _ => id, fun _ => id⟩, id⟩
    | split
    | (intro t x g)
    | (intro t g)
    | (extract_lets +onlyGivenNames t; clear_value t)
    | with_reducible apply Kept.update

theorem execSysreq_kept {s₀ s t : State} {v : Vat} (hs : Kept s₀ s) (e : execSysreq v s = .next t) : Kept s₀ t := by
  unfold execSysreq at e
  cases e
  repeat' first
    | with_reducible assumption
    | with_reducible apply settle_kept
    | with_reducible apply sysReset_kept
    | (with_reducible refine foldl_kept _ ?_ _ ?_)
    | exact fun _ => ⟨⟨id, id, fun _ => id, fun _ => id⟩, id⟩
    | split

theorem execVatreq_kept {s₀ s t : State} {v : Vat} (hs : Kept s₀ s) (e : execVatreq v s = .next t) : Kept s₀ t := by
  unfold execVatreq at e
  cases e
  repeat' first
    | with_reducible assumption
    | with_reducible apply settle_kept
    | with_reducible apply raiseFltWith_kept
    | (with_reducible refine foldl_kept _ ?_ _ ?_)
    | exact fun _ => ⟨⟨id, id, fun _ => id, fun _ => id⟩, id⟩
    | split

theorem execVatWatchdogExpiry_kept {s₀ s t : State} {v : Vat} (hs : Kept s₀ s) (e : execVatWatchdogExpiry v s = .next t) : Kept s₀ t := by
  unfold execVatWatchdogExpiry at e
  cases e
  repeat' first
    | with_reducible assumption
    | with_reducible apply settle_kept
    | with_reducible apply raiseFlt_kept
    | (with_reducible refine foldl_kept _ ?_ _ ?_)
    | exact fun _ => ⟨⟨id, id, fun _ => id, fun _ => id⟩, id⟩
    | split

theorem execCriticalDoubleBitError_kept {s₀ s t : State} {site : Option Vat} (hs : Kept s₀ s) (e : execCriticalDoubleBitError site s = .next t) : Kept s₀ t := by
  unfold execCriticalDoubleBitError at e
  cases e
  repeat' first
    | with_reducible assumption
    | with_reducible apply settle_kept
    | with_reducible apply raiseFlt_kept
    | with_reducible apply sysReset_kept
    | (with_reducible refine foldl_kept _ ?_ _ ?_)
    | exact fun _ => ⟨⟨id, id, fun _ => id, fun _ => id⟩, id⟩
    | split

theorem execConfigParityError_kept {s₀ s t : State} {site : Option Vat} (hs : Kept s₀ s) (e : execConfigParityError site s = .next t) : Kept s₀ t := by
  unfold execConfigParityError at e
  cases e
  repeat' first
    | with_reducible assumption
    | with_reducible apply settle_kept
    | with_reducible apply raiseFltWith_kept
    | with_reducible apply sysReset_kept
    | (with_reducible refine foldl_kept _ ?_ _ ?_)
    | exact fun _ => ⟨⟨id, id, fun _ => id, fun _ => id⟩, id⟩
    | split

theorem execCheckerSelfTest_kept {s₀ s t : State} {commonOk : Bool} {aOk : Bool} {bOk : Bool} (hs : Kept s₀ s) (e : execCheckerSelfTest commonOk aOk bOk s = .next t) : Kept s₀ t := by
  unfold execCheckerSelfTest at e
  cases e
  repeat' first
    | with_reducible assumption
    | (extract_lets +onlyGivenNames t; refine (fun (g : Kept s₀ t) => ?_) ?_; clear_value t; rotate_left; subst t)
    | with_reducible apply settle_kept
    | with_reducible apply sysReset_kept
    | with_reducible apply checkerFails_kept
    | (with_reducible refine foldl_kept _ ?_ _ ?_)
    | exact fun _ => ⟨⟨id, id, fun _ => id, fun _ => id⟩, id⟩
    | split
    | (intro t x g)
    | (intro t g)
    | (extract_lets +onlyGivenNames t; clear_value t)

theorem execTrimStagingComplete_kept {s₀ s t : State} {ok : Bool} (hs : Kept s₀ s) (e : execTrimStagingComplete ok s = .next t) : Kept s₀ t := by
  unfold execTrimStagingComplete at e
  cases e
  repeat' first
    | with_reducible assumption
    | with_reducible apply settle_kept
    | with_reducible apply stageTrims_kept
    | (with_reducible refine foldl_kept _ ?_ _ ?_)
    | exact fun _ => ⟨⟨id, id, fun _ => id, fun _ => id⟩, id⟩
    | split

theorem execXspiResetRelease_kept {s₀ s t : State}  (hs : Kept s₀ s) (e : execXspiResetRelease s = .next t) : Kept s₀ t := by
  unfold execXspiResetRelease at e
  cases e
  repeat' first
    | with_reducible assumption
    | with_reducible apply settle_kept
    | (with_reducible refine foldl_kept _ ?_ _ ?_)
    | exact fun _ => ⟨⟨id, id, fun _ => id, fun _ => id⟩, id⟩
    | split
    | (intro t x g)
    | (intro t g)
    | (extract_lets +onlyGivenNames t; clear_value t)
    | with_reducible apply Kept.update

theorem execDomainRelease_kept {s₀ s t : State} {d : Domain} {r0 : FlashOpen} {r1 : FlashRead} (hs : Kept s₀ s) (e : execDomainRelease d r0 r1 s = .next t) : Kept s₀ t := by
  unfold execDomainRelease at e
  cases e
  repeat' first
    | with_reducible assumption
    | (extract_lets +onlyGivenNames t; refine (fun (g : Kept s₀ t) => ?_) ?_; clear_value t; rotate_left; subst t)
    | with_reducible apply settle_kept
    | with_reducible apply releaseDomain_kept
    | with_reducible apply judgeStart_kept
    | (with_reducible refine foldl_kept _ ?_ _ ?_)
    | exact fun _ => ⟨⟨id, id, fun _ => id, fun _ => id⟩, id⟩
    | split

theorem execDomainReleaseWithdrawn_kept {s₀ s t : State} {d : Domain} (hs : Kept s₀ s) (e : execDomainReleaseWithdrawn d s = .next t) : Kept s₀ t := by
  unfold execDomainReleaseWithdrawn at e
  cases e
  repeat' first
    | with_reducible assumption
    | with_reducible apply settle_kept
    | with_reducible apply withdrawStart_kept
    | with_reducible apply withdrawInRecovery_kept
    | with_reducible apply withdrawVat_kept
    | (with_reducible refine foldl_kept _ ?_ _ ?_)
    | exact fun _ => ⟨⟨id, id, fun _ => id, fun _ => id⟩, id⟩
    | split

theorem execSramCheckComplete_kept {s₀ s t : State} {ok : SramCheck} (hs : Kept s₀ s) (e : execSramCheckComplete ok s = .next t) : Kept s₀ t := by
  unfold execSramCheckComplete at e
  cases e
  repeat' first
    | with_reducible assumption
    | with_reducible apply settle_kept
    | with_reducible apply setDev_kept
    | with_reducible apply startFailure_kept
    | with_reducible apply State.set1_kept
    | (with_reducible refine foldl_kept _ ?_ _ ?_)
    | exact fun _ => ⟨⟨id, id, fun _ => id, fun _ => id⟩, id⟩
    | split
    | (intro t x g)
    | (intro t g)
    | (extract_lets +onlyGivenNames t; clear_value t)
    | with_reducible apply Kept.update

theorem execStartFailsClear_kept {s₀ s t : State}  (hs : Kept s₀ s) (e : execStartFailsClear s = .next t) : Kept s₀ t := by
  unfold execStartFailsClear at e
  cases e
  repeat' first
    | with_reducible assumption
    | with_reducible apply settle_kept
    | with_reducible apply raisePatchFloor_kept
    | with_reducible apply raiseFloor_kept
    | with_reducible apply setStartFails_kept
    | (with_reducible refine foldl_kept _ ?_ _ ?_)
    | exact fun _ => ⟨⟨id, id, fun _ => id, fun _ => id⟩, id⟩
    | split

end Sys2Proof.Machine
end

