-- ==== Sys2Proof/Laws/KeepClocks.lean ====
section
/-! SUPPORT. What the operations of Machine/Clocks.lean keep (Laws/Keep.lean): one lemma for each. -/

namespace Sys2Proof.Machine

open Sys2Proof

theorem clockEvent_kept {s₀ s : State} (hs : Kept s₀ s) (code : Nat) (data : Nat) : Kept s₀ (clockEvent s code data) := by
  unfold clockEvent
  repeat' first
    | with_reducible assumption
    | with_reducible apply State.event_kept
    | (with_reducible refine foldl_kept _ ?_ _ ?_)
    | (with_reducible refine foldr_kept _ ?_ _ ?_)
    | split

theorem refclkPresent_kept {s₀ s : State} (hs : Kept s₀ s) (pherr : Nat) : Kept s₀ (refclkPresent s pherr) := by
  unfold refclkPresent
  repeat' first
    | with_reducible assumption
    | (extract_lets +onlyGivenNames t; refine (fun (g : Kept s₀ t) => ?_) ?_; clear_value t; rotate_left; subst t)
    | with_reducible apply State.set1_kept
    | with_reducible apply State.wr_kept
    | (with_reducible refine foldl_kept _ ?_ _ ?_)
    | (with_reducible refine foldr_kept _ ?_ _ ?_)
    | split
    | (intro t x y g)
    | (intro t x g)
    | (intro t g)
    | (extract_lets +onlyGivenNames t; clear_value t)
    | with_reducible apply Kept.update

theorem refclkLost_kept {s₀ s : State} (hs : Kept s₀ s) : Kept s₀ (refclkLost s) := by
  unfold refclkLost
  repeat' first
    | with_reducible assumption
    | (extract_lets +onlyGivenNames t; refine (fun (g : Kept s₀ t) => ?_) ?_; clear_value t; rotate_left; subst t)
    | with_reducible apply State.incSat_kept
    | with_reducible apply State.set1_kept
    | with_reducible apply State.clr_kept
    | with_reducible apply clockEvent_kept
    | (with_reducible refine foldl_kept _ ?_ _ ?_)
    | (with_reducible refine foldr_kept _ ?_ _ ?_)
    | split
    | (intro t x y g)
    | (intro t x g)
    | (intro t g)
    | (extract_lets +onlyGivenNames t; clear_value t)
    | with_reducible apply Kept.update

theorem slewBy_kept {s₀ s : State} (hs : Kept s₀ s) (m : Int) : Kept s₀ (slewBy s m) := by
  unfold slewBy
  repeat' first
    | with_reducible assumption
    | with_reducible apply State.wr_kept
    | (with_reducible refine foldl_kept _ ?_ _ ?_)
    | (with_reducible refine foldr_kept _ ?_ _ ?_)
    | split
    | (intro t x y g)
    | (intro t x g)
    | (intro t g)
    | (extract_lets +onlyGivenNames t; clear_value t)
    | with_reducible apply Kept.update

theorem slewStep_kept {s₀ s : State} (hs : Kept s₀ s) : Kept s₀ (slewStep s) := by
  unfold slewStep
  repeat' first
    | with_reducible assumption
    | with_reducible apply slewBy_kept
    | (with_reducible refine foldl_kept _ ?_ _ ?_)
    | (with_reducible refine foldr_kept _ ?_ _ ?_)
    | split

theorem phaseComplete_kept {s₀ s : State} (hs : Kept s₀ s) (slewed : Nat) (pherr : Nat) : Kept s₀ (phaseComplete s slewed pherr) := by
  unfold phaseComplete
  repeat' first
    | with_reducible assumption
    | (extract_lets +onlyGivenNames t; refine (fun (g : Kept s₀ t) => ?_) ?_; clear_value t; rotate_left; subst t)
    | with_reducible apply slewBy_kept
    | with_reducible apply State.wr_kept
    | with_reducible apply State.set1_kept
    | with_reducible apply clockEvent_kept
    | with_reducible apply State.clr_kept
    | (with_reducible refine foldl_kept _ ?_ _ ?_)
    | (with_reducible refine foldr_kept _ ?_ _ ?_)
    | split
    | (intro t x y g)
    | (intro t x g)
    | (intro t g)
    | (extract_lets +onlyGivenNames t; clear_value t)

theorem markLoss_kept {s₀ s : State} (hs : Kept s₀ s) (i : Nat) : Kept s₀ (markLoss s i) := by
  unfold markLoss
  repeat' first
    | with_reducible assumption
    | (extract_lets +onlyGivenNames t; refine (fun (g : Kept s₀ t) => ?_) ?_; clear_value t; rotate_left; subst t)
    | with_reducible apply State.setBit1_kept
    | with_reducible apply State.wrBit_kept
    | with_reducible apply State.clr_kept
    | with_reducible apply clockEvent_kept
    | (with_reducible refine foldl_kept _ ?_ _ ?_)
    | (with_reducible refine foldr_kept _ ?_ _ ?_)
    | split
    | (intro t x y g)
    | (intro t x g)
    | (intro t g)
    | (extract_lets +onlyGivenNames t; clear_value t)
    | with_reducible apply Kept.update

theorem groupsOn_kept {s₀ s : State} (hs : Kept s₀ s) (v : Vat) (c : Bool) (f : State → Vat → Nat → State) (hf : ∀ t w g, Kept s₀ t → Kept s₀ (f t w g)) : Kept s₀ (groupsOn s v c f) := by
  unfold groupsOn
  repeat' first
    | with_reducible assumption
    | with_reducible apply forN_kept
    | (with_reducible refine foldl_kept _ ?_ _ ?_)
    | (with_reducible refine foldr_kept _ ?_ _ ?_)
    | (with_reducible refine hf _ _ _ ?_)
    | split
    | (intro t x y g)
    | (intro t x g)

theorem lossOfT_kept {s₀ s : State} (hs : Kept s₀ s) : Kept s₀ (lossOfT s) := by
  unfold lossOfT
  repeat' first
    | with_reducible assumption
    | (extract_lets +onlyGivenNames t; refine (fun (g : Kept s₀ t) => ?_) ?_; clear_value t; rotate_left; subst t)
    | with_reducible apply forVats_kept
    | with_reducible apply groupsOn_kept
    | with_reducible apply groupLoss_kept
    | with_reducible apply startSs1_kept
    | (with_reducible refine foldl_kept _ ?_ _ ?_)
    | (with_reducible refine foldr_kept _ ?_ _ ?_)
    | split
    | (intro t x y g)
    | (intro t x g)
    | (intro t g)
    | (extract_lets +onlyGivenNames t; clear_value t)
    | with_reducible apply Kept.update

theorem lossOfN_kept {s₀ s : State} (hs : Kept s₀ s) : Kept s₀ (lossOfN s) := by
  unfold lossOfN
  repeat' first
    | with_reducible assumption
    | with_reducible apply modNet_kept
    | with_reducible apply loseSync_kept
    | with_reducible apply State.set1_kept

theorem lossOfCan_kept {s₀ s : State} (hs : Kept s₀ s) : Kept s₀ (lossOfCan s) := by
  unfold lossOfCan
  repeat' first
    | with_reducible assumption
    | with_reducible apply forN_kept
    | with_reducible apply modCan_kept
    | (with_reducible refine foldl_kept _ ?_ _ ?_)
    | (with_reducible refine foldr_kept _ ?_ _ ?_)
    | split
    | (intro t x y g)
    | (intro t x g)

theorem otherLosses_kept {s₀ s : State} (hs : Kept s₀ s) (lost : Nat) : Kept s₀ (otherLosses s lost) := by
  unfold otherLosses
  repeat' first
    | with_reducible assumption
    | (extract_lets +onlyGivenNames t; refine (fun (g : Kept s₀ t) => ?_) ?_; clear_value t; rotate_left; subst t)
    | with_reducible apply raiseFlt_kept
    | with_reducible apply lossOfN_kept
    | with_reducible apply lossOfCan_kept
    | with_reducible apply forVats_kept
    | with_reducible apply groupsOn_kept
    | with_reducible apply groupLoss_kept
    | (with_reducible refine foldl_kept _ ?_ _ ?_)
    | (with_reducible refine foldr_kept _ ?_ _ ?_)
    | split
    | (intro t x y g)
    | (intro t x g)
    | (intro t g)
    | (extract_lets +onlyGivenNames t; clear_value t)

theorem lossOfLock_kept {s₀ s : State} (hs : Kept s₀ s) (mask : Nat) : Kept s₀ (lossOfLock s mask) := by
  unfold lossOfLock
  repeat' first
    | with_reducible assumption
    | (extract_lets +onlyGivenNames t; refine (fun (g : Kept s₀ t) => ?_) ?_; clear_value t; rotate_left; subst t)
    | with_reducible apply forN_kept
    | with_reducible apply markLoss_kept
    | with_reducible apply lossOfT_kept
    | with_reducible apply otherLosses_kept
    | (with_reducible refine foldl_kept _ ?_ _ ?_)
    | (with_reducible refine foldr_kept _ ?_ _ ?_)
    | split
    | (intro t x y g)
    | (intro t x g)
    | (intro t g)
    | (extract_lets +onlyGivenNames t; clear_value t)

theorem restartCan_kept {s₀ s : State} (hs : Kept s₀ s) : Kept s₀ (restartCan s) := by
  unfold restartCan
  repeat' first
    | with_reducible assumption
    | with_reducible apply forN_kept
    | with_reducible apply State.wr_kept
    | (with_reducible refine foldl_kept _ ?_ _ ?_)
    | (with_reducible refine foldr_kept _ ?_ _ ?_)
    | split
    | (intro t x y g)
    | (intro t x g)

theorem loopGood_kept {s₀ s : State} (hs : Kept s₀ s) (l : PllLoop) : Kept s₀ (loopGood s l) := by
  unfold loopGood
  repeat' first
    | with_reducible assumption
    | (extract_lets +onlyGivenNames t; refine (fun (g : Kept s₀ t) => ?_) ?_; clear_value t; rotate_left; subst t)
    | with_reducible apply State.wrBit_kept
    | with_reducible apply clockEvent_kept
    | with_reducible apply State.clr_kept
    | with_reducible apply gmSync_kept
    | with_reducible apply forVats_kept
    | with_reducible apply groupsOn_kept
    | with_reducible apply groupReturn_kept
    | with_reducible apply restartCan_kept
    | (with_reducible refine foldl_kept _ ?_ _ ?_)
    | (with_reducible refine foldr_kept _ ?_ _ ?_)
    | split
    | (intro t x y g)
    | (intro t x g)
    | (intro t g)
    | (extract_lets +onlyGivenNames t; clear_value t)
    | with_reducible apply Kept.update

theorem calibrate_kept {s₀ s : State} (hs : Kept s₀ s) (f : Nat) : Kept s₀ (calibrate s f) := by
  unfold calibrate
  repeat' first
    | with_reducible assumption
    | (extract_lets +onlyGivenNames t; refine (fun (g : Kept s₀ t) => ?_) ?_; clear_value t; rotate_left; subst t)
    | with_reducible apply State.wr_kept
    | with_reducible apply requestSys_kept
    | with_reducible apply clockEvent_kept
    | with_reducible apply State.set1_kept
    | (with_reducible refine foldl_kept _ ?_ _ ?_)
    | (with_reducible refine foldr_kept _ ?_ _ ?_)
    | split
    | (intro t x y g)
    | (intro t x g)
    | (intro t g)
    | (extract_lets +onlyGivenNames t; clear_value t)
    | with_reducible apply Kept.update

theorem rampStep_kept {s₀ s : State} (hs : Kept s₀ s) : Kept s₀ (rampStep s) := by
  unfold rampStep
  repeat' first
    | with_reducible assumption
    | with_reducible apply State.wrWord_kept
    | (with_reducible refine foldl_kept _ ?_ _ ?_)
    | (with_reducible refine foldr_kept _ ?_ _ ?_)
    | split
    | (intro t x y g)
    | (intro t x g)
    | (intro t g)
    | (extract_lets +onlyGivenNames t; clear_value t)
    | with_reducible apply Kept.update

theorem execRefclkPresent_kept {s₀ s t : State} {pherr : BitVec 16} (hs : Kept s₀ s) (e : execRefclkPresent pherr s = .next t) : Kept s₀ t := by
  unfold execRefclkPresent at e
  cases e
  repeat' first
    | with_reducible assumption
    | with_reducible apply settle_kept
    | with_reducible apply refclkPresent_kept
    | (with_reducible refine foldl_kept _ ?_ _ ?_)
    | exact fun _ => ⟨⟨id, id, fun _ => id, fun _ => id⟩, id⟩
    | split

theorem execRefclkLost_kept {s₀ s t : State}  (hs : Kept s₀ s) (e : execRefclkLost s = .next t) : Kept s₀ t := by
  unfold execRefclkLost at e
  cases e
  repeat' first
    | with_reducible assumption
    | with_reducible apply settle_kept
    | with_reducible apply refclkLost_kept
    | (with_reducible refine foldl_kept _ ?_ _ ?_)
    | exact fun _ => ⟨⟨id, id, fun _ => id, fun _ => id⟩, id⟩
    | split

theorem execPhaseSlewComplete_kept {s₀ s t : State} {slewed : BitVec 32} {pherr : BitVec 16} (hs : Kept s₀ s) (e : execPhaseSlewComplete slewed pherr s = .next t) : Kept s₀ t := by
  unfold execPhaseSlewComplete at e
  cases e
  repeat' first
    | with_reducible assumption
    | with_reducible apply settle_kept
    | with_reducible apply phaseComplete_kept
    | with_reducible apply State.wr_kept
    | (with_reducible refine foldl_kept _ ?_ _ ?_)
    | exact fun _ => ⟨⟨id, id, fun _ => id, fun _ => id⟩, id⟩
    | split

theorem execLossOfLock_kept {s₀ s t : State} {lost : BitVec 6} (hs : Kept s₀ s) (e : execLossOfLock lost s = .next t) : Kept s₀ t := by
  unfold execLossOfLock at e
  cases e
  repeat' first
    | with_reducible assumption
    | with_reducible apply settle_kept
    | with_reducible apply lossOfLock_kept

theorem execLoopGood_kept {s₀ s t : State} {l : PllLoop} (hs : Kept s₀ s) (e : execLoopGood l s = .next t) : Kept s₀ t := by
  unfold execLoopGood at e
  cases e
  repeat' first
    | with_reducible assumption
    | with_reducible apply settle_kept
    | with_reducible apply loopGood_kept
    | (with_reducible refine foldl_kept _ ?_ _ ?_)
    | exact fun _ => ⟨⟨id, id, fun _ => id, fun _ => id⟩, id⟩
    | split

theorem execRoCalibration_kept {s₀ s t : State} {freq : Nat} (hs : Kept s₀ s) (e : execRoCalibration freq s = .next t) : Kept s₀ t := by
  unfold execRoCalibration at e
  cases e
  repeat' first
    | with_reducible assumption
    | with_reducible apply settle_kept
    | with_reducible apply calibrate_kept
    | (with_reducible refine foldl_kept _ ?_ _ ?_)
    | exact fun _ => ⟨⟨id, id, fun _ => id, fun _ => id⟩, id⟩
    | split

theorem execRampProfileStep_kept {s₀ s t : State}  (hs : Kept s₀ s) (e : execRampProfileStep s = .next t) : Kept s₀ t := by
  unfold execRampProfileStep at e
  cases e
  repeat' first
    | with_reducible assumption
    | with_reducible apply settle_kept
    | with_reducible apply rampStep_kept
    | (with_reducible refine foldl_kept _ ?_ _ ?_)
    | exact fun _ => ⟨⟨id, id, fun _ => id, fun _ => id⟩, id⟩
    | split

end Sys2Proof.Machine
end

