-- ==== Sys2Proof/Laws/KeepIdle.lean ====
section
/-! SUPPORT. What the operations of Machine/Idle.lean keep (Laws/Keep.lean): one lemma for each. -/

namespace Sys2Proof.Machine

open Sys2Proof

theorem idleRide_kept {s₀ s : State} (hs : Kept s₀ s) : Kept s₀ (idleRide s) := by
  unfold idleRide
  repeat' first
    | with_reducible assumption
    | (extract_lets +onlyGivenNames t; refine (fun (g : Kept s₀ t) => ?_) ?_; clear_value t; rotate_left; subst t)
    | with_reducible apply State.wr_kept
    | (with_reducible refine foldl_kept _ ?_ _ ?_)
    | (with_reducible refine foldr_kept _ ?_ _ ?_)
    | split
    | (intro t x y g)
    | (intro t x g)
    | (intro t g)
    | (extract_lets +onlyGivenNames t; clear_value t)
    | with_reducible apply Kept.update

theorem idleFeedback_kept {s₀ s : State} (hs : Kept s₀ s) : Kept s₀ (idleFeedback s) := by
  unfold idleFeedback
  repeat' first
    | with_reducible assumption
    | with_reducible apply notePresent_kept
    | (with_reducible refine foldl_kept _ ?_ _ ?_)
    | (with_reducible refine foldr_kept _ ?_ _ ?_)
    | split

theorem idlePort_kept {s₀ s : State} (hs : Kept s₀ s) (d : Nat) (v : Vat) (p : Nat) : Kept s₀ (idlePort d s v p) := by
  unfold idlePort
  repeat' first
    | with_reducible assumption
    | (extract_lets +onlyGivenNames t; refine (fun (g : Kept s₀ t) => ?_) ?_; clear_value t; rotate_left; subst t)
    | with_reducible apply modGuard_kept
    | with_reducible apply State.wr_kept
    | (with_reducible refine foldl_kept _ ?_ _ ?_)
    | (with_reducible refine foldr_kept _ ?_ _ ?_)
    | split
    | (intro t x y g)
    | (intro t x g)
    | (intro t g)
    | (extract_lets +onlyGivenNames t; clear_value t)

theorem idlePulse_kept {s₀ s : State} (hs : Kept s₀ s) (v : Vat) : Kept s₀ (idlePulse s v) := by
  unfold idlePulse
  repeat' first
    | with_reducible assumption
    | with_reducible apply forN_kept
    | with_reducible apply openWindows_kept
    | with_reducible apply portTime_kept
    | with_reducible apply endDisregard_kept
    | (with_reducible refine foldl_kept _ ?_ _ ?_)
    | (with_reducible refine foldr_kept _ ?_ _ ?_)
    | split
    | (intro t x y g)
    | (intro t x g)

theorem idleVat_kept {s₀ s : State} (hs : Kept s₀ s) (d : Nat) (v : Vat) : Kept s₀ (idleVat d s v) := by
  unfold idleVat
  repeat' first
    | with_reducible assumption
    | (extract_lets +onlyGivenNames t; refine (fun (g : Kept s₀ t) => ?_) ?_; clear_value t; rotate_left; subst t)
    | with_reducible apply State.incWrap_kept
    | with_reducible apply forN_kept
    | with_reducible apply idlePort_kept
    | (with_reducible refine foldl_kept _ ?_ _ ?_)
    | (with_reducible refine foldr_kept _ ?_ _ ?_)
    | split
    | (intro t x y g)
    | (intro t x g)

theorem idleTime_kept {s₀ s : State} (hs : Kept s₀ s) : Kept s₀ (idleTime s) := by
  unfold idleTime
  repeat' first
    | with_reducible assumption
    | (with_reducible refine foldl_kept _ ?_ _ ?_)
    | (with_reducible refine foldr_kept _ ?_ _ ?_)
    | split
    | (intro t x y g)
    | (intro t x g)
    | (intro t g)
    | (extract_lets +onlyGivenNames t; clear_value t)
    | with_reducible apply Kept.update

theorem idleSwitch_kept {s₀ s : State} (hs : Kept s₀ s) : Kept s₀ (idleSwitch s) := by
  unfold idleSwitch
  repeat' first
    | with_reducible assumption
    | with_reducible apply resumePtp_kept
    | with_reducible apply drainPort_kept

theorem idle_kept {s₀ s : State} (hs : Kept s₀ s) : Kept s₀ (idle s) := by
  unfold idle
  repeat' first
    | with_reducible assumption
    | with_reducible apply slewStep_kept
    | with_reducible apply idleTime_kept
    | with_reducible apply drainPulse_kept
    | with_reducible apply State.endLog_kept
    | with_reducible apply idleSwitch_kept
    | with_reducible apply passPending_kept
    | with_reducible apply watchVats_kept
    | with_reducible apply forVats_kept
    | with_reducible apply idleFeedback_kept
    | with_reducible apply idleRide_kept
    | with_reducible apply idlePulse_kept
    | with_reducible apply idleVat_kept
    | (with_reducible refine foldl_kept _ ?_ _ ?_)
    | (with_reducible refine foldr_kept _ ?_ _ ?_)
    | split
    | (intro t x y g)
    | (intro t x g)
    | (intro t g)
    | with_reducible apply Kept.update

end Sys2Proof.Machine
end

