-- ==== Sys2Proof/Laws/KeepTick.lean ====
section
/-! SUPPORT. What the operations of Machine/Tick.lean keep (Laws/Keep.lean): one lemma for each. -/

namespace Sys2Proof.Machine

open Sys2Proof

theorem countTick_kept {s₀ s : State} (hs : Kept s₀ s) (v : Vat) (p : Nat) : Kept s₀ (countTick s v p) := by
  unfold countTick
  repeat' first
    | with_reducible assumption
    | with_reducible apply State.incWrap_kept
    | with_reducible apply modPort_kept
    | (with_reducible refine foldl_kept _ ?_ _ ?_)
    | (with_reducible refine foldr_kept _ ?_ _ ?_)
    | split

theorem positionsTick_kept {s₀ s : State} (hs : Kept s₀ s) (v : Vat) (p : Nat) : Kept s₀ (positionsTick s v p) := by
  unfold positionsTick
  repeat' first
    | with_reducible assumption
    | with_reducible apply forN_kept
    | with_reducible apply posCapture_kept
    | (with_reducible refine foldl_kept _ ?_ _ ?_)
    | (with_reducible refine foldr_kept _ ?_ _ ?_)
    | split
    | (intro t x y g)
    | (intro t x g)

theorem enterSignal_kept {s₀ s : State} (hs : Kept s₀ s) (v : Vat) (p : Nat) (e : Nat × Int) : Kept s₀ (enterSignal s v p e) := by
  unfold enterSignal
  repeat' first
    | with_reducible assumption
    | with_reducible apply writeEng_kept
    | (with_reducible refine foldl_kept _ ?_ _ ?_)
    | (with_reducible refine foldr_kept _ ?_ _ ?_)
    | split
    | (intro t x y g)
    | (intro t x g)
    | (intro t g)
    | (extract_lets +onlyGivenNames t; clear_value t)

theorem enterSignals_kept {s₀ s : State} (hs : Kept s₀ s) (v : Vat) (p : Nat) : Kept s₀ (enterSignals s v p) := by
  unfold enterSignals
  repeat' first
    | with_reducible assumption
    | with_reducible apply enterSignal_kept
    | (with_reducible refine foldl_kept _ ?_ _ ?_)
    | (with_reducible refine foldr_kept _ ?_ _ ?_)
    | split
    | (intro t x y g)
    | (intro t x g)

theorem auxPortTick_kept {s₀ s : State} (hs : Kept s₀ s) (v : Vat) (p : Nat) : Kept s₀ (auxPortTick s v p) := by
  unfold auxPortTick
  repeat' first
    | with_reducible assumption
    | with_reducible apply auxTick_kept
    | with_reducible apply injEvent_kept

theorem liveTick_kept {s₀ s : State} (hs : Kept s₀ s) (v : Vat) (p : Nat) : Kept s₀ (liveTick s v p) := by
  unfold liveTick
  repeat' first
    | with_reducible assumption
    | with_reducible apply positionsTick_kept
    | with_reducible apply syncAtTick_kept
    | with_reducible apply pairsTick_kept
    | with_reducible apply auxPortTick_kept
    | with_reducible apply dfrTick_kept
    | with_reducible apply guardTick_kept
    | with_reducible apply enterSignals_kept
    | with_reducible apply arriveGraph_kept
    | with_reducible apply enterTick_kept
    | with_reducible apply graphTick_kept
    | with_reducible apply recorderTick_kept
    | with_reducible apply joinCheck_kept
    | with_reducible apply modPort_kept

theorem heldTick_kept {s₀ s : State} (hs : Kept s₀ s) (v : Vat) (p : Nat) : Kept s₀ (heldTick s v p) := by
  unfold heldTick
  repeat' first
    | with_reducible assumption
    | with_reducible apply forN_kept
    | with_reducible apply auxPortTick_kept
    | with_reducible apply ssiStart_kept
    | (with_reducible refine foldl_kept _ ?_ _ ?_)
    | (with_reducible refine foldr_kept _ ?_ _ ?_)
    | split
    | (intro t x y g)
    | (intro t x g)

theorem portTick_kept {s₀ s : State} (hs : Kept s₀ s) (v : Vat) (p : Nat) : Kept s₀ (portTick s v p) := by
  unfold portTick
  repeat' first
    | with_reducible assumption
    | (extract_lets +onlyGivenNames t; refine (fun (g : Kept s₀ t) => ?_) ?_; clear_value t; rotate_left; subst t)
    | with_reducible apply countTick_kept
    | with_reducible apply liveTick_kept
    | with_reducible apply heldTick_kept
    | (with_reducible refine foldl_kept _ ?_ _ ?_)
    | (with_reducible refine foldr_kept _ ?_ _ ?_)
    | split

theorem reload_kept {s₀ s : State} (hs : Kept s₀ s) (v : Vat) (p : Nat) (valley : Bool) (landed : Nat) : Kept s₀ (reload s v p valley landed) := by
  unfold reload
  repeat' first
    | with_reducible assumption
    | with_reducible apply passPending_kept
    | with_reducible apply forVats_kept
    | with_reducible apply injEvent_kept
    | with_reducible apply reloadAt_kept
    | with_reducible apply joinCheck_kept
    | (with_reducible refine foldl_kept _ ?_ _ ?_)
    | (with_reducible refine foldr_kept _ ?_ _ ?_)
    | split
    | (intro t x y g)
    | (intro t x g)

theorem execPortTick_kept {s₀ s t : State} {v : Vat} {p : Fin 8} (hs : Kept s₀ s) (e : execPortTick v p s = .next t) : Kept s₀ t := by
  unfold execPortTick at e
  cases e
  repeat' first
    | with_reducible assumption
    | with_reducible apply settle_kept
    | with_reducible apply portTick_kept

theorem execReload_kept {s₀ s t : State} {v : Vat} {p : Fin 8} {valley : Bool} {landed : Nat} (hs : Kept s₀ s) (e : execReload v p valley landed s = .next t) : Kept s₀ t := by
  unfold execReload at e
  cases e
  repeat' first
    | with_reducible assumption
    | with_reducible apply settle_kept
    | with_reducible apply reload_kept

end Sys2Proof.Machine
end

