-- ==== Sys2Proof/Laws/State.lean ====
section
/-! SUPPORT. Laws of the shared operations over the state (Ops.lean): what a field reads after a write, and for each operation
the state's fields that it leaves as they are. -/

namespace Sys2Proof.Machine

open Sys2Proof

/-! ## Register fields -/

@[simp] theorem State.set1_eq_mark (s : State) (f : Field) : s.set1 f = (s.wr f 1).mark f.addr f.lo := rfl

@[simp] theorem State.setBit1_eq_mark (s : State) (f : Field) (i : Nat) :
    s.setBit1 f i = (s.wrBit f i true).mark f.addr (f.lo + i) := rfl

@[simp] theorem State.clr_eq_wr (s : State) (f : Field) : s.clr f = s.wr f 0 := rfl

theorem State.rd_wr_self (s : State) (f : Field) (n : Nat) (h : f.fits = true) : (s.wr f n).rd f = n % 2 ^ f.width := by
  simp only [Field.fits, decide_eq_true_eq] at h
  simp [State.rd, State.wr, getBits_setBits_self _ _ _ _ h]

theorem State.rd_wr_apart (s : State) (f g : Field) (n : Nat) (h : g.fits = true) (a : f.apart g = true) :
    (s.wr g n).rd f = s.rd f := by
  simp only [Field.fits, decide_eq_true_eq] at h
  simp only [Field.apart, Bool.or_eq_true, bne_iff_ne, ne_eq, decide_eq_true_eq] at a
  by_cases ha : f.addr = g.addr
  · simp only [State.rd, State.wr, ha, RegFile.get_set_self]
    rcases a with (a | a) | a
    · exact absurd ha a
    · exact getBits_setBits_below _ _ _ _ _ _ h a
    · exact getBits_setBits_above _ _ _ _ _ _ h a
  · simp [State.rd, State.wr, RegFile.get_set_other ha]

theorem State.rd_wrWord_other (s : State) (f : Field) (a : Nat) (w : Word) (h : f.addr ≠ a) :
    (s.wrWord a w).rd f = s.rd f := by
  simp [State.rd, State.wrWord, RegFile.get_set_other h]

theorem State.get_wr_other (s : State) (g : Field) (n a : Nat) (h : a ≠ g.addr) :
    (s.wr g n).regs.get a = s.regs.get a := by
  simp [State.wr, RegFile.get_set_other h]

theorem State.rd_lt (s : State) (f : Field) : s.rd f < 2 ^ f.width := getBits_lt _ _ _

/-- A register is its one field of all its bits. -/
theorem State.get_eq_of_rd {s t : State} {a : Nat} (h : t.rd ⟨a, 0, 32⟩ = s.rd ⟨a, 0, 32⟩) :
    t.regs.get a = s.regs.get a := by
  apply BitVec.eq_of_toNat_eq
  simpa [State.rd, getBits, Nat.mod_eq_of_lt (BitVec.isLt _)] using h

/-! ## What an operation leaves as it is -/

@[simp] theorem State.wr_pending (s : State) (f : Field) (n : Nat) : (s.wr f n).pending = s.pending := rfl
@[simp] theorem State.wr_variant (s : State) (f : Field) (n : Nat) : (s.wr f n).variant = s.variant := rfl
@[simp] theorem State.wr_dev (s : State) (f : Field) (n : Nat) : (s.wr f n).dev = s.dev := rfl
@[simp] theorem State.wr_mem (s : State) (f : Field) (n : Nat) : (s.wr f n).mem = s.mem := rfl
@[simp] theorem State.wr_time (s : State) (f : Field) (n : Nat) : (s.wr f n).time = s.time := rfl
@[simp] theorem State.wr_rst (s : State) (f : Field) (n : Nat) : (s.wr f n).rst = s.rst := rfl
@[simp] theorem State.wr_clk (s : State) (f : Field) (n : Nat) : (s.wr f n).clk = s.clk := rfl
@[simp] theorem State.wr_vatA (s : State) (f : Field) (n : Nat) : (s.wr f n).vatA = s.vatA := rfl
@[simp] theorem State.wr_vatB (s : State) (f : Field) (n : Nat) : (s.wr f n).vatB = s.vatB := rfl
@[simp] theorem State.wr_arb (s : State) (f : Field) (n : Nat) : (s.wr f n).arb = s.arb := rfl
@[simp] theorem State.wr_harp (s : State) (f : Field) (n : Nat) : (s.wr f n).harp = s.harp := rfl
@[simp] theorem State.wr_ord (s : State) (f : Field) (n : Nat) : (s.wr f n).ord = s.ord := rfl
@[simp] theorem State.wr_log (s : State) (f : Field) (n : Nat) : (s.wr f n).log = s.log := rfl
@[simp] theorem State.wr_whl (s : State) (f : Field) (n : Nat) : (s.wr f n).whl = s.whl := rfl
@[simp] theorem State.wr_trust (s : State) (f : Field) (n : Nat) : (s.wr f n).trust = s.trust := rfl
@[simp] theorem State.wr_rind (s : State) (f : Field) (n : Nat) : (s.wr f n).rind = s.rind := rfl
@[simp] theorem State.wr_nv (s : State) (f : Field) (n : Nat) : (s.wr f n).nv = s.nv := rfl
@[simp] theorem State.wr_rcd (s : State) (f : Field) (n : Nat) : (s.wr f n).rcd = s.rcd := rfl
@[simp] theorem State.wr_can (s : State) (f : Field) (n : Nat) : (s.wr f n).can = s.can := rfl
@[simp] theorem State.wr_net (s : State) (f : Field) (n : Nat) : (s.wr f n).net = s.net := rfl
@[simp] theorem State.wr_bus (s : State) (f : Field) (n : Nat) : (s.wr f n).bus = s.bus := rfl
@[simp] theorem State.wr_free (s : State) (f : Field) (n : Nat) : (s.wr f n).free = s.free := rfl

@[simp] theorem State.mark_pending (s : State) (a i : Nat) : (s.mark a i).pending = s.pending := rfl
@[simp] theorem State.mark_variant (s : State) (a i : Nat) : (s.mark a i).variant = s.variant := rfl
@[simp] theorem State.mark_dev (s : State) (a i : Nat) : (s.mark a i).dev = s.dev := rfl
@[simp] theorem State.mark_regs (s : State) (a i : Nat) : (s.mark a i).regs = s.regs := rfl
@[simp] theorem State.mark_mem (s : State) (a i : Nat) : (s.mark a i).mem = s.mem := rfl
@[simp] theorem State.mark_time (s : State) (a i : Nat) : (s.mark a i).time = s.time := rfl
@[simp] theorem State.mark_rst (s : State) (a i : Nat) : (s.mark a i).rst = s.rst := rfl
@[simp] theorem State.mark_clk (s : State) (a i : Nat) : (s.mark a i).clk = s.clk := rfl
@[simp] theorem State.mark_vatA (s : State) (a i : Nat) : (s.mark a i).vatA = s.vatA := rfl
@[simp] theorem State.mark_vatB (s : State) (a i : Nat) : (s.mark a i).vatB = s.vatB := rfl
@[simp] theorem State.mark_arb (s : State) (a i : Nat) : (s.mark a i).arb = s.arb := rfl
@[simp] theorem State.mark_harp (s : State) (a i : Nat) : (s.mark a i).harp = s.harp := rfl
@[simp] theorem State.mark_ord (s : State) (a i : Nat) : (s.mark a i).ord = s.ord := rfl
@[simp] theorem State.mark_log (s : State) (a i : Nat) : (s.mark a i).log = s.log := rfl
@[simp] theorem State.mark_whl (s : State) (a i : Nat) : (s.mark a i).whl = s.whl := rfl
@[simp] theorem State.mark_trust (s : State) (a i : Nat) : (s.mark a i).trust = s.trust := rfl
@[simp] theorem State.mark_rind (s : State) (a i : Nat) : (s.mark a i).rind = s.rind := rfl
@[simp] theorem State.mark_nv (s : State) (a i : Nat) : (s.mark a i).nv = s.nv := rfl
@[simp] theorem State.mark_rcd (s : State) (a i : Nat) : (s.mark a i).rcd = s.rcd := rfl
@[simp] theorem State.mark_can (s : State) (a i : Nat) : (s.mark a i).can = s.can := rfl
@[simp] theorem State.mark_net (s : State) (a i : Nat) : (s.mark a i).net = s.net := rfl
@[simp] theorem State.mark_free (s : State) (a i : Nat) : (s.mark a i).free = s.free := rfl
@[simp] theorem State.mark_rd (s : State) (a i : Nat) (f : Field) : (s.mark a i).rd f = s.rd f := rfl
@[simp] theorem State.mark_is (s : State) (a i : Nat) (f : Field) : (s.mark a i).is f = s.is f := rfl
@[simp] theorem State.mark_rdBit (s : State) (a i : Nat) (f : Field) (j : Nat) : (s.mark a i).rdBit f j = s.rdBit f j := rfl
@[simp] theorem State.mark_signedRd (s : State) (a i : Nat) (f : Field) : (s.mark a i).signedRd f = s.signedRd f := rfl

@[simp] theorem State.noteWrite_pending (s : State) (m a : Nat) : (s.noteWrite m a).pending = s.pending := by
  unfold State.noteWrite; split <;> rfl
@[simp] theorem State.noteWrite_variant (s : State) (m a : Nat) : (s.noteWrite m a).variant = s.variant := by
  unfold State.noteWrite; split <;> rfl
@[simp] theorem State.noteWrite_dev (s : State) (m a : Nat) : (s.noteWrite m a).dev = s.dev := by
  unfold State.noteWrite; split <;> rfl
@[simp] theorem State.noteWrite_regs (s : State) (m a : Nat) : (s.noteWrite m a).regs = s.regs := by
  unfold State.noteWrite; split <;> rfl
@[simp] theorem State.noteWrite_mem (s : State) (m a : Nat) : (s.noteWrite m a).mem = s.mem := by
  unfold State.noteWrite; split <;> rfl
@[simp] theorem State.noteWrite_time (s : State) (m a : Nat) : (s.noteWrite m a).time = s.time := by
  unfold State.noteWrite; split <;> rfl
@[simp] theorem State.noteWrite_rst (s : State) (m a : Nat) : (s.noteWrite m a).rst = s.rst := by
  unfold State.noteWrite; split <;> rfl
@[simp] theorem State.noteWrite_clk (s : State) (m a : Nat) : (s.noteWrite m a).clk = s.clk := by
  unfold State.noteWrite; split <;> rfl
@[simp] theorem State.noteWrite_vatA (s : State) (m a : Nat) : (s.noteWrite m a).vatA = s.vatA := by
  unfold State.noteWrite; split <;> rfl
@[simp] theorem State.noteWrite_vatB (s : State) (m a : Nat) : (s.noteWrite m a).vatB = s.vatB := by
  unfold State.noteWrite; split <;> rfl
@[simp] theorem State.noteWrite_arb (s : State) (m a : Nat) : (s.noteWrite m a).arb = s.arb := by
  unfold State.noteWrite; split <;> rfl
@[simp] theorem State.noteWrite_harp (s : State) (m a : Nat) : (s.noteWrite m a).harp = s.harp := by
  unfold State.noteWrite; split <;> rfl
@[simp] theorem State.noteWrite_ord (s : State) (m a : Nat) : (s.noteWrite m a).ord = s.ord := by
  unfold State.noteWrite; split <;> rfl
@[simp] theorem State.noteWrite_log (s : State) (m a : Nat) : (s.noteWrite m a).log = s.log := by
  unfold State.noteWrite; split <;> rfl
@[simp] theorem State.noteWrite_whl (s : State) (m a : Nat) : (s.noteWrite m a).whl = s.whl := by
  unfold State.noteWrite; split <;> rfl
@[simp] theorem State.noteWrite_trust (s : State) (m a : Nat) : (s.noteWrite m a).trust = s.trust := by
  unfold State.noteWrite; split <;> rfl
@[simp] theorem State.noteWrite_rind (s : State) (m a : Nat) : (s.noteWrite m a).rind = s.rind := by
  unfold State.noteWrite; split <;> rfl
@[simp] theorem State.noteWrite_nv (s : State) (m a : Nat) : (s.noteWrite m a).nv = s.nv := by
  unfold State.noteWrite; split <;> rfl
@[simp] theorem State.noteWrite_rcd (s : State) (m a : Nat) : (s.noteWrite m a).rcd = s.rcd := by
  unfold State.noteWrite; split <;> rfl
@[simp] theorem State.noteWrite_can (s : State) (m a : Nat) : (s.noteWrite m a).can = s.can := by
  unfold State.noteWrite; split <;> rfl
@[simp] theorem State.noteWrite_net (s : State) (m a : Nat) : (s.noteWrite m a).net = s.net := by
  unfold State.noteWrite; split <;> rfl
@[simp] theorem State.noteWrite_free (s : State) (m a : Nat) : (s.noteWrite m a).free = s.free := by
  unfold State.noteWrite; split <;> rfl
@[simp] theorem State.noteWrite_rd (s : State) (m a : Nat) (f : Field) : (s.noteWrite m a).rd f = s.rd f := by
  unfold State.noteWrite; split <;> rfl

@[simp] theorem State.wrWord_pending (s : State) (a : Nat) (w : Word) : (s.wrWord a w).pending = s.pending := rfl
@[simp] theorem State.wrWord_variant (s : State) (a : Nat) (w : Word) : (s.wrWord a w).variant = s.variant := rfl
@[simp] theorem State.wrWord_dev (s : State) (a : Nat) (w : Word) : (s.wrWord a w).dev = s.dev := rfl
@[simp] theorem State.wrWord_mem (s : State) (a : Nat) (w : Word) : (s.wrWord a w).mem = s.mem := rfl
@[simp] theorem State.wrWord_time (s : State) (a : Nat) (w : Word) : (s.wrWord a w).time = s.time := rfl
@[simp] theorem State.wrWord_rst (s : State) (a : Nat) (w : Word) : (s.wrWord a w).rst = s.rst := rfl
@[simp] theorem State.wrWord_clk (s : State) (a : Nat) (w : Word) : (s.wrWord a w).clk = s.clk := rfl
@[simp] theorem State.wrWord_vatA (s : State) (a : Nat) (w : Word) : (s.wrWord a w).vatA = s.vatA := rfl
@[simp] theorem State.wrWord_vatB (s : State) (a : Nat) (w : Word) : (s.wrWord a w).vatB = s.vatB := rfl
@[simp] theorem State.wrWord_arb (s : State) (a : Nat) (w : Word) : (s.wrWord a w).arb = s.arb := rfl
@[simp] theorem State.wrWord_harp (s : State) (a : Nat) (w : Word) : (s.wrWord a w).harp = s.harp := rfl
@[simp] theorem State.wrWord_ord (s : State) (a : Nat) (w : Word) : (s.wrWord a w).ord = s.ord := rfl
@[simp] theorem State.wrWord_log (s : State) (a : Nat) (w : Word) : (s.wrWord a w).log = s.log := rfl
@[simp] theorem State.wrWord_whl (s : State) (a : Nat) (w : Word) : (s.wrWord a w).whl = s.whl := rfl
@[simp] theorem State.wrWord_trust (s : State) (a : Nat) (w : Word) : (s.wrWord a w).trust = s.trust := rfl
@[simp] theorem State.wrWord_rind (s : State) (a : Nat) (w : Word) : (s.wrWord a w).rind = s.rind := rfl
@[simp] theorem State.wrWord_nv (s : State) (a : Nat) (w : Word) : (s.wrWord a w).nv = s.nv := rfl
@[simp] theorem State.wrWord_rcd (s : State) (a : Nat) (w : Word) : (s.wrWord a w).rcd = s.rcd := rfl
@[simp] theorem State.wrWord_can (s : State) (a : Nat) (w : Word) : (s.wrWord a w).can = s.can := rfl
@[simp] theorem State.wrWord_net (s : State) (a : Nat) (w : Word) : (s.wrWord a w).net = s.net := rfl
@[simp] theorem State.wrWord_bus (s : State) (a : Nat) (w : Word) : (s.wrWord a w).bus = s.bus := rfl
@[simp] theorem State.wrWord_free (s : State) (a : Nat) (w : Word) : (s.wrWord a w).free = s.free := rfl

@[simp] theorem State.incSat_pending (s : State) (f : Field) (n : Nat) : (s.incSat f n).pending = s.pending := rfl
@[simp] theorem State.incSat_variant (s : State) (f : Field) (n : Nat) : (s.incSat f n).variant = s.variant := rfl
@[simp] theorem State.incSat_dev (s : State) (f : Field) (n : Nat) : (s.incSat f n).dev = s.dev := rfl
@[simp] theorem State.incSat_mem (s : State) (f : Field) (n : Nat) : (s.incSat f n).mem = s.mem := rfl
@[simp] theorem State.incSat_time (s : State) (f : Field) (n : Nat) : (s.incSat f n).time = s.time := rfl
@[simp] theorem State.incSat_rst (s : State) (f : Field) (n : Nat) : (s.incSat f n).rst = s.rst := rfl
@[simp] theorem State.incSat_clk (s : State) (f : Field) (n : Nat) : (s.incSat f n).clk = s.clk := rfl
@[simp] theorem State.incSat_vatA (s : State) (f : Field) (n : Nat) : (s.incSat f n).vatA = s.vatA := rfl
@[simp] theorem State.incSat_vatB (s : State) (f : Field) (n : Nat) : (s.incSat f n).vatB = s.vatB := rfl
@[simp] theorem State.incSat_arb (s : State) (f : Field) (n : Nat) : (s.incSat f n).arb = s.arb := rfl
@[simp] theorem State.incSat_harp (s : State) (f : Field) (n : Nat) : (s.incSat f n).harp = s.harp := rfl
@[simp] theorem State.incSat_ord (s : State) (f : Field) (n : Nat) : (s.incSat f n).ord = s.ord := rfl
@[simp] theorem State.incSat_log (s : State) (f : Field) (n : Nat) : (s.incSat f n).log = s.log := rfl
@[simp] theorem State.incSat_whl (s : State) (f : Field) (n : Nat) : (s.incSat f n).whl = s.whl := rfl
@[simp] theorem State.incSat_trust (s : State) (f : Field) (n : Nat) : (s.incSat f n).trust = s.trust := rfl
@[simp] theorem State.incSat_rind (s : State) (f : Field) (n : Nat) : (s.incSat f n).rind = s.rind := rfl
@[simp] theorem State.incSat_nv (s : State) (f : Field) (n : Nat) : (s.incSat f n).nv = s.nv := rfl
@[simp] theorem State.incSat_rcd (s : State) (f : Field) (n : Nat) : (s.incSat f n).rcd = s.rcd := rfl
@[simp] theorem State.incSat_can (s : State) (f : Field) (n : Nat) : (s.incSat f n).can = s.can := rfl
@[simp] theorem State.incSat_net (s : State) (f : Field) (n : Nat) : (s.incSat f n).net = s.net := rfl
@[simp] theorem State.incSat_bus (s : State) (f : Field) (n : Nat) : (s.incSat f n).bus = s.bus := rfl
@[simp] theorem State.incSat_free (s : State) (f : Field) (n : Nat) : (s.incSat f n).free = s.free := rfl

@[simp] theorem State.incWrap_pending (s : State) (f : Field) : (s.incWrap f).pending = s.pending := rfl
@[simp] theorem State.incWrap_variant (s : State) (f : Field) : (s.incWrap f).variant = s.variant := rfl
@[simp] theorem State.incWrap_dev (s : State) (f : Field) : (s.incWrap f).dev = s.dev := rfl
@[simp] theorem State.incWrap_mem (s : State) (f : Field) : (s.incWrap f).mem = s.mem := rfl
@[simp] theorem State.incWrap_time (s : State) (f : Field) : (s.incWrap f).time = s.time := rfl
@[simp] theorem State.incWrap_rst (s : State) (f : Field) : (s.incWrap f).rst = s.rst := rfl
@[simp] theorem State.incWrap_clk (s : State) (f : Field) : (s.incWrap f).clk = s.clk := rfl
@[simp] theorem State.incWrap_vatA (s : State) (f : Field) : (s.incWrap f).vatA = s.vatA := rfl
@[simp] theorem State.incWrap_vatB (s : State) (f : Field) : (s.incWrap f).vatB = s.vatB := rfl
@[simp] theorem State.incWrap_arb (s : State) (f : Field) : (s.incWrap f).arb = s.arb := rfl
@[simp] theorem State.incWrap_harp (s : State) (f : Field) : (s.incWrap f).harp = s.harp := rfl
@[simp] theorem State.incWrap_ord (s : State) (f : Field) : (s.incWrap f).ord = s.ord := rfl
@[simp] theorem State.incWrap_log (s : State) (f : Field) : (s.incWrap f).log = s.log := rfl
@[simp] theorem State.incWrap_whl (s : State) (f : Field) : (s.incWrap f).whl = s.whl := rfl
@[simp] theorem State.incWrap_trust (s : State) (f : Field) : (s.incWrap f).trust = s.trust := rfl
@[simp] theorem State.incWrap_rind (s : State) (f : Field) : (s.incWrap f).rind = s.rind := rfl
@[simp] theorem State.incWrap_nv (s : State) (f : Field) : (s.incWrap f).nv = s.nv := rfl
@[simp] theorem State.incWrap_rcd (s : State) (f : Field) : (s.incWrap f).rcd = s.rcd := rfl
@[simp] theorem State.incWrap_can (s : State) (f : Field) : (s.incWrap f).can = s.can := rfl
@[simp] theorem State.incWrap_net (s : State) (f : Field) : (s.incWrap f).net = s.net := rfl
@[simp] theorem State.incWrap_bus (s : State) (f : Field) : (s.incWrap f).bus = s.bus := rfl
@[simp] theorem State.incWrap_free (s : State) (f : Field) : (s.incWrap f).free = s.free := rfl

@[simp] theorem State.wrBit_pending (s : State) (f : Field) (i : Nat) (b : Bool) : (s.wrBit f i b).pending = s.pending := rfl
@[simp] theorem State.wrBit_variant (s : State) (f : Field) (i : Nat) (b : Bool) : (s.wrBit f i b).variant = s.variant := rfl
@[simp] theorem State.wrBit_dev (s : State) (f : Field) (i : Nat) (b : Bool) : (s.wrBit f i b).dev = s.dev := rfl
@[simp] theorem State.wrBit_mem (s : State) (f : Field) (i : Nat) (b : Bool) : (s.wrBit f i b).mem = s.mem := rfl
@[simp] theorem State.wrBit_time (s : State) (f : Field) (i : Nat) (b : Bool) : (s.wrBit f i b).time = s.time := rfl
@[simp] theorem State.wrBit_rst (s : State) (f : Field) (i : Nat) (b : Bool) : (s.wrBit f i b).rst = s.rst := rfl
@[simp] theorem State.wrBit_clk (s : State) (f : Field) (i : Nat) (b : Bool) : (s.wrBit f i b).clk = s.clk := rfl
@[simp] theorem State.wrBit_vatA (s : State) (f : Field) (i : Nat) (b : Bool) : (s.wrBit f i b).vatA = s.vatA := rfl
@[simp] theorem State.wrBit_vatB (s : State) (f : Field) (i : Nat) (b : Bool) : (s.wrBit f i b).vatB = s.vatB := rfl
@[simp] theorem State.wrBit_arb (s : State) (f : Field) (i : Nat) (b : Bool) : (s.wrBit f i b).arb = s.arb := rfl
@[simp] theorem State.wrBit_harp (s : State) (f : Field) (i : Nat) (b : Bool) : (s.wrBit f i b).harp = s.harp := rfl
@[simp] theorem State.wrBit_ord (s : State) (f : Field) (i : Nat) (b : Bool) : (s.wrBit f i b).ord = s.ord := rfl
@[simp] theorem State.wrBit_log (s : State) (f : Field) (i : Nat) (b : Bool) : (s.wrBit f i b).log = s.log := rfl
@[simp] theorem State.wrBit_whl (s : State) (f : Field) (i : Nat) (b : Bool) : (s.wrBit f i b).whl = s.whl := rfl
@[simp] theorem State.wrBit_trust (s : State) (f : Field) (i : Nat) (b : Bool) : (s.wrBit f i b).trust = s.trust := rfl
@[simp] theorem State.wrBit_rind (s : State) (f : Field) (i : Nat) (b : Bool) : (s.wrBit f i b).rind = s.rind := rfl
@[simp] theorem State.wrBit_nv (s : State) (f : Field) (i : Nat) (b : Bool) : (s.wrBit f i b).nv = s.nv := rfl
@[simp] theorem State.wrBit_rcd (s : State) (f : Field) (i : Nat) (b : Bool) : (s.wrBit f i b).rcd = s.rcd := rfl
@[simp] theorem State.wrBit_can (s : State) (f : Field) (i : Nat) (b : Bool) : (s.wrBit f i b).can = s.can := rfl
@[simp] theorem State.wrBit_net (s : State) (f : Field) (i : Nat) (b : Bool) : (s.wrBit f i b).net = s.net := rfl
@[simp] theorem State.wrBit_bus (s : State) (f : Field) (i : Nat) (b : Bool) : (s.wrBit f i b).bus = s.bus := rfl
@[simp] theorem State.wrBit_free (s : State) (f : Field) (i : Nat) (b : Bool) : (s.wrBit f i b).free = s.free := rfl

@[simp] theorem State.useFree_pending (s : State) : (s.useFree).pending = s.pending := rfl
@[simp] theorem State.useFree_variant (s : State) : (s.useFree).variant = s.variant := rfl
@[simp] theorem State.useFree_dev (s : State) : (s.useFree).dev = s.dev := rfl
@[simp] theorem State.useFree_regs (s : State) : (s.useFree).regs = s.regs := rfl
@[simp] theorem State.useFree_mem (s : State) : (s.useFree).mem = s.mem := rfl
@[simp] theorem State.useFree_time (s : State) : (s.useFree).time = s.time := rfl
@[simp] theorem State.useFree_rst (s : State) : (s.useFree).rst = s.rst := rfl
@[simp] theorem State.useFree_clk (s : State) : (s.useFree).clk = s.clk := rfl
@[simp] theorem State.useFree_vatA (s : State) : (s.useFree).vatA = s.vatA := rfl
@[simp] theorem State.useFree_vatB (s : State) : (s.useFree).vatB = s.vatB := rfl
@[simp] theorem State.useFree_arb (s : State) : (s.useFree).arb = s.arb := rfl
@[simp] theorem State.useFree_harp (s : State) : (s.useFree).harp = s.harp := rfl
@[simp] theorem State.useFree_ord (s : State) : (s.useFree).ord = s.ord := rfl
@[simp] theorem State.useFree_log (s : State) : (s.useFree).log = s.log := rfl
@[simp] theorem State.useFree_whl (s : State) : (s.useFree).whl = s.whl := rfl
@[simp] theorem State.useFree_trust (s : State) : (s.useFree).trust = s.trust := rfl
@[simp] theorem State.useFree_rind (s : State) : (s.useFree).rind = s.rind := rfl
@[simp] theorem State.useFree_nv (s : State) : (s.useFree).nv = s.nv := rfl
@[simp] theorem State.useFree_rcd (s : State) : (s.useFree).rcd = s.rcd := rfl
@[simp] theorem State.useFree_can (s : State) : (s.useFree).can = s.can := rfl
@[simp] theorem State.useFree_net (s : State) : (s.useFree).net = s.net := rfl
@[simp] theorem State.useFree_bus (s : State) : (s.useFree).bus = s.bus := rfl

@[simp] theorem State.writeByte_pending (s : State) (a : Nat) (b : Byte) : (s.writeByte a b).pending = s.pending := rfl
@[simp] theorem State.writeByte_variant (s : State) (a : Nat) (b : Byte) : (s.writeByte a b).variant = s.variant := rfl
@[simp] theorem State.writeByte_dev (s : State) (a : Nat) (b : Byte) : (s.writeByte a b).dev = s.dev := rfl
@[simp] theorem State.writeByte_regs (s : State) (a : Nat) (b : Byte) : (s.writeByte a b).regs = s.regs := rfl
@[simp] theorem State.writeByte_time (s : State) (a : Nat) (b : Byte) : (s.writeByte a b).time = s.time := rfl
@[simp] theorem State.writeByte_rst (s : State) (a : Nat) (b : Byte) : (s.writeByte a b).rst = s.rst := rfl
@[simp] theorem State.writeByte_clk (s : State) (a : Nat) (b : Byte) : (s.writeByte a b).clk = s.clk := rfl
@[simp] theorem State.writeByte_vatA (s : State) (a : Nat) (b : Byte) : (s.writeByte a b).vatA = s.vatA := rfl
@[simp] theorem State.writeByte_vatB (s : State) (a : Nat) (b : Byte) : (s.writeByte a b).vatB = s.vatB := rfl
@[simp] theorem State.writeByte_arb (s : State) (a : Nat) (b : Byte) : (s.writeByte a b).arb = s.arb := rfl
@[simp] theorem State.writeByte_harp (s : State) (a : Nat) (b : Byte) : (s.writeByte a b).harp = s.harp := rfl
@[simp] theorem State.writeByte_ord (s : State) (a : Nat) (b : Byte) : (s.writeByte a b).ord = s.ord := rfl
@[simp] theorem State.writeByte_log (s : State) (a : Nat) (b : Byte) : (s.writeByte a b).log = s.log := rfl
@[simp] theorem State.writeByte_whl (s : State) (a : Nat) (b : Byte) : (s.writeByte a b).whl = s.whl := rfl
@[simp] theorem State.writeByte_trust (s : State) (a : Nat) (b : Byte) : (s.writeByte a b).trust = s.trust := rfl
@[simp] theorem State.writeByte_rind (s : State) (a : Nat) (b : Byte) : (s.writeByte a b).rind = s.rind := rfl
@[simp] theorem State.writeByte_nv (s : State) (a : Nat) (b : Byte) : (s.writeByte a b).nv = s.nv := rfl
@[simp] theorem State.writeByte_rcd (s : State) (a : Nat) (b : Byte) : (s.writeByte a b).rcd = s.rcd := rfl
@[simp] theorem State.writeByte_can (s : State) (a : Nat) (b : Byte) : (s.writeByte a b).can = s.can := rfl
@[simp] theorem State.writeByte_net (s : State) (a : Nat) (b : Byte) : (s.writeByte a b).net = s.net := rfl
@[simp] theorem State.writeByte_bus (s : State) (a : Nat) (b : Byte) : (s.writeByte a b).bus = s.bus := rfl
@[simp] theorem State.writeByte_free (s : State) (a : Nat) (b : Byte) : (s.writeByte a b).free = s.free := rfl

@[simp] theorem State.useFree_free (s : State) : s.useFree.free = s.free + 1 := rfl

/-! ## Vats -/

@[simp] theorem State.vat_setVat_self (s : State) (v : Vat) (x : VatSt) : (s.setVat v x).vat v = x := by cases v <;> rfl

theorem State.vat_setVat_other (s : State) {v w : Vat} (h : w ≠ v) (x : VatSt) : (s.setVat v x).vat w = s.vat w := by
  cases v <;> cases w <;> first | rfl | exact absurd rfl h

@[simp] theorem State.setVat_pending (s : State) (v : Vat) (x : VatSt) : (s.setVat v x).pending = s.pending := by cases v <;> rfl
@[simp] theorem State.setVat_variant (s : State) (v : Vat) (x : VatSt) : (s.setVat v x).variant = s.variant := by cases v <;> rfl
@[simp] theorem State.setVat_dev (s : State) (v : Vat) (x : VatSt) : (s.setVat v x).dev = s.dev := by cases v <;> rfl
@[simp] theorem State.setVat_regs (s : State) (v : Vat) (x : VatSt) : (s.setVat v x).regs = s.regs := by cases v <;> rfl
@[simp] theorem State.setVat_mem (s : State) (v : Vat) (x : VatSt) : (s.setVat v x).mem = s.mem := by cases v <;> rfl
@[simp] theorem State.setVat_time (s : State) (v : Vat) (x : VatSt) : (s.setVat v x).time = s.time := by cases v <;> rfl
@[simp] theorem State.setVat_rst (s : State) (v : Vat) (x : VatSt) : (s.setVat v x).rst = s.rst := by cases v <;> rfl
@[simp] theorem State.setVat_clk (s : State) (v : Vat) (x : VatSt) : (s.setVat v x).clk = s.clk := by cases v <;> rfl
@[simp] theorem State.setVat_arb (s : State) (v : Vat) (x : VatSt) : (s.setVat v x).arb = s.arb := by cases v <;> rfl
@[simp] theorem State.setVat_harp (s : State) (v : Vat) (x : VatSt) : (s.setVat v x).harp = s.harp := by cases v <;> rfl
@[simp] theorem State.setVat_ord (s : State) (v : Vat) (x : VatSt) : (s.setVat v x).ord = s.ord := by cases v <;> rfl
@[simp] theorem State.setVat_log (s : State) (v : Vat) (x : VatSt) : (s.setVat v x).log = s.log := by cases v <;> rfl
@[simp] theorem State.setVat_whl (s : State) (v : Vat) (x : VatSt) : (s.setVat v x).whl = s.whl := by cases v <;> rfl
@[simp] theorem State.setVat_trust (s : State) (v : Vat) (x : VatSt) : (s.setVat v x).trust = s.trust := by cases v <;> rfl
@[simp] theorem State.setVat_rind (s : State) (v : Vat) (x : VatSt) : (s.setVat v x).rind = s.rind := by cases v <;> rfl
@[simp] theorem State.setVat_nv (s : State) (v : Vat) (x : VatSt) : (s.setVat v x).nv = s.nv := by cases v <;> rfl
@[simp] theorem State.setVat_rcd (s : State) (v : Vat) (x : VatSt) : (s.setVat v x).rcd = s.rcd := by cases v <;> rfl
@[simp] theorem State.setVat_can (s : State) (v : Vat) (x : VatSt) : (s.setVat v x).can = s.can := by cases v <;> rfl
@[simp] theorem State.setVat_net (s : State) (v : Vat) (x : VatSt) : (s.setVat v x).net = s.net := by cases v <;> rfl
@[simp] theorem State.setVat_bus (s : State) (v : Vat) (x : VatSt) : (s.setVat v x).bus = s.bus := by cases v <;> rfl
@[simp] theorem State.setVat_free (s : State) (v : Vat) (x : VatSt) : (s.setVat v x).free = s.free := by cases v <;> rfl

@[simp] theorem State.modVat_pending (s : State) (v : Vat) (g : VatSt → VatSt) : (s.modVat v g).pending = s.pending := by cases v <;> rfl
@[simp] theorem State.modVat_variant (s : State) (v : Vat) (g : VatSt → VatSt) : (s.modVat v g).variant = s.variant := by cases v <;> rfl
@[simp] theorem State.modVat_dev (s : State) (v : Vat) (g : VatSt → VatSt) : (s.modVat v g).dev = s.dev := by cases v <;> rfl
@[simp] theorem State.modVat_regs (s : State) (v : Vat) (g : VatSt → VatSt) : (s.modVat v g).regs = s.regs := by cases v <;> rfl
@[simp] theorem State.modVat_mem (s : State) (v : Vat) (g : VatSt → VatSt) : (s.modVat v g).mem = s.mem := by cases v <;> rfl
@[simp] theorem State.modVat_time (s : State) (v : Vat) (g : VatSt → VatSt) : (s.modVat v g).time = s.time := by cases v <;> rfl
@[simp] theorem State.modVat_rst (s : State) (v : Vat) (g : VatSt → VatSt) : (s.modVat v g).rst = s.rst := by cases v <;> rfl
@[simp] theorem State.modVat_clk (s : State) (v : Vat) (g : VatSt → VatSt) : (s.modVat v g).clk = s.clk := by cases v <;> rfl
@[simp] theorem State.modVat_arb (s : State) (v : Vat) (g : VatSt → VatSt) : (s.modVat v g).arb = s.arb := by cases v <;> rfl
@[simp] theorem State.modVat_harp (s : State) (v : Vat) (g : VatSt → VatSt) : (s.modVat v g).harp = s.harp := by cases v <;> rfl
@[simp] theorem State.modVat_ord (s : State) (v : Vat) (g : VatSt → VatSt) : (s.modVat v g).ord = s.ord := by cases v <;> rfl
@[simp] theorem State.modVat_log (s : State) (v : Vat) (g : VatSt → VatSt) : (s.modVat v g).log = s.log := by cases v <;> rfl
@[simp] theorem State.modVat_whl (s : State) (v : Vat) (g : VatSt → VatSt) : (s.modVat v g).whl = s.whl := by cases v <;> rfl
@[simp] theorem State.modVat_trust (s : State) (v : Vat) (g : VatSt → VatSt) : (s.modVat v g).trust = s.trust := by cases v <;> rfl
@[simp] theorem State.modVat_rind (s : State) (v : Vat) (g : VatSt → VatSt) : (s.modVat v g).rind = s.rind := by cases v <;> rfl
@[simp] theorem State.modVat_nv (s : State) (v : Vat) (g : VatSt → VatSt) : (s.modVat v g).nv = s.nv := by cases v <;> rfl
@[simp] theorem State.modVat_rcd (s : State) (v : Vat) (g : VatSt → VatSt) : (s.modVat v g).rcd = s.rcd := by cases v <;> rfl
@[simp] theorem State.modVat_can (s : State) (v : Vat) (g : VatSt → VatSt) : (s.modVat v g).can = s.can := by cases v <;> rfl
@[simp] theorem State.modVat_net (s : State) (v : Vat) (g : VatSt → VatSt) : (s.modVat v g).net = s.net := by cases v <;> rfl
@[simp] theorem State.modVat_bus (s : State) (v : Vat) (g : VatSt → VatSt) : (s.modVat v g).bus = s.bus := by cases v <;> rfl
@[simp] theorem State.modVat_free (s : State) (v : Vat) (g : VatSt → VatSt) : (s.modVat v g).free = s.free := by cases v <;> rfl

@[simp] theorem State.vat_modVat_self (s : State) (v : Vat) (g : VatSt → VatSt) : (s.modVat v g).vat v = g (s.vat v) := by
  cases v <;> rfl

@[simp] theorem State.rd_setVat (s : State) (v : Vat) (x : VatSt) (f : Field) : (s.setVat v x).rd f = s.rd f := by cases v <;> rfl

@[simp] theorem State.rd_modVat (s : State) (v : Vat) (g : VatSt → VatSt) (f : Field) : (s.modVat v g).rd f = s.rd f := by
  cases v <;> rfl

/-! ## The event log -/

@[simp] theorem State.countLost_pending (s : State) (b : Bool) : (s.countLost b).pending = s.pending := by
  cases b
  · rfl
  · exact (State.mark_pending _ _ _).trans ((State.wr_pending _ _ _).trans (State.incSat_pending _ _ _))

@[simp] theorem State.countLost_variant (s : State) (b : Bool) : (s.countLost b).variant = s.variant := by
  cases b
  · rfl
  · exact (State.mark_variant _ _ _).trans ((State.wr_variant _ _ _).trans (State.incSat_variant _ _ _))

@[simp] theorem State.countLost_dev (s : State) (b : Bool) : (s.countLost b).dev = s.dev := by
  cases b
  · rfl
  · exact (State.mark_dev _ _ _).trans ((State.wr_dev _ _ _).trans (State.incSat_dev _ _ _))

@[simp] theorem State.countLost_mem (s : State) (b : Bool) : (s.countLost b).mem = s.mem := by
  cases b
  · rfl
  · exact (State.mark_mem _ _ _).trans ((State.wr_mem _ _ _).trans (State.incSat_mem _ _ _))

@[simp] theorem State.countLost_time (s : State) (b : Bool) : (s.countLost b).time = s.time := by
  cases b
  · rfl
  · exact (State.mark_time _ _ _).trans ((State.wr_time _ _ _).trans (State.incSat_time _ _ _))

@[simp] theorem State.countLost_rst (s : State) (b : Bool) : (s.countLost b).rst = s.rst := by
  cases b
  · rfl
  · exact (State.mark_rst _ _ _).trans ((State.wr_rst _ _ _).trans (State.incSat_rst _ _ _))

@[simp] theorem State.countLost_clk (s : State) (b : Bool) : (s.countLost b).clk = s.clk := by
  cases b
  · rfl
  · exact (State.mark_clk _ _ _).trans ((State.wr_clk _ _ _).trans (State.incSat_clk _ _ _))

@[simp] theorem State.countLost_vatA (s : State) (b : Bool) : (s.countLost b).vatA = s.vatA := by
  cases b
  · rfl
  · exact (State.mark_vatA _ _ _).trans ((State.wr_vatA _ _ _).trans (State.incSat_vatA _ _ _))

@[simp] theorem State.countLost_vatB (s : State) (b : Bool) : (s.countLost b).vatB = s.vatB := by
  cases b
  · rfl
  · exact (State.mark_vatB _ _ _).trans ((State.wr_vatB _ _ _).trans (State.incSat_vatB _ _ _))

@[simp] theorem State.countLost_arb (s : State) (b : Bool) : (s.countLost b).arb = s.arb := by
  cases b
  · rfl
  · exact (State.mark_arb _ _ _).trans ((State.wr_arb _ _ _).trans (State.incSat_arb _ _ _))

@[simp] theorem State.countLost_harp (s : State) (b : Bool) : (s.countLost b).harp = s.harp := by
  cases b
  · rfl
  · exact (State.mark_harp _ _ _).trans ((State.wr_harp _ _ _).trans (State.incSat_harp _ _ _))

@[simp] theorem State.countLost_ord (s : State) (b : Bool) : (s.countLost b).ord = s.ord := by
  cases b
  · rfl
  · exact (State.mark_ord _ _ _).trans ((State.wr_ord _ _ _).trans (State.incSat_ord _ _ _))

@[simp] theorem State.countLost_log (s : State) (b : Bool) : (s.countLost b).log = s.log := by
  cases b
  · rfl
  · exact (State.mark_log _ _ _).trans ((State.wr_log _ _ _).trans (State.incSat_log _ _ _))

@[simp] theorem State.countLost_whl (s : State) (b : Bool) : (s.countLost b).whl = s.whl := by
  cases b
  · rfl
  · exact (State.mark_whl _ _ _).trans ((State.wr_whl _ _ _).trans (State.incSat_whl _ _ _))

@[simp] theorem State.countLost_trust (s : State) (b : Bool) : (s.countLost b).trust = s.trust := by
  cases b
  · rfl
  · exact (State.mark_trust _ _ _).trans ((State.wr_trust _ _ _).trans (State.incSat_trust _ _ _))

@[simp] theorem State.countLost_rind (s : State) (b : Bool) : (s.countLost b).rind = s.rind := by
  cases b
  · rfl
  · exact (State.mark_rind _ _ _).trans ((State.wr_rind _ _ _).trans (State.incSat_rind _ _ _))

@[simp] theorem State.countLost_nv (s : State) (b : Bool) : (s.countLost b).nv = s.nv := by
  cases b
  · rfl
  · exact (State.mark_nv _ _ _).trans ((State.wr_nv _ _ _).trans (State.incSat_nv _ _ _))

@[simp] theorem State.countLost_rcd (s : State) (b : Bool) : (s.countLost b).rcd = s.rcd := by
  cases b
  · rfl
  · exact (State.mark_rcd _ _ _).trans ((State.wr_rcd _ _ _).trans (State.incSat_rcd _ _ _))

@[simp] theorem State.countLost_can (s : State) (b : Bool) : (s.countLost b).can = s.can := by
  cases b
  · rfl
  · exact (State.mark_can _ _ _).trans ((State.wr_can _ _ _).trans (State.incSat_can _ _ _))

@[simp] theorem State.countLost_net (s : State) (b : Bool) : (s.countLost b).net = s.net := by
  cases b
  · rfl
  · exact (State.mark_net _ _ _).trans ((State.wr_net _ _ _).trans (State.incSat_net _ _ _))

@[simp] theorem State.countLost_free (s : State) (b : Bool) : (s.countLost b).free = s.free := by
  cases b
  · rfl
  · exact (State.mark_free _ _ _).trans ((State.wr_free _ _ _).trans (State.incSat_free _ _ _))

@[simp] theorem State.event_pending (s : State) (source code data : Nat) : (s.event source code data).pending = s.pending :=
  State.countLost_pending _ _

@[simp] theorem State.event_variant (s : State) (source code data : Nat) : (s.event source code data).variant = s.variant :=
  State.countLost_variant _ _

@[simp] theorem State.event_dev (s : State) (source code data : Nat) : (s.event source code data).dev = s.dev :=
  State.countLost_dev _ _

@[simp] theorem State.event_mem (s : State) (source code data : Nat) : (s.event source code data).mem = s.mem :=
  State.countLost_mem _ _

@[simp] theorem State.event_time (s : State) (source code data : Nat) : (s.event source code data).time = s.time :=
  State.countLost_time _ _

@[simp] theorem State.event_rst (s : State) (source code data : Nat) : (s.event source code data).rst = s.rst :=
  State.countLost_rst _ _

@[simp] theorem State.event_clk (s : State) (source code data : Nat) : (s.event source code data).clk = s.clk :=
  State.countLost_clk _ _

@[simp] theorem State.event_vatA (s : State) (source code data : Nat) : (s.event source code data).vatA = s.vatA :=
  State.countLost_vatA _ _

@[simp] theorem State.event_vatB (s : State) (source code data : Nat) : (s.event source code data).vatB = s.vatB :=
  State.countLost_vatB _ _

@[simp] theorem State.event_arb (s : State) (source code data : Nat) : (s.event source code data).arb = s.arb :=
  State.countLost_arb _ _

@[simp] theorem State.event_harp (s : State) (source code data : Nat) : (s.event source code data).harp = s.harp :=
  State.countLost_harp _ _

@[simp] theorem State.event_ord (s : State) (source code data : Nat) : (s.event source code data).ord = s.ord :=
  State.countLost_ord _ _

@[simp] theorem State.event_whl (s : State) (source code data : Nat) : (s.event source code data).whl = s.whl :=
  State.countLost_whl _ _

@[simp] theorem State.event_trust (s : State) (source code data : Nat) : (s.event source code data).trust = s.trust :=
  State.countLost_trust _ _

@[simp] theorem State.event_rind (s : State) (source code data : Nat) : (s.event source code data).rind = s.rind :=
  State.countLost_rind _ _

@[simp] theorem State.event_nv (s : State) (source code data : Nat) : (s.event source code data).nv = s.nv :=
  State.countLost_nv _ _

@[simp] theorem State.event_rcd (s : State) (source code data : Nat) : (s.event source code data).rcd = s.rcd :=
  State.countLost_rcd _ _

@[simp] theorem State.event_can (s : State) (source code data : Nat) : (s.event source code data).can = s.can :=
  State.countLost_can _ _

@[simp] theorem State.event_net (s : State) (source code data : Nat) : (s.event source code data).net = s.net :=
  State.countLost_net _ _

@[simp] theorem State.event_free (s : State) (source code data : Nat) : (s.event source code data).free = s.free :=
  State.countLost_free _ _

theorem State.rd_countLost (s : State) (b : Bool) (f : Field) (h : f.apart R.LOG_STAT_LOST = true)
    (h' : f.apart R.LOG_STAT_LOST_F = true) : (s.countLost b).rd f = s.rd f := by
  cases b
  · rfl
  · exact (State.mark_rd _ _ _ _).trans ((State.rd_wr_apart _ _ _ _ (by decide) h').trans (State.rd_wr_apart _ _ _ _ (by decide) h))

/-- An event changes no register but LOG_STAT. -/
theorem State.rd_event (s : State) (source code data : Nat) (f : Field) (h : f.apart R.LOG_STAT_LOST = true)
    (h' : f.apart R.LOG_STAT_LOST_F = true) : (s.event source code data).rd f = s.rd f :=
  State.rd_countLost _ _ f h h'

end Sys2Proof.Machine
end

