-- ==== Sys2Proof/Laws/Settle.lean ====
section
/-! SUPPORT. What `settle`, which ends every command, leaves as it is: `CycleOnly r s` says that `s` differs from `r` at most in
what the cycle's consequences may change (Safety.lean). One lemma for each operation that `settle` calls, then `settle_cycle`. -/

namespace Sys2Proof.Machine

open Sys2Proof

theorem CycleOnly.refl (s : State) : CycleOnly s s := ⟨fun _ _ => rfl, rfl⟩

theorem CycleOnly.trans {r s t : State} (a : CycleOnly r s) (b : CycleOnly s t) : CycleOnly r t :=
  ⟨fun f h => (b.rd f h).trans (a.rd f h), b.rest.trans a.rest⟩

theorem CycleOnly.step {r s t : State} (h : CycleOnly r s) (hr : t.regs = s.regs) (hc : cycleRest t = cycleRest s) :
    CycleOnly r t :=
  ⟨fun f hf => by rw [← h.rd f hf]; simp [State.rd, hr], hc.trans h.rest⟩

theorem CycleOnly.dev {r s : State} (h : CycleOnly r s) (d : DevState) (b : Bool) :
    CycleOnly r { s with dev := d, rst := { s.rst with reachedReady := b } } := h.step rfl rfl

theorem CycleOnly.harp {r s : State} (h : CycleOnly r s) (x : HarpSt) : CycleOnly r { s with harp := x } := h.step rfl rfl

theorem CycleOnly.log {r s : State} (h : CycleOnly r s) (x : LogSt) : CycleOnly r { s with log := x } := h.step rfl rfl

theorem CycleOnly.hold {r s : State} (h : CycleOnly r s) (x : Option (List Nat)) :
    CycleOnly r { s with arb := { s.arb with hold := x } } := h.step rfl rfl

theorem CycleOnly.setVat {r s : State} (h : CycleOnly r s) (v : Vat) (x : VatSt) (hx : vatRest x = vatRest (s.vat v)) :
    CycleOnly r (s.setVat v x) := by
  refine h.step (State.setVat_regs s v x) ?_
  cases v <;> simp only [State.vat] at hx <;> simp [cycleRest, State.setVat, hx]

theorem apart_comm {f g : Field} (h : f.apart g = true) : g.apart f = true := by
  simp only [Field.apart, Bool.or_eq_true, bne_iff_ne, ne_eq, decide_eq_true_eq] at h ⊢
  tauto

/-- A write of one of the fields that the cycle's consequences may write. -/
theorem CycleOnly.wr {r s : State} (h : CycleOnly r s) (g : Field) (n : Nat) (hg : g ∈ cycleFields) (hf : g.fits = true) :
    CycleOnly r (s.wr g n) :=
  ⟨fun f e => (State.rd_wr_apart _ _ _ _ hf (List.all_eq_true.mp e g hg)).trans (h.rd f e), h.rest⟩

/-- The hardware sets a flag in this cycle. -/
theorem CycleOnly.mark {r s : State} (h : CycleOnly r s) (a i : Nat) : CycleOnly r (s.mark a i) := by
  refine h.step rfl ?_
  simp only [cycleRest, State.mark, BusSt.cycle]
  split <;> rfl

theorem CycleOnly.set1 {r s : State} (h : CycleOnly r s) (g : Field) (hg : g ∈ cycleFields) (hf : g.fits = true) :
    CycleOnly r (s.set1 g) := (h.wr g 1 hg hf).mark _ _

theorem mem_cyclePort {v : Vat} {p : Nat} (hp : p < 8) {g : Field} (hg : g ∈ cyclePortFields v p) : g ∈ cycleFields := by
  refine List.mem_append_right _ (List.mem_flatMap.mpr ⟨v, by cases v <;> simp, List.mem_append_left _ ?_⟩)
  exact List.mem_flatMap.mpr ⟨p, List.mem_range.mpr hp, hg⟩

theorem mem_cycleLeg {v : Vat} {n : Nat} (hn : n < 32) {g : Field} (hg : g ∈ cycleLegFields v n) : g ∈ cycleFields := by
  refine List.mem_append_right _ (List.mem_flatMap.mpr ⟨v, by cases v <;> simp, List.mem_append_right _ (List.mem_cons_of_mem _ ?_)⟩)
  exact List.mem_flatMap.mpr ⟨n, List.mem_range.mpr hn, hg⟩

theorem mem_cycleCohesc (v : Vat) : R.PWM_COHERR_COHESC_F v ∈ cycleFields :=
  List.mem_append_right _ (List.mem_flatMap.mpr ⟨v, by cases v <;> simp, List.mem_append_right _ (List.mem_cons_self ..)⟩)

/-- What lies apart from a field lies apart from a part of it. -/
theorem apart_of_part {f g k : Field} (h : f.apart g = true) (ha : k.addr = g.addr) (hl : g.lo ≤ k.lo)
    (hh : k.lo + k.width ≤ g.lo + g.width) : f.apart k = true := by
  simp only [Field.apart, Bool.or_eq_true, bne_iff_ne, ne_eq, decide_eq_true_eq, ha] at h ⊢
  omega

/-- A write of a part of a field that the cycle's consequences may write. -/
theorem CycleOnly.wrPart {r s : State} (h : CycleOnly r s) {g : Field} (hg : g ∈ cycleFields) (k : Field) (n : Nat)
    (ha : k.addr = g.addr) (hl : g.lo ≤ k.lo) (hh : k.lo + k.width ≤ g.lo + g.width) (hf : k.fits = true) :
    CycleOnly r (s.wr k n) :=
  ⟨fun f e => (State.rd_wr_apart _ _ _ _ hf (apart_of_part (List.all_eq_true.mp e g hg) ha hl hh)).trans (h.rd f e), h.rest⟩

theorem mem_cycleCommon {g : Field} (hg : g ∈ cycleCommonFields) : g ∈ cycleFields := List.mem_append_left _ hg

theorem CycleOnly.wrPort {r s : State} (h : CycleOnly r s) (v : Vat) {p : Nat} (hp : p < 8) (g : Field) (n : Nat)
    (hg : g ∈ cyclePortFields v p) (hf : g.fits = true) : CycleOnly r (s.wr g n) := h.wr g n (mem_cyclePort hp hg) hf

theorem CycleOnly.wrLeg {r s : State} (h : CycleOnly r s) (v : Vat) {k : Nat} (hk : k < 32) (g : Field) (n : Nat)
    (hg : g ∈ cycleLegFields v k) (hf : g.fits = true) : CycleOnly r (s.wr g n) := h.wr g n (mem_cycleLeg hk hg) hf

theorem CycleOnly.wrCommon {r s : State} (h : CycleOnly r s) (g : Field) (n : Nat) (hg : g ∈ cycleCommonFields)
    (hf : g.fits = true) : CycleOnly r (s.wr g n) := h.wr g n (mem_cycleCommon hg) hf

theorem CycleOnly.setCommon {r s : State} (h : CycleOnly r s) (g : Field) (hg : g ∈ cycleCommonFields) (hf : g.fits = true) :
    CycleOnly r (s.set1 g) := h.set1 g (mem_cycleCommon hg) hf

theorem CycleOnly.setLeg {r s : State} (h : CycleOnly r s) (v : Vat) {k : Nat} (hk : k < 32) (g : Field)
    (hg : g ∈ cycleLegFields v k) (hf : g.fits = true) : CycleOnly r (s.set1 g) := h.set1 g (mem_cycleLeg hk hg) hf

theorem foldl_cycle {α : Type} {r : State} (f : State → α → State) (l : List α)
    (hf : ∀ t a, a ∈ l → CycleOnly r t → CycleOnly r (f t a)) {s : State} (h : CycleOnly r s) : CycleOnly r (l.foldl f s) := by
  induction l generalizing s with
  | nil => exact h
  | cons a l ih => exact ih (fun t b hb => hf t b (List.mem_cons_of_mem _ hb)) (hf s a (List.mem_cons_self ..) h)

theorem forN_cycle {r s : State} (h : CycleOnly r s) {n : Nat} {f : State → Nat → State}
    (hf : ∀ t i, i < n → CycleOnly r t → CycleOnly r (f t i)) : CycleOnly r (forN n s f) :=
  foldl_cycle f _ (fun t i hi => hf t i (List.mem_range.mp hi)) h

theorem forVats_cycle {r s : State} (h : CycleOnly r s) {f : State → Vat → State}
    (hf : ∀ t v, CycleOnly r t → CycleOnly r (f t v)) : CycleOnly r (forVats s f) :=
  foldl_cycle f _ (fun t v _ => hf t v) h

theorem countLost_cycle {r s : State} (h : CycleOnly r s) (b : Bool) : CycleOnly r (s.countLost b) := by
  cases b
  · exact h
  · exact (h.wrCommon R.LOG_STAT_LOST _ (by decide) (by decide)).setCommon R.LOG_STAT_LOST_F (by decide) (by decide)

theorem event_cycle {r s : State} (h : CycleOnly r s) (source code data : Nat) : CycleOnly r (s.event source code data) :=
  countLost_cycle (h.log _) _

theorem vatEvent_cycle {r s : State} (h : CycleOnly r s) (v : Vat) (u code data : Nat) :
    CycleOnly r (s.vatEvent v u code data) := by
  unfold State.vatEvent
  split
  · exact h
  · exact event_cycle h _ _ _

/-! ## Ports (Ports.lean) -/

theorem modPort_cycle {r s : State} (h : CycleOnly r s) (v : Vat) (p : Nat) (f : PortSt → PortSt) : CycleOnly r (modPort s v p f) :=
  h.setVat v _ rfl

theorem modLeg_cycle {r s : State} (h : CycleOnly r s) (v : Vat) (n : Nat) (f : LegSt → LegSt) : CycleOnly r (modLeg s v n f) :=
  h.setVat v _ rfl

theorem modGuard_cycle {r s : State} (h : CycleOnly r s) (v : Vat) (p : Nat) (f : GuardSt → GuardSt) :
    CycleOnly r (modGuard s v p f) := h.setVat v _ rfl

theorem slotLeg_lt {s : State} {v : Vat} {p k n : Nat} (h : slotLeg s v p k = some n) : n < 32 := by
  unfold slotLeg at h
  dsimp only at h
  split at h
  · cases h; exact State.rd_lt _ _
  · cases h

theorem portLegs_lt {s : State} {v : Vat} {p n : Nat} (h : n ∈ portLegs s v p) : n < 32 := by
  obtain ⟨k, -, hk⟩ := List.mem_filterMap.mp h
  exact slotLeg_lt hk

theorem portUnit_lt {s : State} {v : Vat} {p q : Nat} (hp : p < 8) (h : q ∈ portUnit s v p) : q < 8 := by
  unfold portUnit partner at h
  split at h
  · simp only [Option.toList_some, List.mem_cons, List.not_mem_nil, or_false] at h
    rcases h with h | h
    · omega
    · rw [h]; exact State.rd_lt _ _
  · simp only [Option.toList_none, List.mem_cons, List.not_mem_nil, or_false] at h
    omega

theorem enRises_cycle {r s : State} (h : CycleOnly r s) (v : Vat) {n : Nat} (hn : n < 32) : CycleOnly r (enRises s v n) := by
  unfold enRises
  split
  · exact (modLeg_cycle h v n _).setLeg v hn (R.DLR_STAT_HUVMASK v n) (by simp [cycleLegFields]) (by rfl)
  · exact h

theorem setPins_cycle {r s : State} (h : CycleOnly r s) (v : Vat) {n : Nat} (hn : n < 32) (pulse en : Bool) :
    CycleOnly r (setPins s v n pulse en) := by
  unfold setPins
  extract_lets a b
  have ha : CycleOnly r a := by
    subst a; split
    · exact enRises_cycle h v hn
    · exact h
  clear_value a
  have hb : CycleOnly r b := modLeg_cycle ha v n _
  clear_value b
  exact (hb.wrLeg v hn (R.LEG_PIN_PULSE v n) _ (by simp [cycleLegFields]) (by rfl)).wrLeg v hn (R.LEG_PIN_EN v n) _
    (by simp [cycleLegFields]) (by rfl)

theorem setPortPins_cycle {r s : State} (h : CycleOnly r s) (v : Vat) (p : Nat) (pulse en : Bool) :
    CycleOnly r (setPortPins s v p pulse en) :=
  foldl_cycle _ _ (fun _ _ hn g => setPins_cycle g v (portLegs_lt hn) pulse en) h

theorem drivePattern_cycle {r s : State} (h : CycleOnly r s) (v : Vat) {p : Nat} (hp : p < 8) (fp : Nat) :
    CycleOnly r (drivePattern s v p fp) :=
  setPortPins_cycle (h.wrPort v hp (R.PORT_FPCFG_PATNOW v p) _ (by simp [cyclePortFields]) (by rfl)) v p _ _

theorem toAllOff_cycle {r s : State} (h : CycleOnly r s) (v : Vat) {p : Nat} (hp : p < 8) : CycleOnly r (toAllOff s v p) :=
  vatEvent_cycle ((drivePattern_cycle h v hp 0).set1 (R.PORT_FPCFG_FB v p) (mem_cyclePort (v := v) hp (by simp [cyclePortFields])) (by rfl)) _ _ _ _

theorem restoreOl_cycle {r s : State} (h : CycleOnly r s) (v : Vat) {p : Nat} (hp : p < 8) : CycleOnly r (restoreOl s v p) :=
  modGuard_cycle (h.wrPort v hp (R.GRID_STAT_OL_LEFT v p) _ (by simp [cyclePortFields]) (by rfl)) _ _ _

theorem leaveRun_cycle {r s : State} (h : CycleOnly r s) (v : Vat) {p : Nat} (hp : p < 8) : CycleOnly r (leaveRun s v p) := by
  unfold leaveRun
  extract_lets a b c d
  have ha : CycleOnly r a := modPort_cycle (h.wrPort v hp (R.PORT_STATE_DEGR v p) _ (by simp [cyclePortFields]) (by rfl)) _ _ _
  clear_value a
  have hb : CycleOnly r b := foldl_cycle _ _ (fun _ n _ g => modLeg_cycle g v n _) ha
  clear_value b
  have hc : CycleOnly r c := by
    subst c
    split
    · exact restoreOl_cycle hb v hp
    · exact hb
  clear_value c
  exact ((hc.wrPort v hp (R.GRID_STAT_OL v p) 0 (by simp [cyclePortFields]) (by rfl)).wrPort v hp (R.DRV_STAT_OBS v p) 0
    (by simp [cyclePortFields]) (by rfl)).wrPort v hp (R.DRV_STAT_ZR v p) 0 (by simp [cyclePortFields]) (by rfl)

theorem enterRun_cycle {r s : State} (h : CycleOnly r s) (v : Vat) (p : Nat) : CycleOnly r (enterRun s v p) := by
  exact foldl_cycle _ _ (fun _ n _ g => modLeg_cycle g v n _) h

theorem setPortState_cycle {r s : State} (h : CycleOnly r s) (v : Vat) {p : Nat} (hp : p < 8) (new cause : Nat) :
    CycleOnly r (setPortState s v p new cause) := by
  unfold setPortState
  extract_lets old a b c d e f g k
  clear_value old
  split
  · exact h
  · have ha : CycleOnly r a := by
      subst a; split
      · exact leaveRun_cycle h v hp
      · exact h
    clear_value a
    have hb : CycleOnly r b := by
      subst b; split
      · exact modPort_cycle ha _ _ _
      · exact ha
    clear_value b
    have hc : CycleOnly r c := by
      subst c; split
      · exact modPort_cycle hb _ _ _
      · exact hb
    clear_value c
    have hd : CycleOnly r d := by
      subst d; split
      · exact hc.wrPort v hp (R.PORT_FPCFG_FB v p) 0 (by simp [cyclePortFields]) (by rfl)
      · exact hc
    clear_value d
    have he : CycleOnly r e := by
      subst e; split
      · exact hd.wrPort v hp (R.PORT_FPCFG_PATNOW v p) 0 (by simp [cyclePortFields]) (by rfl)
      · exact hd
    clear_value e
    have hf : CycleOnly r f := by
      subst f; split
      · exact he
      · exact he.wrPort v hp (R.PORT_PWMSTAT_TRIPLAT v p) 0 (by simp [cyclePortFields]) (by rfl)
    clear_value f
    have hg : CycleOnly r g := by
      subst g; split
      · exact setPortPins_cycle hf v p _ _
      · exact hf
    clear_value g
    have hk : CycleOnly r k := by
      subst k; split
      · exact enterRun_cycle hg v p
      · exact hg
    clear_value k
    exact vatEvent_cycle (hk.wrPort v hp (R.PORT_STATE_STATE v p) _ (by simp [cyclePortFields]) (by rfl)) _ _ _ _

theorem enterPattern1_cycle {r s : State} (h : CycleOnly r s) (v : Vat) {p : Nat} (hp : p < 8) (cause fp : Nat) (fb : Bool) :
    CycleOnly r (enterPattern1 s v p cause fp fb) := by
  unfold enterPattern1
  extract_lets t u
  have hu : CycleOnly r u :=
    ((setPortState_cycle h v hp FAULTPAT cause).wrPort v hp (R.PORT_STATE_CAUSE v p) cause (by simp [cyclePortFields])
      (by rfl)).wrPort v hp (R.PORT_STATE_ENTRIES v p) _ (by simp [cyclePortFields]) (by rfl)
  clear_value u
  split
  · exact toAllOff_cycle hu v hp
  · exact drivePattern_cycle hu v hp fp

theorem enterUnitPattern_cycle {r s : State} (h : CycleOnly r s) (v : Vat) {p : Nat} (hp : p < 8) (cause : Nat → Nat) :
    CycleOnly r (enterUnitPattern s v p cause) := by
  unfold enterUnitPattern
  extract_lets u fp fb t
  split
  · exact h
  · have ht : CycleOnly r t := foldl_cycle _ _ (fun _ _ hq g => enterPattern1_cycle g v (portUnit_lt hp hq) _ _ _) h
    clear_value t
    split
    · exact foldl_cycle _ _ (fun _ _ hq g => setPortState_cycle g v (portUnit_lt hp hq) _ _) ht
    · exact ht

theorem flagPart_cycle {r s : State} (h : CycleOnly r s) {g : Field} (hg : g ∈ cycleFields) (v : Vat) (u : Nat) (k : Field)
    (ha : k.addr = g.addr) (hl : g.lo ≤ k.lo) (hh : k.lo + k.width ≤ g.lo + g.width) (hf : k.fits = true) :
    CycleOnly r (s.vatFlag v u k) := by
  unfold State.vatFlag
  split
  · exact h
  · unfold State.flag
    split
    · exact h.mark _ _
    · exact event_cycle ((h.wrPart hg k 1 ha hl hh hf).mark _ _) _ _ _

theorem armEffects_cycle {r s : State} (h : CycleOnly r s) (v : Vat) {q : Nat} (hq : q < 8) : CycleOnly r (armEffects s v q) := by
  unfold armEffects
  split
  · exact foldl_cycle _ _ (fun _ _ _ g => g.wrPort v hq (R.PORT_PWMSTAT_TRIPLAT v q) _ (by simp [cyclePortFields]) (by rfl)) h
  · split
    · refine flagPart_cycle h (mem_cycleCohesc v) v _ _ rfl (by simp [R.PWM_COHERR_COHESC_F]) ?_ ?_
      · simp only [R.PWM_COHERR_COHESC_F]; omega
      · exact decide_eq_true (by show 8 + q + 1 ≤ 32; omega)
    · split
      · refine foldl_cycle _ _ (fun t n hn g => ?_) h
        exact vatEvent_cycle (g.setLeg v (portLegs_lt (List.mem_filter.mp hn).1) (R.DLR_STAT_DRVF_F v n)
          (by simp [cycleLegFields]) (by rfl)) _ _ _ _
      · exact h

theorem actOnCauses_cycle {r s : State} (h : CycleOnly r s) (v : Vat) {p : Nat} (hp : p < 8) : CycleOnly r (actOnCauses s v p) := by
  unfold actOnCauses
  extract_lets u cause any t
  have ht : CycleOnly r t := foldl_cycle _ _ (fun _ _ hq g => armEffects_cycle g v (portUnit_lt hp hq)) h
  clear_value t cause any
  split
  · exact enterUnitPattern_cycle ht v hp _
  · exact ht

theorem setUnitState_cycle {r s : State} (h : CycleOnly r s) (v : Vat) {p : Nat} (hp : p < 8) (new : Nat) :
    CycleOnly r (setUnitState s v p new) :=
  foldl_cycle _ _ (fun _ _ hq g => setPortState_cycle g v (portUnit_lt hp hq) _ _) h

theorem armUnit_cycle {r s : State} (h : CycleOnly r s) (v : Vat) {p : Nat} (hp : p < 8) : CycleOnly r (armUnit s v p) := by
  unfold armUnit
  extract_lets t
  have ht : CycleOnly r t := setUnitState_cycle h v hp ARMED
  clear_value t
  split
  · exact actOnCauses_cycle ht v hp
  · exact ht

/-! ## Device states and orders (Safe.lean) -/

theorem setDev_cycle {r s : State} (h : CycleOnly r s) (d : DevState) : CycleOnly r (setDev s d) := by
  unfold setDev
  extract_lets old x t
  split
  · exact h
  · have ht : CycleOnly r t := h.dev d _
    clear_value t old
    split
    · exact ht
    · exact event_cycle ht _ _ _

theorem takeBackTest_cycle {r s : State} (h : CycleOnly r s) (x : TestEnd) : CycleOnly r (takeBackTest s x) := by
  unfold takeBackTest
  extract_lets a b
  have ha : CycleOnly r a := (h.wrCommon R.HARP_STAT_OUT _ (by decide) (by decide)).wrCommon R.HARP_CNT_TESTS _ (by decide) (by decide)
  clear_value a
  have hb : CycleOnly r b := (ha.wrCommon R.SAFE_FLAGS_TPFAIL_F _ (by decide) (by decide)).wrCommon ⟨R.SAFE_FAULT, 3, 1⟩ _
    (by decide) (by decide)
  clear_value b
  split
  · exact hb.wrCommon R.SAFE_FLAGS_RIDE_F _ (by decide) (by decide)
  · exact hb

theorem countAbandoned_cycle {r s : State} (h : CycleOnly r s) (n : Nat) : CycleOnly r (countAbandoned s n) :=
  event_cycle ((h.setCommon R.SAFE_FLAGS_TPABND_F (by decide) (by decide)).wrCommon R.HARP_CNT_ABANDONED _ (by decide) (by decide)) _ _ _

theorem abandonTest_cycle {r s : State} (h : CycleOnly r s) (n : Nat) : CycleOnly r (abandonTest s n) := by
  unfold abandonTest
  split
  · exact countAbandoned_cycle (h.wrCommon R.HARP_STAT_TP _ (by decide) (by decide)) n
  · split
    · exact countAbandoned_cycle ((takeBackTest_cycle h _).harp _) n
    · exact h

theorem gateOff_cycle {r s : State} (h : CycleOnly r s) : CycleOnly r (gateOff s) := by
  unfold gateOff
  extract_lets t x u w
  split
  · exact h
  · have ht : CycleOnly r t := forN_cycle h (fun _ n _ g => abandonTest_cycle g n)
    clear_value t
    have hu : CycleOnly r u := ht.harp _
    clear_value u
    have hw : CycleOnly r w := by
      refine forN_cycle hu (fun x n _ g => ?_)
      split
      · exact g.wrCommon R.HARP_STAT_OUT _ (by decide) (by decide)
      · exact g.harp _
    clear_value w
    exact hw.wrCommon R.HARP_STAT_GATE 0 (by decide) (by decide)

theorem idlePorts_cycle {r s : State} (h : CycleOnly r s) : CycleOnly r (idlePorts s) := by
  refine forVats_cycle h (fun t v g => forN_cycle g (fun u p hp k => ?_))
  split
  · exact k
  · exact setPortState_cycle k v hp _ _

theorem endRide_cycle {r s : State} (h : CycleOnly r s) : CycleOnly r (endRide s) :=
  ((h.wrCommon R.SAFE_STAT_RIDE 0 (by decide) (by decide)).wrCommon R.SAFE_STAT_DG_LEFT 0 (by decide) (by decide)).harp _

theorem enterSafeStop_cycle {r s : State} (h : CycleOnly r s) (src : Nat) : CycleOnly r (enterSafeStop s src) := by
  unfold enterSafeStop
  extract_lets a b c d e
  have hb : CycleOnly r b := (((gateOff_cycle h).setCommon R.SAFE_STAT_STO (by decide) (by decide)).wrCommon R.SAFE_STAT_STOSRC _
    (by decide) (by decide)).wrCommon R.SAFE_STAT_SS1_ACT 0 (by decide) (by decide)
  clear_value b
  have hd : CycleOnly r d := endRide_cycle (event_cycle (hb.setCommon R.SAFE_FLAGS_STO_F (by decide) (by decide)) _ _ _)
  clear_value d
  exact setDev_cycle (idlePorts_cycle (hd.hold none)) _

theorem ordersOnUnit_cycle {r s : State} (h : CycleOnly r s) (v : Vat) {p : Nat} (hp : p < 8) :
    CycleOnly r (ordersOnUnit s v p) := by
  unfold ordersOnUnit
  extract_lets a b c
  have ha : CycleOnly r a := by
    subst a; split
    · exact setUnitState_cycle h v hp _
    · exact h
  clear_value a
  have hb : CycleOnly r b := by
    subst b; split
    · exact setUnitState_cycle ha v hp _
    · exact ha
  clear_value b
  have hc : CycleOnly r c := by
    subst c; split
    · exact armUnit_cycle hb v hp
    · exact hb
  clear_value c
  split
  · exact setUnitState_cycle hc v hp _
  · exact hc

theorem ordersOnPorts_cycle {r s : State} (h : CycleOnly r s) : CycleOnly r (ordersOnPorts s) := by
  unfold ordersOnPorts
  split
  · exact h
  · refine forVats_cycle h (fun t v g => ?_)
    split
    · refine forN_cycle g (fun u p hp k => ?_)
      split
      · exact k
      · exact ordersOnUnit_cycle k v hp
    · exact g

theorem refreshDeg_cycle {r s : State} (h : CycleOnly r s) : CycleOnly r (refreshDeg s) := by
  unfold refreshDeg
  extract_lets old new
  clear_value old new
  split
  · exact h
  · split
    · exact h
    · exact event_cycle (h.wrCommon R.OWN_DEG_DEG_CAUSE _ (by decide) (by decide)) _ _ _

theorem refreshDev_cycle {r s : State} (h : CycleOnly r s) : CycleOnly r (refreshDev s) := by
  unfold refreshDev
  split
  · exact h
  · split
    · exact setDev_cycle h _
    · split
      · exact setDev_cycle h _
      · exact setDev_cycle h _

theorem ss1End_cycle {r s : State} (h : CycleOnly r s) : CycleOnly r (ss1End s) := by
  unfold ss1End
  split
  · exact h
  · split
    · split
      · exact h
      · exact enterSafeStop_cycle h _
    · split
      · split
        · exact h
        · exact enterSafeStop_cycle h _
      · exact enterSafeStop_cycle h _

/-! ## The cycle's consequences -/

theorem CycleOnly.calm {r s : State} (h : CycleOnly r s) (hc : Calm r) : Calm s := by
  have := congrArg (fun x : State => x.rst.sysAfterSto) h.rest
  exact Eq.trans this hc

theorem endLog_cycle {r s : State} (h : CycleOnly r s) : CycleOnly r s.endLog := ⟨h.rd, h.rest⟩

/-- In a calm state, what ends every command changes only what Safety.lean lists. -/
theorem settle_cycle {s : State} (hc : Calm s) : CycleOnly s (settle s) := by
  unfold settle
  apply endLog_cycle
  split
  · exact CycleOnly.refl s
  · have h := refreshDev_cycle (refreshDeg_cycle (ss1End_cycle (ordersOnPorts_cycle (CycleOnly.refl s))))
    have hn : _ = none := h.calm hc
    unfold dueSysReset
    rw [hn]
    exact h

theorem settle_rd {s : State} (hc : Calm s) (f : Field) (h : cycleFree f = true) : (settle s).rd f = s.rd f :=
  (settle_cycle hc).rd f h

/-- While the device is OFF only the order of the cycle's records follows a command. -/
theorem settle_off {s : State} (h : s.dev = .off) : settle s = s.endLog := by simp [settle, h]

theorem settle_pending {s : State} (hc : Calm s) : (settle s).pending = s.pending := by
  have h := congrArg State.pending (settle_cycle hc).rest
  exact h

theorem settle_variant {s : State} (hc : Calm s) : (settle s).variant = s.variant := by
  have h := congrArg State.variant (settle_cycle hc).rest
  exact h

theorem settle_mem {s : State} (hc : Calm s) : (settle s).mem = s.mem := by
  have h := congrArg State.mem (settle_cycle hc).rest
  exact h

theorem settle_time {s : State} (hc : Calm s) : (settle s).time = s.time := by
  have h := congrArg State.time (settle_cycle hc).rest
  exact h

theorem settle_clk {s : State} (hc : Calm s) : (settle s).clk = s.clk := by
  have h := congrArg State.clk (settle_cycle hc).rest
  exact h

theorem settle_ord {s : State} (hc : Calm s) : (settle s).ord = s.ord := by
  have h := congrArg State.ord (settle_cycle hc).rest
  exact h

theorem settle_whl {s : State} (hc : Calm s) : (settle s).whl = s.whl := by
  have h := congrArg State.whl (settle_cycle hc).rest
  exact h

theorem settle_trust {s : State} (hc : Calm s) : (settle s).trust = s.trust := by
  have h := congrArg State.trust (settle_cycle hc).rest
  exact h

theorem settle_rind {s : State} (hc : Calm s) : (settle s).rind = s.rind := by
  have h := congrArg State.rind (settle_cycle hc).rest
  exact h

theorem settle_nv {s : State} (hc : Calm s) : (settle s).nv = s.nv := by
  have h := congrArg State.nv (settle_cycle hc).rest
  exact h

theorem settle_rcd {s : State} (hc : Calm s) : (settle s).rcd = s.rcd := by
  have h := congrArg State.rcd (settle_cycle hc).rest
  exact h

theorem settle_can {s : State} (hc : Calm s) : (settle s).can = s.can := by
  have h := congrArg State.can (settle_cycle hc).rest
  exact h

theorem settle_net {s : State} (hc : Calm s) : (settle s).net = s.net := by
  have h := congrArg State.net (settle_cycle hc).rest
  exact h

theorem settle_free {s : State} (hc : Calm s) : (settle s).free = s.free := by
  have h := congrArg State.free (settle_cycle hc).rest
  exact h

theorem settle_vatRest {s : State} (hc : Calm s) (v : Vat) : vatRest ((settle s).vat v) = vatRest (s.vat v) := by
  cases v
  · have h := congrArg State.vatA (settle_cycle hc).rest
    exact h
  · have h := congrArg State.vatB (settle_cycle hc).rest
    exact h

theorem settle_vat_inReset {s : State} (hc : Calm s) (v : Vat) : ((settle s).vat v).inReset = (s.vat v).inReset := by
  have h := congrArg VatSt.inReset (settle_vatRest hc v)
  exact h

theorem settle_vat_started {s : State} (hc : Calm s) (v : Vat) : ((settle s).vat v).started = (s.vat v).started := by
  have h := congrArg VatSt.started (settle_vatRest hc v)
  exact h

theorem settle_vat_pulseHeld {s : State} (hc : Calm s) (v : Vat) : ((settle s).vat v).pulseHeld = (s.vat v).pulseHeld := by
  have h := congrArg VatSt.pulseHeld (settle_vatRest hc v)
  exact h

theorem settle_vat_copied {s : State} (hc : Calm s) (v : Vat) : ((settle s).vat v).copied = (s.vat v).copied := by
  have h := congrArg VatSt.copied (settle_vatRest hc v)
  exact h

theorem settle_vat_dlrs {s : State} (hc : Calm s) (v : Vat) : ((settle s).vat v).dlrs = (s.vat v).dlrs := by
  have h := congrArg VatSt.dlrs (settle_vatRest hc v)
  exact h

theorem settle_vat_chans {s : State} (hc : Calm s) (v : Vat) : ((settle s).vat v).chans = (s.vat v).chans := by
  have h := congrArg VatSt.chans (settle_vatRest hc v)
  exact h

theorem settle_vat_groups {s : State} (hc : Calm s) (v : Vat) : ((settle s).vat v).groups = (s.vat v).groups := by
  have h := congrArg VatSt.groups (settle_vatRest hc v)
  exact h

theorem settle_vat_aux {s : State} (hc : Calm s) (v : Vat) : ((settle s).vat v).aux = (s.vat v).aux := by
  have h := congrArg VatSt.aux (settle_vatRest hc v)
  exact h

theorem settle_vat_pos {s : State} (hc : Calm s) (v : Vat) : ((settle s).vat v).pos = (s.vat v).pos := by
  have h := congrArg VatSt.pos (settle_vatRest hc v)
  exact h

theorem settle_vat_setps {s : State} (hc : Calm s) (v : Vat) : ((settle s).vat v).setps = (s.vat v).setps := by
  have h := congrArg VatSt.setps (settle_vatRest hc v)
  exact h

theorem settle_vat_engines {s : State} (hc : Calm s) (v : Vat) : ((settle s).vat v).engines = (s.vat v).engines := by
  have h := congrArg VatSt.engines (settle_vatRest hc v)
  exact h

theorem settle_arb_attr {s : State} (hc : Calm s) : (settle s).arb.attr = s.arb.attr := by
  have h := congrArg (fun x : State => x.arb.attr) (settle_cycle hc).rest
  exact h

theorem settle_arb_unattrOpen {s : State} (hc : Calm s) : (settle s).arb.unattrOpen = s.arb.unattrOpen := by
  have h := congrArg (fun x : State => x.arb.unattrOpen) (settle_cycle hc).rest
  exact h

theorem settle_arb_padFrom {s : State} (hc : Calm s) : (settle s).arb.padFrom = s.arb.padFrom := by
  have h := congrArg (fun x : State => x.arb.padFrom) (settle_cycle hc).rest
  exact h

theorem settle_arb_prevOwner {s : State} (hc : Calm s) : (settle s).arb.prevOwner = s.arb.prevOwner := by
  have h := congrArg (fun x : State => x.arb.prevOwner) (settle_cycle hc).rest
  exact h

theorem settle_arb_auxPend {s : State} (hc : Calm s) : (settle s).arb.auxPend = s.arb.auxPend := by
  have h := congrArg (fun x : State => x.arb.auxPend) (settle_cycle hc).rest
  exact h

theorem settle_arb_ssiPend {s : State} (hc : Calm s) : (settle s).arb.ssiPend = s.arb.ssiPend := by
  have h := congrArg (fun x : State => x.arb.ssiPend) (settle_cycle hc).rest
  exact h

theorem settle_arb_drill {s : State} (hc : Calm s) : (settle s).arb.drill = s.arb.drill := by
  have h := congrArg (fun x : State => x.arb.drill) (settle_cycle hc).rest
  exact h

theorem settle_arb_seen {s : State} (hc : Calm s) : (settle s).arb.seen = s.arb.seen := by
  have h := congrArg (fun x : State => x.arb.seen) (settle_cycle hc).rest
  exact h

theorem settle_arb_asym {s : State} (hc : Calm s) : (settle s).arb.asym = s.arb.asym := by
  have h := congrArg (fun x : State => x.arb.asym) (settle_cycle hc).rest
  exact h

theorem settle_rst_phase {s : State} (hc : Calm s) : (settle s).rst.phase = s.rst.phase := by
  have h := congrArg (fun x : State => x.rst.phase) (settle_cycle hc).rest
  exact h

theorem settle_rst_brown {s : State} (hc : Calm s) : (settle s).rst.brown = s.rst.brown := by
  have h := congrArg (fun x : State => x.rst.brown) (settle_cycle hc).rest
  exact h

theorem settle_rst_trimFails {s : State} (hc : Calm s) : (settle s).rst.trimFails = s.rst.trimFails := by
  have h := congrArg (fun x : State => x.rst.trimFails) (settle_cycle hc).rest
  exact h

theorem settle_rst_released {s : State} (hc : Calm s) : (settle s).rst.released = s.rst.released := by
  have h := congrArg (fun x : State => x.rst.released) (settle_cycle hc).rest
  exact h

theorem settle_rst_withdrawn {s : State} (hc : Calm s) : (settle s).rst.withdrawn = s.rst.withdrawn := by
  have h := congrArg (fun x : State => x.rst.withdrawn) (settle_cycle hc).rest
  exact h

theorem settle_rst_strap {s : State} (hc : Calm s) : (settle s).rst.strap = s.rst.strap := by
  have h := congrArg (fun x : State => x.rst.strap) (settle_cycle hc).rest
  exact h

theorem settle_rst_bank33 {s : State} (hc : Calm s) : (settle s).rst.bank33 = s.rst.bank33 := by
  have h := congrArg (fun x : State => x.rst.bank33) (settle_cycle hc).rest
  exact h

theorem settle_rst_trimsEver {s : State} (hc : Calm s) : (settle s).rst.trimsEver = s.rst.trimsEver := by
  have h := congrArg (fun x : State => x.rst.trimsEver) (settle_cycle hc).rest
  exact h

theorem settle_rst_startVt {s : State} (hc : Calm s) : (settle s).rst.startVt = s.rst.startVt := by
  have h := congrArg (fun x : State => x.rst.startVt) (settle_cycle hc).rest
  exact h

theorem settle_rst_failsBefore {s : State} (hc : Calm s) : (settle s).rst.failsBefore = s.rst.failsBefore := by
  have h := congrArg (fun x : State => x.rst.failsBefore) (settle_cycle hc).rest
  exact h

theorem settle_rst_xspiHigh {s : State} (hc : Calm s) : (settle s).rst.xspiHigh = s.rst.xspiHigh := by
  have h := congrArg (fun x : State => x.rst.xspiHigh) (settle_cycle hc).rest
  exact h

theorem settle_rst_sysAfterSto {s : State} (hc : Calm s) : (settle s).rst.sysAfterSto = s.rst.sysAfterSto := by
  have h := congrArg (fun x : State => x.rst.sysAfterSto) (settle_cycle hc).rest
  exact h

end Sys2Proof.Machine
end

