-- ==== Sys2Proof/WellFormed.lean ====
section
/-! DEFINITION. Which commands the outside world can send: operands that the spec's formats admit. The meanings do not rely on
it; they give every operand an effect. -/

namespace Sys2Proof

open Sys2Proof.Machine

/-- The number names a bus master of R403. -/
def masterWf (m : BitVec 6) : Bool := (masterOf m.toNat).isSome

/-- An 11-bit identifier without IDE, no remote request in an FD frame, and no data above the frame's length (R310). -/
def CanFrame.wf (f : CanFrame) : Bool :=
  (f.ide || f.id.toNat < 2 ^ 11) && !(f.fd && f.rtr) && f.data.toNat < 2 ^ (8 * dlcLength f.fd f.dlc.toNat)

/-- An Ethernet frame holds its two addresses and its type, and is not longer than the largest frame (R333). -/
def frameWf (bs : List Byte) : Bool := 14 ≤ bs.length && bs.length ≤ 1518

def Instr.wf (i : Instr) : Bool :=
  match i with
  | .canFrameRx _ f _ => f.wf
  | .ethFrameRx _ f _ _ _ => frameWf f
  | .firewallViolation m _ _ | .registerWrite m _ _ => masterWf m
  | .busErrorAccess m _ _ _ => masterWf m
  | .lossOfLock lost => lost != 0
  | .ownershipClaim a b => a || b
  | .brineScrub m off _ => off % 4 == 0 && (brineBase m.val).all (fun q => off < q.2)
  | .rindSealwr _ value => value.length ≤ 252
  | _ => true

end Sys2Proof
end

