-- ==== Sys2Proof/Tests/Slice0.lean ====
section
/-! SUPPORT. The model's own tests: a state and operands that meet the premises of each clause of each claim, ill-formed terms
that well-formedness refuses, and single steps whose results the spec states. -/

open Sys2Proof Sys2Proof.Machine

set_option maxRecDepth 20000
set_option Elab.async false

/-! ## States -/

/-- Both vats compute, Vat A owns and is ACTIVE, Vat B is an eligible standby, the device is in READY. -/
def owned (s : State) : State :=
  let s := { s with dev := .ready, rst := { s.rst with phase := .done, released := [.T, .CAN, .VA, .VB, .N, .C] }
                    vatA := { s.vatA with inReset := false, started := true }
                    vatB := { s.vatB with inReset := false, started := true } }
  let s := ((s.wr R.OWN_STAT_OWNER 1).wr (R.VAT_ROLE_ROLE .A) roleACTIVE).wr (R.VAT_ROLE_ROLE .B) roleSTANDBY
  let s := (s.set1 (R.VAT_ROLE_SYNCOK .A)).set1 (R.VAT_ROLE_SYNCOK .B)
  (s.wr R.CLK_STAT_GOOD 63).set1 R.CLK_STAT_REF_OK

/-- Port `n / 4` names leg `n` in slot `n % 4`, as the legs stand at POR. -/
def typed (s : State) : State := forN 8 s (fun s p => s.wr (R.PORT_CFG_TYPE .A p) 1)

def running : State := typed (owned State.reset)

def withArb (s : State) (f : ArbSt → ArbSt) : State := { s with arb := f s.arb }

/-- Leg 31 waits for Vat A, the new owner, to take it from Vat B. -/
def handing : State :=
  withArb ((running.set1 R.OWN_STAT_HANDOVER).wr R.OWN_LEGPEND_VAL 0x80000000) (fun a => { a with prevOwner := some .B })

/-- Ports 0, 1 and 5 run, and engine 7 evaluates the graph of port 5 in slot 3 of both vats. -/
def comparing : State :=
  let s := [0, 1, 5].foldl (fun (s : State) p => s.wr (R.PORT_STATE_STATE .A p) RUN) running
  [Vat.A, .B].foldl (fun s v =>
    modSlot ((s.set1 (R.GS_BIND_BOUND v 7 3)).wr (R.GS_BIND_PORT v 7 3) 5) v 7 3 (fun g => { g with entered := true })) s

/-- No vat owns. -/
def unowned : State := (running.wr R.OWN_STAT_OWNER 0).wr (R.VAT_ROLE_ROLE .A) roleSTANDBY

/-- Vat B is in VAT reset and may be released. -/
def halted : State := ({ running with vatB := { running.vatB with inReset := true } } : State).wr (R.VAT_ROLE_ROLE .B) roleHALTED

def withRst (s : State) (f : ResetSt → ResetSt) : State := { s with rst := f s.rst }

/-- A table of two breakpoints at 0 and 2 µs, with the values 0 and 2^-8. -/
def rampTable : TableDef := ⟨0, 0, 1, [0, 0x40000000], [], [0, 0x3B800000]⟩

/-- Port `p` of vat `v` is in a state, its legs' driver links good, and its RUN and ARM orders are asserted. -/
def active0 (s : State) (v : Vat) (p st : Nat) : State :=
  let s := s.wr (R.PORT_STATE_STATE v p) st
  let s := forN 4 s (fun s k => s.set1 (R.DLR_STAT_LINKOK v (4 * p + k)))
  { s with ord := { s.ord with resolved := [(orderSignal 0 p, 1), (orderSignal 1 p, 1)] } }

def active (v : Vat) (p st : Nat) : State := active0 running v p st

/-- Port `p` is ARMED: its ARM order stands, its RUN order does not. -/
def armed (v : Vat) (p : Nat) : State :=
  let s := active v p ARMED
  { s with ord := { s.ord with resolved := [(orderSignal 0 p, 1)] } }

/-- Trip input `i` is a hard trip of port `p` alone. -/
def tripReady (v : Vat) (i p : Nat) (s : State) : State :=
  ((s.set1 (R.TRIP_CFG_EN v i)).set1 (R.TRIP_CFG_CLASS v i)).wr (R.TRIP_CFG_PMASK v i) (2 ^ p)

/-- Port `p` follows its set, and leg `n` has a threshold of `d` 62.5 ps after the valley of a 100 µs period. -/
def following (v : Vat) (p n d : Nat) : State :=
  let s := modPort (active v p RUN) v p (fun q => { q with followSet := true })
  let s := (s.wr (R.PORT_PERACT_PERACT v p) 25000).wr (R.LEG_DUTY_DUTY v n) 16000
  (s.set1 (R.PORT_CARCFG_MODE v p)).wr (R.LEG_CMP_CMP v n) d

/-- Port 7 is the linked secondary of port 6 and runs in MODE 1; its bootstrap leg 31 has a short low interval, and TBS_MAX is 0. -/
def charging : State :=
  let s := (((following .A 7 31 799990).set1 (R.PORT_CFG_LNK_EN .A 7)).set1 (R.PORT_CFG_ROLE .A 7)).wr (R.PORT_CFG_LINK .A 7) 6
  ((s.set1 (R.DLR_CFG_CLASS .A 31)).wr (R.DLR_CFG_TBS_REF .A 31) 9).wr (R.DLR_CFG_TBS_MAX .A 31) 0

/-- A driver status frame of 16 bits with its CRC. -/
def goodFrameWord (x : Nat) : BitVec 24 := BitVec.ofNat 24 (x + 65536 * crc8 [x % 256, x / 256 % 256])

/-- Channel 7 of Vat A is calibrated: its window is full, its port's graph consumes it, the Rind's value is valid. -/
def calibrated : State :=
  let s := active0 running .A 0 RUN
  let s := (s.set1 (R.GS_BIND_BOUND .A 0 0)).wr (R.GS_BIND_PORT .A 0 0) 0
  let s := modSlot s .A 0 0 (fun g => { g with defs := [⟨0x27, [], [7], 0, 0, 0, 0⟩] })
  let s := ((s.wr (whole (R.SLICE_CAL .A 7)) 0x00001001).wr (R.SLICE_DATA_VALID .A 7) 1).wr (R.R_INST_VALID 0) 1
  let s := (s.wr (whole (R.SLICE_RATIO .A 7)) 0x3F800000).wr (whole (R.R_IN 0)) 0x3F000000
  let s := { s with rind := { s.rind with powered := true, validAll := 255 } }
  let s := modPort s .A 0 (fun q => { q with ranWindow := true })
  modChan s .A 7 (fun c => { c with winBad := false, sumSq := 4 * 16384 * 16384, num := 4 })

/-- Group `g` of Vat A rotates: channel 0 of the group may be shadowed next. -/
def rotating (g : Nat) : State :=
  ((running.set1 (R.SGRP_ROT_ROT_EN .A g)).wr (R.SGRP_ROT_FREE .A g) (64 + g)).wr (R.SLICE_CFG_PRESET .A (8 * g)) 1

/-- An evaluation of a mode that runs in bank 0 at tick 9. -/
def evalIn (m : EvMode) : EvalSt :=
  { tick := 9, mode := m, phase := .running, began := m, squashed := false, bank := 0, tickPt := 0, deadline := 100, ts := 0, period := 0
    caps := [], xhat := [], reloads := 0, valids := [], events := [], invout := false, writes := [], landed := 0, clamped := []
    moves := [], dead := none, seen := [] }

/-- One that speculates and awaits the sample of its instance 0. -/
def evalWaiting : EvalSt := { evalIn .spec with caps := [⟨0, 0, 0, false, false⟩] }

/-- One that commits a duty of leg 31. -/
def evalCommitting : EvalSt := { evalIn .plain with phase := .committing, writes := [.period 7 25000, .duty 31 32767] }

/-- Slot `k` of engine `c` holds the graph of port 7, a source of channel 63, and an evaluation of it. -/
def evaluating (v : Vat) (c k : Nat) (e : EvalSt) : State :=
  let s := (running.set1 (R.GS_BIND_BOUND v c k)).wr (R.GS_BIND_PORT v c k) 7
  modSlot s v c k (fun g => { g with defs := [⟨0x27, [], [0x13F], 0, 4, 8, 12⟩], evals := [e] })

/-- The order signals have these writers. -/
def ordering (ws : List Writer) (s : State) : State := { s with ord := { s.ord with writers := ws } }

/-- The Rind measures; its tap is input 2, its sessions begin above 100 W and end after 10 s. -/
def metered : State :=
  let pars := (List.replicate 12 0x3F800000) ++ [0x00010200, 0x42C80000, 10] ++ List.replicate 17 0
  modRind running (fun r => { r with powered := true, state := 1, par0 := pars, par1 := pars })

/-- A catalogue entry of channel 5: two signals, the second signed. -/
def anEntry (transmit : Bool) (period : Nat) : CanEntry :=
  { chan := 5, pos := 63, txPos := 0, home := 5, place := 63, transmit, auth := false, express := false, fd := true, brs := true
    ide := true, dlc := 8, id := 0x1ABCDE, period, sigs := [⟨0x41, 0, 8, false, 1, 3, 1⟩, ⟨0x1000, 8, 16, true, 0, 5, 0xFFFFFFFF⟩] }

/-- Every channel is on in normal mode, and the catalogue holds these entries. -/
def onCan (xs : List CanEntry) : State :=
  let s := forN 6 running (fun s c => (s.wr (R.CAN_CFG_MODE c) 1).wr (R.CAN_STAT_STATE c) 1)
  { s with can := { s.can with entries := xs } }

def sentFrame : TxFrame := { entry := some (5, 63), data := [1, 2, 3, 4, 5, 6, 7, 8], vals := [0, 7] }

/-- Both Ethernet ports are up, the device an ordinary clock in the slave state on port 1. -/
def onNet : State :=
  let s := forN 2 running (fun s p => (s.set1 (R.ETH_CFG_EN p)).set1 (R.ETH_STAT_LINK p))
  modNet ((s.set1 R.PTP_CFG_GMCAP).wr R.PTP_CFG_ROLE 0) (fun n => { n with role := .slave 1 })

/-- A layer 2 frame to a multicast address with an EtherType: a Sync, where it is PTP's. -/
def frameOf (etype : BitVec 16) : List Byte :=
  [1, 0x1B, 0x19, 0, 0, 0, 2, 0, 0, 0, 0, 9, etype.extractLsb' 8 8, etype.extractLsb' 0 8] ++ List.replicate 46 0

/-- A layer 2 PTP message of a type, of another clock. -/
def messageOf (kind : Byte) : List Byte :=
  (frameOf 0x88F7).take 14 ++ [kind] ++ List.replicate 63 0

/-- 2 µs of PT later. -/
def later (s : State) : State := { s with time := { s.time with ptQ := s.time.ptQ + 1000 * 2 ^ 44 } }

/-- A segment of a service request in a frame on CAN0. -/
def requestCan : CanFrame := { id := 0x1B725300, ide := true, fd := true, rtr := false, dlc := 15, data := 0xABCD01 }

/-- An OWNED device whose session has every level holds a request of the session. -/
def requesting (cmd : Nat) (body : List Byte) (s : State) : State :=
  let s := (s.wr (R.CAN_CFG_MODE 0) 1).wr (R.CAN_STAT_STATE 0) 1
  modTrust (s.wr (R.CFW_FROZEN_FROZEN) 0) (fun t => { t with
    ownedFuse := true, slots := modNth t.slots 0 (fun _ => { hash := 7, valid := true })
    session := some ⟨5, 31, 77, 1, 0⟩, request := some ⟨cmd, 1, body, true⟩ })

/-- The only segment of a READ of one byte in the session of `requesting`, sealed under its key with CTR 2. -/
def sessionSegment : BitVec 512 :=
  let h := messageHeader 1 0x10 0 2
  BitVec.ofNat 512 (leValue (0x80 :: (h ++ gcmSeal (beBytes 32 5) (gcmIv 0 2) h [9])))

/-! ## What the premises of the claims unfold to -/

theorem calm_of {s : State} (h : s.rst.sysAfterSto = none) : Calm s := h

theorem canonical_of {s : State} (h : canonical porValue s.regs = true ∧ Memory.wf s.mem = true) : Canonical s := ⟨h.1, h.2⟩

theorem runningStandby_of {s : State} {v : Vat} (h : s.rst.sysAfterSto = none ∧ s.dev.onward = true ∧ s.hasVat v = true
    ∧ (s.vat v).inReset = false ∧ s.rst.causeVt ≠ some s.time.vt ∧ s.is (R.VAT_ROLE_JOINING v) = false ∧ s.owner ≠ some v
    ∧ aloneVat s v = false) : RunningStandby s v :=
  ⟨h.1, h.2.1, h.2.2.1, h.2.2.2.1, h.2.2.2.2.1, h.2.2.2.2.2.1, h.2.2.2.2.2.2.1, h.2.2.2.2.2.2.2⟩

theorem ownerWithStandby_of {s : State} {v : Vat} (h : s.rst.sysAfterSto = none ∧ s.dev.onward = true ∧ s.hasVat v = true
    ∧ (s.vat v).inReset = false ∧ s.rst.causeVt ≠ some s.time.vt ∧ s.is (R.VAT_ROLE_JOINING v) = false ∧ s.owner = some v
    ∧ eligible s v.other = true) : OwnerWithStandby s v :=
  ⟨h.1, h.2.1, h.2.2.1, h.2.2.2.1, h.2.2.2.2.1, h.2.2.2.2.2.1, h.2.2.2.2.2.2.1, h.2.2.2.2.2.2.2⟩

theorem fits_of {s : State} (h : WheelFits s) (g : vatFits s.vatA = true ∧ vatFits s.vatB = true) : Fits s := ⟨h, g.1, g.2⟩

theorem steady_of {s : State} {v : Vat} (h : s.rst.sysAfterSto = none ∧ s.is R.SAFE_STAT_SS1_ACT = false
    ∧ (List.range 8).all (fun p => isSecondary s v p || unitSteady s v p) = true) : Steady s v := ⟨h.1, h.2.1, h.2.2⟩

theorem netFits_of {s : State} (h : s.net.out.length = 3 ∧ s.net.waiting.length = 16 ∧ s.net.ltq.length = 16
    ∧ s.net.freeAt.length = 2 ∧ s.net.txStamp.length = 2 ∧ s.net.rxStamp.length = 2 ∧ s.net.sent.length = 8) : NetFits s := h

theorem rindFits_of {s : State} (h : rindUp s = true ∧ s.rind.energy.length = 6 ∧ s.rind.slots.length = 32
    ∧ s.rind.par0.length = 32 ∧ s.rind.par1.length = 32) : RindFits s := ⟨h.1, h.2.1, h.2.2.1, h.2.2.2⟩

theorem canFits_of {s : State} (h : s.can.chans.length = 6
    ∧ s.can.entries.all (fun x => decide (x.home < 6) && decide (x.place < 384)) = true) : CanFits s := ⟨h.1, h.2⟩

theorem disciplined_of {s : State} {p : Fin 2} {f : List Byte} {bad : Bool} (h : s.rst.sysAfterSto = none ∧ linkUp s p = true
    ∧ ptpRuns s = true ∧ s.net.role = .slave p ∧ ethFrameGood bad f = true ∧ ownDomain s f = true
    ∧ (ptpKind s f ≠ some 1 ∧ ptpKind s f ≠ some 2 ∧ ptpKind s f ≠ some 11) ∧ restPayload s f = none) :
    Disciplined s p f bad := ⟨h.1, h.2.1, h.2.2.1, h.2.2.2.1, h.2.2.2.2.1, h.2.2.2.2.2.1, h.2.2.2.2.2.2.1, h.2.2.2.2.2.2.2⟩

theorem judged_of {i : Instr} {s : State} {r : Request} {k : Nat} (h : s.rst.sysAfterSto = none ∧ s.can.chans.length = 6
    ∧ s.can.entries.all (fun x => decide (x.home < 6) && decide (x.place < 384)) = true ∧ s.trust.request = some r
    ∧ serviceRuns s = true
    ∧ (serviceRow i).map (fun w => (w.1, judgeRequest s r w.2.1 (w.2.2 s))) = some (r.cmd, k)) : Judged i s r k :=
  ⟨h.1, ⟨h.2.1, h.2.2.1⟩, h.2.2.2.1, h.2.2.2.2.1, h.2.2.2.2.2⟩

theorem issued_of {s : State} {m : BitVec 6} {w : Master} {a : BitVec 32} {b : Bool} (h : s.rst.sysAfterSto = none
    ∧ masterOf m.toNat = some w ∧ issues s m.toNat a.toNat b = true ∧ busErrorAt s a.toNat 4 b = false ∧ absentAt s a.toNat = false) :
    Issued s m w a b := ⟨h.1, h.2.1, h.2.2.1, h.2.2.2.1, h.2.2.2.2⟩

/-! ## Every clause of every claim can be met -/

theorem witness_IdleStep :
    ∃ (s : State), s.pending = [] :=
  ⟨running, by decide +kernel⟩

theorem witness_OutsideResets :
    (∃ (s : State), s.rst.phase ≠ .por)
    ∧ (∃ (s : State), s.rst.phase ≠ .por ∧ s.rst.phase ≠ .held)
    ∧ (∃ (s : State), s.rst.phase = .held ∧ s.dev = .off)
    ∧ (∃ (s : State), s.rst.phase = .held ∧ s.dev = .off) :=
  ⟨⟨running, by decide +kernel⟩,
    ⟨running, by decide +kernel⟩,
    ⟨withRst State.reset (fun r => { r with phase := .held }), by decide +kernel⟩,
    ⟨withRst State.reset (fun r => { r with phase := .held, heldLong := true }), by decide +kernel⟩⟩

theorem witness_SysResetSources :
    (∃ (v : Vat) (s : State), canIssue s (supMaster v) = true ∧ s.rst.phase ≠ .por)
    ∧ (∃ (s : State), s.dev ≠ .off ∧ s.rst.phase ≠ .por)
    ∧ (∃ (s : State), Calm s)
    ∧ (∃ (s : State), s.rst.phase = .trims ∧ s.dev = .off ∧ 2 ≤ s.rst.trimFails)
    ∧ (∃ (s : State), s.rst.phase = .memory)
    ∧ (∃ (d : Domain) (s : State), awaitsDomain s d = true ∧ s.rst.withdrawn.length = 6 ∧ 2 ≤ withdrawals s d) :=
  ⟨⟨.B, running, by decide +kernel⟩,
    ⟨running, by decide +kernel⟩,
    ⟨running, calm_of (by decide +kernel)⟩,
    ⟨withRst State.reset (fun r => { r with phase := .trims, trimFails := 2 }), by decide +kernel⟩,
    ⟨{ withRst State.reset (fun r => { r with phase := .memory }) with dev := .starting }, by decide +kernel⟩,
    ⟨.T, withRst State.reset (fun r => { r with phase := .clocks, withdrawn := [2, 2, 2, 2, 2, 2] }), by decide +kernel⟩⟩

theorem witness_VatResetSources :
    (∃ (v : Vat) (s : State), RunningStandby s v ∧ canIssue s (supMaster v) = true)
    ∧ (∃ (v : Vat) (s : State), RunningStandby s v ∧ supRuns s v = true)
    ∧ (∃ (v : Vat) (s : State), RunningStandby s v)
    ∧ (∃ (v : Vat) (s : State), RunningStandby { s with rst := { s.rst with causeVt := none } } v ∧ s.rst.causeVt = some s.time.vt
        ∧ s.rd R.RST_CAUSE_LEVEL = 3 ∧ s.rd R.RST_CAUSE_CODE < 0x07)
    ∧ (∃ (v : Vat) (s : State), Calm s ∧ s.dev.onward = true ∧ s.hasVat v = true ∧ (s.vat v).inReset = true
        ∧ s.is (R.VAT_ROLE_JOINING v) = false ∧ s.owner ≠ some v ∧ s.rst.causeVt = some s.time.vt
        ∧ s.rd R.RST_CAUSE_LEVEL = 3)
    ∧ (∃ (v : Vat) (s : State), Calm s ∧ s.dev.onward = true ∧ s.hasVat v = true ∧ (s.vat v).inReset = true
        ∧ s.is (R.VAT_ROLE_JOINING v) = false ∧ s.owner ≠ some v ∧ s.rst.causeVt = some s.time.vt
        ∧ s.rd R.RST_CAUSE_LEVEL = 3) :=
  ⟨⟨.B, running, runningStandby_of (by decide +kernel), by decide +kernel⟩,
    ⟨.B, running, runningStandby_of (by decide +kernel), by decide +kernel⟩,
    ⟨.B, running, runningStandby_of (by decide +kernel)⟩,
    ⟨.B,
      (({ running with rst := { running.rst with causeVt := some running.time.vt } } : State).wr R.RST_CAUSE_CODE 6).wr R.RST_CAUSE_LEVEL 3,
      runningStandby_of (by decide +kernel), by decide +kernel⟩,
    ⟨.B,
      (({ (running.modVat .B (fun x => { x with inReset := true })) with rst := { running.rst with causeVt := some running.time.vt } } : State).wr R.RST_CAUSE_CODE 6).wr R.RST_CAUSE_LEVEL 3,
      calm_of (by decide +kernel), by decide +kernel⟩,
    ⟨.B,
      (({ (running.modVat .B (fun x => { x with inReset := true })) with rst := { running.rst with causeVt := some running.time.vt } } : State).wr R.RST_CAUSE_CODE 7).wr R.RST_CAUSE_LEVEL 3,
      calm_of (by decide +kernel), by decide +kernel⟩⟩

theorem witness_ReleaseSequence :
    (∃ (s : State), s.rst.phase = .trims ∧ s.dev = .off)
    ∧ (∃ (s : State), Calm s ∧ s.rst.phase ≠ .por ∧ s.rst.phase ≠ .held)
    ∧ (∃ (d : Domain) (s : State), Calm s ∧ awaitsDomain s d = true ∧ s.is R.CLK_STAT_REF_OK = true
        ∧ s.rdBit R.CLK_STAT_GOOD (domainGood d) = true ∧ s.is R.SAFE_STAT_SS1_ACT = false ∧ d ≠ .C ∧ .C ∉ s.rst.released)
    ∧ (∃ (s : State), Calm s ∧ awaitsDomain s .C = true ∧ s.is R.CLK_STAT_REF_OK = true
        ∧ s.rdBit R.CLK_STAT_GOOD (domainGood .C) = true ∧ s.is R.SAFE_STAT_SS1_ACT = false)
    ∧ (∃ (d : Domain) (s : State), Calm s ∧ awaitsDomain s d = true ∧ s.rst.withdrawn.length = 6 ∧ withdrawals s d < 2)
    ∧ (∃ (s : State), Calm s ∧ s.rst.phase = .memory ∧ s.is R.SAFE_STAT_SS1_ACT = false)
    ∧ (∃ (s : State), Calm s ∧ (s.dev = .run ∨ s.dev = .degraded)) :=
  ⟨⟨withRst State.reset (fun r => { r with phase := .trims, trimFails := 2 }), by decide +kernel⟩,
    ⟨withRst State.reset (fun r => { r with phase := .clocks }), calm_of (by decide +kernel), by decide +kernel⟩,
    ⟨.T, withRst ((State.reset.wr R.CLK_STAT_GOOD 63).set1 R.CLK_STAT_REF_OK) (fun r => { r with phase := .clocks }),
      calm_of (by decide +kernel), by decide +kernel⟩,
    ⟨withRst ((State.reset.wr R.CLK_STAT_GOOD 63).set1 R.CLK_STAT_REF_OK) (fun r => { r with phase := .domains, released := [.T, .CAN, .VA, .VB, .N] }),
      calm_of (by decide +kernel), by decide +kernel⟩,
    ⟨.T, withRst (State.reset.wr R.CLK_STAT_GOOD 63) (fun r => { r with phase := .clocks }), calm_of (by decide +kernel),
      by decide +kernel⟩,
    ⟨{ withRst State.reset (fun r => { r with phase := .memory }) with dev := .starting }, calm_of (by decide +kernel),
      by decide +kernel⟩,
    ⟨{ running.wr R.WHL_VER_HI_VAL 7 with dev := .degraded }, calm_of (by decide +kernel), by decide +kernel⟩⟩

theorem witness_WheelLoadedEnds :
    (∃ (s : State), Calm s ∧ s.dev = .loading ∧ s.rst.phase ≠ .por ∧ s.rst.phase ≠ .held)
    ∧ (∃ (rs : List WheelRec) (regs : List (Nat × Word)) (a : Nat) (w : Word) (row : RegRow) (is : List Nat), targetsOk rs = true
        ∧ imageRegs rs = some regs ∧ (a, w) ∈ regs ∧ findReg a = some (row, is) ∧ a ≠ R.NT_CTL ∧ a ≠ R.NT_FREQ) :=
  ⟨⟨{ withRst State.reset (fun r => { r with phase := .loading }) with dev := .loading }, calm_of (by decide +kernel),
      by decide +kernel⟩,
    ⟨[⟨1, false, [0x10001, 0x40020010, 5]⟩], [(0x40020010, 5)], 0x40020010, 5, ⟨0x40020010, [], 0, .const, 0, 0x7F, 0, 0, 0, 0, 0,
      0⟩, [], by decide +kernel⟩⟩

theorem witness_StandbyFaultsReset :
    (∃ (v : Vat) (s : State), RunningStandby s v ∧ s.variant.dual = true ∧ s.vatLive v.other = true)
    ∧ (∃ (v : Vat) (s : State), RunningStandby s v) :=
  ⟨⟨.B, running, runningStandby_of (by decide +kernel), by decide +kernel⟩,
    ⟨.B, running, runningStandby_of (by decide +kernel)⟩⟩

theorem witness_OwnerFaultHandsOver :
    (∃ (v : Vat) (s : State), OwnerWithStandby s v ∧ s.variant.dual = true ∧ s.vatLive v.other = true)
    ∧ (∃ (v : Vat) (s : State), OwnerWithStandby s v)
    ∧ (∃ (v : Vat) (s : State), OwnerWithStandby s v ∧ supRuns s v = true)
    ∧ (∃ (v : Vat) (leg : Fin 32) (p : Nat) (s : State), OwnerWithStandby s v ∧ legPort s v leg.val = some p
        ∧ s.rdBit R.OWN_LEGPEND_VAL leg.val = false ∧ s.arb.drill = none ∧ s.arb.padFrom ≠ some v.other) :=
  ⟨⟨.A, running, ownerWithStandby_of (by decide +kernel), by decide +kernel⟩,
    ⟨.A, running, ownerWithStandby_of (by decide +kernel)⟩,
    ⟨.A, running, ownerWithStandby_of (by decide +kernel), by decide +kernel⟩,
    ⟨.A, 4, 1, running, ownerWithStandby_of (by decide +kernel), by decide +kernel⟩⟩

theorem witness_MismatchesRecorded :
    (∃ (k : MismatchKind) (s : State), Calm s ∧ compared s k = true ∧ joiningVat s = none ∧ s.arb.attr = none)
    ∧ (∃ (k : MismatchKind) (s : State), Calm s ∧ compared s k = true ∧ joiningVat s = none ∧ s.arb.attr = none)
    ∧ (∃ (k : MismatchKind) (s : State), Calm s ∧ compared s k = true ∧ joiningVat s = none ∧ s.arb.attr = none)
    ∧ (∃ (k : MismatchKind) (s : State), Calm s ∧ compared s k = true ∧ joiningVat s = none ∧ s.arb.attr = none)
    ∧ (∃ (k : MismatchKind) (s : State), Calm s ∧ compared s k = true ∧ joiningVat s = none ∧ s.arb.attr = none)
    ∧ (∃ (k : MismatchKind) (s : State), Calm s ∧ compared s k = true ∧ joiningVat s = none ∧ s.arb.attr = none)
    ∧ (∃ (k : MismatchKind) (s : State), Calm s ∧ compared s k = false)
    ∧ (∃ (k : MismatchKind) (s : State), Calm s ∧ compared s k = false)
    ∧ (∃ (v : Vat) (leg : Fin 32) (p : Nat) (s : State), Calm s ∧ s.dev.onward = true ∧ s.owner = some v
        ∧ legPort s v leg.val = some p ∧ s.rdBit R.OWN_LEGPEND_VAL leg.val = false ∧ s.arb.drill = none
        ∧ s.arb.padFrom = some v.other)
    ∧ (∃ (s : State), Calm s) :=
  ⟨⟨.csig 7 3 5 0xFFFFFFFF, comparing, calm_of (by decide +kernel), by decide +kernel⟩,
    ⟨.reload 1 4, comparing, calm_of (by decide +kernel), by decide +kernel⟩,
    ⟨.state 0, comparing, calm_of (by decide +kernel), by decide +kernel⟩,
    ⟨.level 31, comparing, calm_of (by decide +kernel), by decide +kernel⟩,
    ⟨.auxOut 3, comparing.set1 (R.AUX_CFG_EN .A 3), calm_of (by decide +kernel), by decide +kernel⟩,
    ⟨.ssiOut 3, comparing.set1 (R.POS_CFG_EN .A 7), calm_of (by decide +kernel), by decide +kernel⟩,
    ⟨.csig 7 3 5 0xFFFFFFFF, running, calm_of (by decide +kernel), by decide +kernel⟩,
    ⟨.level 31, { running with variant := .S }, calm_of (by decide +kernel), by decide +kernel⟩,
    ⟨.A, 31, 7, withArb running (fun a => { a with padFrom := some .B }), calm_of (by decide +kernel), by decide +kernel⟩,
    ⟨withArb running (fun a => { a with padFrom := some .B }), calm_of (by decide +kernel)⟩⟩

theorem witness_AttributionEnds :
    (∃ (v : Vat) (s : State), RunningStandby s v ∧ s.arb.attr = some ⟨v == .A, v == .B⟩)
    ∧ (∃ (v : Vat) (s : State), OwnerWithStandby s v ∧ s.arb.attr = some ⟨v == .A, v == .B⟩)
    ∧ (∃ (v : Vat) (both : Bool) (s : State), RunningStandby s v ∧ s.owner = some v.other ∧ s.arb.attr = some ⟨both, both⟩
        ∧ s.arb.unattrOpen = false)
    ∧ (∃ (v : Vat) (both : Bool) (s : State), RunningStandby s v ∧ s.owner = some v.other ∧ s.arb.attr = some ⟨both, both⟩
        ∧ s.arb.unattrOpen = true)
    ∧ (∃ (s : State), Calm s) :=
  ⟨⟨.B, withArb running (fun a => { a with attr := some ⟨false, true⟩ }), runningStandby_of (by decide +kernel),
      by decide +kernel⟩,
    ⟨.A, withArb running (fun a => { a with attr := some ⟨true, false⟩ }), ownerWithStandby_of (by decide +kernel),
      by decide +kernel⟩,
    ⟨.B, true, withArb running (fun a => { a with attr := some ⟨true, true⟩ }), runningStandby_of (by decide +kernel),
      by decide +kernel⟩,
    ⟨.B, false, withArb running (fun a => { a with attr := some ⟨false, false⟩, unattrOpen := true }),
      runningStandby_of (by decide +kernel), by decide +kernel⟩,
    ⟨withArb running (fun a => { a with unattrOpen := true }), calm_of (by decide +kernel)⟩⟩

theorem witness_ClaimsAndHandover :
    (∃ (s : State), Calm s ∧ s.dev.onward = true ∧ s.owner = none ∧ s.vatLive .A = true ∧ eligible s .A = true)
    ∧ (∃ (s : State), Calm s ∧ s.dev.onward = true ∧ s.owner = none ∧ s.vatLive .B = true ∧ eligible s .B = true)
    ∧ (∃ (s : State), Calm s ∧ eligible s .A = false ∧ eligible s .B = false)
    ∧ (∃ (v : Vat) (s : State), OwnerWithStandby s v ∧ s.is (R.VAT_ROLE_FLT v) = true ∧ s.vatLive v.other = true)
    ∧ (∃ (n : Fin 32) (v : Vat) (w : Vat) (s : State), Calm s ∧ s.owner = some v ∧ s.arb.prevOwner = some w
        ∧ (s.is (R.LEG_PIN_EN v n) = false ∨ (s.is (R.LEG_PIN_EN v n) = s.is (R.LEG_PIN_EN w n)
        ∧ s.is (R.LEG_PIN_PULSE v n) = s.is (R.LEG_PIN_PULSE w n)) ∨ (∃ p < 8, legPort s v n = some p
        ∧ 2 ≤ eventsSince s v p s.arb.changePt)))
    ∧ (∃ (n : Fin 32) (v : Vat) (w : Vat) (s : State), Calm s ∧ s.owner = some v ∧ s.arb.prevOwner = some w
        ∧ (s.is (R.LEG_PIN_EN v n) = false ∨ (s.is (R.LEG_PIN_EN v n) = s.is (R.LEG_PIN_EN w n)
        ∧ s.is (R.LEG_PIN_PULSE v n) = s.is (R.LEG_PIN_PULSE w n)) ∨ (∃ p < 8, legPort s v n = some p
        ∧ 2 ≤ eventsSince s v p s.arb.changePt)))
    ∧ (∃ (n : Fin 32) (v : Vat) (w : Vat) (p : Nat) (s : State), Calm s ∧ s.owner = some v ∧ s.arb.prevOwner = some w
        ∧ s.rdBit R.OWN_LEGPEND_VAL n.val = true ∧ s.is (R.LEG_PIN_EN v n) = true
        ∧ (s.is (R.LEG_PIN_EN w n) = false ∨ s.is (R.LEG_PIN_PULSE v n) ≠ s.is (R.LEG_PIN_PULSE w n)) ∧ legPort s v n = some p
        ∧ eventsSince s v p s.arb.changePt < 2)
    ∧ (∃ (k : Fin 4) (s : State), Calm s ∧ (getAux s .A k).cur.map (fun f => f.1) = (getAux s .B k).cur.map (fun f => f.1))
    ∧ (∃ (k : Fin 4) (s : State), Calm s ∧ s.arb.auxPend ≠ 0
        ∧ (getAux s .A k).cur.map (fun f => f.1) ≠ (getAux s .B k).cur.map (fun f => f.1))
    ∧ (∃ (i : Fin 4) (s : State), Calm s ∧ (getPos s .A (4 + i)).frame = (getPos s .B (4 + i)).frame)
    ∧ (∃ (i : Fin 4) (s : State), Calm s ∧ s.arb.ssiPend ≠ 0 ∧ (getPos s .A (4 + i)).frame ≠ (getPos s .B (4 + i)).frame)
    ∧ (∃ (n : Fin 32) (s : State), Calm s ∧ s.rd R.OWN_LEGPEND_VAL = 2 ^ n.val ∧ s.arb.auxPend = 0 ∧ s.arb.ssiPend = 0
        ∧ legPasses s n = true) :=
  ⟨⟨unowned, calm_of (by decide +kernel), by decide +kernel⟩,
    ⟨unowned, calm_of (by decide +kernel), by decide +kernel⟩,
    ⟨State.reset, calm_of (by decide +kernel), by decide +kernel⟩,
    ⟨.A, running.set1 (R.VAT_ROLE_FLT .A), ownerWithStandby_of (by decide +kernel), by decide +kernel⟩,
    ⟨31, .A, .B, handing, calm_of (by decide +kernel), by decide +kernel⟩,
    ⟨31, .A, .B, (handing.set1 (R.LEG_PIN_EN .A 31)).set1 (R.LEG_PIN_EN .B 31), calm_of (by decide +kernel), by decide +kernel⟩,
    ⟨31, .A, .B, 7, handing.set1 (R.LEG_PIN_EN .A 31), calm_of (by decide +kernel), by decide +kernel⟩,
    ⟨3, handing, calm_of (by decide +kernel), by decide +kernel⟩,
    ⟨3, modAux (withArb handing (fun a => { a with auxPend := 8 })) .A 3 (fun a => { a with cur := some (2, false) }),
      calm_of (by decide +kernel), by decide +kernel⟩,
    ⟨3, handing, calm_of (by decide +kernel), by decide +kernel⟩,
    ⟨3, modPos (withArb handing (fun a => { a with ssiPend := 8 })) .A 7 (fun x => { x with frame := some 5 }),
      calm_of (by decide +kernel), by decide +kernel⟩,
    ⟨31, handing, calm_of (by decide +kernel), by decide +kernel⟩⟩

theorem witness_JoiningStages :
    (∃ (v : Vat) (s : State), Calm s ∧ Fits s ∧ releasable s v = true ∧ (List.range 8).all (fun c => !engRetired s v c) = true)
    ∧ (∃ (v : Vat) (s : State), Calm s ∧ releasable s v = true ∧ aloneVat s v = false)
    ∧ (∃ (v : Vat) (s : State), Calm s ∧ releasable s v = false)
    ∧ (∃ (v : Vat) (s : State), Calm s ∧ s.vatLive v = true ∧ s.is (R.VAT_ROLE_JOINING v) = true ∧ (s.vat v).copied = false)
    ∧ (∃ (v : Vat) (s : State), Calm s ∧ s.dev.onward = true ∧ s.hasVat v = true ∧ (s.vat v).inReset = false
        ∧ s.is (R.VAT_ROLE_JOINING v) = true ∧ s.owner ≠ some v ∧ aloneVat s v = false) :=
  ⟨⟨.B, halted, calm_of (by decide +kernel), fits_of (by unfold WheelFits; decide +kernel) (by decide +kernel),
      by decide +kernel⟩,
    ⟨.B, halted, calm_of (by decide +kernel), by decide +kernel⟩,
    ⟨.A, halted, calm_of (by decide +kernel), by decide +kernel⟩,
    ⟨.B, running.set1 (R.VAT_ROLE_JOINING .B), calm_of (by decide +kernel), by decide +kernel⟩,
    ⟨.B, running.set1 (R.VAT_ROLE_JOINING .B), calm_of (by decide +kernel), by decide +kernel⟩⟩

theorem witness_DrillWindowEnds :
    (∃ (d : DrillSt) (s : State), Calm s ∧ s.arb.drill = some d ∧ d.checking = true ∧ (d.back = false ∨ d.returned = true))
    ∧ (∃ (d : DrillSt) (s : State), Calm s ∧ s.arb.drill = some d ∧ d.checking = true ∧ (d.back = false ∨ d.returned = true))
    ∧ (∃ (d : DrillSt) (s : State), Calm s ∧ s.arb.drill = some d ∧ d.checking = true ∧ d.back = true ∧ d.returned = false
        ∧ eligible s d.origin = true)
    ∧ (∃ (d : DrillSt) (s : State), Calm s ∧ s.arb.drill = some d ∧ d.checking = true ∧ d.back = true ∧ d.returned = false
        ∧ eligible s d.origin = false)
    ∧ (∃ (s : State), Calm s ∧ s.arb.drill.all (fun d => !d.checking) = true) :=
  ⟨⟨⟨.B, false, false, true⟩, withArb running (fun a => { a with drill := some ⟨.B, false, false, true⟩ }),
      calm_of (by decide +kernel), by decide +kernel⟩,
    ⟨⟨.A, true, true, true⟩, withArb running (fun a => { a with drill := some ⟨.A, true, true, true⟩ }),
      calm_of (by decide +kernel), by decide +kernel⟩,
    ⟨⟨.B, true, false, true⟩, withArb running (fun a => { a with drill := some ⟨.B, true, false, true⟩ }),
      calm_of (by decide +kernel), by decide +kernel⟩,
    ⟨⟨.B, true, false, true⟩,
      withArb (running.clr (R.VAT_ROLE_SYNCOK .B)) (fun a => { a with drill := some ⟨.B, true, false, true⟩ }),
      calm_of (by decide +kernel), by decide +kernel⟩,
    ⟨running, calm_of (by decide +kernel), by decide +kernel⟩⟩

theorem witness_RefclkAndHoldover :
    (∃ (s : State), Calm s ∧ s.rst.phase ≠ .por ∧ s.rst.loopsOn = true ∧ s.is R.CLK_STAT_REF_OK = false)
    ∧ (∃ (s : State), Calm s ∧ s.rst.phase ≠ .por ∧ s.rst.loopsOn = true ∧ s.is R.CLK_STAT_REF_OK = false)
    ∧ (∃ (s : State), Calm s ∧ s.is R.CLK_STAT_REF_OK = true)
    ∧ (∃ (ph : BitVec 16) (s : State), Calm s ∧ s.is R.CLK_STAT_REF_OK = true ∧ s.rdBit R.CLK_STAT_GOOD 2 = true
        ∧ s.is R.CLK_STAT_PHASE_OK = false ∧ s.clk.slewQ = 0 ∧ phaseNear ph.toNat = true)
    ∧ (∃ (ph : BitVec 16) (s : State), Calm s ∧ s.is R.CLK_STAT_REF_OK = true ∧ s.rdBit R.CLK_STAT_GOOD 2 = true
        ∧ s.is R.CLK_STAT_PHASE_OK = false ∧ s.clk.slewQ = 0 ∧ phaseNear ph.toNat = true)
    ∧ (∃ (ph : BitVec 16) (s : State), Calm s ∧ phaseNear ph.toNat = false ∧ s.is R.CLK_STAT_PHASE_OK = false)
    ∧ (∃ (s : State), Calm s
        ∧ (s.clk.slewQ ≠ 0 ∨ s.is R.CLK_STAT_REF_OK = false ∨ s.rdBit R.CLK_STAT_GOOD 2 = false ∨ s.is R.CLK_STAT_PHASE_OK = true)) :=
  ⟨⟨withRst (running.clr R.CLK_STAT_REF_OK) (fun r => { r with loopsOn := true }), calm_of (by decide +kernel),
      by decide +kernel⟩,
    ⟨withRst ((running.clr R.CLK_STAT_REF_OK).set1 R.CLK_STAT_HOLD) (fun r => { r with loopsOn := true }),
      calm_of (by decide +kernel), by decide +kernel⟩,
    ⟨running, calm_of (by decide +kernel), by decide +kernel⟩,
    ⟨1, running, calm_of (by decide +kernel), by decide +kernel⟩,
    ⟨0xFFFF, running.set1 R.CLK_STAT_HOLD, calm_of (by decide +kernel), by decide +kernel⟩,
    ⟨2, running, calm_of (by decide +kernel), by decide +kernel⟩,
    ⟨{ running.set1 R.CLK_STAT_HOLD with clk := { running.clk with slewQ := -5000000 } }, calm_of (by decide +kernel),
      by decide +kernel⟩⟩

theorem witness_LossOfLockReactions :
    (∃ (m : BitVec 6) (s : State), Calm s ∧ s.dev ≠ .off ∧ m &&& 0b011111 = 0)
    ∧ (∃ (v : Vat) (s : State), RunningStandby s v ∧ s.rdBit R.CLK_STAT_GOOD (v.code - 1) = true
        ∧ (domainUp s (match v with | .A => .VA | .B => .VB) = true))
    ∧ (∃ (s : State), Calm s ∧ s.rdBit R.CLK_STAT_GOOD 3 = true ∧ domainUp s .N = true)
    ∧ (∃ (s : State), Calm s ∧ s.dev ≠ .off ∧ s.rdBit R.CLK_STAT_GOOD 4 = true)
    ∧ (∃ (s : State), s.dev.operating = false ∧ s.dev ≠ .off ∧ s.rst.phase ≠ .por ∧ s.rdBit R.CLK_STAT_GOOD 2 = true
        ∧ domainUp s .T = true)
    ∧ (∃ (s : State), s.dev.operating = true ∧ s.rst.phase ≠ .por ∧ s.rdBit R.CLK_STAT_GOOD 2 = true ∧ domainUp s .T = true
        ∧ s.arb.hold = none ∧ (List.range 8).all (fun p => monitorPattern s p < 2) = true)
    ∧ (∃ (s : State), s.dev.operating = true ∧ s.rdBit R.CLK_STAT_GOOD 2 = true ∧ domainUp s .T = true ∧ s.arb.hold = none
        ∧ (List.range 8).any (fun p => 2 ≤ monitorPattern s p) = true) :=
  ⟨⟨0b100000, running, calm_of (by decide +kernel), by decide +kernel⟩,
    ⟨.B, running, runningStandby_of (by decide +kernel), by decide +kernel⟩,
    ⟨running, calm_of (by decide +kernel), by decide +kernel⟩,
    ⟨running.set1 (R.SGRP_CLK_SRC .A 7), calm_of (by decide +kernel), by decide +kernel⟩,
    ⟨{ running with dev := .loading, rst := { running.rst with phase := .loading } }, by decide +kernel⟩,
    ⟨running, by decide +kernel⟩,
    ⟨(running.wr (R.PORT_STATE_STATE .A 7) RUN).wr (whole R.OWN_FP) 0x8000, by decide +kernel⟩⟩

theorem witness_LoopsReturn :
    (∃ (l : PllLoop) (s : State), Calm s ∧ s.rst.phase ≠ .por ∧ s.rst.loopsOn = true ∧ s.is R.CLK_STAT_REF_OK = true
        ∧ s.rdBit R.CLK_STAT_GOOD (loopBit l) = false)
    ∧ (∃ (l : PllLoop) (s : State), Calm s ∧ s.rst.phase ≠ .por ∧ s.rst.loopsOn = true ∧ s.is R.CLK_STAT_REF_OK = true
        ∧ s.rdBit R.CLK_STAT_GOOD (loopBit l) = false)
    ∧ (∃ (l : PllLoop) (s : State), Calm s ∧ s.rst.phase ≠ .por ∧ s.rst.loopsOn = true ∧ s.is R.CLK_STAT_REF_OK = true
        ∧ s.rdBit R.CLK_STAT_GOOD (loopBit l) = false)
    ∧ (∃ (l : PllLoop) (s : State), Calm s ∧ s.rst.phase ≠ .por ∧ s.rst.loopsOn = true ∧ s.is R.CLK_STAT_REF_OK = true
        ∧ s.rdBit R.CLK_STAT_GOOD (loopBit l) = false) :=
  ⟨⟨.T, withRst (running.wr R.CLK_STAT_GOOD 0) (fun r => { r with loopsOn := true }), calm_of (by decide +kernel),
      by decide +kernel⟩,
    ⟨.N, withRst (running.wr R.CLK_STAT_GOOD 0) (fun r => { r with loopsOn := true }), calm_of (by decide +kernel),
      by decide +kernel⟩,
    ⟨.CAN, withRst ((running.wr R.CLK_STAT_GOOD 0).wr (R.CAN_STAT_STATE 5) 3) (fun r => { r with loopsOn := true }),
      calm_of (by decide +kernel), by decide +kernel⟩,
    ⟨.C, withRst (running.wr R.CLK_STAT_GOOD 0) (fun r => { r with loopsOn := true }), calm_of (by decide +kernel),
      by decide +kernel⟩⟩

theorem witness_RingAndRamp :
    (∃ (f : Nat) (s : State), Calm s ∧ s.rst.phase ≠ .por ∧ s.is R.CLK_STAT_REF_OK = true ∧ calibrationOk s f = true)
    ∧ (∃ (f : Nat) (s : State), Calm s ∧ s.rst.phase ≠ .por ∧ s.is R.CLK_STAT_REF_OK = true ∧ calibrationOk s f = true)
    ∧ (∃ (f : Nat) (s : State), s.rst.phase ≠ .por ∧ s.is R.CLK_STAT_REF_OK = true ∧ lostT s = false ∧ calibrationOk s f = false)
    ∧ (∃ (f : Nat) (s : State), s.rst.phase ≠ .por ∧ s.is R.CLK_STAT_REF_OK = true ∧ lostT s = false ∧ calibrationOk s f = false)
    ∧ (∃ (s : State), Calm s ∧ (s.rst.phase = .por ∨ s.is R.CLK_STAT_REF_OK = false))
    ∧ (∃ (x : TableDef) (s : State), Calm s ∧ s.is R.CLK_STAT_RAMP = true
        ∧ findTable s.whl.tables (s.rd R.PLLT_RAMP_TABLE_ID) = some x)
    ∧ (∃ (s : State), Calm s ∧ s.is R.CLK_STAT_RAMP = false)
    ∧ (∃ (s : State), Calm s) :=
  ⟨⟨5200, running, calm_of (by decide +kernel), by decide +kernel⟩,
    ⟨4000, { running.wr R.CLK_STAT_RO_FREQ 4080 with clk := { running.clk with roHave := true } }, calm_of (by decide +kernel),
      by decide +kernel⟩,
    ⟨5201, running, by decide +kernel⟩,
    ⟨2799, running, by decide +kernel⟩,
    ⟨running.clr R.CLK_STAT_REF_OK, calm_of (by decide +kernel), by decide +kernel⟩,
    ⟨rampTable, { running.set1 R.CLK_STAT_RAMP with whl := { running.whl with tables := [rampTable] } },
      calm_of (by decide +kernel), by decide +kernel⟩,
    ⟨running, calm_of (by decide +kernel), by decide +kernel⟩,
    ⟨running, calm_of (by decide +kernel)⟩⟩

theorem witness_TripsAct :
    (∃ (v : Vat) (i : Fin 8) (p : Fin 8) (s : State), Steady s v ∧ pulseRuns s v = true ∧ s.is (R.TRIP_CFG_EN v i) = true
        ∧ s.is (R.TRIP_STAT_LEVEL v i) = false ∧ s.rd (R.TRIP_CFG_PMASK v i) = 2 ^ p.val ∧ loneActive s v p = true
        ∧ (s.is (R.TRIP_CFG_CLASS v i) = true ∨ s.is (R.PORT_PWMSTAT_BLK v p) = false))
    ∧ (∃ (v : Vat) (i : Fin 8) (p : Fin 8) (s : State), Steady s v ∧ pulseRuns s v = true ∧ s.is (R.TRIP_CFG_EN v i) = true
        ∧ s.is (R.TRIP_STAT_LEVEL v i) = false ∧ s.rd (R.TRIP_CFG_PMASK v i) = 2 ^ p.val ∧ loneActive s v p = true
        ∧ (s.is (R.TRIP_CFG_CLASS v i) = true ∨ s.is (R.PORT_PWMSTAT_BLK v p) = false))
    ∧ (∃ (v : Vat) (i : Fin 8) (p : Fin 8) (s : State), Steady s v ∧ pulseRuns s v = true ∧ s.is (R.TRIP_CFG_EN v i) = true
        ∧ s.is (R.TRIP_STAT_LEVEL v i) = false ∧ s.rd (R.TRIP_CFG_PMASK v i) = 2 ^ p.val ∧ portActive s v p = true
        ∧ s.is (R.TRIP_CFG_CLASS v i) = false ∧ s.is (R.PORT_PWMSTAT_BLK v p) = true)
    ∧ (∃ (v : Vat) (s : State), Calm s ∧ pulseRuns s v = true) :=
  ⟨⟨.A, 7, 7, tripReady .A 7 7 (active .A 7 RUN), steady_of (by decide +kernel), by decide +kernel⟩,
    ⟨.A, 0, 0, (tripReady .A 0 0 (active .A 0 RUN)).wr (R.PORT_FPCFG_FP .A 0) 2, steady_of (by decide +kernel), by decide +kernel⟩,
    ⟨.A, 7, 7, ((tripReady .A 7 7 (active .A 7 RUN)).set1 (R.PORT_PWMSTAT_BLK .A 7)).clr (R.TRIP_CFG_CLASS .A 7),
      steady_of (by decide +kernel), by decide +kernel⟩,
    ⟨.B, running, calm_of (by decide +kernel), by decide +kernel⟩⟩

theorem witness_SoftTripsResolved :
    (∃ (v : Vat) (p : Fin 8) (i : Fin 8) (s : State), Steady s v ∧ pulseRuns s v = true
        ∧ s.rdBit (R.PORT_PWMSTAT_TRIPLAT v p) i = true ∧ s.is (R.TRIP_STAT_LEVEL v i) = false)
    ∧ (∃ (v : Vat) (p : Fin 8) (i : Fin 8) (s : State), Steady s v ∧ pulseRuns s v = true
        ∧ s.rdBit (R.PORT_PWMSTAT_TRIPLAT v p) i = true ∧ s.is (R.TRIP_STAT_LEVEL v i) = true ∧ loneActive s v p = true)
    ∧ (∃ (v : Vat) (p : Fin 8) (s : State), Steady s v ∧ pulseRuns s v = true ∧ s.is (R.PORT_PWMSTAT_BLK v p) = true
        ∧ (List.range 8).all (fun i => !s.is (R.TRIP_STAT_LEVEL v i)) = true)
    ∧ (∃ (v : Vat) (p : Fin 8) (i : Fin 8) (s : State), Steady s v ∧ pulseRuns s v = true ∧ s.is (R.PORT_PWMSTAT_BLK v p) = true
        ∧ s.rdBit (R.PORT_PWMSTAT_TRIPLAT v p) i = true ∧ s.is (R.TRIP_STAT_LEVEL v i) = true ∧ loneActive s v p = true) :=
  ⟨⟨.A, 7, 7, (active .A 7 RUN).wr (R.PORT_PWMSTAT_TRIPLAT .A 7) 128, steady_of (by decide +kernel), by decide +kernel⟩,
    ⟨.A, 7, 7, ((active .A 7 RUN).wr (R.PORT_PWMSTAT_TRIPLAT .A 7) 128).set1 (R.TRIP_STAT_LEVEL .A 7),
      steady_of (by decide +kernel), by decide +kernel⟩,
    ⟨.A, 7, ((active .A 7 RUN).wr (R.PORT_PWMSTAT_TRIPLAT .A 7) 129).set1 (R.PORT_PWMSTAT_BLK .A 7),
      steady_of (by decide +kernel), by decide +kernel⟩,
    ⟨.A, 7, 0,
      (((active .A 7 RUN).wr (R.PORT_PWMSTAT_TRIPLAT .A 7) 129).set1 (R.PORT_PWMSTAT_BLK .A 7)).set1 (R.TRIP_STAT_LEVEL .A 0),
      steady_of (by decide +kernel), by decide +kernel⟩⟩

theorem witness_EdgesPlaced :
    (∃ (v : Vat) (n : Fin 32) (p : Nat) (rise : Bool) (s : State), Steady s v ∧ legPort s v n = some p
        ∧ edgePlaced s v p n rise = true ∧ ((s.vat v).pulseHeld = false ∨ s.is R.OWN_STAT_HANDOVER = false)
        ∧ tminUnits s v n ≤ opensUnits s v p n rise)
    ∧ (∃ (v : Vat) (n : Fin 32) (p : Nat) (rise : Bool) (s : State), Steady s v ∧ legPort s v n = some p
        ∧ edgePlaced s v p n rise = true ∧ ((s.vat v).pulseHeld = false ∨ s.is R.OWN_STAT_HANDOVER = false)
        ∧ tminUnits s v n ≤ opensUnits s v p n rise)
    ∧ (∃ (v : Vat) (n : Fin 32) (p : Nat) (rise : Bool) (s : State), Steady s v ∧ legPort s v n = some p
        ∧ edgePlaced s v p n rise = true ∧ ((s.vat v).pulseHeld = false ∨ s.is R.OWN_STAT_HANDOVER = false)
        ∧ opensUnits s v p n rise < tminUnits s v n ∧ s.is (R.LEG_CFG_MPMODE v n) = true)
    ∧ (∃ (v : Vat) (n : Fin 32) (p : Nat) (rise : Bool) (s : State), Steady s v ∧ legPort s v n = some p
        ∧ edgePlaced s v p n rise = true ∧ ((s.vat v).pulseHeld = false ∨ s.is R.OWN_STAT_HANDOVER = false)
        ∧ opensUnits s v p n rise < tminUnits s v n ∧ s.is (R.LEG_CFG_MPMODE v n) = false)
    ∧ (∃ (v : Vat) (n : Fin 32) (p : Nat) (rise : Bool) (s : State), Steady s v ∧ legPort s v n = some p ∧ pulseRuns s v = true
        ∧ s.is R.OWN_STAT_HANDOVER = false
        ∧ (portState s v p ≠ RUN ∨ (getPort s v p).followSet = false ∨ setLevel s v n = rise))
    ∧ (∃ (v : Vat) (n : Fin 32) (p : Nat) (rise : Bool) (s : State), Steady s v ∧ legPort s v n = some p ∧ pulseRuns s v = true
        ∧ s.is R.OWN_STAT_HANDOVER = false ∧ portState s v p = RUN ∧ (getPort s v p).followSet = true
        ∧ s.is (R.LEG_PIN_PULSE v n) ≠ rise ∧ (getLeg s v n).refEnd = none ∧ (s.vat v).legs.length = 32
        ∧ tminUnits s v n ≤ opensUnits s v p n rise ∧ tooSoon s v n = true
        ∧ s.rd (R.LEG_DUTY_DUTY v n) ≠ (if rise then 0 else 32767))
    ∧ (∃ (v : Vat) (n : Fin 32) (p : Nat) (rise : Bool) (s : State), Steady s v ∧ legPort s v n = some p ∧ pulseRuns s v = true
        ∧ s.is R.OWN_STAT_HANDOVER = false ∧ portState s v p = RUN ∧ (getPort s v p).followSet = true
        ∧ (getLeg s v n).refEnd.isSome = true ∧ (getLeg s v n).under ≠ rise ∧ (s.vat v).legs.length = 32
        ∧ tminUnits s v n ≤ opensUnits s v p n rise ∧ s.rd (R.LEG_DUTY_DUTY v n) ≠ (if rise then 0 else 32767))
    ∧ (∃ (v : Vat) (n : Fin 32) (p : Nat) (rise : Bool) (s : State), Steady s v ∧ legPort s v n = some p ∧ pulseRuns s v = true
        ∧ s.is R.OWN_STAT_HANDOVER = false ∧ portState s v p = RUN ∧ (getPort s v p).followSet = true
        ∧ s.is (R.LEG_PIN_PULSE v n) ≠ rise ∧ (getLeg s v n).refEnd = none ∧ tooSoon s v n = false
        ∧ s.rd (R.LEG_DUTY_DUTY v n) = (if rise then 32767 else 0))
    ∧ (∃ (v : Vat) (n : Fin 32) (p : Nat) (s : State), Steady s v ∧ legPort s v n = some p ∧ pulseRuns s v = true
        ∧ ((s.vat v).pulseHeld = false ∨ s.is R.OWN_STAT_HANDOVER = false) ∧ isSecondary s v p = false
        ∧ s.rd (R.PORT_CARCFG_RELSEL v p) = 2 ∧ (portLegs s v p).head? = some n.val)
    ∧ (∃ (v : Vat) (n : Fin 32) (p : Nat) (s : State), Steady s v ∧ legPort s v n = some p ∧ pulseRuns s v = true
        ∧ s.is R.OWN_STAT_HANDOVER = false ∧ isSecondary s v p = true ∧ refreshes s v p n = true ∧ portMode1 s v p = true
        ∧ (getLeg s v n).ahead = false ∧ (s.vat v).legs.length = 32
        ∧ lowAtValley s v p n (s.rd (R.PORT_PERACT_PERACT v p)) (s.rd (R.LEG_CMP_CMP v n)) 0 = false
        ∧ refreshDue s v p n 0 = true ∧ headLeg s v p n = false) :=
  ⟨⟨.A, 31, 7, true, following .A 7 31 16000, steady_of (by decide +kernel), by decide +kernel⟩,
    ⟨.A, 28, 7, false, (following .A 7 28 16000).set1 (R.LEG_PIN_PULSE .A 28), steady_of (by decide +kernel), by decide +kernel⟩,
    ⟨.A, 31, 7, true, later (((following .A 7 31 10).wr (R.LEG_CFG_MPSET .A 31) 2).set1 (R.LEG_CFG_MPMODE .A 31)),
      steady_of (by decide +kernel), by decide +kernel⟩,
    ⟨.A, 31, 7, true, later ((following .A 7 31 10).wr (R.LEG_CFG_MPSET .A 31) 2), steady_of (by decide +kernel),
      by decide +kernel⟩,
    ⟨.A, 31, 7, true, active .A 7 RUN, steady_of (by decide +kernel), by decide +kernel⟩,
    ⟨.A, 31, 7, true,
      modLeg ((following .A 7 31 16000).wr (R.LEG_CFG_MPSET .A 31) 2) .A 31 (fun l => { l with edgePt := running.pt }),
      steady_of (by decide +kernel), by decide +kernel⟩,
    ⟨.A, 31, 7, true, modLeg (following .A 7 31 16000) .A 31 (fun l => { l with refEnd := some 5 }),
      steady_of (by decide +kernel), by decide +kernel⟩,
    ⟨.A, 31, 7, false, ((following .A 7 31 10).wr (R.LEG_DUTY_DUTY .A 31) 0).set1 (R.LEG_PIN_PULSE .A 31),
      steady_of (by decide +kernel), by decide +kernel⟩,
    ⟨.A, 28, 7, running.wr (R.PORT_CARCFG_RELSEL .A 7) 2, steady_of (by decide +kernel), by decide +kernel⟩,
    ⟨.A, 31, 7, charging, steady_of (by decide +kernel), by decide +kernel⟩⟩

theorem witness_Reloads :
    (∃ (v : Vat) (p : Fin 8) (valley : Bool) (k : Nat) (s : State), Steady s v ∧ reloadsAlone s v p valley = true
        ∧ ((s.vat v).pulseHeld = false ∨ s.is R.OWN_STAT_HANDOVER = false) ∧ coherentTag (shadowTags s v p) = some k)
    ∧ (∃ (v : Vat) (p : Fin 8) (valley : Bool) (s : State), Steady s v ∧ reloadsAlone s v p valley = true
        ∧ ((s.vat v).pulseHeld = false ∨ s.is R.OWN_STAT_HANDOVER = false) ∧ coherentTag (shadowTags s v p) = none
        ∧ s.rd (R.PORT_PWMSTAT_COHRUN v p) < 2)
    ∧ (∃ (v : Vat) (p : Fin 8) (valley : Bool) (s : State), Steady s v ∧ reloadsAlone s v p valley = true
        ∧ ((s.vat v).pulseHeld = false ∨ s.is R.OWN_STAT_HANDOVER = false) ∧ coherentTag (shadowTags s v p) = none
        ∧ 2 ≤ s.rd (R.PORT_PWMSTAT_COHRUN v p) ∧ loneActive s v p = true)
    ∧ (∃ (v : Vat) (p : Fin 8) (valley : Bool) (s : State), Calm s ∧ (pulseRuns s v = false ∨ reloadsAt s v p valley = false)) :=
  ⟨⟨.A, 7, true, 0, running.wr (R.PORT_CARCFG_RELSEL .A 7) 1, steady_of (by decide +kernel), by decide +kernel⟩,
    ⟨.A, 7, false, (running.wr (R.LEG_SHTAG_VAL .A 31) 5).wr (R.PORT_CARCFG_RELSEL .A 7) 2, steady_of (by decide +kernel),
      by decide +kernel⟩,
    ⟨.A, 7, false,
      (((active .A 7 RUN).wr (R.LEG_SHTAG_VAL .A 31) 5).wr (R.PORT_PWMSTAT_COHRUN .A 7) 2).wr (R.PORT_CARCFG_RELSEL .A 7) 3,
      steady_of (by decide +kernel), by decide +kernel⟩,
    ⟨.A, 7, false, running.wr (R.PORT_CARCFG_RELSEL .A 7) 1, calm_of (by decide +kernel), by decide +kernel⟩⟩

theorem witness_PortTicks :
    (∃ (v : Vat) (p : Fin 8) (s : State), Calm s ∧ pulseRuns s v = true ∧ ticks s v p = true ∧ (s.vat v).ports.length = 8)
    ∧ (∃ (v : Vat) (p : Fin 8) (s : State), Calm s ∧ pulseRuns s v = true ∧ ticks s v p = true ∧ (s.vat v).ports.length = 8)
    ∧ (∃ (v : Vat) (p : Fin 8) (c : Fin 8) (k : Fin 4) (s : State), Calm s ∧ Fits s ∧ s.vatLive v = true ∧ ticks s v p = true
        ∧ portGraph s v p = some (c.val, k.val) ∧ (getSlot s v c k).entered = true ∧ (getSlot s v c k).migrating = false
        ∧ (getSlot s v c k).migrated = false ∧ engRetired s v c = false ∧ engFrozen s v c = false)
    ∧ (∃ (v : Vat) (p : Fin 8) (s : State), Calm s ∧ (pulseRuns s v = false ∨ ticks s v p = false)) :=
  ⟨⟨.A, 7, running.wr (R.PORT_TICKNUM_VAL .A 7) 0xFFFFFFFF, calm_of (by decide +kernel), by decide +kernel⟩,
    ⟨.A, 0, (modPort running .A 0 (fun q => { q with ticked := true })).wr (R.PORT_TICKNUM_VAL .A 0) 0xFFFFFFFF,
      calm_of (by decide +kernel), by decide +kernel⟩,
    ⟨.A, 7, 7, 3, evaluating .A 7 3 (evalIn .plain), calm_of (by decide +kernel),
      fits_of (by unfold WheelFits; decide +kernel) (by decide +kernel), by decide +kernel⟩,
    ⟨.A, 7, running.wr (R.PORT_CFG_TYPE .A 7) 0, calm_of (by decide +kernel), by decide +kernel⟩⟩

theorem witness_DriverFramesJudged :
    (∃ (v : Vat) (n : Fin 32) (fr : BitVec 24) (s : State), Calm s ∧ legHeard s v n = true ∧ frameGood fr.toNat true = true)
    ∧ (∃ (v : Vat) (n : Fin 32) (p : Nat) (fr : BitVec 24) (s : State), Steady s v ∧ pulseRuns s v = true ∧ legPort s v n = some p
        ∧ loneActive s v p = true ∧ frameGood fr.toNat true = true ∧ s.is (R.DLR_STAT_LINKOK v n) = true
        ∧ drvFault s v n = false
        ∧ (bitOf fr.toNat 3 = true ∨ bitOf fr.toNat 4 = true ∨ bitOf fr.toNat 6 = true ∨ bitOf fr.toNat 7 = true))
    ∧ (∃ (v : Vat) (n : Fin 32) (p : Nat) (fr : BitVec 24) (s : State), Steady s v ∧ pulseRuns s v = true ∧ legPort s v n = some p
        ∧ loneActive s v p = true ∧ frameGood fr.toNat true = true ∧ s.is (R.DLR_STAT_LINKOK v n) = true
        ∧ drvFault s v n = false
        ∧ (bitOf fr.toNat 3 = true ∨ bitOf fr.toNat 4 = true ∨ bitOf fr.toNat 6 = true ∨ bitOf fr.toNat 7 = true))
    ∧ (∃ (v : Vat) (n : Fin 32) (p : Nat) (fr : BitVec 24) (en : Bool) (s : State), Steady s v ∧ pulseRuns s v = true
        ∧ legPort s v n = some p ∧ loneActive s v p = true ∧ frameGood fr.toNat true = true
        ∧ s.is (R.DLR_STAT_LINKOK v n) = true ∧ drvFault s v n = false ∧ fr.toNat / 8 % 32 = 0
        ∧ s.is (R.DLR_STAT_BREAK v n) = false ∧ ((getDlr s v n).mismatch = false)
        ∧ (fr.toNat % 4 ≠ s.rd (R.LEG_CFG_TDT v n) ∨ bitOf fr.toNat 2 ≠ s.is (R.DLR_CFG_CLASS v n) ∨ (en = true
        ∧ bitOf fr.toNat 11 ≠ (pinLevels s n).2)))
    ∧ (∃ (v : Vat) (n : Fin 32) (p : Nat) (fr : BitVec 24) (en : Bool) (s : State), Steady s v ∧ pulseRuns s v = true
        ∧ legPort s v n = some p ∧ loneActive s v p = true ∧ frameGood fr.toNat true = true
        ∧ s.is (R.DLR_STAT_LINKOK v n) = true ∧ drvFault s v n = false ∧ fr.toNat / 8 % 32 = 0
        ∧ s.is (R.DLR_STAT_BREAK v n) = false ∧ ((getDlr s v n).mismatch = false)
        ∧ (fr.toNat % 4 ≠ s.rd (R.LEG_CFG_TDT v n) ∨ bitOf fr.toNat 2 ≠ s.is (R.DLR_CFG_CLASS v n) ∨ (en = true
        ∧ bitOf fr.toNat 11 ≠ (pinLevels s n).2)))
    ∧ (∃ (v : Vat) (n : Fin 32) (fr : BitVec 24) (s : State), Calm s ∧ legHeard s v n = true ∧ (s.vat v).dlrs.length = 32
        ∧ frameGood fr.toNat true = true ∧ fr.toNat % 4 = s.rd (R.LEG_CFG_TDT v n)
        ∧ bitOf fr.toNat 2 = s.is (R.DLR_CFG_CLASS v n))
    ∧ (∃ (v : Vat) (n : Fin 32) (fr : BitVec 24) (fo : Bool) (s : State), Calm s ∧ legHeard s v n = true
        ∧ frameGood fr.toNat fo = false)
    ∧ (∃ (v : Vat) (n : Fin 32) (fr : BitVec 24) (fo : Bool) (s : State), Calm s ∧ legHeard s v n = true
        ∧ frameGood fr.toNat fo = false) :=
  ⟨⟨.A, 31, 0, active .A 7 RUN, calm_of (by decide +kernel), by decide +kernel⟩,
    ⟨.A, 31, 7, goodFrameWord 8, active .A 7 RUN, steady_of (by decide +kernel), by decide +kernel⟩,
    ⟨.A, 28, 7, goodFrameWord 16, (armed .A 7).wr (R.PORT_FPCFG_FP .A 7) 1, steady_of (by decide +kernel), by decide +kernel⟩,
    ⟨.A, 31, 7, goodFrameWord 4, false, active .A 7 RUN, steady_of (by decide +kernel), by decide +kernel⟩,
    ⟨.A, 31, 7, goodFrameWord 2048, true, active .A 7 RUN, steady_of (by decide +kernel), by decide +kernel⟩,
    ⟨.A, 31, goodFrameWord 0, modDlr (active .A 7 RUN) .A 31 (fun d => { d with mismatch := true }), calm_of (by decide +kernel),
      by decide +kernel⟩,
    ⟨.A, 31, 1, true, active .A 7 RUN, calm_of (by decide +kernel), by decide +kernel⟩,
    ⟨.A, 31, 0, false, modDlr (active .A 7 RUN) .A 31 (fun d => { d with badRun := 3 }), calm_of (by decide +kernel),
      by decide +kernel⟩⟩

theorem witness_BreaksAndLinkLoss :
    (∃ (v : Vat) (n : Fin 32) (p : Nat) (s : State), Steady s v ∧ pulseRuns s v = true ∧ legPort s v n = some p
        ∧ loneActive s v p = true ∧ drvFault s v n = false)
    ∧ (∃ (v : Vat) (n : Fin 32) (p : Nat) (s : State), Steady s v ∧ pulseRuns s v = true ∧ legPort s v n = some p
        ∧ loneActive s v p = true ∧ drvFault s v n = false)
    ∧ (∃ (v : Vat) (n : Fin 32) (s : State), Steady s v ∧ legHeard s v n = true)
    ∧ (∃ (v : Vat) (n : Fin 32) (s : State), Calm s ∧ legHeard s v n = true)
    ∧ (∃ (v : Vat) (n : Fin 32) (p : Nat) (s : State), Steady s v ∧ pulseRuns s v = true ∧ legPort s v n = some p
        ∧ loneActive s v p = true ∧ s.is (R.DLR_STAT_LINKOK v n) = true)
    ∧ (∃ (v : Vat) (p : Fin 8) (s : State), Steady s v ∧ s.is (R.PORT_FPCFG_ASCT v p) = true ∧ s.is (R.PORT_CFG_LNK_EN v p) = false
        ∧ holdsShort s v p = true ∧ s.arb.hold = none) :=
  ⟨⟨.A, 31, 7, active .A 7 RUN, steady_of (by decide +kernel), by decide +kernel⟩,
    ⟨.A, 28, 7, (active .A 7 RUN).wr (R.PORT_FPCFG_FP .A 7) 2, steady_of (by decide +kernel), by decide +kernel⟩,
    ⟨.A, 31, (active .A 7 FAULTPAT).set1 (R.DLR_STAT_BREAK .A 31), steady_of (by decide +kernel), by decide +kernel⟩,
    ⟨.A, 31, active .A 7 RUN, calm_of (by decide +kernel), by decide +kernel⟩,
    ⟨.A, 31, 7, active .A 7 RUN, steady_of (by decide +kernel), by decide +kernel⟩,
    ⟨.A, 7, ((active .A 7 FAULTPAT).wr (R.PORT_FPCFG_PATNOW .A 7) 3).wr (R.PORT_FPCFG_ASCT .A 7) 65535,
      steady_of (by decide +kernel), by decide +kernel⟩⟩

theorem witness_SamplesTaken :
    (∃ (v : Vat) (n : Fin 64) (s : State), Calm s ∧ s.vatLive v = true ∧ s.is (R.SLICE_CFG_PRESET v n) = true
        ∧ s.is (R.SGRP_STAT_CLKLOSS v (n / 8)) = false)
    ∧ (∃ (v : Vat) (n : Fin 64) (s : State), Calm s
        ∧ (s.vatLive v = false ∨ s.is (R.SLICE_CFG_PRESET v n) = false ∨ s.is (R.SGRP_STAT_CLKLOSS v (n / 8)) = true))
    ∧ (∃ (v : Vat) (n : Fin 64) (s : State), Calm s ∧ s.vatLive v = true ∧ s.is (R.SLICE_CAL_GCAL_EN v n) = true
        ∧ calActive s v n true = true ∧ (getChan s v n).winBad = false ∧ (getChan s v n).num ≠ 0
        ∧ F32.lt (windowRms (getChan s v n)) (F32.ofNat (s.rd (R.SLICE_CAL_MINLVL v n))) = false)
    ∧ (∃ (v : Vat) (n : Fin 64) (s : State), Calm s
        ∧ (s.vatLive v = false ∨ s.is (R.SLICE_CAL_GCAL_EN v n) = false ∨ calActive s v n true = false ∨ (getChan s v n).winBad = true)) :=
  ⟨⟨.A, 63, running.wr (R.SLICE_CFG_PRESET .A 63) 2, calm_of (by decide +kernel), by decide +kernel⟩,
    ⟨.A, 63, running, calm_of (by decide +kernel), by decide +kernel⟩,
    ⟨.A, 7, calibrated, calm_of (by decide +kernel), by decide +kernel⟩,
    ⟨.B, 63, running, calm_of (by decide +kernel), by decide +kernel⟩⟩

theorem witness_MonitorsAct :
    (∃ (v : Vat) (n : Fin 64) (s : State), Calm s ∧ s.vatLive v = true ∧ s.is (R.SLICE_CFG_PRESET v n) = true
        ∧ s.is (R.SLICE_MON_FZ_EN v n) = true ∧ s.rd (R.SLICE_MON_FZ_COUNT v n) * 16 ≤ (getChan s v n).fzCnt
        ∧ (getChan s v n).fzRef.isSome = true ∧ (getChan s v n).qual = true ∧ s.is (R.SLICE_DATA_FROZEN v n) = false
        ∧ s.is (R.SLICE_DATA_CLKLOSS v n) = false)
    ∧ (∃ (v : Vat) (n : Fin 64) (s : State), Calm s ∧ s.vatLive v = true ∧ s.is (R.SLICE_CFG_PRESET v n) = true
        ∧ s.is (R.SLICE_MON_FR_LIMIT v n) = true ∧ s.is (R.SLICE_DATA_CLKLOSS v n) = false
        ∧ s.is (R.SLICE_DATA_STALE v n) = false)
    ∧ (∃ (v : Vat) (n : Fin 64) (s : State), Calm s ∧ s.vatLive v = true ∧ s.is (R.SLICE_DATA_STALE v n) = true
        ∧ s.is (R.SLICE_DATA_CLKLOSS v n) = false) :=
  ⟨⟨.B, 63,
      modChan ((running.wr (R.SLICE_CFG_PRESET .B 63) 1).wr (whole (R.SLICE_MON .B 63)) 0x01008000) .B 63 (fun c => { c with fzCnt := 16, fzRef := some (-32768) }),
      calm_of (by decide +kernel), by decide +kernel⟩,
    ⟨.A, 0, (running.wr (R.SLICE_CFG_PRESET .A 0) 1).wr (R.SLICE_MON_FR_LIMIT .A 0) 1, calm_of (by decide +kernel),
      by decide +kernel⟩,
    ⟨.A, 63, running.set1 (R.SLICE_DATA_STALE .A 63), calm_of (by decide +kernel), by decide +kernel⟩⟩

theorem witness_GroupsSynchronise :
    (∃ (v : Vat) (s : State), Calm s ∧ s.vatLive v = true)
    ∧ (∃ (w : Vat) (g : Fin 8) (s : State), Calm s ∧ Fits s ∧ alignedGroup s w g = false ∧ syncDue s w g = true)
    ∧ (∃ (w : Vat) (g : Fin 8) (s : State), Calm s ∧ (alignedGroup s w g = true ∨ syncDue s w g = false))
    ∧ (∃ (s : State), Calm s)
    ∧ (∃ (s : State), Calm s ∧ Fits s) :=
  ⟨⟨.B, running, calm_of (by decide +kernel), by decide +kernel⟩,
    ⟨.A, 7, ((running.wr (R.SGRP_SYNC_MASK .A 7) 128).set1 (R.SGRP_SYNC_GO .A 7)).wr (R.SLICE_CFG_PRESET .A 63) 4,
      calm_of (by decide +kernel), fits_of (by unfold WheelFits; decide +kernel) (by decide +kernel), by decide +kernel⟩,
    ⟨.B, 7, running, calm_of (by decide +kernel), by decide +kernel⟩,
    ⟨running.wr (R.SLICE_CFG_PRESET .A 63) 4, calm_of (by decide +kernel)⟩,
    ⟨running.set1 (R.SGRP_STAT_CLKLOSS .B 7), calm_of (by decide +kernel),
      fits_of (by unfold WheelFits; decide +kernel) (by decide +kernel)⟩⟩

theorem witness_SlicesRotate :
    (∃ (w : Vat) (g : Fin 8) (i : Nat) (s : State), Calm s ∧ Fits s ∧ mayRotate s w g = true
        ∧ nextRotated s (rotationLead s g) g = some i)
    ∧ (∃ (w : Vat) (g : Fin 8) (s : State), Calm s ∧ (mayRotate s w g = false ∨ nextRotated s (rotationLead s g) g = none))
    ∧ (∃ (v : Vat) (g : Fin 8) (c : Fin 8) (f : Fin 72) (o : Fin 72) (rep : Bool) (s : State), Calm s ∧ s.vatLive v = true
        ∧ (getGrp s v g).rot = .shadowing f c rep ∧ s.rd (R.SLICE_STAT_SERVED_BY v (8 * g + c)) = o ∧ f ≠ o)
    ∧ (∃ (v : Vat) (g : Fin 8) (c : Fin 8) (f : Fin 72) (s : State), Calm s ∧ s.vatLive v = true
        ∧ (getGrp s v g).rot = .shadowing f c false)
    ∧ (∃ (v : Vat) (g : Fin 8) (c : Fin 8) (f : Fin 72) (o : Fin 72) (s : State), Calm s ∧ s.vatLive v = true
        ∧ (getGrp s v g).rot = .shadowing f c true ∧ s.rd (R.SLICE_STAT_SERVED_BY v (8 * g + c)) = o ∧ f ≠ o)
    ∧ (∃ (v : Vat) (g : Fin 8) (f : Fin 72) (s : State), Calm s ∧ s.vatLive v = true ∧ (getGrp s v g).rot = .testing f none)
    ∧ (∃ (v : Vat) (g : Fin 8) (c : Fin 8) (f : Fin 72) (s : State), Calm s ∧ s.vatLive v = true
        ∧ (getGrp s v g).rot = .testing f (some c))
    ∧ (∃ (v : Vat) (g : Fin 8) (f : Fin 72) (again : Option Nat) (s : State), Calm s ∧ s.vatLive v = true
        ∧ (getGrp s v g).rot = .testing f again) :=
  ⟨⟨.A, 7, 0, rotating 7, calm_of (by decide +kernel), fits_of (by unfold WheelFits; decide +kernel) (by decide +kernel),
      by decide +kernel⟩,
    ⟨.B, 7, running, calm_of (by decide +kernel), by decide +kernel⟩,
    ⟨.A, 7, 7, 71, 63, true,
      modGrp (running.wr (R.SLICE_STAT_SERVED_BY .A 63) 63) .A 7 (fun x => { x with rot := .shadowing 71 7 true }),
      calm_of (by decide +kernel), by decide +kernel⟩,
    ⟨.A, 0, 7, 64, modGrp running .A 0 (fun x => { x with rot := .shadowing 64 7 false }), calm_of (by decide +kernel),
      by decide +kernel⟩,
    ⟨.A, 7, 0, 71, 56,
      modGrp (running.wr (R.SLICE_STAT_SERVED_BY .A 56) 56) .A 7 (fun x => { x with rot := .shadowing 71 0 true }),
      calm_of (by decide +kernel), by decide +kernel⟩,
    ⟨.A, 7, 71, modGrp running .A 7 (fun x => { x with rot := .testing 71 none }), calm_of (by decide +kernel), by decide +kernel⟩,
    ⟨.A, 7, 3, 71, modGrp running .A 7 (fun x => { x with rot := .testing 71 (some 3) }), calm_of (by decide +kernel),
      by decide +kernel⟩,
    ⟨.A, 7, 71, some 3, modGrp running .A 7 (fun x => { x with rot := .testing 71 (some 3) }), calm_of (by decide +kernel),
      by decide +kernel⟩⟩

theorem witness_AuxLinksDeliver :
    (∃ (v : Vat) (k : Fin 4) (e : BitVec 4) (inj : Bool) (s : State), Calm s ∧ auxRuns s v k = true ∧ (getAux s v k).skip = false
        ∧ (getAux s v k).cur = some (e.toNat, inj))
    ∧ (∃ (v : Vat) (k : Fin 4) (e : BitVec 4) (inj : Bool) (s : State), Calm s ∧ auxRuns s v k = true ∧ (getAux s v k).skip = false
        ∧ (getAux s v k).cur = some (e.toNat, inj))
    ∧ (∃ (v : Vat) (k : Fin 4) (e : BitVec 4) (st : BitVec 4) (ch : Nat) (inj : Bool) (s : State), Calm s ∧ auxRuns s v k = true
        ∧ (getAux s v k).skip = false ∧ (getAux s v k).cur = some (ch, inj) ∧ (e.toNat ≠ ch ∨ st ≠ 0))
    ∧ (∃ (v : Vat) (k : Fin 4) (e : BitVec 4) (st : BitVec 4) (ch : Nat) (inj : Bool) (s : State), Calm s ∧ auxRuns s v k = true
        ∧ (getAux s v k).skip = false ∧ (getAux s v k).cur = some (ch, inj) ∧ (e.toNat ≠ ch ∨ st ≠ 0))
    ∧ (∃ (v : Vat) (k : Fin 4) (s : State), Calm s
        ∧ (auxRuns s v k = false ∨ (getAux s v k).cur = none ∨ (getAux s v k).skip = true))
    ∧ (∃ (v : Vat) (k : Fin 4) (s : State), Calm s ∧ s.vatLive v = true ∧ s.is (R.AUX_DATA_FULL v k) = true
        ∧ s.rdBit (R.FW_FROZEN_FROZEN v) 9 = false ∧ (s.vat v).aux.length = 4)
    ∧ (∃ (v : Vat) (e : TrigEvent) (p : Fin 8) (k : Fin 4) (s : State), Calm s ∧ Fits s ∧ injSelected s v k e p = true
        ∧ auxRuns s v k = true ∧ (List.range 4).all (fun j => j == k.val || !(auxRuns s v j && injSelected s v j e p)) = true)
    ∧ (∃ (v : Vat) (e : TrigEvent) (p : Fin 8) (k : Fin 4) (s : State), Calm s ∧ Fits s ∧ injSelected s v k e p = true
        ∧ auxRuns s v k = true ∧ (List.range 4).all (fun j => j == k.val || !(auxRuns s v j && injSelected s v j e p)) = true)
    ∧ (∃ (v : Vat) (e : TrigEvent) (p : Fin 8) (s : State), Calm s
        ∧ (List.range 4).all (fun j => !(auxRuns s v j && injSelected s v j e p)) = true)
    ∧ (∃ (v : Vat) (n : Fin 64) (s : State), Calm s ∧ s.vatLive v = true ∧ s.is (R.AUX_CODING_AGE_LIMIT v (n / 16)) = true
        ∧ bitOf (getAux s v (n / 16)).got (n % 16) = true ∧ s.is (R.AX_STALE v n) = false)
    ∧ (∃ (v : Vat) (n : Fin 64) (s : State), Calm s
        ∧ (s.vatLive v = false ∨ s.is (R.AUX_CODING_AGE_LIMIT v (n / 16)) = false ∨ bitOf (getAux s v (n / 16)).got (n % 16) = false ∨ s.is (R.AX_STALE v n) = true)) :=
  ⟨⟨.A, 3, 15, true, modAux (running.set1 (R.AUX_CFG_EN .A 3)) .A 3 (fun a => { a with cur := some (15, true) }),
      calm_of (by decide +kernel), by decide +kernel⟩,
    ⟨.A, 3, 15, false,
      modAux ((running.set1 (R.AUX_CFG_EN .A 3)).set1 (R.AUX_DATA_FULL .A 3)) .A 3 (fun a => { a with cur := some (15, false) }),
      calm_of (by decide +kernel), by decide +kernel⟩,
    ⟨.A, 3, 15, 0, 0, true,
      modAux (running.set1 (R.AUX_CFG_EN .A 3)) .A 3 (fun a => { a with cur := some (0, true), badRun := 2 }),
      calm_of (by decide +kernel), by decide +kernel⟩,
    ⟨.A, 3, 0, 8, 0, true, modAux (running.set1 (R.AUX_CFG_EN .A 3)) .A 3 (fun a => { a with cur := some (0, true) }),
      calm_of (by decide +kernel), by decide +kernel⟩,
    ⟨.A, 3, running, calm_of (by decide +kernel), by decide +kernel⟩,
    ⟨.B, 3, (running.set1 (R.AUX_DATA_FULL .B 3)).wr (R.AUX_DATA_CHAN .B 3) 15, calm_of (by decide +kernel), by decide +kernel⟩,
    ⟨.A, .valley, 0, 3,
      (((running.set1 (R.AUX_CFG_EN .A 3)).wr (R.AUX_INJ_TRIG .A 3) 2).wr (R.AUX_INJ_ILEN .A 3) 4).wr (R.AUX_INJ_EVT .A 3) 0,
      calm_of (by decide +kernel), fits_of (by unfold WheelFits; decide +kernel) (by decide +kernel), by decide +kernel⟩,
    ⟨.A, .tick, 0, 3,
      modAux (((running.set1 (R.AUX_CFG_EN .A 3)).wr (R.AUX_INJ_TRIG .A 3) 1).wr (R.AUX_INJ_ILEN .A 3) 4) .A 3 (fun a => { a with inj := some 0 }),
      calm_of (by decide +kernel), fits_of (by unfold WheelFits; decide +kernel) (by decide +kernel), by decide +kernel⟩,
    ⟨.A, .tick, 7, running, calm_of (by decide +kernel), by decide +kernel⟩,
    ⟨.A, 63,
      modAux ((running.set1 (R.AX_VALID .A 63)).wr (R.AUX_CODING_AGE_LIMIT .A 3) 1) .A 3 (fun a => { a with got := 0x8000 }),
      calm_of (by decide +kernel), by decide +kernel⟩,
    ⟨.A, 63, running, calm_of (by decide +kernel), by decide +kernel⟩⟩

theorem witness_PositionInputs :
    (∃ (v : Vat) (i : Fin 4) (s : State), Calm s ∧ Fits s ∧ s.vatLive v = true ∧ s.is (R.POS_CFG_EN v i) = true)
    ∧ (∃ (v : Vat) (i : Fin 4) (at_ : Nat) (s : State), Calm s ∧ s.vatLive v = true ∧ s.is (R.POS_CFG_EN v (4 + i)) = true
        ∧ (getPos s v (4 + i)).frame = some at_)
    ∧ (∃ (v : Vat) (i : Fin 4) (s : State), Calm s ∧ (s.vatLive v = false ∨ s.is (R.POS_CFG_EN v i) = false))
    ∧ (∃ (v : Vat) (s : State), Calm s ∧ Fits s ∧ s.vatLive v = true) :=
  ⟨⟨.A, 3, ((running.set1 (R.POS_CFG_EN .A 3)).wr (R.POS_COUNTS_COUNTS .A 3) 4096).wr (R.POS_CFG_ZMODE .A 3) 1,
      calm_of (by decide +kernel), fits_of (by unfold WheelFits; decide +kernel) (by decide +kernel), by decide +kernel⟩,
    ⟨.A, 3, 77,
      modPos ((running.set1 (R.POS_CFG_EN .A 7)).wr (R.POS_COUNTS_COUNTS .A 7) 4096) .A 7 (fun x => { x with frame := some 77 }),
      calm_of (by decide +kernel), by decide +kernel⟩,
    ⟨.A, 3, running, calm_of (by decide +kernel), by decide +kernel⟩,
    ⟨.A, running, calm_of (by decide +kernel), fits_of (by unfold WheelFits; decide +kernel) (by decide +kernel),
      by decide +kernel⟩⟩

theorem witness_EvaluationsEnd :
    (∃ (v : Vat) (c : Fin 8) (k : Nat) (e : EvalSt) (s : State), Calm s ∧ engRuns s v c = true ∧ runningSlot s v c = some k
        ∧ (getSlot s v c k).evals.find? (fun e => e.phase == .running) = some e
        ∧ (e.mode ≠ .spec ∨ (e.judgeable (getSlot s v c k) = true
        ∧ (entries (getSlot s v c k)).any (entrySquashes e) = false)))
    ∧ (∃ (v : Vat) (c : Fin 8) (k : Nat) (e : EvalSt) (s : State), Calm s ∧ engRuns s v c = true ∧ runningSlot s v c = some k
        ∧ (getSlot s v c k).evals.find? (fun e => e.phase == .running) = some e
        ∧ (e.mode ≠ .spec ∨ (e.judgeable (getSlot s v c k) = true
        ∧ (entries (getSlot s v c k)).any (entrySquashes e) = false)))
    ∧ (∃ (v : Vat) (c : Fin 8) (k : Nat) (e : EvalSt) (s : State), Calm s ∧ engRuns s v c = true ∧ runningSlot s v c = some k
        ∧ (getSlot s v c k).evals.find? (fun e => e.phase == .running) = some e ∧ e.mode = .spec
        ∧ e.judgeable (getSlot s v c k) = false)
    ∧ (∃ (v : Vat) (c : Fin 8) (k : Nat) (e : EvalSt) (s : State), Calm s ∧ Fits s ∧ engRuns s v c = true
        ∧ runningSlot s v c = some k ∧ (getSlot s v c k).evals.find? (fun e => e.phase == .running) = some e ∧ e.mode = .spec
        ∧ e.judgeable (getSlot s v c k) = true ∧ (entries (getSlot s v c k)).any (entrySquashes e) = true)
    ∧ (∃ (v : Vat) (c : Fin 8) (s : State), Calm s ∧ (engRuns s v c = false ∨ runningSlot s v c = none))
    ∧ (∃ (v : Vat) (p : Fin 8) (n : Fin 64) (c : Nat) (k : Nat) (s : State), Calm s ∧ s.vatLive v = true
        ∧ portGraph s v p = some (c, k) ∧ engFrozen s v c = false
        ∧ (getSlot s v c k).migCaps.any (awaits (getSlot s v c k) n) = false
        ∧ (getSlot s v c k).evals.any (fun e => e.caps.any (awaits (getSlot s v c k) n)) = true)
    ∧ (∃ (v : Vat) (p : Fin 8) (n : Fin 64) (c : Nat) (k : Nat) (s : State), Calm s ∧ s.vatLive v = true
        ∧ portGraph s v p = some (c, k) ∧ (getSlot s v c k).migCaps.any (awaits (getSlot s v c k) n) = true)
    ∧ (∃ (v : Vat) (p : Fin 8) (n : Fin 64) (s : State), Steady s v ∧ s.vatLive v = true ∧ gridPort s v p = true
        ∧ portState s v p = RUN ∧ loneActive s v p = true ∧ (getPort s v p).await.contains n.val = true
        ∧ (currChans s v p).contains n.val = true)
    ∧ (∃ (v : Vat) (p : Fin 8) (n : Fin 64) (s : State), Calm s
        ∧ (s.vatLive v = false ∨ ((getPort s v p).await.contains n.val = false ∧ portGraph s v p = none))) :=
  ⟨⟨.A, 7, 3, evalIn .plain, evaluating .A 7 3 (evalIn .plain), calm_of (by decide +kernel), by decide +kernel⟩,
    ⟨.A, 7, 3, evalIn .spec, evaluating .A 7 3 (evalIn .spec), calm_of (by decide +kernel), by decide +kernel⟩,
    ⟨.A, 0, 0, evalWaiting,
      modSlot (evaluating .A 0 0 evalWaiting) .A 0 0 (fun g => { g with preds := [⟨0, 0, false, 5, 0, 0, 0⟩] }),
      calm_of (by decide +kernel), by decide +kernel⟩,
    ⟨.A, 7, 3, evalIn .spec,
      modSlot (evaluating .A 7 3 (evalIn .spec)) .A 7 3 (fun g => { g with preds := [⟨9, 0, false, 5, 0, 0, 0⟩] }),
      calm_of (by decide +kernel), fits_of (by unfold WheelFits; decide +kernel) (by decide +kernel), by decide +kernel⟩,
    ⟨.A, 7, running, calm_of (by decide +kernel), by decide +kernel⟩,
    ⟨.A, 7, 63, 7, 3, evaluating .A 7 3 { evalWaiting with phase := .waiting, mode := .plain }, calm_of (by decide +kernel),
      by decide +kernel⟩,
    ⟨.A, 7, 63, 7, 3, modSlot (evaluating .A 7 3 evalWaiting) .A 7 3 (fun g => { g with migCaps := [⟨0, 0, 0, false, false⟩] }),
      calm_of (by decide +kernel), by decide +kernel⟩,
    ⟨.A, 7, 63, modPort ((active .A 7 RUN).wr (whole (R.GRID_ICH .A 7)) 0xBF000000) .A 7 (fun q => { q with await := [63] }),
      steady_of (by decide +kernel), by decide +kernel⟩,
    ⟨.A, 7, 63, running, calm_of (by decide +kernel), by decide +kernel⟩⟩

theorem witness_CommitsAndDeadlines :
    (∃ (v : Vat) (c : Fin 8) (k : Fin 4) (e : EvalSt) (s : State), Calm s ∧ Fits s ∧ engRuns s v c = true
        ∧ committing s v c k = some e
        ∧ (peerSeen s v (s.rd (R.GS_BIND_PORT v c k)) e.tick).all (fun x => if x.outcome = 0 then x.csig == commitSignature s v c k e else x.outcome != 1 || !missedBefore s v.other (s.rd (R.GS_BIND_PORT v c k))) = true
        ∧ (s.arb.doubts.contains (s.rd (R.GS_BIND_PORT v c k),
        e.tick) = false ∨ (peerSeen s v (s.rd (R.GS_BIND_PORT v c k)) e.tick).any (fun x => x.outcome == 0) = false))
    ∧ (∃ (v : Vat) (c : Fin 8) (k : Fin 4) (e : EvalSt) (s : State), Calm s ∧ Fits s ∧ engRuns s v c = true
        ∧ committing s v c k = some e
        ∧ (peerSeen s v (s.rd (R.GS_BIND_PORT v c k)) e.tick).all (fun x => if x.outcome = 0 then x.csig == commitSignature s v c k e else x.outcome != 1 || !missedBefore s v.other (s.rd (R.GS_BIND_PORT v c k))) = true
        ∧ (s.arb.doubts.contains (s.rd (R.GS_BIND_PORT v c k),
        e.tick) = false ∨ (peerSeen s v (s.rd (R.GS_BIND_PORT v c k)) e.tick).any (fun x => x.outcome == 0) = false))
    ∧ (∃ (v : Vat) (c : Fin 8) (k : Fin 4) (e : EvalSt) (s : State), Calm s ∧ Fits s ∧ engRuns s v c = true
        ∧ committing s v c k = some e
        ∧ (peerSeen s v (s.rd (R.GS_BIND_PORT v c k)) e.tick).any (fun x => x.outcome == 0) = true
        ∧ s.arb.doubts.contains (s.rd (R.GS_BIND_PORT v c k), e.tick) = true
        ∧ compared s (.reload (Fin.ofNat 8 (s.rd (R.GS_BIND_PORT v c k))) (BitVec.ofNat 32 e.tick)) = true
        ∧ joiningVat s = none)
    ∧ (∃ (v : Vat) (c : Fin 8) (k : Fin 4) (s : State), Calm s ∧ (engRuns s v c = false ∨ committing s v c k = none))
    ∧ (∃ (v : Vat) (c : Fin 8) (k : Fin 4) (e : EvalSt) (s : State), Calm s ∧ Fits s ∧ s.vatLive v = true ∧ engRetired s v c = false
        ∧ (getSlot s v c k).evals.find? (fun e => !e.missed) = some e
        ∧ (peerSeen s v (s.rd (R.GS_BIND_PORT v c k)) e.tick).all (fun x => x.outcome != 0 || !missedBefore s v (s.rd (R.GS_BIND_PORT v c k))) = true)
    ∧ (∃ (v : Vat) (c : Fin 8) (k : Fin 4) (e : EvalSt) (s : State), Calm s ∧ Fits s ∧ s.vatLive v = true ∧ engRetired s v c = false
        ∧ (getSlot s v c k).evals.find? (fun e => !e.missed) = some e
        ∧ (peerSeen s v (s.rd (R.GS_BIND_PORT v c k)) e.tick).all (fun x => x.outcome != 0 || !missedBefore s v (s.rd (R.GS_BIND_PORT v c k))) = true)
    ∧ (∃ (v : Vat) (c : Fin 8) (k : Fin 4) (e : EvalSt) (s : State), Fits s ∧ s.vatLive v = true ∧ engRetired s v c = false
        ∧ (getSlot s v c k).evals.find? (fun e => !e.missed) = some e ∧ s.variant.dual = true
        ∧ (peerSeen s v (s.rd (R.GS_BIND_PORT v c k)) e.tick).any (fun x => x.outcome == 0) = true
        ∧ missedBefore s v (s.rd (R.GS_BIND_PORT v c k)) = true ∧ s.is (R.VAT_ROLE_JOINING v) = false)
    ∧ (∃ (v : Vat) (c : Fin 8) (k : Fin 4) (s : State), Calm s
        ∧ (s.vatLive v = false ∨ engRetired s v c = true ∨ (getSlot s v c k).evals.all (fun e => e.missed) = true))
    ∧ (∃ (v : Vat) (c : Fin 8) (k : Fin 4) (b : Bool) (e : EvalSt) (s : State), Calm s ∧ Fits s ∧ s.vatLive v = true
        ∧ (getSlot s v c k).evals.find? (fun e => e.holds && e.bank == boolNat b) = some e ∧ e.phase ≠ .committing
        ∧ engFrozen s v c = false)
    ∧ (∃ (v : Vat) (c : Fin 8) (k : Fin 4) (b : Bool) (e : EvalSt) (s : State), RunningStandby s v ∧ s.vatLive v = true
        ∧ (getSlot s v c k).evals.find? (fun e => e.holds && e.bank == boolNat b) = some e ∧ e.phase = .committing
        ∧ engFrozen s v c = false)
    ∧ (∃ (v : Vat) (c : Fin 8) (k : Fin 4) (b : Bool) (e : EvalSt) (s : State), OwnerWithStandby s v ∧ s.vatLive v = true
        ∧ (getSlot s v c k).evals.find? (fun e => e.holds && e.bank == boolNat b) = some e ∧ e.phase = .committing
        ∧ engFrozen s v c = false)
    ∧ (∃ (v : Vat) (c : Fin 8) (k : Fin 4) (b : Bool) (s : State), Calm s
        ∧ (s.vatLive v = false ∨ engFrozen s v c = true ∨ (getSlot s v c k).evals.find? (fun e => e.holds && e.bank == boolNat b) = none)) :=
  ⟨⟨.A, 7, 3, evalCommitting, evaluating .A 7 3 evalCommitting, calm_of (by decide +kernel),
      fits_of (by unfold WheelFits; decide +kernel) (by decide +kernel), by decide +kernel⟩,
    ⟨.A, 7, 3, evalCommitting, withArb (evaluating .A 7 3 evalCommitting) (fun a => { a with seen := [⟨.B, 7, 9, 1, 0⟩] }),
      calm_of (by decide +kernel), fits_of (by unfold WheelFits; decide +kernel) (by decide +kernel), by decide +kernel⟩,
    ⟨.A, 7, 3, evalCommitting,
      withArb ((evaluating .A 7 3 evalCommitting).wr (R.PORT_STATE_STATE .A 7) RUN) (fun a => { a with seen := [⟨.B, 7, 9, 0, 0⟩], doubts := [(7, 9)] }),
      calm_of (by decide +kernel), fits_of (by unfold WheelFits; decide +kernel) (by decide +kernel), by decide +kernel⟩,
    ⟨.A, 7, 3, running, calm_of (by decide +kernel), by decide +kernel⟩,
    ⟨.A, 7, 3, evalIn .plain, evaluating .A 7 3 (evalIn .plain), calm_of (by decide +kernel),
      fits_of (by unfold WheelFits; decide +kernel) (by decide +kernel), by decide +kernel⟩,
    ⟨.A, 7, 3, evalCommitting, evaluating .A 7 3 evalCommitting, calm_of (by decide +kernel),
      fits_of (by unfold WheelFits; decide +kernel) (by decide +kernel), by decide +kernel⟩,
    ⟨.A, 7, 3, evalIn .plain,
      withArb (evaluating .A 7 3 (evalIn .plain)) (fun a => { a with seen := [⟨.B, 7, 9, 0, 0⟩], asym := [(.A, 7, 1)] }),
      fits_of (by unfold WheelFits; decide +kernel) (by decide +kernel), by decide +kernel⟩,
    ⟨.A, 7, 3, running, calm_of (by decide +kernel), by decide +kernel⟩,
    ⟨.A, 7, 3, false, evalIn .spec, evaluating .A 7 3 (evalIn .spec), calm_of (by decide +kernel),
      fits_of (by unfold WheelFits; decide +kernel) (by decide +kernel), by decide +kernel⟩,
    ⟨.B, 7, 3, false, evalCommitting, evaluating .B 7 3 evalCommitting, runningStandby_of (by decide +kernel), by decide +kernel⟩,
    ⟨.A, 7, 3, false, evalCommitting, evaluating .A 7 3 evalCommitting, ownerWithStandby_of (by decide +kernel),
      by decide +kernel⟩,
    ⟨.A, 7, 3, true, running, calm_of (by decide +kernel), by decide +kernel⟩⟩

theorem witness_SelfTestsRun :
    (∃ (v : Vat) (c : Fin 8) (s : State), Calm s ∧ Fits s ∧ engRuns s v c = true)
    ∧ (∃ (v : Vat) (c : Fin 8) (s : State), Calm s ∧ Fits s ∧ engRuns s v c = true ∧ (getEng s v c).testing = true)
    ∧ (∃ (v : Vat) (c : Fin 8) (s : State), Calm s ∧ (engRuns s v c = false ∨ (getEng s v c).testing = false))
    ∧ (∃ (v : Vat) (s : State), Calm s ∧ s.vatLive v = true) :=
  ⟨⟨.B, 7, running, calm_of (by decide +kernel), fits_of (by unfold WheelFits; decide +kernel) (by decide +kernel),
      by decide +kernel⟩,
    ⟨.A, 7, modEng (evaluating .A 7 3 evalCommitting) .A 7 (fun x => { x with testing := true }), calm_of (by decide +kernel),
      fits_of (by unfold WheelFits; decide +kernel) (by decide +kernel), by decide +kernel⟩,
    ⟨.A, 7, running, calm_of (by decide +kernel), by decide +kernel⟩,
    ⟨.B, running, calm_of (by decide +kernel), by decide +kernel⟩⟩

theorem witness_RidesEnd :
    (∃ (v : Vat) (p : Fin 8) (s : State), Steady s v ∧ s.vatLive v = true ∧ s.is (R.GRID_STAT_OL v p) = true
        ∧ portState s v p = RUN ∧ loneActive s v p = true)
    ∧ (∃ (v : Vat) (p : Fin 8) (s : State), Steady s v ∧ s.vatLive v = true ∧ s.is (R.GRID_STAT_OL v p) = true
        ∧ (getGuard s v p).okTick = true)
    ∧ (∃ (v : Vat) (p : Fin 8) (s : State), Steady s v ∧ s.vatLive v = true ∧ s.is (R.DRV_STAT_OBS v p) = true)
    ∧ (∃ (v : Vat) (p : Fin 8) (s : State), Steady s v ∧ s.vatLive v = true ∧ s.is (R.DRV_STAT_ZR v p) = true
        ∧ portState s v p = RUN ∧ loneActive s v p = true)
    ∧ (∃ (s : State), Calm s) :=
  ⟨⟨.A, 7, (active .A 7 RUN).set1 (R.GRID_STAT_OL .A 7), steady_of (by decide +kernel), by decide +kernel⟩,
    ⟨.A, 7, modGuard ((active .A 7 RUN).set1 (R.GRID_STAT_OL .A 7)) .A 7 (fun g => { g with okTick := true }),
      steady_of (by decide +kernel), by decide +kernel⟩,
    ⟨.A, 7, modGuard ((active .A 7 RUN).set1 (R.DRV_STAT_OBS .A 7)) .A 7 (fun g => { g with okTick := true }),
      steady_of (by decide +kernel), by decide +kernel⟩,
    ⟨.A, 7, (active .A 7 RUN).set1 (R.DRV_STAT_ZR .A 7), steady_of (by decide +kernel), by decide +kernel⟩,
    ⟨running.set1 (R.GRID_RSTAT_RLIVE .B 7), calm_of (by decide +kernel)⟩⟩

theorem witness_HarpInputsAct :
    (∃ (i : Fin 4) (s : State), Calm s ∧ s.dev.operating = true ∧ s.rdBit R.HARP_CFG_INEN i = true ∧ paired s (i / 2) = false
        ∧ inIsSs1 s i = false ∧ s.rdBit R.HARP_STAT_DEM i = false)
    ∧ (∃ (i : Fin 4) (s : State), Calm s ∧ s.dev.operating = true ∧ s.rdBit R.HARP_CFG_INEN i = true ∧ paired s (i / 2) = false
        ∧ inIsSs1 s i = true ∧ s.rd R.HARP_STAT_DEM = demands s ∧ s.rdBit R.HARP_STAT_DEM i = false
        ∧ s.is R.SAFE_STAT_SS1_ACT = false)
    ∧ (∃ (i : Fin 4) (s : State), Calm s ∧ s.dev ≠ .off ∧ paired s (i / 2) = false ∧ s.rd R.HARP_STAT_DEM = demands s)
    ∧ (∃ (b : Bool) (s : State), Calm s ∧ paired s (boolNat b) = true ∧ (getPair s (boolNat b)).waiting = true
        ∧ s.is (discLatch (boolNat b)) = false)
    ∧ (∃ (k : Fin 2) (i : Fin 4) (s : State), Calm s ∧ s.dev ≠ .off ∧ i / 2 = k.val ∧ paired s k = true
        ∧ s.rdBit R.HARP_CFG_INEN (2 * k) = true ∧ s.rdBit R.HARP_CFG_INEN (2 * k + 1) = true
        ∧ inDemands s (4 * k + 1 - i) = false ∧ s.is (discLatch k) = true ∧ (getPair s k).bothSeen = true)
    ∧ (∃ (s : State), Calm s ∧ s.dev.operating = true ∧ s.is R.SAFE_STAT_RAIL = false) :=
  ⟨⟨3, running.wr R.HARP_STAT_IN 15, calm_of (by decide +kernel), by decide +kernel⟩,
    ⟨0, (running.wr R.HARP_STAT_IN 15).wr R.HARP_CFG_FUNC 1, calm_of (by decide +kernel), by decide +kernel⟩,
    ⟨2, (running.wr R.HARP_STAT_IN 11).wr R.HARP_STAT_DEM 4, calm_of (by decide +kernel), by decide +kernel⟩,
    ⟨true, setPair ((running.wr R.HARP_STAT_IN 11).set1 R.HARP_CFG_PAIRB) 1 ⟨true, false⟩, calm_of (by decide +kernel),
      by decide +kernel⟩,
    ⟨1, 3, setPair (((running.wr R.HARP_STAT_IN 7).set1 R.HARP_CFG_PAIRB).set1 R.SAFE_STAT_DISC_B) 1 ⟨true, true⟩,
      calm_of (by decide +kernel), by decide +kernel⟩,
    ⟨running, calm_of (by decide +kernel), by decide +kernel⟩⟩

theorem witness_StopsEndInSafeStop :
    (∃ (s : State), Calm s ∧ s.is R.SAFE_STAT_SS1_ACT = true ∧ s.dev ≠ .off)
    ∧ (∃ (s : State), Calm s ∧ s.dev.operating = true ∧ s.is R.SAFE_STAT_RIDE = true ∧ s.rd R.SAFE_STAT_DG_LEFT = 0
        ∧ s.is R.SAFE_STAT_SS1_ACT = false)
    ∧ (∃ (s : State), Calm s) :=
  ⟨⟨(active .A 7 RUN).set1 R.SAFE_STAT_SS1_ACT, calm_of (by decide +kernel), by decide +kernel⟩,
    ⟨(active .A 7 RUN).set1 R.SAFE_STAT_RIDE, calm_of (by decide +kernel), by decide +kernel⟩,
    ⟨running, calm_of (by decide +kernel)⟩⟩

theorem witness_HarpOutputsTested :
    (∃ (n : Fin 4) (s : State), Calm s ∧ nth s.harp.offPend n false = true ∧ s.is R.HARP_STAT_GATE = false
        ∧ s.is R.SAFE_STAT_SS1_ACT = false)
    ∧ (∃ (n : Fin 4) (s : State), Calm s ∧ testDue s n = true ∧ s.is R.HARP_STAT_TP = false)
    ∧ (∃ (n : Fin 4) (s : State), Calm s ∧ testDue s n = true ∧ s.harp.testWait.length = 4 ∧ s.is R.HARP_STAT_TP = true)
    ∧ (∃ (n : Fin 4) (ch : BitVec 4) (s : State), Calm s ∧ s.is R.SAFE_STAT_SS1_ACT = false ∧ s.rdBit R.HARP_STAT_TP n = true
        ∧ crossed s n ch.toNat = false)
    ∧ (∃ (n : Fin 4) (a : Bool) (b : Bool) (s : State), Calm s ∧ s.is R.SAFE_STAT_SS1_ACT = false ∧ s.rdBit R.HARP_STAT_TP n = true
        ∧ (a && b) = false)
    ∧ (∃ (n : Fin 4) (ch : BitVec 4) (s : State), Calm s ∧ s.rdBit R.HARP_STAT_TP n = true ∧ crossed s n ch.toNat = true)
    ∧ (∃ (i : Fin 4) (n : Fin 4) (x : TestEnd) (s : State), Calm s ∧ s.dev.operating = true ∧ s.rdBit R.HARP_CFG_INEN i = true
        ∧ paired s (i / 2) = false ∧ inIsSs1 s i = false ∧ s.rdBit R.HARP_STAT_DEM i = false ∧ s.is R.HARP_STAT_GATE = true
        ∧ s.rd R.HARP_STAT_TP = 0 ∧ s.harp.tested = some x ∧ x.out = n.val ∧ x.vt = s.time.vt)
    ∧ (∃ (n : Fin 4) (s : State), Calm s ∧ (feedbackDiffers s n = false ∨ s.dev.onward = false))
    ∧ (∃ (s : State), Calm s) :=
  ⟨⟨3, { running.wr R.HARP_STAT_OUT 15 with harp := { running.harp with offPend := [false, false, false, true] } },
      calm_of (by decide +kernel), by decide +kernel⟩,
    ⟨3, ((((running.wr R.HARP_STAT_OUT 15).set1 R.HARP_STAT_GATE).set1 (R.HARP_OUT_EN 3)).wr (R.HARP_OUT_TPW 3) 30),
      calm_of (by decide +kernel), by decide +kernel⟩,
    ⟨0,
      ((((running.wr R.HARP_STAT_OUT 15).set1 R.HARP_STAT_GATE).set1 (R.HARP_OUT_EN 0)).wr (R.HARP_OUT_TPW 0) 30).wr R.HARP_STAT_TP 8,
      calm_of (by decide +kernel), by decide +kernel⟩,
    ⟨3, 8, running.wr R.HARP_STAT_TP 8, calm_of (by decide +kernel), by decide +kernel⟩,
    ⟨0, true, false, running.wr R.HARP_STAT_TP 1, calm_of (by decide +kernel), by decide +kernel⟩,
    ⟨0, 8, (running.wr R.HARP_STAT_TP 1).set1 (R.HARP_OUT_FBEN 3), calm_of (by decide +kernel), by decide +kernel⟩,
    ⟨3, 0, { out := 0, vt := running.time.vt, tests := 6, failed := false, fault := false, ride := false },
      { ((running.wr R.HARP_STAT_IN 15).set1 R.HARP_STAT_GATE).wr R.HARP_CNT_TESTS 7 with harp := { running.harp with tested := some { out := 0, vt := running.time.vt, tests := 6, failed := false, fault := false, ride := false } } },
      calm_of (by decide +kernel), by decide +kernel⟩,
    ⟨3, running, calm_of (by decide +kernel), by decide +kernel⟩,
    ⟨running, calm_of (by decide +kernel)⟩⟩

theorem witness_OrdersResolve :
    (∃ (s : State) (sig : Nat) (w : Writer), standing s sig = some w)
    ∧ (∃ (s : State), Calm s ∧ s.dev.onward = true)
    ∧ (∃ (s : State) (p : Fin 8) (q : Fin 6) (x : Writer), 3 ≤ q.val ∧ standing s (orderSignal q p) = some x ∧ x.value ≠ 0)
    ∧ (∃ (s : State) (d : Fin 2) (x : Writer), standing s (0x40 + d) = some x ∧ x.value ≠ 0)
    ∧ (∃ (s : State) (x : Writer), Calm s ∧ s.dev.operating = true ∧ standing s 0x41 = some x ∧ x.value ≠ 0)
    ∧ (∃ (s : State) (x : Writer), Calm s ∧ s.dev.operating = true ∧ s.is R.SAFE_STAT_SS1_ACT = false ∧ standingValue s 0x41 = 0
        ∧ standing s 0x40 = some x ∧ x.value ≠ 0)
    ∧ (∃ (s : State), Calm s ∧ s.dev = .safeStop ∧ restartAllowed s = true ∧ s.is R.SAFE_STAT_SS1_ACT = false
        ∧ orderValue s 0x42 = 0 ∧ standingValue s 0x42 ≠ 0)
    ∧ (∃ (s : State), Calm s ∧ s.dev = .safeStop ∧ s.is R.SAFE_STAT_SS1_ACT = false ∧ restartAllowed s = false)
    ∧ (∃ (s : State) (v : Vat) (p : Fin 8), Steady s v ∧ s.dev.operating = true ∧ s.vatLive v = true
        ∧ s.is (R.PORT_CFG_LNK_EN v p) = false ∧ (List.range 8).all (fun q => partner s v q != some p.val) = true
        ∧ portState s v p = FAULTPAT ∧ orderValue s (orderSignal 2 p) = 0 ∧ finalValue s (orderSignal 2 p) ≠ 0
        ∧ standingValue s 0x42 = 0 ∧ (List.range 8).all (fun q => standingValue s (orderSignal 5 q) == 0) = true
        ∧ causesPresent s v p = [])
    ∧ (∃ (s : State) (v : Vat) (p : Fin 8), Steady s v ∧ s.dev.operating = true ∧ s.vatLive v = true
        ∧ s.is (R.PORT_CFG_LNK_EN v p) = false ∧ (List.range 8).all (fun q => partner s v q != some p.val) = true
        ∧ portState s v p = FAULTPAT ∧ finalValue s (orderSignal 2 p) ≠ 0 ∧ standingValue s 0x42 = 0
        ∧ (List.range 8).all (fun q => standingValue s (orderSignal 5 q) == 0) = true ∧ causesPresent s v p ≠ []) :=
  ⟨⟨ordering [⟨0x1C, 2, 1, 5, 0, 9, 0⟩, ⟨0x1C, 0, 3, 5, 1, 9, 0⟩, ⟨0x1C, 1, 0, 4, 1, 99, 0⟩] running, 0x1C, ⟨0x1C, 0, 3, 5, 1, 9,
      0⟩, by decide +kernel⟩,
    ⟨ordering [⟨0x1C, 2, 1, 5, 0, 9, 0⟩, ⟨0x1C, 0, 3, 5, 1, 9, 0⟩, ⟨0x2C, 4, 0, 1, 1, 3, 1⟩] running, calm_of (by decide +kernel),
      by decide +kernel⟩,
    ⟨ordering [⟨0x1F, 0, 0, 7, 1, 9, 0⟩, ⟨0x2F, 4, 0, 1, 1, 3, 1⟩] running, 7, 3, ⟨0x2F, 4, 0, 1, 1, 3, 1⟩, by decide +kernel⟩,
    ⟨ordering [⟨0x27, 0, 0, 7, 1, 9, 0⟩, ⟨0x41, 4, 0, 1, 1, 3, 1⟩] running, 1, ⟨0x41, 4, 0, 1, 1, 3, 1⟩, by decide +kernel⟩,
    ⟨ordering [⟨0x41, 6, 0, 7, 1, 3, 1⟩] running, ⟨0x41, 6, 0, 7, 1, 3, 1⟩, calm_of (by decide +kernel), by decide +kernel⟩,
    ⟨ordering [⟨0x40, 2, 0, 3, 1, 3, 1⟩] running, ⟨0x40, 2, 0, 3, 1, 3, 1⟩, calm_of (by decide +kernel), by decide +kernel⟩,
    ⟨ordering [⟨0x42, 6, 0, 7, 1, 3, 0⟩] ({ (running.set1 R.SAFE_STAT_STO).wr R.HARP_CFG_INEN 0 with dev := .safeStop } : State),
      calm_of (by decide +kernel), by decide +kernel⟩,
    ⟨ordering [⟨0x42, 6, 0, 7, 1, 3, 0⟩] (({ running.set1 R.SAFE_STAT_STO with dev := .safeStop } : State).set1 R.SAFE_STAT_RAIL),
      calm_of (by decide +kernel), by decide +kernel⟩,
    ⟨ordering [⟨0x27, 0, 0, 7, 1, 9, 0⟩] { active .A 7 FAULTPAT with ord := running.ord }, .A, 7, steady_of (by decide +kernel),
      by decide +kernel⟩,
    ⟨(ordering [⟨0x27, 0, 0, 7, 1, 9, 0⟩] (running.wr (R.PORT_STATE_STATE .A 7) FAULTPAT)).set1 (R.DLR_STAT_BREAK .A 31), .A, 7,
      steady_of (by decide +kernel), by decide +kernel⟩⟩

theorem witness_RindMetersAndCommits :
    (∃ (ok : BitVec 32) (q : RindSlot) (s : State), s.variant.metered = true ∧ newestSlot s.rind ok = some q)
    ∧ (∃ (ok : BitVec 32) (s : State), s.variant.metered = true ∧ newestSlot s.rind ok = none)
    ∧ (∃ (s : State), RindFits s)
    ∧ (∃ (bits : MeterBits) (s : State), RindFits s ∧ s.rind.state = 1 ∧ s.rind.sess = none ∧ secondAbove (meter s bits) = true)
    ∧ (∃ (bits : MeterBits) (q : RindSession) (s : State), RindFits s ∧ s.rind.state = 1 ∧ s.rind.sess = some q
        ∧ getBits (parWord s 14) 0 10 ≤ q.below + 1 ∧ secondAbove (meter s bits) = false)
    ∧ (∃ (bits : MeterBits) (q : RindSession) (s : State), RindFits s ∧ s.rind.state = 1 ∧ s.rind.sess = some q
        ∧ (secondAbove (meter s bits) = true ∨ q.below + 1 < getBits (parWord s 14) 0 10))
    ∧ (∃ (s : State), RindFits s)
    ∧ (∃ (s : State), RindFits s ∧ impulseDue s = true ∧ s.rind.pulseQ = 0 ∧ pulseFree s.rind = true)
    ∧ (∃ (s : State), RindFits s ∧ impulseDue s = true ∧ (s.rind.pulseQ ≠ 0 ∨ pulseFree s.rind = false)) :=
  ⟨⟨0x80000001, sealSlot [1, 2, 3, 4, 5, 6] 5000000000 31,
      modRind metered (fun r => { r with slots := modNth r.slots 31 (fun _ => some (sealSlot [1, 2, 3, 4, 5, 6] 5000000000 31)), sess := some ⟨0, [], 0, 0⟩ }),
      by decide +kernel⟩,
    ⟨0, State.reset, by decide +kernel⟩,
    ⟨metered, rindFits_of (by decide +kernel)⟩,
    ⟨[], modRind metered (fun r => { r with sec := { n := 1, ac := 2 ^ 400, acAbs := 2 ^ 400 } }),
      rindFits_of (by decide +kernel), by decide +kernel⟩,
    ⟨[], ⟨0, [0, 0, 0, 0, 0, 0], 0, 9⟩, modRind metered (fun r => { r with sess := some ⟨0, [0, 0, 0, 0, 0, 0], 0, 9⟩ }),
      rindFits_of (by decide +kernel), by decide +kernel⟩,
    ⟨[], ⟨0, [0, 0, 0, 0, 0, 0], 0, 8⟩, modRind metered (fun r => { r with sess := some ⟨0, [0, 0, 0, 0, 0, 0], 0, 8⟩ }),
      rindFits_of (by decide +kernel), by decide +kernel⟩,
    ⟨modRind metered (fun r => { r with stale := 128 }), rindFits_of (by decide +kernel)⟩,
    ⟨modRind metered (fun r => { r with pulseAt := some 0, mtQ := 80 * 25000000, pulseAcc := 4294967296000 }),
      rindFits_of (by decide +kernel), by decide +kernel⟩,
    ⟨modRind metered (fun r => { r with pulseAt := some 1, mtQ := 80 * 25000000, pulseQ := 65534, pulseAcc := 4294967296000 }),
      rindFits_of (by decide +kernel), by decide +kernel⟩⟩

theorem witness_RindPortAnswers :
    (∃ (s : State), RindFits s)
    ∧ (∃ (o : BitVec 16) (n : BitVec 8) (s : State), RindFits s
        ∧ (1 ≤ n.toNat && n.toNat ≤ 64 && o.toNat % 4 == 0 && o.toNat + 4 * n.toNat ≤ 0x1000) = true)
    ∧ (∃ (o : BitVec 16) (n : BitVec 8) (s : State), RindFits s
        ∧ (1 ≤ n.toNat && n.toNat ≤ 64 && o.toNat % 4 == 0 && o.toNat + 4 * n.toNat ≤ 0x1000) = false)
    ∧ (∃ (o : BitVec 16) (n : BitVec 8) (s : State), RindFits s
        ∧ (1 ≤ n.toNat && n.toNat ≤ 64 && o.toNat % 4 == 0 && o.toNat + 4 * n.toNat ≤ 0x1000) = false)
    ∧ (∃ (s : State), RindFits s)
    ∧ (∃ (s : State), RindFits s)
    ∧ (∃ (id : BitVec 8) (bs : List Byte) (i : Nat) (s : State), RindFits s ∧ s.rind.sealOpen = true ∧ parPlace id.toNat = some (i,
        bs.length) ∧ parInRange id.toNat bs = true)
    ∧ (∃ (id : BitVec 8) (bs : List Byte) (s : State), RindFits s
        ∧ (s.rind.sealOpen && (parPlace id.toNat).any (fun p => p.2 == bs.length) && parInRange id.toNat bs) = false)
    ∧ (∃ (s : State), RindFits s)
    ∧ (∃ (frame : List Byte) (s : State), RindFits s ∧ frameOk frame = false)
    ∧ (∃ (frame : List Byte) (s : State), RindFits s ∧ frameOk frame = false)
    ∧ (∃ (cmd : Nat) (payload : List Byte), cmd < 256 ∧ payload.length < 65535)
    ∧ (∃ (cmd : Nat) (payload : List Byte), cmd < 256 ∧ payload.length < 65535) :=
  ⟨⟨metered, rindFits_of (by decide +kernel)⟩,
    ⟨0x0FFC, 1, metered, rindFits_of (by decide +kernel), by decide +kernel⟩,
    ⟨2, 1, metered, rindFits_of (by decide +kernel), by decide +kernel⟩,
    ⟨0x0FFC, 2, metered, rindFits_of (by decide +kernel), by decide +kernel⟩,
    ⟨modRind metered (fun r => { r with ring := [(3, [1, 2])] }), rindFits_of (by decide +kernel)⟩,
    ⟨modRind metered (fun r => { r with audits := [⟨1, 0, 0, 5, 32⟩] }), rindFits_of (by decide +kernel)⟩,
    ⟨0x17, [0, 0, 0x80, 0x3F], 11, modRind metered (fun r => { r with sealOpen := true }), rindFits_of (by decide +kernel),
      by decide +kernel⟩,
    ⟨0x22, [9, 0, 0, 0], modRind metered (fun r => { r with sealOpen := true }), rindFits_of (by decide +kernel),
      by decide +kernel⟩,
    ⟨modRind metered (fun r => { r with sealOpen := true }), rindFits_of (by decide +kernel)⟩,
    ⟨[0x7E, 1, 0, 0xFF, 0, 0], metered, rindFits_of (by decide +kernel), by decide +kernel⟩,
    ⟨[0x7E, 9], metered, rindFits_of (by decide +kernel), by decide +kernel⟩,
    ⟨0x20, [1, 2, 3], by decide +kernel⟩,
    ⟨0x01, [1, 2, 3], by decide +kernel⟩⟩

theorem witness_CorrectionsAndTap :
    (∃ (s : State), RindFits s)
    ∧ (∃ (s : State), RindFits s ∧ tapNamed s = true ∧ s.dev ≠ .off ∧ s.rind.tapOn = true)
    ∧ (∃ (s : State), RindFits s ∧ tapNamed s = true ∧ s.dev ≠ .off ∧ s.rind.tapOn = false)
    ∧ (∃ (s : State), s.variant.metered = true ∧ s.dev ≠ .off)
    ∧ (∃ (s : State), s.variant.metered = true ∧ s.dev = .off) :=
  ⟨⟨metered, rindFits_of (by decide +kernel)⟩,
    ⟨modRind metered (fun r => { r with tapOn := true }), rindFits_of (by decide +kernel), by decide +kernel⟩,
    ⟨metered, rindFits_of (by decide +kernel), by decide +kernel⟩,
    ⟨(metered.clr R.TAP_DATA_RDOWN).set1 R.TAP_DATA_VALID, by decide +kernel⟩,
    ⟨{ metered with dev := .off }, by decide +kernel⟩⟩

theorem witness_CanReceives :
    (∃ (c : Fin 6) (f : CanFrame) (x : CanEntry) (s : State), Calm s ∧ CanFits s ∧ canOn s c = true ∧ isRequestFrame s c f = false
        ∧ catalogueRuns s = true ∧ f.rtr = false ∧ ((matchEntries s c f).filter (fitsEntry f) = [x]) ∧ x.auth = false
        ∧ (x.sigs.map (fun g => g.signal)).Nodup)
    ∧ (∃ (c : Fin 6) (f : CanFrame) (x : CanEntry) (s : State), Calm s ∧ CanFits s ∧ canOn s c = true ∧ isRequestFrame s c f = false
        ∧ catalogueRuns s = true ∧ f.rtr = false ∧ ((matchEntries s c f).filter (fitsEntry f) = [x]) ∧ x.auth = true
        ∧ (x.sigs.map (fun g => g.signal)).Nodup)
    ∧ (∃ (c : Fin 6) (f : CanFrame) (x : CanEntry) (s : State), Calm s ∧ canOn s c = true ∧ isRequestFrame s c f = false
        ∧ catalogueRuns s = true ∧ f.rtr = false ∧ ((matchEntries s c f).head? = some x)
        ∧ ((matchEntries s c f).filter (fitsEntry f) = []))
    ∧ (∃ (c : Fin 6) (f : CanFrame) (s : State), Calm s ∧ canOn s c = true ∧ isRequestFrame s c f = false
        ∧ (f.rtr = true ∨ catalogueRuns s = false ∨ matchEntries s c f = []))
    ∧ (∃ (c : Fin 6) (f : CanFrame) (x : CanEntry) (y : CanEntry) (s : State), Calm s ∧ CanFits s ∧ canOn s c = true
        ∧ isRequestFrame s c f = false ∧ catalogueRuns s = true ∧ f.rtr = false
        ∧ ((matchEntries s c f).filter (fitsEntry f) = [x, y]) ∧ x.auth = false ∧ y.auth = false ∧ x.place ≠ y.place)
    ∧ (∃ (s : State), Calm s)
    ∧ (∃ (c : Fin 6) (e : Fin 64) (x : CanEntry) (s : State), Calm s ∧ CanFits s ∧ findEntry s c e = some x ∧ s.dev.onward = true
        ∧ x.transmit = false ∧ x.period ≠ 0 ∧ s.is (R.CANE_STAT_TIMEDOUT x.home x.place) = false
        ∧ (x.sigs.map (fun g => g.signal)).Nodup) :=
  ⟨⟨5, ⟨0x1ABCDE, true, true, false, 8, 0xFF8001⟩, anEntry false 10, (onCan [anEntry false 10]).set1 (R.CANE_STAT_TIMEDOUT 5 63),
      calm_of (by decide +kernel), canFits_of (by decide +kernel), by decide +kernel⟩,
    ⟨5, ⟨0x1ABCDE, true, true, false, 8, 0xFF8001⟩, { anEntry false 10 with auth := true },
      onCan [{ anEntry false 10 with auth := true }], calm_of (by decide +kernel), canFits_of (by decide +kernel),
      by decide +kernel⟩,
    ⟨5, ⟨0x1ABCDE, true, true, false, 9, 0xFF8001⟩, anEntry false 10, onCan [anEntry false 10], calm_of (by decide +kernel),
      by decide +kernel⟩,
    ⟨0, ⟨0x7FF, false, false, true, 15, 0⟩, onCan [], calm_of (by decide +kernel), by decide +kernel⟩,
    ⟨5, ⟨0x1ABCDE, true, true, false, 8, 0xFF8001⟩, anEntry false 10, { anEntry false 10 with chan := 2, place := 7 },
      onCan [anEntry false 10, { anEntry false 10 with chan := 2, place := 7 }], calm_of (by decide +kernel),
      canFits_of (by decide +kernel), by decide +kernel⟩,
    ⟨running, calm_of (by decide +kernel)⟩,
    ⟨5, 63, anEntry false 10, onCan [anEntry false 10], calm_of (by decide +kernel), canFits_of (by decide +kernel),
      by decide +kernel⟩⟩

theorem witness_CanTransmits :
    (∃ (c : Fin 6) (e : Fin 64) (x : CanEntry) (s : State), Calm s ∧ CanFits s ∧ findEntry s c e = some x ∧ x.transmit = true
        ∧ x.period ≠ 0 ∧ served s x = true ∧ waitingFrames s x = 0 ∧ x.express = false)
    ∧ (∃ (c : Fin 6) (e : Fin 64) (x : CanEntry) (s : State), Calm s ∧ CanFits s ∧ findEntry s c e = some x ∧ x.transmit = true
        ∧ x.period ≠ 0 ∧ served s x = true ∧ waitingFrames s x = 0 ∧ x.express = true)
    ∧ (∃ (c : Fin 6) (e : Fin 64) (x : CanEntry) (s : State), Calm s ∧ CanFits s ∧ findEntry s c e = some x ∧ x.transmit = true
        ∧ x.period ≠ 0 ∧ served s x = true ∧ waitingFrames s x ≠ 0)
    ∧ (∃ (c : Fin 6) (e : Fin 64) (x : CanEntry) (sof : BitVec 32) (xp : Bool) (f : TxFrame) (s : State), Calm s ∧ CanFits s
        ∧ findEntry s c e = some x ∧ x.transmit = true ∧ x.period ≠ 0 ∧ served s x = true
        ∧ (getCan s x.home).onBus (s.sofTime sof.toNat) = some (xp, f) ∧ f.entry = some (x.chan, x.pos) ∧ x.express = false
        ∧ (getCan s x.home).queue.length < 16)
    ∧ (∃ (c : Fin 6) (e : Fin 64) (x : CanEntry) (sof : BitVec 32) (xp : Bool) (f : TxFrame) (s : State), Calm s ∧ CanFits s
        ∧ findEntry s c e = some x ∧ x.transmit = true ∧ x.period ≠ 0 ∧ served s x = true
        ∧ (getCan s x.home).onBus (s.sofTime sof.toNat) = some (xp, f) ∧ f.entry = some (x.chan, x.pos) ∧ x.express = false
        ∧ (getCan s x.home).queue.length < 16)
    ∧ (∃ (c : Fin 6) (e : Fin 64) (s : State), Calm s
        ∧ (findEntry s c e).all (fun x => !(x.transmit && x.period != 0 && served s x)) = true)
    ∧ (∃ (pre : List CanEntry) (post : List CanEntry) (x : CanEntry) (s : State), Calm s ∧ CanFits s
        ∧ s.can.entries = pre ++ x :: post ∧ pre.all (fun y => !eventDue s y) = true ∧ eventDue s x = true
        ∧ (x.express = true ∨ (getCan s x.home).queue.length < 16))
    ∧ (∃ (s : State), Calm s ∧ s.can.entries.all (fun y => !eventDue s y) = true)
    ∧ (∃ (c : Fin 6) (sof : BitVec 32) (d : BitVec 7) (xp : Bool) (f : TxFrame) (x : CanEntry) (s : State), Calm s ∧ CanFits s
        ∧ mayTransmit s c = true ∧ (getCan s c).onBus (s.sofTime sof.toNat) = some (xp, f) ∧ f.entry = some (x.chan, x.pos)
        ∧ findEntry s x.chan x.pos = some x ∧ (c ≠ 0 ∨ s.trust.txSegs = [])
        ∧ (frameTdc s c f).all (fun o => decide (d.toNat + o ≤ 127)) = true)
    ∧ (∃ (c : Fin 6) (sof : BitVec 32) (d : BitVec 7) (xp : Bool) (f : TxFrame) (s : State), Calm s ∧ CanFits s
        ∧ mayTransmit s c = true ∧ (getCan s c).onBus (s.sofTime sof.toNat) = some (xp, f)
        ∧ (frameTdc s c f).all (fun o => decide (d.toNat + o ≤ 127)) = true
        ∧ (s.rd (R.CAN_STAT_STATE c) = 2 ∨ tecFull s c = false))
    ∧ (∃ (c : Fin 6) (sof : BitVec 32) (d : BitVec 7) (xp : Bool) (f : TxFrame) (o : Nat) (s : State), Calm s ∧ CanFits s
        ∧ mayTransmit s c = true ∧ (getCan s c).onBus (s.sofTime sof.toNat) = some (xp, f) ∧ frameTdc s c f = some o
        ∧ 127 < d.toNat + o ∧ tecFull s c = false)
    ∧ (∃ (c : Fin 6) (s : State), Calm s ∧ CanFits s ∧ mayProbe s c = true)
    ∧ (∃ (s : State), Calm s) :=
  ⟨⟨5, 63, anEntry true 10, onCan [anEntry true 10], calm_of (by decide +kernel), canFits_of (by decide +kernel),
      by decide +kernel⟩,
    ⟨5, 63, { anEntry true 10 with express := true }, onCan [{ anEntry true 10 with express := true }],
      calm_of (by decide +kernel), canFits_of (by decide +kernel), by decide +kernel⟩,
    ⟨5, 63, anEntry true 10, modCan (onCan [anEntry true 10]) 5 (fun q => { q with queue := [sentFrame] }),
      calm_of (by decide +kernel), canFits_of (by decide +kernel), by decide +kernel⟩,
    ⟨5, 63, anEntry true 10, 1, false, sentFrame, modCan (onCan [anEntry true 10]) 5 (fun q => { q with queue := [sentFrame] }),
      calm_of (by decide +kernel), canFits_of (by decide +kernel), by decide +kernel⟩,
    ⟨5, 63, anEntry true 10, 1, false, sentFrame,
      modCan (onCan [anEntry true 10]) 5 (fun q => { q with queue := [sentFrame, sentFrame] }), calm_of (by decide +kernel),
      canFits_of (by decide +kernel), by decide +kernel⟩,
    ⟨5, 63, running, calm_of (by decide +kernel), by decide +kernel⟩,
    ⟨[anEntry false 0], [], { anEntry true 0 with pos := 2, place := 2, chan := 1, home := 1 },
      onCan [anEntry false 0, { anEntry true 0 with pos := 2, place := 2, chan := 1, home := 1 }],
      calm_of (by decide +kernel), canFits_of (by decide +kernel), by decide +kernel⟩,
    ⟨onCan [anEntry true 10], calm_of (by decide +kernel), by decide +kernel⟩,
    ⟨5, 9, 127, false, sentFrame, anEntry true 10,
      modCan ((onCan [anEntry true 10]).set1 (R.CAN_STAT_BUS_ALONE 5)) 5 (fun q => { q with queue := [sentFrame], probing := true }),
      calm_of (by decide +kernel), canFits_of (by decide +kernel), by decide +kernel⟩,
    ⟨5, 9, 0, false, sentFrame,
      modCan (((onCan [anEntry true 10]).wr (R.CAN_STAT_ACKRUN 5) 63).wr (R.CAN_STAT_TEC 5) 127) 5 (fun q => { q with queue := [sentFrame] }),
      calm_of (by decide +kernel), canFits_of (by decide +kernel), by decide +kernel⟩,
    ⟨5, 9, 126, true, sentFrame, 2,
      modCan (((onCan [anEntry true 10]).set1 (R.CAN_TDC_TDCEN 5)).wr (R.CAN_TDC_TDCO 5) 2) 5 (fun q => { q with express := [sentFrame] }),
      calm_of (by decide +kernel), canFits_of (by decide +kernel), by decide +kernel⟩,
    ⟨5, modCan ((onCan []).set1 (R.CAN_STAT_BUS_ALONE 5)) 5 (fun q => { q with queue := [sentFrame] }),
      calm_of (by decide +kernel), canFits_of (by decide +kernel), by decide +kernel⟩,
    ⟨running, calm_of (by decide +kernel)⟩⟩

theorem witness_CanErrorsAndRetirement :
    (∃ (c : Fin 6) (k : CanErr) (s : State), Calm s ∧ canOn s c = true ∧ canMode s c = 1 ∧ s.rd (R.CAN_STAT_STATE c) ≠ 0
        ∧ (k = .receive ∨ k = .receiveFirst))
    ∧ (∃ (c : Fin 6) (s : State), Calm s ∧ canOn s c = true ∧ canMode s c = 1 ∧ s.rd (R.CAN_STAT_STATE c) ≠ 0 ∧ tecFull s c = false)
    ∧ (∃ (c : Fin 6) (s : State), Calm s ∧ canOn s c = true ∧ canMode s c = 1 ∧ s.rd (R.CAN_STAT_STATE c) ≠ 0 ∧ tecFull s c = false)
    ∧ (∃ (c : Fin 6) (s : State), Calm s ∧ CanFits s ∧ canOn s c = true ∧ canMode s c = 1 ∧ tecFull s c = true
        ∧ s.rd (R.CAN_CFG_RETMAX c) = 0)
    ∧ (∃ (c : Fin 6) (s : State), Calm s ∧ CanFits s ∧ canOn s c = true ∧ canMode s c = 1 ∧ tecFull s c = true ∧ s.dev ≠ .recovery
        ∧ s.rd (R.CAN_CFG_RETMAX c) ≠ 0
        ∧ s.rd (R.CAN_CFG_RETMAX c) ≤ ((getCan s c).boffs.filter (fun t => decide (s.time.vt < t + 60000000000))).length + 1)
    ∧ (∃ (c : Fin 6) (s : State), Calm s ∧ s.rdBit R.CLK_STAT_GOOD 5 = true ∧ s.rd (R.CAN_STAT_STATE c) = 3
        ∧ s.is (R.CAN_STAT_RETIRED c) = false)
    ∧ (∃ (c : Fin 6) (a : Fin 6) (s : State), Calm s ∧ CanFits s ∧ s.is (R.CAN_STAT_RETIRED c) = true ∧ (getCan s c).moved = false
        ∧ (getCan s c).alt = some a.val ∧ s.is (R.CAN_STAT_RETIRED a) = false
        ∧ (getCan s a).queue.length + (getCan s c).cancelled.length ≤ 16 ∧ a ≠ c)
    ∧ (∃ (c : Fin 6) (s : State), Calm s ∧ CanFits s ∧ s.is (R.CAN_STAT_RETIRED c) = true ∧ (getCan s c).moved = false
        ∧ (getCan s c).alt.all (fun a => s.is (R.CAN_STAT_RETIRED a)) = true)
    ∧ (∃ (s : State), Calm s) :=
  ⟨⟨5, .receiveFirst, (onCan []).wr (R.CAN_STAT_REC 5) 120, calm_of (by decide +kernel), by decide +kernel⟩,
    ⟨0, (onCan []).wr (R.CAN_STAT_TEC 0) 247, calm_of (by decide +kernel), by decide +kernel⟩,
    ⟨5,
      modCan (((onCan [anEntry true 10]).set1 (R.CAN_TDC_TDCEN 5)).wr (R.CAN_TDC_TDCO 5) 2) 5 (fun q => { q with express := [sentFrame] }),
      calm_of (by decide +kernel), by decide +kernel⟩,
    ⟨5, (onCan []).wr (R.CAN_STAT_TEC 5) 248, calm_of (by decide +kernel), canFits_of (by decide +kernel), by decide +kernel⟩,
    ⟨5, modCan (((onCan []).wr (R.CAN_CFG_RETMAX 5) 1).wr (R.CAN_STAT_TEC 5) 255) 5 (fun q => { q with queue := [sentFrame] }),
      calm_of (by decide +kernel), canFits_of (by decide +kernel), by decide +kernel⟩,
    ⟨5, ((onCan []).wr (R.CAN_STAT_STATE 5) 3).wr (R.CAN_STAT_TEC 5) 255, calm_of (by decide +kernel), by decide +kernel⟩,
    ⟨5, 0,
      modCan ((onCan [anEntry true 10]).set1 (R.CAN_STAT_RETIRED 5)) 5 (fun q => { q with cancelled := [sentFrame], alt := some 0 }),
      calm_of (by decide +kernel), canFits_of (by decide +kernel), by decide +kernel⟩,
    ⟨5, (onCan [anEntry true 10]).set1 (R.CAN_STAT_RETIRED 5), calm_of (by decide +kernel), canFits_of (by decide +kernel),
      by decide +kernel⟩,
    ⟨running, calm_of (by decide +kernel)⟩⟩

theorem witness_NetworkFrames :
    (∃ (p : Fin 2) (f : List Byte) (bad : Bool) (s : State), Calm s ∧ linkUp s p = true ∧ ethFrameGood bad f = false)
    ∧ (∃ (p : Fin 2) (f : List Byte) (s : State), Calm s ∧ NetFits s ∧ linkUp s p = true ∧ ethFrameGood false f = true
        ∧ (s.rd R.PTP_CFG_ROLE = 2 ∨ ptpOffset s f = none) ∧ ownDomain s f = false
        ∧ (netRuns s = false ∨ restPayload s f = none))
    ∧ (∃ (p : Fin 2) (f : List Byte) (o : Nat) (s : State), Calm s ∧ NetFits s ∧ linkUp s p = true ∧ ethFrameGood false f = true
        ∧ s.rd R.PTP_CFG_ROLE = 0 ∧ ptpOffset s f = some o ∧ (egress (learn s p f) p f).contains (1 - p) = true)
    ∧ (∃ (f : List Byte) (o : Nat), ((fieldBe f o 1 % 16 = 0 ∧ bitOf (fieldBe f (o + 6) 1) 1 = false) ∨ fieldBe f o 1 % 16 = 1))
    ∧ (∃ (p : Fin 2) (q : Fin 8) (l : Nat) (f : List Byte) (rest : List (Nat × List Byte)) (s : State), Calm s ∧ NetFits s
        ∧ macsRun s = true ∧ (linkUp s p = false ∨ (portFree s p = true ∧ roomAbove s p q f = true))
        ∧ nth s.net.ltq (8 * p + q) [] = (l, f) :: rest ∧ l ≤ s.nt + 8)
    ∧ (∃ (p : Fin 2) (q : Fin 8) (l : Nat) (f : List Byte) (rest : List (Nat × List Byte)) (s : State), Calm s ∧ NetFits s
        ∧ macsRun s = true ∧ (linkUp s p = false ∨ (portFree s p = true ∧ roomAbove s p q f = true))
        ∧ nth s.net.ltq (8 * p + q) [] = (l, f) :: rest ∧ l ≤ s.nt + 8)
    ∧ (∃ (s : State), Calm s)
    ∧ (∃ (p : Fin 8) (v : Vat) (s : State), Calm s ∧ Fits s ∧ s.owner = some v ∧ ownerRuns s = true ∧ netRuns s = true
        ∧ s.dev.onward = true ∧ gridPort s v p = true ∧ s.is (R.GRID_REST_RSRC v p) = true ∧ s.net.ltq.length = 16
        ∧ linkUp s 0 = true ∧ s.is (R.ETH_LTQ_LT_EN 0 (s.rd R.REST_Q_REST_Q)) = true)
    ∧ (∃ (p : Fin 8) (s : State), Calm s
        ∧ (ownerRuns s = false ∨ netRuns s = false ∨ s.dev.onward = false ∨ s.owner.all (fun v => !(gridPort s v p && s.is (R.GRID_REST_RSRC v p))) = true))
    ∧ (∃ (s : State), Calm s ∧ NetFits s ∧ ptpRuns s = true)
    ∧ (∃ (s : State), Calm s ∧ NetFits s ∧ ptpRuns s = true)
    ∧ (∃ (p : Fin 2) (f : List Byte) (o : Nat) (s : State), Calm s ∧ NetFits s ∧ linkUp s p = true ∧ ptpRuns s = true
        ∧ ethFrameGood false f = true ∧ ownDomain s f = true ∧ ptpOffset s f = some o ∧ restPayload s f = none
        ∧ ((fieldBe f o 1 % 16 = 1 ∧ s.is R.PTP_CFG_DELAY = false ∧ s.net.role = .master) ∨ (fieldBe f o 1 % 16 = 2
        ∧ s.is R.PTP_CFG_DELAY = true)))
    ∧ (∃ (p : Fin 2) (f : List Byte) (o : Nat) (s : State), Calm s ∧ NetFits s ∧ linkUp s p = true ∧ ptpRuns s = true
        ∧ ethFrameGood false f = true ∧ ownDomain s f = true ∧ ptpOffset s f = some o ∧ restPayload s f = none
        ∧ ((fieldBe f o 1 % 16 = 1 ∧ s.is R.PTP_CFG_DELAY = false ∧ s.net.role = .master) ∨ (fieldBe f o 1 % 16 = 2
        ∧ s.is R.PTP_CFG_DELAY = true)))
    ∧ (∃ (s : State), Calm s ∧ ptpRuns s = false)
    ∧ (∃ (s : State), Calm s) :=
  ⟨⟨1, List.replicate 1519 0, false, onNet, calm_of (by decide +kernel), by decide +kernel⟩,
    ⟨1, frameOf 0x88B5, onNet, calm_of (by decide +kernel), netFits_of (by decide +kernel), by decide +kernel⟩,
    ⟨1, frameOf 0x88F7, 14, onNet, calm_of (by decide +kernel), netFits_of (by decide +kernel), by decide +kernel⟩,
    ⟨frameOf 0x88F7, 14, by decide +kernel⟩,
    ⟨1, 7, 0, [9], [(5, [7])], modNet onNet (fun n => { n with ltq := List.replicate 15 [] ++ [[(0, [9]), (5, [7])]] }),
      calm_of (by decide +kernel), netFits_of (by decide +kernel), by decide +kernel⟩,
    ⟨1, 7, 0, [9], [],
      modNet ((onNet.clr (R.ETH_STAT_LINK 1)).wr (R.ETH_LTQ_LATES 1 7) 65535) (fun n => { n with ltq := List.replicate 15 [] ++ [[(0, [9])]] }),
      calm_of (by decide +kernel), netFits_of (by decide +kernel), by decide +kernel⟩,
    ⟨running, calm_of (by decide +kernel)⟩,
    ⟨7, .A, (onNet.set1 (R.GRID_REST_RSRC .A 7)).set1 (R.ETH_LTQ_LT_EN 0 7), calm_of (by decide +kernel),
      fits_of (by unfold WheelFits; decide +kernel) (by decide +kernel), by decide +kernel⟩,
    ⟨7, running, calm_of (by decide +kernel), by decide +kernel⟩,
    ⟨onNet, calm_of (by decide +kernel), netFits_of (by decide +kernel), by decide +kernel⟩,
    ⟨modNet onNet (fun n => { n with role := .master }), calm_of (by decide +kernel), netFits_of (by decide +kernel),
      by decide +kernel⟩,
    ⟨1, messageOf 1, 14, modNet onNet (fun n => { n with role := .master }), calm_of (by decide +kernel),
      netFits_of (by decide +kernel), by decide +kernel⟩,
    ⟨0, messageOf 2, 14, onNet.set1 R.PTP_CFG_DELAY, calm_of (by decide +kernel), netFits_of (by decide +kernel),
      by decide +kernel⟩,
    ⟨running, calm_of (by decide +kernel), by decide +kernel⟩,
    ⟨modNet onNet (fun n => { n with table := [(0x020000000009, 1, 0)] }), calm_of (by decide +kernel)⟩⟩

theorem witness_NetworkTimeDisciplined :
    (∃ (p : Fin 2) (f : List Byte) (ns : Int) (s : State), Disciplined s p f false ∧ s.is R.NT_STAT_SYNC = false
        ∧ s.rd R.SYNC_CFG_STEPTHR * 1000 < ns.natAbs ∧ s.rd R.SYNC_CFG_SYNC_THR < ns.natAbs ∧ .N ∈ s.rst.released)
    ∧ (∃ (p : Fin 2) (f : List Byte) (ns : Int) (s : State), Disciplined s p f false
        ∧ (s.is R.NT_STAT_SYNC = true ∨ ns.natAbs ≤ s.rd R.SYNC_CFG_STEPTHR * 1000))
    ∧ (∃ (p : Fin 2) (f : List Byte) (ns : Int) (s : State), Disciplined s p f false
        ∧ (s.is R.NT_STAT_SYNC = true ∨ ns.natAbs ≤ s.rd R.SYNC_CFG_STEPTHR * 1000))
    ∧ (∃ (s : State), Calm s ∧ s.dev ≠ .off ∧ s.is R.NT_STAT_SYNC = false ∧ .N ∈ s.rst.released)
    ∧ (∃ (s : State), Calm s ∧ s.is R.NT_STAT_SYNC = true)
    ∧ (∃ (s : State), Calm s ∧ ptpRuns s = true)
    ∧ (∃ (p : Fin 2) (f : List Byte) (o : Nat) (s : State), Calm s ∧ s.net.foreign.length = 2 ∧ linkUp s p = true ∧ ptpRuns s = true
        ∧ ethFrameGood false f = true ∧ ownDomain s f = true ∧ ptpOffset s f = some o ∧ fieldBe f o 1 % 16 = 11
        ∧ restPayload s f = none)
    ∧ (∃ (p : Fin 2) (f : List Byte) (s : State), Calm s ∧ linkUp s p = true ∧ netRuns s = true ∧ s.rd R.PTP_CFG_ROLE < 2
        ∧ ownerRuns s = false ∧ ethFrameGood false f = true ∧ ownDomain s f = true ∧ restPayload s f = none)
    ∧ (∃ (p : Fin 2) (s : State), Calm s ∧ s.is (R.ETH_STAT_LINK p) = true)
    ∧ (∃ (p : Fin 2) (s : State), Calm s ∧ macsRun s = true ∧ s.is (R.ETH_CFG_EN p) = true)
    ∧ (∃ (s : State), Calm s ∧ s.dev ≠ .off)
    ∧ (∃ (s : State), Calm s)
    ∧ (∃ (s : State), Calm s) :=
  ⟨⟨1, frameOf 0x88F7, 900000, onNet, disciplined_of (by decide +kernel), by decide +kernel⟩,
    ⟨1, frameOf 0x88F7, -90, modNet onNet (fun n => { n with inRow := 15 }), disciplined_of (by decide +kernel),
      by decide +kernel⟩,
    ⟨1, frameOf 0x88F7, 900000, modNet (onNet.set1 R.NT_STAT_SYNC) (fun n => { n with outRow := 2 }),
      disciplined_of (by decide +kernel), by decide +kernel⟩,
    ⟨(onNet.wr R.NT_STEP_LO_VAL 0xFFFFFFFF).wr R.NT_STEP_HI_VAL 0xFFFFFFFF, calm_of (by decide +kernel), by decide +kernel⟩,
    ⟨onNet.set1 R.NT_STAT_SYNC, calm_of (by decide +kernel), by decide +kernel⟩,
    ⟨onNet.set1 R.PTP_CFG_GM_OK, calm_of (by decide +kernel), by decide +kernel⟩,
    ⟨1, messageOf 11, 14, onNet, calm_of (by decide +kernel), by decide +kernel⟩,
    ⟨1, frameOf 0x88F7, onNet.wr R.OWN_STAT_OWNER 0, calm_of (by decide +kernel), by decide +kernel⟩,
    ⟨1, (onNet.set1 R.NT_STAT_SYNC).clr (R.ETH_STAT_LINK 0), calm_of (by decide +kernel), by decide +kernel⟩,
    ⟨0, onNet.clr (R.ETH_STAT_LINK 0), calm_of (by decide +kernel), by decide +kernel⟩,
    ⟨onNet, calm_of (by decide +kernel), by decide +kernel⟩,
    ⟨running, calm_of (by decide +kernel)⟩,
    ⟨onNet.wr R.PPS_CFG_OMODE 1, calm_of (by decide +kernel)⟩⟩

theorem witness_PpsInOnlyCaptures :
    (∃ (s : State), Calm s)
    ∧ (∃ (rise : Bool) (s : State), Calm s ∧ s.dev ≠ .off ∧ ppsAccepted s rise = true)
    ∧ (∃ (rise : Bool) (s : State), Calm s ∧ s.dev ≠ .off ∧ ppsAccepted s rise = false) :=
  ⟨⟨onNet, calm_of (by decide +kernel)⟩,
    ⟨true, onNet.set1 R.CTS_CTL_PPSCAP, calm_of (by decide +kernel), by decide +kernel⟩,
    ⟨false, onNet, calm_of (by decide +kernel), by decide +kernel⟩⟩

theorem witness_ServiceMessages :
    (∃ (seg : BitVec 512) (s : State), Calm s ∧ serviceRuns s = true ∧ s.trust.request = none
        ∧ (nth (segmentBytes seg) 0 0).toNat = s.trust.rxNext % 128 ∧ s.trust.rxNext < 66)
    ∧ (∃ (seg : BitVec 512) (s : State), Calm s ∧ CanFits s ∧ serviceRuns s = true ∧ s.trust.request = none
        ∧ ((nth (segmentBytes seg) 0 0).toNat % 128 ≠ s.trust.rxNext % 128 ∨ 66 ≤ s.trust.rxNext))
    ∧ (∃ (seg : BitVec 512) (m : List Byte) (s : State), Calm s ∧ serviceRuns s = true ∧ s.trust.request = none
        ∧ (nth (segmentBytes seg) 0 0).toNat = s.trust.rxNext % 128 + 128 ∧ s.trust.rxNext < 66
        ∧ m = s.trust.rxBytes ++ (segmentBytes seg).drop 1 ∧ leValue ((m.drop 4).take 8) = 0 ∧ leValue (m.take 2) ≤ 4096
        ∧ (12 + leValue (m.take 2) + 62) / 63 = s.trust.rxNext + 1 ∧ knownCommands.contains (nth m 2 0).toNat = true)
    ∧ (∃ (seg : BitVec 512) (m : List Byte) (q : Session) (len : Nat) (ctr : Nat) (s : State), Calm s ∧ CanFits s
        ∧ serviceRuns s = true ∧ s.trust.request = none ∧ s.trust.rxNext = 0 ∧ (nth (segmentBytes seg) 0 0).toNat = 128
        ∧ m = s.trust.rxBytes ++ (segmentBytes seg).drop 1 ∧ leValue (m.take 2) = len ∧ leValue ((m.drop 4).take 8) = ctr
        ∧ ctr ≠ 0 ∧ (12 + len + 16 + 62) / 63 = 1 ∧ s.trust.session = some q
        ∧ knownCommands.contains (nth m 2 0).toNat = true)
    ∧ (∃ (s : State), Calm s)
    ∧ (∃ (i : Instr) (s : State), Calm s
        ∧ (serviceRow i).any (fun w => !serviceRuns s || s.trust.request.all (fun r => r.cmd != w.1)) = true)
    ∧ (∃ (s : State), Calm s ∧ CanFits s ∧ serviceRuns s = true ∧ s.trust.rxNext ≠ 0 ∧ s.trust.request = none)
    ∧ (∃ (i : Instr) (r : Request) (k : Nat) (s : State), Judged i s r k ∧ k ≠ 0)
    ∧ (∃ (i : Instr) (r : Request) (k : Nat) (s : State), Judged i s r k ∧ k ≠ 0)
    ∧ (∃ (r : Request) (s : State), Judged .hello s r 0 ∧ s.is R.TRUST_STAT_IDOK = true ∧ cryptoRuns s = true)
    ∧ (∃ (r : Request) (n : Nat) (s : State), Judged .auth s r 0 ∧ s.trust.hello = some n)
    ∧ (∃ (r : Request) (s : State), Judged .auth s r 0 ∧ s.trust.hello = none)
    ∧ (∃ (r : Request) (q : Session) (s : State), Calm s ∧ CanFits s ∧ s.trust.request = some r ∧ r.cmd = 3 ∧ serviceRuns s = true
        ∧ s.trust.life ≠ 2 ∧ r.inSession = true ∧ s.trust.session = some q)
    ∧ (∃ (r : Request) (s : State), Calm s ∧ CanFits s ∧ s.trust.request = some r ∧ r.cmd = 3 ∧ serviceRuns s = true
        ∧ s.trust.life ≠ 2 ∧ r.inSession = false)
    ∧ (∃ (q : Session) (s : State), Calm s ∧ s.trust.session = some q)
    ∧ (∃ (f : CanFrame) (s : State), isRequestFrame s 0 f = true) :=
  ⟨⟨0xABCD01, modTrust (requesting 1 [] running) (fun t => { t with request := none, rxNext := 1 }), calm_of (by decide +kernel),
      by decide +kernel⟩,
    ⟨0x85, modTrust (requesting 1 [] running) (fun t => { t with request := none, rxNext := 1, rxBytes := [0, 0, 0x10] }),
      calm_of (by decide +kernel), canFits_of (by decide +kernel), by decide +kernel⟩,
    ⟨0x10000280, (segmentBytes 0x10000280).drop 1, modTrust (requesting 1 [] running) (fun t => { t with request := none }),
      calm_of (by decide +kernel), by decide +kernel⟩,
    ⟨sessionSegment, (segmentBytes sessionSegment).drop 1, ⟨5, 31, 77, 1, 0⟩, 1, 2,
      modTrust (requesting 1 [] running) (fun t => { t with request := none }), calm_of (by decide +kernel),
      canFits_of (by decide +kernel), by decide +kernel⟩,
    ⟨running, calm_of (by decide +kernel)⟩,
    ⟨.decommission, requesting 0x10 [] running, calm_of (by decide +kernel), by decide +kernel⟩,
    ⟨modTrust (requesting 1 [] running) (fun t => { t with request := none, rxNext := 1, rxBytes := [0, 0, 0x10] }),
      calm_of (by decide +kernel), canFits_of (by decide +kernel), by decide +kernel⟩,
    ⟨.decommission, ⟨0x51, 0, [], false⟩, 3,
      modTrust (requesting 0x51 [] running) (fun t => { t with request := some ⟨0x51, 0, [], false⟩ }),
      judged_of (by decide +kernel), by decide +kernel⟩,
    ⟨.recoveryExit, ⟨0x27, 1, [], true⟩, 1, requesting 0x27 [] running, judged_of (by decide +kernel), by decide +kernel⟩,
    ⟨⟨1, 1, [], true⟩, (requesting 1 [] running).set1 R.TRUST_STAT_IDOK, judged_of (by decide +kernel), by decide +kernel⟩,
    ⟨⟨2, 1, [1], true⟩, 4, modTrust (requesting 2 [1] running) (fun t => { t with hello := some 4 }),
      judged_of (by decide +kernel), by decide +kernel⟩,
    ⟨⟨2, 1, [1], true⟩, requesting 2 [1] running, judged_of (by decide +kernel), by decide +kernel⟩,
    ⟨⟨3, 1, [], true⟩, ⟨5, 31, 77, 1, 0⟩, requesting 3 [] running, calm_of (by decide +kernel), canFits_of (by decide +kernel),
      by decide +kernel⟩,
    ⟨⟨3, 0, [], false⟩, modTrust (requesting 3 [] running) (fun t => { t with request := some ⟨3, 0, [], false⟩ }),
      calm_of (by decide +kernel), canFits_of (by decide +kernel), by decide +kernel⟩,
    ⟨⟨5, 31, 77, 1, 0⟩, modTrust (requesting 3 [] running) (fun t => { t with request := none }), calm_of (by decide +kernel),
      by decide +kernel⟩,
    ⟨requestCan, requesting 1 [] running, by decide +kernel⟩⟩

theorem witness_ServiceOperates :
    (∃ (r : Request) (s : State), Judged .read s r 0)
    ∧ (∃ (r : Request) (s : State), Judged .wheySelect s r 0)
    ∧ (∃ (r : Request) (s : State), Judged .order s r 0)
    ∧ (∃ (r : Request) (s : State), Judged .senseSync s r 0 ∧ r.body.length = 8)
    ∧ (∃ (r : Request) (s : State), Judged .senseSync s r 0 ∧ r.body.length ≠ 8)
    ∧ (∃ (r : Request) (o : Vat) (s : State), Judged .handoverDrill s r 0 ∧ s.arb.drill = none ∧ s.owner = some o
        ∧ drillAllowed s = true)
    ∧ (∃ (r : Request) (s : State), Judged .handoverDrill s r 0 ∧ (s.arb.drill ≠ none ∨ drillAllowed s = false))
    ∧ (∃ (r : Request) (s : State), Judged .vatReset s r 0 ∧ s.hasVat .B = true)
    ∧ (∃ (r : Request) (s : State), Judged .vatReset s r 0 ∧ s.hasVat .B = true)
    ∧ (∃ (r : Request) (s : State), Judged .sysReset s r 0 ∧ s.rst.phase ≠ .por)
    ∧ (∃ (r : Request) (s : State), Judged .safetyClear s r 0)
    ∧ (∃ (r : Request) (s : State), Judged .safetyClear s r 0)
    ∧ (∃ (won : Option (BitVec 32)) (r : Request) (s : State), Judged (.canFlush won) s r 0
        ∧ won.bind (fun w => (getCan s (r.field 0)).onBus (s.sofTime w.toNat)) = none)
    ∧ (∃ (sof : BitVec 32) (r : Request) (s : State), Judged (.canFlush (some sof)) s r 0)
    ∧ (∃ (r : Request) (s : State), Judged .recoveryExit s r 0 ∧ s.rst.phase ≠ .por)
    ∧ (∃ (r : Request) (s : State), Judged .recoveryExit s r 0 ∧ s.rst.phase ≠ .por) :=
  ⟨⟨⟨0x10, 1, [], true⟩, requesting 0x10 [] running, judged_of (by decide +kernel)⟩,
    ⟨⟨0x11, 1, [], true⟩, requesting 0x11 [] running, judged_of (by decide +kernel)⟩,
    ⟨⟨0x20, 1, [], true⟩, requesting 0x20 [] running, judged_of (by decide +kernel)⟩,
    ⟨⟨0x21, 1, [0, 0, 0, 0, 0, 0, 0, 0x81], true⟩, requesting 0x21 [0, 0, 0, 0, 0, 0, 0, 0x81] running,
      judged_of (by decide +kernel), by decide +kernel⟩,
    ⟨⟨0x21, 1, [], true⟩, requesting 0x21 [] running, judged_of (by decide +kernel), by decide +kernel⟩,
    ⟨⟨0x22, 1, [], true⟩, .A, requesting 0x22 [] running, judged_of (by decide +kernel), by decide +kernel⟩,
    ⟨⟨0x22, 1, [], true⟩, requesting 0x22 [] unowned, judged_of (by decide +kernel), by decide +kernel⟩,
    ⟨⟨0x23, 1, [], true⟩, requesting 0x23 [] running, judged_of (by decide +kernel), by decide +kernel⟩,
    ⟨⟨0x23, 1, [], true⟩, requesting 0x23 [] unowned, judged_of (by decide +kernel), by decide +kernel⟩,
    ⟨⟨0x24, 1, [], true⟩, requesting 0x24 [] running, judged_of (by decide +kernel), by decide +kernel⟩,
    ⟨⟨0x25, 1, [], true⟩, requesting 0x25 [] (running.wr ⟨R.SAFE_FAULT, 0, 32⟩ 1), judged_of (by decide +kernel)⟩,
    ⟨⟨0x25, 1, [], true⟩, requesting 0x25 [] running, judged_of (by decide +kernel)⟩,
    ⟨none, ⟨0x26, 1, [], true⟩, requesting 0x26 [] running, judged_of (by decide +kernel), by decide +kernel⟩,
    ⟨0, ⟨0x26, 1, [], true⟩, modCan (requesting 0x26 [] running) 5 (fun q => { q with queue := [sentFrame] }),
      judged_of (by decide +kernel)⟩,
    ⟨⟨0x27, 1, [], true⟩, requesting 0x27 [] { running with dev := .recovery }, judged_of (by decide +kernel), by decide +kernel⟩,
    ⟨⟨0x27, 1, [], true⟩, requesting 0x27 [] (({ running with dev := .recovery } : State).set1 R.DEV_STATE_RECSTRAP),
      judged_of (by decide +kernel), by decide +kernel⟩⟩

theorem witness_ServiceConfigures :
    (∃ (r : Request) (s : State), Judged .wheelErase s r 0)
    ∧ (∃ (ok : Bool) (r : Request) (k : Nat) (off : Nat) (data : List Byte) (s : State), Judged (.wheelWrite ok) s r 0
        ∧ r.body = [BitVec.ofNat 8 k, 0, 0, 0] ++ leBytes 4 off ++ data ∧ slotWritable s k = true ∧ off % 4 = 0
        ∧ data.length % 4 = 0 ∧ data.length ≤ 4080 ∧ off + data.length ≤ 0x1000000)
    ∧ (∃ (ok : Bool) (r : Request) (k : Nat) (off : Nat) (data : List Byte) (s : State), Judged (.wheelWrite ok) s r 0
        ∧ r.body = [BitVec.ofNat 8 k, 0, 0, 0] ++ leBytes 4 off ++ data ∧ slotWritable s k = true ∧ off % 4 = 0
        ∧ data.length % 4 = 0 ∧ data.length ≤ 4080 ∧ off + data.length ≤ 0x1000000)
    ∧ (∃ (ok : Bool) (r : Request) (s : State), Judged (.wheelWrite ok) s r 0
        ∧ (slotWritable s (nth r.body 0 0).toNat = false ∨ r.body.length < 8 ∨ ((r.body.drop 1).take 3).any (· != 0) = true))
    ∧ (∃ (ok : Bool) (r : Request) (s : State), Judged (.wheelWrite ok) s r 0
        ∧ (slotWritable s (nth r.body 0 0).toNat = false ∨ r.body.length < 8 ∨ ((r.body.drop 1).take 3).any (· != 0) = true))
    ∧ (∃ (r : Request) (s : State), Judged .safeConfirm s r 0)
    ∧ (∃ (r : Request) (s : State), Judged .mtCorrect s r 0 ∧ s.variant.metered = true ∧ r.body.length = 96)
    ∧ (∃ (r : Request) (s : State), Judged .mtCorrect s r 0 ∧ s.variant.metered = false)
    ∧ (∃ (r : Request) (s : State), Calm s ∧ CanFits s ∧ s.trust.request = some r ∧ r.cmd = 0x34 ∧ serviceRuns s = true
        ∧ judgeRequest s r (some 2) (patchState s) = 0)
    ∧ (∃ (r : Request) (s : State), Judged .certRevoke s r 0)
    ∧ (∃ (r : Request) (s : State), Judged .debugUnlock s r 0)
    ∧ (∃ (r : Request) (s : State), Judged .debugLock s r 0)
    ∧ (∃ (fuse : FuseResult) (r : Request) (i : Fin 4) (s : State), Judged (.ownerXfer fuse) s r 0 ∧ OneOwner s.trust
        ∧ r.body.length = 48 ∧ s.trust.slots.length = 4 ∧ freeOwnerSlot s.trust = some i.val)
    ∧ (∃ (fuse : FuseResult) (r : Request) (i : Fin 4) (s : State), Judged (.ownerXfer fuse) s r 0 ∧ OneOwner s.trust
        ∧ r.body.length = 48 ∧ s.trust.slots.length = 4 ∧ freeOwnerSlot s.trust = some i.val)
    ∧ (∃ (fuse : FuseResult) (r : Request) (i : Fin 4) (s : State), Judged (.ownerXfer fuse) s r 0 ∧ OneOwner s.trust
        ∧ r.body.length = 48 ∧ s.trust.slots.length = 4 ∧ freeOwnerSlot s.trust = some i.val)
    ∧ (∃ (fuse : FuseResult) (r : Request) (i : Fin 4) (s : State), Judged (.ownerXfer fuse) s r 0 ∧ OneOwner s.trust
        ∧ r.body.length = 48 ∧ s.trust.slots.length = 4 ∧ freeOwnerSlot s.trust = some i.val)
    ∧ (∃ (fuse : FuseResult) (r : Request) (s : State), Judged (.ownerXfer fuse) s r 0 ∧ r.body.length = 48 ∧ powerLost fuse = false
        ∧ freeOwnerSlot s.trust = none)
    ∧ (∃ (fuse : FuseResult) (r : Request) (s : State), Judged (.ownerXfer fuse) s r 0 ∧ r.body.length ≠ 48)
    ∧ (∃ (r : Request) (s : State), Judged .decommission s r 0) :=
  ⟨⟨⟨0x30, 1, [], true⟩, requesting 0x30 [] (running.set1 R.WHL_STAT_SLOT), judged_of (by decide +kernel)⟩,
    ⟨true, ⟨0x31, 1, [0, 0, 0, 0, 0xFC, 0xFF, 0xFF, 0, 1, 2, 3, 4], true⟩, 0, 0xFFFFFC, [1, 2, 3, 4],
      requesting 0x31 [0, 0, 0, 0, 0xFC, 0xFF, 0xFF, 0, 1, 2, 3, 4] (running.set1 R.WHL_STAT_SLOT),
      judged_of (by decide +kernel), by decide +kernel⟩,
    ⟨false, ⟨0x31, 1, [1, 0, 0, 0, 0, 0, 0, 0, 1, 2, 3, 4], true⟩, 1, 0, [1, 2, 3, 4],
      requesting 0x31 [1, 0, 0, 0, 0, 0, 0, 0, 1, 2, 3, 4] (running.wr R.WHL_STAT_SLOT 0), judged_of (by decide +kernel),
      by decide +kernel⟩,
    ⟨true, ⟨0x31, 1, [1, 0, 0, 0, 0, 0, 0, 0, 1, 2, 3, 4], true⟩,
      requesting 0x31 [1, 0, 0, 0, 0, 0, 0, 0, 1, 2, 3, 4] (running.wr R.WHL_STAT_SLOT 1), judged_of (by decide +kernel),
      by decide +kernel⟩,
    ⟨true, ⟨0x31, 1, [1, 0, 0, 9, 0, 0, 0, 0, 1, 2, 3, 4], true⟩,
      requesting 0x31 [1, 0, 0, 9, 0, 0, 0, 0, 1, 2, 3, 4] (running.wr R.WHL_STAT_SLOT 0), judged_of (by decide +kernel),
      by decide +kernel⟩,
    ⟨⟨0x32, 1, [], true⟩, requesting 0x32 [] (running.set1 R.WHL_STAT_RESTRICT), judged_of (by decide +kernel)⟩,
    ⟨⟨0x33, 1, List.replicate 95 0x5A ++ [1], true⟩, requesting 0x33 (List.replicate 95 0x5A ++ [1]) running,
      judged_of (by decide +kernel), by decide +kernel⟩,
    ⟨⟨0x33, 1, [], true⟩, requesting 0x33 [] { running with variant := .D }, judged_of (by decide +kernel), by decide +kernel⟩,
    ⟨⟨0x34, 1, [], true⟩, requesting 0x34 [] running, calm_of (by decide +kernel), canFits_of (by decide +kernel),
      by decide +kernel⟩,
    ⟨⟨0x35, 1, [], true⟩, requesting 0x35 [] (running.wr R.CERT_MIN_VAL 9), judged_of (by decide +kernel)⟩,
    ⟨⟨0x40, 1, [], true⟩, requesting 0x40 [] running, judged_of (by decide +kernel)⟩,
    ⟨⟨0x41, 1, [], true⟩, modTrust (requesting 0x41 [] running) (fun t => { t with dbg := 2 }), judged_of (by decide +kernel)⟩,
    ⟨.done, ⟨0x50, 1, List.replicate 48 1, true⟩, 1, requesting 0x50 (List.replicate 48 1) running, judged_of (by decide +kernel),
      by unfold OneOwner; decide +kernel, by decide +kernel⟩,
    ⟨.differs, ⟨0x50, 1, List.replicate 48 1, true⟩, 1, requesting 0x50 (List.replicate 48 1) running,
      judged_of (by decide +kernel), by unfold OneOwner; decide +kernel, by decide +kernel⟩,
    ⟨.notMade 2, ⟨0x50, 1, List.replicate 48 1, true⟩, 1, requesting 0x50 (List.replicate 48 1) running,
      judged_of (by decide +kernel), by unfold OneOwner; decide +kernel, by decide +kernel⟩,
    ⟨.powerLoss 1, ⟨0x50, 1, List.replicate 48 1, true⟩, 1, requesting 0x50 (List.replicate 48 1) running,
      judged_of (by decide +kernel), by unfold OneOwner; decide +kernel, by decide +kernel⟩,
    ⟨.done, ⟨0x50, 1, List.replicate 48 1, true⟩,
      modTrust (requesting 0x50 (List.replicate 48 1) running) (fun t => { t with slots := [{ revoked := true }, { written := true }, { revoked := true }, { valid := true }] }),
      judged_of (by decide +kernel), by decide +kernel⟩,
    ⟨.done, ⟨0x50, 1, [], true⟩, requesting 0x50 [] running, judged_of (by decide +kernel), by decide +kernel⟩,
    ⟨⟨0x51, 1, [], true⟩, requesting 0x51 [] running, judged_of (by decide +kernel)⟩⟩

theorem witness_AccessesJudged :
    (∃ (m : BitVec 6) (a : BitVec 32) (data : BusData) (w : Master) (row : RegRow) (is : List Nat) (s : State),
        Issued s m w a true ∧ data.width = .word ∧ (regionOf s a.toNat).regs = true ∧ (denied s w a.toNat true).1 = false
        ∧ plainRegister a.toNat = true ∧ findReg a.toNat = some (row, is))
    ∧ (∃ (m : BitVec 6) (a : BitVec 32) (data : BusData) (w : Master) (s : State), Calm s ∧ masterOf m.toNat = some w
        ∧ issues s m.toNat a.toNat true = true ∧ busErrorAt s a.toNat (widthBytes data.width) true = false
        ∧ absentAt s a.toNat = false ∧ (regionOf s a.toNat).regs = false ∧ (denied s w a.toNat true).1 = false)
    ∧ (∃ (m : BitVec 6) (a : BitVec 32) (data : BusData) (w : Master) (s : State), Calm s ∧ masterOf m.toNat = some w
        ∧ issues s m.toNat a.toNat true = true ∧ busErrorAt s a.toNat (widthBytes data.width) true = false
        ∧ absentAt s a.toNat = false ∧ (regionOf s a.toNat).regs = false ∧ (denied s w a.toNat true).1 = false)
    ∧ (∃ (m : BitVec 6) (a : BitVec 32) (data : BusData) (w : Master) (s : State), Calm s ∧ masterOf m.toNat = some w
        ∧ issues s m.toNat a.toNat true = true ∧ busErrorAt s a.toNat (widthBytes data.width) true = false
        ∧ absentAt s a.toNat = false ∧ (regionOf s a.toNat).regs = false ∧ (denied s w a.toNat true).1 = false)
    ∧ (∃ (a : BitVec 32) (s : State), Calm s ∧ absentAt s a.toNat = true)
    ∧ (∃ (m : BitVec 6) (w : Master) (a : BitVec 32) (data : BusData) (s : State), Issued s m w a true ∧ data.width = .word
        ∧ (denied s w a.toNat true).1 = true)
    ∧ (∃ (m : BitVec 6) (w : Master) (a : BitVec 32) (b : Bool) (s : State), Issued s m w a b ∧ (denied s w a.toNat b).1 = true
        ∧ 32 ≤ m.toNat ∧ s.net.role ≠ .master)
    ∧ (∃ (m : BitVec 6) (w : Master) (v : Vat) (a : BitVec 32) (b : Bool) (s : State), Issued s m w a b ∧ RunningStandby s v
        ∧ (denied s w a.toNat b).1 = true ∧ masterVat m.toNat = some v ∧ s.is (R.FW_INFO_REC_F v) = false)
    ∧ (∃ (m : BitVec 6) (w : Master) (v : Vat) (a : BitVec 32) (b : Bool) (s : State), Issued s m w a b ∧ OwnerWithStandby s v
        ∧ (denied s w a.toNat b).1 = true ∧ masterVat m.toNat = some v ∧ s.is (R.FW_INFO_REC_F v) = false)
    ∧ (∃ (m : BitVec 6) (w : Master) (a : BitVec 32) (x : AccessWidth) (b : Bool) (s : State), Calm s ∧ masterOf m.toNat = some w
        ∧ issues s m.toNat a.toNat b = true ∧ busErrorAt s a.toNat (widthBytes x) b = true)
    ∧ (∃ (m : BitVec 6) (w : Master) (s : State), Calm s ∧ masterOf m.toNat = some w)
    ∧ (∃ (s : State), Calm s ∧ (s.rst.phase = .por ∨ masterFrozen s 36 = true))
    ∧ (∃ (s : State), Calm s ∧ s.trust.debugLevel = 0)
    ∧ (∃ (s : State), Calm s ∧ s.rst.phase ≠ .por ∧ masterFrozen s 36 = false)
    ∧ (∃ (a : BitVec 32) (s : State), Issued s 36 .jtag a false ∧ s.rst.phase ≠ .por ∧ (denied s .jtag a.toNat false).1 = false)
    ∧ (∃ (a : BitVec 32) (row : RegRow) (is : List Nat) (s : State), Issued s 36 .jtag a true ∧ s.rst.phase ≠ .por
        ∧ (denied s .jtag a.toNat true).1 = false ∧ plainRegister a.toNat = true ∧ findReg a.toNat = some (row, is))
    ∧ (∃ (s : State), Calm s ∧ canIssue s 36 = true ∧ s.rst.phase ≠ .por ∧ s.trust.debugLevel = 2)
    ∧ (∃ (s : State), s.rst.phase ≠ .por) :=
  ⟨⟨8, 0x40020010, ⟨.word, 0xFFFFFFFF, 0⟩, .sup .A, ⟨0x40020010, [], 0, .const, 0, 0x7F, 0, 0, 0, 0, 0, 0⟩, [], running,
      issued_of (by decide +kernel), by decide +kernel⟩,
    ⟨24, 0x603FFFFF, ⟨.byte, 0x5A, 0⟩, .sup .B, running, calm_of (by decide +kernel), by decide +kernel⟩,
    ⟨8, 0x40605002, ⟨.half, 0x5A5A, 0⟩, .sup .A, running, calm_of (by decide +kernel), by decide +kernel⟩,
    ⟨8, 0x40604802, ⟨.half, 0x5A5A, 0⟩, .sup .A, running, calm_of (by decide +kernel), by decide +kernel⟩,
    ⟨0x60000000, { running with variant := .S }, calm_of (by decide +kernel), by decide +kernel⟩,
    ⟨33, .can, 0x40030000, ⟨.word, 1, 0⟩, requesting 1 [] running, issued_of (by decide +kernel), by decide +kernel⟩,
    ⟨35, .service, 0x50000000, true, requesting 1 [] running, issued_of (by decide +kernel), by decide +kernel⟩,
    ⟨23, .engine .B 7, .B, 0x61080040, false, running, issued_of (by decide +kernel), runningStandby_of (by decide +kernel),
      by decide +kernel⟩,
    ⟨5, .engine .A 5, .A, 0x51080040, false, running, issued_of (by decide +kernel), ownerWithStandby_of (by decide +kernel),
      by decide +kernel⟩,
    ⟨8, .sup .A, 0x70000100, .word, true, running, calm_of (by decide +kernel), by decide +kernel⟩,
    ⟨8, .sup .A, running, calm_of (by decide +kernel), by decide +kernel⟩,
    ⟨{ running with rst := { running.rst with phase := .por } }, calm_of (by decide +kernel), by decide +kernel⟩,
    ⟨requesting 1 [] running, calm_of (by decide +kernel), by decide +kernel⟩,
    ⟨running, calm_of (by decide +kernel), by decide +kernel⟩,
    ⟨0x40000000, running, issued_of (by decide +kernel), by decide +kernel⟩,
    ⟨0x40020010, ⟨0x40020010, [], 0, .const, 0, 0x7F, 0, 0, 0, 0, 0, 0⟩, [], running, issued_of (by decide +kernel),
      by decide +kernel⟩,
    ⟨running, calm_of (by decide +kernel), by decide +kernel⟩,
    ⟨running, by decide +kernel⟩⟩

theorem witness_RecordsKept :
    (∃ (r : LogRec) (q : List LogRec) (s : State), Calm s ∧ s.log.queue = r :: q ∧ triggersOf s r = []
        ∧ s.log.queue.length ≤ s.log.mark)
    ∧ (∃ (r : LogRec) (q : List LogRec) (k : Nat) (ks : List Nat) (s : State), Calm s ∧ s.log.queue = r :: q
        ∧ triggersOf s r = k :: ks ∧ s.rcd.phase = .armed)
    ∧ (∃ (r : LogRec) (q : List LogRec) (n : Nat) (s : State), Calm s ∧ s.log.queue = r :: q ∧ s.rcd.phase = .post n)
    ∧ (∃ (r : LogRec) (q : List LogRec) (s : State), Calm s ∧ s.log.queue = r :: q ∧ q.length < 64 ∧ triggersOf s r = []
        ∧ s.log.lostPend ≠ 0)
    ∧ (∃ (s : State), Calm s ∧ s.rcd.phase = .post 0 ∧ s.rd R.REC_STAT_ARMSEG < recSegs s
        ∧ (List.range (recSegs s)).any (fun g => !(s.rcd.complete ++ [s.rd R.REC_STAT_ARMSEG]).contains g) = true)
    ∧ (∃ (o : Nat) (rest : List Nat) (s : State), Calm s ∧ s.rcd.phase = .post 0
        ∧ s.rcd.complete ++ [s.rd R.REC_STAT_ARMSEG] = o :: rest ∧ o < 8
        ∧ (List.range (recSegs s)).all (fun g => (s.rcd.complete ++ [s.rd R.REC_STAT_ARMSEG]).contains g) = true)
    ∧ (∃ (o : Nat) (rest : List Nat) (s : State), Calm s ∧ s.rcd.phase = .post 0
        ∧ s.rcd.complete ++ [s.rd R.REC_STAT_ARMSEG] = o :: rest ∧ o < 8
        ∧ (List.range (recSegs s)).all (fun g => (s.rcd.complete ++ [s.rd R.REC_STAT_ARMSEG]).contains g) = true)
    ∧ (∃ (s : State), Calm s ∧ s.log.mirror < s.log.written ∧ s.log.written ≤ s.log.mirror + 256)
    ∧ (∃ (s : State), Calm s ∧ s.dev ≠ .off ∧ s.variant.dual = true)
    ∧ (∃ (s : State), Calm s)
    ∧ (∃ (m : Fin 2) (b : Nat) (n : Nat) (off : Nat) (s : State), Calm s ∧ s.dev ≠ .off ∧ brineBase m = some (b, n) ∧ off < n
        ∧ off % 4 = 0)
    ∧ (∃ (m : Fin 8) (v : Vat) (s : State), RunningStandby s v ∧ brineVat m = some v ∧ m.val % 3 ≠ 1)
    ∧ (∃ (m : Fin 8) (v : Vat) (off : Nat) (s : State), Calm s ∧ s.dev ≠ .off ∧ s.hasVat v = true ∧ brineVat m = some v
        ∧ m.val % 3 = 1 ∧ off < 0x40000 ∧ off % 4 = 0 ∧ wheyBankOf s v off = none) :=
  ⟨⟨⟨5, 9, 0x603, 1, 0xFFFFFFFF, 3⟩, [⟨4, 1, 0x401, 0, 0, 0⟩],
      { running.wr R.LOG_HEAD_HEAD 16383 with log := { running.log with mark := 2, queue := [⟨5, 9, 0x603, 1, 0xFFFFFFFF, 3⟩, ⟨4, 1, 0x401, 0, 0, 0⟩] } },
      calm_of (by decide +kernel), by decide +kernel⟩,
    ⟨⟨5, 9, 0x603, 1, 0, 3⟩, [], 3, [],
      { (running.set1 (R.REC_TRIGSRC_TEN 3)).set1 (R.REC_TRIGSRC_SRCANY 3) with log := { running.log with queue := [⟨5, 9, 0x603, 1, 0, 3⟩] }, rcd := { phase := .armed } },
      calm_of (by decide +kernel), by decide +kernel⟩,
    ⟨⟨5, 9, 0x603, 1, 0, 3⟩, [], 4,
      { (running.set1 (R.REC_TRIGSRC_TEN 0)).set1 (R.REC_TRIGSRC_SRCANY 0) with log := { running.log with queue := [⟨5, 9, 0x603, 1, 0, 3⟩] }, rcd := { phase := .post 4 } },
      calm_of (by decide +kernel), by decide +kernel⟩,
    ⟨⟨1, 2, 3, 4, 5, 6⟩, List.replicate 63 ⟨1, 2, 3, 4, 5, 6⟩,
      { running with log := { running.log with queue := List.replicate 64 ⟨1, 2, 3, 4, 5, 6⟩, mark := 64, lostPend := 9 } },
      calm_of (by decide +kernel), by decide +kernel⟩,
    ⟨{ (running.wr R.REC_CFG_SEGS 3).wr R.REC_STAT_ARMSEG 7 with rcd := { phase := .post 0, complete := [0] } },
      calm_of (by decide +kernel), by decide +kernel⟩,
    ⟨1, [0], { (running.wr R.REC_CFG_SEGS 1).set1 R.REC_CFG_OVWR with rcd := { phase := .post 0, complete := [1] } },
      calm_of (by decide +kernel), by decide +kernel⟩,
    ⟨1, [0], { running.wr R.REC_CFG_SEGS 1 with rcd := { phase := .post 0, complete := [1] } }, calm_of (by decide +kernel),
      by decide +kernel⟩,
    ⟨{ (running.wr R.LOG_TAIL_TAILSEL 3).writeMem logRing 0xFF334455 with log := { running.log with written := 2, mirrored := 511 } },
      calm_of (by decide +kernel), by decide +kernel⟩,
    ⟨running, calm_of (by decide +kernel), by decide +kernel⟩,
    ⟨{ running with variant := .S }, calm_of (by decide +kernel)⟩,
    ⟨1, 0x40600000, 0x10000, 0xFFFC, running.writeMem 0x4060FFFC 5, calm_of (by decide +kernel), by decide +kernel⟩,
    ⟨6, .B, running, runningStandby_of (by decide +kernel), by decide +kernel⟩,
    ⟨7, .B, 0x3FFFC, running, calm_of (by decide +kernel), by decide +kernel⟩⟩

theorem witness_LostRecordsReported :
    (∃ (s : State), s.log.full = true)
    ∧ (∃ (r : LogRec) (q : List LogRec) (s : State), Calm s ∧ s.log.queue = r :: q ∧ q.length < 64 ∧ triggersOf s r = []
        ∧ s.log.lostPend ≠ 0)
    ∧ (∃ (s : State), s.log.lostPend = 0)
    ∧ (∃ (s : State), s.log.full = false) :=
  ⟨⟨{ running with log := { running.log with queue := List.replicate 64 ⟨1, 2, 3, 4, 5, 6⟩ } }, by decide +kernel⟩,
    ⟨⟨1, 2, 3, 4, 5, 6⟩, List.replicate 63 ⟨1, 2, 3, 4, 5, 6⟩,
      { running with log := { running.log with queue := List.replicate 64 ⟨1, 2, 3, 4, 5, 6⟩, mark := 64, lostPend := 9 } },
      calm_of (by decide +kernel), by decide +kernel⟩,
    ⟨running, by decide +kernel⟩,
    ⟨{ running with log := { running.log with queue := List.replicate 63 ⟨1, 2, 3, 4, 5, 6⟩ } }, by decide +kernel⟩⟩

theorem witness_StepKeepsCanonical : ∃ s t : State, Canonical s ∧ step s = .next t :=
  ⟨{ running with pending := [.brownOut] }, _, canonical_of (by decide +kernel), rfl⟩

theorem witness_StepTakesOne : ∃ s t : State, step s = .next t := ⟨{ running with pending := [.stepGo, .brownOut] }, _, rfl⟩

theorem witness_FusesStayBlown : ∃ s t : State, s.trust.ownedFuse = true ∧ OneOwner s.trust
    ∧ s.pending.head?.all (fun i => match i with | .ownerXfer fuse => !cutShort fuse | _ => true) = true ∧ step s = .next t :=
  ⟨{ requesting 0x50 (List.replicate 48 1) running with pending := [.ownerXfer .done] }, _, by decide +kernel,
    by unfold OneOwner; decide +kernel, by decide +kernel, rfl⟩

theorem witness_PartsFitKept : ∃ s t : State, Fits s ∧ step s = .next t :=
  ⟨{ running with pending := [.brownOut] }, _,
    fits_of (by unfold WheelFits; decide +kernel) (by decide +kernel), rfl⟩

/-! ## Well-formedness refuses an ill-formed term of each kind -/

theorem test_wf_frame : Instr.wf (.canFrameRx 5 ⟨0x7FF, false, true, false, 15, 0⟩ 0) = true := by decide +kernel
/-- An 11-bit identifier with a twelfth bit. -/
theorem test_wf_identifier : Instr.wf (.canFrameRx 5 ⟨0x800, false, true, false, 15, 0⟩ 0) = false := by decide +kernel
/-- A remote request in an FD frame. -/
theorem test_wf_remote : Instr.wf (.canFrameRx 5 ⟨0, true, true, true, 8, 0⟩ 0) = false := by decide +kernel
/-- A second byte in a frame of one. -/
theorem test_wf_data : Instr.wf (.canFrameRx 5 ⟨0, true, false, false, 1, 0x100⟩ 0) = false := by decide +kernel
theorem test_wf_ethernet : Instr.wf (.ethFrameRx 1 (List.replicate 13 0) false 0 .nothing) = false := by decide +kernel
theorem test_wf_violation : Instr.wf (.firewallViolation 10 0 ⟨true, 0⟩) = false := by decide +kernel
theorem test_wf_write : Instr.wf (.registerWrite 37 0 ⟨.word, 0, 0⟩) = false := by decide +kernel
theorem test_wf_access : Instr.wf (.busErrorAccess 10 0 .byte true) = false := by decide +kernel
theorem test_wf_loss : Instr.wf (.lossOfLock 0) = false := by decide +kernel
theorem test_wf_claim : Instr.wf (.ownershipClaim false false) = false := by decide +kernel
theorem test_wf_scrub : Instr.wf (.brineScrub 0 2 .clean) = false := by decide +kernel
theorem test_wf_sealed : Instr.wf (.rindSealwr 0 (List.replicate 253 0)) = false := by decide +kernel

/-! ## Values the spec states -/

/-- The check value of R47. -/
theorem test_crc32c : crc32c [0x31, 0x32, 0x33, 0x34, 0x35, 0x36, 0x37, 0x38, 0x39] = 0xE3069283 := by decide +kernel

/-- The check value of R302. -/
theorem test_crc16 : crc16 [0x31, 0x32, 0x33, 0x34, 0x35, 0x36, 0x37, 0x38, 0x39] = 0x29B1 := by decide +kernel

/-- The addresses of the worked example of 00_scope.md, and of P1's state. -/
theorem test_addresses : (R.PORT_CFG_TYPE .B 4).addr = 0x64001000 ∧ R.PORT_STATE .A 1 = 0x54000408
    ∧ R.SLICE_DATA .A 42 / 64 * 64 = 0x54100A80 ∧ R.SLICE_DATA .B 42 = R.SLICE_DATA .A 42 + 0x10000000 := by decide +kernel

/-- The left motor's ports of the worked example after R24. -/
theorem test_left_motor :
    (((((running.wr (R.PORT_CFG_TYPE .A 0) 2).wr (R.PORT_CFG_LINK .A 0) 1).set1 (R.PORT_CFG_LNK_EN .A 0)).wr
      (R.PORT_CFG_FAULT_LIMIT .A 0) 3).regs.get (R.PORT_CFG .A 0)) = 0x00030092 := by decide +kernel

/-- THF of the worked example after R211. -/
theorem test_threshold : thfOf false 2500 20480 = 29998 := by decide +kernel

/-- The chopper's gain word of the worked example after R145: 20,972 * 2^-6, times -25, rounds to -8,192. -/
theorem test_gain : gainMul 0x001A51EC (-25) = -8192 := by decide +kernel

/-- DEVICE_ID of M72-S (R2). -/
theorem test_device_id : readReg { State.reset with variant := .S } R.DEVICE_ID = 0x0B720004 := by decide +kernel

/-- Subnormals flush to zero with their sign, and a fused multiply-add rounds once (R103). -/
theorem test_binary32 : F32.add 0x80000001 0x80000000 = 0x80000000 ∧ F32.fma 0x3F800001 0x3F800001 0xBF800002 = 0x28800000 := by
  decide +kernel

/-! ## Single steps -/

/-- The state that a step leaves, of a command at the front of an otherwise empty queue. -/
def after (c : Instr) (s : State) : State :=
  match step { s with pending := [c] } with
  | .next t => t
  | _ => s

/-- A table word spells no command. -/
theorem test_no_word : decodeTableWord 8 0 = none := rfl

/-- R249: at a tie Vat A becomes ACTIVE. -/
theorem test_claim_tie : (after (.ownershipClaim true true) unowned).owner = some .A := by decide +kernel

/-- R356: REF_OK clears with the loss of REFCLK. -/
theorem test_refclk_lost : (after .refclkLost running).is R.CLK_STAT_REF_OK = false := by decide +kernel

/-- R182: a count up from the last count of a revolution wraps to 0. -/
theorem test_encoder_up : (nth (after (.encoderEdge .A 3 .up) (modPos ((running.set1 (R.POS_CFG_EN .A 3)).wr
    (R.POS_COUNTS_COUNTS .A 3) 4096) .A 3 (fun q => { q with cnt := 4095 }))).vatA.pos 3 {}).cnt = 0 := by decide +kernel

/-- R267: a rail fault stops the device. -/
theorem test_rail_fault : (after .railFault running).dev = .safeStop
    ∧ (after .railFault running).is R.HARP_STAT_GATE = false := by decide +kernel

/-- R221, R237: a hard trip of a running port puts its fault pattern at the pins. -/
theorem test_hard_trip : portState (after (.tripRegistration .A 7) (tripReady .A 7 7 (active .A 7 RUN))) .A 7 = FAULTPAT := by
  decide +kernel

/-- R335: a step is not applied while NT_SYNC is 1. -/
theorem test_step_refused : (after .stepGo ((running.set1 R.NT_STAT_SYNC).wr R.NT_STEP_LO_VAL 5)).nt = running.nt
    ∧ (after .stepGo (running.wr R.NT_STEP_LO_VAL 5)).nt = running.nt + 5 := by decide +kernel

/-- R10: a W1C bit written with 1 clears, the other flags of the register stay. -/
theorem test_w1c : (after (.registerWrite 8 (BitVec.ofNat 32 R.CLK_FLAGS) ⟨.word, 1, 0⟩) (running.wr (whole R.CLK_FLAGS) 0x3)).rd
    (whole R.CLK_FLAGS) = 2 := by decide +kernel

/-- R310: a CAN frame of an entry becomes the writer of its signal. -/
theorem test_can_frame : ((after (.canFrameRx 5 ⟨0x1ABCDE, true, true, false, 8, 0x0000000000FFFF07⟩ 9)
    (onCan [anEntry false 10])).ord.writers.map (fun w => (w.signal, w.value))) = [(0x41, 7), (0x1000, -1)] := by decide +kernel

/-- R302: a frame with a bad CRC gets status 2. -/
theorem test_port_bad_crc : ((after (.rindPortFrameError [0x7E, 0x01, 0x01, 0x00, 0x00, 0x00]) metered).rind.tx.drop 4).take 1 = [2] := by decide +kernel

/-- R397: outside a session an OWNED device answers DECOMMISSION with STATUS 3, in a response of CMD 0xD1. -/
theorem test_no_session : (after .decommission (modTrust (requesting 0x51 [] running) (fun t => { t with
    request := some ⟨0x51, 0, [], false⟩ }))).trust.response = [0, 0, 0xD1, 3, 0, 0, 0, 0, 0, 0, 0, 0] := by decide +kernel

/-! ## The pads -/

/-- Output 3 of the Harp path with its feedback in use, and the levels of the outputs. -/
def feedbackState (levels : Nat) : State := (running.set1 (R.HARP_OUT_FBEN 3)).wr R.HARP_STAT_OUT levels

/-- Whatever the pin reads, one level of the output differs from it. -/
theorem witness_HarpFeedback : ∃ (n : Fin 4) (s : State), Calm s ∧ s.is R.SAFE_STAT_SS1_ACT = false ∧ s.dev.operating = true
    ∧ feedbackDiffers s n = true := by
  have ends : ∀ l b, (feedbackState l).rdBit R.HARP_STAT_OUT 3 = b → (feedbackState l).is (R.HARP_OUT_FBEN 3) = true →
      (feedbackState l).rdBit R.HARP_STAT_TP 3 = false → (feedbackState l).is (R.HARP_OUT_FBINV 3) = false →
      Config.fbPin 3 running.time.vt = !b → feedbackDiffers (feedbackState l) 3 = true := by
    intro l b ho he ht hi hp
    have hv : (feedbackState l).time.vt = running.time.vt := rfl
    cases b <;> simp [feedbackDiffers, ho, he, ht, hi, hv, hp]
  cases h : Config.fbPin 3 running.time.vt with
  | true =>
    exact ⟨3, feedbackState 0, calm_of (by decide +kernel), by decide +kernel, by decide +kernel,
      ends 0 false (by decide +kernel) (by decide +kernel) (by decide +kernel) (by decide +kernel) h⟩
  | false =>
    exact ⟨3, feedbackState 8, calm_of (by decide +kernel), by decide +kernel, by decide +kernel,
      ends 8 true (by decide +kernel) (by decide +kernel) (by decide +kernel) (by decide +kernel) h⟩

/-- The worked example of 21_pins_and_package.md: PULSE17, EN17 and DST17 at H28, H27 and H26, MDAT37 at AG16. -/
theorem test_ht230_balls : [ballAt 8 28, ballAt 8 27, ballAt 8 26, ballAt 26 16] =
    [.sig (.pulse 17), .sig (.en 17), .sig (.dst 17), .sig (.mdat 37)] := by decide +kernel

/-- In RMII, TXD2 is driven low and TXC is an input (R441). -/
theorem test_rmii : ethPin ((running.set1 (R.ETH_CFG_IF 1)).set1 (R.ETH_CFG_EN 1)) 1 (.txd 2) = .level false
    ∧ ethRole ((running.set1 (R.ETH_CFG_IF 1)).set1 (R.ETH_CFG_EN 1)) 1 .txc = .refClkIn := by decide +kernel

/-- A flag that the hardware sets in the cycle in which it is written 1 stays set, whoever comes last; a cycle later it clears (R11). -/
theorem test_w1c_kept :
    (landBusWrite (running.set1 R.SAFE_FLAGS_DEMAND_F) 8 R.SAFE_FLAGS 4 0xFFFFFFFF).is R.SAFE_FLAGS_DEMAND_F = true
    ∧ (landBusWrite { running.set1 R.SAFE_FLAGS_DEMAND_F with time := { running.time with vt := 40 } } 8 R.SAFE_FLAGS 4 0xFFFFFFFF).is
      R.SAFE_FLAGS_DEMAND_F = false := by decide +kernel

/-- Of the NT_FREQ writes of one cycle the higher master's stands, in either order (R403). -/
theorem test_higher_master_stands :
    (landBusWrite (landBusWrite running 24 R.NT_FREQ 4 7) 8 R.NT_FREQ 4 9).rd R.NT_FREQ_VAL = 7
    ∧ (landBusWrite (landBusWrite running 8 R.NT_FREQ 4 9) 24 R.NT_FREQ 4 7).rd R.NT_FREQ_VAL = 7 := by decide +kernel

/-! ## Known answers of the algorithms that the spec names -/

/-- SHA-256 and SHA-384 of "abc", the examples of FIPS 180-4. -/
theorem test_sha : beValue (sha256 (ascii "abc")) = 0xBA7816BF8F01CFEA414140DE5DAE2223B00361A396177A9CB410FF61F20015AD
    ∧ beValue (sha384 (ascii "abc")) = 0xCB00753F45A35E8BB5A03D699AC65007272C32AB0EDED1631A8B605A43FF5BED8086072BA1E7CC2358BAECA134C825A7 := by
  decide +kernel

/-- AES-256 of the example vector of FIPS 197, C.3, both ways. -/
theorem test_aes : beValue (aesEncrypt (beBytes 32 0x000102030405060708090A0B0C0D0E0F101112131415161718191A1B1C1D1E1F)
      (beBytes 16 0x00112233445566778899AABBCCDDEEFF)) = 0x8EA2B7CA516745BFEAFC49904B496089
    ∧ beValue (aesDecrypt (beBytes 32 0x000102030405060708090A0B0C0D0E0F101112131415161718191A1B1C1D1E1F)
      (beBytes 16 0x8EA2B7CA516745BFEAFC49904B496089)) = 0x00112233445566778899AABBCCDDEEFF := by
  decide +kernel

/-- The GCM tag of the empty message under the zero key (test case 13 of the GCM specification). -/
theorem test_gcm : beValue (gcmTag (beBytes 32 0) (beBytes 12 0) [] []) = 0x530F8AFBC74536B9A963B4F1C4CB738B := by decide +kernel

/-- The fourth multiple of a curve's base point is that of its second doubled. -/
theorem test_curve : p384.affine (p384.times p384.base 4 384) = p384.affine (p384.double (p384.double p384.base)) := by
  decide +kernel
end

/-! SUPPORT. What a command and a step keep: `exec` cites, for each command, the lemma of its meaning (Laws/Keep*.lean), and
`step` adds that the command at the front leaves the queue first, or that an idle cycle passes. -/

namespace Sys2Proof.Machine

open Sys2Proof

/-- Every command keeps what its state had, but for an OWNER_XFER whose last blow is not made (log entry 92). -/
theorem exec_kept {s₀ s t : State} (hs : Kept s₀ s) :
    ∀ c : Instr, (∀ fuse, c = .ownerXfer fuse → cutShort fuse = false) → exec c s = .next t → Kept s₀ t
  | .powerOnReset .., _, e => execPowerOnReset_kept hs e
  | .brownOut, _, e => execBrownOut_kept hs e
  | .resetNAssert, _, e => execResetNAssert_kept hs e
  | .resetNHeld, _, e => execResetNHeld_kept hs e
  | .resetNRelease .., _, e => execResetNRelease_kept hs e
  | .sysreq .., _, e => execSysreq_kept hs e
  | .vatreq .., _, e => execVatreq_kept hs e
  | .vatWatchdogExpiry .., _, e => execVatWatchdogExpiry_kept hs e
  | .criticalDoubleBitError .., _, e => execCriticalDoubleBitError_kept hs e
  | .configParityError .., _, e => execConfigParityError_kept hs e
  | .checkerSelfTest .., _, e => execCheckerSelfTest_kept hs e
  | .domainRelease .., _, e => execDomainRelease_kept hs e
  | .domainReleaseWithdrawn .., _, e => execDomainReleaseWithdrawn_kept hs e
  | .sramCheckComplete .., _, e => execSramCheckComplete_kept hs e
  | .wheelLoaded .., _, e => execWheelLoaded_kept hs e
  | .startFailsClear, _, e => execStartFailsClear_kept hs e
  | .refclkPresent .., _, e => execRefclkPresent_kept hs e
  | .refclkLost, _, e => execRefclkLost_kept hs e
  | .phaseSlewComplete .., _, e => execPhaseSlewComplete_kept hs e
  | .lossOfLock .., _, e => execLossOfLock_kept hs e
  | .loopGood .., _, e => execLoopGood_kept hs e
  | .roCalibration .., _, e => execRoCalibration_kept hs e
  | .rampProfileStep, _, e => execRampProfileStep_kept hs e
  | .delayLineRecal v leg, _, e => execDelayLineRecal_kept (_v := v) (_leg := leg) hs e
  | .sliceOutput .., _, e => execSliceOutput_kept hs e
  | .frozenSet .., _, e => execFrozenSet_kept hs e
  | .freshnessStale .., _, e => execFreshnessStale_kept hs e
  | .staleClear .., _, e => execStaleClear_kept hs e
  | .syncResetEffect .., _, e => execSyncResetEffect_kept hs e
  | .sgrpSyncGo .., _, e => execSgrpSyncGo_kept hs e
  | .groupClockLoss .., _, e => execGroupClockLoss_kept hs e
  | .groupClockReturn .., _, e => execGroupClockReturn_kept hs e
  | .rotationStep .., _, e => execRotationStep_kept hs e
  | .rotationCompare .., _, e => execRotationCompare_kept hs e
  | .sliceTestComplete .., _, e => execSliceTestComplete_kept hs e
  | .gcalWindow, _, e => execGcalWindow_kept hs e
  | .auxFrameComplete .., _, e => execAuxFrameComplete_kept hs e
  | .auxkDataRead .., _, e => execAuxkDataRead_kept hs e
  | .injectedTrigger .., _, e => execInjectedTrigger_kept hs e
  | .auxAgeLimit .., _, e => execAuxAgeLimit_kept hs e
  | .portTick .., _, e => execPortTick_kept hs e
  | .arrivalTimeout .., _, e => execArrivalTimeout_kept hs e
  | .evaluationEnd .., _, e => execEvaluationEnd_kept hs e
  | .commitComplete .., _, e => execCommitComplete_kept hs e
  | .deadlineAbandon .., _, e => execDeadlineAbandon_kept hs e
  | .wheyDoubleBitError .., _, e => execWheyDoubleBitError_kept hs e
  | .selfTestDue .., _, e => execSelfTestDue_kept hs e
  | .selfTestComplete .., _, e => execSelfTestComplete_kept hs e
  | .selfTestLate .., _, e => execSelfTestLate_kept hs e
  | .waddrWrite .., _, e => execWaddrWrite_kept hs e
  | .reload .., _, e => execReload_kept hs e
  | .tripRegistration .., _, e => execTripRegistration_kept hs e
  | .softTripResolution .., _, e => execSoftTripResolution_kept hs e
  | .dstFrame .., _, e => execDstFrame_kept hs e
  | .faultBreak .., _, e => execFaultBreak_kept hs e
  | .dstLineError .., _, e => execDstLineError_kept hs e
  | .driverLinkLoss .., _, e => execDriverLinkLoss_kept hs e
  | .asctExpiry .., _, e => execAsctExpiry_kept hs e
  | .encoderEdge .., _, e => execEncoderEdge_kept hs e
  | .ssiFrameComplete .., _, e => execSsiFrameComplete_kept hs e
  | .setpEdge .., _, e => execSetpEdge_kept hs e
  | .openLoopTimeout .., _, e => execOpenLoopTimeout_kept hs e
  | .openLoopRecovery .., _, e => execOpenLoopRecovery_kept hs e
  | .observerRideTimeout .., _, e => execObserverRideTimeout_kept hs e
  | .observerRideRecovery .., _, e => execObserverRideRecovery_kept hs e
  | .zeroEffortTimeout .., _, e => execZeroEffortTimeout_kept hs e
  | .restorationBroadcast .., _, e => execRestorationBroadcast_kept hs e
  | .restorationLoss .., _, e => execRestorationLoss_kept hs e
  | .heartbeatLost .., _, e => execHeartbeatLost_kept hs e
  | .vatFaultFlag .., _, e => execVatFaultFlag_kept hs e
  | .compareMismatch .., _, e => execCompareMismatch_kept hs e
  | .attributionWindowEnd, _, e => execAttributionWindowEnd_kept hs e
  | .ownershipClaim .., _, e => execOwnershipClaim_kept hs e
  | .padMismatch .., _, e => execPadMismatch_kept hs e
  | .legHandover .., _, e => execLegHandover_kept hs e
  | .vatRelease .., _, e => execVatRelease_kept hs e
  | .joinCopyComplete .., _, e => execJoinCopyComplete_kept hs e
  | .rejoinTimeout .., _, e => execRejoinTimeout_kept hs e
  | .drillCheckWindowEnd, _, e => execDrillCheckWindowEnd_kept hs e
  | .unattrWindowExpiry, _, e => execUnattrWindowExpiry_kept hs e
  | .harpInDemand .., _, e => execHarpInDemand_kept hs e
  | .harpInRelease .., _, e => execHarpInRelease_kept hs e
  | .discrepancyTimeout .., _, e => execDiscrepancyTimeout_kept hs e
  | .railFault, _, e => execRailFault_kept hs e
  | .ss1Timeout, _, e => execSs1Timeout_kept hs e
  | .harpOutOffDelay .., _, e => execHarpOutOffDelay_kept hs e
  | .testPulseDue .., _, e => execTestPulseDue_kept hs e
  | .testPulseEnd .., _, e => execTestPulseEnd_kept hs e
  | .feedbackError .., _, e => execFeedbackError_kept hs e
  | .rideExpiry, _, e => execRideExpiry_kept hs e
  | .orderResolution, _, e => execOrderResolution_kept hs e
  | .rindReset .., _, e => execRindReset_kept hs e
  | .rindBrownoutWarning, _, e => execRindBrownoutWarning_kept hs e
  | .commitSlot .., _, e => execCommitSlot_kept hs e
  | .rindPublication .., _, e => execRindPublication_kept hs e
  | .rindInputStale .., _, e => execRindInputStale_kept hs e
  | .rindIntegrityCheck .., _, e => execRindIntegrityCheck_kept hs e
  | .sealAccept, _, e => execSealAccept_kept hs e
  | .energyImpulse, _, e => execEnergyImpulse_kept hs e
  | .rindRead .., _, e => execRindRead_kept hs e
  | .rindRecord .., _, e => execRindRecord_kept hs e
  | .rindAuditrec .., _, e => execRindAuditrec_kept hs e
  | .rindSealwr .., _, e => execRindSealwr_kept hs e
  | .rindMtset .., _, e => execRindMtset_kept hs e
  | .rindMtcorr .., _, e => execRindMtcorr_kept hs e
  | .mailboxPoll, _, e => execMailboxPoll_kept hs e
  | .tapSample .., _, e => execTapSample_kept hs e
  | .rindDown .., _, e => execRindDown_kept hs e
  | .canFrameRx .., _, e => execCanFrameRx_kept hs e
  | .rxTimeout .., _, e => execRxTimeout_kept hs e
  | .periodicTxDue .., _, e => execPeriodicTxDue_kept hs e
  | .eventTxCheck, _, e => execEventTxCheck_kept hs e
  | .canTxComplete .., _, e => execCanTxComplete_kept hs e
  | .busOff .., _, e => execBusOff_kept hs e
  | .busOffRecovery .., _, e => execBusOffRecovery_kept hs e
  | .entryMove .., _, e => execEntryMove_kept hs e
  | .lonelyProbe .., _, e => execLonelyProbe_kept hs e
  | .ethFrameRx .., _, e => execEthFrameRx_kept hs e
  | .ethLinkLoss .., _, e => execEthLinkLoss_kept hs e
  | .ntSyncLoss, _, e => execNtSyncLoss_kept hs e
  | .stepGo, _, e => execStepGo_kept hs e
  | .launchTimeDue .., _, e => execLaunchTimeDue_kept hs e
  | .ctsReq, _, e => execCtsReq_kept hs e
  | .ppsInEdge .., _, e => execPpsInEdge_kept hs e
  | .ppsOutSecond, _, e => execPpsOutSecond_kept hs e
  | .internalCrossCapture, _, e => execInternalCrossCapture_kept hs e
  | .serviceSegment .., _, e => execServiceSegment_kept hs e
  | .serviceSegmentTimeout, _, e => execServiceSegmentTimeout_kept hs e
  | .hello, _, e => execHello_kept hs e
  | .auth, _, e => execAuth_kept hs e
  | .endSession, _, e => execEndSession_kept hs e
  | .sessionIdleTimeout, _, e => execSessionIdleTimeout_kept hs e
  | .read, _, e => execRead_kept hs e
  | .wheySelect, _, e => execWheySelect_kept hs e
  | .order, _, e => execOrder_kept hs e
  | .senseSync, _, e => execSenseSync_kept hs e
  | .handoverDrill, _, e => execHandoverDrill_kept hs e
  | .vatReset, _, e => execVatReset_kept hs e
  | .sysReset, _, e => execSysReset_kept hs e
  | .safetyClear, _, e => execSafetyClear_kept hs e
  | .canFlush .., _, e => execCanFlush_kept hs e
  | .recoveryExit, _, e => execRecoveryExit_kept hs e
  | .wheelErase, _, e => execWheelErase_kept hs e
  | .wheelWrite .., _, e => execWheelWrite_kept hs e
  | .safeConfirm, _, e => execSafeConfirm_kept hs e
  | .mtCorrect, _, e => execMtCorrect_kept hs e
  | .patchWrite, _, e => execPatchWrite_kept hs e
  | .patchErase, _, e => execPatchErase_kept hs e
  | .certRevoke, _, e => execCertRevoke_kept hs e
  | .debugUnlock, _, e => execDebugUnlock_kept hs e
  | .debugLock, _, e => execDebugLock_kept hs e
  | .ownerXfer fuse, hc, e => execOwnerXfer_kept hs (hc fuse rfl) e
  | .decommission, _, e => execDecommission_kept hs e
  | .jtagAccess .., _, e => execJtagAccess_kept hs e
  | .firewallViolation .., _, e => execFirewallViolation_kept hs e
  | .busErrorAccess .., _, e => execBusErrorAccess_kept hs e
  | .registerWrite .., _, e => execRegisterWrite_kept hs e
  | .logRecordWrite, _, e => execLogRecordWrite_kept hs e
  | .captureComplete, _, e => execCaptureComplete_kept hs e
  | .tailMirror, _, e => execTailMirror_kept hs e
  | .brineScrub .., _, e => execBrineScrub_kept hs e
  | .trimStagingComplete .., _, e => execTrimStagingComplete_kept hs e
  | .xspiResetRelease, _, e => execXspiResetRelease_kept hs e
  | .tripLevelRelease .., _, e => execTripLevelRelease_kept hs e
  | .generatorEdge .., _, e => execGeneratorEdge_kept hs e
  | .blankingWindowClose .., _, e => execBlankingWindowClose_kept hs e
  | .faultBreakEnd .., _, e => execFaultBreakEnd_kept hs e
  | .padRecurrenceWindowEnd, _, e => execPadRecurrenceWindowEnd_kept hs e
  | .canErrorDetected .., _, e => execCanErrorDetected_kept hs e
  | .ethLinkUp .., _, e => execEthLinkUp_kept hs e
  | .announceReceiptTimeout .., _, e => execAnnounceReceiptTimeout_kept hs e
  | .ptpMessageInterval .., _, e => execPtpMessageInterval_kept hs e
  | .addressAgeing .., _, e => execAddressAgeing_kept hs e
  | .sealRelease, _, e => execSealRelease_kept hs e
  | .rindInputReturn .., _, e => execRindInputReturn_kept hs e
  | .rindPortFrameError .., _, e => execRindPortFrameError_kept hs e
  | .nvStoreRefresh, _, e => execNvStoreRefresh_kept hs e

/-- Every command keeps what its state had, a transfer of ownership cut short or not. -/
theorem exec_blown {s₀ s t : State} (hs : Kept s₀ s) (c : Instr) (e : exec c s = .next t) : KeptBlown s₀ t := by
  by_cases hx : ∃ fuse, c = .ownerXfer fuse
  case pos =>
    obtain ⟨fuse, rfl⟩ := hx
    exact execOwnerXfer_blown hs.blown e
  case neg => exact (exec_kept hs c (fun fuse hc => absurd ⟨fuse, hc⟩ hx) e).blown

/-- What a step keeps, of the state whose queue has lost its front. -/
theorem step_blown {s t : State} (h : step s = .next t) : KeptBlown { s with pending := s.pending.tail } t := by
  cases hp : s.pending with
  | nil =>
    have hs : { s with pending := [] } = s := by rw [← hp]
    simp only [step, hp, Host.Outcome.next.injEq] at h
    rw [List.tail_nil, hs, ← h]
    exact (idle_kept (Kept.refl s)).blown
  | cons c rest =>
    simp only [step, hp] at h
    exact exec_blown (Kept.refl _) c h

/-- Settles O5: a step keeps the queue less its front, and the variant (`step_blown`). -/
theorem stepTakesOne : Obligations.StepTakesOne :=
  fun _ _ h => ⟨(step_blown h).pend, (step_blown h).variant⟩

end Sys2Proof.Machine

namespace Sys2Proof.Machine

open Sys2Proof

/-! # Every part has its place (O20)

`Fits` speaks of the two vats and of the wheel's graphs alone. So whatever changes another part of the state keeps it
(`Fits.update`); what changes a port, a leg, a channel and so on keeps the lists' lengths (`Fits.modPort` and the like); and
two things are left that need an argument: an evaluation's results name legs, ports and channel codes that exist
(`workFits_evaluate`), and the wheel that the Starter accepts has PREDICT records of 16 entries at most
(`chooseSlot_predsFit`, by check 14 of R41). Each operation of the model then has one lemma `Fits.<operation>`, whose proof
follows the operation's own text: `h.wr.set1.event` is the lemma of `((s.wr …).set1 …).event …`. -/

/-! ## What fits, part by part -/

/-- A shadow write names a leg or a port that exists. -/
def writeFits : ShadowWrite → Bool
  | .duty n _ => decide (n < 32)
  | .period p _ => decide (p < 8)

/-- What an evaluation has written so far names legs, ports and channel codes that have a place. -/
def workFits (w : Work) : Bool :=
  w.writes.all writeFits && w.clamped.all (fun p => decide (p < 8)) && w.moves.all (fun m => decide (m.1 < 128))

/-- An engine has its four slots, and what they hold fits. -/
def engFits (e : EngSt) : Bool := e.slots.length == 4 && e.slots.all graphFits

theorem evalFits_iff {e : EvalSt} : evalFits e = true ↔
    e.writes.all writeFits = true ∧ e.clamped.all (fun p => decide (p < 8)) = true
      ∧ e.moves.all (fun m => decide (m.1 < 128)) = true := by
  change (e.writes.all writeFits && e.clamped.all _ && e.moves.all _) = true ↔ _
  rw [Bool.and_eq_true, Bool.and_eq_true, and_assoc]

theorem vatFits_iff {x : VatSt} : vatFits x = true ↔
    x.ports.length = 8 ∧ x.legs.length = 32 ∧ x.dlrs.length = 32 ∧ x.chans.length = 64 ∧ x.groups.length = 8
      ∧ x.aux.length = 4 ∧ x.pos.length = 8 ∧ x.setps.length = 8 ∧ x.guards.length = 8 ∧ x.engines.length = 8
      ∧ x.engines.all engFits = true := by
  simp [vatFits, engFits, and_assoc]

@[simp] theorem length_modNth {α : Type} (l : List α) (i : Nat) (f : α → α) : (modNth l i f).length = l.length :=
  List.length_modify f l i

/-- Changing one element keeps what every element has, where the change does. -/
theorem all_modNth {α : Type} (q : α → Bool) {f : α → α} (hf : ∀ {a}, q a = true → q (f a) = true) {l : List α} {i : Nat}
    (h : l.all q = true) : (modNth l i f).all q = true := by
  induction l generalizing i with
  | nil => simp [modNth]
  | cons a l ih =>
    simp only [List.all_cons, Bool.and_eq_true] at h
    cases i with
    | zero => simpa [modNth] using ⟨hf h.1, List.all_eq_true.mp h.2⟩
    | succ i => simpa [modNth, h.1] using List.all_eq_true.mp (ih (i := i) h.2)

theorem all_modFirst {q : EvalSt → Bool} {r : EvalSt → Bool} {f : EvalSt → EvalSt} {es : List EvalSt} (h : es.all q = true)
    (hf : ∀ {e}, q e = true → q (f e) = true := by exact id) : (modFirst r f es).all q = true := by
  induction es with
  | nil => rfl
  | cons e es ih =>
    simp only [List.all_cons, Bool.and_eq_true] at h
    rw [modFirst]
    split
    · simpa [hf h.1] using List.all_eq_true.mp h.2
    · simpa [h.1] using List.all_eq_true.mp (ih h.2)

theorem all_dropFirst {q : EvalSt → Bool} {r : EvalSt → Bool} {es : List EvalSt} (h : es.all q = true) :
    (dropFirst r es).all q = true := by
  induction es with
  | nil => rfl
  | cons e es ih =>
    simp only [List.all_cons, Bool.and_eq_true] at h
    rw [dropFirst]
    split
    · exact h.2
    · simpa [h.1] using List.all_eq_true.mp (ih h.2)

theorem all_concat {q : EvalSt → Bool} {es : List EvalSt} {e : EvalSt} (h : es.all q = true) (he : q e = true) :
    (es ++ [e]).all q = true := by
  simp only [List.all_append, List.all_cons, List.all_nil, h, he, Bool.and_self]

theorem all_map {q : EvalSt → Bool} {f : EvalSt → EvalSt} {es : List EvalSt} (h : es.all q = true)
    (hf : ∀ {e}, q e = true → q (f e) = true := by exact id) : (es.map f).all q = true := by
  simp only [List.all_map, List.all_eq_true, Function.comp_apply] at h ⊢
  exact fun e he => hf (h e he)

theorem graphFits_of_evals {g : GraphSt} {f : List EvalSt → List EvalSt}
    (hf : ∀ {es}, es.all evalFits = true → (f es).all evalFits = true) (h : graphFits g = true) :
    graphFits { g with evals := f g.evals } = true := by
  simp only [graphFits, Bool.and_eq_true] at h ⊢
  exact ⟨h.1, hf h.2⟩

/-- A slot without evaluations fits where its PREDICT entries do. -/
theorem graphFits_of_noEvals {g : GraphSt} (h : graphFits g = true) : graphFits { g with evals := [] } = true :=
  graphFits_of_evals (f := fun _ => []) (fun _ => rfl) h

theorem engFits_of_slot {e : EngSt} {k : Nat} {f : GraphSt → GraphSt} (hf : ∀ {g}, graphFits g = true → graphFits (f g) = true)
    (h : engFits e = true) : engFits { e with slots := modNth e.slots k f } = true := by
  simp only [engFits, Bool.and_eq_true, length_modNth] at h ⊢
  exact ⟨h.1, all_modNth graphFits hf h.2⟩

theorem vatFits_of_engine {x : VatSt} {c : Nat} {f : EngSt → EngSt} (hf : ∀ {e}, engFits e = true → engFits (f e) = true)
    (h : vatFits x = true) : vatFits { x with engines := modNth x.engines c f } = true := by
  simp only [vatFits_iff, length_modNth] at h ⊢
  obtain ⟨ports, legs, dlrs, chans, groups, aux, pos, setps, guards, engines, each⟩ := h
  exact ⟨ports, legs, dlrs, chans, groups, aux, pos, setps, guards, engines, all_modNth engFits hf each⟩

/-! ## What an evaluation writes (R117, R120, R211) -/

section

variable {x : EvCtx} {w : Work} {i : Nat} {d : InstDef}

theorem workFits_iff : workFits w = true ↔
    w.writes.all writeFits = true ∧ w.clamped.all (fun p => decide (p < 8)) = true
      ∧ w.moves.all (fun m => decide (m.1 < 128)) = true := by
  rw [workFits, Bool.and_eq_true, Bool.and_eq_true, and_assoc]

theorem workFits_ite {q : Prop} {_ : Decidable q} {u : Work} (hw : workFits w = true) (hu : workFits u = true) :
    workFits (if q then w else u) = true := by
  split <;> assumption

theorem workFits_puts (h : workFits w = true) {o : Nat} {ys : List Word} : workFits (w.puts o ys) = true := by
  induction ys generalizing w o with
  | nil => exact h
  | cons y ys ih => exact ih (w := w.put o y) h

/-- Results of one block go into words, VALID bits and seen bits only. -/
theorem workFits_finish (h : workFits w = true) {st outs : List Word} {ok : List Bool} {seen : Bool} :
    workFits (finish x w i d st outs ok seen) = true :=
  workFits_puts (workFits_puts h)

theorem workFits_hold (h : workFits w = true) {st prev : List Word} {seen : Bool} :
    workFits (hold x w i d st prev seen) = true := workFits_finish h

theorem workFits_conclude (h : workFits w = true) {old prev st outs : List Word} {seen0 seen : Bool} :
    workFits (conclude x w i d old prev st outs seen0 seen) = true := by
  unfold conclude
  split
  · exact workFits_finish h
  · exact workFits_hold (seen := seen0) h

theorem workFits_noteStart (h : workFits w = true) {s : State} : workFits (noteStart s x w i d) = true := by
  unfold noteStart
  exact workFits_ite h h

end

/-- A PWMOUT writes the duties of its port's legs and its port's period (R117). -/
theorem pwmWrites_fit (s : State) (v : Vat) (d : InstDef) (ins : List (Word × Bool × Bool)) :
    (pwmWrites s v d ins).1.all writeFits = true ∧ (pwmWrites s v d ins).2.all (fun p => decide (p < 8)) = true := by
  unfold pwmWrites
  extract_lets p duties per r
  have hp : p < 8 := Nat.mod_lt _ (by decide)
  have hduties : duties.all writeFits = true := by
    simp only [duties, List.all_eq_true, List.mem_filterMap]
    rintro y ⟨k, -, hy⟩
    split at hy
    · next n hn =>
      split at hy <;> cases hy
      exact decide_eq_true (slotLeg_lt hn)
    · cases hy
  have hall : ∀ n, (duties ++ [ShadowWrite.period p n]).all writeFits = true := fun n => by
    simp only [List.all_append, hduties, Bool.true_and]
    simpa [writeFits] using hp
  split
  · exact ⟨hduties, rfl⟩
  · split
    · refine ⟨hall _, ?_⟩
      split <;> simp [hp]
    · exact ⟨hall _, rfl⟩

/-- One block adds only writes, clamps and moves that fit: those of a PWMOUT, and a MON's qualifier of 7 bits. -/
theorem workFits_evalInst {s : State} {x : EvCtx} {w : Work} {i : Nat} {d : InstDef} (h : workFits w = true) :
    workFits (evalInst s x w i d) = true := by
  unfold evalInst
  extract_lets +onlyGivenNames nst st prev seen ins vals ok all
  split
  · exact workFits_ite (workFits_finish h) (workFits_hold h)
  · exact workFits_ite (workFits_conclude h) (workFits_hold h)
  · exact workFits_ite (workFits_finish h) (workFits_hold h)
  · exact workFits_ite (workFits_finish h) (workFits_hold h)
  · exact workFits_ite (workFits_conclude h) (workFits_conclude h)
  · exact workFits_ite (workFits_finish h) (workFits_hold h)
  · extract_lets w r
    obtain ⟨hw, hc, hm⟩ := workFits_iff.mp h
    obtain ⟨hrw, hrc⟩ := pwmWrites_fit s x.v d ins
    split
    · split <;> refine workFits_iff.mpr ⟨?_, ?_, hm⟩ <;>
        simp only [orderWrites, List.all_append, r, w, hw, hc, hrw, hrc, Bool.and_self]
    · exact h
  · exact workFits_ite (workFits_conclude h) (workFits_hold h)
  · exact workFits_ite (workFits_conclude h) (workFits_hold (seen := seen) h)
  · extract_lets cfg q mv u n
    have hq : q < 128 := Nat.mod_lt _ (by decide)
    have hu : workFits u = true := by
      obtain ⟨hw, hc, hm⟩ := workFits_iff.mp h
      unfold u
      split
      · exact h
      · refine workFits_iff.mpr ⟨hw, hc, ?_⟩
        simp only [List.all_append, hm, Bool.true_and]
        simpa using hq
    exact workFits_ite (workFits_finish hu) (workFits_hold hu)
  · extract_lets marks pars
    refine workFits_ite ?_ (workFits_hold h)
    split
    · exact workFits_conclude h
    · exact workFits_hold h

theorem workFits_evalAll {s : State} {x : EvCtx} {w : Work} {i : Nat} {ds : List InstDef} (h : workFits w = true) :
    workFits (evalAll s x w i ds) = true := by
  induction ds generalizing w i with
  | nil => exact h
  | cons d ds ih => exact ih (workFits_evalInst (workFits_noteStart h))

theorem workFits_evaluate (s : State) (v : Vat) (c k : Nat) (e : EvalSt) : workFits (evaluate s v c k e) = true :=
  workFits_evalAll rfl

/-! ## What the records of a wheel name (R35, R37, R42) -/

/-- The PREDICT records of a wheel's graphs have 16 entries at most, as check 14 of R41 judges them. -/
def PredsFit (w : WheelImage) : Prop := ∀ g ∈ w.graphs, ∀ r ∈ predictOf w.preds g, r.entries.length ≤ 16

/-- A graph names an engine, a slot, a port and a fallback that exist. -/
def RawGraph.Placed (g : RawGraph) : Prop := g.engine < 8 ∧ g.gslot < 4 ∧ g.port < 8 ∧ g.fallback < 8

theorem parseGraph_placed {r : WheelRec} {g : RawGraph} (h : parseGraph r = some g) : g.Placed := by
  unfold parseGraph at h
  split at h
  · split at h
    · cases h
    · obtain ⟨bs, -, rfl⟩ := Option.map_eq_some_iff.mp h
      exact ⟨getBits_lt .., getBits_lt .., getBits_lt .., getBits_lt ..⟩
  · cases h

theorem mem_of_allSome {α : Type} {l : List (Option α)} {out : List α} (h : allSome l = some out) {a : α} (ha : a ∈ out) :
    some a ∈ l := by
  induction l generalizing out with
  | nil => cases h; cases ha
  | cons o l ih =>
    cases o with
    | none => cases h
    | some b =>
      obtain ⟨rest, hrest, rfl⟩ := Option.map_eq_some_iff.mp h
      cases ha with
      | head => exact .head _
      | tail _ ha => exact .tail _ (ih hrest ha)

/-- Numbering the blocks leaves the places that graphs name. -/
theorem numberGraphs_placed {gs : List RawGraph} (h : ∀ g ∈ gs, g.Placed) : ∀ g ∈ numberGraphs gs, g.Placed := by
  suffices ∀ (l out : List RawGraph), (∀ g ∈ l, g.Placed) → (∀ g ∈ out, g.Placed) →
      ∀ g ∈ l.foldl (fun out g => out ++ [{ g with
        first := ((out.filter (fun q => q.engine == g.engine)).map (fun q => q.blocks.length)).sum }]) out, g.Placed from
    this gs [] h (fun g hg => (nomatch hg))
  intro l
  induction l with
  | nil => exact fun out _ ho => ho
  | cons a l ih =>
    refine fun out hl ho => ih _ (fun g hg => hl g (.tail _ hg)) (fun g hg => ?_)
    rcases List.mem_append.mp hg with hg | hg
    · exact ho g hg
    · rw [List.mem_singleton.mp hg]
      exact hl a (.head _)

theorem imageRest_placed {rs : List WheelRec} {regs : List (Nat × Word)} {w : WheelImage} (h : imageRest rs regs = some w) :
    ∀ g ∈ w.graphs, g.Placed := by
  unfold imageRest at h
  split at h
  · next gs _ _ _ hgs _ _ _ =>
    cases h
    refine numberGraphs_placed (fun g hg => ?_)
    obtain ⟨r, -, hr⟩ := List.mem_map.mp (mem_of_allSome hgs hg)
    exact parseGraph_placed hr
  · cases h

theorem predsFit_of_check14 {t : State} {w : WheelImage} (h : check14 t w = true) : PredsFit w := by
  intro g hg r hr
  simp only [check14, allOf, List.all_cons, Bool.and_eq_true, id_eq] at h
  obtain ⟨-, -, -, hp, -⟩ := h
  simp only [predictsOk, allOf, List.all_cons, Bool.and_eq_true, id_eq, List.all_eq_true] at hp
  have hok : (predictOf w.preds g).all (predictOk t w.tables g) = true := hp.2.2.1 g hg
  rw [Option.mem_def.mp hr, Option.all_some] at hok
  simp only [predictOk, allOf, List.all_cons, Bool.and_eq_true, id_eq, decide_eq_true_eq] at hok
  exact hok.1

/-- A wheel that passes checks 12 to 17 is one whose PREDICT records fit. -/
theorem predsFit_of_recordsCode {s : State} {k : Nat} {rs : List WheelRec} (h : recordsCode s k rs = none) {w : WheelImage}
    (hw : imageRest rs ((imageRegs rs).getD []) = some w) : PredsFit w := by
  unfold recordsCode at h
  extract_lets regs t at h
  rw [show imageRest rs regs = some w from hw] at h
  split at h
  · cases h
  split at h
  · cases h
  split at h
  · cases h
  · next hc => exact predsFit_of_check14 (by simpa using hc)

/-- What the Starter keeps of a graph fits (R42). -/
theorem wheelGraph_fits {t : State} {w : WheelImage} (hw : PredsFit w) {g : RawGraph} (hg : g ∈ w.graphs) (hp : g.Placed) :
    let x := wheelGraph t w g
    x.engine < 8 ∧ x.slot < 4 ∧ x.port < 8 ∧ x.fallback < 8 ∧ x.preds.length ≤ 16 := by
  obtain ⟨he, hs, hport, hf⟩ := hp
  refine ⟨he, hs, hport, hf, ?_⟩
  change (((predictOf w.preds g).map (fun r => r.entries)).getD []).length ≤ 16
  cases hr : predictOf w.preds g with
  | none => exact Nat.zero_le _
  | some r => exact hw g hg r hr

theorem slotGraph_fits {w : WheelGraph} (hw : w.preds.length ≤ 16) (fb : Bool) : graphFits (slotGraph w fb) = true := by
  unfold slotGraph
  split <;> simpa [graphFits] using hw

/-! ## The slot whose wheel is accepted -/

theorem readBytes_congr {s t : State} (hm : t.mem = s.mem) (a n : Nat) : t.readBytes a n = s.readBytes a n := by
  have h : t.readByte = s.readByte := by
    funext i
    unfold State.readByte
    rw [hm]
  unfold State.readBytes
  rw [h]

theorem wheelHeader_congr {s t : State} (hm : t.mem = s.mem) (k : Nat) : wheelHeader t k = wheelHeader s k :=
  readBytes_congr hm (slotBase k) 0x100

theorem storedPayload_congr {s t : State} (hm : t.mem = s.mem) (k : Nat) : storedPayload t k = storedPayload s k := by
  unfold storedPayload
  rw [wheelHeader_congr hm]
  exact readBytes_congr hm _ _

theorem plainPayload_congr {s t : State} (hm : t.mem = s.mem) (hi : t.is R.TRUST_STAT_IDOK = s.is R.TRUST_STAT_IDOK) (k : Nat) :
    plainPayload t k = plainPayload s k := by
  unfold plainPayload
  rw [wheelHeader_congr hm, storedPayload_congr hm, hi]

/-- The records of a slot read from the same flash with the same identity are the same. (The definition is unfolded as a function,
under no argument: with one the kernel would first evaluate the payload.) -/
theorem wheelRecords_congr {s t : State} (hm : t.mem = s.mem) (hi : t.is R.TRUST_STAT_IDOK = s.is R.TRUST_STAT_IDOK) (k : Nat) :
    wheelRecords t k = wheelRecords s k := by
  suffices ∀ f : State → Nat → Option (List WheelRec), f = wheelRecords → f t k = f s k from this _ rfl
  intro f hf
  delta wheelRecords at hf
  rw [hf]
  beta_reduce
  rw [plainPayload_congr hm hi, wheelHeader_congr hm]

/-- A slot without a fault of its wheel has passed checks 12 to 17 (R41). -/
theorem recordsCode_of_wheelCode {s : State} {k : Nat} {r : FlashRead} (h : wheelCode s k r = none) :
    recordsCode s k ((wheelRecords s k).getD []) = none := by
  suffices ∀ f : State → Nat → FlashRead → Option Nat, f = wheelCode → f s k r = none →
      recordsCode s k ((wheelRecords s k).getD []) = none from this _ rfl h
  intro f hf h
  delta wheelCode at hf
  rw [hf] at h
  beta_reduce at h
  generalize imageCode s k r = i at h
  generalize wheelRecords s k = o at h ⊢
  cases i with
  | some c => cases h
  | none =>
    cases o with
    | none => cases h
    | some rs =>
      dsimp only at h
      split at h
      · cases h
      · exact h

/-- Fusing of ownership that does not fail leaves the flash and the registers. -/
theorem fuseOwner_done {s t : State} {k : Nat} {r : FuseResult} (h : fuseOwner s k r = (t, none)) :
    t.mem = s.mem ∧ t.regs = s.regs := by
  unfold fuseOwner at h
  split at h
  · cases h; exact ⟨rfl, rfl⟩
  · split at h
    · cases h
    · extract_lets s₁ s₂ at h
      have hs : s₂.mem = s.mem ∧ s₂.regs = s.regs := by
        unfold s₂
        split <;> exact ⟨rfl, rfl⟩
      clear_value s₂
      split at h
      · cases h
      · split at h
        · cases h; exact hs
        · cases h

/-- The slot that is accepted has passed every check of R41, and its records are the ones checked. -/
theorem judgeSlot_accepts {s t : State} {k : Nat} {r : FlashRead} {fuse : FuseResult} (h : judgeSlot s k r fuse = (t, true)) :
    wheelCode s k r = none ∧ wheelRecords t k = wheelRecords s k := by
  unfold judgeSlot at h
  split at h
  · cases h
  · next hc =>
    split at h
    · cases h
    · next u hu =>
      cases h
      obtain ⟨hm, hr⟩ := fuseOwner_done hu
      have hi : (u.wr (rejField k) 0).rd R.TRUST_STAT_IDOK = s.rd R.TRUST_STAT_IDOK := by
        rw [State.rd_wr_apart _ _ _ _ (by unfold rejField; split <;> decide) (by unfold rejField; split <;> decide)]
        simp only [State.rd, hr]
      exact ⟨hc, wheelRecords_congr (t := u.wr (rejField k) 0) hm (by simp only [State.is, hi]) k⟩

theorem judgeSlots_accepts {reads : Nat → FlashRead} {fuses : Nat → FuseResult} {ks : List Nat} {s t : State} {k : Nat}
    (h : judgeSlots s reads fuses ks = (t, some k)) :
    ∃ u, wheelCode u k (reads k) = none ∧ wheelRecords t k = wheelRecords u k := by
  induction ks generalizing s with
  | nil => cases h
  | cons j ks ih =>
    unfold judgeSlots at h
    split at h
    · next hj =>
      cases h
      exact ⟨s, judgeSlot_accepts hj⟩
    · split at h
      · cases h
      · exact ih h

/-- The PREDICT records of the chosen slot's wheel fit. -/
theorem chooseSlot_predsFit {s t : State} {reads : Nat → FlashRead} {fuses : Nat → FuseResult} {k : Nat}
    (h : chooseSlot s reads fuses = (t, some k)) {w : WheelImage}
    (hw : imageRest ((wheelRecords t k).getD []) ((imageRegs ((wheelRecords t k).getD [])).getD []) = some w) : PredsFit w := by
  obtain ⟨u, hc, hr⟩ := judgeSlots_accepts h
  rw [hr] at hw
  exact predsFit_of_recordsCode (recordsCode_of_wheelCode hc) hw

/-! ## The state -/

section Keeps

variable {s t a b : State} {v w : Vat} {p n c k : Nat}

theorem Fits.vat (h : Fits s) : vatFits (s.vat v) = true :=
  match v with
  | .A => h.vatA
  | .B => h.vatB

/-- Only the two vats and the wheel have parts. -/
theorem Fits.update (h : Fits s) {pending : List Instr} {variant : Variant} {dev : DevState} {regs : RegFile} {mem : List Host.Cell}
    {time : TimeSt} {rst : ResetSt} {clk : ClockSt} {arb : ArbSt} {harp : HarpSt} {ord : OrderSt} {log : LogSt} {trust : TrustSt}
    {rind : RindSt} {nv : NvSt} {rcd : RecSt} {can : CanSt} {net : NetSt} {bus : BusSt} {free : Nat} :
    Fits ⟨pending, variant, dev, regs, mem, time, rst, clk, s.vatA, s.vatB, arb, harp, ord, log, s.whl, trust, rind, nv, rcd, can,
      net, bus, free⟩ := ⟨h.wheel, h.vatA, h.vatB⟩

theorem Fits.ite {q : Prop} {_ : Decidable q} (ha : Fits a) (hb : Fits b) : Fits (if q then a else b) := by
  split <;> assumption

theorem Fits.ite₁ {β : Type} {q : Prop} {_ : Decidable q} {x y : State × β} (hx : Fits x.1) (hy : Fits y.1) :
    Fits (if q then x else y).1 := by
  split <;> assumption

theorem Fits.when {q : Prop} {_ : Decidable q} (h : Fits s) (ha : Fits s → Fits a) : Fits (if q then a else s) := .ite (ha h) h

theorem Fits.unless {q : Prop} {_ : Decidable q} (h : Fits s) (hb : Fits s → Fits b) : Fits (if q then s else b) := .ite h (hb h)

theorem Fits.branch {q : Prop} {_ : Decidable q} (h : Fits s) (ha : Fits s → Fits a) (hb : Fits s → Fits b) :
    Fits (if q then a else b) := .ite (ha h) (hb h)

theorem Fits.seq (ha : Fits a) (hb : Fits a → Fits b) : Fits b := hb ha

theorem Fits.foldl {α : Type} {f : State → α → State} {l : List α} (h : Fits s) (hf : ∀ {t x}, Fits t → Fits (f t x)) :
    Fits (l.foldl f s) := by
  induction l generalizing s with
  | nil => exact h
  | cons x l ih => exact ih (hf h)

theorem Fits.foldr {α : Type} {f : α → State → State} {l : List α} (h : Fits s) (hf : ∀ {t x}, Fits t → Fits (f x t)) :
    Fits (l.foldr f s) := by
  induction l with
  | nil => exact h
  | cons x l ih => exact hf ih

theorem Fits.forN {f : State → Nat → State} (h : Fits s) (hf : ∀ {t x}, Fits t → Fits (f t x)) : Fits (forN n s f) := h.foldl hf

theorem Fits.forVats {f : State → Vat → State} (h : Fits s) (hf : ∀ {t x}, Fits t → Fits (f t x)) : Fits (forVats s f) :=
  h.foldl hf

/-- Each graph of the wheel in turn, which has 16 PREDICT entries at most (R42, R131). -/
theorem Fits.foldGraphs {f : State → WheelGraph → State} (h : Fits s)
    (hf : ∀ {t} {g : WheelGraph}, g.preds.length ≤ 16 → Fits t → Fits (f t g)) : Fits (s.whl.graphs.foldl f s) := by
  suffices ∀ (l : List WheelGraph) (t : State), (∀ g ∈ l, g.preds.length ≤ 16) → Fits t → Fits (l.foldl f t) from
    this _ s (fun g hg => (h.wheel g hg).2.2.2.2) h
  intro l
  induction l with
  | nil => exact fun t _ ht => ht
  | cons g l ih => exact fun t hl ht => ih _ (fun x hx => hl x (.tail _ hx)) (hf (hl g (.head _)) ht)

/-- A graph found in the wheel has 16 PREDICT entries at most. -/
theorem Fits.preds_of_find (h : Fits s) {q : WheelGraph → Bool} {g : WheelGraph} (hg : s.whl.graphs.find? q = some g) :
    g.preds.length ≤ 16 := (h.wheel g (List.mem_of_find?_eq_some hg)).2.2.2.2

theorem Fits.setVat (h : Fits s) {x : VatSt} (hx : vatFits x = true) : Fits (s.setVat v x) :=
  match v with
  | .A => ⟨h.wheel, hx, h.vatB⟩
  | .B => ⟨h.wheel, h.vatA, hx⟩

theorem Fits.modVat (h : Fits s) {f : VatSt → VatSt} (hf : ∀ {x}, vatFits x = true → vatFits (f x) = true := by exact id) :
    Fits (s.modVat v f) := h.setVat (hf h.vat)

theorem Fits.modPort (h : Fits s) {f : PortSt → PortSt} : Fits (modPort s v p f) :=
  h.modVat (fun hx => by simpa [vatFits_iff] using vatFits_iff.mp hx)

theorem Fits.modLeg (h : Fits s) {f : LegSt → LegSt} : Fits (modLeg s v n f) :=
  h.modVat (fun hx => by simpa [vatFits_iff] using vatFits_iff.mp hx)

theorem Fits.modDlr (h : Fits s) {f : DlrSt → DlrSt} : Fits (modDlr s v n f) :=
  h.modVat (fun hx => by simpa [vatFits_iff] using vatFits_iff.mp hx)

theorem Fits.modGuard (h : Fits s) {f : GuardSt → GuardSt} : Fits (modGuard s v p f) :=
  h.modVat (fun hx => by simpa [vatFits_iff] using vatFits_iff.mp hx)

theorem Fits.modChan (h : Fits s) {f : ChanSt → ChanSt} : Fits (modChan s v n f) :=
  h.modVat (fun hx => by simpa [vatFits_iff] using vatFits_iff.mp hx)

theorem Fits.modGrp (h : Fits s) {g : Nat} {f : GrpSt → GrpSt} : Fits (modGrp s v g f) :=
  h.modVat (fun hx => by simpa [vatFits_iff] using vatFits_iff.mp hx)

theorem Fits.modAux (h : Fits s) {f : AuxSt → AuxSt} : Fits (modAux s v k f) :=
  h.modVat (fun hx => by simpa [vatFits_iff] using vatFits_iff.mp hx)

theorem Fits.modPos (h : Fits s) {i : Nat} {f : PosSt → PosSt} : Fits (modPos s v i f) :=
  h.modVat (fun hx => by simpa [vatFits_iff] using vatFits_iff.mp hx)

theorem Fits.modEng (h : Fits s) {f : EngSt → EngSt} (hf : ∀ {e}, engFits e = true → engFits (f e) = true := by exact id) :
    Fits (modEng s v c f) := h.modVat (vatFits_of_engine hf)

theorem Fits.modSlot (h : Fits s) {f : GraphSt → GraphSt} (hf : ∀ {g}, graphFits g = true → graphFits (f g) = true := by exact id) :
    Fits (modSlot s v c k f) := h.modEng (engFits_of_slot hf)

theorem Fits.modEvals (h : Fits s) {f : List EvalSt → List EvalSt}
    (hf : ∀ {es}, es.all evalFits = true → (f es).all evalFits = true := by exact (all_modFirst ·)) : Fits (modEvals s v c k f) :=
  h.modSlot (graphFits_of_evals hf)

theorem Fits.reset : Fits State.reset := ⟨fun _ hg => (nomatch hg), by decide, by decide⟩

/-! ## Each operation of the state (every part fits after it as before) -/

theorem Fits.wr (h : Fits s) {f : Field} : Fits (State.wr s f n) := h.update

theorem Fits.wrWord (h : Fits s) {a : Nat} {w : Word} : Fits (State.wrWord s a w) := h.update

theorem Fits.mark (h : Fits s) {a : Nat} {i : Nat} : Fits (State.mark s a i) := h.update

theorem Fits.noteWrite (h : Fits s) {m : Nat} {a : Nat} : Fits (State.noteWrite s m a) := h.unless (·.update)

theorem Fits.wrAs (h : Fits s) {m : Nat} {f : Field} : Fits (State.wrAs s m f n) := (h.unless (·.wr)).noteWrite

theorem Fits.set1 (h : Fits s) {f : Field} : Fits (State.set1 s f) := h.wr.mark

theorem Fits.clr (h : Fits s) {f : Field} : Fits (State.clr s f) := h.wr

theorem Fits.wrBit (h : Fits s) {f : Field} {i : Nat} {b : Bool} : Fits (State.wrBit s f i b) := h.wr

theorem Fits.setBit1 (h : Fits s) {f : Field} {i : Nat} : Fits (State.setBit1 s f i) := h.wrBit.mark

theorem Fits.incSat (h : Fits s) {f : Field} {by_ : Nat} : Fits (State.incSat s f by_) := h.wr

theorem Fits.incWrap (h : Fits s) {f : Field} : Fits (State.incWrap s f) := h.wr

theorem Fits.useFree (h : Fits s) : Fits (State.useFree s) := h.update

theorem Fits.writeByte (h : Fits s) {a : Nat} {b : Byte} : Fits (State.writeByte s a b) := h.update

theorem Fits.writeBytes (h : Fits s) {a : Nat} {bs : List Byte} : Fits (s.writeBytes a bs) := by
  induction bs generalizing s a with
  | nil => exact h
  | cons b bs ih => exact ih h.writeByte

theorem Fits.wrPair (h : Fits s) {lo : Field} {hi : Field} {x : Nat} : Fits (State.wrPair s lo hi x) := h.wr.wr

theorem Fits.writeMem (h : Fits s) {a : Nat} {w : Word} : Fits (State.writeMem s a w) := h.writeBytes

theorem Fits.countLost (h : Fits s) {lost : Bool} : Fits (State.countLost s lost) := h.when (·.incSat.set1)

theorem Fits.event (h : Fits s) {source : Nat} {code : Nat} {data : Nat} : Fits (State.event s source code data) :=
  h.update.countLost

theorem Fits.vatEvent (h : Fits s) {u : Nat} {code : Nat} {data : Nat} : Fits (State.vatEvent s v u code data) :=
  h.unless (·.event)

theorem Fits.endLog (h : Fits s) : Fits (State.endLog s) := h.update

theorem Fits.flag (h : Fits s) {source : Nat} {f : Field} : Fits (State.flag s source f) := Fits.ite h.mark h.set1.event

theorem Fits.vatFlag (h : Fits s) {u : Nat} {f : Field} : Fits (State.vatFlag s v u f) := h.unless (·.flag)

theorem Fits.vatFlagEdge (h : Fits s) {u : Nat} {f : Field} : Fits (State.vatFlagEdge s v u f) := h.set1.vatEvent

theorem Fits.vatFlagBit (h : Fits s) {u : Nat} {f : Field} {i : Nat} : Fits (State.vatFlagBit s v u f i) := h.vatFlag

theorem Fits.enRises (h : Fits s) : Fits (Machine.enRises s v n) := h.when (·.modLeg.set1)

theorem Fits.setPins (h : Fits s) {pulse : Bool} {en : Bool} : Fits (Machine.setPins s v n pulse en) :=
  (h.when (·.enRises)).modLeg.wr.wr

theorem Fits.setPortPins (h : Fits s) {pulse : Bool} {en : Bool} : Fits (Machine.setPortPins s v p pulse en) :=
  h.foldl (·.setPins)

theorem Fits.drivePattern (h : Fits s) {fp : Nat} : Fits (Machine.drivePattern s v p fp) := h.wr.setPortPins

theorem Fits.toAllOff (h : Fits s) : Fits (Machine.toAllOff s v p) := h.drivePattern.set1.vatEvent

theorem Fits.ascFallback (h : Fits s) : Fits (Machine.ascFallback s v p) :=
  Fits.ite (h.foldl (fun h1 => (h1.when (·.toAllOff)))) h

theorem Fits.restoreOl (h : Fits s) : Fits (Machine.restoreOl s v p) := h.wr.modGuard

theorem Fits.leaveRun (h : Fits s) : Fits (Machine.leaveRun s v p) :=
  ((h.clr.modPort.foldl (·.modLeg)).when (·.restoreOl)).clr.clr.clr

theorem Fits.enterRun (h : Fits s) : Fits (Machine.enterRun s v p) := h.foldl (·.modLeg)

theorem Fits.setPortState (h : Fits s) {new : Nat} {cause : Nat} : Fits (Machine.setPortState s v p new cause) :=
  Fits.ite h ((((((((h.when (·.leaveRun)).when (·.modPort)).when (·.modPort)).when (·.clr)).when (·.clr)).unless
    (·.clr)).when (·.setPortPins)).when (·.enterRun)).wr.vatEvent

theorem Fits.enterPattern1 (h : Fits s) {cause : Nat} {fp : Nat} {fallback : Bool} : Fits
    (Machine.enterPattern1 s v p cause fp fallback) :=
  h.setPortState.wr.incSat.branch (·.toAllOff) (·.drivePattern)

theorem Fits.enterUnitPattern (h : Fits s) {cause : Nat → Nat} : Fits (Machine.enterUnitPattern s v p cause) :=
  Fits.ite h ((h.foldl (·.enterPattern1)).when (fun h1 => (h1.foldl (·.setPortState))))

theorem Fits.enterFaultPattern (h : Fits s) {cause : Nat} : Fits (Machine.enterFaultPattern s v p cause) :=
  h.enterUnitPattern

theorem Fits.armEffects (h : Fits s) {q : Nat} : Fits (Machine.armEffects s v q) := by
  unfold Machine.armEffects
  split
  · exact h.foldl (·.wrBit)
  · exact Fits.ite h.vatFlagBit (Fits.ite (h.foldl (·.vatFlagEdge)) h)

theorem Fits.actOnCauses (h : Fits s) : Fits (Machine.actOnCauses s v p) :=
  (h.foldl (·.armEffects)).when (·.enterUnitPattern)

theorem Fits.setUnitState (h : Fits s) {new : Nat} : Fits (Machine.setUnitState s v p new) := h.foldl (·.setPortState)

theorem Fits.armUnit (h : Fits s) : Fits (Machine.armUnit s v p) := h.setUnitState.when (·.actOnCauses)

theorem Fits.setDev (h : Fits s) {d : DevState} : Fits (Machine.setDev s d) := Fits.ite h (h.update.unless (·.event))

theorem Fits.takeBackTest (h : Fits s) {t : TestEnd} : Fits (Machine.takeBackTest s t) := h.wrBit.wr.wr.wr.when (·.wr)

theorem Fits.countAbandoned (h : Fits s) : Fits (Machine.countAbandoned s n) := h.set1.incSat.event

theorem Fits.abandonTest (h : Fits s) : Fits (Machine.abandonTest s n) :=
  Fits.ite h.wrBit.countAbandoned (by split; exacts [h.takeBackTest.update.countAbandoned, h])

theorem Fits.gateOff (h : Fits s) : Fits (Machine.gateOff s) :=
  Fits.ite h ((h.forN (·.abandonTest)).update.forN (fun h1 => (h1.branch (·.wrBit) (·.update)))).clr

theorem Fits.gateOn (h : Fits s) : Fits (Machine.gateOn s) := (h.update.forN (fun h1 => (h1.when (·.wrBit)))).set1

theorem Fits.idlePorts (h : Fits s) : Fits (Machine.idlePorts s) :=
  h.forVats (fun h2 => (h2.forN (fun h1 => (h1.unless (·.setPortState)))))

theorem Fits.endRide (h : Fits s) : Fits (Machine.endRide s) := h.clr.clr.update

theorem Fits.enterSafeStop (h : Fits s) {src : Nat} : Fits (Machine.enterSafeStop s src) :=
  h.gateOff.set1.wr.clr.set1.event.endRide.update.idlePorts.setDev

theorem Fits.takeSto (h : Fits s) {src : Nat} : Fits (Machine.takeSto s src) := h.when (·.enterSafeStop)

theorem Fits.startSs1 (h : Fits s) {src : Nat} {kind : Ss1Kind} : Fits (Machine.startSs1 s src kind) :=
  h.unless (·.set1.wr.set1.event.endRide.update)

theorem Fits.notePresent (h : Fits s) {bit : Nat} : Fits (Machine.notePresent s bit) := h.update

theorem Fits.safetyFault (h : Fits s) {bit : Nat} : Fits (Machine.safetyFault s bit) :=
  h.wrBit.notePresent.unless (·.set1.wr.update.set1.event)

theorem Fits.ordersOnUnit (h : Fits s) : Fits (Machine.ordersOnUnit s v p) :=
  (((h.when (·.setUnitState)).when (·.setUnitState)).when (·.armUnit)).when (·.setUnitState)

theorem Fits.ordersOnPorts (h : Fits s) : Fits (Machine.ordersOnPorts s) :=
  Fits.ite h (h.forVats (fun h3 => (h3.when (fun h2 => (h2.forN (fun h1 => (h1.unless (·.ordersOnUnit))))))))

theorem Fits.degSet (h : Fits s) {bit : Nat} : Fits (Machine.degSet s bit) := h.unless (·.wrBit.event)

theorem Fits.refreshDeg (h : Fits s) : Fits (Machine.refreshDeg s) := Fits.ite h (h.unless (·.wr.event))

theorem Fits.refreshDev (h : Fits s) : Fits (Machine.refreshDev s) :=
  Fits.ite h (Fits.ite h.setDev (Fits.ite h.setDev h.setDev))

theorem Fits.ss1End (h : Fits s) : Fits (Machine.ss1End s) :=
  Fits.ite h (by split; exacts [(h.unless (·.enterSafeStop)), by split; exacts
    [(h.unless (·.enterSafeStop)), h.enterSafeStop]])

theorem Fits.vatRegsReset (h : Fits s) {pick : Nat → Bool} : Fits (Machine.vatRegsReset s v pick) := h.update

theorem Fits.recordCause (h : Fits s) {code : Nat} {level : Nat} {vat : Nat} : Fits (Machine.recordCause s code level vat) :=
  h.wr.wr.wr.unless (·.incSat)

/-- A SYS reset makes every part anew. -/
theorem Fits.sysCleared (_ : Fits s) {clockLoss : Bool} : Fits (sysCleared s clockLoss) := Fits.reset.update

theorem Fits.recordSys (h : Fits s) {code : Nat} {again : Bool} : Fits (Machine.recordSys s code again) :=
  Fits.ite h.wr h.recordCause

theorem Fits.sysReset (h : Fits s) {code : Nat} : Fits (Machine.sysReset s code) :=
  Fits.ite h (h.sysCleared.recordSys.when (·.update))

theorem Fits.requestSys (h : Fits s) {code : Nat} : Fits (Machine.requestSys s code) := h.unless (·.sysReset)

theorem Fits.porCleared (_ : Fits s) : Fits (porCleared s) := Fits.reset.update

theorem Fits.brownOut (h : Fits s) : Fits (Machine.brownOut s) := h.porCleared.recordCause.update

theorem Fits.setRole (h : Fits s) {r : Nat} : Fits (Machine.setRole s v r) := h.unless (·.wr.event)

theorem Fits.resetPulse (h : Fits s) : Fits (resetPulse s v) := by
  unfold Machine.resetPulse
  refine h.vatRegsReset.modVat (fun hx => ?_)
  rw [vatFits_iff] at hx ⊢
  simp [hx]

theorem Fits.finishHandover (h : Fits s) : Fits (Machine.finishHandover s) :=
  have h1 := h.clr.update
  Fits.ite (by dsimp only; split; exacts [(h1.when (·.resetPulse)), h1]) h

theorem Fits.foldEvents (h : Fits s) {peak : Bool} : Fits (Machine.foldEvents s v p peak) := by
  unfold Machine.foldEvents
  split; exacts [h.modPort, h]

theorem Fits.passPending (h : Fits s) : Fits (Machine.passPending s) := h.unless (·.wr.update.finishHandover)

theorem Fits.passAll (h : Fits s) : Fits (Machine.passAll s) := h.wr.update.finishHandover

theorem Fits.abortDrill (h : Fits s) : Fits (Machine.abortDrill s) := by
  unfold Machine.abortDrill
  split; exacts [h, h.update.clr.set1.event]

theorem Fits.sigdefMove (h : Fits s) {e : Nat} {i : Nat} {e' : Nat} {i' : Nat} : Fits (Machine.sigdefMove s e i n e' i') :=
  h.forN (fun h1 => (h1.when (·.wr.wr)))

theorem Fits.sigdefFollow (h : Fits s) : Fits (Machine.sigdefFollow s v) :=
  h.foldl (fun h3 => (h3.unless (fun h2 => (h2.branch (·.sigdefMove) (fun h1 => (h1.when (·.sigdefMove)))))))

theorem Fits.stayWith (h : Fits s) {old : Option Vat} {new : Vat} : Fits (Machine.stayWith s old new) := by
  unfold Machine.stayWith
  split; exacts [h, (h.update.forVats (fun h1 => (h1.forN (·.modPort)))).wr.set1.passPending]

theorem Fits.standDown (h : Fits s) {old : Option Vat} : Fits (Machine.standDown s old) := by
  unfold Machine.standDown
  split; exacts [(h.when (·.setRole)), h]

theorem Fits.takeover (h : Fits s) {new : Vat} {cause : Nat} : Fits (Machine.takeover s new cause) :=
  h.unless (·.wr.wr.incSat.event.standDown.setRole.sigdefFollow.stayWith)

theorem Fits.noStandby (h : Fits s) {cause : Nat} : Fits (Machine.noStandby s cause) :=
  Fits.ite h ((h.abortDrill.update.passAll.when (·.wr.wr.incSat.event)).branch (·.update) (·.startSs1))

theorem vatFits_afterReset {x : VatSt} {defer : Bool} (hx : vatFits x = true) : vatFits (x.afterReset defer) = true := by
  rw [vatFits_iff] at hx
  unfold VatSt.afterReset
  split <;> simpa [vatFits_iff, VatSt.keepWheel, hx] using (by decide : ((({} : VatSt).engines).all engFits) = true)

theorem Fits.putInReset (h : Fits s) : Fits (putInReset s v) :=
  have h1 := (h.unless (·.setRole)).vatRegsReset.clr.clr
  (h1.setVat (vatFits_afterReset h1.vat)).update

theorem Fits.failVat (h : Fits s) : Fits (Machine.failVat s v) := h.incSat.when (·.setRole)

theorem Fits.recordVatCause (h : Fits s) {code : Option Nat} : Fits (Machine.recordVatCause s v code) :=
  ((h.unless (·.useFree)).branch (·.incSat) (·.recordCause)).update

theorem Fits.vatReset (h : Fits s) {code : Option Nat} {ownCause : Nat} {count : Bool} : Fits
    (Machine.vatReset s v code ownCause count) :=
  Fits.ite h (by split; exacts [h, h.sysReset, h.sysReset, h.recordVatCause,
    (Fits.ite h.recordVatCause ((((h.when (·.failVat)).when
    (fun h1 => (h1.branch (·.abortDrill.takeover) (·.noStandby)))).recordVatCause.putInReset.when (·.idlePorts)).when
    (·.update)))])

theorem Fits.noteFlt (h : Fits s) : Fits (Machine.noteFlt s v) := h.update

theorem Fits.failJoin (h : Fits s) : Fits (Machine.failJoin s v) := h.unless (·.event.vatReset.set1)

theorem Fits.raiseFltWith (h : Fits s) {src : Nat} {code : Option Nat} {ownCause : Nat} : Fits
    (Machine.raiseFltWith s v src code ownCause) :=
  Fits.ite h (h.wrBit.set1.noteFlt.branch (fun h3 => (h3.when (·.vatReset)))
    (fun h4 => (h4.branch (·.failJoin) (fun h2 => (h2.branch (fun h1 => (h1.branch (·.vatReset) (·.abortDrill)))
    (·.vatReset))))))

theorem Fits.raiseFlt (h : Fits s) {src : Nat} : Fits (Machine.raiseFlt s v src) := h.raiseFltWith

theorem Fits.noteMismatch (h : Fits s) {k : MismatchKind} : Fits (Machine.noteMismatch s k) :=
  have h1 := h.incSat
  by
    dsimp only [Machine.noteMismatch]
    split
    · exact h1.set1.wrWord.wr.wr.wr.wr.wr.wrWord
    · exact h1.set1.wrWord.wr.wr.wr.wr.wr.wrWord
    · exact h1.set1.wrWord.wr.wr.wr.wr.wr
    · exact h1.set1.wrWord.wr.wr.wr.wr.wr
    · exact h1.set1.wrWord.wr.wr.wr.wr.wr
    · exact h1.set1.wrWord.wr.wr.wr.wr.wr

theorem Fits.logMismatch (h : Fits s) : Fits (Machine.logMismatch s) := h.event

theorem Fits.compareMismatch (h : Fits s) {k : MismatchKind} : Fits (Machine.compareMismatch s k) :=
  have h1 := h.noteMismatch.abortDrill
  Fits.ite h (by dsimp only; split; exacts [h1.logMismatch.failJoin, (h1.unless (·.update))])

theorem Fits.watchItem (h : Fits s) {k : MismatchKind} : Fits (Machine.watchItem s k) :=
  Fits.ite h.update (by split; exacts [h.update, (h.unless (·.update.compareMismatch))])

theorem Fits.watchVats (h : Fits s) : Fits (Machine.watchVats s) := Fits.ite (h.foldl (·.watchItem)) h.update

theorem Fits.dueSysReset (h : Fits s) : Fits (Machine.dueSysReset s) := by
  unfold Machine.dueSysReset
  split; exacts [(h.unless (·.sysReset)), h]

theorem Fits.settle (h : Fits s) : Fits (Machine.settle s) :=
  (h.unless (·.ordersOnPorts.ss1End.refreshDeg.refreshDev.dueSysReset)).endLog

theorem Fits.refreshValid (h : Fits s) : Fits (Machine.refreshValid s v n) := h.wr

theorem Fits.beginSettle (h : Fits s) : Fits (Machine.beginSettle s v n) := h.wr.set1.refreshValid

theorem Fits.restartChan (h : Fits s) : Fits (Machine.restartChan s v n) := h.unless (·.modChan.clr.clr.wr.beginSettle)

theorem Fits.abandonRotation (h : Fits s) {g : Nat} : Fits (Machine.abandonRotation s v g) := by
  unfold Machine.abandonRotation
  split; exacts [h, h.wr.modGrp, h.wr.modGrp]

theorem Fits.requestAuto (h : Fits s) {g : Nat} : Fits (Machine.requestAuto s v g) := h.abandonRotation.modGrp

theorem Fits.requestSync (h : Fits s) {g : Nat} {mask : Nat} : Fits (Machine.requestSync s v g mask) := h.wr.set1

theorem Fits.takeSync (h : Fits s) {g : Nat} : Fits (Machine.takeSync s v g) :=
  (h.forN (fun h1 => (h1.when (·.restartChan)))).clr.modGrp

theorem Fits.setMclkPhase (h : Fits s) {g : Nat} : Fits (Machine.setMclkPhase s v g) := h.modGrp

theorem Fits.syncAtTick (h : Fits s) : Fits (Machine.syncAtTick s p) :=
  h.forN (fun h2 => (h2.forVats (fun h1 => (h1.when (·.setMclkPhase.takeSync)))))

theorem Fits.loseChan (h : Fits s) : Fits (Machine.loseChan s v n) :=
  Fits.ite h (h.unless (·.set1.vatFlagEdge)).refreshValid.modChan

theorem Fits.groupLoss (h : Fits s) {g : Nat} : Fits (Machine.groupLoss s v g) :=
  Fits.ite h (h.set1.vatFlag.forN (·.loseChan))

theorem Fits.groupReturn (h : Fits s) {g : Nat} : Fits (Machine.groupReturn s v g) := h.unless (·.clr.requestAuto)

theorem Fits.syncEffect (h : Fits s) {g : Nat} : Fits (Machine.syncEffect s v g) :=
  Fits.ite (h.forVats (fun h1 => (h1.when (·.takeSync)))) h

theorem Fits.tryFreeze (h : Fits s) : Fits (Machine.tryFreeze s v n) := h.when (·.set1.vatFlagEdge.refreshValid.modChan)

theorem Fits.freezeSample (h : Fits s) {q : ℤ} : Fits (Machine.freezeSample s v n q) :=
  Fits.ite h (Fits.ite h.modChan.tryFreeze h.clr.refreshValid.modChan)

theorem Fits.goStale (h : Fits s) : Fits (Machine.goStale s v n) := h.when (·.set1.vatFlagEdge.refreshValid.modChan)

theorem Fits.endStale (h : Fits s) : Fits (Machine.endStale s v n) := h.when (·.clr.beginSettle)

theorem Fits.shadow (h : Fits s) {g : Nat} {f : Nat} {rep : Bool} : Fits (Machine.shadow s v g f c rep) := h.wr.wr.modGrp

theorem Fits.rotationStep (h : Fits s) {g : Nat} : Fits (Machine.rotationStep s v g) := by
  unfold Machine.rotationStep
  split; exacts [h, (h.forVats (fun h1 => (h1.when (·.shadow))))]

theorem Fits.retireSlice (h : Fits s) {g : Nat} {f : Nat} : Fits (Machine.retireSlice s v g f) :=
  h.set1.wr.vatEvent.set1.modGrp.degSet

theorem Fits.handChannel (h : Fits s) {g : Nat} {f : Nat} : Fits (Machine.handChannel s v g f c) := h.wr.wr.wr.modGrp

theorem Fits.testSlice (h : Fits s) {g : Nat} {f : Nat} {again : Option Nat} : Fits (Machine.testSlice s v g f again) :=
  h.wr.wr.modGrp

theorem Fits.rotationCompare (h : Fits s) {g : Nat} {same : Bool} : Fits (Machine.rotationCompare s v g same) := by
  unfold Machine.rotationCompare
  split
  · exact Fits.ite h.handChannel.testSlice (h.set1.vatEvent.branch (·.handChannel.retireSlice) (·.modGrp.testSlice))
  · exact h

theorem Fits.sliceTested (h : Fits s) {g : Nat} {ok : Bool} : Fits (sliceTested s v g ok) := by
  unfold Machine.sliceTested
  split
  · refine Fits.ite ?_ h.set1.retireSlice
    dsimp only
    split
    · exact h.incSat.clr.shadow
    · exact h.incSat.clr.wr.incWrap.modGrp
  · exact h

theorem Fits.auxNext (h : Fits s) : Fits (Machine.auxNext s v k) :=
  Fits.ite h (by split; exacts [h.modAux, by split; exacts [h.modAux, h]])

theorem Fits.auxStart (h : Fits s) : Fits (Machine.auxStart s v k) := h.when (·.modAux.auxNext)

theorem Fits.auxPass (h : Fits s) : Fits (Machine.auxPass s v k) := h.modAux.auxNext

theorem Fits.auxTick (h : Fits s) : Fits (Machine.auxTick s v p) :=
  h.forN (fun h2 => (h2.when (fun h1 => (h1.branch (·.vatFlagEdge) (·.auxPass)))))

theorem Fits.injStart (h : Fits s) : Fits (Machine.injStart s v k) := h.modAux.auxNext

theorem Fits.injTrigger (h : Fits s) : Fits (Machine.injTrigger s v k) :=
  Fits.ite h (Fits.ite h.injStart (h.unless (·.vatFlagEdge)))

theorem Fits.injEvent (h : Fits s) {e : TrigEvent} : Fits (Machine.injEvent s v e p) :=
  h.forN (fun h1 => (h1.when (·.injTrigger)))

theorem Fits.injTrip (h : Fits s) {i : Nat} : Fits (Machine.injTrip s v i) := h.forN (fun h1 => (h1.when (·.injTrigger)))

theorem Fits.setLinkFail (h : Fits s) {b : Bool} : Fits (Machine.setLinkFail s v k b) :=
  h.wr.forN (fun h1 => (h1.wr.when (·.clr)))

theorem Fits.auxDeliver (h : Fits s) {chan : Nat} {inj : Bool} {result : BitVec 16} : Fits
    (Machine.auxDeliver s v k chan inj result) :=
  (h.when (·.wr.vatFlagEdge)).wr.wr.wr.set1

theorem Fits.auxBad (h : Fits s) : Fits (Machine.auxBad s v k) := h.vatFlag.incSat.modAux.when (·.setLinkFail.vatEvent)

theorem Fits.auxGood (h : Fits s) {chan : Nat} {inj : Bool} {result : BitVec 16} : Fits
    (Machine.auxGood s v k chan inj result) :=
  (h.modAux.when (·.setLinkFail)).auxDeliver

theorem Fits.auxFrame (h : Fits s) {echo : BitVec 4} {status : BitVec 4} {result : BitVec 16} : Fits
    (Machine.auxFrame s v k echo status result) := by
  unfold Machine.auxFrame
  split; exacts [h, (Fits.ite h (Fits.ite h.auxGood h.auxBad)).modAux.auxNext]

theorem Fits.auxRead (h : Fits s) : Fits (Machine.auxRead s v k) := h.when (·.modAux.wr.incWrap.clr.wr.clr)

theorem Fits.auxAge (h : Fits s) : Fits (Machine.auxAge s v n) := h.when (·.set1.clr)

theorem Fits.encInvalid (h : Fits s) {i : Nat} : Fits (Machine.encInvalid s v i) := h.clr.set1

theorem Fits.encPhaseError (h : Fits s) {i : Nat} : Fits (Machine.encPhaseError s v i) :=
  h.vatFlag.incSat.modPos.clr.encInvalid

theorem Fits.encIndex (h : Fits s) {i : Nat} : Fits (Machine.encIndex s v i) :=
  Fits.ite h ((h.modPos.when (·.vatFlag.incSat)).branch (·.clr.encInvalid) (·.set1.clr.wr))

theorem Fits.encStep (h : Fits s) {i : Nat} {up : Bool} : Fits (Machine.encStep s v i up) := h.modPos

theorem Fits.posFreeze (h : Fits s) {i : Nat} {mq : Bool} : Fits (Machine.posFreeze s v i mq) :=
  Fits.ite h (Fits.ite (h.modPos.when (·.set1.clr)) h.modPos.clr)

theorem Fits.encCapture (h : Fits s) {i : Nat} : Fits (Machine.encCapture s v i) := h.modPos

theorem Fits.ssiStart (h : Fits s) {i : Nat} : Fits (Machine.ssiStart s v i) := Fits.ite h.vatFlag.modPos h.modPos

theorem Fits.posCapture (h : Fits s) {i : Nat} {mq : Bool} : Fits (Machine.posCapture s v i mq) :=
  Fits.ite h (((h.when (·.encCapture)).wr.wr.when (·.clr)).posFreeze.wr.modPos.unless (·.ssiStart))

theorem Fits.ssiBad (h : Fits s) {i : Nat} : Fits (Machine.ssiBad s v i) :=
  h.vatFlag.incSat.incSat.modPos.when (·.modPos.encInvalid)

theorem Fits.ssiGood (h : Fits s) {i : Nat} {pos : Nat} {t : Nat} : Fits (Machine.ssiGood s v i pos t) := h.wr.modPos

theorem Fits.ssiFrame (h : Fits s) {i : Nat} {noresp : Bool} {word : Nat} : Fits (Machine.ssiFrame s v i noresp word) := by
  unfold Machine.ssiFrame
  split
  · exact h
  · exact ((h.modPos.when (·.vatFlag)).when (·.vatFlag)).branch (·.ssiBad) (·.ssiGood)

theorem Fits.ssiClock (h : Fits s) {i : Nat} : Fits (Machine.ssiClock s v i) := h.unless (·.modPos)

theorem Fits.startCarrier (h : Fits s) : Fits (Machine.startCarrier s v p) := Fits.ite h (h.modPort.foldl (·.modLeg))

theorem Fits.carrierEvent (h : Fits s) {valley : Bool} : Fits (Machine.carrierEvent s v p valley) :=
  (Fits.ite (h.foldl (fun h1 => (h1.when (·.foldEvents)))) h).modPort

theorem Fits.refreshCmp (h : Fits s) : Fits (Machine.refreshCmp s v p) := h.foldl (·.wr)

theorem Fits.chargeDone (h : Fits s) {ago : Nat} : Fits (Machine.chargeDone s v n ago) := h.unless (·.modLeg)

theorem Fits.openBlanking (h : Fits s) {t : Nat} : Fits (Machine.openBlanking s v p n t) := by
  unfold Machine.openBlanking
  split; exacts [(Fits.ite (Fits.ite h.set1 h.modPort) h), h]

theorem Fits.openWindows (h : Fits s) : Fits (Machine.openWindows s v p) := h.when (·.set1.modPort)

theorem Fits.endLow (h : Fits s) {t : Nat} : Fits (Machine.endLow s v n t) := h.when (·.modLeg.chargeDone)

theorem Fits.emitEdge (h : Fits s) {high : Bool} {t : Nat} : Fits (Machine.emitEdge s v p n high t) :=
  (h.when (·.endLow)).wr.modLeg.openBlanking

theorem Fits.insertRefresh (h : Fits s) {t : Nat} {len : Nat} : Fits (Machine.insertRefresh s v p n t len) :=
  (h.incSat.when (·.emitEdge)).modLeg

theorem Fits.endRefresh (h : Fits s) : Fits (Machine.endRefresh s v p n) := by
  unfold Machine.endRefresh
  split; exacts [h, (Fits.ite h (h.endLow.modLeg.when (·.emitEdge)))]

theorem Fits.refreshAhead (h : Fits s) : Fits (Machine.refreshAhead s v p n) := h.unless (·.insertRefresh.modLeg)

theorem Fits.bootstrapValley (h : Fits s) {perOld : Nat} {cmpOld : Nat} : Fits
    (Machine.bootstrapValley s v p n perOld cmpOld) :=
  Fits.ite h (Fits.ite h.modLeg (h.unless (·.insertRefresh)))

theorem Fits.takePeriod (h : Fits s) : Fits (Machine.takePeriod s v p) := h.foldl (fun h1 => (h1.when (·.wr.refreshCmp)))

theorem Fits.refreshLegs (h : Fits s) {perOld : Nat} {old : Nat → Nat} : Fits (Machine.refreshLegs s v p perOld old) :=
  h.foldl (·.bootstrapValley)

theorem Fits.portValley (h : Fits s) : Fits (Machine.portValley s v p) := h.carrierEvent.takePeriod.refreshLegs

theorem Fits.trailEdge (h : Fits s) {rise : Bool} : Fits (Machine.trailEdge s v p n rise) := Fits.ite h.modLeg h.emitEdge

theorem Fits.applyEdge (h : Fits s) {rise : Bool} : Fits (Machine.applyEdge s v p n rise) := Fits.ite h.modLeg h.trailEdge

theorem Fits.filterEdge (h : Fits s) {rise : Bool} : Fits (Machine.filterEdge s v p n rise) :=
  Fits.ite h.applyEdge (Fits.ite h.incSat.applyEdge h.incSat)

theorem Fits.placeEdge (h : Fits s) {rise : Bool} : Fits (Machine.placeEdge s v p n rise) :=
  Fits.ite h (Fits.ite h (Fits.ite h.applyEdge h.filterEdge))

theorem Fits.legTime (h : Fits s) : Fits (Machine.legTime s v p n) :=
  have h2 := h.endRefresh
  Fits.seq (by split; exacts [(h2.when (·.emitEdge)), h2]) (fun h1 => h1.refreshAhead)

theorem Fits.portTime (h : Fits s) : Fits (Machine.portTime s v p) := Fits.ite (h.foldl (·.legTime)) h

theorem Fits.generatorEdge (h : Fits s) {x : GenEdge} : Fits (Machine.generatorEdge s v p n x) := by
  unfold Machine.generatorEdge
  split
  · exact h.placeEdge
  · exact h.placeEdge
  · exact Fits.ite (h.bootstrapValley.when (·.injEvent)) (h.when (·.portValley.injEvent))

theorem Fits.takeSet (h : Fits s) : Fits (Machine.takeSet s v p k) :=
  (h.foldl (fun h1 => (h1.foldl (·.wr)).wr.modPort)).wr.modPort.foldl (·.modPort)

theorem Fits.coherenceError (h : Fits s) : Fits (Machine.coherenceError s v p) :=
  h.setBit1.incSat.wr.vatEvent.unless (fun h1 => (h1.modPort.when (·.vatFlagBit.enterUnitPattern)))

theorem Fits.reloadDecision (h : Fits s) : Fits (Machine.reloadDecision s v p) :=
  Fits.ite h (by split; exacts [h.takeSet, h.coherenceError])

theorem Fits.firstLevel (h : Fits s) : Fits (Machine.firstLevel s v p n) := h.setPins.modLeg.unless (·.emitEdge)

theorem Fits.followLeg (h : Fits s) {first : Bool} : Fits (Machine.followLeg s v p n first) :=
  Fits.ite h.firstLevel (Fits.ite h.applyEdge (h.when (·.modLeg)))

theorem Fits.followReload (h : Fits s) : Fits (Machine.followReload s v p) := Fits.ite h (h.modPort.foldl (·.followLeg))

theorem Fits.reloadPort (h : Fits s) {valley : Bool} : Fits (Machine.reloadPort s v p valley) :=
  ((h.reloadDecision.carrierEvent.branch (·.takePeriod) (fun h1 => (h1.foldl (·.refreshCmp)))).foldl (·.followReload)).when
    (·.refreshLegs)

theorem Fits.resolveTrips (h : Fits s) {is : List Nat} : Fits (Machine.resolveTrips s v p is) :=
  (h.foldl (fun h1 => (h1.wrBit.unless (·.set1.incSat.vatEvent)))).when (·.enterFaultPattern)

theorem Fits.resolveTrip (h : Fits s) {i : Nat} : Fits (Machine.resolveTrip s v p i) := h.resolveTrips

theorem Fits.closeWindow (h : Fits s) : Fits (Machine.closeWindow s v p) := h.unless (·.clr.resolveTrips)

theorem Fits.tripAtPort (h : Fits s) {i : Nat} : Fits (Machine.tripAtPort s v i p) :=
  Fits.ite h (Fits.ite h.enterUnitPattern h.wrBit)

theorem Fits.registerTrip (h : Fits s) {i : Nat} : Fits (Machine.registerTrip s v i) :=
  Fits.ite h (h.set1.set1.incSat.vatEvent.injTrip.forN (fun h1 => (h1.when (·.tripAtPort))))

theorem Fits.holdOff (h : Fits s) : Fits (Machine.holdOff s v p) := h.update

theorem Fits.holdFallback (h : Fits s) : Fits (Machine.holdFallback s v p) := by
  unfold Machine.holdFallback
  split; exacts [h, (h.when (·.holdOff))]

theorem Fits.monitorBreak (h : Fits s) : Fits (Machine.monitorBreak s v n) := by
  unfold Machine.monitorBreak
  split; exacts [(h.when (·.holdOff)), h]

theorem Fits.actOnLeg (h : Fits s) {before : Bool × Bool × Bool} : Fits (Machine.actOnLeg s v n before) := by
  unfold Machine.actOnLeg
  split
  · exact h
  · exact Fits.seq (by split; exacts [(h.wr.when (·.vatFlagEdge.enterFaultPattern)), h.wr])
      (fun h1 => h1.ascFallback.holdFallback)

theorem Fits.linkLost (h : Fits s) : Fits (Machine.linkLost s v n) := h.unless (·.clr.set1.vatEvent.modDlr)

theorem Fits.countBad (h : Fits s) : Fits (Machine.countBad s v n) := h.vatFlag.incSat

theorem Fits.badFrame (h : Fits s) : Fits (Machine.badFrame s v n) := h.countBad.modDlr.when (·.linkLost)

theorem Fits.endDisregard (h : Fits s) : Fits (Machine.endDisregard s v n) := by
  unfold Machine.endDisregard
  split; exacts [(h.when (·.clr)), h]

theorem Fits.huvReport (h : Fits s) {huv : Bool} : Fits (Machine.huvReport s v n huv) :=
  (h.endDisregard.when (·.vatFlag)).modDlr

theorem Fits.checkFrame (h : Fits s) {f : Nat} {enSteady : Bool} : Fits (Machine.checkFrame s v n f enSteady) :=
  (Fits.ite h (h.set1.unless (·.vatEvent)).modDlr).when (·.modDlr)

theorem Fits.logBits (h : Fits s) {f : Nat} : Fits (Machine.logBits s v n f) := (h.unless (·.vatEvent)).modDlr

theorem Fits.goodFrame (h : Fits s) {f : Nat} {enSteady : Bool} : Fits (Machine.goodFrame s v n f enSteady) :=
  (h.incSat.wr.logBits.modDlr.when (·.set1.modDlr)).huvReport.checkFrame

theorem Fits.asctOver (h : Fits s) : Fits (Machine.asctOver s v p) := (h.foldl (fun h1 => (h1.when (·.toAllOff)))).holdOff

theorem Fits.writeEng (h : Fits s) {o : Nat} {w : Word} : Fits (Machine.writeEng s v c o w) := h.writeMem

theorem Fits.currentLoss (h : Fits s) : Fits (Machine.currentLoss s v p) := h.vatFlagEdge.enterFaultPattern

theorem Fits.voltageLoss (h : Fits s) : Fits (Machine.voltageLoss s v p) :=
  Fits.ite h.vatFlagEdge.enterFaultPattern (Fits.ite h.vatFlagEdge.enterFaultPattern
    (h.unless (·.set1.vatFlagEdge.wr.modGuard)))

theorem Fits.feedbackTest (h : Fits s) {lost : Nat → Bool} : Fits (Machine.feedbackTest s v p lost) :=
  Fits.ite h (Fits.ite h.currentLoss (h.when (·.voltageLoss)))

theorem Fits.arrivalLoss (h : Fits s) : Fits (Machine.arrivalLoss s v p n) := (h.when (·.modGuard)).feedbackTest

theorem Fits.startZr (h : Fits s) : Fits (Machine.startZr s v p) := h.clr.set1

theorem Fits.positionLoss (h : Fits s) : Fits (Machine.positionLoss s v p) :=
  Fits.ite h (h.vatFlagEdge.branch (·.set1.wr.modGuard) (·.startZr))

theorem Fits.gridTick (h : Fits s) : Fits (Machine.gridTick s v p) := h.modGuard.feedbackTest

theorem Fits.driveTick (h : Fits s) : Fits (Machine.driveTick s v p) := h.modGuard.feedbackTest.when (·.positionLoss)

theorem Fits.guardTick (h : Fits s) : Fits (Machine.guardTick s v p) := Fits.ite h.gridTick (h.when (·.driveTick))

theorem Fits.observerCommit (h : Fits s) : Fits (Machine.observerCommit s v p) := h.when (·.startZr)

theorem Fits.guardCommit (h : Fits s) : Fits (Machine.guardCommit s v p) :=
  h.modPort.unless (fun h3 => (h3.branch (·.vatFlagEdge.enterFaultPattern)
    (fun h2 => (h2.when (fun h1 => (h1.observerCommit.when (·.enterFaultPattern)))))))

theorem Fits.acceptRest (h : Fits s) {f : RestFrame} : Fits (Machine.acceptRest s v p f) := h.incWrap.modGuard.when (·.set1)

theorem Fits.receiveRest (h : Fits s) {f : RestFrame} : Fits (Machine.receiveRest s v p f) :=
  Fits.ite h ((h.when (·.vatFlagEdge)).unless (fun h2 => (h2.branch (·.vatFlag) (fun h1 => (h1.when (·.acceptRest))))))

theorem Fits.receiveRestAll (h : Fits s) {f : RestFrame} : Fits (Machine.receiveRestAll s f) :=
  (h.when (·.useFree)).forVats (fun h2 => (h2.when (fun h1 => (h1.forN (·.receiveRest)))))

theorem Fits.loseRest (h : Fits s) : Fits (Machine.loseRest s v p) := h.when (·.clr.vatFlagEdge.modGuard)

theorem Fits.loseRestAll (h : Fits s) : Fits (Machine.loseRestAll s) :=
  h.forVats (fun h2 => (h2.when (fun h1 => (h1.forN (·.loseRest)))))

theorem Fits.dfrTick (h : Fits s) {ts : Word} : Fits (Machine.dfrTick s v p ts) := h.unless (·.wr.modGuard)

theorem Fits.refreshWhey (h : Fits s) : Fits (Machine.refreshWhey s v c k) :=
  have h1 := h.wr.wr
  by dsimp only [Machine.refreshWhey]; split; exacts [h1.set1.wr.set1, h1.clr.wr.clr]

theorem Fits.closeXhat (h : Fits s) : Fits (Machine.closeXhat s v c k) := h.forN (·.clr)

theorem Fits.schedule (h : Fits s) : Fits (Machine.schedule s v c) :=
  Fits.ite h (Fits.seq (by split; exacts [h, by split; exacts [h, (h.modEvals).refreshWhey]]) (fun h1 => h1.wr))

theorem Fits.excuseTick (h : Fits s) {tick : Nat} : Fits (Machine.excuseTick s p tick) := h.update

theorem Fits.asymMiss (h : Fits s) {tick : Nat} {counts : Bool} : Fits (Machine.asymMiss s w p tick counts) :=
  h.excuseTick.set1.event.unless (fun h1 => (h1.update.when (·.raiseFlt)))

theorem Fits.settleDoubt (h : Fits s) {tick : Nat} : Fits (Machine.settleDoubt s p tick) :=
  h.unless (·.update.compareMismatch)

theorem Fits.compareCommits (h : Fits s) {tick : Nat} {a : Nat} {b : Nat} : Fits (Machine.compareCommits s p tick a b) :=
  have h1 := h.update.settleDoubt
  by dsimp only [Machine.compareCommits]; split; exacts [(h1.unless (·.compareMismatch)), h1]

theorem Fits.compareOutcome (h : Fits s) {tick : Nat} {outcome : Nat} {csig : Nat} : Fits
    (Machine.compareOutcome s v p tick outcome csig) :=
  have h1 := h.update
  Fits.ite h (by split; exacts [h.update, by dsimp only; split; exacts
    [h1.compareCommits, h1.asymMiss, h1.asymMiss, h1.asymMiss, h1.asymMiss, h1]])

theorem Fits.missed (h : Fits s) {tick : Nat} : Fits (Machine.missed s v c k tick) :=
  ((h.wr.setBit1.incSat.incSat.vatEvent.forN (·.wr)).when (·.set1)).compareOutcome

theorem Fits.judgeLanding (h : Fits s) : Fits (Machine.judgeLanding s v c k) := by
  unfold Machine.judgeLanding
  split
  · exact h
  · exact (h.modSlot).branch (·.wr) (fun h2 => (h2.branch (·.wr.incSat) (fun h1 => (h1.branch (·.wr) (·.wr.incSat)))))

theorem Fits.beginEval (h : Fits s) : Fits (Machine.beginEval s v c k p) :=
  Fits.ite (h.modEvals (by exact (all_concat · rfl)))
    (h.wr.wr.branch (fun h1 => ((h1.foldl (·.wr.set1)).set1.modEvals (by exact (all_concat · rfl))))
    (fun h2 => (h2.clr.incSat.modEvals (by exact (all_concat · (by split <;> rfl)))))).refreshWhey.schedule

theorem Fits.storeResults (h : Fits s) {e : EvalSt} : Fits (Machine.storeResults s v c k e) :=
  (h.modEng).modEvals (by exact (all_modFirst · (fun _ => workFits_evaluate s v c k e)))

theorem Fits.judgeEntry (h : Fits s) {e : EvalSt} {q : Nat × PredDef} : Fits (Machine.judgeEntry s v c k e q) :=
  have h1 := h.clr
  by dsimp only [Machine.judgeEntry]; split; exacts [h1.wr.clr.set1, h1.wr.wr.clr]

theorem Fits.verdict (h : Fits s) {q : EvalSt → Bool} : Fits (Machine.verdict s v c k q) := by
  dsimp only [Machine.verdict]
  split
  · exact h
  · exact Fits.ite ((h.foldl (·.judgeEntry)).branch
      (fun h1 => (h1.incSat.modEvals (by exact (all_modFirst · (fun _ => rfl)))))
      (fun h2 => (h2.modEvals))).refreshWhey.schedule (h.modEvals).refreshWhey.schedule

theorem Fits.endEval (h : Fits s) : Fits (Machine.endEval s v c) := by
  unfold Machine.endEval
  split
  · exact h
  · split
    · exact h
    · exact h.storeResults.branch (fun h1 => (h1.modEvals).refreshWhey.schedule) (·.verdict)

theorem Fits.awaitArrivals (h : Fits s) : Fits (Machine.awaitArrivals s v c k p) := h.modPort

theorem Fits.guardArrival (h : Fits s) {ok : Bool} : Fits (Machine.guardArrival s v p n ok) :=
  Fits.ite h (h.modPort.unless (·.arrivalLoss))

theorem Fits.arrive (h : Fits s) {x : ℤ} {ok : Bool} : Fits (Machine.arrive s v p n x ok) :=
  have h4 := h.guardArrival
  by
    dsimp only [Machine.arrive]
    split
    · exact h4
    · exact h4.branch (fun h2 => (h2.modSlot)) (fun h3 =>
        (h3.unless (fun h1 => ((h1.modEvals (by exact (all_modFirst · (fun he => by split <;> exact he)))).branch (·.verdict)
        (·.schedule)))))

theorem Fits.copyGraph (h : Fits s) {ds : List InstDef} {f : Nat} {es : List InstDef} : Fits
    (Machine.copyGraph s v c ds w f es) :=
  (h.foldl (·.writeEng)).foldl (fun h1 => (h1.writeEng.when (·.writeEng)))

theorem Fits.landWrite (h : Fits s) {tick : Nat} {x : ShadowWrite} : Fits (Machine.landWrite s v tick x) := by
  unfold Machine.landWrite
  split; exacts [h.wr.wr, h.wr.wr]

theorem Fits.closeBurst (h : Fits s) : Fits (Machine.closeBurst s v p) := h.clr.when (·.clr.modPort)

theorem Fits.landUpTo (h : Fits s) : Fits (Machine.landUpTo s v c k n) := by
  unfold Machine.landUpTo
  split
  · exact h
  · exact ((((h.foldl (·.landWrite)).modEvals).when (·.modPort)).when (fun h1 => (h1.foldl (·.landWrite)).wr.modPort)).wr

theorem Fits.writeBack (h : Fits s) {e : EvalSt} : Fits (Machine.writeBack s v c k e) :=
  (h.foldl (·.writeEng)).foldl (fun h1 => by split; exacts [h1.writeEng, h1])

theorem Fits.pushHistory (h : Fits s) {g : GraphSt} {cap : Cap} : Fits (Machine.pushHistory s v c g cap) := by
  unfold Machine.pushHistory
  split; exacts [(h.when (·.writeEng.writeEng.writeEng)), h]

theorem Fits.bumpHist (h : Fits s) {caps : List Cap} {q : Nat × PredDef} : Fits (Machine.bumpHist s v c k caps q) := h.wr

theorem Fits.commitHistory (h : Fits s) {e : EvalSt} : Fits (Machine.commitHistory s v c k e) :=
  (h.foldl (·.pushHistory)).foldl (fun h1 => (h1.bumpHist.when (·.wr)))

theorem Fits.commitMove (h : Fits s) {m : Nat × Bool} : Fits (Machine.commitMove s v m) := h.modChan.tryFreeze

theorem Fits.commitViews (h : Fits s) {e : EvalSt} : Fits (Machine.commitViews s v p e) :=
  have h1 := h.foldl (·.commitMove)
  by dsimp only [Machine.commitViews]; split; exacts [(h1.when (·.wr)), h1]

theorem Fits.commitFlags (h : Fits s) {e : EvalSt} : Fits (Machine.commitFlags s v c k p e) :=
  (((h.foldl (·.vatEvent)).when (·.vatFlagBit)).foldl (·.vatFlag)).commitViews

theorem Fits.mirrorCommit (h : Fits s) {e : EvalSt} : Fits (Machine.mirrorCommit s v c k p e) := by
  unfold Machine.mirrorCommit
  split; exacts [h, (h.copyGraph.modSlot).commitViews.guardCommit]

theorem Fits.completeCommit (h : Fits s) : Fits (Machine.completeCommit s v c k) := by
  unfold Machine.completeCommit
  split
  · exact h
  · exact (h.landUpTo.closeBurst.writeBack.commitHistory.commitFlags.wr.wr.wr.modSlot
      (by exact graphFits_of_evals all_dropFirst)).guardCommit.mirrorCommit.refreshWhey.schedule.compareOutcome

theorem Fits.abandon (h : Fits s) {landed : Nat} : Fits (Machine.abandon s v c k landed) := by
  unfold Machine.abandon
  split
  · exact h
  · exact (h.when (·.landUpTo.closeBurst)).branch (fun h3 =>
      (h3.branch (fun h1 => (h1.modEvals)) (fun h2 => (h2.modEvals (by exact all_dropFirst)))).missed)
      (fun h4 => (h4.modEvals (by exact all_dropFirst)).closeXhat.refreshWhey.schedule.missed)

theorem Fits.wheyError (h : Fits s) {b : Nat} : Fits (Machine.wheyError s v c k b) := by
  unfold Machine.wheyError
  split
  · exact h
  · exact Fits.ite h (Fits.ite h.raiseFlt (h.vatEvent.closeXhat.modEvals
      (by exact (all_modFirst · (fun _ => rfl)))).refreshWhey.schedule)

theorem Fits.refreshLoad (h : Fits s) : Fits (Machine.refreshLoad s v c) := h.wr.wr.wr

theorem Fits.bindRegs (h : Fits s) {w : WheelGraph} {fb : Bool} : Fits (Machine.bindRegs s v c k w fb) :=
  h.wrWord.wr.set1.wr.wr.wr.wr.wr.wr.wr.wr.wr.wr.foldl (·.wr.wr.wr.wr)

theorem Fits.bindGraph (h : Fits s) {w : WheelGraph} {fb : Bool} (hw : w.preds.length ≤ 16) : Fits (bindGraph s v c k w fb) :=
  (h.bindRegs.modSlot (by exact fun _ => slotGraph_fits hw fb)).refreshLoad

theorem Fits.writeDescSlot (h : Fits s) {defs : List InstDef} : Fits (Machine.writeDescSlot s v c k defs) :=
  h.foldl (·.writeEng)

theorem Fits.clearSlot (h : Fits s) : Fits (Machine.clearSlot s v c k) :=
  ((h.foldl (·.wrWord)).modSlot (by exact fun _ => rfl)).refreshLoad

theorem Fits.renumField (h : Fits s) {f : Field} {old : Nat} {new : Nat} : Fits (Machine.renumField s f old new n) :=
  h.when (·.wr)

theorem Fits.renumVat (h : Fits s) {old : Nat} {new : Nat} : Fits (Machine.renumVat s v p old new n) :=
  Fits.ite h (h.foldl (·.renumField)).modPort

theorem Fits.copyHist (h : Fits s) {f : Nat} {j : Nat} : Fits (Machine.copyHist s v c k w f j n) := h.forN (·.wr.wr)

theorem Fits.copyModel (h : Fits s) {f : Nat} {j : Nat} {w : WheelGraph} : Fits (Machine.copyModel s v c k f j w) :=
  h.forN (fun h1 => (h1.wrWord.wrWord.when (·.renumField)))

theorem Fits.moveGraph (h : Fits s) {w : WheelGraph} {j : Nat} (hw : w.preds.length ≤ 16) : Fits (moveGraph s v c k w j) :=
  have h1 := ((h.bindGraph hw).writeDescSlot.foldl (·.wrWord)).copyGraph.copyHist.copyModel.modSlot
  have h2 := ((h1.foldl (·.pushHistory)).foldl (·.bumpHist)).renumVat.when (·.sigdefMove)
  h2.clearSlot.setBit1.setBit1.vatEvent

theorem Fits.engineLost (h : Fits s) : Fits (Machine.engineLost s v p) := h.modPort.when (·.enterFaultPattern)

theorem Fits.migrateTick (h : Fits s) : Fits (Machine.migrateTick s v c k p) :=
  have h1 := h.wr.compareOutcome
  by dsimp only [Machine.migrateTick]; split; exacts [(h1.modSlot).engineLost, (h1.modSlot)]

theorem Fits.finishMigration (h : Fits s) : Fits (finishMigration s v c k p) := by
  unfold Machine.finishMigration
  split
  · exact h
  · next w hw => split; exacts [h.moveGraph (h.preds_of_find hw), (h.modSlot).engineLost]

theorem Fits.arriveGraph (h : Fits s) : Fits (Machine.arriveGraph s v p) := by
  unfold Machine.arriveGraph
  split; exacts [(h.when (·.finishMigration)), h]

theorem Fits.graphTick (h : Fits s) : Fits (Machine.graphTick s v p) := by
  unfold Machine.graphTick
  split
  · exact h
  · exact Fits.ite h (Fits.ite h.awaitArrivals.migrateTick (h.unless (·.awaitArrivals.beginEval)))

theorem Fits.joinModel (h : Fits s) {w : WheelGraph} : Fits (Machine.joinModel s v c k w) := by
  unfold Machine.joinModel
  split; exacts [h, (h.forN (fun h1 => (h1.wrWord.wrWord.unless (·.wr))))]

theorem Fits.placeGraph (h : Fits s) {w : WheelGraph} {fb : Bool} (hw : w.preds.length ≤ 16) : Fits (placeGraph s v c k w fb) :=
  ((h.bindGraph hw).joinModel.modSlot).when (·.renumVat)

theorem Fits.refreshLeft (h : Fits s) : Fits (Machine.refreshLeft s v) := h.wr.wr

theorem Fits.moveWaiting (h : Fits s) : Fits (moveWaiting s v c k) := by
  refine h.unless (fun h => ?_)
  split
  · exact h
  · next w hw => split; exacts [h.failJoin, (h.clearSlot.placeGraph (h.preds_of_find hw)).when (·.writeDescSlot)]

theorem Fits.cutBurst (h : Fits s) {landed : Nat} : Fits (Machine.cutBurst s v c k landed) := by
  unfold Machine.cutBurst
  split; exacts [h.landUpTo.closeBurst, h]

theorem Fits.retireEngine (h : Fits s) {landed : Nat} : Fits (retireEngine s v c landed) :=
  have h1 := h.forN (fun h => h.unless (fun h => (h.cutBurst.modSlot (by exact graphFits_of_noEvals)).closeXhat.refreshWhey))
  h1.modEng.wr.vatEvent.degSet.when (fun h => (h.forN (·.moveWaiting)).refreshLeft)

theorem Fits.freezeEngine (h : Fits s) {landed : Nat} : Fits (Machine.freezeEngine s v c landed) :=
  (h.forN (·.cutBurst)).unless (·.wr)

theorem Fits.countReload (h : Fits s) : Fits (Machine.countReload s v p) := by
  unfold Machine.countReload
  split; exacts [h, (h.modEvals (by exact (all_map ·))).judgeLanding]

theorem Fits.differentTags (h : Fits s) {tag : Nat} : Fits (Machine.differentTags s p tag k) :=
  Fits.ite h (Fits.ite h.update h.compareMismatch)

theorem Fits.reloadAgreed (h : Fits s) : Fits (Machine.reloadAgreed s p) := Fits.ite (h.forVats (·.modPort)) h

theorem Fits.compareReload (h : Fits s) : Fits (Machine.compareReload s v p) :=
  Fits.ite h (by dsimp only; split; exacts [h.update,
    (h.update.branch (·.reloadAgreed) (fun h1 => (h1.branch (·.compareMismatch) (·.differentTags))))])

theorem Fits.reloadAt (h : Fits s) {valley : Bool} {landed : Nat} : Fits (Machine.reloadAt s v p valley landed) :=
  Fits.ite h (Fits.seq (by split; exacts [by split; exacts [(h.when (·.landUpTo)), h], h])
    (fun h1 => h1.reloadPort.countReload.compareReload))

theorem Fits.headerWord (h : Fits s) {g : Nat} {i : Nat} {w : Nat} : Fits (Machine.headerWord s g i w) := h.writeMem

theorem Fits.armSegment (h : Fits s) {g : Nat} : Fits (Machine.armSegment s g) := h.update.wr.headerWord

theorem Fits.startRecorder (h : Fits s) : Fits (Machine.startRecorder s) := h.when (·.armSegment)

theorem Fits.putFrame (h : Fits s) {tick : Nat} {vals : List (ℤ × Bool)} : Fits (Machine.putFrame s tick vals) :=
  h.writeBytes.update

theorem Fits.fillFrames (h : Fits s) {first : Nat} : Fits (Machine.fillFrames s n first) :=
  h.forN (fun h1 => (h1.when (·.putFrame)))

theorem Fits.recorderTick (h : Fits s) : Fits (Machine.recorderTick s v p) := Fits.ite h (h.fillFrames.when (·.putFrame))

theorem Fits.fireTriggers (h : Fits s) {ts : List Nat} {r : LogRec} : Fits (Machine.fireTriggers s ts r) := by
  unfold Machine.fireTriggers
  split; exacts [h, h, h.incSat, (h.update.foldl (·.headerWord)).event]

theorem Fits.completeCapture (h : Fits s) : Fits (Machine.completeCapture s) :=
  have h1 := h.headerWord.headerWord.update.event
  by
    unfold Machine.completeCapture
    split
    · exact by dsimp only; split; exacts [h1.armSegment, by split; exacts [(h1.when (·.armSegment)), h1]]
    · exact h

theorem Fits.refreshLag (h : Fits s) : Fits (Machine.refreshLag s) := h.wr

theorem Fits.enterRing (h : Fits s) {r : LogRec} : Fits (Machine.enterRing s r) := h.writeBytes.wr.update.when (·.incWrap)

theorem Fits.reportLost (h : Fits s) : Fits (Machine.reportLost s) := h.unless (·.update.event)

theorem Fits.writeRecord (h : Fits s) : Fits (Machine.writeRecord s) := by
  unfold Machine.writeRecord
  split; exacts [h, h.update.enterRing.fireTriggers.reportLost.refreshLag]

theorem Fits.mirrorRecord (h : Fits s) : Fits (Machine.mirrorRecord s) := h.unless (·.writeBytes.update.refreshLag)

theorem Fits.selectTail (h : Fits s) : Fits (Machine.selectTail s) := h.wr.update.update.writeMem.writeMem

theorem Fits.brineEvent (h : Fits s) {m : Nat} {code : Nat} {data : Nat} : Fits (Machine.brineEvent s m code data) := by
  unfold Machine.brineEvent
  split; exacts [h.event, h.vatEvent]

theorem Fits.brineFlag (h : Fits s) {m : Nat} {f : Field} : Fits (Machine.brineFlag s m f) := by
  unfold Machine.brineFlag
  split; exacts [h.flag, (Fits.ite h.set1 h.flag)]

theorem Fits.brineSingle (h : Fits s) {m : Nat} {off : Nat} : Fits (Machine.brineSingle s m off) := h.incSat.wr.brineFlag

theorem Fits.overwriteByte (h : Fits s) {off : Nat} {b : Byte} : Fits (Machine.overwriteByte s off b) := h.unless (·.update)

theorem Fits.overwriteStore (h : Fits s) {off : Nat} {bs : List Byte} : Fits (overwriteStore s off bs) := by
  induction bs generalizing s off with
  | nil => exact h
  | cons b bs ih => exact ih h.overwriteByte

theorem Fits.zeroBytes (h : Fits s) {a : Nat} : Fits (State.zeroBytes s a n) := h.writeBytes

theorem Fits.zeroWord (h : Fits s) {m : Nat} {b : Nat} {off : Nat} : Fits (Machine.zeroWord s m b off) :=
  Fits.ite h.zeroBytes (Fits.ite h.overwriteStore h.writeMem)

theorem Fits.countRead (h : Fits s) {a : Nat} : Fits (Machine.countRead s a) := by
  unfold Machine.countRead
  split; exacts [(h.when (·.brineSingle)), h]

theorem Fits.brineZero (h : Fits s) {m : Nat} {off : Nat} : Fits (Machine.brineZero s m off) := by
  unfold Machine.brineZero
  split; exacts [(h.when (·.zeroWord)), (h.modEng), h]

theorem Fits.readDouble (h : Fits s) {a : Nat} : Fits (Machine.readDouble s a) := by
  unfold Machine.readDouble
  split; exacts [h.raiseFlt, h]

theorem Fits.brineDouble (h : Fits s) {m off : Nat} : Fits (brineDouble s m off) := by
  unfold Machine.brineDouble
  extract_lets u t w
  have ht : Fits t := h.incSat.wr.set1.brineEvent
  clear_value t
  split
  · exact ht.raiseFlt
  · have hw : Fits w := ht.brineZero
    clear_value w
    split
    · split; exacts [hw.wheyError, hw]
    · exact hw

theorem Fits.calSample (h : Fits s) {q : ℤ} : Fits (Machine.calSample s v n q) := Fits.ite h.modChan h.modChan

theorem Fits.calWindow (h : Fits s) : Fits (Machine.calWindow s v n) := (Fits.ite h (h.wr.wr.when (·.vatEvent))).modChan

theorem Fits.beginWindow (h : Fits s) : Fits (Machine.beginWindow s) := h.update.forVats (fun h1 => (h1.forN (·.modPort)))

theorem Fits.takeMonitor (h : Fits s) : Fits (Machine.takeMonitor s v n) :=
  Fits.ite h (h.modChan.branch (fun h1 => (h1.unless (·.set1.vatFlagEdge))) (·.clr))

theorem Fits.settleOutput (h : Fits s) : Fits (Machine.settleOutput s v n) :=
  Fits.ite h (Fits.ite (h.wr.when (·.takeMonitor)) h.clr)

theorem Fits.takeSample (h : Fits s) {x : ℤ} {sat : Bool} : Fits (Machine.takeSample s v n x sat) :=
  (((h.wr.incWrap.when (·.settleOutput)).when (·.vatFlag)).unless (·.freezeSample)).refreshValid.when (·.calSample)

theorem Fits.sliceOutput (h : Fits s) {bits : BitVec 256} : Fits (Machine.sliceOutput s v n bits) := h.modChan.takeSample

theorem Fits.pairFault (h : Fits s) : Fits (Machine.pairFault s v k p) :=
  have h1 := h.set1.vatEvent.wr
  by dsimp only [Machine.pairFault]; split; exacts [(h1.when (·.wrBit.safetyFault)), (h1.when (·.enterFaultPattern)), h1]

theorem Fits.pairTick (h : Fits s) : Fits (Machine.pairTick s v k p) :=
  Fits.ite h.set1 (h.clr.wrWord.branch (fun h1 => ((h1.wr.when (·.notePresent)).when (·.pairFault))) (·.wr))

theorem Fits.pairsTick (h : Fits s) : Fits (Machine.pairsTick s v p) := h.forN (fun h1 => (h1.when (·.pairTick)))

theorem Fits.takeRegs (h : Fits s) {lo : Nat} {hi : Nat} : Fits (Machine.takeRegs s v lo hi) := h.foldl (·.wrWord)

theorem Fits.joinChan (h : Fits s) : Fits (Machine.joinChan s v n) :=
  (h.wr.wrWord.branch (·.loseChan) (·.restartChan.modChan)).modChan

theorem Fits.joinGroup (h : Fits s) {g : Nat} : Fits (Machine.joinGroup s v g) :=
  (Fits.ite h.set1.vatFlag h.clr).wrWord.wr.wr.modGrp.forN (·.joinChan)

theorem Fits.joinFree (h : Fits s) {g : Nat} : Fits (Machine.joinFree s v g) := by
  unfold Machine.joinFree
  split; exacts [h.wr, h]

theorem Fits.joinRetired (h : Fits s) {f : Nat} : Fits (Machine.joinRetired s v f) :=
  Fits.ite h (h.when (·.wr.wr.wr.wr)).wr.modGrp

theorem Fits.joinSlices (h : Fits s) : Fits (Machine.joinSlices s v) :=
  (((h.forN (·.joinGroup)).forN (·.wr.wr)).forN (·.joinFree)).forN (·.joinRetired)

theorem Fits.joinPositions (h : Fits s) : Fits (Machine.joinPositions s v) := h.forN (·.wr.wr.wr.modPos)

theorem Fits.joinPulse (h : Fits s) : Fits (joinPulse s v) := by
  have hw := vatFits_iff.mp (h.vat (v := v.other))
  unfold Machine.joinPulse
  refine h.takeRegs.takeRegs.modVat (fun hx => ?_)
  rw [vatFits_iff] at hx ⊢
  simp [hx, hw]

theorem Fits.joinFallback (h : Fits s) {w : WheelGraph} (hw : w.preds.length ≤ 16) : Fits (joinFallback s v w) :=
  h.unless (fun h => by split; exacts [h.placeGraph hw, h.failJoin])

theorem Fits.joinGraphs (h : Fits s) : Fits (joinGraphs s v) :=
  have h1 := h.forN (fun h => h.wr.forN (·.clearSlot))
  (h1.foldGraphs (fun hw h => h.unless (·.placeGraph hw))).foldGraphs (fun hw h => h.when (·.joinFallback hw))

theorem Fits.releaseVat (h : Fits s) : Fits (Machine.releaseVat s v) :=
  (h.modVat).update.setRole.clr.clr.wr.set1.joinPulse.joinSlices.joinPositions.joinGraphs.refreshLeft

theorem Fits.copyEngineMemory (h : Fits s) : Fits (Machine.copyEngineMemory s v) := h.update.foldl (·.writeByte)

theorem Fits.placeGuests (h : Fits s) : Fits (Machine.placeGuests s v) :=
  h.forN (fun h2 => (h2.forN (fun h1 => (h1.when (·.writeDescSlot)))))

theorem Fits.enterGraph (h : Fits s) {f : Nat} {j : Nat} : Fits (Machine.enterGraph s v c k f j) :=
  h.copyGraph.copyHist.wrWord.wrWord.modSlot 

theorem Fits.enterTick (h : Fits s) : Fits (Machine.enterTick s v p) :=
  Fits.ite h (by split; exacts [(h.unless (·.enterGraph.refreshLeft)), h])

theorem Fits.claimAgainst (h : Fits s) : Fits (Machine.claimAgainst s v) := h.when (·.vatReset)

theorem Fits.joinCheck (h : Fits s) : Fits (Machine.joinCheck s v) := h.when (·.set1.clr.incSat.event.claimAgainst)

theorem Fits.heartbeatLost (h : Fits s) : Fits (Machine.heartbeatLost s v) := h.unless (·.set1.event.raiseFlt)

theorem Fits.vatFaultFlag (h : Fits s) {src : Nat} : Fits (Machine.vatFaultFlag s v src) :=
  Fits.ite h (Fits.ite h.raiseFlt (h.wrBit.set1.noteFlt.branch (·.failJoin) (·.vatReset)))

theorem Fits.attributeTo (h : Fits s) : Fits (Machine.attributeTo s v) :=
  h.wr.logMismatch.unless (fun h2 => (h2.branch (fun h1 => (h1.when (·.vatReset))) (·.vatReset)))

theorem Fits.unattributed (h : Fits s) : Fits (Machine.unattributed s) :=
  have h1 := h.wr.set1.logMismatch
  by dsimp only [Machine.unattributed]; split; exacts [h1, (h1.branch (·.setRole.vatReset.safetyFault) (·.update.vatReset))]

theorem Fits.attributionEnd (h : Fits s) : Fits (Machine.attributionEnd s) := by
  unfold Machine.attributionEnd
  split
  · exact h
  · exact h.update.branch (·.attributeTo) (fun h1 => (h1.branch (·.attributeTo) (·.unattributed)))

theorem Fits.refuseClaim (h : Fits s) {c : Bool} : Fits (Machine.refuseClaim s v c) := h.when (·.event)

theorem Fits.freeClaim (h : Fits s) {a : Bool} {b : Bool} : Fits (Machine.freeClaim s a b) :=
  Fits.ite h.takeover (h.when (·.takeover))

theorem Fits.claims (h : Fits s) {a : Bool} {b : Bool} : Fits (Machine.claims s a b) :=
  have h1 := h.refuseClaim.refuseClaim
  by dsimp only [Machine.claims]; split; exacts [h1.freeClaim, (h1.when (·.claimAgainst)), (h1.when (·.claimAgainst))]

theorem Fits.failDrill (h : Fits s) {o : Vat} : Fits (Machine.failDrill s o) :=
  h.update.wrBit.set1.noteFlt.clr.set1.event.setRole.vatReset

theorem Fits.padMismatch (h : Fits s) : Fits (Machine.padMismatch s n) := by
  unfold Machine.padMismatch
  split
  · exact h
  · split
    · exact h
    · exact Fits.ite h (h.set1.incSat.wrWord.wr.wr.wr.logMismatch.branch (·.failDrill)
        (fun h1 => (h1.abortDrill.branch (·.safetyFault) (·.update.raiseFltWith))))

theorem Fits.handItem (h : Fits s) {item : HandItem} : Fits (Machine.handItem s item) :=
  Fits.finishHandover (by split; exacts [(h.when (·.wrBit)), (h.when (·.update)), (h.when (·.update))])

theorem Fits.startDrill (h : Fits s) {back : Bool} : Fits (Machine.startDrill s back) := by
  unfold Machine.startDrill
  split; exacts [h, h.set1.update.takeover]

theorem Fits.passDrill (h : Fits s) : Fits (Machine.passDrill s) := h.update.clr.set1.incSat.event

theorem Fits.drillCheckEnd (h : Fits s) : Fits (Machine.drillCheckEnd s) :=
  Fits.ite h (by split; exacts [(Fits.ite h (Fits.ite (Fits.ite h.abortDrill h.update.takeover) h.passDrill)), h])

theorem Fits.modCan (h : Fits s) {f : CanChan → CanChan} : Fits (Machine.modCan s c f) := h.update

theorem Fits.modEntry (h : Fits s) {e : Nat} {f : CanEntry → CanEntry} : Fits (Machine.modEntry s c e f) := h.update

theorem Fits.putWriter (h : Fits s) {w : Writer} : Fits (Machine.putWriter s w) := h.update

theorem Fits.writeSignals (h : Fits s) {x : CanEntry} {val : CanSig → ℤ} : Fits (Machine.writeSignals s x val) :=
  h.foldl (·.putWriter)

theorem Fits.timeoutEntry (h : Fits s) {x : CanEntry} : Fits (Machine.timeoutEntry s x) :=
  h.set1.set1.incSat.event.writeSignals

theorem Fits.keepFv (h : Fits s) {x : CanEntry} {fv : Nat} : Fits (Machine.keepFv s x fv) := h.modEntry.unless (·.update)

theorem Fits.acceptFrame (h : Fits s) {x : CanEntry} {bytes : List Byte} {sof : Word} : Fits
    (Machine.acceptFrame s x bytes sof) :=
  h.wrWord.clr.incWrap.writeSignals

theorem Fits.takeFrame (h : Fits s) {x : CanEntry} {f : CanFrame} {sof : Word} : Fits (Machine.takeFrame s c x f sof) :=
  Fits.ite h.acceptFrame (by split; exacts [h.keepFv.acceptFrame, h.set1.incSat.event])

theorem Fits.refreshErr (h : Fits s) : Fits (Machine.refreshErr s c) := h.unless (·.wr)

theorem Fits.goodReception (h : Fits s) : Fits (Machine.goodReception s c) :=
  Fits.ite h (Fits.ite h (Fits.ite h.wr.refreshErr h.useFree.wr.refreshErr))

theorem Fits.discardFrame (h : Fits s) {x : CanEntry} : Fits (Machine.discardFrame s c x) := h.set1.event

theorem Fits.receiveFrame (h : Fits s) {f : CanFrame} {sof : Word} : Fits (receiveFrame s c f sof) :=
  h.goodReception.unless (fun h => by split; exacts [h.discardFrame, h.foldl (·.takeFrame)])

theorem Fits.refreshQueue (h : Fits s) : Fits (Machine.refreshQueue s c) := h.wr.wr.foldl (·.wr)

theorem Fits.enqueue (h : Fits s) {express : Bool} {f : TxFrame} : Fits (Machine.enqueue s c express f) :=
  Fits.ite h.update.refreshQueue (Fits.ite h.update.refreshQueue h.flag)

theorem Fits.feedService (h : Fits s) : Fits (Machine.feedService s) := h.unless (·.update.update.refreshQueue)

theorem Fits.periodicDue (h : Fits s) {x : CanEntry} {onBus : Option Nat} : Fits (Machine.periodicDue s x onBus) :=
  Fits.ite h.enqueue h.flag.update

theorem Fits.eventCheck (h : Fits s) {x : CanEntry} : Fits (Machine.eventCheck s x) := h.when (·.enqueue)

theorem Fits.countSent (h : Fits s) {f : TxFrame} {sof : Word} : Fits (Machine.countSent s f sof) := by
  unfold Machine.countSent
  split; exacts [h, by split; exacts [h, (h.wrWord.incWrap.modEntry.when (·.update))]]

theorem Fits.txAcked (h : Fits s) {express : Bool} {f : TxFrame} {sof : Word} : Fits (Machine.txAcked s c express f sof) :=
  h.update.wr.clr.wr.refreshErr.countSent.refreshQueue.when (·.feedService)

theorem Fits.retireChannel (h : Fits s) : Fits (Machine.retireChannel s c) := h.set1.set1.event.update.refreshQueue.degSet

theorem Fits.busOff (h : Fits s) : Fits (Machine.busOff s c) := h.wr.set1.incSat.event.update.when (·.retireChannel)

theorem Fits.txError (h : Fits s) : Fits (Machine.txError s c) := h.incSat.update.branch (·.busOff) (·.refreshErr)

theorem Fits.txUnacked (h : Fits s) : Fits (Machine.txUnacked s c) :=
  (h.update.incSat.unless (·.txError)).when (·.update.set1.set1.event)

theorem Fits.measureDelay (h : Fits s) {f : TxFrame} {tdcv : Nat} : Fits (Machine.measureDelay s c f tdcv) := h.when (·.wr)

theorem Fits.txComplete (h : Fits s) {acked : Bool} {sof : Word} {tdcv : Nat} : Fits (Machine.txComplete s c acked sof tdcv)
    := by
  unfold Machine.txComplete
  split
  · exact h
  · exact h.measureDelay.branch (·.txError) (fun h1 => (h1.branch (·.txAcked) (·.txUnacked)))

theorem Fits.transmitError (h : Fits s) {sof : Word} {tdcv : Option (BitVec 7)} : Fits (Machine.transmitError s c sof tdcv)
    := by
  unfold Machine.transmitError
  split; exacts [h.measureDelay.txError, h.txError]

theorem Fits.canError (h : Fits s) {x : CanErr} : Fits (Machine.canError s c x) := by
  unfold Machine.canError
  split; exacts [h.transmitError, h.incSat.refreshErr, h.incSat.refreshErr]

theorem Fits.moveEntry (h : Fits s) {a : Nat} {x : CanEntry} : Fits (Machine.moveEntry s a x) :=
  h.modEntry.unless (·.wrWord.wrWord.set1)

theorem Fits.moveFrames (h : Fits s) {a : Nat} : Fits (Machine.moveFrames s c a) :=
  (h.update.foldl (·.enqueue)).foldl (·.enqueue)

theorem Fits.entryMove (h : Fits s) : Fits (Machine.entryMove s c) := by
  unfold Machine.entryMove
  split; exacts [(Fits.ite h.update (h.foldl (·.moveEntry)).moveFrames), h.update]

theorem Fits.flushChannel (h : Fits s) {won : Option Nat} : Fits (Machine.flushChannel s c won) := by
  dsimp only [Machine.flushChannel]
  split; exacts [h.update.set1.incSat.event.refreshQueue, h.update.refreshQueue]

theorem Fits.noteLoser (h : Fits s) {w : Writer} : Fits (Machine.noteLoser s w) :=
  (h.when (·.useFree)).wrWord.wr.wr.wr.wr.wr.wr.set1.event

theorem Fits.noteLosers (h : Fits s) : Fits (Machine.noteLosers s) := (h.foldl (·.noteLoser)).update

theorem Fits.setPair (h : Fits s) {q : PairSt} : Fits (Machine.setPair s k q) := Fits.ite h.update h.update

theorem Fits.clearPort (h : Fits s) : Fits (Machine.clearPort s v p) :=
  Fits.ite h (by split; exacts [h.setUnitState, h.vatEvent])

theorem Fits.markAsserted (h : Fits s) : Fits (Machine.markAsserted s) := h.update

theorem Fits.safeRestart (h : Fits s) : Fits (Machine.safeRestart s) :=
  Fits.ite h (Fits.ite h.event h.clr.event.gateOn.markAsserted.setDev)

theorem Fits.releasePattern (h : Fits s) : Fits (Machine.releasePattern s p) := h.forVats (fun h1 => (h1.when (·.asctOver)))

theorem Fits.deviceOrders (h : Fits s) {old : List (Nat × ℤ)} : Fits (Machine.deviceOrders s old) :=
  ((h.when (·.takeSto)).when (·.startSs1)).when (·.safeRestart)

theorem Fits.portOrders (h : Fits s) {old : List (Nat × ℤ)} : Fits (Machine.portOrders s old p) :=
  (h.when (·.releasePattern)).when (fun h2 => (h2.forVats (fun h1 => (h1.when (·.clearPort)))))

theorem Fits.resolveOrders (h : Fits s) : Fits (Machine.resolveOrders s) :=
  Fits.ite h (h.update.noteLosers.update.deviceOrders.forN (·.portOrders))

theorem Fits.refreshDemands (h : Fits s) : Fits (Machine.refreshDemands s) :=
  h.wr.unless (fun h1 => (h1.set1.event.branch (·.takeSto) (·.startSs1)))

theorem Fits.pairStep (h : Fits s) : Fits (Machine.pairStep s k) := Fits.ite h (h.setPair.when (·.clr))

theorem Fits.inputLevel (h : Fits s) {i : Nat} {high : Bool} : Fits (Machine.inputLevel s i high) :=
  h.unless (·.wrBit.pairStep.refreshDemands)

theorem Fits.judgeInputs (h : Fits s) : Fits (Machine.judgeInputs s) := h.pairStep.pairStep.refreshDemands

theorem Fits.latchDiscrepancy (h : Fits s) : Fits (Machine.latchDiscrepancy s k) :=
  Fits.ite h (h.setPair.unless (·.set1.set1.event.refreshDemands))

theorem Fits.railFault (h : Fits s) : Fits (Machine.railFault s) := h.unless (·.set1.flag.takeSto)

theorem Fits.ss1Timeout (h : Fits s) : Fits (Machine.ss1Timeout s) := h.when (·.enterSafeStop)

theorem Fits.rideExpiry (h : Fits s) : Fits (Machine.rideExpiry s) := h.when (·.set1.event.startSs1)

theorem Fits.outOffDelay (h : Fits s) : Fits (Machine.outOffDelay s n) := h.when (·.wrBit.update)

theorem Fits.setWait (h : Fits s) {b : Bool} : Fits (Machine.setWait s n b) := h.update

theorem Fits.testPulseDue (h : Fits s) : Fits (Machine.testPulseDue s n) :=
  Fits.ite h (Fits.ite h.setWait h.wrBit.setWait.wrBit)

theorem Fits.outFault (h : Fits s) {kind : Nat} {bit : Nat} {f : Field} : Fits (Machine.outFault s n kind bit f) :=
  h.set1.event.safetyFault

theorem Fits.testPulseEnd (h : Fits s) {ok : Bool} {changed : Nat} : Fits (Machine.testPulseEnd s n ok changed) :=
  Fits.ite h ((h.wrBit.wrBit.update.branch (·.incSat) (·.outFault)).when (·.outFault))

theorem Fits.feedbackError (h : Fits s) : Fits (Machine.feedbackError s n) := h.when (·.outFault)

theorem Fits.modNet (h : Fits s) {f : NetSt → NetSt} : Fits (Machine.modNet s f) := h.update

theorem Fits.loseSync (h : Fits s) : Fits (Machine.loseSync s) := h.update.set1.unless (·.clr.set1.event.loseRestAll)

theorem Fits.gainSync (h : Fits s) : Fits (Machine.gainSync s) := Fits.ite h.clr h.set1.clr.event

theorem Fits.gmSync (h : Fits s) : Fits (Machine.gmSync s) := h.when (·.gainSync)

theorem Fits.takeRole (h : Fits s) {r : PtpRole} : Fits (Machine.takeRole s r) := (h.unless (·.update)).wr.gmSync

theorem Fits.dropForeign (h : Fits s) : Fits (Machine.dropForeign s p) := h.update

theorem Fits.applyStep (h : Fits s) : Fits (Machine.applyStep s) := h.update.set1.incSat.event

theorem Fits.stepGo (h : Fits s) : Fits (Machine.stepGo s) := h.unless (·.applyStep)

theorem Fits.setFreq (h : Fits s) {w : Word} : Fits (Machine.setFreq s w) := h.wr

theorem Fits.takeOffset (h : Fits s) {ns : ℤ} {freq : Word} : Fits (Machine.takeOffset s ns freq) :=
  (h.update.branch (·.wrWord.wrWord.stepGo) (·.setFreq)).branch (·.gainSync) (fun h1 => (h1.branch (·.loseSync) (·.wr)))

theorem Fits.announceTimeout (h : Fits s) {p : Fin 2} : Fits (Machine.announceTimeout s p) :=
  (h.when (·.set1)).dropForeign.takeRole

theorem Fits.throughClock (h : Fits s) {since : ℤ} {stamp : Nat} {f : List Byte} {o : Nat} : Fits
    (Machine.throughClock s p since stamp f o).1 :=
  Fits.ite₁ (Fits.ite₁ h.update h.incSat) (Fits.ite₁ (by split; exacts [h.update, h.incSat]) (Fits.ite₁ h h))

theorem Fits.departing (h : Fits s) {stamp : Nat} {f : QFrame} : Fits (Machine.departing s stamp f).1 := by
  unfold Machine.departing
  split; exacts [h.throughClock, h]

theorem Fits.transmit (h : Fits s) {f : QFrame} : Fits (Machine.transmit s p f) := h.departing.update

theorem Fits.drainPort (h : Fits s) : Fits (Machine.drainPort s p) := Fits.ite h (by split; exacts [h.update.transmit, h])

theorem Fits.sendOn (h : Fits s) {q : Nat} {f : QFrame} : Fits (Machine.sendOn s p q f) :=
  Fits.ite (h.when (·.update)) (h.when (·.update.drainPort))

theorem Fits.sendOut (h : Fits s) {f : QFrame} : Fits (Machine.sendOut s p f) := h.sendOn

theorem Fits.learn (h : Fits s) {f : List Byte} : Fits (Machine.learn s p f) := Fits.ite h (h.when (·.update))

theorem Fits.forward (h : Fits s) {raw : Nat} {f : List Byte} : Fits (Machine.forward s p raw f) := by
  dsimp only [Machine.forward]
  split; exacts [(h.foldl (·.sendOut)), (h.sendOut.when (·.sendOut))]

theorem Fits.hostSend (h : Fits s) {f : List Byte} : Fits (Machine.hostSend s p f) := h.learn.sendOut

theorem Fits.enqueueLaunch (h : Fits s) {q : Nat} {launch : Nat} {f : List Byte} : Fits
    (Machine.enqueueLaunch s p q launch f) :=
  h.learn.branch (·.update) (·.sendOn)

theorem Fits.restorationBroadcast (h : Fits s) : Fits (Machine.restorationBroadcast s v p) :=
  ((h.forVats (·.modGuard)).foldl (fun h1 => (h1.when (·.enqueueLaunch)))).receiveRestAll

theorem Fits.answerDelay (h : Fits s) {m : HeldPtp} {o : Nat} : Fits (Machine.answerDelay s m o) :=
  Fits.ite h.hostSend (h.when (·.hostSend))

theorem Fits.hearAnnounce (h : Fits s) {m : HeldPtp} {o : Nat} : Fits (Machine.hearAnnounce s m o) :=
  Fits.ite h (h.when (·.update)).takeRole

theorem Fits.processPtp (h : Fits s) {m : HeldPtp} : Fits (processPtp s m) := by
  unfold Machine.processPtp
  extract_lets u
  have hu : Fits u := by unfold u; split; exacts [h.answerDelay.hearAnnounce, h]
  split; exacts [hu, hu.when (·.takeOffset), hu.modNet]

theorem Fits.takePtp (h : Fits s) {m : HeldPtp} : Fits (Machine.takePtp s m) := Fits.ite h.processPtp (h.when (·.update))

theorem Fits.resumePtp (h : Fits s) : Fits (Machine.resumePtp s) := Fits.ite h (h.update.foldl (·.processPtp))

theorem Fits.receiveEth (h : Fits s) {f : List Byte} {bad : Bool} {raw : Nat} {r : PtpResult} : Fits
    (Machine.receiveEth s p f bad raw r) :=
  have h1 := h.update.learn.forward.when (·.takePtp)
  Fits.ite h.incSat.flag (by dsimp only; split; exacts [h1.receiveRestAll, h1])

theorem Fits.countLate (h : Fits s) {q : Nat} {dropped : Bool} : Fits (Machine.countLate s p q dropped) := h.incSat.event

theorem Fits.launchHead (h : Fits s) {q : Nat} : Fits (Machine.launchHead s p q) := by
  unfold Machine.launchHead
  split
  · exact h
  · exact Fits.ite h (h.update.branch (·.countLate)
      (fun h2 => (h2.branch (·.transmit) (fun h1 => (h1.branch (·.countLate.transmit) (·.countLate))))))

theorem Fits.linkLoss (h : Fits s) : Fits (Machine.linkLoss s p) :=
  have h2 := h.clr.set1.event.dropForeign
  Fits.seq (by split; exacts [(h2.when (·.update)), h2]) (fun h1 => (h1.when (·.loseSync)))

theorem Fits.capture (h : Fits s) {req : Bool} {pps : Bool} : Fits (Machine.capture s req pps) :=
  (h.forN (·.wr)).wr.wr.wr.wr.wr.wr.incWrap

theorem Fits.ppsIn (h : Fits s) {rising : Bool} {req : Bool} : Fits (Machine.ppsIn s rising req) :=
  Fits.ite (h.when (·.capture)) (h.update.flag.incWrap.branch (·.capture) (fun h1 => (h1.when (·.capture))))

theorem Fits.ppsSecond (h : Fits s) : Fits (Machine.ppsSecond s) := h.when (·.update)

theorem Fits.modRind (h : Fits s) {f : RindSt → RindSt} : Fits (Machine.modRind s f) := h.update

theorem Fits.putParBytes (h : Fits s) {i : Nat} {bs : List Byte} : Fits (Machine.putParBytes s i bs) := h.update

theorem Fits.tapRestart (h : Fits s) : Fits (Machine.tapRestart s) := h.clr.update

theorem Fits.tapBegin (h : Fits s) : Fits (Machine.tapBegin s) := h.unless (·.wr.set1.update)

theorem Fits.bumpPub (h : Fits s) : Fits (Machine.bumpPub s) := h.wr.unless (·.clr)

theorem Fits.publishStatus (h : Fits s) : Fits (Machine.publishStatus s) :=
  (h.wr.forN (·.wrWord)).wr.wr.wr.wr.wr.wr.wr.wr.wr.wr.wr.wr.wr.wr.wr.wr.wr.wr.wr.wr.forN (·.wr)

theorem Fits.drainPulse (h : Fits s) : Fits (Machine.drainPulse s) := h.when (·.update)

theorem Fits.refillBudget (h : Fits s) : Fits (Machine.refillBudget s) := h.update

theorem Fits.impulse (h : Fits s) : Fits (Machine.impulse s) := h.update.branch (·.update) (·.update)

theorem Fits.sessFlag (h : Fits s) {bit : Nat} : Fits (Machine.sessFlag s bit) := h.update

theorem Fits.closeSession (h : Fits s) {endMt : Nat} {e : List Nat} {extra : Nat} : Fits
    (Machine.closeSession s endMt e extra) := by
  unfold Machine.closeSession
  split; exacts [h, (h.useFree.update.forN (·.wr))]

theorem Fits.openSession (h : Fits s) {before : List Nat} : Fits (Machine.openSession s before) := h.update

theorem Fits.sessionStep (h : Fits s) {above : Bool} {before : List Nat} : Fits (Machine.sessionStep s above before) := by
  unfold Machine.sessionStep
  split; exacts [(h.when (·.openSession)), (h.update.when (·.closeSession))]

theorem Fits.meterPeriod (h : Fits s) {bits : BitVec 2048} : Fits (Machine.meterPeriod s bits) :=
  h.update.unless (·.sessFlag)

theorem Fits.meter (h : Fits s) {bits : MeterBits} : Fits (Machine.meter s bits) := h.foldl (·.meterPeriod)

theorem Fits.addEnergy (h : Fits s) {i : Nat} : Fits (Machine.addEnergy s i n) := h.update

theorem Fits.meterSecond (h : Fits s) : Fits (Machine.meterSecond s) := h.addEnergy.addEnergy.addEnergy

theorem Fits.clearSecond (h : Fits s) : Fits (Machine.clearSecond s) := h.update

theorem Fits.writeSlot (h : Fits s) : Fits (Machine.writeSlot s) := h.update

theorem Fits.publishInput (h : Fits s) {i : Nat} : Fits (Machine.publishInput s i) := h.wrWord.wr.wr.wr.update

theorem Fits.commit (h : Fits s) {bits : MeterBits} : Fits (Machine.commit s bits) :=
  ((h.drainPulse.refillBudget.meter.when (·.meterSecond.sessionStep)).update.writeSlot.forN
    (·.publishInput)).clearSecond.publishStatus.bumpPub

theorem Fits.brownoutWarning (h : Fits s) : Fits (Machine.brownoutWarning s) :=
  (h.useFree.meter.when (·.meterSecond)).update.writeSlot

theorem Fits.publish (h : Fits s) {bits : MeterBits} : Fits (Machine.publish s bits) :=
  ((h.meter.when (·.addEnergy)).forN (·.wrWord)).wrWord.wrWord.wrWord.wrWord.update.bumpPub

theorem Fits.setStale (h : Fits s) {i : Nat} {b : Bool} : Fits (Machine.setStale s i b) := h.update

theorem Fits.checkRom (h : Fits s) {ok : Bool} : Fits (Machine.checkRom s ok) := Fits.ite h.update h.useFree.update

theorem Fits.checkPars (h : Fits s) {ok0 : Bool} {ok1 : Bool} : Fits (Machine.checkPars s ok0 ok1) := h.update

theorem Fits.clearWindow (h : Fits s) : Fits (Machine.clearWindow s) :=
  ((h.foldl (·.wrWord)).forN (·.wrWord.wrWord.wrWord)).wr.wr.forN (·.wrWord)

theorem Fits.rindReset (h : Fits s) {watchdog : Bool} {romOk : Bool} {par0 : Bool} {par1 : Bool} {slots : BitVec 32} : Fits
    (Machine.rindReset s watchdog romOk par0 par1 slots) :=
  ((h.when (·.update)).clearWindow.update.closeSession.checkRom.checkPars.unless (·.tapRestart)).publishStatus

theorem Fits.auditWrite (h : Fits s) {id : Nat} {old : Word} : Fits (Machine.auditWrite s id old) := h.update.sessFlag

theorem Fits.sealWrite (h : Fits s) {id : Nat} {bs : List Byte} (e : sealWrite s id bs = some t) : Fits t := by
  unfold Machine.sealWrite at e
  split at e
  · cases e
  · split at e
    · cases e
    · cases e
      exact (h.putParBytes.unless (·.tapRestart)).auditWrite

theorem Fits.respond (h : Fits s) {cmd : Nat} {status : Nat} {payload : List Byte} : Fits
    (Machine.respond s cmd status payload) :=
  h.update

theorem Fits.setMt (h : Fits s) {mt : Nat} : Fits (Machine.setMt s mt) := h.useFree.update.auditWrite

theorem Fits.badPortFrame (h : Fits s) {f : List Byte} : Fits (Machine.badPortFrame s f) :=
  Fits.ite h.respond h.useFree.respond

theorem Fits.strayFrame (h : Fits s) {f : List Byte} : Fits (Machine.strayFrame s f) :=
  Fits.ite h.badPortFrame (h.unless (·.respond))

theorem Fits.takeCorr (h : Fits s) {m : List Byte} : Fits (Machine.takeCorr s m) :=
  h.refillBudget.branch (·.update) (fun h1 => (h1.update.sessFlag.when (·.sessFlag)))

theorem Fits.tapOutput (h : Fits s) {x : ℤ} {stale : Bool} : Fits (Machine.tapOutput s x stale) :=
  Fits.ite h.wr.wr.clr h.wr.clr

theorem Fits.tapSample (h : Fits s) {bits : BitVec 128} : Fits (Machine.tapSample s bits) :=
  (h.tapBegin.update.when (·.flag)).wr.incWrap.tapOutput

theorem Fits.rindDown (h : Fits s) {power : Bool} : Fits (Machine.rindDown s power) :=
  (h.when (·.update)).unless (fun h1 => ((h1.when (·.tapRestart)).unless (·.set1.flag)))

theorem Fits.modTrust (h : Fits s) {f : TrustSt → TrustSt} : Fits (Machine.modTrust s f) := h.update

theorem Fits.sendResponse (h : Fits s) {cmd : Nat} {status : Nat} {body : List Byte} {sess : Option Session} : Fits
    (Machine.sendResponse s cmd status body sess) :=
  h.update.feedService

theorem Fits.logCommand (h : Fits s) {cmd : Nat} {status : Nat} {serial : Nat} : Fits
    (Machine.logCommand s cmd status serial) := by
  unfold Machine.logCommand
  split; exacts [h.event, h.event, h.event, h.event]

theorem Fits.authFail (h : Fits s) : Fits (Machine.authFail s) := h.set1.incSat

theorem Fits.clearSegments (h : Fits s) : Fits (Machine.clearSegments s) := h.update

theorem Fits.discardMessage (h : Fits s) : Fits (Machine.discardMessage s) := h.clearSegments.sendResponse.event

theorem Fits.holdRequest (h : Fits s) {r : Request} : Fits (Machine.holdRequest s r) :=
  Fits.ite h.update h.sendResponse.event

theorem Fits.sessionRequest (h : Fits s) {cmd ctr : Nat} {m rest : List Byte} : Fits (sessionRequest s cmd ctr m rest) := by
  refine Fits.ite h.sendResponse.logCommand ?_
  split
  · exact h.sendResponse.logCommand
  · extract_lets body
    clear_value body
    split; exacts [h.authFail.sendResponse.logCommand, h.modTrust.holdRequest]

theorem Fits.completeMessage (h : Fits s) : Fits (Machine.completeMessage s) :=
  Fits.ite h.discardMessage (h.clearSegments.branch (·.holdRequest) (·.sessionRequest))

theorem Fits.takeSegment (h : Fits s) {seg : BitVec 512} : Fits (Machine.takeSegment s seg) :=
  h.goodReception.unless (fun h2 => (h2.branch (·.discardMessage) (fun h1 => (h1.update.when (·.completeMessage)))))

theorem Fits.serve (h : Fits s) {cmd : Nat} {level : Option Nat} {okState : State → Bool} {act : State → Request → Answer}
    {after : State → State} (hact : ∀ {t r}, Fits t → Fits (act t r).1) (hafter : ∀ {t}, Fits t → Fits (after t)) :
    Fits (serve s cmd level okState act after) := by
  unfold Machine.serve
  split
  · exact h
  · exact h.unless (fun h => (Fits.ite₁ (hact h) h).update.logCommand.sendResponse.when hafter)

theorem Fits.accept (h : Fits s) : Fits (Machine.accept s).1 := h

theorem Fits.refuse (h : Fits s) : Fits (Machine.refuse s).1 := h

theorem Fits.endSessionAs (h : Fits s) {reason : Nat} : Fits (Machine.endSessionAs s reason) := by
  unfold Machine.endSessionAs
  split; exacts [h, h.update.clr.wr.event]

theorem Fits.doHello (h : Fits s) {x : Request} : Fits (Machine.doHello s x).1 := Fits.ite₁ h.refuse h.useFree.update

theorem Fits.openService (h : Fits s) {b : List Byte} : Fits (Machine.openService s b n) :=
  h.endSessionAs.update.set1.wr.incSat.event

theorem Fits.doAuth (h : Fits s) {r : Request} : Fits (Machine.doAuth s r).1 := by
  unfold Machine.doAuth
  split; exacts [(Fits.ite₁ h.openService.accept h.authFail.event), h.authFail.event]

theorem Fits.doRead (h : Fits s) {r : Request} : Fits (Machine.doRead s r).1 :=
  Fits.ite₁ h.refuse (by split; exacts [h.event.readDouble.refuse, (h.forN (·.countRead))])

theorem Fits.doWheySelect (h : Fits s) {r : Request} : Fits (Machine.doWheySelect s r).1 :=
  Fits.ite₁ h.refuse (h.when (·.wrAs)).accept

theorem Fits.doOrder (h : Fits s) {r : Request} : Fits (Machine.doOrder s r).1 := by
  unfold Machine.doOrder
  split; exacts [h.putWriter.accept, h.refuse]

theorem Fits.doSenseSync (h : Fits s) {r : Request} : Fits (Machine.doSenseSync s r).1 :=
  Fits.ite₁ h (Fits.ite₁ (h.forN (fun h1 => (h1.unless (·.event)))).refuse
    (h.forVats (fun h4 => (h4.when (fun h3 => (h3.forN (fun h2 => (h2.unless (·.requestSync)))))))).accept)

theorem Fits.doDrill (h : Fits s) {r : Request} : Fits (Machine.doDrill s r).1 :=
  Fits.ite₁ h.abortDrill.refuse (Fits.ite₁ h.startDrill.accept h.refuse)

theorem Fits.doVatReset (h : Fits s) {r : Request} : Fits (Machine.doVatReset s r).1 :=
  Fits.ite₁ h.refuse h.raiseFltWith.accept

theorem Fits.doSafetyClear (h : Fits s) {x : Request} : Fits (Machine.doSafetyClear s x).1 :=
  Fits.ite₁ h.wrWord.endRide.event.accept h.event.refuse

theorem Fits.doFlush (h : Fits s) {won : Option (BitVec 32)} {r : Request} : Fits (Machine.doFlush won s r).1 :=
  Fits.ite₁ h.flushChannel.accept h.refuse

theorem Fits.setStartFails (h : Fits s) : Fits (Machine.setStartFails s n) := h.wr.update

theorem Fits.doRecoveryExit (h : Fits s) {x : Request} : Fits (Machine.doRecoveryExit s x).1 :=
  Fits.ite₁ h.refuse h.setStartFails.accept

theorem Fits.doWheelErase (h : Fits s) {r : Request} : Fits (Machine.doWheelErase s r).1 :=
  Fits.ite₁ h.update.update.accept h.refuse

theorem Fits.doWheelWrite (h : Fits s) {ok : Bool} {r : Request} : Fits (Machine.doWheelWrite ok s r).1 :=
  Fits.ite₁ h (Fits.ite₁ h.refuse (Fits.ite₁ h.writeBytes.accept h.writeBytes.update.refuse))

theorem Fits.showConf (h : Fits s) {c : ConfCopy} : Fits (Machine.showConf s c) := h.wr.wr.wr.wr.wr

theorem Fits.doSafeConfirm (h : Fits s) {r : Request} : Fits (Machine.doSafeConfirm s r).1 :=
  Fits.ite₁ h.refuse (Fits.ite₁ h.accept h.update.showConf.clr.event.accept)

theorem Fits.doMtCorrect (h : Fits s) {r : Request} : Fits (Machine.doMtCorrect s r).1 :=
  Fits.ite₁ h.refuse (Fits.ite₁ h (h.forN (·.wrAs)).accept)

theorem Fits.erasePatch (h : Fits s) : Fits (Machine.erasePatch s) := h.update

theorem Fits.doPatchWrite (h : Fits s) {r : Request} : Fits (Machine.doPatchWrite s r).1 :=
  Fits.ite₁ h.refuse h.erasePatch.writeBytes.accept

theorem Fits.doCertRevoke (h : Fits s) {r : Request} : Fits (Machine.doCertRevoke s r).1 := h.update.wr.accept

theorem Fits.doDebugUnlock (h : Fits s) {r : Request} : Fits (Machine.doDebugUnlock s r).1 :=
  Fits.ite₁ h.update.accept h.refuse

theorem Fits.doOwnerXfer (h : Fits s) {fuse : FuseResult} {r : Request} : Fits (doOwnerXfer fuse s r).1 := by
  refine Fits.ite₁ h ?_
  split
  · exact h.refuse
  · extract_lets old u w
    have hw : Fits w := h.modTrust.when (·.modTrust)
    exact Fits.ite₁ hw.accept (Fits.ite₁ hw.event.accept hw.refuse)

theorem Fits.doDecommission (h : Fits s) {x : Request} : Fits (Machine.doDecommission s x).1 :=
  Fits.ite₁ h.refuse h.update.event.accept

theorem Fits.masterEvent (h : Fits s) {m : Nat} {code : Nat} {data : Nat} : Fits (Machine.masterEvent s m code data) := by
  unfold Machine.masterEvent
  split; exacts [(Fits.ite h.event h.vatEvent), h.event]

theorem Fits.setViolVt (h : Fits s) {w : Option Vat} : Fits (Machine.setViolVt s w) := h.update

theorem Fits.recordVat (h : Fits s) {m : Nat} {a : Nat} {write : Bool} {byRegion : Bool} {landed : Nat} : Fits
    (Machine.recordVat s v m a write byRegion landed) :=
  ((h.when (·.freezeEngine)).wrBit.unless (·.wr.wr.wr.wr.set1.setViolVt)).incSat

theorem Fits.recordCommon (h : Fits s) {m : Nat} {a : Nat} {write : Bool} : Fits (Machine.recordCommon s m a write) :=
  (h.wrBit.unless (·.wr.wr.wr.set1.setViolVt)).incSat

theorem Fits.freezeEffect (h : Fits s) {m : Nat} : Fits (Machine.freezeEffect s m) := by
  unfold Machine.freezeEffect
  split; exacts [h.raiseFlt, (h.when (·.update.clr.loseSync))]

theorem Fits.violation (h : Fits s) {m : Nat} {a : Nat} {write : Bool} {byRegion : Bool} {landed : Nat} : Fits
    (Machine.violation s m a write byRegion landed) :=
  Fits.seq (by split; exacts [h.recordVat, h.recordCommon]) (fun h1 => h1.masterEvent.freezeEffect)

theorem Fits.busError (h : Fits s) {m : Nat} {a : Nat} {write : Bool} : Fits (Machine.busError s m a write) := h.masterEvent

theorem Fits.noteJtagWrite (h : Fits s) : Fits (Machine.noteJtagWrite s) := h.set1.event

theorem Fits.noteIssue (h : Fits s) {m : Nat} {write : Bool} : Fits (Machine.noteIssue s m write) := h.when (·.noteJtagWrite)

theorem Fits.failRead (h : Fits s) {m : Nat} {a : Nat} : Fits (Machine.failRead s m a) := h.busError.readDouble

theorem Fits.busAccess (h : Fits s) {m a width : Nat} {dir : BusDir} {act : State → State} (hact : ∀ {t}, Fits t → Fits (act t)) :
    Fits (busAccess s m a width dir act) := by
  unfold Machine.busAccess
  split
  · exact h
  · exact h.unless (fun h => (h.branch (·.busError) (·.unless (·.branch (·.violation) hact))).noteIssue)

theorem Fits.wordAccess (h : Fits s) {m a : Nat} {write : Bool} {act : State → State} (hact : ∀ {t}, Fits t → Fits (act t)) :
    Fits (wordAccess s m a write act) := h.busAccess hact

theorem Fits.landBits (h : Fits s) {a : Nat} {row : RegRow} {data : Word} : Fits (Machine.landBits s a row data) := h.wrWord

theorem Fits.applyCodes (h : Fits s) {m : Nat} {a : Nat} {data : Word} : Fits (Machine.applyCodes s m a data) := by
  unfold Machine.applyCodes
  split; exacts [h, (h.landBits.unless (·.masterEvent))]

theorem Fits.storeWrite (h : Fits s) {m : Nat} {a : Nat} {data : Word} : Fits (Machine.storeWrite s m a data) :=
  Fits.ite (Fits.ite h.sysReset (Fits.ite (by split; exacts [h.raiseFltWith, h]) h))
    (Fits.ite h.setFreq (Fits.ite (h.when (·.stepGo))
    (Fits.ite (h.applyCodes.when (·.capture)) (by split; exacts
    [(Fits.ite h (Fits.ite h.requestSync h.wr)), h.applyCodes]))))

theorem Fits.storeMemory (h : Fits s) {a : Nat} {data : Word} : Fits (Machine.storeMemory s a n data) :=
  Fits.ite h.overwriteStore (h.unless (·.writeBytes))

theorem Fits.landBusWrite (h : Fits s) {m : Nat} {a : Nat} {data : Word} : Fits (Machine.landBusWrite s m a n data) :=
  Fits.ite h.noteWrite.storeWrite h.storeMemory

theorem Fits.jtagWrite (h : Fits s) {a : Nat} {data : Word} : Fits (jtagWrite s a data) := by
  unfold Machine.jtagWrite
  exact h.wordAccess (·.landBusWrite)

theorem Fits.jtagRead (h : Fits s) {a : Nat} : Fits (jtagRead s a) := by
  unfold Machine.jtagRead
  exact h.wordAccess (·.branch (·.failRead) (·.countRead))

theorem Fits.jtagDo (h : Fits s) {op : JtagOp} : Fits (Machine.jtagDo s op) := by
  unfold Machine.jtagDo
  split; exacts [h.update, h.update, h.update, h.update, h.jtagRead, h.jtagWrite]

theorem Fits.putWheelWord (h : Fits s) {a : Nat} {w : Word} : Fits (Machine.putWheelWord s a w) :=
  Fits.ite h.setFreq (by split; exacts [h.wrWord, h])

theorem Fits.trialState (h : Fits s) {regs : List (Nat × Word)} : Fits (Machine.trialState s regs) :=
  h.foldl (·.putWheelWord)

theorem Fits.startFailure (h : Fits s) : Fits (Machine.startFailure s) := h.event.sysReset

theorem Fits.rejectSlot (h : Fits s) : Fits (Machine.rejectSlot s k c) := h.wr.event

theorem Fits.fuseOwner (h : Fits s) {r : FuseResult} : Fits (fuseOwner s k r).1 := by
  refine Fits.ite₁ h ?_
  split
  · exact h
  · extract_lets u w
    have hw : Fits w := h.modTrust.when (·.modTrust)
    exact Fits.ite₁ hw.brownOut (Fits.ite₁ hw hw)

theorem Fits.judgeSlot (h : Fits s) {r : FlashRead} {fuse : FuseResult} : Fits (judgeSlot s k r fuse).1 := by
  unfold Machine.judgeSlot
  split
  · exact h.rejectSlot
  · have hf := h.fuseOwner (k := k) (r := fuse)
    split
    · next hu => rw [hu] at hf; exact hf.unless (·.rejectSlot)
    · next hu => rw [hu] at hf; exact hf.wr

theorem Fits.judgeSlots (h : Fits s) {reads : Nat → FlashRead} {fuses : Nat → FuseResult} {ks : List Nat} :
    Fits (judgeSlots s reads fuses ks).1 := by
  induction ks generalizing s with
  | nil => exact h
  | cons j ks ih =>
    have hj := h.judgeSlot (k := j) (r := reads j) (fuse := fuses j)
    unfold Machine.judgeSlots
    split
    · next hu => rw [hu] at hj; exact hj
    · next hu => rw [hu] at hj; exact Fits.ite₁ hj (ih hj)

theorem Fits.rejectHeaders (h : Fits s) {reads : Nat → FlashRead} : Fits (Machine.rejectHeaders s reads) :=
  h.foldl (fun h1 => by split; exacts [h1.rejectSlot, h1])

theorem Fits.chooseSlot (h : Fits s) {reads : Nat → FlashRead} {fuses : Nat → FuseResult} :
    Fits (chooseSlot s reads fuses).1 := h.rejectHeaders.wr.judgeSlots

theorem Fits.applyRegWord (h : Fits s) {q : Nat × Word} : Fits (Machine.applyRegWord s q) :=
  (h.putWheelWord.when (·.stepGo)).when (·.putWheelWord)

theorem Fits.writeEngWords (h : Fits s) {o : Nat} {ws : List Word} : Fits (writeEngWords s v c o ws) := by
  induction ws generalizing s o with
  | nil => exact h
  | cons w ws ih => exact ih h.writeEng

theorem Fits.writeInst (h : Fits s) {slot : Nat} {i : Nat} {b : RawBlock} {d : InstDef} : Fits
    (Machine.writeInst s v c slot i b d) :=
  h.writeEng.writeEngWords

theorem Fits.writePlaced (h : Fits s) {slot : Nat} {p : Placed} : Fits (Machine.writePlaced s v c slot p) :=
  h.foldl (·.writeInst)

theorem Fits.writeEngine (h : Fits s) {l : EngineLay} : Fits (Machine.writeEngine s v c l) :=
  ((h.foldl (·.writePlaced)).foldl (·.writePlaced)).writeEngWords.writeEngWords.wr

/-- The wheel's graphs fit where its PREDICT records do (check 14 of R41). -/
theorem Fits.applyGraphs (h : Fits s) {w : WheelImage} (hw : PredsFit w) (hp : ∀ g ∈ w.graphs, g.Placed) :
    Fits (applyGraphs s w) :=
  have wheel {lay} : Fits { s with whl := ⟨w.tables, w.graphs.map (wheelGraph s w), lay⟩ } :=
    ⟨fun x hx => by obtain ⟨g, hg, rfl⟩ := List.mem_map.mp hx; exact wheelGraph_fits hw hg (hp g hg), h.vatA, h.vatB⟩
  wheel.forVats (fun h => (h.foldl (·.writeEngine)).foldGraphs (fun hg h => h.bindGraph hg))

theorem Fits.applyCan (h : Fits s) {w : WheelImage} : Fits (Machine.applyCan s w) :=
  ((h.update.update.foldl (fun h1 => (h1.when (·.update)))).foldl (fun h2 => (h2.unless (·.set1.writeSignals)))).forN
    (fun h3 => ((h3.when (·.set1)).when (·.wr)))

theorem Fits.startPeriods (h : Fits s) : Fits (Machine.startPeriods s) :=
  h.forVats (fun h1 => (h1.forN (·.wr.wr.modPort.refreshCmp)))

theorem Fits.wheelRegisters (h : Fits s) {rs : List WheelRec} : Fits (Machine.wheelRegisters s k rs) :=
  h.wr.wr.wr.wr.wr.wr.wr.event

theorem Fits.applyWheel (h : Fits s) {rs : List WheelRec}
    (hw : ∀ {w}, imageRest rs ((imageRegs rs).getD []) = some w → PredsFit w) : Fits (applyWheel s k rs) := by
  dsimp only [Machine.applyWheel]
  have h1 := h.wheelRegisters (k := k) (rs := rs)
  split
  · exact h1
  · next w hi => exact ((h1.foldl (·.applyRegWord)).applyGraphs (hw hi) (imageRest_placed hi)).applyCan.startPeriods

theorem Fits.applyPatch (h : Fits s) : Fits (applyPatch s) := by
  unfold Machine.applyPatch
  extract_lets b code ver u
  clear_value b code ver
  exact h.unless (fun h => Fits.ite h.set1.wr.wr.event h.wr.set1.event)

theorem Fits.startVats (h : Fits s) : Fits (Machine.startVats s) :=
  (h.forVats (fun h1 => (h1.modVat).set1)).takeover.forVats (fun h2 => (h2.unless (·.setRole)))

theorem Fits.startGroup (h : Fits s) {g : Nat} : Fits (Machine.startGroup s v g) := h.requestAuto.when (·.groupLoss)

theorem Fits.startRamp (h : Fits s) : Fits (Machine.startRamp s) :=
  have h1 := h.set1
  Fits.ite h (by dsimp only; split; exacts [h1.wrWord, h1])

theorem Fits.startUnits (h : Fits s) : Fits (Machine.startUnits s) :=
  ((h.forVats (fun h1 => (h1.forN (·.startCarrier)))).forVats
    (fun h2 => ((h2.forN (·.startGroup)).forN (·.auxStart)))).update.startRamp.startRecorder

theorem Fits.enterReady (h : Fits s) : Fits (Machine.enterReady s) :=
  h.update.update.markAsserted.wr.judgeInputs.branch (·.enterSafeStop)
    (fun h1 => (h1.branch (·.enterSafeStop) (·.gateOn.setDev)))

theorem Fits.resetFlagged (h : Fits s) : Fits (Machine.resetFlagged s) := h.foldl (fun h1 => (h1.when (·.vatReset)))

theorem Fits.loadWheel (h : Fits s) {reads : Nat → FlashRead} {fuses : Nat → FuseResult} : Fits (loadWheel s reads fuses) := by
  refine Fits.ite h.startFailure ?_
  have hc := h.chooseSlot (reads := reads) (fuses := fuses)
  split
  · next hu => rw [hu] at hc; exact hc.unless (·.startFailure)
  · next hu =>
    rw [hu] at hc
    exact (hc.applyWheel (chooseSlot_predsFit hu)).applyPatch.startVats.startUnits.enterReady.resetFlagged

theorem Fits.powerOn (h : Fits s) {strap : Nat} {idFails : Nat} {bank33 : Nat} : Fits
    (Machine.powerOn s strap idFails bank33) :=
  h.porCleared.recordCause.update.wr.wr

theorem Fits.recordHeld (h : Fits s) {held : Nat} : Fits (Machine.recordHeld s held) := h.when (·.wr)

theorem Fits.checkerFails (h : Fits s) : Fits (Machine.checkerFails s v) := Fits.ite h.vatReset h.raiseFltWith

theorem Fits.stageTrims (h : Fits s) {ok : Bool} : Fits (Machine.stageTrims s ok) :=
  Fits.ite h.set1.update (h.update.unless (·.set1.wr.startFailure))

theorem Fits.beginLog (h : Fits s) : Fits (Machine.beginLog s) := ((h.event.when (·.event)).when (·.event)).selectTail

theorem Fits.recoveryCheck (h : Fits s) {r : FlashRead} : Fits (Machine.recoveryCheck s k r) := by
  unfold Machine.recoveryCheck
  split; exacts [h.rejectSlot, h.wr]

theorem Fits.enterRecovery (h : Fits s) {flash : FlashOpen} {r1 : FlashRead} : Fits (Machine.enterRecovery s flash r1) :=
  h.update.setDev.event.wr.foldl (·.recoveryCheck)

theorem Fits.readStore (h : Fits s) : Fits (readStore s) := by
  unfold Machine.readStore
  extract_lets t₁ t₂ t₃
  have h₁ : Fits t₁ := by unfold t₁; split; exacts [h.wrPair, h]
  have h₂ : Fits t₂ := by unfold t₂; split; exacts [h₁.wrPair, h₁]
  have h₃ : Fits t₃ := by unfold t₃; split; exacts [h₂.wr, h₂]
  split; exacts [h₃.showConf, h₃.showConf, h₃]

theorem Fits.judgeStart (h : Fits s) {flash : FlashOpen} {r1 : FlashRead} : Fits (Machine.judgeStart s flash r1) :=
  h.readStore.wr.wr.wr.update.update.update.branch (·.beginLog.enterRecovery) (·.setStartFails.beginLog.update)

theorem Fits.releaseDomain (h : Fits s) {d : Domain} : Fits (releaseDomain s d) := by
  unfold Machine.releaseDomain
  extract_lets x u
  have hu : Fits u := h.update
  split; exacts [hu.wr.update.setDev, hu.set1.update, hu]

theorem Fits.countWithdrawn (h : Fits s) {d : Domain} : Fits (Machine.countWithdrawn s d) := h.update

theorem Fits.withdrawStart (h : Fits s) {d : Domain} : Fits (Machine.withdrawStart s d) :=
  h.countWithdrawn.wrBit.wr.wr.unless (·.startFailure)

theorem Fits.withdrawVat (h : Fits s) {d : Domain} : Fits (Machine.withdrawVat s d v) :=
  h.countWithdrawn.wrBit.unless (·.failVat.update)

theorem Fits.withdrawInRecovery (h : Fits s) {d : Domain} : Fits (Machine.withdrawInRecovery s d v) :=
  h.countWithdrawn.wrBit.when (·.failVat)

theorem Fits.raiseFloor (h : Fits s) : Fits (Machine.raiseFloor s) := h.unless (·.update.wrPair.event)

theorem Fits.raisePatchFloor (h : Fits s) : Fits (Machine.raisePatchFloor s) := h.unless (·.update.wrPair)

theorem Fits.clockEvent (h : Fits s) {code : Nat} {data : Nat} : Fits (Machine.clockEvent s code data) := h.unless (·.event)

theorem Fits.refclkPresent (h : Fits s) {pherr : Nat} : Fits (Machine.refclkPresent s pherr) :=
  h.set1.when (·.set1.wr.update)

theorem Fits.refclkLost (h : Fits s) : Fits (Machine.refclkLost s) := h.clr.set1.incSat.update.set1.clr.clr.clockEvent

theorem Fits.slewBy (h : Fits s) {m : ℤ} : Fits (Machine.slewBy s m) := h.update.wr

theorem Fits.slewStep (h : Fits s) : Fits (Machine.slewStep s) := h.when (·.slewBy)

theorem Fits.phaseComplete (h : Fits s) {slewed : Nat} {pherr : Nat} : Fits (Machine.phaseComplete s slewed pherr) :=
  h.set1.wr.when (·.clr.clr.clockEvent)

theorem Fits.markLoss (h : Fits s) {i : Nat} : Fits (Machine.markLoss s i) :=
  (h.wrBit.setBit1.when (·.clr)).update.clockEvent

theorem Fits.groupsOn (h : Fits s) {b : Bool} {f : State → Vat → Nat → State} (hf : ∀ {t v g}, Fits t → Fits (f t v g)) :
    Fits (groupsOn s v b f) := h.forN (fun h => h.when hf)

theorem Fits.lossOfT (h : Fits s) : Fits (Machine.lossOfT s) :=
  (h.forVats (fun h1 => (h1.groupsOn (·.groupLoss)))).update.unless (fun h2 => (h2.update.branch (·.update) (·.startSs1)))

theorem Fits.lossOfN (h : Fits s) : Fits (Machine.lossOfN s) := h.set1.loseSync.update

theorem Fits.lossOfCan (h : Fits s) : Fits (Machine.lossOfCan s) := h.forN (·.update)

theorem Fits.otherLosses (h : Fits s) {lost : Nat} : Fits (Machine.otherLosses s lost) :=
  ((((h.when (·.raiseFlt)).when (·.raiseFlt)).when (·.lossOfN)).when (·.lossOfCan)).when
    (fun h2 => (h2.forVats (fun h1 => (h1.groupsOn (·.groupLoss)))))

theorem Fits.lossOfLock (h : Fits s) {mask : Nat} : Fits (Machine.lossOfLock s mask) :=
  (h.forN (fun h1 => (h1.when (·.markLoss)))).branch (·.lossOfT) (fun h2 => (h2.unless (·.otherLosses)))

theorem Fits.restartCan (h : Fits s) : Fits (Machine.restartCan s) := h.forN (fun h1 => (h1.unless (·.wr.wr.wr)))

theorem Fits.loopGood (h : Fits s) {l : PllLoop} : Fits (loopGood s l) := by
  unfold Machine.loopGood
  extract_lets i t x u
  have hu : Fits u := h.wrBit.when (·.update.clockEvent)
  split
  · exact hu.when (·.clr.when (·.gmSync))
  · exact hu.forVats (·.groupsOn (·.groupReturn))
  · exact hu.when (·.restartCan)
  all_goals exact hu

theorem Fits.calibrate (h : Fits s) {f : Nat} : Fits (Machine.calibrate s f) :=
  h.wr.wr.branch (·.update) (fun h1 => (h1.set1.clockEvent.unless (·.requestSys)))

theorem Fits.rampStep (h : Fits s) : Fits (Machine.rampStep s) := by
  unfold Machine.rampStep
  split; exacts [h, h.update.wrWord]

theorem Fits.countTick (h : Fits s) : Fits (Machine.countTick s v p) := Fits.ite h.incWrap h.modPort

theorem Fits.positionsTick (h : Fits s) : Fits (Machine.positionsTick s v p) := h.forN (fun h1 => (h1.when (·.posCapture)))

theorem Fits.enterSignal (h : Fits s) {e : Nat × ℤ} : Fits (Machine.enterSignal s v p e) :=
  Fits.ite h (by split; exacts [(Fits.ite h (by split; exacts [(h.when (·.writeEng)), h])), h])

theorem Fits.enterSignals (h : Fits s) : Fits (Machine.enterSignals s v p) := h.foldl (·.enterSignal)

theorem Fits.auxPortTick (h : Fits s) : Fits (Machine.auxPortTick s v p) := h.injEvent.auxTick

theorem Fits.liveTick (h : Fits s) : Fits (Machine.liveTick s v p) :=
  h.syncAtTick.positionsTick.auxPortTick.pairsTick.dfrTick.guardTick.enterTick.arriveGraph.enterSignals.graphTick.joinCheck.recorderTick.modPort

theorem Fits.heldTick (h : Fits s) : Fits (Machine.heldTick s v p) := h.auxPortTick.forN (fun h1 => (h1.when (·.ssiStart)))

theorem Fits.portTick (h : Fits s) : Fits (Machine.portTick s v p) :=
  Fits.ite h (h.countTick.branch (·.liveTick) (·.heldTick))

theorem Fits.reload (h : Fits s) {valley : Bool} {landed : Nat} : Fits (Machine.reload s v p valley landed) :=
  Fits.ite h (h.reloadAt.injEvent.forVats (·.joinCheck)).passPending

theorem Fits.idleRide (h : Fits s) : Fits (Machine.idleRide s) := h.unless (·.wr.update)

theorem Fits.idleFeedback (h : Fits s) : Fits (Machine.idleFeedback s) := h.when (·.notePresent)

theorem Fits.idlePort (h : Fits s) {d : Nat} : Fits (Machine.idlePort d s v p) :=
  (h.when (·.wr.modGuard)).when (·.wr.modGuard)

theorem Fits.idlePulse (h : Fits s) : Fits (Machine.idlePulse s v) :=
  Fits.ite h ((h.forN (·.portTime.openWindows)).forN (fun h1 => (h1.when (·.endDisregard))))

theorem Fits.idleVat (h : Fits s) {d : Nat} : Fits (Machine.idleVat d s v) :=
  Fits.ite h ((h.when (·.incWrap)).forN (·.idlePort))

theorem Fits.idleTime (h : Fits s) : Fits (Machine.idleTime s) := h.update

theorem Fits.idleSwitch (h : Fits s) : Fits (Machine.idleSwitch s) := h.drainPort.drainPort.resumePtp

theorem Fits.idle (h : Fits s) : Fits (Machine.idle s) :=
  (h.idleTime.slewStep.update.drainPulse.idleRide.idleFeedback.forVats
    (·.idleVat.idlePulse)).watchVats.passPending.idleSwitch.endLog




/-! ## Every command and every step -/

theorem exec_answers_fits (h : Fits s) : ∀ c, Answers c s Fits
  | .powerOnReset .. => ⟨_, rfl, h.powerOn.settle⟩
  | .brownOut => ⟨_, rfl, (h.unless (·.brownOut)).settle⟩
  | .resetNAssert => ⟨_, rfl, (h.unless (·.sysReset.update)).settle⟩
  | .resetNHeld => ⟨_, rfl, (h.when (·.set1.wr.update)).settle⟩
  | .resetNRelease .. => ⟨_, rfl, (h.when (·.update.recordHeld)).settle⟩
  | .sysreq .. => ⟨_, rfl, (h.when (·.sysReset)).settle⟩
  | .vatreq .. => ⟨_, rfl, (h.when (·.raiseFltWith)).settle⟩
  | .vatWatchdogExpiry .. => ⟨_, rfl, (h.when (·.raiseFlt)).settle⟩
  | .criticalDoubleBitError .. => ⟨_, rfl, (Fits.ite h (by split; exacts [h.raiseFlt, h.sysReset])).settle⟩
  | .configParityError .. => ⟨_, rfl, (Fits.ite h (by split; exacts [h.raiseFltWith, h.sysReset])).settle⟩
  | .checkerSelfTest .. => ⟨_, rfl, (Fits.ite h (Fits.ite h.sysReset
      ((h.when (·.checkerFails)).when (·.checkerFails)))).settle⟩
  | .domainRelease .. => ⟨_, rfl, (Fits.ite (h.releaseDomain.when (·.judgeStart)) h).settle⟩
  | .domainReleaseWithdrawn .. => ⟨_, rfl, (Fits.ite h.withdrawStart
      (by split; exacts [(Fits.ite h.withdrawInRecovery (h.when (·.withdrawVat))), h])).settle⟩
  | .sramCheckComplete .. => ⟨_, rfl, (Fits.ite (by split; exacts [h.update.setDev, h.set1.startFailure]) h).settle⟩
  | .wheelLoaded .. => ⟨_, rfl, (h.when (·.loadWheel)).settle⟩
  | .startFailsClear => ⟨_, rfl, (h.when (·.setStartFails.raiseFloor.raisePatchFloor)).settle⟩
  | .refclkPresent .. => ⟨_, rfl, (h.unless (·.refclkPresent)).settle⟩
  | .refclkLost => ⟨_, rfl, (h.when (·.refclkLost)).settle⟩
  | .phaseSlewComplete .. => ⟨_, rfl, (Fits.ite (Fits.ite h.phaseComplete h.wr) h).settle⟩
  | .lossOfLock .. => ⟨_, rfl, h.lossOfLock.settle⟩
  | .loopGood .. => ⟨_, rfl, (h.when (·.loopGood)).settle⟩
  | .roCalibration .. => ⟨_, rfl, (h.unless (·.calibrate)).settle⟩
  | .rampProfileStep => ⟨_, rfl, (h.when (·.rampStep)).settle⟩
  | .delayLineRecal .. => ⟨_, rfl, h.settle⟩
  | .sliceOutput .. => ⟨_, rfl, (Fits.ite (h.sliceOutput.forN (fun h1 => (h1.when (·.arrive)))) h).settle⟩
  | .frozenSet .. => ⟨_, rfl, (h.when (·.tryFreeze)).settle⟩
  | .freshnessStale .. => ⟨_, rfl, (h.when (·.goStale)).settle⟩
  | .staleClear .. => ⟨_, rfl, (h.when (·.endStale)).settle⟩
  | .syncResetEffect .. => ⟨_, rfl, h.syncEffect.settle⟩
  | .sgrpSyncGo .. => ⟨_, rfl, (h.when (·.requestSync)).settle⟩
  | .groupClockLoss .. => ⟨_, rfl, (h.forVats (·.groupLoss)).settle⟩
  | .groupClockReturn .. => ⟨_, rfl, (h.forVats (·.groupReturn)).settle⟩
  | .rotationStep .. => ⟨_, rfl, h.rotationStep.settle⟩
  | .rotationCompare .. => ⟨_, rfl, (h.when (·.rotationCompare)).settle⟩
  | .sliceTestComplete .. => ⟨_, rfl, (h.when (·.sliceTested)).settle⟩
  | .gcalWindow => ⟨_, rfl, (h.forVats (fun h3 => (h3.when
      (fun h2 => (h2.forN (fun h1 => (h1.when (·.calWindow)))))))).beginWindow.settle⟩
  | .auxFrameComplete .. => ⟨_, rfl, (h.when (·.auxFrame)).settle⟩
  | .auxkDataRead .. => ⟨_, rfl, (h.when (·.auxRead)).settle⟩
  | .injectedTrigger .. => ⟨_, rfl, h.injEvent.settle⟩
  | .auxAgeLimit .. => ⟨_, rfl, (h.when (·.auxAge)).settle⟩
  | .portTick .. => ⟨_, rfl, h.portTick.settle⟩
  | .arrivalTimeout .. => ⟨_, rfl, (h.when (·.arrive)).settle⟩
  | .evaluationEnd .. => ⟨_, rfl, (h.when (·.endEval)).settle⟩
  | .commitComplete .. => ⟨_, rfl, (h.when (·.completeCommit)).settle⟩
  | .deadlineAbandon .. => ⟨_, rfl, (h.when (·.abandon)).settle⟩
  | .wheyDoubleBitError .. => ⟨_, rfl, (h.when (·.wheyError)).settle⟩
  | .selfTestDue .. => ⟨_, rfl, (Fits.ite (h.modEng) h).settle⟩
  | .selfTestComplete .. => ⟨_, rfl, (Fits.ite (Fits.ite (h.incWrap.modEng) h.set1.retireEngine) h).settle⟩
  | .selfTestLate .. => ⟨_, rfl, (h.when (·.vatFlagEdge)).settle⟩
  | .waddrWrite .. => ⟨_, rfl, (h.when (·.wrAs)).settle⟩
  | .reload .. => ⟨_, rfl, h.reload.settle⟩
  | .tripRegistration .. => ⟨_, rfl, (h.when (·.registerTrip)).settle⟩
  | .softTripResolution .. => ⟨_, rfl, (h.when (·.resolveTrip)).settle⟩
  | .dstFrame .. => ⟨_, rfl, (Fits.ite h (Fits.ite h.goodFrame h.badFrame).actOnLeg).settle⟩
  | .faultBreak .. => ⟨_, rfl, (Fits.ite h.monitorBreak (h.unless (·.set1.incSat.vatEvent.actOnLeg))).settle⟩
  | .dstLineError .. => ⟨_, rfl, (h.when (·.countBad)).settle⟩
  | .driverLinkLoss .. => ⟨_, rfl, (h.unless (·.linkLost.actOnLeg)).settle⟩
  | .asctExpiry .. => ⟨_, rfl, (h.when (·.asctOver)).settle⟩
  | .encoderEdge .. => ⟨_, rfl, (Fits.ite h (by split; exacts [h.encStep, h.encStep, h.encPhaseError, h.encIndex])).settle⟩
  | .ssiFrameComplete .. => ⟨_, rfl, (Fits.ite h (Fits.ite h.ssiFrame (h.when (·.ssiClock)))).settle⟩
  | .setpEdge .. => ⟨_, rfl, (Fits.ite (h.modVat (by exact fun hx => by simpa [vatFits_iff] using vatFits_iff.mp hx))
      h).settle⟩
  | .openLoopTimeout .. => ⟨_, rfl, (h.when (·.vatFlag.enterFaultPattern.restoreOl)).settle⟩
  | .openLoopRecovery .. => ⟨_, rfl, (h.when (·.clr.restoreOl)).settle⟩
  | .observerRideTimeout .. => ⟨_, rfl, (h.when (·.vatFlag.startZr.wr.modGuard)).settle⟩
  | .observerRideRecovery .. => ⟨_, rfl, (h.when (·.clr.modGuard)).settle⟩
  | .zeroEffortTimeout .. => ⟨_, rfl, (h.when (·.vatFlag.enterFaultPattern)).settle⟩
  | .restorationBroadcast .. => ⟨_, rfl, Fits.settle (by split; exacts [(h.when (·.restorationBroadcast)), h])⟩
  | .restorationLoss .. => ⟨_, rfl, (h.forVats (fun h1 => (h1.when (·.loseRest)))).settle⟩
  | .heartbeatLost .. => ⟨_, rfl, h.heartbeatLost.settle⟩
  | .vatFaultFlag .. => ⟨_, rfl, h.vatFaultFlag.settle⟩
  | .compareMismatch .. => ⟨_, rfl, h.compareMismatch.settle⟩
  | .attributionWindowEnd => ⟨_, rfl, h.attributionEnd.settle⟩
  | .ownershipClaim .. => ⟨_, rfl, (h.when (·.claims)).settle⟩
  | .padMismatch .. => ⟨_, rfl, (h.when (·.padMismatch)).settle⟩
  | .legHandover .. => ⟨_, rfl, h.handItem.settle⟩
  | .vatRelease .. => ⟨_, rfl, (h.when (·.releaseVat)).settle⟩
  | .joinCopyComplete .. => ⟨_, rfl, (Fits.ite (h.copyEngineMemory.placeGuests.modVat) h).settle⟩
  | .rejoinTimeout .. => ⟨_, rfl, (h.when (·.failJoin)).settle⟩
  | .drillCheckWindowEnd => ⟨_, rfl, h.drillCheckEnd.settle⟩
  | .unattrWindowExpiry => ⟨_, rfl, h.update.settle⟩
  | .harpInDemand .. => ⟨_, rfl, h.inputLevel.settle⟩
  | .harpInRelease .. => ⟨_, rfl, h.inputLevel.settle⟩
  | .discrepancyTimeout .. => ⟨_, rfl, h.latchDiscrepancy.settle⟩
  | .railFault => ⟨_, rfl, h.railFault.settle⟩
  | .ss1Timeout => ⟨_, rfl, h.ss1Timeout.settle⟩
  | .harpOutOffDelay .. => ⟨_, rfl, h.outOffDelay.settle⟩
  | .testPulseDue .. => ⟨_, rfl, h.testPulseDue.settle⟩
  | .testPulseEnd .. => ⟨_, rfl, h.testPulseEnd.settle⟩
  | .feedbackError .. => ⟨_, rfl, h.feedbackError.settle⟩
  | .rideExpiry => ⟨_, rfl, h.rideExpiry.settle⟩
  | .orderResolution => ⟨_, rfl, h.resolveOrders.settle⟩
  | .rindReset .. => ⟨_, rfl, (h.when (·.rindReset)).settle⟩
  | .rindBrownoutWarning => ⟨_, rfl, (h.when (·.brownoutWarning)).settle⟩
  | .commitSlot .. => ⟨_, rfl, (h.when (·.commit)).settle⟩
  | .rindPublication .. => ⟨_, rfl, (h.when (·.publish)).settle⟩
  | .rindInputStale .. => ⟨_, rfl, (h.when (·.meter.setStale.sessFlag)).settle⟩
  | .rindIntegrityCheck .. => ⟨_, rfl, (Fits.ite (h.when (·.checkRom)).checkPars h).settle⟩
  | .sealAccept => ⟨_, rfl, (h.when (·.update)).settle⟩
  | .energyImpulse => ⟨_, rfl, (h.when (·.impulse)).settle⟩
  | .rindRead .. => ⟨_, rfl, (Fits.ite h (Fits.ite h.respond h.respond)).settle⟩
  | .rindRecord .. => ⟨_, rfl, (Fits.ite h (by split; exacts [h.respond, h.respond])).settle⟩
  | .rindAuditrec .. => ⟨_, rfl, (Fits.ite h (Fits.ite h.respond (by split; exacts [h.respond, h.respond]))).settle⟩
  | .rindMtset .. => ⟨_, rfl, (Fits.ite h (Fits.ite h.setMt.respond h.respond)).settle⟩
  | .rindMtcorr .. => ⟨_, rfl, (h.unless (·.takeCorr.respond)).settle⟩
  | .mailboxPoll => ⟨_, rfl, (h.when (·.takeCorr)).settle⟩
  | .tapSample .. => ⟨_, rfl, (h.when (·.tapSample)).settle⟩
  | .rindDown .. => ⟨_, rfl, (h.when (·.rindDown)).settle⟩
  | .canFrameRx .. => ⟨_, rfl, (Fits.ite h.takeSegment (h.when (·.receiveFrame))).settle⟩
  | .rxTimeout .. => ⟨_, rfl, Fits.settle (by split; exacts [(h.when (·.timeoutEntry)), h])⟩
  | .periodicTxDue .. => ⟨_, rfl, Fits.settle (by split; exacts [(h.when (·.periodicDue)), h])⟩
  | .eventTxCheck => ⟨_, rfl, (h.foldl (·.eventCheck)).settle⟩
  | .canTxComplete .. => ⟨_, rfl, (h.when (·.txComplete)).settle⟩
  | .busOff .. => ⟨_, rfl, (h.when (·.txError)).settle⟩
  | .busOffRecovery .. => ⟨_, rfl, (h.when (·.wr.wr.wr)).settle⟩
  | .entryMove .. => ⟨_, rfl, (h.when (·.entryMove)).settle⟩
  | .lonelyProbe .. => ⟨_, rfl, (h.when (·.update)).settle⟩
  | .ethFrameRx .. => ⟨_, rfl, (h.when (·.receiveEth)).settle⟩
  | .ethLinkLoss .. => ⟨_, rfl, (h.when (·.linkLoss)).settle⟩
  | .ntSyncLoss => ⟨_, rfl, (h.when (·.loseSync)).settle⟩
  | .stepGo => ⟨_, rfl, (h.unless (·.stepGo)).settle⟩
  | .launchTimeDue .. => ⟨_, rfl, (h.when (·.launchHead)).settle⟩
  | .ctsReq => ⟨_, rfl, (h.unless (·.capture)).settle⟩
  | .ppsInEdge .. => ⟨_, rfl, (h.unless (·.ppsIn)).settle⟩
  | .ppsOutSecond => ⟨_, rfl, h.ppsSecond.settle⟩
  | .internalCrossCapture => ⟨_, rfl, (h.unless (·.update)).settle⟩
  | .serviceSegment .. => ⟨_, rfl, (h.when (·.takeSegment)).settle⟩
  | .serviceSegmentTimeout => ⟨_, rfl, (h.when (·.discardMessage)).settle⟩
  | .hello => ⟨_, rfl, (h.serve (·.doHello) id).settle⟩
  | .auth => ⟨_, rfl, (h.serve (·.doAuth) id).settle⟩
  | .endSession => ⟨_, rfl, (h.serve (·.accept) (·.endSessionAs)).settle⟩
  | .sessionIdleTimeout => ⟨_, rfl, h.endSessionAs.settle⟩
  | .read => ⟨_, rfl, (h.serve (·.doRead) id).settle⟩
  | .wheySelect => ⟨_, rfl, (h.serve (·.doWheySelect) id).settle⟩
  | .order => ⟨_, rfl, (h.serve (·.doOrder) id).settle⟩
  | .senseSync => ⟨_, rfl, (h.serve (·.doSenseSync) id).settle⟩
  | .handoverDrill => ⟨_, rfl, (h.serve (·.doDrill) id).settle⟩
  | .vatReset => ⟨_, rfl, (h.serve (·.doVatReset) id).settle⟩
  | .sysReset => ⟨_, rfl, (h.serve (·.accept) (·.sysReset)).settle⟩
  | .safetyClear => ⟨_, rfl, (h.serve (·.doSafetyClear) id).settle⟩
  | .canFlush .. => ⟨_, rfl, (h.serve (·.doFlush) id).settle⟩
  | .recoveryExit => ⟨_, rfl, (h.serve (·.doRecoveryExit) (·.sysReset)).settle⟩
  | .wheelErase => ⟨_, rfl, (h.serve (·.doWheelErase) id).settle⟩
  | .wheelWrite .. => ⟨_, rfl, (h.serve (·.doWheelWrite) id).settle⟩
  | .safeConfirm => ⟨_, rfl, (h.serve (·.doSafeConfirm) id).settle⟩
  | .mtCorrect => ⟨_, rfl, (h.serve (·.doMtCorrect) id).settle⟩
  | .patchWrite => ⟨_, rfl, (Fits.ite (h.serve (·.doPatchWrite) id) h).settle⟩
  | .patchErase => ⟨_, rfl, (Fits.ite (h.serve (·.erasePatch.accept) id) h).settle⟩
  | .certRevoke => ⟨_, rfl, (h.serve (·.doCertRevoke) id).settle⟩
  | .debugUnlock => ⟨_, rfl, (h.serve (·.doDebugUnlock) id).settle⟩
  | .debugLock => ⟨_, rfl, (h.serve (·.update.accept) id).settle⟩
  | .decommission => ⟨_, rfl, (h.serve (·.doDecommission) id).settle⟩
  | .jtagAccess .. => ⟨_, rfl, (h.unless (·.jtagDo)).settle⟩
  | .firewallViolation .. => ⟨_, rfl, Fits.settle (by split; exacts [(h.when (·.violation.noteIssue)), h])⟩
  | .busErrorAccess .. => ⟨_, rfl, Fits.settle (by split; exacts
      [(Fits.ite h (Fits.ite h.busError.noteIssue (h.when (·.failRead)))), h])⟩
  | .registerWrite .. => ⟨_, rfl, (h.busAccess (·.landBusWrite)).settle⟩
  | .logRecordWrite => ⟨_, rfl, h.writeRecord.settle⟩
  | .captureComplete => ⟨_, rfl, h.completeCapture.settle⟩
  | .tailMirror => ⟨_, rfl, h.mirrorRecord.settle⟩
  | .brineScrub .. => ⟨_, rfl, (Fits.ite h (by split; exacts [h, h.brineSingle, h.brineDouble])).settle⟩
  | .trimStagingComplete .. => ⟨_, rfl, (h.when (·.stageTrims)).settle⟩
  | .xspiResetRelease => ⟨_, rfl, (h.unless (·.update)).settle⟩
  | .tripLevelRelease .. => ⟨_, rfl, (h.when (·.clr)).settle⟩
  | .generatorEdge .. => ⟨_, rfl, Fits.settle (by split; exacts [h, (h.when (·.generatorEdge.passPending))])⟩
  | .blankingWindowClose .. => ⟨_, rfl, (h.when (·.closeWindow)).settle⟩
  | .faultBreakEnd .. => ⟨_, rfl, (h.unless (·.clr.actOnLeg)).settle⟩
  | .padRecurrenceWindowEnd => ⟨_, rfl, h.update.settle⟩
  | .canErrorDetected .. => ⟨_, rfl, (h.when (·.canError)).settle⟩
  | .ethLinkUp .. => ⟨_, rfl, (h.when (·.set1.wr.gmSync)).settle⟩
  | .announceReceiptTimeout .. => ⟨_, rfl, (h.when (·.announceTimeout)).settle⟩
  | .ptpMessageInterval .. => ⟨_, rfl, (Fits.ite (h.foldl (·.hostSend.update)) h).settle⟩
  | .addressAgeing .. => ⟨_, rfl, (h.when (·.update)).settle⟩
  | .sealRelease => ⟨_, rfl, (h.when (·.update)).settle⟩
  | .rindInputReturn .. => ⟨_, rfl, (h.when (·.meter.setStale)).settle⟩
  | .rindPortFrameError .. => ⟨_, rfl, (h.when (·.strayFrame)).settle⟩
  | .nvStoreRefresh => ⟨_, rfl, h.settle⟩
  | .rindSealwr .. => ⟨_, rfl, Fits.settle (h.unless (fun h => by
      split
      · next e => exact (h.sealWrite e).respond
      · exact h.respond))⟩
  | .ownerXfer .. => ⟨_, rfl, (h.serve (·.doOwnerXfer) (by split; exacts [Fits.brownOut, id])).settle⟩

end Keeps

/-- What a command leaves fits where its state did. -/
theorem exec_fits {s t : State} (h : Fits s) {c : Instr} (e : exec c s = .next t) : Fits t := by
  obtain ⟨u, hu, fits⟩ := exec_answers_fits h c
  rw [hu] at e
  cases e
  exact fits

/-- Settles O20: `Fits` is kept by each command (`exec_fits`) and by the idle cycle, and the machine at reset has it. -/
theorem partsFitKept : Obligations.PartsFitKept := by
  refine ⟨Fits.reset, fun s t h e => ?_⟩
  unfold step at e
  split at e
  · cases e
    exact h.idle
  · exact exec_fits (s := { s with pending := _ }) h.update e

end Sys2Proof.Machine

namespace Sys2Proof.Machine

open Sys2Proof

/-! ## Listed registers

A reset of one vat's registers goes through the whole list (`RegFile.mapRegs`). It leaves the register at `a` as it was where
the list has one entry for it at most; every register that has been written once is so. -/

/-- All entries of the register at `a` are the value it reads as, which is not the one that needs no entry. -/
def RegFile.Single (l : RegFile) (a : Nat) : Prop := ∀ w, (a, w) ∈ l → w = l.get a ∧ w ≠ porValue a

theorem mem_of_mem_eraseKey {α : Type} {k : Nat} {e : Nat × α} {l : List (Nat × α)} (h : e ∈ eraseKey k l) : e ∈ l ∧ e.1 ≠ k := by
  induction l with
  | nil => cases h
  | cons a l ih =>
    rw [eraseKey] at h
    split at h
    · exact ⟨.tail _ (ih h).1, (ih h).2⟩
    · next hk =>
      cases h with
      | head => exact ⟨.head _, hk⟩
      | tail _ h => exact ⟨.tail _ (ih h).1, (ih h).2⟩

theorem mem_of_mem_insertKey {α : Type} {k : Nat} {v : α} {e : Nat × α} {l : List (Nat × α)} (h : e ∈ insertKey k v l) :
    e = (k, v) ∨ e ∈ l := by
  induction l with
  | nil => exact .inl (List.mem_singleton.mp h)
  | cons a l ih =>
    rw [insertKey] at h
    split at h
    · rcases List.mem_cons.mp h with h | h
      · exact .inl h
      · exact .inr h
    · rcases List.mem_cons.mp h with h | h
      · exact .inr (h ▸ .head _)
      · exact (ih h).imp_right (.tail _)

theorem mem_of_lookupKey {α : Type} {k : Nat} {v : α} {l : List (Nat × α)} (h : lookupKey k l = some v) : (k, v) ∈ l := by
  induction l with
  | nil => cases h
  | cons a l ih =>
    rw [lookupKey] at h
    split at h
    · next hk => cases h; exact hk ▸ .head _
    · exact .tail _ (ih h)

theorem exists_lookupKey {α : Type} {k : Nat} {v : α} {l : List (Nat × α)} (h : (k, v) ∈ l) : ∃ w, lookupKey k l = some w := by
  induction l with
  | nil => cases h
  | cons a l ih =>
    rw [lookupKey]
    split
    · exact ⟨_, rfl⟩
    · next hk =>
      cases h with
      | head => exact absurd rfl hk
      | tail _ h => exact ih h

theorem RegFile.get_of_lookup {l : RegFile} {a : Nat} {w : Word} (h : lookupKey a l = some w) : l.get a = w := by
  simp [RegFile.get, getKey, h]

/-- A written register has one entry at most; a write of another one changes nothing of it. -/
theorem RegFile.single_set {l : RegFile} {a b : Nat} {w : Word} (h : a = b ∨ l.Single a) : (l.set b w).Single a := by
  intro x hx
  have hm : (a, x) ∈ (if w = porValue b then eraseKey b l else insertKey b w (eraseKey b l)) := hx
  by_cases hab : a = b
  case pos =>
    subst hab
    rw [RegFile.get_set_self]
    split at hm
    · exact absurd rfl (mem_of_mem_eraseKey hm).2
    · next hw =>
      rcases mem_of_mem_insertKey hm with e | e
      · cases e; exact ⟨rfl, hw⟩
      · exact absurd rfl (mem_of_mem_eraseKey e).2
  case neg =>
    rw [RegFile.get_set_other hab]
    refine h.resolve_left hab x ?_
    split at hm
    · exact (mem_of_mem_eraseKey hm).1
    · rcases mem_of_mem_insertKey hm with e | e
      · cases e; exact absurd rfl hab
      · exact (mem_of_mem_eraseKey e).1

theorem RegFile.mem_mapRegs {l : RegFile} {f : Nat → Word → Word} {a : Nat} {x : Word} :
    (a, x) ∈ l.mapRegs f ↔ ∃ w, (a, w) ∈ l ∧ f a w = x ∧ x ≠ porValue a := by
  simp only [RegFile.mapRegs, List.mem_filterMap, Prod.exists]
  constructor
  · rintro ⟨b, w, hw, h⟩
    split at h
    · cases h
    · next hp => cases h; exact ⟨w, hw, rfl, hp⟩
  · rintro ⟨w, hw, rfl, hp⟩
    exact ⟨a, w, hw, if_neg hp⟩

theorem RegFile.single_mapRegs {l : RegFile} {f : Nat → Word → Word} {a : Nat} (h : l.Single a) : (l.mapRegs f).Single a := by
  intro x hx
  obtain ⟨w, hw, rfl, hp⟩ := RegFile.mem_mapRegs.mp hx
  obtain ⟨y, hy⟩ := exists_lookupKey hx
  obtain ⟨u, hu, rfl, -⟩ := RegFile.mem_mapRegs.mp (mem_of_lookupKey hy)
  rw [RegFile.get_of_lookup hy, (h w hw).1, (h u hu).1]
  exact ⟨rfl, by rwa [← (h w hw).1]⟩

/-- What goes through the list and leaves a register's value leaves the register. -/
theorem RegFile.get_mapRegs {l : RegFile} {f : Nat → Word → Word} {a : Nat} (h : l.Single a) (hf : f a (l.get a) = l.get a) :
    (l.mapRegs f).get a = l.get a := by
  cases hl : lookupKey a l with
  | some w =>
    have hw := mem_of_lookupKey hl
    rw [← (h w hw).1] at hf ⊢
    exact ((RegFile.single_mapRegs h) w (RegFile.mem_mapRegs.mpr ⟨w, hw, hf, (h w hw).2⟩)).1.symm
  | none =>
    have hm : lookupKey a (l.mapRegs f) = none := by
      refine Option.eq_none_iff_forall_ne_some.mpr (fun x hx => ?_)
      obtain ⟨w, hw, -⟩ := RegFile.mem_mapRegs.mp (mem_of_lookupKey hx)
      obtain ⟨y, hy⟩ := exists_lookupKey hw
      rw [hl] at hy
      cases hy
    simp [RegFile.get, getKey, hl, hm]

/-! ## What the end of LOADING and the cycle's consequences keep of the device state and of the register list -/

section Tidy

/-- `s` is READY onward where `r` is, and its list has one entry at most for each register for which the list of `r` has. -/
structure Tidy (r s : State) : Prop where
  onward : r.dev.onward = true → s.dev.onward = true
  single : ∀ a, RegFile.Single r.regs a → RegFile.Single s.regs a

variable {r s t a b : State} {v w : Vat} {p n c k : Nat}

theorem Tidy.refl : Tidy s s := ⟨id, fun _ => id⟩

/-- Only the device state and the registers matter. -/
theorem Tidy.update (h : Tidy r s) {pending : List Instr} {variant : Variant} {mem : List Host.Cell} {time : TimeSt} {rst : ResetSt}
    {clk : ClockSt} {vatA vatB : VatSt} {arb : ArbSt} {harp : HarpSt} {ord : OrderSt} {log : LogSt} {whl : WheelSt}
    {trust : TrustSt} {rind : RindSt} {nv : NvSt} {rcd : RecSt} {can : CanSt} {net : NetSt} {bus : BusSt} {free : Nat} :
    Tidy r ⟨pending, variant, s.dev, s.regs, mem, time, rst, clk, vatA, vatB, arb, harp, ord, log, whl, trust, rind, nv, rcd, can,
      net, bus, free⟩ := ⟨h.onward, h.single⟩

theorem Tidy.ite {q : Prop} {_ : Decidable q} (ha : Tidy r a) (hb : Tidy r b) : Tidy r (if q then a else b) := by
  split <;> assumption

theorem Tidy.when {q : Prop} {_ : Decidable q} (h : Tidy r s) (ha : Tidy r s → Tidy r a) : Tidy r (if q then a else s) :=
  .ite (ha h) h

theorem Tidy.unless {q : Prop} {_ : Decidable q} (h : Tidy r s) (hb : Tidy r s → Tidy r b) : Tidy r (if q then s else b) :=
  .ite h (hb h)

theorem Tidy.branch {q : Prop} {_ : Decidable q} (h : Tidy r s) (ha : Tidy r s → Tidy r a) (hb : Tidy r s → Tidy r b) :
    Tidy r (if q then a else b) := .ite (ha h) (hb h)

theorem Tidy.foldl {α : Type} {f : State → α → State} {l : List α} (h : Tidy r s) (hf : ∀ {t x}, Tidy r t → Tidy r (f t x)) :
    Tidy r (l.foldl f s) := by
  induction l generalizing s with
  | nil => exact h
  | cons x l ih => exact ih (hf h)

theorem Tidy.forN {f : State → Nat → State} (h : Tidy r s) (hf : ∀ {t x}, Tidy r t → Tidy r (f t x)) : Tidy r (forN n s f) :=
  h.foldl hf

theorem Tidy.forVats {f : State → Vat → State} (h : Tidy r s) (hf : ∀ {t x}, Tidy r t → Tidy r (f t x)) : Tidy r (forVats s f) :=
  h.foldl hf

theorem Tidy.wr (h : Tidy r s) {f : Field} : Tidy r (s.wr f n) :=
  ⟨h.onward, fun a ha => RegFile.single_set (.inr (h.single a ha))⟩

theorem Tidy.mark (h : Tidy r s) {x i : Nat} : Tidy r (s.mark x i) := h.update

theorem Tidy.setVat (h : Tidy r s) {x : VatSt} : Tidy r (s.setVat v x) :=
  match v with
  | .A => h.update
  | .B => h.update

theorem Tidy.modVat (h : Tidy r s) {f : VatSt → VatSt} : Tidy r (s.modVat v f) := h.setVat

theorem setDev_dev {d : DevState} : (setDev s d).dev = d := by
  unfold setDev
  split
  · assumption
  · extract_lets
    split
    · rfl
    · exact State.event_dev ..

theorem setDev_single {d : DevState} {x : Nat} (h : RegFile.Single s.regs x) : RegFile.Single (setDev s d).regs x := by
  have event {t : State} (ht : RegFile.Single t.regs x) {i j k : Nat} : RegFile.Single (t.event i j k).regs x := by
    unfold State.event State.countLost
    split
    · exact RegFile.single_set (.inr (RegFile.single_set (.inr ht)))
    · exact ht
  unfold setDev
  split
  · exact h
  · extract_lets
    split
    · exact h
    · apply event
      exact h

/-- The device goes to a state from READY onward. -/
theorem Tidy.setDev (h : Tidy r s) {d : DevState} (hd : d.onward = true) : Tidy r (setDev s d) :=
  ⟨fun _ => by rw [setDev_dev, hd], fun a ha => setDev_single (h.single a ha)⟩

theorem Tidy.set1 (h : Tidy r s) {f : Field} : Tidy r (State.set1 s f) := h.wr.mark

theorem Tidy.clr (h : Tidy r s) {f : Field} : Tidy r (State.clr s f) := h.wr

theorem Tidy.wrBit (h : Tidy r s) {f : Field} {i : Nat} {b : Bool} : Tidy r (State.wrBit s f i b) := h.wr

theorem Tidy.incSat (h : Tidy r s) {f : Field} {by_ : Nat} : Tidy r (State.incSat s f by_) := h.wr

theorem Tidy.countLost (h : Tidy r s) {lost : Bool} : Tidy r (State.countLost s lost) := h.when (·.incSat.set1)

theorem Tidy.event (h : Tidy r s) {source : Nat} {code : Nat} {data : Nat} : Tidy r (State.event s source code data) :=
  h.update.countLost

theorem Tidy.vatEvent (h : Tidy r s) {u : Nat} {code : Nat} {data : Nat} : Tidy r (State.vatEvent s v u code data) :=
  h.unless (·.event)

theorem Tidy.endLog (h : Tidy r s) : Tidy r (State.endLog s) := h.update

theorem Tidy.flag (h : Tidy r s) {source : Nat} {f : Field} : Tidy r (State.flag s source f) := Tidy.ite h.mark h.set1.event

theorem Tidy.vatFlag (h : Tidy r s) {u : Nat} {f : Field} : Tidy r (State.vatFlag s v u f) := h.unless (·.flag)

theorem Tidy.vatFlagEdge (h : Tidy r s) {u : Nat} {f : Field} : Tidy r (State.vatFlagEdge s v u f) := h.set1.vatEvent

theorem Tidy.vatFlagBit (h : Tidy r s) {u : Nat} {f : Field} {i : Nat} : Tidy r (State.vatFlagBit s v u f i) := h.vatFlag

theorem Tidy.modPort (h : Tidy r s) {f : PortSt → PortSt} : Tidy r (Machine.modPort s v p f) := h.modVat

theorem Tidy.modLeg (h : Tidy r s) {f : LegSt → LegSt} : Tidy r (Machine.modLeg s v n f) := h.modVat

theorem Tidy.enRises (h : Tidy r s) : Tidy r (Machine.enRises s v n) := h.when (·.modLeg.set1)

theorem Tidy.setPins (h : Tidy r s) {pulse : Bool} {en : Bool} : Tidy r (Machine.setPins s v n pulse en) :=
  (h.when (·.enRises)).modLeg.wr.wr

theorem Tidy.setPortPins (h : Tidy r s) {pulse : Bool} {en : Bool} : Tidy r (Machine.setPortPins s v p pulse en) :=
  h.foldl (·.setPins)

theorem Tidy.drivePattern (h : Tidy r s) {fp : Nat} : Tidy r (Machine.drivePattern s v p fp) := h.wr.setPortPins

theorem Tidy.toAllOff (h : Tidy r s) : Tidy r (Machine.toAllOff s v p) := h.drivePattern.set1.vatEvent

theorem Tidy.modGuard (h : Tidy r s) {f : GuardSt → GuardSt} : Tidy r (Machine.modGuard s v p f) := h.modVat

theorem Tidy.restoreOl (h : Tidy r s) : Tidy r (Machine.restoreOl s v p) := h.wr.modGuard

theorem Tidy.leaveRun (h : Tidy r s) : Tidy r (Machine.leaveRun s v p) :=
  ((h.clr.modPort.foldl (·.modLeg)).when (·.restoreOl)).clr.clr.clr

theorem Tidy.enterRun (h : Tidy r s) : Tidy r (Machine.enterRun s v p) := h.foldl (·.modLeg)

theorem Tidy.setPortState (h : Tidy r s) {new : Nat} {cause : Nat} : Tidy r (Machine.setPortState s v p new cause) :=
  Tidy.ite h ((((((((h.when (·.leaveRun)).when (·.modPort)).when (·.modPort)).when (·.clr)).when (·.clr)).unless
    (·.clr)).when (·.setPortPins)).when (·.enterRun)).wr.vatEvent

theorem Tidy.enterPattern1 (h : Tidy r s) {cause : Nat} {fp : Nat} {fallback : Bool} : Tidy r
    (Machine.enterPattern1 s v p cause fp fallback) :=
  h.setPortState.wr.incSat.branch (·.toAllOff) (·.drivePattern)

theorem Tidy.enterUnitPattern (h : Tidy r s) {cause : Nat → Nat} : Tidy r (Machine.enterUnitPattern s v p cause) :=
  Tidy.ite h ((h.foldl (·.enterPattern1)).when (fun h1 => (h1.foldl (·.setPortState))))

theorem Tidy.armEffects (h : Tidy r s) {q : Nat} : Tidy r (Machine.armEffects s v q) := by
  unfold Machine.armEffects
  split; exacts [(h.foldl (·.wrBit)), (Tidy.ite h.vatFlagBit (Tidy.ite (h.foldl (·.vatFlagEdge)) h))]

theorem Tidy.actOnCauses (h : Tidy r s) : Tidy r (Machine.actOnCauses s v p) :=
  (h.foldl (·.armEffects)).when (·.enterUnitPattern)

theorem Tidy.setUnitState (h : Tidy r s) {new : Nat} : Tidy r (Machine.setUnitState s v p new) := h.foldl (·.setPortState)

theorem Tidy.armUnit (h : Tidy r s) : Tidy r (Machine.armUnit s v p) := h.setUnitState.when (·.actOnCauses)

theorem Tidy.takeBackTest (h : Tidy r s) {t : TestEnd} : Tidy r (Machine.takeBackTest s t) := h.wrBit.wr.wr.wr.when (·.wr)

theorem Tidy.countAbandoned (h : Tidy r s) : Tidy r (Machine.countAbandoned s n) := h.set1.incSat.event

theorem Tidy.abandonTest (h : Tidy r s) : Tidy r (Machine.abandonTest s n) :=
  Tidy.ite h.wrBit.countAbandoned (by split; exacts [h.takeBackTest.update.countAbandoned, h])

theorem Tidy.gateOff (h : Tidy r s) : Tidy r (Machine.gateOff s) :=
  Tidy.ite h ((h.forN (·.abandonTest)).update.forN (fun h1 => (h1.branch (·.wrBit) (·.update)))).clr

theorem Tidy.idlePorts (h : Tidy r s) : Tidy r (Machine.idlePorts s) :=
  h.forVats (fun h2 => (h2.forN (fun h1 => (h1.unless (·.setPortState)))))

theorem Tidy.endRide (h : Tidy r s) : Tidy r (Machine.endRide s) := h.clr.clr.update

theorem Tidy.enterSafeStop (h : Tidy r s) {src : Nat} : Tidy r (Machine.enterSafeStop s src) :=
  h.gateOff.set1.wr.clr.set1.event.endRide.update.idlePorts.setDev rfl

theorem Tidy.ordersOnUnit (h : Tidy r s) : Tidy r (Machine.ordersOnUnit s v p) :=
  (((h.when (·.setUnitState)).when (·.setUnitState)).when (·.armUnit)).when (·.setUnitState)

theorem Tidy.ordersOnPorts (h : Tidy r s) : Tidy r (Machine.ordersOnPorts s) :=
  Tidy.ite h (h.forVats (fun h3 => (h3.when (fun h2 => (h2.forN (fun h1 => (h1.unless (·.ordersOnUnit))))))))

theorem Tidy.refreshDeg (h : Tidy r s) : Tidy r (Machine.refreshDeg s) := Tidy.ite h (h.unless (·.wr.event))

theorem Tidy.refreshDev (h : Tidy r s) : Tidy r (Machine.refreshDev s) :=
  Tidy.ite h (Tidy.ite (h.setDev rfl) (Tidy.ite (h.setDev rfl) (h.setDev rfl)))

theorem Tidy.ss1End (h : Tidy r s) : Tidy r (Machine.ss1End s) :=
  Tidy.ite h (by
    split
    · exact h.unless (·.enterSafeStop)
    · split; exacts [h.unless (·.enterSafeStop), h.enterSafeStop])

end Tidy

/-! ## What the load keeps

From the registers that show the wheel (R50) to the end of LOADING, many operations follow. `LoadKept n r s` says that `s` has of
`r` all that the end of LOADING is judged by: those registers, the release sequence, and no SYS reset due; and, once vat `n`
owns, that it still does, with its role. -/

section LoadKept

/-- The registers that show the running wheel (R50). -/
def shownRegs : List Nat := [R.WHL_STAT, R.WHL_ID, R.WHL_VER_LO, R.WHL_VER_HI, R.SAFE_CRC]

/-- The fields to be kept: those of the wheel, and those that show the owner, once there is one. -/
def keptFields : Option Vat → List Field
  | none => shownRegs.map whole
  | some v => shownRegs.map whole ++ [R.OWN_STAT_OWNER, R.VAT_ROLE_ROLE v]

/-- The registers in which they lie. -/
def watched : Option Vat → List Nat
  | none => shownRegs
  | some v => shownRegs ++ [R.OWN_STAT, R.VAT_ROLE v]

structure LoadKept (n : Option Vat) (r s : State) : Prop where
  reads : ∀ f ∈ keptFields n, s.rd f = r.rd f
  single : ∀ a ∈ watched n, RegFile.Single s.regs a
  phase : s.rst.phase = r.rst.phase
  due : s.rst.sysAfterSto = r.rst.sysAfterSto
  variant : s.variant = r.variant

variable {n : Option Vat} {r s t a b : State} {v w : Vat} {p c k i x : Nat}

/-! ### Registers that are not watched -/

theorem addr_watched {f : Field} (h : f ∈ keptFields n) : f.addr ∈ watched n := by
  have hw : f ∈ shownRegs.map whole → f.addr ∈ shownRegs := fun h => by
    obtain ⟨a, ha, rfl⟩ := List.mem_map.mp h
    exact ha
  cases n with
  | none => exact hw h
  | some v =>
    refine List.mem_append.mpr ((List.mem_append.mp h).imp hw (fun h => ?_))
    rcases List.mem_cons.mp h with rfl | h
    · exact .head _
    · exact List.mem_singleton.mp h ▸ .tail _ (.head _)

theorem base_ge (v : Vat) : 0x50000000 ≤ v.base := by
  cases v <;> decide

theorem mem_watched {y : Nat} (h : y ∈ watched n) : y ∈ shownRegs ∨ y = R.OWN_STAT ∨ ∃ v, y = R.VAT_ROLE v := by
  cases n with
  | none => exact .inl h
  | some v =>
    rcases List.mem_append.mp h with h | h
    · exact .inl h
    · exact .inr (by simpa using (List.mem_cons.mp h).imp_right (fun h => ⟨v, List.mem_singleton.mp h⟩))

theorem shown_lt {y : Nat} (h : y ∈ shownRegs) : y < 0x40010120 :=
  of_decide_eq_true (List.all_eq_true.mp (by decide : shownRegs.all (· < 0x40010120) = true) y h)

/-- A common register that is neither one of the wheel nor OWN_STAT. -/
def commonAside (y : Nat) : Bool := decide (y < 0x50000000) && !(R.OWN_STAT :: shownRegs).contains y

theorem common_aside {y : Nat} (h : commonAside y = true) : y ∉ watched n := by
  simp only [commonAside, Bool.and_eq_true, decide_eq_true_eq, Bool.not_eq_true', List.contains_eq_mem, decide_eq_false_iff_not,
    List.mem_cons, not_or] at h
  intro hy
  rcases mem_watched hy with hs | ho | ⟨v, hv⟩
  · exact h.2.2 hs
  · exact h.2.1 ho
  · have := base_ge v
    simp only [R.VAT_ROLE] at hv
    omega

/-- A register of a vat that does not lie where VAT_ROLE could: none is at a multiple of 32 there but VAT_ROLE. -/
theorem vat_aside {y : Nat} (hb : 0x50000000 ≤ y) (hm : y % 32 ≠ 0) : y ∉ watched n := by
  intro hy
  rcases mem_watched hy with hs | ho | ⟨v, hv⟩
  · have := shown_lt hs
    omega
  · exact absurd hb (ho ▸ by decide)
  · cases v <;> simp only [R.VAT_ROLE, Vat.base] at hv <;> omega

/-- The register of one unit of a vat, where the first unit's is not at a multiple of 32. -/
theorem unit_aside {o st : Nat} (ho : o % 32 ≠ 0) (hs : st % 32 = 0) : v.base + o + i * st ∉ watched n := by
  have hb := base_ge v
  refine vat_aside (by omega) ?_
  have hv : v.base % 32 = 0 := by cases v <;> decide
  have hi : i * st % 32 = 0 := by rw [Nat.mul_mod, hs]; simp
  omega

theorem high_aside {y : Nat} (h : 0x40010120 ≤ y) : y ∉ watched none := fun hy => absurd (shown_lt hy) (by omega)

/-! ### Operations of the state -/

theorem LoadKept.step (h : LoadKept n r s) (hr : ∀ y ∈ watched n, t.regs.get y = s.regs.get y)
    (hs : ∀ y ∈ watched n, RegFile.Single s.regs y → RegFile.Single t.regs y) (hrst : t.rst = s.rst) (hv : t.variant = s.variant) :
    LoadKept n r t :=
  ⟨fun f hf => (congrArg (getBits · f.lo f.width) (hr _ (addr_watched hf))).trans (h.reads f hf),
    fun y hy => hs y hy (h.single y hy), by rw [hrst, h.phase], by rw [hrst, h.due], hv.trans h.variant⟩

theorem LoadKept.update (h : LoadKept n r s) {pending : List Instr} {dev : DevState} {mem : List Host.Cell} {time : TimeSt}
    {clk : ClockSt} {vatA vatB : VatSt} {arb : ArbSt} {harp : HarpSt} {ord : OrderSt} {log : LogSt} {whl : WheelSt}
    {trust : TrustSt} {rind : RindSt} {nv : NvSt} {rcd : RecSt} {can : CanSt} {net : NetSt} {bus : BusSt} {free : Nat} :
    LoadKept n r ⟨pending, s.variant, dev, s.regs, mem, time, s.rst, clk, vatA, vatB, arb, harp, ord, log, whl, trust, rind, nv, rcd,
      can, net, bus, free⟩ := ⟨h.reads, h.single, h.phase, h.due, h.variant⟩

theorem LoadKept.ite {q : Prop} {_ : Decidable q} (ha : LoadKept n r a) (hb : LoadKept n r b) : LoadKept n r (if q then a else b) := by
  split <;> assumption

theorem LoadKept.when {q : Prop} {_ : Decidable q} (h : LoadKept n r s) (ha : LoadKept n r s → LoadKept n r a) :
    LoadKept n r (if q then a else s) := .ite (ha h) h

theorem LoadKept.unless {q : Prop} {_ : Decidable q} (h : LoadKept n r s) (hb : LoadKept n r s → LoadKept n r b) :
    LoadKept n r (if q then s else b) := .ite h (hb h)

theorem LoadKept.branch {q : Prop} {_ : Decidable q} (h : LoadKept n r s) (ha : LoadKept n r s → LoadKept n r a)
    (hb : LoadKept n r s → LoadKept n r b) : LoadKept n r (if q then a else b) := .ite (ha h) (hb h)

theorem LoadKept.foldl {α : Type} {f : State → α → State} {l : List α} (h : LoadKept n r s)
    (hf : ∀ {t x}, LoadKept n r t → LoadKept n r (f t x)) : LoadKept n r (l.foldl f s) := by
  induction l generalizing s with
  | nil => exact h
  | cons x l ih => exact ih (hf h)

theorem LoadKept.forN {f : State → Nat → State} (h : LoadKept n r s) (hf : ∀ {t x}, LoadKept n r t → LoadKept n r (f t x)) :
    LoadKept n r (forN k s f) := h.foldl hf

theorem LoadKept.forVats {f : State → Vat → State} (h : LoadKept n r s) (hf : ∀ {t x}, LoadKept n r t → LoadKept n r (f t x)) :
    LoadKept n r (forVats s f) := h.foldl hf

theorem LoadKept.wrWord (h : LoadKept n r s) {y : Nat} {d : Word} (hf : y ∉ watched n := by exact common_aside (by decide)) :
    LoadKept n r (s.wrWord y d) :=
  h.step (fun z hz => RegFile.get_set_other (fun e : z = y => hf (e ▸ hz)) _ _) (fun _ _ hs => RegFile.single_set (.inr hs)) rfl rfl

theorem LoadKept.wr (h : LoadKept n r s) {f : Field} (hf : f.addr ∉ watched n := by exact common_aside (by decide)) :
    LoadKept n r (s.wr f x) := h.wrWord hf

/-- A field of a watched register that is not itself kept. -/
theorem LoadKept.wrApart (h : LoadKept n r s) {f : Field} (hf : f.fits = true) (ha : ∀ g ∈ keptFields n, g.apart f = true) :
    LoadKept n r (s.wr f x) :=
  ⟨fun g hg => (State.rd_wr_apart _ _ _ _ hf (ha g hg)).trans (h.reads g hg), fun y hy => RegFile.single_set (.inr (h.single y hy)),
    h.phase, h.due, h.variant⟩

theorem LoadKept.trans (h : LoadKept n r s) (h' : LoadKept n s t) : LoadKept n r t :=
  ⟨fun f hf => (h'.reads f hf).trans (h.reads f hf), h'.single, h'.phase.trans h.phase, h'.due.trans h.due,
    h'.variant.trans h.variant⟩

theorem LoadKept.mark (h : LoadKept n r s) {y : Nat} : LoadKept n r (s.mark y i) := h.update

theorem LoadKept.set1 (h : LoadKept n r s) {f : Field} (hf : f.addr ∉ watched n := by exact common_aside (by decide)) :
    LoadKept n r (s.set1 f) := (h.wr hf).mark

theorem LoadKept.clr (h : LoadKept n r s) {f : Field} (hf : f.addr ∉ watched n := by exact common_aside (by decide)) :
    LoadKept n r (s.clr f) := h.wr hf

theorem LoadKept.incSat (h : LoadKept n r s) {f : Field} (hf : f.addr ∉ watched n := by exact common_aside (by decide)) :
    LoadKept n r (s.incSat f x) := h.wr hf

theorem LoadKept.event (h : LoadKept n r s) {source code data : Nat} : LoadKept n r (s.event source code data) :=
  h.update.when (fun h => h.incSat.set1)

theorem LoadKept.vatEvent (h : LoadKept n r s) {u code data : Nat} : LoadKept n r (s.vatEvent v u code data) := h.unless (·.event)

theorem LoadKept.vatFlag (h : LoadKept n r s) {u : Nat} {f : Field} (hf : f.addr ∉ watched n) : LoadKept n r (s.vatFlag v u f) :=
  h.unless (·.branch (·.mark) (fun h => (h.set1 hf).event))

theorem LoadKept.vatFlagEdge (h : LoadKept n r s) {u : Nat} {f : Field} (hf : f.addr ∉ watched n) :
    LoadKept n r (s.vatFlagEdge v u f) := (h.set1 hf).vatEvent

theorem LoadKept.setVat (h : LoadKept n r s) {y : VatSt} : LoadKept n r (s.setVat v y) :=
  match v with
  | .A => h.update
  | .B => h.update

theorem LoadKept.modVat (h : LoadKept n r s) {f : VatSt → VatSt} : LoadKept n r (s.modVat v f) := h.setVat

theorem LoadKept.writeBytes (h : LoadKept n r s) {y : Nat} {bs : List Byte} : LoadKept n r (s.writeBytes y bs) := by
  induction bs generalizing s y with
  | nil => exact h
  | cons b bs ih => exact ih h.update

theorem LoadKept.writeMem (h : LoadKept n r s) {y : Nat} {d : Word} : LoadKept n r (s.writeMem y d) := h.writeBytes

/-- What follows from the cycle's own laws, where the list stays tidy. -/
theorem LoadKept.cycle (h : LoadKept n r s) (hc : CycleOnly s t) (ht : Tidy s t) : LoadKept n r t := by
  have free : ∀ f ∈ keptFields n, cycleFree f = true := by
    refine List.all_eq_true.mp ?_
    match n with
    | none => decide +kernel
    | some .A => decide +kernel
    | some .B => decide +kernel
  exact ⟨fun f hf => (hc.rd f (free f hf)).trans (h.reads f hf), fun y hy => ht.single y (h.single y hy),
    (congrArg (fun u : State => u.rst.phase) hc.rest).trans h.phase,
    (congrArg (fun u : State => u.rst.sysAfterSto) hc.rest).trans h.due,
    (congrArg (fun u : State => u.variant) hc.rest).trans h.variant⟩

end LoadKept

/-! ### The load, before a vat owns -/

section Load

variable {r s : State} {v : Vat} {p c k i x : Nat}

/-- A register of a vat. -/
theorem LoadKept.wrWordVat (h : LoadKept none r s) {y : Nat} {d : Word}
    (hy : 0x50000000 ≤ y := by (repeat apply Nat.le_add_right_of_le); exact base_ge _) : LoadKept none r (s.wrWord y d) :=
  h.wrWord (high_aside (Nat.le_trans (by decide) hy))

theorem LoadKept.wrVat (h : LoadKept none r s) {f : Field}
    (hf : 0x50000000 ≤ f.addr := by (repeat apply Nat.le_add_right_of_le); exact base_ge _) : LoadKept none r (s.wr f x) :=
  h.wrWordVat hf

theorem LoadKept.set1Vat (h : LoadKept none r s) {f : Field}
    (hf : 0x50000000 ≤ f.addr := by (repeat apply Nat.le_add_right_of_le); exact base_ge _) : LoadKept none r (s.set1 f) :=
  (h.wrVat hf).mark

/-- No bit of the wheel's own registers is one that a wheel sets (R34). -/
theorem wheelMask_of_shown {y : Nat} (hy : y ∈ shownRegs) {row : RegRow} {is : List Nat} (hr : findReg y = some (row, is)) :
    wheelMask row = 0 := by
  have h := List.all_eq_true.mp
    (by decide +kernel : shownRegs.all (fun y => (findReg y).all (fun q => wheelMask q.1 == 0)) = true) y hy
  rw [hr] at h
  exact eq_of_beq h

theorem LoadKept.wrSame (h : LoadKept none r s) {y : Nat} : LoadKept none r (s.wrWord y (s.regs.get y)) := by
  refine h.step (fun z _ => ?_) (fun _ _ hs => RegFile.single_set (.inr hs)) rfl rfl
  by_cases hz : z = y
  · rw [hz]; exact RegFile.get_set_self ..
  · exact RegFile.get_set_other hz ..

theorem LoadKept.putWheelWord (h : LoadKept none r s) {y : Nat} {d : Word} : LoadKept none r (putWheelWord s y d) := by
  unfold Machine.putWheelWord
  split
  · exact h.wr
  · split
    · next row is hr =>
      by_cases hy : y ∈ shownRegs
      · have hm : (s.regs.get y &&& ~~~(BitVec.ofNat 32 (wheelMask row))) ||| (d &&& BitVec.ofNat 32 (wheelMask row))
            = s.regs.get y := by
          rw [wheelMask_of_shown hy hr]
          simp only [BitVec.and_zero, BitVec.or_zero]
          exact BitVec.and_allOnes
        dsimp only
        rw [hm]
        exact h.wrSame
      · exact h.wrWord hy
    · exact h

theorem LoadKept.stepGo (h : LoadKept none r s) : LoadKept none r (stepGo s) := h.unless (·.update.set1.incSat.event)

theorem LoadKept.applyRegWord (h : LoadKept none r s) {q : Nat × Word} : LoadKept none r (applyRegWord s q) :=
  (h.putWheelWord.when (·.stepGo)).when (·.putWheelWord)

theorem LoadKept.writeEngWords (h : LoadKept none r s) {ws : List Word} : LoadKept none r (writeEngWords s v c i ws) := by
  induction ws generalizing s i with
  | nil => exact h
  | cons w ws ih => exact ih h.writeMem

theorem LoadKept.writeInst (h : LoadKept none r s) {b : RawBlock} {d : InstDef} : LoadKept none r (writeInst s v c k i b d) :=
  h.writeMem.writeEngWords

theorem LoadKept.writePlaced (h : LoadKept none r s) {q : Placed} : LoadKept none r (writePlaced s v c k q) :=
  h.foldl (·.writeInst)

theorem LoadKept.writeEngine (h : LoadKept none r s) {l : EngineLay} : LoadKept none r (writeEngine s v c l) :=
  ((h.foldl (·.writePlaced)).foldl (·.writePlaced)).writeEngWords.writeEngWords.wrVat

theorem LoadKept.refreshLoad (h : LoadKept none r s) : LoadKept none r (refreshLoad s v c) := h.wrVat.wrVat.wrVat

theorem LoadKept.bindRegs (h : LoadKept none r s) {w : WheelGraph} {fb : Bool} : LoadKept none r (bindRegs s v c k w fb) :=
  have h1 := h.wrWordVat.wrVat.set1Vat.wrVat.wrVat.wrVat.wrVat.wrVat
  (h1.wrVat.wrVat.wrVat.wrVat.wrVat).foldl (·.wrVat.wrVat.wrVat.wrVat)

theorem LoadKept.bindGraph (h : LoadKept none r s) {w : WheelGraph} {fb : Bool} : LoadKept none r (bindGraph s v c k w fb) :=
  h.bindRegs.modVat.refreshLoad

theorem LoadKept.applyGraphs (h : LoadKept none r s) {w : WheelImage} : LoadKept none r (applyGraphs s w) :=
  h.update.forVats (fun h => (h.foldl (·.writeEngine)).foldl (·.bindGraph))

theorem LoadKept.writeSignals (h : LoadKept none r s) {e : CanEntry} {val : CanSig → Int} :
    LoadKept none r (writeSignals s e val) := h.foldl (·.update)

/-- The registers of the CAN channels and entries. -/
theorem LoadKept.wrCan (h : LoadKept none r s) {f : Field} (hf : 0x40100000 ≤ f.addr) : LoadKept none r (s.wr f x) :=
  h.wr (high_aside (Nat.le_trans (by decide) hf))

theorem le_caneStat : 0x40100000 ≤ (R.CANE_STAT_TIMEDOUT i k).addr := by
  simp only [R.CANE_STAT_TIMEDOUT, R.CANE_STAT]; omega

theorem le_canStat : 0x40100000 ≤ (R.CAN_STAT_STATE i).addr := by
  simp only [R.CAN_STAT_STATE, R.CAN_STAT]; omega

theorem LoadKept.applyCan (h : LoadKept none r s) {w : WheelImage} : LoadKept none r (applyCan s w) := by
  unfold Machine.applyCan
  extract_lets es s0 s1 s2 s3 s4
  have h2 : LoadKept none r s2 := h.update
  have h3 : LoadKept none r s3 := h2.foldl (fun h => h.when (fun h => h.update))
  clear_value s3
  have h4 : LoadKept none r s4 := h3.foldl (fun h => h.unless (fun h => ((h.wrCan le_caneStat).mark).writeSignals))
  clear_value s4
  refine h4.forN (fun {t c} h => ?_)
  have h5 : LoadKept none r (if privileged w.cats c then t.set1 (R.CAN_STAT_PRIV c) else t) :=
    h.when (fun h => (h.wrCan (f := R.CAN_STAT_PRIV c) (le_canStat (i := c))).mark)
  exact h5.when (fun h => h.wrCan (f := R.CAN_STAT_STATE c) le_canStat)

theorem LoadKept.refreshCmp (h : LoadKept none r s) : LoadKept none r (refreshCmp s v p) := h.foldl (·.wrVat)

theorem LoadKept.startPeriods (h : LoadKept none r s) : LoadKept none r (startPeriods s) :=
  h.forVats (·.forN (·.wrVat.wrVat.modVat.refreshCmp))

theorem LoadKept.applyPatch (h : LoadKept none r s) : LoadKept none r (applyPatch s) := by
  unfold Machine.applyPatch
  extract_lets b code ver u
  clear_value b code ver
  exact h.unless (fun h => LoadKept.ite (h.set1.wr (high_aside (by decide))).wr.event h.wr.set1.event)

end Load

/-! ### The registers of the wheel -/

section WheelRegisters

variable {u t : State} {n : Option Vat} {k : Nat} {rs : List WheelRec}

theorem boolNat_ne_zero (b : Bool) : (boolNat b % 2 ^ 1 != 0) = b := by cases b <;> rfl

theorem single_wr {s : State} {f : Field} {a x : Nat} (h : RegFile.Single s.regs a) : RegFile.Single (s.wr f x).regs a :=
  RegFile.single_set (.inr h)

theorem single_wr_self {s : State} {f : Field} {x : Nat} : RegFile.Single (s.wr f x).regs f.addr := RegFile.single_set (.inl rfl)

theorem wheelRegisters_single : ∀ a ∈ shownRegs, RegFile.Single (wheelRegisters u k rs).regs a := by
  unfold wheelRegisters
  extract_lets h crc s1 s2 s3 s4
  have all : ∀ a ∈ shownRegs, RegFile.Single s4.regs a := by
    simp only [shownRegs, List.forall_mem_cons]
    exact ⟨single_wr_self (f := R.WHL_STAT_RESTRICT),
      single_wr (single_wr (single_wr (single_wr (single_wr_self (f := R.WHL_ID_VAL))))),
      single_wr (single_wr (single_wr (single_wr_self (f := R.WHL_VER_LO_VAL)))),
      single_wr (single_wr (single_wr_self (f := R.WHL_VER_HI_VAL))), single_wr (single_wr_self (f := R.SAFE_CRC_VAL)), nofun⟩
  exact fun a ha => (Tidy.event Tidy.refl).single a (all a ha)

theorem confirmed_congr {s t : State} {x : Nat} (h0 : t.rd R.WHL_STAT_CONF0V = s.rd R.WHL_STAT_CONF0V)
    (h1 : t.rd R.WHL_STAT_CONF1V = s.rd R.WHL_STAT_CONF1V) (h2 : t.rd R.SAFE_CONF0_VAL = s.rd R.SAFE_CONF0_VAL)
    (h3 : t.rd R.SAFE_CONF1_VAL = s.rd R.SAFE_CONF1_VAL) : confirmed t x = confirmed s x := by
  simp only [confirmed, State.is, h0, h1, h2, h3]

theorem wheelRegisters_shown (hk : k < 2) : WheelShown u (wheelRegisters u k ((wheelRecords u k).getD [])) k := by
  unfold wheelRegisters
  extract_lets h crc s1 s2 s3 s4
  have hc : confirmed s3 crc = confirmed u crc := by
    apply confirmed_congr <;> simp (disch := decide) only [s3, s2, s1, State.rd_wr_apart]
  constructor <;> simp (disch := decide) only [State.is, s4, s3, s2, s1, State.rd_event, State.rd_wr_self, State.rd_wr_apart]
  · exact Nat.mod_eq_of_lt hk
  · exact boolNat_ne_zero _
  · rfl
  · exact ⟨rfl, rfl⟩
  · rfl
  · exact (boolNat_ne_zero _).trans (congrArg _ hc)

theorem wheelRegisters_rst : (wheelRegisters u k rs).rst = u.rst := by
  unfold wheelRegisters
  extract_lets h crc s1 s2 s3 s4
  clear_value crc
  rw [State.event_rst]
  have h4 : s4.rst = s3.rst := State.wr_rst _ _ _
  have h3 : s3.rst = s2.rst := State.wr_rst _ _ _
  have h2 : s2.rst = s1.rst := (State.wr_rst _ _ _).trans (State.wr_rst _ _ _)
  have h1 : s1.rst = u.rst := (State.wr_rst _ _ _).trans ((State.wr_rst _ _ _).trans (State.wr_rst _ _ _))
  exact h4.trans (h3.trans (h2.trans h1))

theorem LoadKept.wheelRegisters : LoadKept none (wheelRegisters u k rs) (wheelRegisters u k rs) :=
  ⟨fun _ _ => rfl, wheelRegisters_single, rfl, rfl, rfl⟩

theorem LoadKept.get (h : LoadKept n u t) {a : Nat} (ha : a ∈ shownRegs) : t.regs.get a = u.regs.get a := by
  refine State.get_eq_of_rd (h.reads (whole a) ?_)
  have hm := List.mem_map_of_mem (f := whole) ha
  cases n with
  | none => exact hm
  | some v => exact List.mem_append_left _ hm

theorem LoadKept.rd (h : LoadKept n u t) {f : Field} (hf : f.addr ∈ shownRegs) : t.rd f = u.rd f :=
  congrArg (getBits · f.lo f.width) (h.get hf)

theorem LoadKept.applyWheel : LoadKept none (Machine.wheelRegisters u k rs) (applyWheel u k rs) := by
  unfold Machine.applyWheel
  extract_lets regs s
  split
  · exact LoadKept.wheelRegisters
  · exact (LoadKept.wheelRegisters.foldl (·.applyRegWord)).applyGraphs.applyCan.startPeriods

end WheelRegisters

/-! ### The vats take up their roles -/

section StartVats

variable {n : Option Vat} {r s t : State} {v o : Vat} {c i k m x : Nat}

theorem LoadKept.forN_lt {f : State → Nat → State} (h : LoadKept n r s)
    (hf : ∀ {t x}, x < m → LoadKept n r t → LoadKept n r (f t x)) : LoadKept n r (Machine.forN m s f) := by
  have go : ∀ l : List Nat, (∀ x ∈ l, x < m) → ∀ {s}, LoadKept n r s → LoadKept n r (l.foldl f s) := by
    intro l
    induction l with
    | nil => exact fun _ _ h => h
    | cons x l ih => exact fun hl _ h => ih (fun y hy => hl y (.tail _ hy)) (hf (hl x (.head _)) h)
  exact go _ (fun x hx => List.mem_range.mp hx) h

theorem sigdef_aside (h : k < 1024) : R.SIGDEF k ∉ watched n := by
  have ho : R.OWN_STAT < 0x40108000 := by decide
  intro hy
  rcases mem_watched hy with hs | he | ⟨v, hv⟩
  · have hl := shown_lt hs
    simp only [R.SIGDEF] at hl
    omega
  · simp only [R.SIGDEF] at he
    omega
  · have hb := base_ge v
    simp only [R.SIGDEF, R.VAT_ROLE] at hv
    omega

theorem LoadKept.sigdefMove (h : LoadKept n r s) {e i e' i' : Nat} : LoadKept n r (sigdefMove s e i m e' i') := by
  refine h.forN_lt (fun {t k} hk h => h.when (fun h => ?_))
  have hi : LoadKept n r (t.wr (R.SIGDEF_INST k) (t.rd (R.SIGDEF_INST k) - i + i')) :=
    h.wr (f := R.SIGDEF_INST k) (sigdef_aside hk)
  exact hi.wr (f := R.SIGDEF_ENGINE k) (sigdef_aside hk)

theorem LoadKept.sigdefFollow (h : LoadKept n r s) : LoadKept n r (sigdefFollow s v) :=
  h.foldl (·.unless (fun h => h.branch (·.sigdefMove) (·.when (·.sigdefMove))))

/-- What is watched lies in no vat's window but for VAT_ROLE, which a VAT reset spares (R241). -/
theorem watched_spared {y : Nat} (hy : y ∈ watched n) : (inWindow v y && y != R.VAT_ROLE v) = false := by
  have all : ∀ v : Vat, (watched n).all (fun y => !(inWindow v y && y != R.VAT_ROLE v)) = true := by
    match n with
    | none => intro v; cases v <;> decide
    | some .A => intro v; cases v <;> decide
    | some .B => intro v; cases v <;> decide
  simpa only [Bool.not_eq_true'] using List.all_eq_true.mp (all v) y hy

theorem LoadKept.mapRegs (h : LoadKept n r s) {f : Nat → Word → Word}
    (hf : ∀ y ∈ watched n, f y (s.regs.get y) = s.regs.get y) : LoadKept n r { s with regs := s.regs.mapRegs f } :=
  LoadKept.step (s := s) (t := { s with regs := s.regs.mapRegs f }) h (fun y hy => RegFile.get_mapRegs (h.single y hy) (hf y hy))
    (fun y _ hy => RegFile.single_mapRegs (l := s.regs) (f := f) (a := y) hy) rfl rfl

theorem LoadKept.vatRegsReset (h : LoadKept n r s) {pick : Nat → Bool} : LoadKept n r (vatRegsReset s v pick) :=
  h.mapRegs (fun y hy => by rw [watched_spared hy]; rfl)

theorem LoadKept.resetPulse (h : LoadKept n r s) : LoadKept n r (resetPulse s v) := by
  unfold Machine.resetPulse
  exact h.vatRegsReset.modVat

theorem LoadKept.handover (h : LoadKept n r s) : LoadKept n r (s.wr R.OWN_STAT_HANDOVER x) := by
  refine h.wrApart (by decide) ?_
  match n with
  | none => decide
  | some .A => decide
  | some .B => decide

theorem LoadKept.finishHandover (h : LoadKept n r s) : LoadKept n r (finishHandover s) := by
  refine h.when (fun h => ?_)
  dsimp only
  split
  · exact LoadKept.when h.handover.update (·.resetPulse)
  · exact h.handover.update

theorem LoadKept.passPending (h : LoadKept n r s) : LoadKept n r (passPending s) := h.unless (·.wr.update.finishHandover)

theorem LoadKept.stayWith (h : LoadKept n r s) {old : Option Vat} : LoadKept n r (stayWith s old v) := by
  cases old with
  | none => exact h
  | some o => exact (LoadKept.forVats h.update (·.forN (·.modVat))).wr.handover.mark.passPending

theorem role_aside (h : n ≠ some v) : R.VAT_ROLE v ∉ watched n := by
  match n, v with
  | none, v => cases v <;> decide
  | some .A, .A => exact absurd rfl h
  | some .B, .B => exact absurd rfl h
  | some .A, .B => decide
  | some .B, .A => decide

theorem LoadKept.setRole (h : LoadKept n r s) (hn : n ≠ some v) : LoadKept n r (setRole s v x) :=
  h.unless (fun h => (h.wr (f := R.VAT_ROLE_ROLE v) (role_aside hn)).event)

theorem LoadKept.standDown (h : LoadKept none r s) {old : Option Vat} : LoadKept none r (standDown s old) := by
  cases old with
  | none => exact h
  | some o => exact h.when (·.setRole nofun)

/-- Vat `n` owns, and what is kept from then on is kept with it. -/
structure Owned (n : Vat) (r s : State) : Prop where
  shown : LoadKept none r s
  single : ∀ a ∈ watched (some n), RegFile.Single s.regs a
  owner : s.rd R.OWN_STAT_OWNER = n.code
  role : role s n = roleACTIVE
  present : n ∈ s.vats

theorem LoadKept.shown_only (h : LoadKept n r s) : LoadKept none r s := by
  cases n with
  | none => exact h
  | some v =>
    exact ⟨fun f hf => h.reads f (List.mem_append_left _ hf), fun a ha => h.single a (List.mem_append_left _ ha), h.phase, h.due,
      h.variant⟩

theorem Owned.same (h : Owned v r s) : LoadKept (some v) s s := ⟨fun _ _ => rfl, h.single, rfl, rfl, rfl⟩

theorem Owned.next (h : Owned v r s) (hk : LoadKept (some v) s t) : Owned v r t :=
  ⟨h.shown.trans hk.shown_only, hk.single, (hk.reads _ (by simp [keptFields])).trans h.owner,
    (hk.reads _ (by simp [keptFields])).trans h.role, by rw [State.vats, hk.variant]; exact h.present⟩

theorem setRole_owner : (setRole s v x).rd R.OWN_STAT_OWNER = s.rd R.OWN_STAT_OWNER := by
  have h : R.OWN_STAT_OWNER.apart (R.VAT_ROLE_ROLE v) = true := by cases v <;> decide
  have hf : (R.VAT_ROLE_ROLE v).fits = true := by cases v <;> decide
  unfold setRole
  split
  · rfl
  · rw [State.rd_event _ _ _ _ _ (by decide) (by decide), State.rd_wr_apart _ _ _ _ hf h]

theorem standDown_owner {old : Option Vat} : (standDown s old).rd R.OWN_STAT_OWNER = s.rd R.OWN_STAT_OWNER := by
  cases old with
  | none => rfl
  | some o =>
    rw [standDown]
    split
    · exact setRole_owner
    · rfl

theorem setRole_role (hx : x < 8) : role (setRole s v x) v = x := by
  have hf : (R.VAT_ROLE_ROLE v).fits = true := by cases v <;> decide
  have hl : (R.VAT_ROLE_ROLE v).apart R.LOG_STAT_LOST = true ∧ (R.VAT_ROLE_ROLE v).apart R.LOG_STAT_LOST_F = true := by
    cases v <;> decide
  unfold setRole
  split
  · assumption
  · rw [role, State.rd_event _ _ _ _ _ hl.1 hl.2, State.rd_wr_self _ _ _ hf]
    exact Nat.mod_eq_of_lt hx

theorem Tidy.setRole (h : Tidy r s) : Tidy r (setRole s v x) := h.unless (·.wr.event)

theorem Tidy.standDown (h : Tidy r s) {old : Option Vat} : Tidy r (standDown s old) := by
  cases old with
  | none => exact h
  | some o => exact h.when (·.setRole)

/-- A vat takes the pins at the start (R249). -/
theorem takeover_owned (h : LoadKept none r s) (hc : Calm s) (hv : v ∈ s.vats) (hr : RegFile.Single s.regs (R.VAT_ROLE v)) :
    Owned v r (takeover s v c) := by
  have hl : lostT s = false := by rw [lostT, hc]; rfl
  rw [takeover, if_neg (by rw [hl]; exact Bool.false_ne_true)]
  extract_lets old s1 s2 s3
  have h1 : LoadKept none r s1 := ((h.wr (by decide)).wr (by decide)).incSat (by decide)
  have ho : s1.rd R.OWN_STAT_OWNER = v.code := by
    simp (disch := decide) only [s1, State.incSat, State.rd_wr_apart, State.rd_wr_self]
    cases v <;> rfl
  have t1 : Tidy s s1 := Tidy.refl.wr.wr.incSat
  have w1 : RegFile.Single s1.regs R.OWN_STAT := single_wr_self (f := R.OWN_STAT_CHANGES)
  clear_value s1
  have own : Owned v r (setRole (standDown s2 old) v roleACTIVE) :=
    { shown := h1.event.standDown.setRole nofun
      single := fun a ha => by
        rcases List.mem_append.mp ha with ha | ha
        · exact (h1.event.standDown.setRole nofun).single a ha
        · rcases List.mem_cons.mp ha with rfl | ha
          · exact (Tidy.refl.event.standDown.setRole).single _ w1
          · rw [List.mem_singleton.mp ha]
            exact (t1.event.standDown.setRole).single _ hr
      owner := setRole_owner.trans (standDown_owner.trans ((State.rd_event _ _ _ _ _ (by decide) (by decide)).trans ho))
      role := setRole_role (by decide)
      present := by rwa [State.vats, (h1.event.standDown.setRole nofun).variant, ← h.variant] }
  exact own.next own.same.sigdefFollow.stayWith

end StartVats

section Units

variable {n : Option Vat} {r s t : State} {v o : Vat} {c g i k m p x : Nat}

theorem single_set1_self {f : Field} : RegFile.Single (s.set1 f).regs f.addr := by
  rw [State.set1_eq_mark]
  exact single_wr_self (s := s) (f := f) (x := 1)

/-- Each vat of the variant takes its start: SYNCOK is written in its VAT_ROLE. -/
theorem forVats_single {f : State → Vat → State} (self : ∀ {s v}, RegFile.Single (f s v).regs (R.VAT_ROLE v))
    (other : ∀ {s v a}, RegFile.Single s.regs a → RegFile.Single (f s v).regs a) (hv : v ∈ s.vats) :
    RegFile.Single (forVats s f).regs (R.VAT_ROLE v) := by
  have keep {a : Nat} : ∀ {l : List Vat} {s : State}, RegFile.Single s.regs a → RegFile.Single (l.foldl f s).regs a := by
    intro l
    induction l with
    | nil => exact fun h => h
    | cons u l ih => exact fun h => ih (other h)
  have go : ∀ {l : List Vat} {s : State}, v ∈ l → RegFile.Single (l.foldl f s).regs (R.VAT_ROLE v) := by
    intro l
    induction l with
    | nil => exact fun h => nomatch h
    | cons u l ih =>
      intro s h
      rcases List.mem_cons.mp h with rfl | h
      · exact keep (l := l) self
      · exact ih h
  exact go hv

theorem LoadKept.vats (h : LoadKept n r s) : s.vats = r.vats := by rw [State.vats, h.variant]; rfl

theorem LoadKept.calm (h : LoadKept n r s) (hc : Calm r) : Calm s := h.due.trans hc

theorem owner_eq (h : s.rd R.OWN_STAT_OWNER = v.code) : s.owner = some v := by
  rw [State.owner, h]
  cases v <;> rfl

/-- The first owner (R249). -/
def firstOwner (s : State) : Vat := if s.variant.dual && s.is (R.VAT_ROLE_FLT .A) && !s.is (R.VAT_ROLE_FLT .B) then .B else .A

theorem firstOwner_mem : firstOwner s ∈ s.vats := by
  cases hd : s.variant.dual with
  | true =>
    rw [State.vats, if_pos hd]
    cases firstOwner s <;> simp
  | false => simp [firstOwner, State.vats, hd]

theorem startVats_owned (h : LoadKept none r s) (hc : Calm r) : ∃ v, Owned v r (startVats s) := by
  unfold startVats
  extract_lets s1 s2
  have h1 : LoadKept none r s1 :=
    h.forVats (fun {t v} h =>
      have hr := LoadKept.wr (x := 1) (f := R.VAT_ROLE_SYNCOK v) h.modVat (role_aside (v := v) nofun)
      hr.mark)
  have hnew : firstOwner s1 ∈ s1.vats := firstOwner_mem
  have hs : RegFile.Single s1.regs (R.VAT_ROLE (firstOwner s1)) := by
    refine forVats_single (fun {s v} => ?_) (fun {s v a} ha => ?_) ((h1.vats.trans h.vats.symm) ▸ hnew)
    · exact single_set1_self (f := R.VAT_ROLE_SYNCOK v)
    · exact ((Tidy.refl (s := s)).modVat.set1).single a ha
  have own := takeover_owned (c := 1) h1 (h1.calm hc) hnew hs
  refine ⟨firstOwner s1, own.next ?_⟩
  have hf : ∀ {l : List Vat} {t}, LoadKept (some (firstOwner s1)) s2 t →
      LoadKept (some (firstOwner s1)) s2 (l.foldl (fun s v => if s.owner == some v then s else setRole s v roleSTANDBY) t) := by
    intro l t ht
    refine ht.foldl (fun {t v} ht => ?_)
    have ho : t.owner = some (firstOwner s1) := owner_eq ((ht.reads _ (by simp [keptFields])).trans own.owner)
    split
    · exact ht
    · next hv => exact ht.setRole (fun e => hv (by rw [ho, e]; exact beq_self_eq_true _))
  exact hf own.same

theorem slice_aside {o : Nat} (ho : o % 32 ≠ 0) : v.base + o + i * 0x40 ∉ watched n := unit_aside ho rfl

theorem LoadKept.modGrp (h : LoadKept n r s) {f : GrpSt → GrpSt} : LoadKept n r (modGrp s v g f) := h.modVat

theorem LoadKept.abandonRotation (h : LoadKept n r s) : LoadKept n r (abandonRotation s v g) := by
  unfold Machine.abandonRotation
  split
  · exact h
  all_goals exact (h.wr (slice_aside (o := 0x04100028) (by decide))).modGrp

theorem LoadKept.refreshValid (h : LoadKept n r s) : LoadKept n r (refreshValid s v k) :=
  h.wr (slice_aside (o := 0x04100014) (by decide))

theorem LoadKept.loseChan (h : LoadKept n r s) : LoadKept n r (loseChan s v k) := by
  refine h.unless (fun h => LoadKept.modVat (LoadKept.refreshValid (h.unless (fun h => ?_))))
  exact LoadKept.vatFlagEdge (LoadKept.set1 h (slice_aside (o := 0x04100014) (by decide)))
    (slice_aside (o := 0x04100018) (by decide))

theorem LoadKept.groupLoss (h : LoadKept n r s) : LoadKept n r (groupLoss s v g) := by
  refine h.unless (fun h => LoadKept.forN ?_ (·.loseChan))
  exact LoadKept.vatFlag (h.set1 (unit_aside (o := 0x0410140c) (by decide) rfl)) (unit_aside (o := 0x0410140c) (by decide) rfl)

theorem LoadKept.startGroup (h : LoadKept n r s) : LoadKept n r (startGroup s v g) :=
  LoadKept.when (h.abandonRotation.modGrp) (·.groupLoss)

theorem LoadKept.startCarrier (h : LoadKept n r s) : LoadKept n r (startCarrier s v p) :=
  h.unless (fun h => LoadKept.foldl h.modVat (·.modVat))

theorem LoadKept.auxNext (h : LoadKept n r s) : LoadKept n r (auxNext s v k) := by
  refine h.unless (fun h => ?_)
  split
  · exact h.modVat
  · split
    · exact h.modVat
    · exact h

theorem LoadKept.auxStart (h : LoadKept n r s) : LoadKept n r (auxStart s v k) := h.when (·.modVat.auxNext)

theorem LoadKept.startRamp (h : LoadKept n r s) : LoadKept n r (startRamp s) := by
  refine h.unless (fun h => ?_)
  dsimp only
  split
  · exact h.set1.wrWord
  · exact h.set1

theorem LoadKept.startRecorder (h : LoadKept n r s) : LoadKept n r (startRecorder s) :=
  h.when (fun h => LoadKept.writeMem (h.update.wr))

theorem LoadKept.startUnits (h : LoadKept n r s) : LoadKept n r (startUnits s) := by
  unfold Machine.startUnits
  extract_lets s1 s2 c s3
  have h1 : LoadKept n r s1 := h.forVats (·.forN (·.startCarrier))
  have h2 : LoadKept n r s2 := h1.forVats (fun h => LoadKept.forN (h.forN (·.startGroup)) (·.auxStart))
  have h3 : LoadKept n r s3 := h2.update
  exact h3.startRamp.startRecorder

end Units

section Ready

variable {n : Option Vat} {r s t : State} {v o : Vat} {c g i k m p x : Nat}

/-- The release sequence is over. -/
def ended (s : State) : State := { s with rst := { s.rst with phase := .done } }

theorem Owned.ended (h : Owned v r s) : Owned v (ended r) (ended s) :=
  { shown := ⟨h.shown.reads, h.shown.single, rfl, h.shown.due, h.shown.variant⟩
    single := h.single, owner := h.owner, role := h.role, present := h.present }

theorem LoadKept.enterSafeStop (h : LoadKept n r s) : LoadKept n r (enterSafeStop s x) :=
  h.cycle (enterSafeStop_cycle ⟨fun _ _ => rfl, rfl⟩ x) Tidy.refl.enterSafeStop

theorem LoadKept.setDevReady (h : LoadKept n r s) : LoadKept n r (setDev s .ready) :=
  h.cycle (setDev_cycle ⟨fun _ _ => rfl, rfl⟩ _) (Tidy.refl.setDev rfl)

theorem LoadKept.endRide (h : LoadKept n r s) : LoadKept n r (endRide s) := h.clr.clr.update

theorem LoadKept.startSs1 (h : LoadKept n r s) {kind : Ss1Kind} : LoadKept n r (startSs1 s x kind) :=
  h.unless (·.set1.wr.set1.event.endRide.update)

theorem LoadKept.pairStep (h : LoadKept n r s) (hk : commonAside (discLatch k).addr = true) : LoadKept n r (pairStep s k) := by
  refine h.unless (fun h => ?_)
  have hs {q : PairSt} : LoadKept n r (setPair s k q) := LoadKept.ite h.update h.update
  exact hs.when (·.clr (common_aside hk))

theorem LoadKept.refreshDemands (h : LoadKept n r s) : LoadKept n r (refreshDemands s) := by
  unfold Machine.refreshDemands
  extract_lets old d s1 new s2
  have h2 : LoadKept n r s2 := h.wr.set1.event
  exact LoadKept.unless h.wr (fun _ => h2.branch (·.when (·.enterSafeStop)) (·.startSs1))

theorem LoadKept.judgeInputs (h : LoadKept n r s) : LoadKept n r (judgeInputs s) :=
  ((h.pairStep (by decide)).pairStep (by decide)).refreshDemands

theorem LoadKept.gateOn (h : LoadKept n r s) : LoadKept n r (gateOn s) :=
  (LoadKept.forN h.update (fun h => h.when (·.wr))).set1

theorem enterSafeStop_dev : (enterSafeStop s x).dev = .safeStop := by
  unfold enterSafeStop
  exact setDev_dev

theorem enterReady_owned (h : Owned v r s) : Owned v (ended r) (enterReady s) ∧ (enterReady s).dev.onward = true := by
  unfold enterReady
  extract_lets rst s1 ord s2 s3
  have h2 : Owned v (ended r) s2 := h.ended.next h.ended.same.update
  have h3 : Owned v (ended r) s3 := h2.next (LoadKept.judgeInputs (h2.same.wr (f := R.START_STAT_RDY)))
  clear_value s3
  split
  · exact ⟨h3.next h3.same.enterSafeStop, by rw [enterSafeStop_dev]; rfl⟩
  · split
    · exact ⟨h3.next h3.same.enterSafeStop, by rw [enterSafeStop_dev]; rfl⟩
    · exact ⟨h3.next h3.same.gateOn.setDevReady, by rw [setDev_dev]; rfl⟩

theorem LoadKept.resets (h : LoadKept n r s) {y : ResetSt} (hp : y.phase = s.rst.phase) (hd : y.sysAfterSto = s.rst.sysAfterSto) :
    LoadKept n r { s with rst := y } := ⟨h.reads, h.single, hp.trans h.phase, hd.trans h.due, h.variant⟩

theorem LoadKept.recordCause (h : LoadKept n r s) {level u : Nat} : LoadKept n r (recordCause s c level u) :=
  LoadKept.unless h.wr.wr.wr (·.incSat)

theorem LoadKept.recordVatCause (h : LoadKept n r s) {code : Option Nat} : LoadKept n r (recordVatCause s v code) := by
  unfold Machine.recordVatCause
  extract_lets cd s1 s2
  have h1 : LoadKept n r s1 := LoadKept.unless h (·.update)
  have h2 : LoadKept n r s2 := LoadKept.branch h1 (·.incSat) (·.recordCause)
  exact h2.resets rfl rfl

theorem LoadKept.failVat (h : LoadKept n r s) (hn : n ≠ some v) : LoadKept n r (failVat s v) :=
  LoadKept.when (h.incSat (f := R.VAT_ROLE_FAILS v) (role_aside hn)) (·.setRole hn)

theorem LoadKept.putInReset (h : LoadKept n r s) (hn : n ≠ some v) : LoadKept n r (putInReset s v) := by
  unfold Machine.putInReset
  extract_lets d s1 s2 s3 s4
  have h1 : LoadKept n r s1 := h.unless (·.setRole hn)
  have h3 : LoadKept n r s3 :=
    (h1.vatRegsReset.wr (f := R.VAT_ROLE_SYNCOK v) (role_aside hn)).wr (f := R.VAT_ROLE_JOINING v) (role_aside hn)
  exact h3.setVat.update

theorem Tidy.vatRegsReset (h : Tidy r s) {pick : Nat → Bool} : Tidy r (vatRegsReset s v pick) :=
  ⟨h.onward, fun a ha => by unfold Machine.vatRegsReset; dsimp only; exact RegFile.single_mapRegs (h.single a ha)⟩

theorem Tidy.recordCause (h : Tidy r s) {level u : Nat} : Tidy r (recordCause s c level u) := Tidy.unless h.wr.wr.wr (·.incSat)

theorem Tidy.recordVatCause (h : Tidy r s) {code : Option Nat} : Tidy r (recordVatCause s v code) := by
  unfold Machine.recordVatCause
  extract_lets cd s1 s2
  have h1 : Tidy r s1 := Tidy.unless h (·.update)
  have h2 : Tidy r s2 := Tidy.branch h1 (·.incSat) (·.recordCause)
  exact h2.update

theorem Tidy.failVat (h : Tidy r s) : Tidy r (failVat s v) := Tidy.when h.incSat (·.setRole)

theorem Tidy.putInReset (h : Tidy r s) : Tidy r (putInReset s v) := by
  unfold Machine.putInReset
  extract_lets d s1 s2 s3 s4
  have h1 : Tidy r s1 := h.unless (·.setRole)
  have h3 : Tidy r s3 := h1.vatRegsReset.wr.wr
  exact h3.setVat.update

/-- The owner is ACTIVE, so that no other vat is the last. -/
theorem Owned.not_alone (h : Owned v r s) (hu : v ≠ o) : aloneVat s o = false := by
  refine Bool.eq_false_iff.mpr (fun ha => ?_)
  have hv := List.all_eq_true.mp ha v h.present
  rw [h.role] at hv
  simp [hu] at hv

/-- A VAT reset of a vat that does not own, from READY onward. -/
theorem vatReset_owned (h : Owned v r s) (hd : s.dev.onward = true) (hu : v ≠ o) {code : Option Nat} :
    Owned v r (vatReset s o code c true) ∧ (vatReset s o code c true).dev.onward = true := by
  have hn : some v ≠ some o := fun e => hu (Option.some.inj e)
  have ho : (s.owner == some o) = false := by
    rw [owner_eq h.owner]
    exact beq_eq_false_iff_ne.mpr hn
  have reset : Owned v r (putInReset (recordVatCause (failVat s o) o code) o)
      ∧ (putInReset (recordVatCause (failVat s o) o code) o).dev.onward = true :=
    ⟨h.next (((h.same.failVat hn).recordVatCause).putInReset hn), (Tidy.refl.failVat.recordVatCause.putInReset).onward hd⟩
  have record : Owned v r (recordVatCause s o code) ∧ (recordVatCause s o code).dev.onward = true :=
    ⟨h.next h.same.recordVatCause, Tidy.refl.recordVatCause.onward hd⟩
  unfold vatReset
  simp only [h.not_alone hu, ho]
  split
  · exact ⟨h, hd⟩
  · split
    · next hf => rw [hf] at hd; exact nomatch hd
    · next hf => rw [hf] at hd; exact nomatch hd
    · next hf => rw [hf] at hd; exact nomatch hd
    · exact record
    · split
      · exact record
      · exact reset

theorem resetFlagged_owned (h : Owned v r s) (hd : s.dev.onward = true) :
    Owned v r (resetFlagged s) ∧ (resetFlagged s).dev.onward = true := by
  unfold resetFlagged
  generalize s.vats = l
  induction l generalizing s with
  | nil => exact ⟨h, hd⟩
  | cons o l ih =>
    have ho : Owned v r (if role s o == roleSTANDBY && s.is (R.VAT_ROLE_FLT o) then vatReset s o none 3 true else s)
        ∧ (if role s o == roleSTANDBY && s.is (R.VAT_ROLE_FLT o) then vatReset s o none 3 true else s).dev.onward = true := by
      split
      · next hs =>
        refine vatReset_owned h hd (fun e => ?_)
        subst e
        simp [h.role] at hs
      · exact ⟨h, hd⟩
    exact ih ho.1 ho.2

end Ready

/-! ### The choice of a slot, and the failure of a start -/

section Choice

variable {r s t u : State} {k c : Nat} {ks : List Nat}

/-- `t` is in LOADING as `r` is, its reset state the same. -/
structure StillLoading (r t : State) : Prop where
  dev : t.dev = .loading
  rst : t.rst = r.rst

/-- POR is in force. -/
def PowerGone (t : State) : Prop := t.dev = .off ∧ t.rst.phase = .por

theorem StillLoading.wr (h : StillLoading r s) {f : Field} : StillLoading r (s.wr f k) := ⟨h.dev, h.rst⟩

theorem StillLoading.event (h : StillLoading r s) {i j : Nat} : StillLoading r (s.event i j k) :=
  ⟨(State.event_dev ..).trans h.dev, (State.event_rst ..).trans h.rst⟩

theorem StillLoading.rejectSlot (h : StillLoading r s) : StillLoading r (rejectSlot s k c) := h.wr.event

theorem StillLoading.fuseOwner (h : StillLoading r s) {f : FuseResult} :
    StillLoading r (fuseOwner s k f).1 ∨ PowerGone (fuseOwner s k f).1 ∧ (fuseOwner s k f).2.isSome = true := by
  unfold Machine.fuseOwner
  split
  · exact .inl h
  · split
    · exact .inl h
    · extract_lets s1 s2
      have h2 : StillLoading r s2 := by
        unfold s2
        split <;> exact ⟨h.dev, h.rst⟩
      split
      · exact .inr ⟨⟨rfl, rfl⟩, rfl⟩
      · split <;> exact .inl h2

theorem StillLoading.judgeSlot (h : StillLoading r s) {q : FlashRead} {f : FuseResult} :
    StillLoading r (judgeSlot s k q f).1 ∨ PowerGone (judgeSlot s k q f).1 ∧ (judgeSlot s k q f).2 = false := by
  unfold Machine.judgeSlot
  split
  · exact .inl h.rejectSlot
  · have hf := h.fuseOwner (k := k) (f := f)
    split
    · next u c hu =>
      rw [hu] at hf
      rcases hf with hf | ⟨hf, -⟩
      · rw [if_neg (show u.dev ≠ .off from hf.dev ▸ nofun)]
        exact .inl hf.rejectSlot
      · rw [if_pos (show u.dev = .off from hf.1)]
        exact .inr ⟨hf, rfl⟩
    · next u hu =>
      rw [hu] at hf
      exact .inl (hf.resolve_right (fun h => nomatch h.2)).wr

theorem StillLoading.judgeSlots (h : StillLoading r s) {q : Nat → FlashRead} {f : Nat → FuseResult} :
    (StillLoading r (judgeSlots s q f ks).1 ∧ ∀ k, (judgeSlots s q f ks).2 = some k → k ∈ ks)
      ∨ PowerGone (judgeSlots s q f ks).1 ∧ (judgeSlots s q f ks).2 = none := by
  induction ks generalizing s with
  | nil => exact .inl ⟨h, fun _ e => nomatch e⟩
  | cons j ks ih =>
    have hj := h.judgeSlot (k := j) (q := q j) (f := f j)
    unfold Machine.judgeSlots
    split
    · next u hu =>
      rw [hu] at hj
      exact .inl ⟨hj.resolve_right (fun h => nomatch h.2), fun k e => Option.some.inj e ▸ .head _⟩
    · next u hu =>
      rw [hu] at hj
      rcases hj with hj | ⟨hj, -⟩
      · rw [if_neg (show u.dev ≠ .off from hj.dev ▸ nofun)]
        exact (ih hj).imp_left (fun h => ⟨h.1, fun k e => .tail _ (h.2 k e)⟩)
      · rw [if_pos (show u.dev = .off from hj.1)]
        exact .inr ⟨hj, rfl⟩

theorem checkOrder_le (q : Nat → FlashRead) (hk : k ∈ (checkOrder s q).1) : k < 2 := by
  have he : ∀ j ∈ eligibleSlots s q, j < 2 := by
    unfold eligibleSlots
    extract_lets l
    have hl : ∀ j ∈ l, j < 2 := fun j hj => by
      have := (List.mem_filter.mp hj).1
      simp at this
      omega
    clear_value l
    split
    · simp only [List.forall_mem_cons] at hl
      split <;> simp <;> omega
    · exact hl
  unfold checkOrder at hk
  split at hk
  · next a b hl =>
    have ha := he a (by simp [hl])
    have hb := he b (by simp [hl])
    split at hk <;> simp at hk <;> omega
  · exact he k hk

theorem StillLoading.chooseSlot (h : StillLoading r s) {q : Nat → FlashRead} {f : Nat → FuseResult} :
    (StillLoading r (chooseSlot s q f).1 ∧ ∀ k, (chooseSlot s q f).2 = some k → k < 2)
      ∨ PowerGone (chooseSlot s q f).1 ∧ (chooseSlot s q f).2 = none := by
  have hr : StillLoading r (rejectHeaders s q) := by
    unfold rejectHeaders
    generalize [0, 1] = l
    induction l generalizing s with
    | nil => exact h
    | cons j l ih =>
      refine ih ?_
      dsimp only
      split
      · exact h.rejectSlot
      · exact h
  unfold Machine.chooseSlot
  exact (hr.wr.judgeSlots).imp_left (fun h => ⟨h.1, fun k e => checkOrder_le q (h.2 k e)⟩)

theorem recordSys_cause (hc : c < 2 ^ 8) :
    (recordSys s c false).rd R.RST_CAUSE_CODE = c ∧ (recordSys s c false).rd R.RST_CAUSE_LEVEL = 2 := by
  have h : recordSys s c false =
      (((s.wr R.RST_CAUSE_CODE c).wr R.RST_CAUSE_LEVEL 2).wr R.RST_CAUSE_VAT 0).incSat R.RST_CAUSE_RESETS := rfl
  rw [h]
  simp (disch := decide) only [State.incSat, State.rd_wr_apart, State.rd_wr_self]
  exact ⟨Nat.mod_eq_of_lt hc, rfl⟩

theorem startFailure_failed (h : StillLoading r s) (hp : r.rst.phase ≠ .por) (hh : r.rst.phase ≠ .held) :
    StartFailed (startFailure s) := by
  have he : StillLoading r (s.event 0x01 0x0103 (getBits (s.regs.get R.START_STAT) 0 16)) := h.event
  unfold startFailure
  generalize s.event 0x01 0x0103 (getBits (s.regs.get R.START_STAT) 0 16) = u at he ⊢
  have hb : sysJustBegun u = false := by simp [sysJustBegun, he.dev]
  rw [sysReset, if_neg (by rw [he.rst]; exact hp), if_neg (by rw [he.rst]; exact hh), hb]
  exact ⟨rfl, rfl, (recordSys_cause (by decide)).1, (recordSys_cause (by decide)).2⟩

theorem startFailed_settle (h : StartFailed s) : StartFailed (settle s) := by
  obtain ⟨hd, hp, hc, hl⟩ := h
  rw [settle_off hd]
  exact ⟨hd, hp, hc, hl⟩

end Choice

/-! ### The end of LOADING as a whole -/

section LoadWheel

variable {n : Option Vat} {r s t : State} {k : Nat}

/-- What the load keeps shows the wheel as its registers did. -/
theorem LoadKept.shown {u : State} (hk : k < 2) (h : LoadKept n (ended (Machine.wheelRegisters u k ((wheelRecords u k).getD []))) t) :
    WheelShown u t k := by
  have hw := wheelRegisters_shown (u := u) hk
  have rd (f : Field) (hf : f.addr ∈ shownRegs) :
      t.rd f = (Machine.wheelRegisters u k ((wheelRecords u k).getD [])).rd f := h.rd hf
  constructor
  · rw [rd _ (by decide), hw.slot]
  · rw [State.is, rd _ (by decide)]; exact hw.enc
  · rw [rd _ (by decide), hw.fallback]
  · rw [rd _ (by decide), hw.id]
  · rw [rd _ (by decide), rd _ (by decide)]; exact hw.version
  · rw [rd _ (by decide), hw.crc]
  · rw [State.is, rd _ (by decide)]; exact hw.restrict

theorem Tidy.settle (h : Tidy r s) (hc : Calm s) : Tidy r (settle s) := by
  unfold Machine.settle
  refine Tidy.endLog (Tidy.unless h (fun h => ?_))
  have hn : (Machine.refreshDev (Machine.refreshDeg (Machine.ss1End (Machine.ordersOnPorts s)))).rst.sysAfterSto = none :=
    (refreshDev_cycle (refreshDeg_cycle (ss1End_cycle (ordersOnPorts_cycle (CycleOnly.refl s))))).calm hc
  unfold dueSysReset
  rw [hn]
  exact h.ordersOnPorts.ss1End.refreshDeg.refreshDev

/-- An accepted wheel is shown, and the release sequence is over. -/
theorem loaded_shown {u : State} (hk : k < 2) (hc : Calm u) :
    let t := settle (resetFlagged (enterReady (startUnits (startVats (applyPatch
      (applyWheel u k ((wheelRecords u k).getD [])))))))
    t.rst.phase = .done ∧ t.dev.onward = true ∧ WheelShown u t k := by
  intro t
  have hw : Calm (wheelRegisters u k ((wheelRecords u k).getD [])) := (congrArg ResetSt.sysAfterSto wheelRegisters_rst).trans hc
  obtain ⟨v, h1⟩ := startVats_owned (LoadKept.applyWheel (u := u) (k := k) (rs := (wheelRecords u k).getD [])).applyPatch hw
  obtain ⟨h2, d2⟩ := enterReady_owned (h1.next h1.same.startUnits)
  obtain ⟨h3, d3⟩ := resetFlagged_owned h2 d2
  have hc3 := h3.shown.calm hw
  have h4 := h3.shown.cycle (settle_cycle hc3) (Tidy.refl.settle hc3)
  exact ⟨h4.phase, (Tidy.refl.settle hc3).onward d3, h4.shown hk⟩

theorem wheelLoaded_answers {r0 r1 : FlashRead} {f0 f1 : FuseResult} (hd : s.dev = .loading) (hp : s.rst.phase ≠ .por)
    (hh : s.rst.phase ≠ .held) (hc : Calm s) :
    Answers (.wheelLoaded r0 r1 f0 f1) s (fun t =>
      let u := chooseSlot s (fun k => if k = 0 then r0 else r1) (fun k => if k = 0 then f0 else f1)
      if cryptoRuns s = false then StartFailed t else
      match u.2 with
      | none => if u.1.dev = .off then t.dev = .off ∧ t.rst.phase = .por else StartFailed t
      | some k => t.rst.phase = .done ∧ t.dev.onward = true ∧ WheelShown u.1 t k) := by
  have hl : StillLoading s s := ⟨hd, rfl⟩
  refine ⟨_, rfl, ?_⟩
  dsimp only
  rw [if_pos hd, loadWheel]
  generalize (fun k : Nat => if k = 0 then r0 else r1) = q
  generalize (fun k : Nat => if k = 0 then f0 else f1) = f
  cases hr : cryptoRuns s with
  | false => exact startFailed_settle (startFailure_failed hl hp hh)
  | true =>
    have hs := hl.chooseSlot (q := q) (f := f)
    simp only [Bool.not_true, Bool.false_eq_true, Bool.true_eq_false, if_false]
    cases hu : chooseSlot s q f with
    | mk u o =>
      rw [hu] at hs
      cases o with
      | none =>
        dsimp only
        rcases hs with ⟨hs, -⟩ | ⟨hs, -⟩
        · have hn : u.dev ≠ .off := hs.dev ▸ nofun
          rw [if_neg hn, if_neg hn]
          exact startFailed_settle (startFailure_failed hs hp hh)
        · rw [if_pos hs.1, if_pos hs.1, settle_off hs.1]
          exact hs
      | some k =>
        obtain ⟨hs, hk⟩ := hs.resolve_right (fun h => nomatch h.2)
        exact loaded_shown (hk k rfl) (by rw [Calm, hs.rst]; exact hc)

end LoadWheel

/-! ## The words of the REGIMG records -/

section RegImage

variable {r s t u : State} {a b : Nat} {w x : Word} {row : RegRow} {is : List Nat} {rs : List WheelRec} {regs : List (Nat × Word)}

theorem lt_of_inSpans {l : List (Nat × Nat)} {m : Nat} (hl : l.all (fun q => decide (q.2 ≤ m)) = true) (h : inSpans l a = true) :
    a < m := by
  obtain ⟨q, hq, hs⟩ := List.any_eq_true.mp h
  have hm := of_decide_eq_true (List.all_eq_true.mp hl q hq)
  simp only [Bool.and_eq_true, decide_eq_true_eq] at hs
  omega

/-- No REGIMG word stands at Vat B's window or above (R34). -/
theorem lt_of_wordOk {vat : Bool} (h : wordOk vat a w = true) : a < 0x60000000 := by
  obtain ⟨ha, -⟩ := Bool.and_eq_true_iff.mp h
  cases vat with
  | true =>
    simp only [if_true, Bool.and_eq_true, decide_eq_true_eq] at ha
    have := lt_of_inSpans (m := 0x10000000) (by decide) ha.2
    omega
  | false =>
    have := lt_of_inSpans (m := 0x60000000) (by decide) ha
    exact this

theorem noRepeat_iff {l : List Nat} : noRepeat l = true ↔ l.Nodup := by
  induction l with
  | nil => simp [noRepeat]
  | cons b l ih => simp [noRepeat, ih]

/-- What the target checks say of the words. -/
theorem targets_spec (ht : targetsOk rs = true) (hi : imageRegs rs = some regs) :
    (∀ q ∈ regs, q.1 < 0x60000000) ∧ (regs.map (fun q => q.1)).Nodup := by
  rw [targetsOk, hi] at ht
  obtain ⟨hw, hn⟩ := Bool.and_eq_true_iff.mp ht
  refine ⟨fun q hq => ?_, noRepeat_iff.mp hn⟩
  obtain ⟨l, hl, rfl⟩ := Option.map_eq_some_iff.mp hi
  obtain ⟨y, hy, hqy⟩ := List.mem_flatten.mp hq
  obtain ⟨rec, hrec, he⟩ := List.mem_map.mp (mem_of_allSome hl hy)
  have := List.all_eq_true.mp (List.all_eq_true.mp hw rec hrec) q (by rw [he]; exact hqy)
  exact lt_of_wordOk this

/-- A word written at `b` changes no other register. -/
theorem putWheelWord_other (h : a ≠ b) : (putWheelWord s b w).regs.get a = s.regs.get a := by
  unfold putWheelWord
  split
  · next hb => exact State.get_wr_other _ _ _ _ (show a ≠ R.NT_FREQ from hb ▸ h)
  · split
    · exact RegFile.get_set_other h _ _
    · rfl

/-- A word is written in every bit that a wheel sets. -/
theorem putWheelWord_self (hf : a ≠ R.NT_FREQ) (hr : findReg a = some (row, is)) :
    (putWheelWord s a w).regs.get a &&& BitVec.ofNat 32 (wheelMask row) = w &&& BitVec.ofNat 32 (wheelMask row) := by
  rw [putWheelWord, if_neg hf, hr]
  dsimp only
  rw [State.wrWord, RegFile.get_set_self]
  generalize BitVec.ofNat 32 (wheelMask row) = m
  ext i hi
  simp
  cases m[i] <;> simp

/-- What a step of NT, once it is taken, makes of the state. -/
def stepped (s : State) (tm : TimeSt) (d : Nat) : State :=
  (({ s with time := tm }.set1 R.NT_STAT_STEP_F).incSat R.NT_STAT_STEPS).event 0x0E 0x0E02 d

theorem applyStep_stepped : ∃ tm d, applyStep s = stepped s tm d := by
  unfold applyStep stepped
  extract_lets d nt tm s1
  exact ⟨_, _, Eq.refl (((s1.set1 R.NT_STAT_STEP_F).incSat R.NT_STAT_STEPS).event 0x0E 0x0E02 _)⟩

theorem stepGo_cases : stepGo s = s ∨ ∃ tm d, stepGo s = stepped s tm d := by
  unfold stepGo
  split
  · exact .inl rfl
  · exact .inr applyStep_stepped

theorem event_other {i j k : Nat} (hl : a ≠ R.LOG_STAT) : (s.event i j k).regs.get a = s.regs.get a := by
  unfold State.event State.countLost
  split
  · exact (State.get_wr_other _ R.LOG_STAT_LOST_F 1 a hl).trans (State.get_wr_other _ R.LOG_STAT_LOST _ a hl)
  · rfl

/-- A step of NT changes the registers NT_STAT and LOG_STAT alone. -/
theorem stepGo_other (hn : a ≠ R.NT_STAT) (hl : a ≠ R.LOG_STAT) : (stepGo s).regs.get a = s.regs.get a := by
  rcases stepGo_cases (s := s) with h | ⟨tm, d, h⟩
  · rw [h]
  · rw [h, stepped, event_other hl]
    exact (State.get_wr_other _ R.NT_STAT_STEPS _ a hn).trans (State.get_wr_other _ R.NT_STAT_STEP_F 1 a hn)

theorem putWheelWord_variant : (putWheelWord s a w).variant = s.variant := by
  unfold putWheelWord
  split
  · exact State.wr_variant _ _ _
  · split
    · exact State.wrWord_variant _ _ _
    · rfl

theorem stepGo_variant : (stepGo s).variant = s.variant := by
  rcases stepGo_cases (s := s) with h | ⟨tm, d, h⟩
  · rw [h]
  · rw [h, stepped, State.event_variant, State.incSat_variant, State.set1_eq_mark, State.mark_variant, State.wr_variant]

theorem applyRegWord_variant {q : Nat × Word} : (applyRegWord s q).variant = s.variant := by
  unfold applyRegWord
  extract_lets s1 s2
  have h2 : s2.variant = s.variant := by
    unfold s2
    split
    · exact stepGo_variant.trans putWheelWord_variant
    · exact putWheelWord_variant
  split
  · exact putWheelWord_variant.trans h2
  · exact h2

/-- A word of a wheel changes neither another register of the common domain or of Vat A's window, nor one of Vat B's but its own
mirror. -/
theorem applyRegWord_other {q : Nat × Word} (ha : a ≠ q.1) (hm : 0x50000000 ≤ q.1 → a ≠ q.1 + 0x10000000) (hn : a ≠ R.NT_STAT)
    (hl : a ≠ R.LOG_STAT) : (applyRegWord s q).regs.get a = s.regs.get a := by
  unfold applyRegWord
  extract_lets s1 s2
  have h2 : s2.regs.get a = s.regs.get a := by
    unfold s2
    split
    · exact (stepGo_other hn hl).trans (putWheelWord_other ha)
    · exact putWheelWord_other ha
  split
  · next hv =>
    simp only [Bool.and_eq_true, decide_eq_true_eq] at hv
    exact (putWheelWord_other (hm hv.1.1)).trans h2
  · exact h2

/-- Both vats have their registers at the same offsets. -/
theorem findReg_mirror (h0 : 0x50000000 ≤ a) (h1 : a < 0x60000000) : findReg (a + 0x10000000) = findReg a := by
  have hA : mapOffset a = a - 0x50000000 := by simp [mapOffset, h0, h1]
  have hB : mapOffset (a + 0x10000000) = a - 0x50000000 := by
    rw [mapOffset, if_neg (by omega), if_pos (by omega)]
    omega
  simp only [findReg, hA, hB]
  rw [if_neg (by omega), if_neg (by omega)]

/-- A register holds the word in the bits of `m`, and so does the other vat's. -/
def RegHolds (t : State) (a : Nat) (w m : Word) : Prop :=
  t.regs.get a &&& m = w &&& m ∧ (t.variant.dual = true → 0x50000000 ≤ a → a < 0x60000000 →
    t.regs.get (a + 0x10000000) &&& m = w &&& m)

theorem applyRegWord_self (hc : a ≠ R.NT_CTL) (hf : a ≠ R.NT_FREQ) (hr : findReg a = some (row, is)) :
    RegHolds (applyRegWord s (a, w)) a w (BitVec.ofNat 32 (wheelMask row)) := by
  have h1 := putWheelWord_self (s := s) (w := w) hf hr
  have hs : applyRegWord s (a, w) = if 0x50000000 ≤ a && a < 0x60000000 && (putWheelWord s a w).variant.dual then
      putWheelWord (putWheelWord s a w) (a + 0x10000000) w else putWheelWord s a w := by
    simp [applyRegWord, hc]
  rw [hs]
  split
  · next hv =>
    simp only [Bool.and_eq_true, decide_eq_true_eq] at hv
    refine ⟨by rw [putWheelWord_other (by omega)]; exact h1, fun _ h0 h6 => ?_⟩
    have hF : R.NT_FREQ < 0x50000000 := by decide
    exact putWheelWord_self (by omega) ((findReg_mirror h0 h6).trans hr)
  · next hv =>
    refine ⟨h1, fun hd h0 h6 => absurd ?_ hv⟩
    simp [h0, h6, hd]

/-- The words of other registers leave what a register holds. -/
theorem RegHolds.words {m : Word} {l : List (Nat × Word)} (h : RegHolds s a w m) (ha : a < 0x60000000)
    (hl : ∀ q ∈ l, q.1 ≠ a ∧ q.1 < 0x60000000) (hn : a ≠ R.NT_STAT) (hg : a ≠ R.LOG_STAT) :
    RegHolds (l.foldl applyRegWord s) a w m := by
  have hN : R.NT_STAT < 0x60000000 := by decide
  have hG : R.LOG_STAT < 0x60000000 := by decide
  induction l generalizing s with
  | nil => exact h
  | cons q l ih =>
    obtain ⟨hq, hq6⟩ := hl q (.head _)
    refine ih ⟨?_, fun hd h0 h6 => ?_⟩ (fun p hp => hl p (.tail _ hp))
    · rw [applyRegWord_other (Ne.symm hq) (by omega) hn hg]
      exact h.1
    · rw [applyRegWord_other (by omega) (by omega) (by omega) (by omega)]
      exact h.2 (applyRegWord_variant ▸ hd) h0 h6

theorem applyRegWords_variant {l : List (Nat × Word)} : (l.foldl applyRegWord s).variant = s.variant := by
  induction l generalizing s with
  | nil => rfl
  | cons q l ih => exact ih.trans applyRegWord_variant

/-- NT_STAT and LOG_STAT have no bit that a wheel sets. -/
theorem wheelMask_of_status (h : a = R.NT_STAT ∨ a = R.LOG_STAT) (hr : findReg a = some (row, is)) : wheelMask row = 0 := by
  have all : [R.NT_STAT, R.LOG_STAT].all (fun y => (findReg y).all (fun q => wheelMask q.1 == 0)) = true := by decide +kernel
  have hm := List.all_eq_true.mp all a (by simpa using h)
  rw [hr] at hm
  exact eq_of_beq hm

theorem regWords_hold (ht : targetsOk rs = true) (hi : imageRegs rs = some regs) (hm : (a, w) ∈ regs)
    (hr : findReg a = some (row, is)) (hc : a ≠ R.NT_CTL) (hf : a ≠ R.NT_FREQ) :
    RegHolds (regs.foldl applyRegWord s) a w (BitVec.ofNat 32 (wheelMask row)) := by
  obtain ⟨hw, hd⟩ := targets_spec ht hi
  by_cases hs : a = R.NT_STAT ∨ a = R.LOG_STAT
  case pos => simp [RegHolds, wheelMask_of_status hs hr]
  case neg =>
    obtain ⟨hn, hg⟩ := not_or.mp hs
    obtain ⟨l, l', rfl⟩ := List.append_of_mem hm
    rw [List.foldl_append, List.foldl_cons]
    refine (applyRegWord_self hc hf hr).words (hw _ hm) (fun q hq => ⟨fun e => ?_, hw q (by simp [hq])⟩) hn hg
    rw [List.map_append, List.map_cons] at hd
    exact (List.nodup_cons.mp (List.nodup_append.mp hd).2.1).1 (List.mem_map.mpr ⟨q, hq, e⟩)

/-- Settles O12: what is kept from the wheel's acceptance to the end of LOADING (`LoadKept`, `Owned`) shows the wheel, and each
REGIMG word is kept by the words after it, which are of other registers (`RegHolds.words`). -/
theorem wheelLoadedEnds : Obligations.WheelLoadedEnds :=
  ⟨fun _ _ _ _ _ hd hp hh hc => wheelLoaded_answers hd hp hh hc,
    fun _ _ _ _ _ _ s ht hi hm hr hc hf =>
      have h := regWords_hold (s := s) ht hi hm hr hc hf
      ⟨h.1, fun hd => h.2 ((congrArg Variant.dual applyRegWords_variant).trans hd)⟩⟩

end RegImage

end Sys2Proof.Machine

namespace Sys2Proof.Machine

open Sys2Proof

/-! # The sense path (O32 to O35)

`SenseOnly r s W` says what an operation of the sense path may change: the register fields that `W` names, LOG_STAT, the log,
the cycle's record of set flags, and the channels and groups of a vat. It is closed under the operations of the state, it
gives the frame of a claim (`SenseOnly.frame`), and a field that lies apart from `W` reads as before (`SenseOnly.unit`). -/

section SenseFields

variable {v w : Vat} {i j st a b lo wd lo' wd' : Nat} {f g : Field} {fs : List Field}

/-! ## Fields of one unit's registers -/

theorem apart_of_addr (h : f.addr ≠ g.addr) : f.apart g = true := by simp [Field.apart, h]

/-- Two fields of one unit's registers: of different registers, or without a common bit. -/
theorem unit_apart (h : (a != b || decide (lo + wd ≤ lo') || decide (lo' + wd' ≤ lo)) = true := by decide) :
    Field.apart ⟨v.base + a + i * st, lo, wd⟩ ⟨v.base + b + i * st, lo', wd'⟩ = true := by
  simp only [Bool.or_eq_true, bne_iff_ne, decide_eq_true_eq] at h
  simp only [Field.apart, Bool.or_eq_true, bne_iff_ne, decide_eq_true_eq]
  omega

/-- A place in the vat window other than that of vat `v`'s unit. -/
theorem place_ne (ha : a + i * st < 0x10000000) (hb : b + j * st' < 0x10000000) (h : v ≠ w ∨ a + i * st ≠ b + j * st') :
    v.base + a + i * st ≠ w.base + b + j * st' := by
  cases v <;> cases w <;> simp only [Vat.base, ne_eq, reduceCtorEq, not_false_eq_true, not_true_eq_false, true_or, false_or] at h ⊢ <;>
    omega

theorem unit_ge : 0x50000000 ≤ (⟨v.base + a + i * st, lo, wd⟩ : Field).addr := by
  have := base_ge v
  show _ ≤ v.base + a + i * st
  omega

/-- A vat's field lies apart from what an event writes. -/
theorem apart_log (h : 0x50000000 ≤ f.addr) : f.apart R.LOG_STAT_LOST = true ∧ f.apart R.LOG_STAT_LOST_F = true := by
  have hl : f.addr ≠ R.LOG_STAT := fun e => absurd (e ▸ h) (by decide)
  exact ⟨apart_of_addr hl, apart_of_addr hl⟩

theorem apart_log_of_cycleFree (h : cycleFree f = true) : f.apart R.LOG_STAT_LOST = true ∧ f.apart R.LOG_STAT_LOST_F = true :=
  ⟨List.all_eq_true.mp h _ (mem_cycleCommon (by decide)), List.all_eq_true.mp h _ (mem_cycleCommon (by decide))⟩

/-- The cycle's consequences write no register of the sense path. -/
theorem cycleFields_outside : cycleFields.all (fun g => decide (g.addr < 0x50000000)
    || decide (g.addr % 0x10000000 < 0x04100000) || decide (0x04102000 ≤ g.addr % 0x10000000)) = true := by decide +kernel

theorem sense_free (h0 : v.base + 0x04100000 ≤ f.addr) (h1 : f.addr < v.base + 0x04102000) : cycleFree f = true := by
  refine List.all_eq_true.mpr fun g hg => apart_of_addr fun e => ?_
  have ho := List.all_eq_true.mp cycleFields_outside g hg
  simp only [Bool.or_eq_true, decide_eq_true_eq, ← e] at ho
  cases v <;> simp only [Vat.base] at h0 h1 <;> omega

theorem unit_free (h : a + i * st < 0x04102000) (h0 : 0x04100000 ≤ a := by decide) :
    cycleFree ⟨v.base + a + i * st, lo, wd⟩ = true :=
  sense_free (v := v) (f := ⟨v.base + a + i * st, lo, wd⟩) (show _ ≤ v.base + a + i * st by omega)
    (show v.base + a + i * st < _ by omega)

/-- The field is written inside what `W` names. -/
structure Covered (g : Field) (W : Field → Prop) : Prop where
  fits : g.fits = true
  apart : ∀ f : Field, (∀ k, W k → f.apart k = true) → f.apart g = true

theorem Covered.of {W : Field → Prop} (h : W g) (hg : g.fits = true) : Covered g W := ⟨hg, fun _ hf => hf g h⟩

/-- A field of a register that `W` names whole. -/
theorem Covered.part {W : Field → Prop} (h : W (whole g.addr)) (hg : g.fits = true) : Covered g W :=
  ⟨hg, fun f hf => apart_of_part (hf _ h) rfl (Nat.zero_le _) (by simpa [Field.fits, whole] using hg)⟩

theorem apart_nil : ∀ k ∈ ([] : List Field), f.apart k = true := fun _ h => nomatch h

theorem apart_cons (h : f.apart g = true) (hs : ∀ k ∈ fs, f.apart k = true) : ∀ k ∈ g :: fs, f.apart k = true :=
  List.forall_mem_cons.mpr ⟨h, hs⟩

end SenseFields

/-! ## What the sense path may change -/

/-- A vat without its channels and groups. -/
def senseVat (x : VatSt) : VatSt := { x with chans := [], groups := [] }

/-- A state without the registers and the parts that the sense path may change. -/
def senseRest (s : State) : State :=
  { s with regs := [], log := {}, bus := {}, vatA := senseVat s.vatA, vatB := senseVat s.vatB }

/-- `s` differs from `r` at most in the fields that `W` names, in what an event writes, and in channels and groups. -/
structure SenseOnly (r s : State) (W : Field → Prop) : Prop where
  rd : ∀ f, f.apart R.LOG_STAT_LOST = true → f.apart R.LOG_STAT_LOST_F = true → (∀ g, W g → f.apart g = true) → s.rd f = r.rd f
  rest : senseRest s = senseRest r

section SenseOps

variable {r s t u : State} {W : Field → Prop} {f g : Field} {v : Vat} {n x : Nat} {fs : List Field}

theorem SenseOnly.refl : SenseOnly s s W := ⟨fun _ _ _ _ => rfl, rfl⟩

theorem SenseOnly.trans (h : SenseOnly r s W) (h' : SenseOnly s t W) : SenseOnly r t W :=
  ⟨fun f ha hb hf => (h'.rd f ha hb hf).trans (h.rd f ha hb hf), h'.rest.trans h.rest⟩

/-- A wider `W`. -/
theorem SenseOnly.mono {W' : Field → Prop} (h : SenseOnly r s W) (hw : ∀ g, W g → Covered g W') : SenseOnly r s W' :=
  ⟨fun f ha hb hf => h.rd f ha hb fun g hg => (hw g hg).apart f hf, h.rest⟩

theorem SenseOnly.step (h : SenseOnly r s W) (hr : t.regs = s.regs) (hc : senseRest t = senseRest s) : SenseOnly r t W :=
  ⟨fun f ha hb hf => (congrArg (fun x => getBits (RegFile.get x f.addr) f.lo f.width) hr).trans (h.rd f ha hb hf), hc.trans h.rest⟩

theorem SenseOnly.wr (h : SenseOnly r s W) (hg : Covered g W) : SenseOnly r (s.wr g x) W :=
  ⟨fun f ha hb hf => (State.rd_wr_apart _ _ _ _ hg.fits (hg.apart f hf)).trans (h.rd f ha hb hf), h.rest⟩

theorem SenseOnly.mark (h : SenseOnly r s W) {a i : Nat} : SenseOnly r (s.mark a i) W := h.step rfl rfl

theorem SenseOnly.set1 (h : SenseOnly r s W) (hg : Covered g W) : SenseOnly r (s.set1 g) W := (h.wr hg).mark

theorem SenseOnly.clr (h : SenseOnly r s W) (hg : Covered g W) : SenseOnly r (s.clr g) W := h.wr hg

theorem SenseOnly.incSat (h : SenseOnly r s W) (hg : Covered g W) : SenseOnly r (s.incSat g) W := h.wr hg

theorem SenseOnly.incWrap (h : SenseOnly r s W) (hg : Covered g W) : SenseOnly r (s.incWrap g) W := h.wr hg

theorem senseRest_wr : senseRest (s.wr f x) = senseRest s := rfl

theorem senseRest_mark {a i : Nat} : senseRest (s.mark a i) = senseRest s := rfl

theorem senseRest_event {source code data : Nat} : senseRest (s.event source code data) = senseRest s := by
  unfold State.event
  cases s.log.full with
  | false => rfl
  | true => exact senseRest_mark.trans (senseRest_wr.trans senseRest_wr)

theorem SenseOnly.event (h : SenseOnly r s W) {source code data : Nat} : SenseOnly r (s.event source code data) W :=
  ⟨fun f ha hb hf => (State.rd_event _ _ _ _ f ha hb).trans (h.rd f ha hb hf), senseRest_event.trans h.rest⟩

theorem SenseOnly.ite {q : Prop} {_ : Decidable q} (hs : SenseOnly r s W) (ht : SenseOnly r t W) :
    SenseOnly r (if q then s else t) W := by
  split <;> assumption

theorem SenseOnly.when {q : Prop} {_ : Decidable q} (h : SenseOnly r s W) (ht : q → SenseOnly r s W → SenseOnly r t W) :
    SenseOnly r (if q then t else s) W := by
  split
  · exact ht ‹_› h
  · exact h

theorem SenseOnly.unless {q : Prop} {_ : Decidable q} (h : SenseOnly r s W) (ht : ¬q → SenseOnly r s W → SenseOnly r t W) :
    SenseOnly r (if q then s else t) W := by
  split
  · exact h
  · exact ht ‹_› h

theorem SenseOnly.vatEvent (h : SenseOnly r s W) {c code data : Nat} : SenseOnly r (s.vatEvent v c code data) W :=
  h.unless fun _ h => h.event

theorem SenseOnly.vatFlagEdge (h : SenseOnly r s W) {c : Nat} (hg : Covered g W) : SenseOnly r (s.vatFlagEdge v c g) W :=
  (h.set1 hg).vatEvent

theorem SenseOnly.vatFlag (h : SenseOnly r s W) {c : Nat} (hg : Covered g W) : SenseOnly r (s.vatFlag v c g) W :=
  h.unless fun _ h => SenseOnly.ite h.mark (h.set1 hg).event

theorem SenseOnly.modVat (h : SenseOnly r s W) {k : VatSt → VatSt} (hk : senseVat (k (s.vat v)) = senseVat (s.vat v)) :
    SenseOnly r (s.modVat v k) W := by
  refine h.step (State.modVat_regs s v k) ?_
  cases v <;> simp only [State.vat] at hk <;> simp [senseRest, State.modVat, State.setVat, State.vat, hk]

theorem SenseOnly.modChan (h : SenseOnly r s W) {k : ChanSt → ChanSt} : SenseOnly r (modChan s v n k) W := h.modVat rfl

theorem SenseOnly.modGrp (h : SenseOnly r s W) {k : GrpSt → GrpSt} : SenseOnly r (modGrp s v n k) W := h.modVat rfl

theorem SenseOnly.foldl {α : Type} {k : State → α → State} {l : List α} (h : SenseOnly r s W)
    (hk : ∀ t x, x ∈ l → SenseOnly r t W → SenseOnly r (k t x) W) : SenseOnly r (l.foldl k s) W := by
  induction l generalizing s with
  | nil => exact h
  | cons a l ih => exact ih (hk s a (.head _) h) fun t x hx => hk t x (.tail _ hx)

theorem SenseOnly.forN {k : State → Nat → State} (h : SenseOnly r s W)
    (hk : ∀ t i, i < n → SenseOnly r t W → SenseOnly r (k t i) W) : SenseOnly r (forN n s k) W :=
  h.foldl fun t i hi => hk t i (List.mem_range.mp hi)

theorem SenseOnly.forVats {k : State → Vat → State} (h : SenseOnly r s W)
    (hk : ∀ t v, SenseOnly r t W → SenseOnly r (k t v) W) : SenseOnly r (forVats s k) W := h.foldl fun t v _ => hk t v

/-! ### What follows from it -/

/-- A part of the state that the sense path does not touch. -/
theorem SenseOnly.part {α : Type} (h : SenseOnly s u W) (k : State → α) (hk : ∀ t, k (senseRest t) = k t := by exact fun _ => rfl) :
    k u = k s :=
  (hk u).symm.trans ((congrArg k h.rest).trans (hk s))

theorem SenseOnly.calm (h : SenseOnly s u W) (hc : Calm s) : Calm u := (h.part (·.rst.sysAfterSto)).trans hc

theorem SenseOnly.senseVat (h : SenseOnly s u W) : Machine.senseVat (u.vat v) = Machine.senseVat (s.vat v) := by
  cases v
  · exact h.part (fun x => Machine.senseVat x.vatA)
  · exact h.part (fun x => Machine.senseVat x.vatB)

theorem SenseOnly.live (h : SenseOnly s u W) : u.vatLive v = s.vatLive v := by
  have hv := congrArg VatSt.live (h.senseVat (v := v))
  simp only [State.vatLive, State.hasVat, h.part State.variant]
  exact congrArg (_ && ·) hv

/-- A field of a vat's unit that lies apart from `W`. -/
theorem SenseOnly.unit (h : SenseOnly r s W) {a i st lo wd : Nat}
    (ha : ∀ g, W g → Field.apart ⟨v.base + a + i * st, lo, wd⟩ g = true) :
    s.rd ⟨v.base + a + i * st, lo, wd⟩ = r.rd ⟨v.base + a + i * st, lo, wd⟩ :=
  have hl := apart_log (f := ⟨v.base + a + i * st, lo, wd⟩) unit_ge
  h.rd _ hl.1 hl.2 ha

/-- The frame of a claim, after the cycle's consequences. -/
theorem SenseOnly.frame (h : SenseOnly s u (· ∈ fs)) (hc : Calm s) : Frame s (settle u) fs where
  regs f hf ha := (settle_rd (h.calm hc) f hf).trans (h.rd f (apart_log_of_cycleFree hf).1 (apart_log_of_cycleFree hf).2 ha)
  mem := (settle_mem (h.calm hc)).trans (h.part State.mem)
  nv := (settle_nv (h.calm hc)).trans (h.part State.nv)
  trust := (settle_trust (h.calm hc)).trans (h.part State.trust)
  rind := (settle_rind (h.calm hc)).trans (h.part State.rind)
  time := (settle_time (h.calm hc)).trans (h.part State.time)

/-- A field of the sense path after the cycle's consequences. -/
theorem SenseOnly.settled (h : SenseOnly s u W) (hc : Calm s) {a i st lo wd : Nat} (hi : a + i * st < 0x04102000)
    (ha : 0x04100000 ≤ a := by decide) :
    (settle u).rd ⟨v.base + a + i * st, lo, wd⟩ = u.rd ⟨v.base + a + i * st, lo, wd⟩ :=
  settle_rd (h.calm hc) _ (unit_free hi ha)

end SenseOps

end Sys2Proof.Machine

namespace Sys2Proof.Machine

open Sys2Proof

/-! ## What an operation leaves of channels and groups -/

section ChannelsGroups

variable {s t : State} {f : Field} {v w : Vat} {n m g x : Nat}

@[simp] theorem vat_wr : (s.wr f x).vat v = s.vat v := by cases v <;> rfl

@[simp] theorem vat_mark {a i : Nat} : (s.mark a i).vat v = s.vat v := by cases v <;> rfl

@[simp] theorem vat_event {i j k : Nat} : (s.event i j k).vat v = s.vat v := by
  cases v
  · exact State.event_vatA s i j k
  · exact State.event_vatB s i j k

@[simp] theorem vat_vatEvent {c i j : Nat} : (s.vatEvent w c i j).vat v = s.vat v := by
  unfold State.vatEvent
  split <;> simp

theorem getGrp_of_vat (h : (t.vat v).groups = (s.vat v).groups) : getGrp t v g = getGrp s v g := by rw [getGrp, getGrp, h]

theorem getChan_of_vat (h : (t.vat v).chans = (s.vat v).chans) : getChan t v n = getChan s v n := by rw [getChan, getChan, h]

@[simp] theorem getGrp_wr : getGrp (s.wr f x) v g = getGrp s v g := getGrp_of_vat (by rw [vat_wr])

@[simp] theorem getChan_wr : getChan (s.wr f x) v n = getChan s v n := getChan_of_vat (by rw [vat_wr])

@[simp] theorem getChan_vatEvent {c i j : Nat} : getChan (s.vatEvent w c i j) v n = getChan s v n :=
  getChan_of_vat (by rw [vat_vatEvent])

theorem nth_modNth_self {α : Type} {l : List α} {i : Nat} {d : α} {k : α → α} (h : i < l.length) :
    nth (modNth l i k) i d = k (nth l i d) := by
  simp [nth, modNth, h]

theorem nth_modNth_other {α : Type} {l : List α} {i j : Nat} {d : α} {k : α → α} (h : i ≠ j) :
    nth (modNth l i k) j d = nth l j d := by
  simp [nth, modNth, h]

theorem getGrp_modGrp_self {k : GrpSt → GrpSt} (h : g < (s.vat v).groups.length) :
    getGrp (modGrp s v g k) v g = k (getGrp s v g) := by
  unfold getGrp modGrp
  rw [State.vat_modVat_self]
  exact nth_modNth_self h

/-- A group that is not as at reset has its place in the list. -/
theorem group_placed (h : getGrp s v g ≠ {}) : g < (s.vat v).groups.length := by
  by_contra hn
  exact h (List.getD_eq_default _ _ (not_lt.mp hn))

@[simp] theorem rd_modChan {k : ChanSt → ChanSt} : (modChan s w n k).rd f = s.rd f := State.rd_modVat ..

@[simp] theorem rd_modGrp {k : GrpSt → GrpSt} : (modGrp s w n k).rd f = s.rd f := State.rd_modVat ..

@[simp] theorem rd_vatEvent (h : 0x50000000 ≤ f.addr) {c i j : Nat} : (s.vatEvent w c i j).rd f = s.rd f := by
  unfold State.vatEvent
  split
  · rfl
  · exact State.rd_event _ _ _ _ f (apart_log h).1 (apart_log h).2

end ChannelsGroups

/-! ## VALID, its causes and their flags -/

section Validity

variable {r s t : State} {W : Field → Prop} {v : Vat} {n : Nat} {g h : Field}

theorem is_iff {f : Field} : s.is f = true ↔ s.rd f ≠ 0 := bne_iff_ne

theorem is_of_rd {f : Field} (h : t.rd f = s.rd f) : t.is f = s.is f := congrArg (· != 0) h

theorem is_one {f : Field} (h : s.rd f = 1) : s.is f = true := is_iff.mpr (by omega)

theorem is_zero {f : Field} (h : s.rd f = 0) : s.is f = false := by simp [State.is, h]

theorem SenseOnly.refreshValid (h : SenseOnly r s W) (hv : Covered (R.SLICE_DATA_VALID v n) W) :
    SenseOnly r (refreshValid s v n) W := h.wr hv

/-- A cause takes VALID away (SLICEn_DATA). -/
theorem refreshValid_of_cause (h : s.is (R.SLICE_DATA_SUPP v n) = true ∨ s.is (R.SLICE_DATA_STALE v n) = true
    ∨ s.is (R.SLICE_DATA_FROZEN v n) = true ∨ s.is (R.SLICE_DATA_CLKLOSS v n) = true) :
    (refreshValid s v n).rd (R.SLICE_DATA_VALID v n) = 0 := by
  refine (State.rd_wr_self _ _ _ rfl).trans ?_
  rcases h with h | h | h | h <;> simp [h, boolNat]

/-- The causes that take VALID away, with the flags that they set (R69). -/
def causes (v : Vat) (n : Nat) : List (Field × Field) :=
  [(R.SLICE_DATA_STALE v n, R.SLICE_STAT_STALE_F v n), (R.SLICE_DATA_FROZEN v n, R.SLICE_STAT_FROZEN_F v n),
   (R.SLICE_DATA_CLKLOSS v n, R.SLICE_STAT_CLKLOSS_F v n)]

/-- A cause of `causes` arises: it and its flag set, and VALID is gone. -/
structure CauseShown (r s : State) (v : Vat) (n : Nat) (g h : Field) : Prop where
  cause : s.rd g = 1
  flag : s.rd h = 1
  invalid : s.rd (R.SLICE_DATA_VALID v n) = 0
  only : SenseOnly r s (· ∈ [g, R.SLICE_DATA_VALID v n, h])

theorem rd_set1 {f : Field} (hf : f.fits = true) (hw : f.width = 1) : (s.set1 f).rd f = 1 := by
  refine (State.rd_wr_self _ _ _ hf).trans ?_
  simp [hw]

theorem rd_set1_apart {f k : Field} (hf : f.fits = true) (hk : k.apart f = true) : (s.set1 f).rd k = s.rd k :=
  (State.mark_rd _ _ _ _).trans (State.rd_wr_apart _ _ _ _ hf hk)

theorem rd_vatFlagEdge {f : Field} {u : Nat} (hf : f.fits = true) (hw : f.width = 1) (ha : 0x50000000 ≤ f.addr) :
    (s.vatFlagEdge v u f).rd f = 1 := (rd_vatEvent ha).trans (rd_set1 hf hw)

theorem rd_vatFlagEdge_apart {f k : Field} {u : Nat} (hf : f.fits = true) (hk : k.apart f = true) (ha : 0x50000000 ≤ k.addr) :
    (s.vatFlagEdge v u f).rd k = s.rd k := (rd_vatEvent ha).trans (rd_set1_apart hf hk)

theorem showCause (hg : (g, h) ∈ causes v n) {k : ChanSt → ChanSt} :
    CauseShown s (modChan (refreshValid ((s.set1 g).vatFlagEdge v uSENSE h) v n) v n k) v n g h := by
  have key : (g.fits = true ∧ g.width = 1 ∧ 0x50000000 ≤ g.addr) ∧ (h.fits = true ∧ h.width = 1 ∧ 0x50000000 ≤ h.addr)
      ∧ (g.apart h = true ∧ g.apart (R.SLICE_DATA_VALID v n) = true ∧ h.apart (R.SLICE_DATA_VALID v n) = true)
      ∧ (R.SLICE_DATA_STALE v n = g ∨ R.SLICE_DATA_FROZEN v n = g ∨ R.SLICE_DATA_CLKLOSS v n = g) := by
    simp only [causes, List.mem_cons, Prod.mk.injEq, List.not_mem_nil, or_false] at hg
    rcases hg with ⟨rfl, rfl⟩ | ⟨rfl, rfl⟩ | ⟨rfl, rfl⟩ <;>
      exact ⟨⟨rfl, rfl, unit_ge⟩, ⟨rfl, rfl, unit_ge⟩, ⟨unit_apart, unit_apart, unit_apart⟩, by simp⟩
  obtain ⟨⟨fg, wg, ag⟩, ⟨fh, wh, ah⟩, ⟨gh, gv, hv⟩, names⟩ := key
  have cause : ((s.set1 g).vatFlagEdge v uSENSE h).rd g = 1 := (rd_vatFlagEdge_apart fh gh ag).trans (rd_set1 fg wg)
  refine ⟨?_, ?_, ?_, ?_⟩
  · exact rd_modChan.trans ((State.rd_wr_apart _ _ _ _ rfl gv).trans cause)
  · exact rd_modChan.trans ((State.rd_wr_apart _ _ _ _ rfl hv).trans (rd_vatFlagEdge fh wh ah))
  · refine rd_modChan.trans (refreshValid_of_cause (.inr ?_))
    have hc := is_one cause
    rcases names with e | e | e <;> simp only [e, hc, true_or, or_true]
  · exact (((SenseOnly.refl.set1 (.of (by simp) fg)).vatFlagEdge (.of (by simp) fh)).refreshValid (.of (by simp) rfl)).modChan

/-- A cause that has arisen stands after the cycle's consequences. -/
theorem CauseShown.settle {u : State} (hs : CauseShown s u v n g h) (hg : (g, h) ∈ causes v n) (hn : n < 64) (hc : Calm s) :
    (settle u).is g = true ∧ (settle u).is (R.SLICE_DATA_VALID v n) = false ∧ (settle u).is h = true
      ∧ Frame s (settle u) [g, R.SLICE_DATA_VALID v n, h] := by
  have free : cycleFree g = true ∧ cycleFree h = true := by
    simp only [causes, List.mem_cons, Prod.mk.injEq, List.not_mem_nil, or_false] at hg
    rcases hg with ⟨rfl, rfl⟩ | ⟨rfl, rfl⟩ | ⟨rfl, rfl⟩ <;> exact ⟨unit_free (by omega), unit_free (by omega)⟩
  have hu := hs.only.calm hc
  exact ⟨is_one ((settle_rd hu _ free.1).trans hs.cause), is_zero ((settle_rd hu _ (unit_free (by omega))).trans hs.invalid),
    is_one ((settle_rd hu _ free.2).trans hs.flag), hs.only.frame hc⟩

/-- What a channel that begins to settle shows (R61, R66). -/
structure Settling (r s : State) (v : Vat) (n : Nat) : Prop where
  suppressed : s.rd (R.SLICE_DATA_SUPP v n) = 1
  invalid : s.rd (R.SLICE_DATA_VALID v n) = 0
  left : s.rd (R.SLICE_STAT_SETTLE_LEFT v n) = settleCount r v n

theorem settleCount_congr (h : t.rd (R.SLICE_CFG_PRESET v n) = s.rd (R.SLICE_CFG_PRESET v n)) :
    settleCount t v n = settleCount s v n := by rw [settleCount, settleCount, h]

theorem settleCount_lt : settleCount s v n < 2 ^ 8 := by
  unfold settleCount
  split <;> decide

theorem beginSettle_settling : Settling s (beginSettle s v n) v n := by
  have supp : ((s.wr (R.SLICE_STAT_SETTLE_LEFT v n) (settleCount s v n)).set1 (R.SLICE_DATA_SUPP v n)).rd
      (R.SLICE_DATA_SUPP v n) = 1 := rd_set1 rfl rfl
  refine ⟨(State.rd_wr_apart _ _ _ _ rfl unit_apart).trans supp, refreshValid_of_cause (.inl (is_one supp)), ?_⟩
  refine (State.rd_wr_apart _ _ _ _ rfl unit_apart).trans ((rd_set1_apart rfl unit_apart).trans ?_)
  exact (State.rd_wr_self _ _ _ rfl).trans (Nat.mod_eq_of_lt settleCount_lt)

theorem SenseOnly.beginSettle (h : SenseOnly r s W) (hl : Covered (R.SLICE_STAT_SETTLE_LEFT v n) W)
    (hs : Covered (R.SLICE_DATA_SUPP v n) W) (hv : Covered (R.SLICE_DATA_VALID v n) W) : SenseOnly r (beginSettle s v n) W :=
  ((h.wr hl).set1 hs).refreshValid hv

end Validity

/-! ## Freshness and freeze (R65-R67, R69) -/

section Monitors

variable {s : State} {v : Vat} {n : Fin 64}

theorem frozenSet_answers (hc : Calm s) (hl : s.vatLive v = true) (hp : s.is (R.SLICE_CFG_PRESET v n) = true)
    (he : s.is (R.SLICE_MON_FZ_EN v n) = true) (hn : s.rd (R.SLICE_MON_FZ_COUNT v n) * 16 ≤ (getChan s v n).fzCnt)
    (hr : (getChan s v n).fzRef.isSome = true) (hq : (getChan s v n).qual = true) (hf : s.is (R.SLICE_DATA_FROZEN v n) = false)
    (hk : s.is (R.SLICE_DATA_CLKLOSS v n) = false) :
    Answers (.frozenSet v n) s (fun t => t.is (R.SLICE_DATA_FROZEN v n) = true ∧ t.is (R.SLICE_DATA_VALID v n) = false
      ∧ t.is (R.SLICE_STAT_FROZEN_F v n) = true
      ∧ Frame s t [R.SLICE_DATA_FROZEN v n, R.SLICE_DATA_VALID v n, R.SLICE_STAT_FROZEN_F v n]) := by
  have hm : (R.SLICE_DATA_FROZEN v n, R.SLICE_STAT_FROZEN_F v n) ∈ causes v n := by simp [causes]
  refine ⟨_, rfl, ?_⟩
  rw [if_pos (by rw [hl, hp]; rfl), tryFreeze, if_pos (by simp [he, hn, hr, hq, hf, hk])]
  exact (showCause hm).settle hm n.isLt hc

theorem freshnessStale_answers (hc : Calm s) (hl : s.vatLive v = true) (hp : s.is (R.SLICE_CFG_PRESET v n) = true)
    (hm : s.is (R.SLICE_MON_FR_LIMIT v n) = true) (hk : s.is (R.SLICE_DATA_CLKLOSS v n) = false)
    (hs : s.is (R.SLICE_DATA_STALE v n) = false) :
    Answers (.freshnessStale v n) s (fun t => t.is (R.SLICE_DATA_STALE v n) = true ∧ t.is (R.SLICE_DATA_VALID v n) = false
      ∧ t.is (R.SLICE_STAT_STALE_F v n) = true
      ∧ Frame s t [R.SLICE_DATA_STALE v n, R.SLICE_DATA_VALID v n, R.SLICE_STAT_STALE_F v n]) := by
  have hg : (R.SLICE_DATA_STALE v n, R.SLICE_STAT_STALE_F v n) ∈ causes v n := by simp [causes]
  refine ⟨_, rfl, ?_⟩
  rw [if_pos hl, goStale, if_pos (by simp [hp, hm, hk, hs])]
  exact (showCause hg).settle hg n.isLt hc

theorem staleClear_answers (hc : Calm s) (hl : s.vatLive v = true) (hs : s.is (R.SLICE_DATA_STALE v n) = true)
    (hk : s.is (R.SLICE_DATA_CLKLOSS v n) = false) :
    Answers (.staleClear v n) s (fun t => t.is (R.SLICE_DATA_STALE v n) = false ∧ t.is (R.SLICE_DATA_SUPP v n) = true
      ∧ t.is (R.SLICE_DATA_VALID v n) = false ∧ t.rd (R.SLICE_STAT_SETTLE_LEFT v n) = settleCount s v n
      ∧ Frame s t [R.SLICE_DATA_STALE v n, R.SLICE_DATA_SUPP v n, R.SLICE_DATA_VALID v n, R.SLICE_STAT_SETTLE_LEFT v n]) := by
  have hn := n.isLt
  refine ⟨_, rfl, ?_⟩
  rw [if_pos hl, endStale, if_pos (by simp [hs, hk])]
  have settling := beginSettle_settling (s := s.clr (R.SLICE_DATA_STALE v n)) (v := v) (n := n)
  have only : SenseOnly s (beginSettle (s.clr (R.SLICE_DATA_STALE v n)) v n) (· ∈ [R.SLICE_DATA_STALE v n,
      R.SLICE_DATA_SUPP v n, R.SLICE_DATA_VALID v n, R.SLICE_STAT_SETTLE_LEFT v n]) :=
    (SenseOnly.refl.clr (.of (by simp) rfl)).beginSettle (.of (by simp) rfl) (.of (by simp) rfl) (.of (by simp) rfl)
  have stale : (beginSettle (s.clr (R.SLICE_DATA_STALE v n)) v n).rd (R.SLICE_DATA_STALE v n) = 0 :=
    (State.rd_wr_apart _ _ _ _ rfl unit_apart).trans ((rd_set1_apart rfl unit_apart).trans
      ((State.rd_wr_apart _ _ _ _ rfl unit_apart).trans (State.rd_wr_self _ _ _ rfl)))
  refine ⟨is_zero ((only.settled hc (by omega)).trans stale), is_one ((only.settled hc (by omega)).trans settling.suppressed),
    is_zero ((only.settled hc (by omega)).trans settling.invalid), ((only.settled hc (by omega)).trans settling.left).trans ?_,
    only.frame hc⟩
  exact settleCount_congr (State.rd_wr_apart _ _ _ _ rfl unit_apart)

/-- Settles O33: FROZEN and STALE are causes that take VALID away (`showCause`), and the end of STALE begins the settling
again (`beginSettle_settling`). -/
theorem monitorsAct : Obligations.MonitorsAct :=
  ⟨fun _ _ _ hc hl hp he hn hr hq hf hk => frozenSet_answers hc hl hp he hn hr hq hf hk,
    fun _ _ _ hc hl hp hm hk hs => freshnessStale_answers hc hl hp hm hk hs,
    fun _ _ _ hc hl hs hk => staleClear_answers hc hl hs hk⟩

end Monitors

end Sys2Proof.Machine

namespace Sys2Proof.Machine

open Sys2Proof

/-! ## One step of a loop

What one round of a loop brings about stands after the loop, where the other rounds leave it (`after`), and where the rounds
before it leave what it needs (`before`). -/

section Loops

variable {α : Type} {s : State} {P Q : State → Prop}

theorem foldl_reach {l : List α} {a : α} {k : State → α → State} (ha : a ∈ l) (hn : l.Nodup) (h0 : P s)
    (before : ∀ t x, x ∈ l → x ≠ a → P t → P (k t x)) (self : ∀ t, P t → Q (k t a))
    (after : ∀ t x, x ∈ l → x ≠ a → Q t → Q (k t x)) : Q (l.foldl k s) := by
  obtain ⟨l₁, l₂, rfl⟩ := List.append_of_mem ha
  obtain ⟨-, h₂, h₁⟩ := List.nodup_append.mp hn
  have keep : ∀ {R : State → Prop} (m : List α), (∀ t x, x ∈ m → R t → R (k t x)) → ∀ t, R t → R (m.foldl k t) := by
    intro R m hm
    induction m with
    | nil => exact fun _ => id
    | cons x m ih => exact fun t ht => ih (fun t y hy => hm t y (.tail _ hy)) _ (hm t x (.head _) ht)
  rw [List.foldl_append, List.foldl_cons]
  refine keep l₂ (fun t x hx => after t x (by simp [hx]) ?_) _ (self _ (keep l₁ (fun t x hx => before t x (by simp [hx]) ?_) _ h0))
  · rintro rfl
    exact (List.nodup_cons.mp h₂).1 hx
  · exact h₁ x hx a (.head _)

theorem forN_reach {n i : Nat} {k : State → Nat → State} (hi : i < n) (h0 : P s)
    (before : ∀ t j, j < n → j ≠ i → P t → P (k t j)) (self : ∀ t, P t → Q (k t i))
    (after : ∀ t j, j < n → j ≠ i → Q t → Q (k t j)) : Q (forN n s k) :=
  foldl_reach (List.mem_range.mpr hi) List.nodup_range h0 (fun t j hj => before t j (List.mem_range.mp hj)) self
    (fun t j hj => after t j (List.mem_range.mp hj))

theorem forVats_reach {v : Vat} {k : State → Vat → State} (hv : s.vatLive v = true) (h0 : P s)
    (before : ∀ t w, w ≠ v → P t → P (k t w)) (self : ∀ t, P t → Q (k t v)) (after : ∀ t w, w ≠ v → Q t → Q (k t w)) :
    Q (forVats s k) := by
  have hm : v ∈ s.vats := by
    simp only [State.vatLive, State.hasVat, Bool.and_eq_true, Bool.or_eq_true, beq_iff_eq] at hv
    unfold State.vats
    rcases hv.1 with rfl | hd
    · split <;> simp
    · rw [if_pos hd]
      cases v <;> simp
  have hn : s.vats.Nodup := by
    unfold State.vats
    split <;> decide
  exact foldl_reach hm hn h0 (fun t w _ => before t w) self (fun t w _ => after t w)

end Loops

/-! ## The windows of the two vats, and the slices in them -/

section Windows

variable {s t u : State} {W W' : Field → Prop} {v w : Vat} {f k : Field} {n m g x i a st lo wd : Nat}

/-- The field is one of vat `v`'s registers. -/
def InVat (v : Vat) (k : Field) : Prop := v.base ≤ k.addr ∧ k.addr < v.base + 0x10000000

theorem inVat_unit (h : a + i * st < 0x10000000) : InVat v ⟨v.base + a + i * st, lo, wd⟩ :=
  ⟨show _ ≤ v.base + a + i * st by omega, show v.base + a + i * st < _ by omega⟩

theorem InVat.other (h : InVat w k) (hn : w ≠ v) : ¬ InVat v k := by
  unfold InVat at *
  cases v <;> cases w <;> simp only [Vat.base, ne_eq, not_true_eq_false] at * <;> omega

/-- A vat's field lies apart from what is in no register of that vat. -/
theorem apart_outside (h : a + i * st < 0x10000000) (hk : ¬ InVat v k) :
    Field.apart ⟨v.base + a + i * st, lo, wd⟩ k = true := by
  refine apart_of_addr fun e => hk ?_
  have hu := inVat_unit (v := v) (lo := lo) (wd := wd) h
  exact ⟨e ▸ hu.1, e ▸ hu.2⟩

theorem SenseOnly.weaken (h : SenseOnly s t W) (hw : ∀ g, W g → W' g) : SenseOnly s t W' :=
  ⟨fun f ha hb hf => h.rd f ha hb fun g hg => hf g (hw g hg), h.rest⟩

theorem SenseOnly.any (h : SenseOnly s t W) : SenseOnly s t (fun _ => True) := h.weaken fun _ _ => trivial

/-- What outputs, resets and clock losses write of channel `n`. -/
def chanFields (v : Vat) (n : Nat) : List Field := [whole (R.SLICE_DATA v n), R.SLICE_SEQ_SEQ v n, whole (R.SLICE_STAT v n)]

/-- Those fields lie in the registers of one slice, of which they leave the settings. -/
theorem apart_chanFields (h : v ≠ w ∨ n ≠ m) (hn : n < 64) (hm : m < 64) (ha : 0x04100000 ≤ a ∧ a < 0x04100040) :
    ∀ g ∈ chanFields w m, Field.apart ⟨v.base + a + n * 0x40, lo, wd⟩ g = true := by
  have ne : ∀ {b : Nat}, 0x04100000 ≤ b → b < 0x04100040 → v.base + a + n * 0x40 ≠ w.base + b + m * 0x40 := fun hb hb' =>
    place_ne (by omega) (by omega) (h.imp id (by omega))
  refine apart_cons (apart_of_addr ?_) (apart_cons (apart_of_addr ?_) (apart_cons (apart_of_addr ?_) apart_nil)) <;>
    exact ne (by decide) (by decide)

theorem apart_chanFields_group (hm : m < 64) (hg : g < 8) (ha : 0x04101400 ≤ a ∧ a < 0x04101420) :
    ∀ k ∈ chanFields w m, Field.apart ⟨v.base + a + g * 0x20, lo, wd⟩ k = true := by
  have ne : ∀ {b : Nat}, 0x04100000 ≤ b → b < 0x04100040 → v.base + a + g * 0x20 ≠ w.base + b + m * 0x40 := fun hb hb' =>
    place_ne (by omega) (by omega) (.inr (by omega))
  refine apart_cons (apart_of_addr ?_) (apart_cons (apart_of_addr ?_) (apart_cons (apart_of_addr ?_) apart_nil)) <;>
    exact ne (by decide) (by decide)

theorem chanFields_inVat (hm : m < 64) : ∀ k ∈ chanFields w m, InVat w k := by
  simp only [chanFields, List.forall_mem_cons, List.not_mem_nil, false_implies, implies_true, and_true]
  exact ⟨inVat_unit (by omega), inVat_unit (by omega), inVat_unit (by omega)⟩

theorem covered_data (h : f.addr = R.SLICE_DATA v n) (hf : f.fits = true) : Covered f (· ∈ chanFields v n) :=
  .part (by simp [chanFields, h]) hf

theorem covered_stat (h : f.addr = R.SLICE_STAT v n) (hf : f.fits = true) : Covered f (· ∈ chanFields v n) :=
  .part (by simp [chanFields, h]) hf

theorem covered_seq : Covered (R.SLICE_SEQ_SEQ v n) (· ∈ chanFields v n) := .of (by simp [chanFields]) rfl

end Windows

/-! ## Other vats' channels and groups -/

section OtherVat

variable {s : State} {v w : Vat} {n g x : Nat} {f : Field}

theorem modVat_other (h : w ≠ v) {k : VatSt → VatSt} : (s.modVat w k).vat v = s.vat v :=
  State.vat_setVat_other s (Ne.symm h) _

theorem forN_other {i : Nat} {k : State → Nat → State} (hk : ∀ t j, (k t j).vat v = t.vat v) : (forN i s k).vat v = s.vat v := by
  unfold forN
  induction List.range i generalizing s with
  | nil => rfl
  | cons a l ih => exact ih.trans (hk s a)

theorem vat_beginSettle : (beginSettle s w n).vat v = s.vat v := vat_wr.trans (vat_mark.trans (vat_wr.trans vat_wr))

theorem restartChan_other (h : w ≠ v) : (restartChan s w n).vat v = s.vat v := by
  unfold restartChan
  split
  · rfl
  · exact vat_beginSettle.trans (vat_wr.trans (vat_wr.trans (vat_wr.trans (modVat_other h))))

theorem takeSync_other (h : w ≠ v) : (takeSync s w g).vat v = s.vat v := by
  refine (modVat_other h).trans (vat_wr.trans (forN_other fun t j => ?_))
  split
  · exact restartChan_other h
  · rfl

theorem requestAuto_other (h : w ≠ v) : (requestAuto s w g).vat v = s.vat v := by
  refine (modVat_other h).trans ?_
  unfold abandonRotation
  split
  · rfl
  · exact (modVat_other h).trans vat_wr
  · exact (modVat_other h).trans vat_wr

theorem groupReturn_other (h : w ≠ v) : (groupReturn s w g).vat v = s.vat v := by
  unfold groupReturn
  split
  · rfl
  · exact (requestAuto_other h).trans vat_wr

end OtherVat

end Sys2Proof.Machine

namespace Sys2Proof.Machine

open Sys2Proof

/-! ## Synchronising resets (R59-R63) -/

section Synchronising

variable {r s t u : State} {v w : Vat} {n m g i : Nat}

theorem orBits_lt {a b k : Nat} (ha : a < 2 ^ k) (hb : b < 2 ^ k) : orBits a b < 2 ^ k := Nat.or_lt_two_pow ha hb

/-- GO's mask: what it asks for, beside what it asked for already (R63). -/
theorem requestSync_mask (m : BitVec 8) : (requestSync s v g m.toNat).rd (R.SGRP_SYNC_MASK v g) =
    if s.is (R.SGRP_SYNC_GO v g) then orBits (s.rd (R.SGRP_SYNC_MASK v g)) m.toNat else m.toNat := by
  refine (rd_set1_apart rfl unit_apart).trans ((State.rd_wr_self _ _ _ rfl).trans (Nat.mod_eq_of_lt ?_))
  split
  · exact orBits_lt (State.rd_lt s _) m.isLt
  · exact m.isLt

theorem sgrpSyncGo_answers {g : Fin 8} (m : BitVec 8) (hc : Calm s) (hl : s.vatLive v = true) :
    Answers (.sgrpSyncGo v g m) s (fun t => t.is (R.SGRP_SYNC_GO v g) = true
      ∧ t.rd (R.SGRP_SYNC_MASK v g) = (if s.is (R.SGRP_SYNC_GO v g) then orBits (s.rd (R.SGRP_SYNC_MASK v g)) m.toNat else m.toNat)
      ∧ Frame s t [R.SGRP_SYNC_GO v g, R.SGRP_SYNC_MASK v g]) := by
  have hg := g.isLt
  have only : SenseOnly s (requestSync s v g m.toNat) (· ∈ [R.SGRP_SYNC_GO v g, R.SGRP_SYNC_MASK v g]) :=
    (SenseOnly.refl.wr (.of (by simp) rfl)).set1 (.of (by simp) rfl)
  have go : (requestSync s v g m.toNat).rd (R.SGRP_SYNC_GO v g) = 1 := rd_set1 rfl rfl
  refine ⟨_, rfl, ?_⟩
  rw [if_pos hl]
  exact ⟨is_one ((only.settled hc (by omega)).trans go), (only.settled hc (by omega)).trans (requestSync_mask m), only.frame hc⟩

/-- What a channel shows that a synchronising reset has started again (R60, R61, R67). -/
structure Restarted (r s : State) (v : Vat) (n : Nat) : Prop extends Settling r s v n where
  seq : s.rd (R.SLICE_SEQ_SEQ v n) = 0
  clocked : s.rd (R.SLICE_DATA_CLKLOSS v n) = 0
  moving : s.rd (R.SLICE_DATA_FROZEN v n) = 0

theorem restartChan_only : SenseOnly s (restartChan s v n) (· ∈ chanFields v n) := by
  refine SenseOnly.refl.unless fun _ h => ?_
  exact (((h.modChan.clr (covered_data rfl rfl)).clr (covered_data rfl rfl)).wr covered_seq).beginSettle (covered_stat rfl rfl)
    (covered_data rfl rfl) (covered_data rfl rfl)

theorem restartChan_restarted (hp : s.is (R.SLICE_CFG_PRESET v n) = true) : Restarted s (restartChan s v n) v n := by
  unfold restartChan
  rw [if_neg (by simp [hp])]
  extract_lets a b
  have settling := beginSettle_settling (s := b) (v := v) (n := n)
  have keep : ∀ {o lo wd : Nat}, (∀ k ∈ [R.SLICE_STAT_SETTLE_LEFT v n, R.SLICE_DATA_SUPP v n, R.SLICE_DATA_VALID v n],
      Field.apart ⟨v.base + o + n * 0x40, lo, wd⟩ k = true) →
      (beginSettle b v n).rd ⟨v.base + o + n * 0x40, lo, wd⟩ = b.rd ⟨v.base + o + n * 0x40, lo, wd⟩ := fun h =>
    ((SenseOnly.refl (s := b)).beginSettle (.of (by simp) rfl) (.of (by simp) rfl) (.of (by simp) rfl)).unit
      (W := (· ∈ [R.SLICE_STAT_SETTLE_LEFT v n, R.SLICE_DATA_SUPP v n, R.SLICE_DATA_VALID v n])) h
  refine ⟨⟨settling.suppressed, settling.invalid, settling.left.trans (settleCount_congr ?_)⟩, ?_, ?_, ?_⟩
  · exact (State.rd_wr_apart _ _ _ _ rfl unit_apart).trans ((State.rd_wr_apart _ _ _ _ rfl unit_apart).trans
      ((State.rd_wr_apart _ _ _ _ rfl unit_apart).trans rd_modChan))
  · exact (keep (apart_cons unit_apart (apart_cons unit_apart (apart_cons unit_apart apart_nil)))).trans (State.rd_wr_self _ _ _ rfl)
  · exact (keep (apart_cons unit_apart (apart_cons unit_apart (apart_cons unit_apart apart_nil)))).trans
      ((State.rd_wr_apart _ _ _ _ rfl unit_apart).trans (State.rd_wr_self _ _ _ rfl))
  · exact (keep (apart_cons unit_apart (apart_cons unit_apart (apart_cons unit_apart apart_nil)))).trans
      ((State.rd_wr_apart _ _ _ _ rfl unit_apart).trans ((State.rd_wr_apart _ _ _ _ rfl unit_apart).trans (State.rd_wr_self _ _ _ rfl)))

/-- What leaves the registers of slice `n` leaves the reset as it is. -/
theorem Restarted.keep (h : Restarted s t v n)
    (hk : ∀ {a lo wd}, 0x04100000 ≤ a ∧ a < 0x04100040 → u.rd ⟨v.base + a + n * 0x40, lo, wd⟩ = t.rd ⟨v.base + a + n * 0x40, lo, wd⟩) :
    Restarted s u v n :=
  have hw {a lo wd x} (e : t.rd ⟨v.base + a + n * 0x40, lo, wd⟩ = x) (hb : 0x04100000 ≤ a ∧ a < 0x04100040 := by decide) :
      u.rd ⟨v.base + a + n * 0x40, lo, wd⟩ = x := (hk hb).trans e
  ⟨⟨hw h.suppressed, hw h.invalid, hw h.left⟩, hw h.seq, hw h.clocked, hw h.moving⟩

/-- The reset as seen from an earlier state with the same PRESET. -/
theorem Restarted.of (h : Restarted s t v n) (hp : s.rd (R.SLICE_CFG_PRESET v n) = r.rd (R.SLICE_CFG_PRESET v n)) :
    Restarted r t v n :=
  ⟨⟨h.suppressed, h.invalid, h.left.trans (settleCount_congr hp)⟩, h.seq, h.clocked, h.moving⟩

/-- What a group shows whose synchronising reset has taken effect in vat `v`: `r` is the state before. -/
structure SyncTaken (r s : State) (v : Vat) (g : Nat) : Prop where
  go : s.rd (R.SGRP_SYNC_GO v g) = 0
  auto : (getGrp s v g).autoPend = 0
  started : ∀ i < 8, bitOf (pendingSync r v g) i = true → r.is (R.SLICE_CFG_PRESET v (8 * g + i)) = true →
    Restarted r s v (8 * g + i)

theorem takeSync_only (hg : g < 8) : SenseOnly s (takeSync s v g) (InVat v) := by
  have loop : SenseOnly s (forN 8 s (fun t i => if bitOf (pendingSync s v g) i then restartChan t v (8 * g + i) else t)) (InVat v) :=
    SenseOnly.refl.forN fun t i hi h => h.when fun _ h => h.trans (restartChan_only.weaken (chanFields_inVat (by omega)))
  exact (loop.clr (.of (inVat_unit (by omega)) rfl)).modGrp

theorem takeSync_taken (hg : g < 8) (hf : Fits s) : SyncTaken s (takeSync s v g) v g := by
  unfold takeSync
  extract_lets m a
  have hl : SenseOnly s a (InVat v) :=
    SenseOnly.refl.forN fun t i hi h => h.when fun _ h => h.trans (restartChan_only.weaken (chanFields_inVat (by omega)))
  have fits : Fits (a.clr (R.SGRP_SYNC_GO v g)) := (hf.forN fun h => h.when (·.restartChan)).clr
  refine ⟨?_, ?_, fun i hi hb hp => ?_⟩
  · exact rd_modGrp.trans (State.rd_wr_self _ _ _ rfl)
  · rw [getGrp_modGrp_self]
    obtain ⟨-, -, -, -, h, -⟩ := vatFits_iff.mp (fits.vat (v := v))
    omega
  · have started : Restarted s a v (8 * g + i) := by
      refine forN_reach (P := fun t => t.rd (R.SLICE_CFG_PRESET v (8 * g + i)) = s.rd (R.SLICE_CFG_PRESET v (8 * g + i)))
        (Q := fun t => Restarted s t v (8 * g + i)) hi rfl
        (fun t j hj hn h => ?_) (fun t h => ?_) (fun t j hj hn h => ?_)
      · split
        · exact (restartChan_only.unit (apart_chanFields (.inr (by omega)) (by omega) (by omega) (by omega))).trans h
        · exact h
      · rw [if_pos hb]
        exact (restartChan_restarted ((is_of_rd h).trans hp)).of h
      · split
        · exact h.keep fun ha => restartChan_only.unit (apart_chanFields (.inr (by omega)) (by omega) (by omega) ha)
        · exact h
    exact started.keep fun ha => rd_modGrp.trans
      (State.rd_wr_apart _ _ _ _ rfl (apart_of_addr (place_ne (by omega) (by omega) (.inr (by omega)))))

/-- What leaves the vat's registers and the group leaves the reset as it is. -/
theorem SyncTaken.keep (h : SyncTaken s t v g) (hg : g < 8)
    (hk : ∀ {a i st lo wd}, 0x04100000 ≤ a → a + i * st < 0x04102000 →
      u.rd ⟨v.base + a + i * st, lo, wd⟩ = t.rd ⟨v.base + a + i * st, lo, wd⟩)
    (hu : getGrp u v g = getGrp t v g) : SyncTaken s u v g :=
  ⟨(hk (by decide) (by omega)).trans h.go, hu ▸ h.auto,
    fun i hi hb hp => (h.started i hi hb hp).keep fun ha => hk ha.1 (by omega)⟩

/-- The vat's own conditions for a reset are those of an earlier state that differs in the other vat alone. -/
theorem sync_congr (h : SenseOnly s t (¬ InVat v ·)) (hg : g < 8) (hu : getGrp t v g = getGrp s v g) :
    syncMay t v g = syncMay s v g ∧ pendingSync t v g = pendingSync s v g := by
  have rd {a lo wd} (ha : a ≤ 0x04102000 := by decide) :
      t.rd ⟨v.base + a + g * 0x20, lo, wd⟩ = s.rd ⟨v.base + a + g * 0x20, lo, wd⟩ := h.unit fun _ => apart_outside (by omega)
  have en : t.rd (R.SGRP_CLK_ALIGN_EN v g) = s.rd (R.SGRP_CLK_ALIGN_EN v g) := rd
  have src : t.rd (R.SGRP_CLK_SRC v g) = s.rd (R.SGRP_CLK_SRC v g) := rd
  have go : t.rd (R.SGRP_SYNC_GO v g) = s.rd (R.SGRP_SYNC_GO v g) := rd
  have mask : t.rd (R.SGRP_SYNC_MASK v g) = s.rd (R.SGRP_SYNC_MASK v g) := rd
  have lost : t.rd (R.SGRP_STAT_CLKLOSS v g) = s.rd (R.SGRP_STAT_CLKLOSS v g) := rd
  simp only [syncMay, alignedGroup, syncDue, syncPending, pendingSync, State.is, h.live, hu, en, src, go, mask, lost]
  exact ⟨trivial, rfl⟩

theorem syncResetEffect_answers {g : Fin 8} (hc : Calm s) (hf : Fits s) (ha : alignedGroup s w g = false)
    (hd : syncDue s w g = true) :
    Answers (.syncResetEffect w g) s (fun t => ∀ v : Vat, alignedGroup s v g = false → syncDue s v g = true →
      SyncTaken s t v g) := by
  have hg := g.isLt
  refine ⟨_, rfl, fun v hav hdv => ?_⟩
  have may : syncMay s v g = true := by simp [syncMay, hav, hdv]
  have live : s.vatLive v = true := by
    simp only [syncDue, Bool.and_eq_true] at hdv
    exact hdv.1.1
  unfold syncEffect
  rw [if_pos (by simp [syncMay, ha, hd])]
  have taken : SenseOnly s (forVats s fun s v => if syncMay s v g then takeSync s v g else s) (fun _ => True)
      ∧ SyncTaken s (forVats s fun s v => if syncMay s v g then takeSync s v g else s) v g := by
    refine forVats_reach (P := fun t => (SenseOnly s t (¬ InVat v ·) ∧ Fits t) ∧ getGrp t v g = getGrp s v g)
      (Q := fun t => SenseOnly s t (fun _ => True) ∧ SyncTaken s t v g) live ⟨⟨.refl, hf⟩, rfl⟩
      (fun t w hw h => ?_) (fun t ⟨⟨ho, hft⟩, hgr⟩ => ?_) (fun t w hw h => ?_)
    · split
      · exact ⟨⟨h.1.1.trans ((takeSync_only hg).weaken fun _ hk => hk.other hw), h.1.2.takeSync⟩,
          (getGrp_of_vat (congrArg VatSt.groups (takeSync_other hw))).trans h.2⟩
      · exact h
    · obtain ⟨hm, hp⟩ := sync_congr ho hg hgr
      rw [if_pos (hm.trans may)]
      have h := takeSync_taken (v := v) hg hft
      have preset {i : Nat} (hi : i < 8) : t.rd (R.SLICE_CFG_PRESET v (8 * g + i)) = s.rd (R.SLICE_CFG_PRESET v (8 * g + i)) :=
        ho.unit fun _ => apart_outside (by omega)
      exact ⟨ho.any.trans (takeSync_only hg).any, h.go, h.auto, fun i hi hb hq =>
        (h.started i hi (hp ▸ hb) ((is_of_rd (preset hi)).trans hq)).of (preset hi)⟩
    · split
      · have only := takeSync_only (s := t) (v := w) hg
        exact ⟨h.1.trans only.any, h.2.keep hg
          (fun _ hi => only.unit fun _ hk => apart_outside (by omega) (hk.other hw))
          (getGrp_of_vat (congrArg VatSt.groups (takeSync_other hw)))⟩
      · exact h
  exact taken.2.keep hg (fun ha hi => taken.1.settled hc hi ha) (getGrp_of_vat (settle_vat_groups (taken.1.calm hc) v))

theorem syncResetEffect_idle {g : Fin 8} (hc : Calm s) (h : alignedGroup s w g = true ∨ syncDue s w g = false) :
    Answers (.syncResetEffect w g) s (fun t => CycleOnly s t) := by
  refine ⟨_, rfl, ?_⟩
  unfold syncEffect
  rw [if_neg (by rcases h with h | h <;> simp [syncMay, h])]
  exact settle_cycle hc

end Synchronising

/-! ## Group clocks (R68) -/

section GroupClocks

variable {r s t u : State} {v w : Vat} {n m g i : Nat}

theorem loseChan_only : SenseOnly s (loseChan s v n) (· ∈ chanFields v n) := by
  refine SenseOnly.refl.unless fun _ h => ?_
  refine (SenseOnly.refreshValid ?_ (covered_data rfl rfl)).modChan
  exact h.unless fun _ h => (h.set1 (covered_data rfl rfl)).vatFlagEdge (covered_stat rfl rfl)

/-- What a channel in use shows without its group's clock. -/
structure ChanLost (s : State) (v : Vat) (n : Nat) : Prop where
  lost : s.rd (R.SLICE_DATA_CLKLOSS v n) ≠ 0
  invalid : s.rd (R.SLICE_DATA_VALID v n) = 0

theorem loseChan_lost (hp : s.is (R.SLICE_CFG_PRESET v n) = true) : ChanLost (loseChan s v n) v n := by
  unfold loseChan
  rw [if_neg (by simp [hp])]
  extract_lets a
  have lost : a.is (R.SLICE_DATA_CLKLOSS v n) = true := by
    subst a
    split
    · assumption
    · exact is_one ((rd_vatFlagEdge_apart rfl unit_apart unit_ge).trans (rd_set1 rfl rfl))
  exact ⟨(rd_modChan.trans (State.rd_wr_apart _ _ _ _ rfl unit_apart)).trans_ne (is_iff.mp lost),
    rd_modChan.trans (refreshValid_of_cause (.inr (.inr (.inr lost))))⟩

theorem ChanLost.keep (h : ChanLost t v n)
    (hk : ∀ {a lo wd}, 0x04100000 ≤ a ∧ a < 0x04100040 → u.rd ⟨v.base + a + n * 0x40, lo, wd⟩ = t.rd ⟨v.base + a + n * 0x40, lo, wd⟩) :
    ChanLost u v n :=
  ⟨(hk (by decide)).trans_ne h.lost, (hk (by decide)).trans h.invalid⟩

/-- What a group shows whose clock is lost in vat `v`: `r` is the state before. -/
structure GroupLost (r s : State) (v : Vat) (g : Nat) : Prop where
  lost : s.rd (R.SGRP_STAT_CLKLOSS v g) = 1
  flag : s.rd (R.SGRP_STAT_CLKLOSS_F v g) ≠ 0
  chans : ∀ i < 8, r.is (R.SLICE_CFG_PRESET v (8 * g + i)) = true → ChanLost s v (8 * g + i)

theorem GroupLost.keep (h : GroupLost s t v g) (hg : g < 8)
    (hk : ∀ {a i st lo wd}, 0x04100000 ≤ a → a + i * st < 0x04102000 →
      u.rd ⟨v.base + a + i * st, lo, wd⟩ = t.rd ⟨v.base + a + i * st, lo, wd⟩) : GroupLost s u v g :=
  ⟨(hk (by decide) (by omega)).trans h.lost, (hk (by decide) (by omega)).trans_ne h.flag,
    fun i hi hp => (h.chans i hi hp).keep fun ha => hk ha.1 (by omega)⟩

theorem vatFlag_set {f : Field} {c : Nat} (hl : s.vatLive v = true) (hf : f.fits = true) (hw : f.width = 1)
    (ha : 0x50000000 ≤ f.addr) : (s.vatFlag v c f).rd f ≠ 0 := by
  have hr : (s.vat v).inReset = false := by
    simp only [State.vatLive, VatSt.live, Bool.and_eq_true, Bool.not_eq_true'] at hl
    exact hl.2.2
  unfold State.vatFlag State.flag
  rw [if_neg (by simp [hr])]
  split
  · exact is_iff.mp ‹_›
  · rw [State.rd_event _ _ _ _ f (apart_log ha).1 (apart_log ha).2, rd_set1 hf hw]
    decide

theorem groupLoss_only (hg : g < 8) : SenseOnly s (groupLoss s v g) (InVat v) := by
  refine SenseOnly.refl.unless fun _ h => ?_
  exact ((h.set1 (.of (inVat_unit (by omega)) rfl)).vatFlag (.of (inVat_unit (by omega)) rfl)).forN fun t i hi h =>
    h.trans (loseChan_only.weaken (chanFields_inVat (by omega)))

theorem groupLoss_lost (hg : g < 8) (hl : s.vatLive v = true) (hk : s.is (R.SGRP_STAT_CLKLOSS v g) = false) :
    GroupLost s (groupLoss s v g) v g := by
  unfold groupLoss
  rw [if_neg (by simp [hl, hk])]
  extract_lets a
  have start : SenseOnly s a (· ∈ [R.SGRP_STAT_CLKLOSS v g, R.SGRP_STAT_CLKLOSS_F v g]) :=
    (SenseOnly.refl.set1 (.of (by simp) rfl)).vatFlag (.of (by simp) rfl)
  have loop : SenseOnly a (forN 8 a fun t i => loseChan t v (8 * g + i)) (fun k => ∃ m < 64, k ∈ chanFields v m) :=
    SenseOnly.refl.forN fun t i hi h => h.trans (loseChan_only.weaken fun _ hk => ⟨_, by omega, hk⟩)
  have flagged : SenseOnly (s.set1 (R.SGRP_STAT_CLKLOSS v g)) a (· ∈ [R.SGRP_STAT_CLKLOSS_F v g]) :=
    SenseOnly.refl.vatFlag (.of (by simp) rfl)
  have live : (s.set1 (R.SGRP_STAT_CLKLOSS v g)).vatLive v = true :=
    ((SenseOnly.refl (W := fun _ => True)).set1 (.of trivial rfl)).live.trans hl
  refine ⟨?_, ?_, fun i hi hp => ?_⟩
  · exact (loop.unit fun k ⟨m, hm, hk⟩ => apart_chanFields_group hm hg (by decide) k hk).trans
      ((flagged.unit (apart_cons unit_apart apart_nil)).trans (rd_set1 rfl rfl))
  · exact (loop.unit fun k ⟨m, hm, hk⟩ => apart_chanFields_group hm hg (by decide) k hk).trans_ne (vatFlag_set live rfl rfl unit_ge)
  · refine forN_reach (P := fun t => t.rd (R.SLICE_CFG_PRESET v (8 * g + i)) = s.rd (R.SLICE_CFG_PRESET v (8 * g + i)))
      (Q := fun t => ChanLost t v (8 * g + i)) hi ?_ (fun t j hj hn h => ?_) (fun t h => ?_) (fun t j hj hn h => ?_)
    · have ne : ∀ {b : Nat}, 0x04101400 ≤ b → b < 0x04101420 →
          v.base + 0x04100000 + (8 * g + i) * 0x40 ≠ v.base + b + g * 0x20 := fun hb hb' =>
        place_ne (by omega) (by omega) (.inr (by omega))
      exact start.unit (apart_cons (apart_of_addr (ne (by decide) (by decide)))
        (apart_cons (apart_of_addr (ne (by decide) (by decide))) apart_nil))
    · exact (loseChan_only.unit (apart_chanFields (.inr (by omega)) (by omega) (by omega) (by omega))).trans h
    · exact loseChan_lost ((is_of_rd h).trans hp)
    · exact h.keep fun ha => loseChan_only.unit (apart_chanFields (.inr (by omega)) (by omega) (by omega) ha)

theorem groupClockLoss_answers {g : Fin 8} (hc : Calm s) :
    Answers (.groupClockLoss g) s (fun t => ∀ v : Vat, s.vatLive v = true → s.is (R.SGRP_STAT_CLKLOSS v g) = false →
      GroupLost s t v g) := by
  have hg := g.isLt
  refine ⟨_, rfl, fun v hl hk => ?_⟩
  have lost : SenseOnly s (forVats s fun s v => groupLoss s v g) (fun _ => True)
      ∧ GroupLost s (forVats s fun s v => groupLoss s v g) v g := by
    refine forVats_reach (P := fun t => SenseOnly s t (¬ InVat v ·))
      (Q := fun t => SenseOnly s t (fun _ => True) ∧ GroupLost s t v g) hl .refl (fun t w hw h => ?_) (fun t h => ?_)
      (fun t w hw h => ?_)
    · exact h.trans ((groupLoss_only hg).weaken fun _ hk => hk.other hw)
    · have rd {a i st lo wd} (hi : a + i * st < 0x10000000) : t.rd ⟨v.base + a + i * st, lo, wd⟩ = s.rd ⟨v.base + a + i * st, lo, wd⟩ :=
        h.unit fun _ => apart_outside hi
      have lost := groupLoss_lost (s := t) hg (h.live.trans hl) ((is_of_rd (rd (by omega))).trans hk)
      exact ⟨h.any.trans (groupLoss_only hg).any, lost.lost, lost.flag, fun i hi hp =>
        lost.chans i hi ((is_of_rd (rd (by omega))).trans hp)⟩
    · have only := groupLoss_only (s := t) (v := w) hg
      exact ⟨h.1.trans only.any, h.2.keep hg fun _ hi => only.unit fun _ hk => apart_outside (by omega) (hk.other hw)⟩
  exact lost.2.keep hg fun ha hi => lost.1.settled hc hi ha

/-- The shadowing slice's number has no bound in a state that no run reaches, but no MODE is in a group's SGRP_STAT. -/
theorem apart_mode {lo wd : Nat} : Field.apart ⟨v.base + 0x0410140c + g * 0x20, lo, wd⟩ (R.SLICE_PHYS_MODE w n) = true := by
  refine apart_of_addr (show v.base + 0x0410140c + g * 0x20 ≠ w.base + 0x04100028 + n * 0x40 from ?_)
  cases v <;> cases w <;> simp only [Vat.base] <;> omega

theorem abandonRotation_only : SenseOnly s (abandonRotation s v g) (fun k => ∃ f, k = R.SLICE_PHYS_MODE v f) := by
  unfold abandonRotation
  split
  · exact .refl
  · exact (SenseOnly.refl.wr (.of ⟨_, rfl⟩ rfl)).modGrp
  · exact (SenseOnly.refl.wr (.of ⟨_, rfl⟩ rfl)).modGrp

theorem groupReturn_only :
    SenseOnly s (groupReturn s v g) (fun k => (∃ f, k = R.SLICE_PHYS_MODE v f) ∨ k = R.SGRP_STAT_CLKLOSS v g) :=
  SenseOnly.refl.unless fun _ h =>
    ((h.clr (.of (.inr rfl) rfl)).trans (abandonRotation_only.weaken fun _ => .inl)).modGrp

theorem groupReturn_returned (hf : Fits s) (hl : s.vatLive v = true) (hk : s.is (R.SGRP_STAT_CLKLOSS v g) = true)
    (hg : g < 8) : (groupReturn s v g).rd (R.SGRP_STAT_CLKLOSS v g) = 0 ∧ (getGrp (groupReturn s v g) v g).autoPend = 0xFF := by
  unfold groupReturn
  rw [if_neg (by simp [hl, hk])]
  refine ⟨?_, ?_⟩
  · exact rd_modGrp.trans ((abandonRotation_only.unit fun k ⟨f, e⟩ => e ▸ apart_mode).trans (State.rd_wr_self _ _ _ rfl))
  · obtain ⟨-, -, -, -, h, -⟩ := vatFits_iff.mp ((hf.clr (f := R.SGRP_STAT_CLKLOSS v g)).abandonRotation (v := v) (g := g) |>.vat (v := v))
    exact congrArg GrpSt.autoPend (getGrp_modGrp_self (by omega))

theorem groupClockReturn_answers {g : Fin 8} (hc : Calm s) (hf : Fits s) :
    Answers (.groupClockReturn g) s (fun t => ∀ v : Vat, s.vatLive v = true → s.is (R.SGRP_STAT_CLKLOSS v g) = true →
      t.is (R.SGRP_STAT_CLKLOSS v g) = false ∧ (getGrp t v g).autoPend = 0xFF) := by
  have hg := g.isLt
  refine ⟨_, rfl, fun v hl hk => ?_⟩
  have aside {t : State} {w : Vat} (hw : w ≠ v) : (groupReturn t w g).rd (R.SGRP_STAT_CLKLOSS v g) = t.rd (R.SGRP_STAT_CLKLOSS v g)
      ∧ getGrp (groupReturn t w g) v g = getGrp t v g := by
    refine ⟨groupReturn_only.unit ?_, getGrp_of_vat (congrArg VatSt.groups (groupReturn_other hw))⟩
    rintro k (⟨f, rfl⟩ | rfl)
    · exact apart_mode
    · exact apart_of_addr (place_ne (by omega) (by omega) (.inl (Ne.symm hw)))
  have back : SenseOnly s (forVats s fun s v => groupReturn s v g) (fun _ => True)
      ∧ (forVats s fun s v => groupReturn s v g).rd (R.SGRP_STAT_CLKLOSS v g) = 0
      ∧ (getGrp (forVats s fun s v => groupReturn s v g) v g).autoPend = 0xFF := by
    refine forVats_reach (P := fun t => (SenseOnly s t (fun _ => True) ∧ Fits t)
        ∧ t.rd (R.SGRP_STAT_CLKLOSS v g) = s.rd (R.SGRP_STAT_CLKLOSS v g))
      (Q := fun t => SenseOnly s t (fun _ => True) ∧ t.rd (R.SGRP_STAT_CLKLOSS v g) = 0 ∧ (getGrp t v g).autoPend = 0xFF)
      hl ⟨⟨.refl, hf⟩, rfl⟩ (fun t w hw h => ?_) (fun t ⟨⟨ho, hft⟩, hr⟩ => ?_) (fun t w hw h => ?_)
    · exact ⟨⟨h.1.1.trans groupReturn_only.any, h.1.2.groupReturn⟩, (aside hw).1.trans h.2⟩
    · exact ⟨ho.trans groupReturn_only.any, groupReturn_returned hft (ho.live.trans hl) ((is_of_rd hr).trans hk) hg⟩
    · exact ⟨h.1.trans groupReturn_only.any, (aside hw).1.trans h.2.1, (congrArg GrpSt.autoPend (aside hw).2).trans h.2.2⟩
  obtain ⟨only, zero, auto⟩ := back
  exact ⟨is_zero ((only.settled hc (by omega)).trans zero),
    (congrArg GrpSt.autoPend (getGrp_of_vat (settle_vat_groups (only.calm hc) v))).trans auto⟩

/-- Settles O34: what a reset, a clock's loss and its return bring about in one vat's group (`takeSync_taken`,
`groupLoss_lost`, `groupReturn_returned`) the same in the other vat leaves as it is (`forVats_reach`). -/
theorem groupsSynchronise : Obligations.GroupsSynchronise := by
  refine ⟨fun _ _ m _ hc hl => sgrpSyncGo_answers m hc hl, fun w g s hc hf ha hd => ?_, fun _ _ _ hc h => syncResetEffect_idle hc h,
    fun g s hc => ?_, fun _ _ hc hf => groupClockReturn_answers hc hf⟩
  · obtain ⟨t, ht, h⟩ := syncResetEffect_answers hc hf ha hd
    refine ⟨t, ht, fun v hav hdv => ?_⟩
    have taken := h v hav hdv
    refine ⟨is_zero taken.go, taken.auto, fun i hb hp => ?_⟩
    have started := taken.started i i.isLt hb hp
    exact ⟨started.seq, is_one started.suppressed, is_zero started.clocked, is_zero started.invalid, is_zero started.moving,
      started.left⟩
  · obtain ⟨t, ht, h⟩ := groupClockLoss_answers (g := g) hc
    refine ⟨t, ht, fun v hl hk => ?_⟩
    have lost := h v hl hk
    exact ⟨is_one lost.lost, is_iff.mpr lost.flag, fun i hp =>
      have chan := lost.chans i i.isLt hp
      ⟨is_iff.mpr chan.lost, is_zero chan.invalid⟩⟩

end GroupClocks

end Sys2Proof.Machine

namespace Sys2Proof.Machine

open Sys2Proof

/-! ## Registers that an operation leaves

`Aside A r s`: the registers at the addresses of `A` read in `s` as in `r`, and the same SYS reset waits for STO. -/

section Registers

structure Aside (A : Nat → Prop) (r s : State) : Prop where
  get : ∀ a, A a → s.regs.get a = r.regs.get a
  due : s.rst.sysAfterSto = r.rst.sysAfterSto

variable {A : Nat → Prop} {r s t a b : State} {f : Field} {v : Vat} {n : Nat}

theorem Aside.refl : Aside A s s := ⟨fun _ _ => rfl, rfl⟩

theorem Aside.trans (h : Aside A r s) (h' : Aside A s t) : Aside A r t :=
  ⟨fun x hx => (h'.get x hx).trans (h.get x hx), h'.due.trans h.due⟩

theorem Aside.rd (h : Aside A r s) (hf : A f.addr) : s.rd f = r.rd f := congrArg (getBits · f.lo f.width) (h.get _ hf)

theorem Aside.calm (h : Aside A r s) (hc : Calm r) : Calm s := h.due.trans hc

theorem Aside.update (h : Aside A r s) {pending : List Instr} {variant : Variant} {dev : DevState} {mem : List Host.Cell}
    {time : TimeSt} {clk : ClockSt} {vatA vatB : VatSt} {arb : ArbSt} {harp : HarpSt} {ord : OrderSt} {log : LogSt} {whl : WheelSt}
    {trust : TrustSt} {rind : RindSt} {nv : NvSt} {rcd : RecSt} {can : CanSt} {net : NetSt} {bus : BusSt} {free : Nat} :
    Aside A r ⟨pending, variant, dev, s.regs, mem, time, s.rst, clk, vatA, vatB, arb, harp, ord, log, whl, trust, rind, nv, rcd,
      can, net, bus, free⟩ := ⟨h.get, h.due⟩

theorem Aside.ite {q : Prop} {_ : Decidable q} (ha : Aside A r a) (hb : Aside A r b) : Aside A r (if q then a else b) := by
  split <;> assumption

theorem Aside.when {q : Prop} {_ : Decidable q} (h : Aside A r s) (ha : Aside A r s → Aside A r a) :
    Aside A r (if q then a else s) := .ite (ha h) h

theorem Aside.unless {q : Prop} {_ : Decidable q} (h : Aside A r s) (hb : Aside A r s → Aside A r b) :
    Aside A r (if q then s else b) := .ite h (hb h)

theorem Aside.foldl {α : Type} {k : State → α → State} {l : List α} (h : Aside A r s)
    (hk : ∀ {t x}, Aside A r t → Aside A r (k t x)) : Aside A r (l.foldl k s) := by
  induction l generalizing s with
  | nil => exact h
  | cons a l ih => exact ih (hk h)

theorem Aside.forN {k : State → Nat → State} (h : Aside A r s) (hk : ∀ {t x}, Aside A r t → Aside A r (k t x)) :
    Aside A r (forN n s k) := h.foldl hk

theorem Aside.forVats {k : State → Vat → State} (h : Aside A r s) (hk : ∀ {t x}, Aside A r t → Aside A r (k t x)) :
    Aside A r (forVats s k) := h.foldl hk

theorem Aside.wr (h : Aside A r s) (hf : ¬ A f.addr) : Aside A r (s.wr f n) :=
  ⟨fun x hx => (State.get_wr_other _ _ _ _ fun e => hf (e ▸ hx)).trans (h.get x hx), h.due⟩

theorem Aside.mark (h : Aside A r s) {x i : Nat} : Aside A r (s.mark x i) := h.update

theorem Aside.set1 (h : Aside A r s) (hf : ¬ A f.addr) : Aside A r (s.set1 f) := (h.wr hf).mark

theorem Aside.clr (h : Aside A r s) (hf : ¬ A f.addr) : Aside A r (s.clr f) := h.wr hf

theorem Aside.incSat (h : Aside A r s) (hf : ¬ A f.addr) {x : Nat} : Aside A r (s.incSat f x) := h.wr hf

theorem Aside.wrBit (h : Aside A r s) (hf : ¬ A f.addr) {i : Nat} {x : Bool} : Aside A r (s.wrBit f i x) := h.wr hf

theorem Aside.event (h : Aside A r s) (hl : ¬ A R.LOG_STAT) {i j k : Nat} : Aside A r (s.event i j k) :=
  Aside.when (s := { s with log := _ }) h.update fun h => (h.incSat hl).set1 hl

theorem Aside.vatEvent (h : Aside A r s) (hl : ¬ A R.LOG_STAT) {i j k : Nat} : Aside A r (s.vatEvent v i j k) :=
  h.unless (·.event hl)

theorem Aside.vatFlagEdge (h : Aside A r s) (hl : ¬ A R.LOG_STAT) (hf : ¬ A f.addr) {i : Nat} : Aside A r (s.vatFlagEdge v i f) :=
  (h.set1 hf).vatEvent hl

theorem Aside.modVat (h : Aside A r s) {k : VatSt → VatSt} : Aside A r (s.modVat v k) := by
  cases v <;> exact h.update

end Registers

/-! ## A retired slice's bit of DEG_CAUSE

The cycle's consequences write DEG_CAUSE in `refreshDeg` alone, which keeps bit 1 (R263). -/

section DegCause

variable {r s : State} {f : Field} {v : Vat} {n p q i j x : Nat}

abbrev DegKept (r s : State) : Prop := Aside (· = R.OWN_DEG) r s

theorem ne_deg {x : Nat} (h : 0x50000000 ≤ x) : ¬ x = R.OWN_DEG := by
  have : R.OWN_DEG < 0x50000000 := by decide
  omega

theorem log_ne_deg : ¬ R.LOG_STAT = R.OWN_DEG := by decide

theorem Aside.wrVat (h : DegKept r s) (hf : 0x50000000 ≤ f.addr := by (repeat apply Nat.le_add_right_of_le); exact base_ge _) :
    DegKept r (s.wr f x) := h.wr (ne_deg hf)

theorem Aside.set1Vat (h : DegKept r s) (hf : 0x50000000 ≤ f.addr := by (repeat apply Nat.le_add_right_of_le); exact base_ge _) :
    DegKept r (s.set1 f) := h.set1 (ne_deg hf)

theorem Aside.eventDeg (h : DegKept r s) {k : Nat} : DegKept r (s.event i j k) := h.event log_ne_deg

theorem Aside.vatEventDeg (h : DegKept r s) {k : Nat} : DegKept r (s.vatEvent v i j k) := h.vatEvent log_ne_deg

theorem Aside.setPins (h : DegKept r s) {x y : Bool} : DegKept r (setPins s v n x y) :=
  ((h.when fun h => h.when (·.modVat.set1Vat)).modVat.wrVat).wrVat

theorem Aside.setPortPins (h : DegKept r s) {x y : Bool} : DegKept r (setPortPins s v p x y) := h.foldl (·.setPins)

theorem Aside.drivePattern (h : DegKept r s) : DegKept r (drivePattern s v p x) := h.wrVat.setPortPins

theorem Aside.toAllOff (h : DegKept r s) : DegKept r (toAllOff s v p) := h.drivePattern.set1Vat.vatEventDeg

theorem Aside.restoreOl (h : DegKept r s) : DegKept r (restoreOl s v p) := by
  unfold Machine.restoreOl modGuard
  exact h.wrVat.modVat

theorem Aside.leaveRun (h : DegKept r s) : DegKept r (leaveRun s v p) := by
  unfold Machine.leaveRun
  extract_lets s1 s2 s3 s4
  have h2 : DegKept r s2 := (Aside.modVat (h.wrVat (f := R.PORT_STATE_DEGR v p))).foldl (·.modVat)
  have h3 : DegKept r s3 := h2.when (·.restoreOl)
  exact h3.wrVat.wrVat.wrVat

theorem Aside.setPortState (h : DegKept r s) {x y : Nat} : DegKept r (setPortState s v p x y) :=
  h.unless fun h => ((((((((h.when (·.leaveRun)).when (·.modVat)).when (·.modVat)).when (·.wrVat)).when
    (·.wrVat)).unless (·.wrVat)).when (·.setPortPins)).when (·.foldl (·.modVat))).wrVat.vatEventDeg

theorem Aside.enterUnitPattern (h : DegKept r s) {k : Nat → Nat} : DegKept r (enterUnitPattern s v p k) :=
  h.unless fun h => Aside.when
    (h.foldl fun h => Aside.ite h.setPortState.wrVat.wrVat.toAllOff h.setPortState.wrVat.wrVat.drivePattern)
    (·.foldl (·.setPortState))

theorem Aside.armEffects (h : DegKept r s) : DegKept r (armEffects s v q) := by
  unfold Machine.armEffects
  split
  · exact h.foldl (·.wrVat)
  · exact Aside.ite (h.unless fun h => Aside.ite h.mark (h.wrVat.mark.eventDeg))
      (h.when (·.foldl fun h => h.set1Vat.vatEventDeg))

theorem Aside.actOnCauses (h : DegKept r s) : DegKept r (actOnCauses s v p) :=
  Aside.when (h.foldl (·.armEffects)) (·.enterUnitPattern)

theorem Aside.setUnitState (h : DegKept r s) {x : Nat} : DegKept r (setUnitState s v p x) := h.foldl (·.setPortState)

theorem Aside.ordersOnUnit (h : DegKept r s) : DegKept r (ordersOnUnit s v p) :=
  (((h.when (·.setUnitState)).when (·.setUnitState)).when fun h => Aside.when h.setUnitState (·.actOnCauses)).when (·.setUnitState)

theorem Aside.ordersOnPorts (h : DegKept r s) : DegKept r (ordersOnPorts s) :=
  h.unless fun h => h.forVats fun h => h.when fun h => h.forN fun h => h.unless fun h => h.ordersOnUnit

theorem Aside.countAbandoned (h : DegKept r s) : DegKept r (countAbandoned s n) :=
  ((h.set1 (by decide)).incSat (by decide)).eventDeg

theorem Aside.takeBackTest (h : DegKept r s) {x : TestEnd} : DegKept r (takeBackTest s x) :=
  ((((h.wrBit (by decide)).wr (by decide)).wr (by decide)).wr (by decide)).when (·.wr (by decide))

theorem Aside.abandonTest (h : DegKept r s) : DegKept r (abandonTest s n) := by
  unfold Machine.abandonTest
  split
  · exact Aside.countAbandoned (h.wrBit (by decide))
  · split
    · exact Aside.countAbandoned h.takeBackTest.update
    · exact h

theorem Aside.gateOff (h : DegKept r s) : DegKept r (gateOff s) := by
  unfold Machine.gateOff
  split
  · exact h
  · have h1 : DegKept r (Machine.forN 4 s Machine.abandonTest) := h.forN (·.abandonTest)
    exact Aside.clr (Aside.forN h1.update fun h => Aside.ite (h.wrBit (by decide)) h.update) (by decide)

theorem Aside.setDev (h : DegKept r s) {d : DevState} : DegKept r (setDev s d) :=
  h.unless fun h => Aside.unless (s := { s with dev := d, rst := _ }) ⟨h.get, h.due⟩ (·.eventDeg)

theorem Aside.enterSafeStop (h : DegKept r s) : DegKept r (enterSafeStop s n) := by
  unfold Machine.enterSafeStop
  extract_lets a b c d
  have hc : DegKept r c :=
    ((((h.gateOff.set1 (by decide)).wr (by decide)).clr (by decide)).set1 (by decide)).eventDeg
  have hd : DegKept r d := ((hc.clr (by decide)).clr (by decide)).update
  exact Aside.setDev (Aside.forVats (s := { d with arb := _ }) hd.update fun h => h.forN (·.unless (·.setPortState)))

theorem Aside.ss1End (h : DegKept r s) : DegKept r (ss1End s) := by
  unfold Machine.ss1End
  split
  · exact h
  · split
    · exact h.unless (·.enterSafeStop)
    · split
      · exact h.unless (·.enterSafeStop)
      · exact h.enterSafeStop

theorem Aside.refreshDev (h : DegKept r s) : DegKept r (refreshDev s) :=
  h.unless fun h => Aside.ite h.setDev (Aside.ite h.setDev h.setDev)

theorem bitOf_eq_testBit (x i : Nat) : bitOf x i = x.testBit i := by
  rw [Nat.testBit_eq_decide_div_mod_eq]
  rfl

theorem refreshDeg_slice (h : s.rdBit R.OWN_DEG_DEG_CAUSE 1 = true) : (refreshDeg s).rdBit R.OWN_DEG_DEG_CAUSE 1 = true := by
  unfold refreshDeg
  extract_lets old new
  have kept : (degKeep old).testBit 1 = true := by
    have ho : old / 2 ^ 1 % 2 = 1 := by simpa [State.rdBit, bitOf] using h
    have hk : degKeep old / 2 ^ 1 % 2 = 1 := by
      unfold degKeep
      split <;> omega
    rw [Nat.testBit_eq_decide_div_mod_eq, hk]
    rfl
  split
  · exact h
  · split
    · exact h
    · have hr : ((s.wr R.OWN_DEG_DEG_CAUSE new).event 0x01 0x0106 new).rd R.OWN_DEG_DEG_CAUSE = new % 2 ^ 10 :=
        (State.rd_event _ _ _ _ _ (by decide) (by decide)).trans (State.rd_wr_self _ _ _ (by decide))
      have hn : new.testBit 1 = true := (Nat.testBit_or ..).trans (by rw [kept, Bool.or_true])
      rw [State.rdBit, hr, bitOf_eq_testBit, Nat.testBit_mod_two_pow, hn]
      rfl

theorem settle_slice (hc : Calm s) (h : s.rdBit R.OWN_DEG_DEG_CAUSE 1 = true) : (settle s).rdBit R.OWN_DEG_DEG_CAUSE 1 = true := by
  have bit {t u : State} (ht : DegKept t u) (h : t.rdBit R.OWN_DEG_DEG_CAUSE 1 = true) : u.rdBit R.OWN_DEG_DEG_CAUSE 1 = true :=
    (congrArg (bitOf · 1) (ht.rd rfl)).trans h
  change State.rdBit (if s.dev = .off then s else _) R.OWN_DEG_DEG_CAUSE 1 = true
  split
  · exact h
  · have hn : (refreshDev (refreshDeg (ss1End (ordersOnPorts s)))).rst.sysAfterSto = none :=
      (refreshDev_cycle (refreshDeg_cycle (ss1End_cycle (ordersOnPorts_cycle (CycleOnly.refl s))))).calm hc
    unfold dueSysReset
    rw [hn]
    exact bit (Aside.refreshDev .refl) (refreshDeg_slice (bit (Aside.ss1End (Aside.ordersOnPorts .refl)) h))

theorem degSet_slice : (degSet s 1).rdBit R.OWN_DEG_DEG_CAUSE 1 = true := by
  unfold degSet
  split
  · assumption
  · next h =>
    have hr : ((s.wrBit R.OWN_DEG_DEG_CAUSE 1 true).event 0x01 0x0106
        ((s.wrBit R.OWN_DEG_DEG_CAUSE 1 true).rd R.OWN_DEG_DEG_CAUSE)).rd R.OWN_DEG_DEG_CAUSE = (s.rd R.OWN_DEG_DEG_CAUSE + 2) % 2 ^ 10 := by
      refine (State.rd_event _ _ _ _ _ (by decide) (by decide)).trans ((State.rd_wr_self _ _ _ (by decide)).trans ?_)
      rw [setBit, if_neg (by exact h), if_pos rfl]
      rfl
    have hb : s.rd R.OWN_DEG_DEG_CAUSE / 2 ^ 1 % 2 ≠ 1 := by simpa [State.rdBit, bitOf] using h
    show bitOf _ 1 = true
    rw [hr]
    exact beq_iff_eq.mpr (by omega)

end DegCause

end Sys2Proof.Machine

namespace Sys2Proof.Machine

open Sys2Proof

/-! ## What the rotation's operations write (R70, R72, R73) -/

section RotationOps

variable {r s t u : State} {W : Field → Prop} {k : Field} {v w : Vat} {n g f c a b i j st st' lo wd lo' wd' : Nat}

/-- Two fields of one vat's registers at different places. -/
theorem aside (ha : a + i * st < 0x10000000 := by omega) (hb : b + j * st' < 0x10000000 := by omega)
    (h : a + i * st ≠ b + j * st' := by omega) :
    Field.apart ⟨v.base + a + i * st, lo, wd⟩ ⟨v.base + b + j * st', lo', wd'⟩ = true :=
  apart_of_addr (place_ne ha hb (.inr h))

theorem vat_set1 : (s.set1 k).vat v = s.vat v := vat_mark.trans vat_wr

theorem groups_modGrp {h : GrpSt → GrpSt} : ((modGrp s w n h).vat v).groups.length = (s.vat v).groups.length := by
  by_cases e : w = v
  · subst e
    rw [modGrp, State.vat_modVat_self]
    exact length_modNth ..
  · rw [modGrp, modVat_other e]

theorem SenseOnly.group (h : SenseOnly s u W) (hc : Calm s) : getGrp (settle u) v g = getGrp u v g :=
  getGrp_of_vat (settle_vat_groups (h.calm hc) v)

theorem groups_degSet : ((degSet s n).vat v).groups = (s.vat v).groups := by
  unfold degSet
  split
  · rfl
  · exact congrArg VatSt.groups (vat_event.trans vat_wr)

theorem shadow_only {rep : Bool} : SenseOnly s (shadow s v g f c rep) (· ∈ [R.SLICE_PHYS_MODE v f, R.SLICE_PHYS_CHAN v f]) :=
  ((SenseOnly.refl.wr (.of (by simp) rfl)).wr (.of (by simp) rfl)).modGrp

theorem shadow_mode {rep : Bool} : (shadow s v g f c rep).rd (R.SLICE_PHYS_MODE v f) = 2 :=
  rd_modGrp.trans ((State.rd_wr_apart _ _ _ _ rfl unit_apart).trans (State.rd_wr_self _ _ _ rfl))

theorem shadow_chan {rep : Bool} (h : 8 * g + c < 64) : (shadow s v g f c rep).rd (R.SLICE_PHYS_CHAN v f) = 8 * g + c :=
  rd_modGrp.trans ((State.rd_wr_self _ _ _ rfl).trans (Nat.mod_eq_of_lt h))

theorem shadow_rot {rep : Bool} (h : g < (s.vat v).groups.length) :
    (getGrp (shadow s v g f c rep) v g).rot = .shadowing f c rep := by
  refine congrArg GrpSt.rot (getGrp_modGrp_self ?_)
  rwa [vat_wr, vat_wr]

theorem handChannel_only : SenseOnly s (handChannel s v g f c)
    (· ∈ [R.SLICE_PHYS_MODE v f, R.SLICE_PHYS_CHAN v f, R.SLICE_STAT_SERVED_BY v (8 * g + c)]) :=
  (((SenseOnly.refl.wr (.of (by simp) rfl)).wr (.of (by simp) rfl)).wr (.of (by simp) rfl)).modGrp

theorem handChannel_groups : ((handChannel s v g f c).vat w).groups.length = (s.vat w).groups.length := by
  refine groups_modGrp.trans ?_
  rw [vat_wr, vat_wr, vat_wr]

theorem handChannel_group (h : g < (s.vat v).groups.length) :
    getGrp (handChannel s v g f c) v g = { getGrp s v g with lastRot := c } := by
  refine (getGrp_modGrp_self (by rwa [vat_wr, vat_wr, vat_wr])).trans ?_
  rw [getGrp_wr, getGrp_wr, getGrp_wr]

/-- What the registers show of the channel's new slice. -/
theorem handChannel_handed (hf : f < 72) (hn : 8 * g + c < 64) :
    (handChannel s v g f c).rd (R.SLICE_PHYS_MODE v f) = 1 ∧ (handChannel s v g f c).rd (R.SLICE_PHYS_CHAN v f) = 8 * g + c
      ∧ (handChannel s v g f c).rd (R.SLICE_STAT_SERVED_BY v (8 * g + c)) = f := by
  refine ⟨rd_modGrp.trans ?_, rd_modGrp.trans ?_, rd_modGrp.trans ?_⟩
  · exact (State.rd_wr_apart _ _ _ _ rfl aside).trans
      ((State.rd_wr_apart _ _ _ _ rfl unit_apart).trans (State.rd_wr_self _ _ _ rfl))
  · exact (State.rd_wr_apart _ _ _ _ rfl aside).trans ((State.rd_wr_self _ _ _ rfl).trans (Nat.mod_eq_of_lt hn))
  · exact (State.rd_wr_self _ _ _ rfl).trans (Nat.mod_eq_of_lt (show f < 2 ^ 7 by omega))

theorem testSlice_only {again : Option Nat} :
    SenseOnly s (testSlice s v g f again) (· ∈ [R.SLICE_PHYS_MODE v f, R.SGRP_ROT_FREE v g]) :=
  ((SenseOnly.refl.wr (.of (by simp) rfl)).wr (.of (by simp) rfl)).modGrp

theorem testSlice_group {again : Option Nat} (h : g < (s.vat v).groups.length) :
    getGrp (testSlice s v g f again) v g = { getGrp s v g with rot := .testing f again } := by
  refine (getGrp_modGrp_self (by rwa [vat_wr, vat_wr])).trans ?_
  rw [getGrp_wr, getGrp_wr]

theorem testSlice_mode {again : Option Nat} (hf : f < 72) (hg : g < 8) :
    (testSlice s v g f again).rd (R.SLICE_PHYS_MODE v f) = 3 :=
  rd_modGrp.trans ((State.rd_wr_apart _ _ _ _ rfl aside).trans (State.rd_wr_self _ _ _ rfl))

theorem testSlice_free {again : Option Nat} (hf : f < 72) : (testSlice s v g f again).rd (R.SGRP_ROT_FREE v g) = f :=
  rd_modGrp.trans ((State.rd_wr_self _ _ _ rfl).trans (Nat.mod_eq_of_lt (show f < 2 ^ 7 by omega)))

theorem SenseOnly.degSet (h : SenseOnly r s W) (hw : W R.OWN_DEG_DEG_CAUSE) : SenseOnly r (degSet s i) W :=
  h.unless fun _ h => (h.wr (.of hw rfl)).event

theorem retireSlice_only : SenseOnly s (retireSlice s v g f)
    (· ∈ [R.SLICE_PHYS_RETIRED v f, R.SLICE_PHYS_MODE v f, R.SGRP_ROT_ROT_STOP v g, R.OWN_DEG_DEG_CAUSE]) :=
  SenseOnly.degSet (((((SenseOnly.refl.set1 (.of (by simp) rfl)).wr (.of (by simp) rfl)).vatEvent).set1 (.of (by simp) rfl)).modGrp)
    (by simp)

theorem apart_deg : Field.apart ⟨v.base + a + i * st, lo, wd⟩ R.OWN_DEG_DEG_CAUSE = true :=
  apart_of_addr (ne_deg unit_ge)

theorem degSet_unit : (degSet s n).rd ⟨v.base + a + i * st, lo, wd⟩ = s.rd ⟨v.base + a + i * st, lo, wd⟩ :=
  ((SenseOnly.refl (W := (· = R.OWN_DEG_DEG_CAUSE))).degSet rfl).unit fun _ hk => hk ▸ apart_deg

/-- A slice that has retired, with the end of the group's rotation (R73). -/
structure SliceRetired (s : State) (v : Vat) (g f : Nat) : Prop where
  retired : s.rd (R.SLICE_PHYS_RETIRED v f) = 1
  mode : s.rd (R.SLICE_PHYS_MODE v f) = 0
  stopped : s.rd (R.SGRP_ROT_ROT_STOP v g) = 1
  idle : (getGrp s v g).rot = .idle
  degraded : s.rdBit R.OWN_DEG_DEG_CAUSE 1 = true

theorem retireSlice_retired (hf : f < 72) (hg : g < 8) (h : g < (s.vat v).groups.length) :
    SliceRetired (retireSlice s v g f) v g f where
  retired := degSet_unit.trans <| rd_modGrp.trans <| (rd_set1_apart rfl aside).trans <| (rd_vatEvent unit_ge).trans <|
    (State.rd_wr_apart _ _ _ _ rfl unit_apart).trans (rd_set1 rfl rfl)
  mode := degSet_unit.trans <| rd_modGrp.trans <| (rd_set1_apart rfl aside).trans <| (rd_vatEvent unit_ge).trans <|
    State.rd_wr_self _ _ _ rfl
  stopped := degSet_unit.trans <| rd_modGrp.trans <| rd_set1 rfl rfl
  idle := by
    refine (congrArg GrpSt.rot (getGrp_of_vat groups_degSet)).trans (congrArg GrpSt.rot (getGrp_modGrp_self ?_))
    rwa [vat_set1, vat_vatEvent, vat_wr, vat_set1]
  degraded := degSet_slice

theorem SliceRetired.settled (h : SliceRetired u v g f) (ho : SenseOnly s u W) (hc : Calm s) (hf : f < 72) (hg : g < 8) :
    (settle u).is (R.SLICE_PHYS_RETIRED v f) = true ∧ (settle u).rd (R.SLICE_PHYS_MODE v f) = 0
      ∧ (settle u).is (R.SGRP_ROT_ROT_STOP v g) = true ∧ (getGrp (settle u) v g).rot = .idle
      ∧ (settle u).rdBit R.OWN_DEG_DEG_CAUSE 1 = true :=
  ⟨is_one ((ho.settled hc (by omega)).trans h.retired), (ho.settled hc (by omega)).trans h.mode,
    is_one ((ho.settled hc (by omega)).trans h.stopped), (congrArg GrpSt.rot (ho.group hc)).trans h.idle,
    settle_slice (ho.calm hc) h.degraded⟩

end RotationOps

/-! ## A rotation step in every vat (R70) -/

section RotationStep

variable {s t : State} {v w : Vat} {g i n a lo wd : Nat} {k : Field}

/-- The step in one vat. -/
def stepIn (g i : Nat) (s : State) (v : Vat) : State :=
  if mayRotate s v g then shadow s v g (s.rd (R.SGRP_ROT_FREE v g)) i false else s

theorem rotationStep_some (hm : mayRotate s w g = true) (hi : nextRotated s (rotationLead s g) g = some i) :
    rotationStep s w g = forVats s (stepIn g i) := by
  unfold rotationStep
  rw [if_pos hm, hi]
  rfl

theorem rotationStep_none (h : mayRotate s w g = false ∨ nextRotated s (rotationLead s g) g = none) : rotationStep s w g = s := by
  have hn : (if mayRotate s w g then nextRotated s (rotationLead s g) g else none) = none := by
    rcases h with h | h <;> simp [h]
  unfold rotationStep
  rw [hn]

theorem nextRotated_lt (h : nextRotated s v g = some i) : i < 8 := by
  have hm := List.mem_of_find?_eq_some h
  obtain ⟨j, -, rfl⟩ := List.mem_map.mp hm
  exact Nat.mod_lt _ (by decide)

/-- The fields that the step writes: those of the two vats' free slices. -/
def shadowFields (s : State) (g : Nat) : List Field :=
  [Vat.A, Vat.B].flatMap (fun v =>
    [R.SLICE_PHYS_MODE v (s.rd (R.SGRP_ROT_FREE v g)), R.SLICE_PHYS_CHAN v (s.rd (R.SGRP_ROT_FREE v g))])

theorem mem_shadowFields (hk : k ∈ [R.SLICE_PHYS_MODE v (s.rd (R.SGRP_ROT_FREE v g)), R.SLICE_PHYS_CHAN v (s.rd (R.SGRP_ROT_FREE v g))]) :
    k ∈ shadowFields s g :=
  List.mem_flatMap.mpr ⟨v, by cases v <;> simp, hk⟩

/-- A group's register lies apart from the register that shows what a slice does. -/
theorem apart_phys (ha : a % 0x20 ≠ 8 := by decide) (hk : k.addr = R.SLICE_PHYS w n) :
    Field.apart ⟨v.base + a + g * 0x20, lo, wd⟩ k = true := by
  refine apart_of_addr fun e => ha ?_
  have e : v.base + a + g * 0x20 = R.SLICE_PHYS w n := e.trans hk
  cases v <;> cases w <;> simp only [R.SLICE_PHYS, Vat.base] at e <;> omega

theorem apart_shadowFields (ha : a % 0x20 ≠ 8 := by decide) :
    ∀ k ∈ shadowFields s n, Field.apart ⟨v.base + a + g * 0x20, lo, wd⟩ k = true := by
  intro k hk
  obtain ⟨w, -, hk⟩ := List.mem_flatMap.mp hk
  simp only [List.mem_cons, List.not_mem_nil, or_false] at hk
  rcases hk with rfl | rfl <;> exact apart_phys ha rfl

theorem stepIn_only : SenseOnly s (stepIn g i s w) (· ∈ shadowFields s g) :=
  SenseOnly.refl.when fun _ _ => shadow_only.weaken fun _ => mem_shadowFields

theorem shadowFields_congr (h : SenseOnly s t (· ∈ shadowFields s g)) : shadowFields t g = shadowFields s g := by
  have free (v : Vat) : t.rd (R.SGRP_ROT_FREE v g) = s.rd (R.SGRP_ROT_FREE v g) := h.unit apart_shadowFields
  simp only [shadowFields, free]

theorem stepIn_after (h : SenseOnly s t (· ∈ shadowFields s g)) : SenseOnly s (stepIn g i t w) (· ∈ shadowFields s g) :=
  h.trans (stepIn_only.weaken fun _ hk => shadowFields_congr h ▸ hk)

theorem mayRotate_congr (h : SenseOnly s t (· ∈ shadowFields s g)) (hg : (t.vat v).groups = (s.vat v).groups) :
    mayRotate t v g = mayRotate s v g := by
  have en : t.is (R.SGRP_ROT_ROT_EN v g) = s.is (R.SGRP_ROT_ROT_EN v g) := is_of_rd (h.unit apart_shadowFields)
  have stop : t.is (R.SGRP_ROT_ROT_STOP v g) = s.is (R.SGRP_ROT_ROT_STOP v g) := is_of_rd (h.unit apart_shadowFields)
  have lost : t.is (R.SGRP_STAT_CLKLOSS v g) = s.is (R.SGRP_STAT_CLKLOSS v g) := is_of_rd (h.unit apart_shadowFields)
  simp only [mayRotate, h.live, en, stop, lost, getGrp_of_vat hg]

theorem stepIn_other (h : w ≠ v) : ((stepIn g i s w).vat v).groups = (s.vat v).groups := by
  unfold stepIn
  split
  · exact congrArg VatSt.groups ((modVat_other h).trans (vat_wr.trans vat_wr))
  · rfl

theorem forVats_keep {P : State → Prop} {k : State → Vat → State} (h : P s) (hk : ∀ t w, P t → P (k t w)) : P (forVats s k) :=
  List.foldlRecOn s.vats k h fun t ht w _ => hk t w ht

theorem steps_only : SenseOnly s (forVats s (stepIn g i)) (· ∈ shadowFields s g) :=
  forVats_keep (P := fun t => SenseOnly s t (· ∈ shadowFields s g)) .refl fun _ _ h => stepIn_after h

/-- Where no step may begin, the group goes on as it was. -/
theorem steps_idle (hm : mayRotate s v g = false) : ((forVats s (stepIn g i)).vat v).groups = (s.vat v).groups := by
  refine (forVats_keep (P := fun t => SenseOnly s t (· ∈ shadowFields s g) ∧ (t.vat v).groups = (s.vat v).groups) ⟨.refl, rfl⟩
    fun t w ⟨ho, hg⟩ => ⟨stepIn_after ho, ?_⟩).2
  by_cases e : w = v
  · subst e
    have hn : mayRotate t w g = false := (mayRotate_congr ho hg).trans hm
    rwa [stepIn, if_neg (by simp [hn])]
  · exact (stepIn_other e).trans hg

/-- The step in vat `v`. -/
structure Shadowed (s t : State) (v : Vat) (g f i : Nat) : Prop where
  rot : (getGrp t v g).rot = .shadowing f i false
  mode : t.rd (R.SLICE_PHYS_MODE v f) = 2
  chan : t.rd (R.SLICE_PHYS_CHAN v f) = 8 * g + i

theorem steps_shadow (hf : Fits s) (hg : g < 8) (hi : i < 8) (hm : mayRotate s v g = true) :
    Shadowed s (forVats s (stepIn g i)) v g (s.rd (R.SGRP_ROT_FREE v g)) i := by
  have hl : s.vatLive v = true := by
    simp only [mayRotate, Bool.and_eq_true] at hm
    exact hm.1.1.1.1
  have hlen : (s.vat v).groups.length = 8 := by
    obtain ⟨-, -, -, -, h, -⟩ := vatFits_iff.mp (hf.vat (v := v))
    exact h
  have hn : s.rd (R.SGRP_ROT_FREE v g) < 128 := State.rd_lt s _
  refine forVats_reach (P := fun t => SenseOnly s t (· ∈ shadowFields s g) ∧ (t.vat v).groups = (s.vat v).groups)
    (Q := fun t => Shadowed s t v g (s.rd (R.SGRP_ROT_FREE v g)) i) hl ⟨.refl, rfl⟩
    (fun t w hw ⟨ho, hv⟩ => ⟨stepIn_after ho, (stepIn_other hw).trans hv⟩) (fun t ⟨ho, hv⟩ => ?_) (fun t w hw h => ?_)
  · have hr : t.rd (R.SGRP_ROT_FREE v g) = s.rd (R.SGRP_ROT_FREE v g) := ho.unit apart_shadowFields
    rw [stepIn, if_pos ((mayRotate_congr ho hv).trans hm), hr]
    exact ⟨shadow_rot (by rw [hv, hlen]; exact hg), shadow_mode, shadow_chan (by omega)⟩
  · have keep {a lo wd : Nat} (ha : a < 0x04100040) : (stepIn g i t w).rd ⟨v.base + a + s.rd (R.SGRP_ROT_FREE v g) * 0x40, lo, wd⟩
        = t.rd ⟨v.base + a + s.rd (R.SGRP_ROT_FREE v g) * 0x40, lo, wd⟩ := by
      unfold stepIn
      split
      · have hw' : t.rd (R.SGRP_ROT_FREE w g) < 128 := State.rd_lt t _
        refine shadow_only.unit ?_
        exact apart_cons (apart_of_addr (place_ne (by omega) (by omega) (.inl (Ne.symm hw))))
          (apart_cons (apart_of_addr (place_ne (by omega) (by omega) (.inl (Ne.symm hw)))) apart_nil)
      · rfl
    exact ⟨(congrArg GrpSt.rot (getGrp_of_vat (stepIn_other hw))).trans h.rot, (keep (by decide)).trans h.mode,
      (keep (by decide)).trans h.chan⟩

theorem rotationStep_answers {g : Fin 8} (hc : Calm s) (hf : Fits s) (hm : mayRotate s w g = true)
    (hi : nextRotated s (rotationLead s g) g = some i) :
    Answers (.rotationStep w g) s (fun t => (∀ v : Vat, mayRotate s v g = true → s.rd (R.SGRP_ROT_FREE v g) < 72 →
        (getGrp t v g).rot = .shadowing (s.rd (R.SGRP_ROT_FREE v g)) i false
        ∧ t.rd (R.SLICE_PHYS_MODE v (s.rd (R.SGRP_ROT_FREE v g))) = 2
        ∧ t.rd (R.SLICE_PHYS_CHAN v (s.rd (R.SGRP_ROT_FREE v g))) = 8 * g + i)
      ∧ (∀ v : Vat, mayRotate s v g = false → (getGrp t v g).rot = (getGrp s v g).rot)
      ∧ Frame s t (shadowFields s g)) := by
  refine ⟨_, rfl, ?_⟩
  rw [rotationStep_some hm hi]
  have only := steps_only (s := s) (g := g) (i := i)
  refine ⟨fun v hv hn => ?_, fun v hv => ?_, only.frame hc⟩
  · have h := steps_shadow hf g.isLt (nextRotated_lt hi) hv
    exact ⟨(congrArg GrpSt.rot (only.group hc)).trans h.rot, (only.settled hc (by omega)).trans h.mode,
      (only.settled hc (by omega)).trans h.chan⟩
  · exact congrArg GrpSt.rot ((only.group hc).trans (getGrp_of_vat (steps_idle hv)))

theorem rotationStep_idle {g : Fin 8} (hc : Calm s) (h : mayRotate s w g = false ∨ nextRotated s (rotationLead s g) g = none) :
    Answers (.rotationStep w g) s (fun t => CycleOnly s t) := by
  refine ⟨_, rfl, ?_⟩
  rw [rotationStep_none h]
  exact settle_cycle hc

end RotationStep

/-! ## Comparison and test (R70-R73) -/

section CompareTest

variable {s : State} {v : Vat} {g c : Fin 8} {f o : Fin 72} {rep : Bool}

theorem rot_placed {rot : RotPhase} (h : (getGrp s v g).rot = rot) (hn : rot ≠ .idle) : g.val < (s.vat v).groups.length :=
  group_placed fun e => hn (h ▸ e ▸ rfl)

/-- A mismatch of the two slices is noted (R71). -/
def flagMismatch (s : State) (v : Vat) (g : Nat) : State := (s.set1 (R.SGRP_ROT_MISM_F v g)).vatEvent v uSENSE 0x0701 g

theorem flagMismatch_only : SenseOnly s (flagMismatch s v g) (· ∈ [R.SGRP_ROT_MISM_F v g]) :=
  (SenseOnly.refl.set1 (.of (by simp) rfl)).vatEvent

theorem flagMismatch_flag : (flagMismatch s v g).rd (R.SGRP_ROT_MISM_F v g) = 1 := (rd_vatEvent unit_ge).trans (rd_set1 rfl rfl)

theorem vat_flagMismatch : (flagMismatch s v g).vat v = s.vat v := vat_vatEvent.trans vat_set1

/-- A passed test counts, and shows no failure (R72). -/
def notePass (s : State) (v : Vat) (f : Nat) : State := (s.incSat (R.SLICE_PHYS_TPASS v f)).clr (R.SLICE_PHYS_TFAIL v f)

theorem notePass_only : SenseOnly s (notePass s v f) (· ∈ [R.SLICE_PHYS_TPASS v f, R.SLICE_PHYS_TFAIL v f]) :=
  (SenseOnly.refl.incSat (.of (by simp) rfl)).clr (.of (by simp) rfl)

theorem notePass_count : (notePass s v f).rd (R.SLICE_PHYS_TPASS v f) = min (s.rd (R.SLICE_PHYS_TPASS v f) + 1) 255 := by
  refine (State.rd_wr_apart _ _ _ _ rfl unit_apart).trans ((State.rd_wr_self _ _ _ rfl).trans (Nat.mod_eq_of_lt ?_))
  exact Nat.lt_of_le_of_lt (Nat.min_le_right _ _) (show 255 < 2 ^ 8 by decide)

theorem notePass_fail : (notePass s v f).rd (R.SLICE_PHYS_TFAIL v f) = 0 := State.rd_wr_self _ _ _ rfl

theorem vat_notePass : (notePass s v f).vat v = s.vat v := vat_wr.trans vat_wr

/-- A slice whose test has passed is free, and the step has counted (R72). -/
def freeTested (s : State) (v : Vat) (g f : Nat) : State :=
  modGrp ((s.wr (R.SLICE_PHYS_MODE v f) 0).incWrap (R.SGRP_ROT_STEPS v g)) v g (fun x => { x with rot := .idle })

theorem freeTested_only : SenseOnly s (freeTested s v g f) (· ∈ [R.SLICE_PHYS_MODE v f, R.SGRP_ROT_STEPS v g]) :=
  ((SenseOnly.refl.wr (.of (by simp) rfl)).incWrap (.of (by simp) rfl)).modGrp

theorem rotationCompare_same (hr : (getGrp s v g).rot = .shadowing f c rep) (ho : s.rd (R.SLICE_STAT_SERVED_BY v (8 * g + c)) = o) :
    rotationCompare s v g true = testSlice (handChannel s v g f c) v g o none := by
  simp only [rotationCompare, hr, ho, if_true]

theorem rotationCompare_first (hr : (getGrp s v g).rot = .shadowing f c false) :
    rotationCompare s v g false = testSlice (modGrp (flagMismatch s v g) v g fun x => { x with lastRot := c }) v g f (some c.val) := by
  simp only [rotationCompare, hr, if_neg Bool.false_ne_true, flagMismatch]

theorem rotationCompare_second (hr : (getGrp s v g).rot = .shadowing f c true)
    (ho : s.rd (R.SLICE_STAT_SERVED_BY v (8 * g + c)) = o) :
    rotationCompare s v g false = retireSlice (handChannel (flagMismatch s v g) v g f c) v g o := by
  simp only [rotationCompare, hr, ho, if_neg Bool.false_ne_true, if_true, flagMismatch]

theorem sliceTested_freed (hr : (getGrp s v g).rot = .testing f none) : sliceTested s v g true = freeTested (notePass s v f) v g f := by
  simp only [sliceTested, hr, if_true, notePass, freeTested]

theorem sliceTested_again (hr : (getGrp s v g).rot = .testing f (some c.val)) :
    sliceTested s v g true = shadow (notePass s v f) v g f c true := by
  simp only [sliceTested, hr, if_true, notePass]

theorem sliceTested_failed {again : Option Nat} (hr : (getGrp s v g).rot = .testing f again) :
    sliceTested s v g false = retireSlice (s.set1 (R.SLICE_PHYS_TFAIL v f)) v g f := by
  simp only [sliceTested, hr, if_neg Bool.false_ne_true]

theorem rotationCompare_match (hc : Calm s) (hl : s.vatLive v = true) (hr : (getGrp s v g).rot = .shadowing f c rep)
    (ho : s.rd (R.SLICE_STAT_SERVED_BY v (8 * g + c)) = o) (hne : f ≠ o) :
    Answers (.rotationCompare v g true) s (fun t => t.rd (R.SLICE_STAT_SERVED_BY v (8 * g + c)) = f
      ∧ t.rd (R.SLICE_PHYS_MODE v f) = 1 ∧ t.rd (R.SLICE_PHYS_CHAN v f) = 8 * g + c ∧ t.rd (R.SLICE_PHYS_MODE v o) = 3
      ∧ t.rd (R.SGRP_ROT_FREE v g) = o ∧ (getGrp t v g).rot = .testing o none ∧ (getGrp t v g).lastRot = c
      ∧ Frame s t [R.SLICE_STAT_SERVED_BY v (8 * g + c), whole (R.SLICE_PHYS v f), whole (R.SLICE_PHYS v o), R.SGRP_ROT_FREE v g]) := by
  have hg := g.isLt
  have hcl := c.isLt
  have hfl := f.isLt
  have hol := o.isLt
  have hfo : f.val ≠ o.val := fun e => hne (Fin.ext e)
  have hp : g.val < (s.vat v).groups.length := rot_placed hr nofun
  refine ⟨_, rfl, ?_⟩
  rw [if_pos hl, rotationCompare_same hr ho]
  have only : SenseOnly s (testSlice (handChannel s v g f c) v g o none)
      (· ∈ [R.SLICE_STAT_SERVED_BY v (8 * g + c), whole (R.SLICE_PHYS v f), whole (R.SLICE_PHYS v o), R.SGRP_ROT_FREE v g]) := by
    refine (handChannel_only.mono ?_).trans (testSlice_only.mono ?_)
    · simp only [List.forall_mem_cons, List.not_mem_nil, false_implies, implies_true, and_true]
      exact ⟨.part (by simp [R.SLICE_PHYS_MODE]) rfl, .part (by simp [R.SLICE_PHYS_CHAN]) rfl, .of (by simp) rfl⟩
    · simp only [List.forall_mem_cons, List.not_mem_nil, false_implies, implies_true, and_true]
      exact ⟨.part (by simp [R.SLICE_PHYS_MODE]) rfl, .of (by simp) rfl⟩
  have handed := handChannel_handed (s := s) (v := v) (g := g) (f := f) (c := c) hfl (by omega)
  obtain ⟨mode, chan, served⟩ := handed
  have test := testSlice_only (s := handChannel s v g f c) (v := v) (g := g) (f := o) (again := none)
  have grp := testSlice_group (s := handChannel s v g f c) (f := o) (again := none) (handChannel_groups.symm ▸ hp)
  rw [handChannel_group hp] at grp
  refine ⟨?_, ?_, ?_, (only.settled hc (by omega)).trans (testSlice_mode hol hg),
    (only.settled hc (by omega)).trans (testSlice_free hol), congrArg GrpSt.rot ((only.group hc).trans grp),
    congrArg GrpSt.lastRot ((only.group hc).trans grp), only.frame hc⟩
  · exact (only.settled hc (by omega)).trans ((test.unit (apart_cons aside (apart_cons aside apart_nil))).trans served)
  · exact (only.settled hc (by omega)).trans ((test.unit (apart_cons aside (apart_cons aside apart_nil))).trans mode)
  · exact (only.settled hc (by omega)).trans ((test.unit (apart_cons aside (apart_cons aside apart_nil))).trans chan)

theorem rotationCompare_mismatch (hc : Calm s) (hl : s.vatLive v = true) (hr : (getGrp s v g).rot = .shadowing f c false) :
    Answers (.rotationCompare v g false) s (fun t => t.is (R.SGRP_ROT_MISM_F v g) = true ∧ t.rd (R.SLICE_PHYS_MODE v f) = 3
      ∧ (getGrp t v g).rot = .testing f (some c)
      ∧ Frame s t [R.SGRP_ROT_MISM_F v g, R.SLICE_PHYS_MODE v f, R.SGRP_ROT_FREE v g]) := by
  have hg := g.isLt
  have hfl := f.isLt
  have hp : g.val < (s.vat v).groups.length := rot_placed hr nofun
  refine ⟨_, rfl, ?_⟩
  rw [if_pos hl, rotationCompare_first hr]
  have noted : SenseOnly s (modGrp (flagMismatch s v g) v g fun x => { x with lastRot := c })
      (· ∈ [R.SGRP_ROT_MISM_F v g, R.SLICE_PHYS_MODE v f, R.SGRP_ROT_FREE v g]) :=
    (flagMismatch_only.weaken fun _ hk => List.mem_append_left _ hk).modGrp
  have only := noted.trans
    ((testSlice_only (v := v) (g := g) (f := f) (again := some c.val)).weaken fun _ hk => List.mem_cons_of_mem _ hk)
  have grp := testSlice_group (s := modGrp (flagMismatch s v g) v g fun x => { x with lastRot := c }) (f := f) (again := some c.val)
    (by rwa [groups_modGrp, vat_flagMismatch])
  refine ⟨is_one ((only.settled hc (by omega)).trans ?_), (only.settled hc (by omega)).trans (testSlice_mode hfl hg),
    (congrArg GrpSt.rot ((only.group hc).trans grp)), only.frame hc⟩
  exact (testSlice_only.unit (apart_cons aside (apart_cons unit_apart apart_nil))).trans (rd_modGrp.trans flagMismatch_flag)

theorem rotationCompare_retire (hc : Calm s) (hl : s.vatLive v = true) (hr : (getGrp s v g).rot = .shadowing f c true)
    (ho : s.rd (R.SLICE_STAT_SERVED_BY v (8 * g + c)) = o) :
    Answers (.rotationCompare v g false) s (fun t => t.is (R.SLICE_PHYS_RETIRED v o) = true ∧ t.rd (R.SLICE_PHYS_MODE v o) = 0
      ∧ t.rd (R.SLICE_STAT_SERVED_BY v (8 * g + c)) = f ∧ t.is (R.SGRP_ROT_ROT_STOP v g) = true
      ∧ t.is (R.SGRP_ROT_MISM_F v g) = true ∧ (getGrp t v g).rot = .idle ∧ t.rdBit R.OWN_DEG_DEG_CAUSE 1 = true) := by
  have hg := g.isLt
  have hcl := c.isLt
  have hfl := f.isLt
  have hol := o.isLt
  have hp : g.val < (s.vat v).groups.length := rot_placed hr nofun
  refine ⟨_, rfl, ?_⟩
  rw [if_pos hl, rotationCompare_second hr ho]
  have only : SenseOnly s (retireSlice (handChannel (flagMismatch s v g) v g f c) v g o) (fun _ => True) :=
    (flagMismatch_only.any.trans handChannel_only.any).trans retireSlice_only.any
  have retired := retireSlice_retired (s := handChannel (flagMismatch s v g) v g f c) hol hg
    (by rwa [handChannel_groups, vat_flagMismatch])
  obtain ⟨-, -, served⟩ := handChannel_handed (s := flagMismatch s v g) (v := v) (g := g) (f := f) (c := c) hfl (by omega)
  obtain ⟨gone, mode, stop, idle, deg⟩ := retired.settled only hc hol hg
  refine ⟨gone, mode, (only.settled hc (by omega)).trans ?_, stop, is_one ((only.settled hc (by omega)).trans ?_), idle, deg⟩
  · exact (retireSlice_only.unit
      (apart_cons aside (apart_cons aside (apart_cons aside (apart_cons apart_deg apart_nil))))).trans served
  · refine (retireSlice_only.unit ?_).trans ((handChannel_only.unit ?_).trans flagMismatch_flag)
    · exact apart_cons aside (apart_cons aside (apart_cons unit_apart (apart_cons apart_deg apart_nil)))
    · exact apart_cons aside (apart_cons aside (apart_cons aside apart_nil))

theorem sliceTest_freed (hc : Calm s) (hl : s.vatLive v = true) (hr : (getGrp s v g).rot = .testing f none) :
    Answers (.sliceTestComplete v g true) s (fun t => t.rd (R.SLICE_PHYS_TPASS v f) = min (s.rd (R.SLICE_PHYS_TPASS v f) + 1) 255
      ∧ t.is (R.SLICE_PHYS_TFAIL v f) = false ∧ t.rd (R.SLICE_PHYS_MODE v f) = 0 ∧ (getGrp t v g).rot = .idle
      ∧ t.rd (R.SGRP_ROT_STEPS v g) = (s.rd (R.SGRP_ROT_STEPS v g) + 1) % 65536
      ∧ Frame s t [R.SLICE_PHYS_TPASS v f, R.SLICE_PHYS_TFAIL v f, R.SLICE_PHYS_MODE v f, R.SGRP_ROT_STEPS v g]) := by
  have hg := g.isLt
  have hfl := f.isLt
  have hp : g.val < (s.vat v).groups.length := rot_placed hr nofun
  refine ⟨_, rfl, ?_⟩
  rw [if_pos hl, sliceTested_freed hr]
  have freed := freeTested_only (s := notePass s v f) (v := v) (g := g) (f := f)
  have only : SenseOnly s (freeTested (notePass s v f) v g f) (· ∈ [R.SLICE_PHYS_TPASS v f, R.SLICE_PHYS_TFAIL v f, R.SLICE_PHYS_MODE v f, R.SGRP_ROT_STEPS v g]) :=
    (notePass_only.weaken fun _ hk => List.mem_append_left _ hk).trans (freed.weaken fun _ hk => List.mem_append_right _ hk)
  have rot : (getGrp (freeTested (notePass s v f) v g f) v g).rot = .idle :=
    congrArg GrpSt.rot (getGrp_modGrp_self (by rwa [State.incWrap, vat_wr, vat_wr, vat_notePass]))
  refine ⟨?_, is_zero ?_, ?_, (congrArg GrpSt.rot (only.group hc)).trans rot, ?_, only.frame hc⟩
  · exact (only.settled hc (by omega)).trans ((freed.unit (apart_cons unit_apart (apart_cons aside apart_nil))).trans notePass_count)
  · exact (only.settled hc (by omega)).trans ((freed.unit (apart_cons unit_apart (apart_cons aside apart_nil))).trans notePass_fail)
  · exact (only.settled hc (by omega)).trans (rd_modGrp.trans
      ((State.rd_wr_apart _ _ _ _ rfl aside).trans (State.rd_wr_self _ _ _ rfl)))
  · have steps : ((notePass s v f).wr (R.SLICE_PHYS_MODE v f) 0).rd (R.SGRP_ROT_STEPS v g) = s.rd (R.SGRP_ROT_STEPS v g) :=
      (State.rd_wr_apart _ _ _ _ rfl aside).trans (notePass_only.unit (apart_cons aside (apart_cons aside apart_nil)))
    refine (only.settled hc (by omega)).trans (rd_modGrp.trans ((State.rd_wr_self _ _ _ rfl).trans ?_))
    rw [steps]
    rfl

theorem sliceTest_again (hc : Calm s) (hl : s.vatLive v = true) (hr : (getGrp s v g).rot = .testing f (some c)) :
    Answers (.sliceTestComplete v g true) s (fun t => t.rd (R.SLICE_PHYS_TPASS v f) = min (s.rd (R.SLICE_PHYS_TPASS v f) + 1) 255
      ∧ t.rd (R.SLICE_PHYS_MODE v f) = 2 ∧ t.rd (R.SLICE_PHYS_CHAN v f) = 8 * g + c ∧ (getGrp t v g).rot = .shadowing f c true) := by
  have hg := g.isLt
  have hcl := c.isLt
  have hfl := f.isLt
  have hp : g.val < (s.vat v).groups.length := rot_placed hr nofun
  refine ⟨_, rfl, ?_⟩
  rw [if_pos hl, sliceTested_again hr]
  have shadowed := shadow_only (s := notePass s v f) (v := v) (g := g) (f := f) (c := c) (rep := true)
  have only : SenseOnly s (shadow (notePass s v f) v g f c true) (fun _ => True) := notePass_only.any.trans shadowed.any
  refine ⟨?_, (only.settled hc (by omega)).trans shadow_mode, (only.settled hc (by omega)).trans (shadow_chan (by omega)),
    (congrArg GrpSt.rot (only.group hc)).trans (shadow_rot (by rwa [vat_notePass]))⟩
  exact (only.settled hc (by omega)).trans
    ((shadowed.unit (apart_cons unit_apart (apart_cons unit_apart apart_nil))).trans notePass_count)

theorem sliceTest_failed {again : Option Nat} (hc : Calm s) (hl : s.vatLive v = true) (hr : (getGrp s v g).rot = .testing f again) :
    Answers (.sliceTestComplete v g false) s (fun t => t.is (R.SLICE_PHYS_TFAIL v f) = true ∧ t.is (R.SLICE_PHYS_RETIRED v f) = true
      ∧ t.rd (R.SLICE_PHYS_MODE v f) = 0 ∧ t.is (R.SGRP_ROT_ROT_STOP v g) = true ∧ (getGrp t v g).rot = .idle
      ∧ t.rdBit R.OWN_DEG_DEG_CAUSE 1 = true) := by
  have hg := g.isLt
  have hfl := f.isLt
  have hp : g.val < (s.vat v).groups.length := rot_placed hr nofun
  refine ⟨_, rfl, ?_⟩
  rw [if_pos hl, sliceTested_failed hr]
  have only : SenseOnly s (retireSlice (s.set1 (R.SLICE_PHYS_TFAIL v f)) v g f) (fun _ => True) :=
    (SenseOnly.refl.set1 (.of trivial rfl)).trans retireSlice_only.any
  have retired := retireSlice_retired (s := s.set1 (R.SLICE_PHYS_TFAIL v f)) (v := v) (g := g) (f := f) hfl hg (by rwa [vat_set1])
  refine ⟨is_one ((only.settled hc (by omega)).trans ?_), retired.settled only hc hfl hg⟩
  exact (retireSlice_only.unit
    (apart_cons unit_apart (apart_cons unit_apart (apart_cons aside (apart_cons apart_deg apart_nil))))).trans (rd_set1 rfl rfl)

/-- Settles O35: a step shadows in each vat on its own registers (`steps_shadow`), a comparison hands the channel over
(`handChannel_handed`), tests (`testSlice_group`) or retires (`retireSlice_retired`), and so does the test's end. -/
theorem slicesRotate : Obligations.SlicesRotate :=
  ⟨fun _ _ _ _ hc hf hm hi => rotationStep_answers hc hf hm hi,
    fun _ _ _ hc h => rotationStep_idle hc h,
    fun _ _ _ _ _ _ _ hc hl hr ho hne => rotationCompare_match hc hl hr ho hne,
    fun _ _ _ _ _ hc hl hr => rotationCompare_mismatch hc hl hr,
    fun _ _ _ _ _ _ hc hl hr ho _ => rotationCompare_retire hc hl hr ho,
    fun _ _ _ _ hc hl hr => sliceTest_freed hc hl hr,
    fun _ _ _ _ _ hc hl hr => sliceTest_again hc hl hr,
    fun _ _ _ _ _ hc hl hr => sliceTest_failed hc hl hr⟩

end CompareTest

end Sys2Proof.Machine

namespace Sys2Proof.Machine

open Sys2Proof

/-! ## Two's complement, loops and channels -/

section SampleBasics

variable {s t : State} {v w : Vat} {n m : Nat} {f : Field}

theorem signedOf_unsignedOf_16 {x : Int} (lo : -(2 ^ 15) ≤ x) (hi : x < 2 ^ 15) : signedOf 16 (unsignedOf 16 x % 2 ^ 16) = x := by
  simp only [signedOf, unsignedOf, Nat.reducePow, Nat.reduceSub, Nat.cast_ofNat]
  omega

theorem signedOf_unsignedOf_24 {x : Int} (lo : -(2 ^ 23) ≤ x) (hi : x < 2 ^ 23) : signedOf 24 (unsignedOf 24 x % 2 ^ 24) = x := by
  simp only [signedOf, unsignedOf, Nat.reducePow, Nat.reduceSub, Nat.cast_ofNat]
  omega

theorem clampInt_bounds {lo hi x : Int} (h : lo ≤ hi) : lo ≤ clampInt lo hi x ∧ clampInt lo hi x ≤ hi := by
  unfold clampInt
  split
  · omega
  · split <;> omega

theorem forN_keep {P : State → Prop} {k : State → Nat → State} (h : P s) (hk : ∀ t i, i < n → P t → P (k t i)) : P (forN n s k) :=
  List.foldlRecOn (List.range n) k h fun t ht i hi => hk t i (List.mem_range.mp hi) ht

theorem forN_idle {k : State → Nat → State} (h : ∀ t i, k t i = t) : forN n s k = s :=
  forN_keep (P := (· = s)) rfl fun t i _ e => (h t i).trans e

/-- What the change gives every channel, and a channel as at reset has. -/
theorem getChan_modChan {Q : ChanSt → Prop} {k : ChanSt → ChanSt} (hd : Q {}) (hk : ∀ c, Q (k c)) :
    Q (getChan (modChan s v n k) v n) := by
  have e : getChan (modChan s v n k) v n = nth (modNth (s.vat v).chans n k) n {} := by
    unfold getChan modChan
    rw [State.vat_modVat_self]
  rw [e]
  by_cases hn : n < (s.vat v).chans.length
  · rw [nth_modNth_self hn]
    exact hk _
  · rwa [show nth (modNth (s.vat v).chans n k) n {} = {} from List.getD_eq_default _ _ (by rw [length_modNth]; omega)]

theorem getChan_modChan_other (h : w ≠ v ∨ m ≠ n) {k : ChanSt → ChanSt} : getChan (modChan s w m k) v n = getChan s v n := by
  by_cases e : w = v
  · subst e
    unfold getChan modChan
    rw [State.vat_modVat_self]
    exact nth_modNth_other (h.resolve_left (· rfl))
  · exact getChan_of_vat (congrArg VatSt.chans (modVat_other e))

end SampleBasics

/-! ## An output of a slice (R55, R57, R61, R67) -/

section Outputs

variable {r s t : State} {W : Field → Prop} {v : Vat} {n : Nat}

/-- What an output writes beside the sample and its number. -/
def outputFlags (v : Vat) (n : Nat) : List Field :=
  [R.SLICE_DATA_SUPP v n, R.SLICE_DATA_FROZEN v n, R.SLICE_DATA_VALID v n, whole (R.SLICE_STAT v n)]

theorem covered_flag {f : Field} (h : f ∈ outputFlags v n) (hf : f.fits = true) : Covered f (· ∈ outputFlags v n) := .of h hf

theorem covered_status {f : Field} (h : f.addr = R.SLICE_STAT v n) (hf : f.fits = true) : Covered f (· ∈ outputFlags v n) :=
  .part (by simp [outputFlags, h]) hf

theorem SenseOnly.takeMonitor (h : SenseOnly r s (· ∈ outputFlags v n)) : SenseOnly r (takeMonitor s v n) (· ∈ outputFlags v n) := by
  have frozen : Covered (R.SLICE_DATA_FROZEN v n) (· ∈ outputFlags v n) := covered_flag (by simp [outputFlags]) rfl
  refine h.unless fun _ h => ?_
  refine SenseOnly.ite ?_ (h.modChan.clr frozen)
  exact h.modChan.unless fun _ h => (h.set1 frozen).vatFlagEdge (covered_status rfl rfl)

theorem SenseOnly.settleOutput (h : SenseOnly r s (· ∈ outputFlags v n)) :
    SenseOnly r (settleOutput s v n) (· ∈ outputFlags v n) := by
  refine h.unless fun _ h => SenseOnly.ite ?_ (h.clr (covered_flag (by simp [outputFlags]) rfl))
  exact (h.wr (covered_status rfl rfl)).when fun _ h => h.takeMonitor

theorem SenseOnly.tryFreeze (h : SenseOnly r s (· ∈ outputFlags v n)) : SenseOnly r (tryFreeze s v n) (· ∈ outputFlags v n) :=
  h.when fun _ h => (((h.set1 (covered_flag (by simp [outputFlags]) rfl)).vatFlagEdge (covered_status rfl rfl)).refreshValid
    (covered_flag (by simp [outputFlags]) rfl)).modChan

theorem SenseOnly.freezeSample (h : SenseOnly r s (· ∈ outputFlags v n)) {x : Int} :
    SenseOnly r (freezeSample s v n x) (· ∈ outputFlags v n) :=
  h.unless fun _ h => SenseOnly.ite h.modChan.tryFreeze
    (((h.clr (covered_flag (by simp [outputFlags]) rfl)).refreshValid (covered_flag (by simp [outputFlags]) rfl)).modChan)

theorem SenseOnly.calSample (h : SenseOnly r s W) {x : Int} : SenseOnly r (calSample s v n x) W := .ite h.modChan h.modChan

/-- The sample and its number. -/
def noteSample (s : State) (v : Vat) (n : Nat) (x : Int) : State :=
  (s.wr (R.SLICE_DATA_SAMPLE v n) (unsignedOf 24 x)).incWrap (R.SLICE_SEQ_SEQ v n)

theorem noteSample_only {x : Int} : SenseOnly s (noteSample s v n x) (· ∈ chanFields v n) :=
  (SenseOnly.refl.wr (covered_data rfl rfl)).incWrap covered_seq

theorem takeSample_noted {x : Int} {sat : Bool} :
    SenseOnly (noteSample s v n x) (takeSample s v n x sat) (· ∈ outputFlags v n) := by
  unfold takeSample
  extract_lets supp a b c d e
  have hb : SenseOnly (noteSample s v n x) b (· ∈ outputFlags v n) := SenseOnly.refl.when fun _ h => h.settleOutput
  have hc : SenseOnly (noteSample s v n x) c (· ∈ outputFlags v n) := hb.when fun _ h => h.vatFlag (covered_status rfl rfl)
  have hd : SenseOnly (noteSample s v n x) d (· ∈ outputFlags v n) := hc.unless fun _ h => h.freezeSample
  exact (hd.refreshValid (covered_flag (by simp [outputFlags]) rfl)).when fun _ h => h.calSample

theorem noteSample_sample {x : Int} (lo : -(2 ^ 23) ≤ x) (hi : x < 2 ^ 23) :
    (noteSample s v n x).signedRd (R.SLICE_DATA_SAMPLE v n) = x :=
  (congrArg (signedOf 24) ((State.rd_wr_apart _ _ _ _ rfl unit_apart).trans (State.rd_wr_self _ _ _ rfl))).trans
    (signedOf_unsignedOf_24 lo hi)

theorem noteSample_seq {x : Int} : (noteSample s v n x).rd (R.SLICE_SEQ_SEQ v n) = (s.rd (R.SLICE_SEQ_SEQ v n) + 1) % 65536 :=
  (State.rd_wr_self _ _ _ rfl).trans (congrArg (fun k => (k + 1) % 65536) (State.rd_wr_apart _ (R.SLICE_SEQ_SEQ v n) _ _ rfl unit_apart))

theorem sliceOutput_eq {bits : BitVec 256} : sliceOutput s v n bits =
    takeSample (modChan s v n fun _ => (cicPeriod (getChan s v n) bits (chanOsr s v n) (s.is (R.SLICE_CFG_INV v n))).1) v n
      (outputSample s v n bits).1 (outputSample s v n bits).2 := rfl

theorem outputSample_bounds {bits : BitVec 256} :
    -(2 ^ 23) ≤ (outputSample s v n bits).1 ∧ (outputSample s v n bits).1 ≤ 2 ^ 23 - 1 := clampInt_bounds (by decide)

theorem sliceOutput_only {bits : BitVec 256} : SenseOnly s (sliceOutput s v n bits) (· ∈ chanFields v n) := by
  refine ((SenseOnly.refl.modChan.trans noteSample_only).trans (takeSample_noted.mono ?_))
  simp only [outputFlags, List.forall_mem_cons, List.not_mem_nil, false_implies, implies_true, and_true]
  exact ⟨covered_data rfl rfl, covered_data rfl rfl, covered_data rfl rfl, covered_stat rfl rfl⟩

theorem outputFlags_apart : (∀ k ∈ outputFlags v n, (R.SLICE_DATA_SAMPLE v n).apart k = true)
    ∧ ∀ k ∈ outputFlags v n, (R.SLICE_SEQ_SEQ v n).apart k = true :=
  ⟨apart_cons unit_apart (apart_cons unit_apart (apart_cons unit_apart (apart_cons unit_apart apart_nil))),
    apart_cons unit_apart (apart_cons unit_apart (apart_cons unit_apart (apart_cons unit_apart apart_nil)))⟩

theorem sliceOutput_sample {bits : BitVec 256} :
    (sliceOutput s v n bits).signedRd (R.SLICE_DATA_SAMPLE v n) = (outputSample s v n bits).1 := by
  have hb := outputSample_bounds (s := s) (v := v) (n := n) (bits := bits)
  rw [sliceOutput_eq]
  exact (congrArg (signedOf 24) (takeSample_noted.unit outputFlags_apart.1)).trans (noteSample_sample hb.1 (by omega))

theorem sliceOutput_seq {bits : BitVec 256} :
    (sliceOutput s v n bits).rd (R.SLICE_SEQ_SEQ v n) = (s.rd (R.SLICE_SEQ_SEQ v n) + 1) % 65536 := by
  rw [sliceOutput_eq]
  exact (takeSample_noted.unit outputFlags_apart.2).trans (noteSample_seq.trans (by rw [rd_modChan]))

end Outputs

/-! ## An arrival sample leaves the sense path (R97)

An arrival reaches the ports' guards, where it can end in a fault pattern, and the engines; it writes no slice's register. -/

section Arrival

variable {r s t : State} {f : Field} {v : Vat} {n p c k x : Nat}

/-- The registers of vat `v`'s slices. -/
def SliceReg (v : Vat) (x : Nat) : Prop := v.base + 0x04100000 ≤ x ∧ x < v.base + 0x04101000

abbrev SliceKept (v : Vat) (r s : State) : Prop := Aside (SliceReg v) r s

theorem SliceReg.free (h : SliceReg v f.addr) : cycleFree f = true := by
  obtain ⟨lo, hi⟩ := h
  exact sense_free lo (by omega)

theorem Aside.cycle (h : SliceKept v r s) (hc : CycleOnly s t) : SliceKept v r t :=
  h.trans ⟨fun _ hx => State.get_eq_of_rd (hc.rd _ (SliceReg.free hx)), congrArg (·.rst.sysAfterSto) hc.rest⟩

theorem log_out : ¬ SliceReg v R.LOG_STAT := by
  have := base_ge v
  have : R.LOG_STAT < 0x50000000 := by decide
  unfold SliceReg
  omega

theorem port_out {a lo wd : Nat} (hp : p < 8) (ha : a < 0x04000400 := by decide) :
    ¬ SliceReg v (⟨v.base + a + p * 0x400, lo, wd⟩ : Field).addr := by
  unfold SliceReg
  dsimp only
  omega

theorem engine_out (h : v.base + 0x04300000 ≤ x) : ¬ SliceReg v x := by
  unfold SliceReg
  omega

theorem Aside.enterFaultPattern (h : SliceKept v r s) (hp : p < 8) : SliceKept v r (enterFaultPattern s v p x) :=
  h.cycle (enterUnitPattern_cycle (.refl s) v hp _)

theorem Aside.currentLoss (h : SliceKept v r s) (hp : p < 8) : SliceKept v r (currentLoss s v p) := by
  refine Aside.enterFaultPattern (h.vatFlagEdge log_out ?_) hp
  split <;> exact port_out hp

theorem Aside.voltageLoss (h : SliceKept v r s) (hp : p < 8) : SliceKept v r (voltageLoss s v p) := by
  unfold Machine.voltageLoss
  split
  · exact (h.vatFlagEdge log_out (port_out hp)).enterFaultPattern hp
  · split
    · exact (h.vatFlagEdge log_out (port_out hp)).enterFaultPattern hp
    · split
      · exact h
      · exact (((h.set1 (port_out hp)).vatFlagEdge log_out (port_out hp)).wr (port_out hp)).modVat

theorem Aside.guardArrival (h : SliceKept v r s) (hp : p < 8) {ok : Bool} : SliceKept v r (guardArrival s v p n ok) :=
  h.unless fun h => h.modVat.unless fun h => Aside.unless (h.when (·.modVat)) fun h =>
    Aside.ite (h.currentLoss hp) (h.when (·.voltageLoss hp))

theorem Aside.wrEngine (h : SliceKept v r s) (hf : v.base + 0x04300000 ≤ f.addr := by
    repeat (first | exact Nat.add_le_add_left (by decide) _ | apply Nat.le_add_right_of_le)) : SliceKept v r (s.wr f x) :=
  h.wr (engine_out hf)

theorem Aside.set1Engine (h : SliceKept v r s) (hf : v.base + 0x04300000 ≤ f.addr := by
    repeat (first | exact Nat.add_le_add_left (by decide) _ | apply Nat.le_add_right_of_le)) : SliceKept v r (s.set1 f) :=
  h.set1 (engine_out hf)

theorem Aside.modSlot (h : SliceKept v r s) {y : GraphSt → GraphSt} : SliceKept v r (modSlot s v c k y) := by
  unfold Machine.modSlot modEng
  exact h.modVat

theorem Aside.refreshWhey (h : SliceKept v r s) : SliceKept v r (refreshWhey s v c k) := by
  unfold Machine.refreshWhey
  extract_lets g a e b
  have hb : SliceKept v r b := h.wrEngine.wrEngine
  clear_value b e
  split
  · exact hb.set1Engine.wrEngine.set1Engine
  · exact hb.wrEngine.wrEngine.wrEngine

theorem Aside.schedule (h : SliceKept v r s) : SliceKept v r (schedule s v c) := by
  unfold Machine.schedule
  split
  · exact h
  · refine Aside.wrEngine ?_
    split
    · exact h
    · split
      · exact h
      · exact h.modSlot.refreshWhey

theorem Aside.judgeEntry (h : SliceKept v r s) {e : EvalSt} {q : Nat × PredDef} : SliceKept v r (judgeEntry s v c k e q) := by
  unfold Machine.judgeEntry
  extract_lets i a
  have ha : SliceKept v r a := h.wrEngine
  split
  · exact ha.wrEngine.wrEngine.set1Engine
  · exact ha.wrEngine.wrEngine.wrEngine

theorem Aside.verdict (h : SliceKept v r s) {q : EvalSt → Bool} : SliceKept v r (verdict s v c k q) := by
  unfold Machine.verdict
  extract_lets g
  split
  · exact h
  · next e _ =>
    split
    · have judged : SliceKept v r ((entries g).foldl (fun s p => Machine.judgeEntry s v c k e p) s) := h.foldl (·.judgeEntry)
      exact Aside.schedule (Aside.refreshWhey (Aside.ite judged.wrEngine.modSlot judged.modSlot))
    · exact h.modSlot.refreshWhey.schedule

theorem Aside.arrive (h : SliceKept v r s) (hp : p < 8) {y : Int} {ok : Bool} : SliceKept v r (arrive s v p n y ok) := by
  unfold Machine.arrive
  extract_lets a
  have ha : SliceKept v r a := h.guardArrival hp
  split
  · exact ha
  · exact Aside.ite ha.modSlot (ha.unless fun h => Aside.ite h.modSlot.verdict h.modSlot.schedule)

end Arrival

end Sys2Proof.Machine

namespace Sys2Proof.Machine

open Sys2Proof

/-! ## What the boundary of the calibration window writes (R74, R75) -/

section Calibration

variable {s t u : State} {v w : Vat} {n m x : Nat} {f k : Field} {W : Field → Prop}

/-- A slice's own round of the boundary, and a vat's. -/
def calSlice (s : State) (v : Vat) (n : Nat) : State := if s.is (R.SLICE_CAL_GCAL_EN v n) then calWindow s v n else s

def calVat (s : State) (v : Vat) : State := if s.vatLive v then forN 64 s (fun s n => calSlice s v n) else s

theorem execGcalWindow_eq : execGcalWindow s = .next (settle (beginWindow (forVats s calVat))) := rfl

/-- A field of a register that holds a gain correction. -/
def GcalField (k : Field) : Prop := k.addr % 0x40 = 0x1c

/-- One of another slice's. -/
def OtherGcal (v : Vat) (n : Nat) (k : Field) : Prop := GcalField k ∧ k.addr ≠ R.SLICE_GCAL v n

theorem base_mod (v : Vat) : v.base % 0x40 = 0 := by cases v <;> rfl

theorem gcalField {lo wd : Nat} : GcalField ⟨R.SLICE_GCAL w m, lo, wd⟩ := by
  have := base_mod w
  simp only [GcalField, R.SLICE_GCAL]
  omega

theorem otherGcal {lo wd : Nat} (h : w ≠ v ∨ m ≠ n) (hn : n < 64) (hm : m < 64) : OtherGcal v n ⟨R.SLICE_GCAL w m, lo, wd⟩ :=
  ⟨gcalField, place_ne (by omega) (by omega) (h.imp id (by omega))⟩

theorem OtherGcal.apart (h : OtherGcal v n k) {lo wd : Nat} : Field.apart ⟨R.SLICE_GCAL v n, lo, wd⟩ k = true :=
  apart_of_addr fun e => h.2 e.symm

theorem calWindow_only : SenseOnly s (calWindow s v n) (· ∈ [R.SLICE_GCAL_GCAL v n, R.SLICE_GCAL_AT_LIMIT v n]) :=
  SenseOnly.modChan (SenseOnly.refl.unless fun _ h => SenseOnly.ite
    (((h.wr (.of (by simp) rfl)).wr (.of (by simp) rfl)).vatEvent) ((h.wr (.of (by simp) rfl)).wr (.of (by simp) rfl)))

theorem calSlice_only (hw : ∀ {lo wd}, W ⟨R.SLICE_GCAL v n, lo, wd⟩) : SenseOnly s (calSlice s v n) W :=
  SenseOnly.refl.when fun _ _ => calWindow_only.weaken fun _ hk => by
    simp only [List.mem_cons, List.not_mem_nil, or_false] at hk
    rcases hk with rfl | rfl <;> exact hw

theorem calVat_only (hw : ∀ {n lo wd}, n < 64 → W ⟨R.SLICE_GCAL v n, lo, wd⟩) : SenseOnly s (calVat s v) W := by
  unfold calVat
  split
  · exact forN_keep (P := fun t => SenseOnly s t W) .refl fun t n hn h => h.trans (calSlice_only (hw hn))
  · exact .refl

/-- Whatever the round does, the next window has taken nothing (R74). -/
theorem calWindow_emptied : (getChan (calWindow s v n) v n).num = 0 ∧ (getChan (calWindow s v n) v n).sumSq = 0 :=
  getChan_modChan (Q := fun c => c.num = 0 ∧ c.sumSq = 0) ⟨rfl, rfl⟩ fun _ => ⟨rfl, rfl⟩

theorem calWindow_chan (h : w ≠ v ∨ m ≠ n) : getChan (calWindow s w m) v n = getChan s v n := by
  refine (getChan_modChan_other h).trans ?_
  split
  · rfl
  · dsimp only
    split
    · rw [getChan_vatEvent, getChan_wr, getChan_wr]
    · rw [getChan_wr, getChan_wr]

theorem calSlice_chan (h : w ≠ v ∨ m ≠ n) : getChan (calSlice s w m) v n = getChan s v n := by
  unfold calSlice
  split
  · exact calWindow_chan h
  · rfl

theorem calVat_chan (h : w ≠ v) : getChan (calVat s w) v n = getChan s v n := by
  unfold calVat
  split
  · exact forN_keep (P := fun t => getChan t v n = getChan s v n) rfl fun t _ _ e => (calSlice_chan (.inl h)).trans e
  · rfl

/-! ### The conditions of R74 under other slices' rounds -/

theorem SenseOnly.besideGcal (h : SenseOnly s t GcalField) (hf : f.addr % 0x40 ≠ 0x1c) (ha : 0x50000000 ≤ f.addr) :
    t.rd f = s.rd f :=
  h.rd f (apart_log ha).1 (apart_log ha).2 fun _ hk => apart_of_addr fun e => hf (e ▸ hk)

/-- A vat's field beside the gain corrections. -/
theorem SenseOnly.unitBeside (h : SenseOnly s t GcalField) {a lo wd : Nat} (hf : (v.base + a + x) % 0x40 ≠ 0x1c) :
    t.rd ⟨v.base + a + x, lo, wd⟩ = s.rd ⟨v.base + a + x, lo, wd⟩ := by
  have := base_ge v
  exact h.besideGcal hf (show _ ≤ v.base + a + x by omega)

theorem gridConsumed_congr (h : SenseOnly s t GcalField) {b : Bool} : gridConsumed t v n b = gridConsumed s v n b := by
  have hb := base_mod v
  have type (p : Nat) : t.rd (R.PORT_CFG_TYPE v p) = s.rd (R.PORT_CFG_TYPE v p) := h.unitBeside (by omega)
  have state (p : Nat) : t.rd (R.PORT_STATE_STATE v p) = s.rd (R.PORT_STATE_STATE v p) := h.unitBeside (by omega)
  have bound (i j : Nat) : t.is (R.GS_BIND_BOUND v i j) = s.is (R.GS_BIND_BOUND v i j) := is_of_rd <| by
    have := base_ge v
    exact h.besideGcal (show (v.base + 0x04300100 + i * 0x1000 + j * 0x20) % 0x40 ≠ 0x1c by omega)
      (show _ ≤ v.base + 0x04300100 + i * 0x1000 + j * 0x20 by omega)
  have port (i j : Nat) : t.rd (R.GS_BIND_PORT v i j) = s.rd (R.GS_BIND_PORT v i j) := by
    have := base_ge v
    exact h.besideGcal (show (v.base + 0x04300100 + i * 0x1000 + j * 0x20) % 0x40 ≠ 0x1c by omega)
      (show _ ≤ v.base + 0x04300100 + i * 0x1000 + j * 0x20 by omega)
  have ports : (t.vat v).ports = (s.vat v).ports := 
    show (senseVat (t.vat v)).ports = (senseVat (s.vat v)).ports from congrArg VatSt.ports h.senseVat
  have engines : (t.vat v).engines = (s.vat v).engines := 
    show (senseVat (t.vat v)).engines = (senseVat (s.vat v)).engines from congrArg VatSt.engines h.senseVat
  simp only [gridConsumed, gridPort, portState, getPort, portGraph, getSlot, getEng, type, state, bound, port, ports, engines]

theorem inst_beside (h : SenseOnly s t GcalField) (i : Nat) : t.is (R.R_INST_VALID i) = s.is (R.R_INST_VALID i) :=
  is_of_rd (h.besideGcal (show (0x70000088 + i * 0x10) % 0x40 ≠ 0x1c by omega) (show _ ≤ 0x70000088 + i * 0x10 by omega))

theorem rindIn_beside (h : SenseOnly s t GcalField) (i : Nat) : t.regs.get (R.R_IN i) = s.regs.get (R.R_IN i) :=
  State.get_eq_of_rd (h.besideGcal (show (0x70000080 + i * 0x10) % 0x40 ≠ 0x1c by omega) (show _ ≤ 0x70000080 + i * 0x10 by omega))

theorem calActive_congr (h : SenseOnly s t GcalField) {b : Bool} : calActive t v n b = calActive s v n b := by
  have hb := base_mod v
  have chan : t.rd (R.SLICE_CAL_MTR_CH v n) = s.rd (R.SLICE_CAL_MTR_CH v n) := h.unitBeside (by omega)
  have enabled : t.is (R.SLICE_CAL_GCAL_EN v n) = s.is (R.SLICE_CAL_GCAL_EN v n) := is_of_rd (h.unitBeside (by omega))
  have valid : t.is (R.SLICE_DATA_VALID v n) = s.is (R.SLICE_DATA_VALID v n) := is_of_rd (h.unitBeside (by omega))
  simp only [calActive, chanValid, chan, enabled, valid, gridConsumed_congr h, inst_beside h, h.part State.variant, h.part State.rind]

/-! ### One channel's round -/

/-- The channel's window is full, spans the conditions of R74, and is loud enough. -/
structure WindowGood (s : State) (v : Vat) (n : Nat) : Prop where
  live : s.vatLive v = true
  enabled : s.is (R.SLICE_CAL_GCAL_EN v n) = true
  active : calActive s v n true = true
  clean : (getChan s v n).winBad = false
  filled : (getChan s v n).num ≠ 0
  loud : F32.lt (windowRms (getChan s v n)) (F32.ofNat (s.rd (R.SLICE_CAL_MINLVL v n))) = false

/-- The gain correction that the window asks for, within its limits (R75). -/
def corrected (s : State) (v : Vat) (n : Nat) : Int :=
  clampInt (-5243) 5243 (s.signedRd (R.SLICE_GCAL_GCAL v n)
    + calStep (F32.mul (windowRms (getChan s v n)) (F32.ofScaled 1 (-15)))
      (s.regs.get (R.R_IN (s.rd (R.SLICE_CAL_MTR_CH v n)))) (s.regs.get (R.SLICE_RATIO v n)) (s.rd (R.SLICE_CAL_TAU v n)))

theorem calSlice_corrected (h : WindowGood s v n) : (calSlice s v n).signedRd (R.SLICE_GCAL_GCAL v n) = corrected s v n := by
  have hb : -5243 ≤ corrected s v n ∧ corrected s v n ≤ 5243 := clampInt_bounds (by decide)
  have rd : (calSlice s v n).rd (R.SLICE_GCAL_GCAL v n) = unsignedOf 16 (corrected s v n) % 2 ^ 16 := by
    rw [calSlice, if_pos h.enabled]
    unfold calWindow
    extract_lets ch rms s'
    refine rd_modChan.trans ?_
    have go : ¬ (!calActive s v n true || ch.winBad || decide (ch.num = 0)
        || F32.lt rms (F32.ofNat (s.rd (R.SLICE_CAL_MINLVL v n)))) = true := by
      simp [h.active, ch, rms, h.clean, h.filled, h.loud]
    have limit {b : Nat} : ((s.wr (R.SLICE_GCAL_GCAL v n) (unsignedOf 16 (corrected s v n))).wr (R.SLICE_GCAL_AT_LIMIT v n) b).rd
        (R.SLICE_GCAL_GCAL v n) = unsignedOf 16 (corrected s v n) % 2 ^ 16 :=
      (State.rd_wr_apart _ _ _ _ rfl unit_apart).trans (State.rd_wr_self _ _ _ rfl)
    refine (congrArg (State.rd · (R.SLICE_GCAL_GCAL v n)) (if_neg go)).trans ?_
    split
    · exact (rd_vatEvent unit_ge).trans limit
    · exact limit
  exact (congrArg (signedOf 16) rd).trans (signedOf_unsignedOf_16 (by omega) (by omega))

theorem calSlice_blocked (h : s.is (R.SLICE_CAL_GCAL_EN v n) = false ∨ calActive s v n true = false
    ∨ (getChan s v n).winBad = true ∨ (getChan s v n).num = 0) : (calSlice s v n).rd k = s.rd k := by
  unfold calSlice
  split
  · next he =>
    refine rd_modChan.trans ?_
    rw [if_pos]
    rcases h with h | h | h | h
    · exact absurd he (by simp [h])
    all_goals simp [h]
  · rfl

/-! ### The boundary -/

/-- The slice's round is still to come, and finds what stood before the boundary. -/
structure RoundAhead (s t : State) (v : Vat) (n : Nat) : Prop where
  only : SenseOnly s t (OtherGcal v n)
  chan : getChan t v n = getChan s v n

theorem RoundAhead.other (h : RoundAhead s t v n) (hn : n < 64) (hm : m < 64) (ho : w ≠ v ∨ m ≠ n) : RoundAhead s (calSlice t w m) v n :=
  ⟨h.only.trans (calSlice_only (otherGcal ho hn hm)), (calSlice_chan ho).trans h.chan⟩

theorem RoundAhead.otherVat (h : RoundAhead s t v n) (hn : n < 64) (hw : w ≠ v) : RoundAhead s (calVat t w) v n :=
  ⟨h.only.trans (calVat_only fun hm => otherGcal (.inl hw) hn hm), (calVat_chan hw).trans h.chan⟩

theorem RoundAhead.gcal (h : RoundAhead s t v n) : SenseOnly s t GcalField := h.only.weaken fun _ => And.left

theorem RoundAhead.good (h : RoundAhead s t v n) (hg : WindowGood s v n) : WindowGood t v n where
  live := h.only.live.trans hg.live
  enabled := (is_of_rd (h.gcal.unitBeside (by have := base_mod v; omega))).trans hg.enabled
  active := (calActive_congr h.gcal).trans hg.active
  clean := h.chan ▸ hg.clean
  filled := h.chan ▸ hg.filled
  loud := by
    have level : t.rd (R.SLICE_CAL_MINLVL v n) = s.rd (R.SLICE_CAL_MINLVL v n) :=
      h.gcal.unitBeside (by have := base_mod v; omega)
    rw [h.chan, level]
    exact hg.loud

theorem RoundAhead.corrected (h : RoundAhead s t v n) : corrected t v n = corrected s v n := by
  have hb := base_mod v
  have gcal : t.signedRd (R.SLICE_GCAL_GCAL v n) = s.signedRd (R.SLICE_GCAL_GCAL v n) :=
    congrArg (signedOf 16) (h.only.unit fun _ hk => hk.apart)
  have chan : t.rd (R.SLICE_CAL_MTR_CH v n) = s.rd (R.SLICE_CAL_MTR_CH v n) := h.gcal.unitBeside (by omega)
  have tau : t.rd (R.SLICE_CAL_TAU v n) = s.rd (R.SLICE_CAL_TAU v n) := h.gcal.unitBeside (by omega)
  have ratio : t.regs.get (R.SLICE_RATIO v n) = s.regs.get (R.SLICE_RATIO v n) :=
    State.get_eq_of_rd (h.gcal.unitBeside (by omega))
  simp only [Machine.corrected, h.chan, gcal, chan, tau, ratio, rindIn_beside h.gcal]

/-- The slice's round has moved GCAL to `g` and emptied the window. -/
structure RoundDone (t : State) (v : Vat) (n : Nat) (g : Int) : Prop where
  gain : t.signedRd (R.SLICE_GCAL_GCAL v n) = g
  num : (getChan t v n).num = 0
  sum : (getChan t v n).sumSq = 0

theorem RoundDone.keep {g : Int} (h : RoundDone t v n g) (ho : SenseOnly t u (OtherGcal v n)) (hc : getChan u v n = getChan t v n) :
    RoundDone u v n g :=
  ⟨(congrArg (signedOf 16) (ho.unit fun _ hk => hk.apart)).trans h.gain, (congrArg ChanSt.num hc).trans h.num,
    (congrArg ChanSt.sumSq hc).trans h.sum⟩

theorem calSlice_done (h : RoundAhead s t v n) (hg : WindowGood s v n) : RoundDone (calSlice t v n) v n (corrected s v n) := by
  have emptied : (getChan (calSlice t v n) v n).num = 0 ∧ (getChan (calSlice t v n) v n).sumSq = 0 := by
    rw [calSlice, if_pos (h.good hg).enabled]
    exact calWindow_emptied
  exact ⟨(calSlice_corrected (h.good hg)).trans h.corrected, emptied.1, emptied.2⟩

theorem calVats_done (hn : n < 64) (hg : WindowGood s v n) : RoundDone (forVats s calVat) v n (corrected s v n) := by
  refine forVats_reach (P := fun t => RoundAhead s t v n) (Q := fun t => RoundDone t v n (corrected s v n)) hg.live ⟨.refl, rfl⟩
    (fun t w hw h => h.otherVat hn hw) (fun t h => ?_)
    (fun t w hw h => h.keep (calVat_only fun hm => otherGcal (.inl hw) hn hm) (calVat_chan hw))
  rw [calVat, if_pos (h.good hg).live]
  exact forN_reach (P := fun t => RoundAhead s t v n) (Q := fun t => RoundDone t v n (corrected s v n)) hn h
    (fun t m hm hne h => h.other hn hm (.inr hne)) (fun t h => calSlice_done h hg)
    (fun t m hm hne h => h.keep (calSlice_only (otherGcal (.inr hne) hn hm)) (calSlice_chan (.inr hne)))

/-- The slice's window is not full, or its round is over: GCAL stands, either way. -/
structure RoundIdle (s t : State) (v : Vat) (n : Nat) : Prop where
  only : SenseOnly s t (OtherGcal v n)
  chan : getChan t v n = getChan s v n ∨ (getChan t v n).num = 0

theorem RoundIdle.slice (h : RoundIdle s t v n) (hn : n < 64) (hm : m < 64)
    (hb : s.is (R.SLICE_CAL_GCAL_EN v n) = false ∨ calActive s v n true = false ∨ (getChan s v n).winBad = true) :
    RoundIdle s (calSlice t v m) v n := by
  by_cases e : m = n
  · subst e
    have gcal : SenseOnly s t GcalField := h.only.weaken fun _ => And.left
    have enabled : t.is (R.SLICE_CAL_GCAL_EN v m) = s.is (R.SLICE_CAL_GCAL_EN v m) :=
      is_of_rd (gcal.unitBeside (by have := base_mod v; omega))
    have blocked : t.is (R.SLICE_CAL_GCAL_EN v m) = false ∨ calActive t v m true = false ∨ (getChan t v m).winBad = true
        ∨ (getChan t v m).num = 0 := by
      rcases h.chan with hc | hc
      · rw [enabled, calActive_congr gcal, hc]
        tauto
      · exact .inr (.inr (.inr hc))
    have only := calSlice_only (s := t) (W := fun _ => True) (v := v) (n := m) trivial
    refine ⟨h.only.trans ⟨fun _ _ _ _ => calSlice_blocked blocked, only.rest⟩, ?_⟩
    unfold calSlice
    split
    · exact .inr calWindow_emptied.1
    · exact h.chan
  · exact ⟨h.only.trans (calSlice_only (otherGcal (.inr e) hn hm)), (calSlice_chan (.inr e)).symm ▸ h.chan⟩

theorem calVats_idle (hn : n < 64) (hb : s.vatLive v = false ∨ s.is (R.SLICE_CAL_GCAL_EN v n) = false
    ∨ calActive s v n true = false ∨ (getChan s v n).winBad = true) : RoundIdle s (forVats s calVat) v n := by
  refine forVats_keep (P := fun t => RoundIdle s t v n) ⟨.refl, .inl rfl⟩ fun t w h => ?_
  by_cases e : w = v
  · subst e
    unfold calVat
    split
    · next hl =>
      have live : s.vatLive w = true := h.only.live.symm.trans hl
      exact forN_keep (P := fun t => RoundIdle s t w n) h fun t m hm h => h.slice hn hm (hb.resolve_left (by simp [live]))
    · exact h
  · exact ⟨h.only.trans (calVat_only fun hm => otherGcal (.inl e) hn hm), (calVat_chan e).symm ▸ h.chan⟩

/-! ### The next window -/

theorem beginWindow_keeps : (beginWindow s).regs = s.regs ∧ (beginWindow s).rst = s.rst ∧ ∀ v, ((beginWindow s).vat v).chans = (s.vat v).chans := by
  have port (t : State) (w : Vat) (p : Nat) (h : PortSt → PortSt) :
      (modPort t w p h).regs = t.regs ∧ (modPort t w p h).rst = t.rst ∧ ∀ v, ((modPort t w p h).vat v).chans = (t.vat v).chans := by
    refine ⟨State.setVat_regs .., by cases w <;> rfl, fun v => ?_⟩
    cases v <;> cases w <;> rfl
  refine forVats_keep (P := fun t => t.regs = s.regs ∧ t.rst = s.rst ∧ ∀ v, (t.vat v).chans = (s.vat v).chans)
    ⟨rfl, rfl, fun v => by cases v <;> rfl⟩ fun t w h => ?_
  refine forN_keep (P := fun t => t.regs = s.regs ∧ t.rst = s.rst ∧ ∀ v, (t.vat v).chans = (s.vat v).chans) h fun t p _ h => ?_
  obtain ⟨regs, rst, chans⟩ := port t w p fun q => { q with ranWindow := portState t w p == RUN }
  exact ⟨regs.trans h.1, rst.trans h.2.1, fun v => (chans v).trans (h.2.2 v)⟩

theorem calVats_calm (hc : Calm s) : Calm (beginWindow (forVats s calVat)) := by
  have only : SenseOnly s (forVats s calVat) (fun _ => True) :=
    forVats_keep (P := fun t => SenseOnly s t (fun _ => True)) .refl fun t _ h => h.trans (calVat_only fun _ => trivial)
  exact (congrArg ResetSt.sysAfterSto beginWindow_keeps.2.1).trans (only.calm hc)

theorem gcalWindow_rd (hc : Calm s) {lo wd : Nat} (hn : n < 64) :
    (settle (beginWindow (forVats s calVat))).rd ⟨R.SLICE_GCAL v n, lo, wd⟩ = (forVats s calVat).rd ⟨R.SLICE_GCAL v n, lo, wd⟩ := by
  refine (settle_rd (calVats_calm hc) _ (unit_free (by omega))).trans ?_
  exact congrArg (fun x => getBits (x.get (R.SLICE_GCAL v n)) lo wd) beginWindow_keeps.1

theorem gcalWindow_chan (hc : Calm s) : getChan (settle (beginWindow (forVats s calVat))) v n = getChan (forVats s calVat) v n :=
  (getChan_of_vat (settle_vat_chans (calVats_calm hc) v)).trans (getChan_of_vat (beginWindow_keeps.2.2 v))

theorem gcalWindow_answers {n : Fin 64} (hc : Calm s) (hg : WindowGood s v n) :
    Answers .gcalWindow s (fun t => t.signedRd (R.SLICE_GCAL_GCAL v n) = corrected s v n
      ∧ (getChan t v n).num = 0 ∧ (getChan t v n).sumSq = 0) := by
  have done := calVats_done n.isLt hg
  refine ⟨_, execGcalWindow_eq, (congrArg (signedOf 16) (gcalWindow_rd hc n.isLt)).trans done.gain, ?_⟩
  rw [gcalWindow_chan hc]
  exact ⟨done.num, done.sum⟩

theorem gcalWindow_idle {n : Fin 64} (hc : Calm s) (hb : s.vatLive v = false ∨ s.is (R.SLICE_CAL_GCAL_EN v n) = false
    ∨ calActive s v n true = false ∨ (getChan s v n).winBad = true) :
    Answers .gcalWindow s (fun t => t.rd (whole (R.SLICE_GCAL v n)) = s.rd (whole (R.SLICE_GCAL v n))) :=
  ⟨_, execGcalWindow_eq, (gcalWindow_rd hc n.isLt).trans ((calVats_idle n.isLt hb).only.unit fun _ hk => hk.apart)⟩

end Calibration

/-! ## The outputs of a slice, with their arrivals -/

section SampleAnswers

variable {s : State} {v : Vat} {n : Fin 64} {bits : BitVec 256} {arr : BitVec 8}

/-- The ports that the output's arrival reaches. -/
def arriveAll (s : State) (v : Vat) (n arr : Nat) : State :=
  forN 8 s (fun s p => if bitOf arr p then arrive s v p n (chanQ15 s v n) (chanValid s v n) else s)

theorem arriveAll_kept {n arr : Nat} : SliceKept v s (arriveAll s v n arr) :=
  forN_keep (P := fun t => SliceKept v s t) .refl fun _ _ hp h => h.when (·.arrive hp)

theorem arriveAll_none {n : Nat} : arriveAll s v n 0 = s :=
  forN_idle fun t p => if_neg (by simp [bitOf])

theorem execSliceOutput_eq (hl : s.vatLive v = true) (hp : s.is (R.SLICE_CFG_PRESET v n) = true)
    (hk : s.is (R.SGRP_STAT_CLKLOSS v (n / 8)) = false) :
    execSliceOutput v n bits arr s = .next (settle (arriveAll (sliceOutput s v n bits) v n arr.toNat)) := by
  rw [execSliceOutput, if_pos (by simp [hl, hp, hk])]
  rfl

theorem sliceOutput_answers (hc : Calm s) (hl : s.vatLive v = true) (hp : s.is (R.SLICE_CFG_PRESET v n) = true)
    (hk : s.is (R.SGRP_STAT_CLKLOSS v (n / 8)) = false) :
    Answers (.sliceOutput v n bits arr) s (fun t => t.signedRd (R.SLICE_DATA_SAMPLE v n) = (outputSample s v n bits).1
      ∧ t.rd (R.SLICE_SEQ_SEQ v n) = (s.rd (R.SLICE_SEQ_SEQ v n) + 1) % 65536
      ∧ (arr = 0 → Frame s t (chanFields v n))) := by
  have hn := n.isLt
  have only := sliceOutput_only (s := s) (v := v) (n := n) (bits := bits)
  have kept := arriveAll_kept (s := sliceOutput s v n bits) (v := v) (n := n) (arr := arr.toNat)
  have shown {a lo wd : Nat} (ha : 0x04100000 ≤ a ∧ a < 0x04100040) :
      (settle (arriveAll (sliceOutput s v n bits) v n arr.toNat)).rd ⟨v.base + a + n * 0x40, lo, wd⟩
        = (sliceOutput s v n bits).rd ⟨v.base + a + n * 0x40, lo, wd⟩ :=
    (settle_rd (kept.calm (only.calm hc)) _ (unit_free (by omega) ha.1)).trans
      (kept.rd ⟨show _ ≤ v.base + a + n * 0x40 by omega, show v.base + a + n * 0x40 < _ by omega⟩)
  refine ⟨_, execSliceOutput_eq hl hp hk, (congrArg (signedOf 24) (shown (by decide))).trans sliceOutput_sample,
    (shown (by decide)).trans sliceOutput_seq, ?_⟩
  rintro rfl
  rw [show (0 : BitVec 8).toNat = 0 from rfl, arriveAll_none]
  exact only.frame hc

theorem sliceOutput_idle (hc : Calm s) (h : s.vatLive v = false ∨ s.is (R.SLICE_CFG_PRESET v n) = false
    ∨ s.is (R.SGRP_STAT_CLKLOSS v (n / 8)) = true) :
    Answers (.sliceOutput v n bits arr) s (fun t => CycleOnly s t) := by
  refine ⟨_, rfl, ?_⟩
  rw [if_neg (by rcases h with h | h | h <;> simp [h])]
  exact settle_cycle hc

/-- Settles O32: the sample and its number enter before the flags (`takeSample_noted`), arrivals write no slice's register
(`arriveAll_kept`), and each channel's round of the window's boundary leaves the other channels' conditions (`RoundAhead`). -/
theorem samplesTaken : Obligations.SamplesTaken :=
  ⟨fun _ _ _ _ _ hc hl hp hk => sliceOutput_answers hc hl hp hk,
    fun _ _ _ _ _ hc h => sliceOutput_idle hc h,
    fun _ _ _ hc hl he ha hb hn hr => gcalWindow_answers hc ⟨hl, he, ha, hb, hn, hr⟩,
    fun _ _ _ hc h => gcalWindow_idle hc h⟩

end SampleAnswers

end Sys2Proof.Machine

namespace Sys2Proof.Machine

open Sys2Proof

/-! # Auxiliary links (O36)

An operation of a link writes registers, which is `SenseOnly` of what it names, or changes the link, which is `modAux`. -/

section AuxLink

variable {s t u : State} {W : Field → Prop} {f : Field} {fs : List Field} {v : Vat} {k j n : Nat} {g g' : AuxSt → AuxSt}

/-! ## A link outside its registers -/

@[simp] theorem rd_modAux : (modAux s v k g).rd f = s.rd f := State.rd_modVat ..

@[simp] theorem is_modAux : (modAux s v k g).is f = s.is f := is_of_rd rd_modAux

theorem modAux_calm (hc : Calm s) : Calm (modAux s v k g) := (congrArg ResetSt.sysAfterSto (State.modVat_rst s v _)).trans hc

theorem getAux_of_vat (h : (t.vat v).aux = (s.vat v).aux) : getAux t v k = getAux s v k := by rw [getAux, getAux, h]

theorem getAux_modAux (hk : k < (s.vat v).aux.length) : getAux (modAux s v k g) v k = g (getAux s v k) := by
  rw [getAux, modAux, State.vat_modVat_self]
  exact nth_modNth_self hk

theorem aux_length_modAux : ((modAux s v k g).vat v).aux.length = (s.vat v).aux.length := by
  rw [modAux, State.vat_modVat_self]
  exact length_modNth ..

/-- A link that is not as at reset has its place in the list. -/
theorem aux_placed (h : getAux s v k ≠ {}) : k < (s.vat v).aux.length := by
  by_contra hn
  exact h (List.getD_eq_default _ _ (not_lt.mp hn))

theorem aux_placed_of_cur (h : (getAux s v k).cur ≠ none) : k < (s.vat v).aux.length := aux_placed fun e => h (e ▸ rfl)

theorem aux_placed_of_skip (h : (getAux s v k).skip = true) : k < (s.vat v).aux.length :=
  aux_placed fun e => absurd (e ▸ h) (by decide)

theorem modAux_id : modAux s v k id = s := by
  cases v <;> simp [modAux, State.modVat, State.setVat, State.vat, modNth]

theorem modAux_modAux : modAux (modAux s v k g) v k g' = modAux s v k (g' ∘ g) := by
  cases v <;> simp [modAux, State.modVat, State.setVat, State.vat, modNth, List.modify_modify_eq]

/-- A change of a link shows in no frame. -/
theorem Frame.of_modAux (h : Frame (modAux s v k g) t fs) : Frame s t fs where
  regs f hf ha := (h.regs f hf ha).trans rd_modAux
  mem := h.mem.trans (State.modVat_mem s v _)
  nv := h.nv.trans (State.modVat_nv s v _)
  trust := h.trust.trans (State.modVat_trust s v _)
  rind := h.rind.trans (State.modVat_rind s v _)
  time := h.time.trans (State.modVat_time s v _)

theorem settle_modAux_frame (hc : Calm s) : Frame s (settle (modAux s v k g)) [] :=
  (SenseOnly.refl.frame (modAux_calm hc)).of_modAux

theorem settle_aux (hc : Calm s) : getAux (settle s) v k = getAux s v k := getAux_of_vat (settle_vat_aux hc v)

/-- Writes of registers leave every link. -/
theorem SenseOnly.aux (h : SenseOnly s u W) : getAux u v k = getAux s v k :=
  getAux_of_vat (congrArg VatSt.aux h.senseVat :)

theorem SenseOnly.aux_length (h : SenseOnly s u W) : (u.vat v).aux.length = (s.vat v).aux.length :=
  congrArg (fun x => x.aux.length) h.senseVat

theorem SenseOnly.pulseHeld (h : SenseOnly s u W) : (u.vat v).pulseHeld = (s.vat v).pulseHeld :=
  (congrArg VatSt.pulseHeld h.senseVat :)

/-! ## The links' registers and the channel table -/

/-- The cycle's consequences write no register of the aux links. -/
theorem cycleFields_outside_aux : cycleFields.all (fun g => decide (g.addr < 0x50000000)
    || decide (g.addr % 0x10000000 < 0x04200000) || decide (0x04202000 ≤ g.addr % 0x10000000)) = true := by decide +kernel

/-- A field of an aux link or of the channel table after the cycle's consequences. -/
theorem settle_aux_rd (hc : Calm s) {a i st lo wd : Nat} (hi : a + i * st < 0x04202000)
    (ha : 0x04200000 ≤ a := by decide) :
    (settle s).rd ⟨v.base + a + i * st, lo, wd⟩ = s.rd ⟨v.base + a + i * st, lo, wd⟩ := by
  refine settle_rd hc _ (List.all_eq_true.mpr fun g hg => apart_of_addr fun e => ?_)
  have ho := List.all_eq_true.mp cycleFields_outside_aux g hg
  simp only [Bool.or_eq_true, decide_eq_true_eq, ← e] at ho
  cases v <;> simp only [Vat.base] at ho <;> omega

/-- A field of a link's registers lies apart from those of the channel table. -/
theorem apart_entry {a lo wd lo' wd' : Nat} (h : a + k * 0x400 < 0x04201000) :
    Field.apart ⟨v.base + a + k * 0x400, lo, wd⟩ ⟨v.base + 0x04201000 + n * 0x4, lo', wd'⟩ = true :=
  apart_of_addr (show v.base + a + k * 0x400 ≠ v.base + 0x04201000 + n * 0x4 by omega)

/-! ## LINK_FAIL (R80, R88) -/

/-- What a change of LINK_FAIL writes. -/
def LinkFields (v : Vat) (k : Nat) (f : Field) : Prop :=
  f = R.AUX_STAT_LINK_FAIL v k ∨ ∃ c, f = R.AX_LINKF v (16 * k + c) ∨ f = R.AX_VALID v (16 * k + c)

theorem apart_linkFields {a lo wd : Nat} (h : a + k * 0x400 < 0x04201000)
    (hf : Field.apart ⟨v.base + a + k * 0x400, lo, wd⟩ (R.AUX_STAT_LINK_FAIL v k) = true) :
    ∀ g, LinkFields v k g → Field.apart ⟨v.base + a + k * 0x400, lo, wd⟩ g = true := by
  rintro g (rfl | ⟨c, rfl | rfl⟩)
  exacts [hf, apart_entry h, apart_entry h]

theorem setLinkFail_only {b : Bool} : SenseOnly s (setLinkFail s v k b) (LinkFields v k) :=
  (SenseOnly.refl.wr (.of (.inl rfl) rfl)).forN fun _ c _ h =>
    (h.wr (.of (.inr ⟨c, .inl rfl⟩) rfl)).when fun _ h => h.clr (.of (.inr ⟨c, .inr rfl⟩) rfl)

/-- An entry of the channel table to which the link's failure has come. -/
def EntryFailed (s : State) (v : Vat) (n : Nat) : Prop := s.rd (R.AX_LINKF v n) = 1 ∧ s.rd (R.AX_VALID v n) = 0

/-- The link's failure takes VALID from each of its entries. -/
theorem setLinkFail_entry (hk : k < 4) (hj : j < 16) : EntryFailed (setLinkFail s v k true) v (16 * k + j) := by
  refine forN_reach (P := fun _ => True) (Q := fun t => EntryFailed t v (16 * k + j)) hj trivial (fun _ _ _ _ _ => trivial)
    (fun t _ => ⟨?_, State.rd_wr_self _ _ _ rfl⟩) (fun t c _ hn ht => ⟨?_, ?_⟩)
  · exact (State.rd_wr_apart _ _ _ _ rfl unit_apart).trans (State.rd_wr_self _ _ _ rfl)
  · exact (State.rd_wr_apart _ _ _ _ rfl aside).trans ((State.rd_wr_apart _ _ _ _ rfl aside).trans ht.1)
  · exact (State.rd_wr_apart _ _ _ _ rfl aside).trans ((State.rd_wr_apart _ _ _ _ rfl aside).trans ht.2)

theorem setLinkFail_fail (hk : k < 4) : (setLinkFail s v k true).rd (R.AUX_STAT_LINK_FAIL v k) = 1 := by
  refine forN_keep (P := fun t => t.rd (R.AUX_STAT_LINK_FAIL v k) = 1) (State.rd_wr_self _ _ _ rfl) fun t c _ ht => ?_
  exact (State.rd_wr_apart _ _ _ _ rfl (apart_entry (by omega))).trans
    ((State.rd_wr_apart _ _ _ _ rfl (apart_entry (by omega))).trans ht)

/-! ## The data register (R86, R87) -/

section Deliver

variable {chan : Nat} {inj : Bool} {r : BitVec 16}

/-- A result stands in AUXk_DATA, and one that stood there unconsumed is lost. -/
structure Delivered (r s : State) (v : Vat) (k chan : Nat) (inj : Bool) (result : BitVec 16) : Prop where
  result : s.rd (R.AUX_DATA_RESULT v k) = result.toNat
  chan : s.rd (R.AUX_DATA_CHAN v k) = chan
  inj : s.is (R.AUX_DATA_INJ v k) = inj
  full : s.rd (R.AUX_DATA_FULL v k) = 1
  lost : r.is (R.AUX_DATA_FULL v k) = true →
    s.rd (R.AUX_STAT_OVR_F v k) = 1 ∧ s.rd (R.AUX_STAT_OVR_TAG v k) = r.rd (R.AUX_DATA_CHAN v k)

theorem auxDeliver_only : SenseOnly s (auxDeliver s v k chan inj r)
    (· ∈ [R.AUX_STAT_OVR_TAG v k, R.AUX_STAT_OVR_F v k, whole (R.AUX_DATA v k)]) :=
  have data {lo wd : Nat} (h : lo + wd ≤ 32 := by decide) : Covered ⟨R.AUX_DATA v k, lo, wd⟩
      (· ∈ [R.AUX_STAT_OVR_TAG v k, R.AUX_STAT_OVR_F v k, whole (R.AUX_DATA v k)]) := .part (by simp) (decide_eq_true h)
  ((((SenseOnly.refl.when fun _ h => (h.wr (.of (by simp) rfl)).vatFlagEdge (.of (by simp) rfl)).wr data).wr
    data).wr data).set1 data

theorem auxDeliver_delivered (hc : chan < 16) : Delivered s (auxDeliver s v k chan inj r) v k chan inj r := by
  unfold auxDeliver
  extract_lets a b
  refine ⟨?_, ?_, ?_, rd_set1 rfl rfl, fun hf => ?_⟩
  · refine (rd_set1_apart rfl unit_apart).trans ((State.rd_wr_apart _ _ _ _ rfl unit_apart).trans
      ((State.rd_wr_apart _ _ _ _ rfl unit_apart).trans ((State.rd_wr_self _ _ _ rfl).trans (Nat.mod_eq_of_lt r.isLt))))
  · exact (rd_set1_apart rfl unit_apart).trans ((State.rd_wr_apart _ _ _ _ rfl unit_apart).trans
      ((State.rd_wr_self _ _ _ rfl).trans (Nat.mod_eq_of_lt hc)))
  · exact (congrArg (· != 0) ((rd_set1_apart rfl unit_apart).trans (State.rd_wr_self _ _ _ rfl))).trans (boolNat_ne_zero inj)
  · have ha : a = (s.wr (R.AUX_STAT_OVR_TAG v k) (s.rd (R.AUX_DATA_CHAN v k))).vatFlagEdge v uAUX (R.AUX_STAT_OVR_F v k) :=
      if_pos hf
    have stat {lo wd : Nat} : ((b.wr (R.AUX_DATA_INJ v k) (boolNat inj)).set1 (R.AUX_DATA_FULL v k)).rd ⟨R.AUX_STAT v k, lo, wd⟩
        = a.rd ⟨R.AUX_STAT v k, lo, wd⟩ :=
      have apart {lo' wd' : Nat} : Field.apart ⟨R.AUX_STAT v k, lo, wd⟩ ⟨R.AUX_DATA v k, lo', wd'⟩ = true :=
        unit_apart (by simp)
      (rd_set1_apart rfl apart).trans ((State.rd_wr_apart _ _ _ _ rfl apart).trans
        ((State.rd_wr_apart _ _ _ _ rfl apart).trans (State.rd_wr_apart _ _ _ _ rfl apart)))
    rw [R.AUX_STAT_OVR_F, R.AUX_STAT_OVR_TAG, stat, stat, ha]
    exact ⟨rd_vatFlagEdge rfl rfl unit_ge, (rd_vatFlagEdge_apart rfl unit_apart unit_ge).trans
      ((State.rd_wr_self _ _ _ rfl).trans (Nat.mod_eq_of_lt (State.rd_lt _ _)))⟩

end Deliver

/-! ## Frame boundaries (R82, R84) -/

section Boundary

/-- The end of a frame: the sequences move on, and the next frame begins. -/
def frameEnd (s : State) (v : Vat) (k : Nat) : State := auxNext (modAux s v k (auxAfter s v k)) v k

/-- The beginning of a frame changes the link alone, and neither its run of bad frames nor its `skip`. -/
theorem auxNext_eq : ∃ g, auxNext s v k = modAux s v k g ∧ ∀ a, (g a).badRun = a.badRun ∧ (g a).skip = a.skip := by
  unfold auxNext
  extract_lets a
  split
  · exact ⟨id, modAux_id.symm, fun _ => ⟨rfl, rfl⟩⟩
  · split
    · exact ⟨_, rfl, fun _ => ⟨rfl, rfl⟩⟩
    · split
      · exact ⟨_, rfl, fun _ => ⟨rfl, rfl⟩⟩
      · exact ⟨id, modAux_id.symm, fun _ => ⟨rfl, rfl⟩⟩

theorem auxAfter_keeps (a : AuxSt) : (auxAfter s v k a).badRun = a.badRun ∧ (auxAfter s v k a).skip = false := by
  unfold auxAfter
  split <;> exact ⟨rfl, rfl⟩

theorem frameEnd_eq : ∃ g, frameEnd s v k = modAux s v k g ∧ ∀ a, (g a).badRun = a.badRun ∧ (g a).skip = false := by
  obtain ⟨g, hg, hk⟩ := auxNext_eq (s := modAux s v k (auxAfter s v k)) (v := v) (k := k)
  exact ⟨_, hg.trans modAux_modAux, fun a => ⟨(hk _).1.trans (auxAfter_keeps a).1, (hk _).2.trans (auxAfter_keeps a).2⟩⟩

theorem settle_frameEnd_link (hc : Calm s) (hk : k < (s.vat v).aux.length) :
    (getAux (settle (frameEnd s v k)) v k).badRun = (getAux s v k).badRun
      ∧ (getAux (settle (frameEnd s v k)) v k).skip = false := by
  obtain ⟨g, hg, keeps⟩ := frameEnd_eq (s := s) (v := v) (k := k)
  rw [hg, settle_aux (modAux_calm hc), getAux_modAux hk]
  exact keeps _

theorem settle_frameEnd_frame (hc : Calm s) : Frame s (settle (frameEnd s v k)) [] := by
  obtain ⟨g, hg, -⟩ := frameEnd_eq (s := s) (v := v) (k := k)
  exact hg ▸ settle_modAux_frame hc

/-- A field of an aux link or of the channel table after the end of a frame and the cycle's consequences. -/
theorem settle_frameEnd_rd (hc : Calm s) {a i st lo wd : Nat} (hi : a + i * st < 0x04202000) (ha : 0x04200000 ≤ a := by decide) :
    (settle (frameEnd s v k)).rd ⟨v.base + a + i * st, lo, wd⟩ = s.rd ⟨v.base + a + i * st, lo, wd⟩ := by
  obtain ⟨g, hg, -⟩ := frameEnd_eq (s := s) (v := v) (k := k)
  rw [hg, settle_aux_rd (modAux_calm hc) hi ha, rd_modAux]

end Boundary

/-! ## Good and bad frames (R80) -/

section Frames

variable {chan : Nat} {inj : Bool} {e st : BitVec 4} {r : BitVec 16}

/-- What a good frame of link `k` leaves of `r`. -/
structure GoodFrame (r s : State) (v : Vat) (k chan : Nat) (inj : Bool) (result : BitVec 16) : Prop where
  delivered : Delivered r s v k chan inj result
  run : (getAux s v k).badRun = 0
  calm : Calm r → Calm s
  length : (s.vat v).aux.length = (r.vat v).aux.length

theorem auxGood_goodFrame (hk : k < 4) (placed : k < (s.vat v).aux.length) (hch : chan < 16) :
    GoodFrame s (auxGood s v k chan inj r) v k chan inj r := by
  unfold auxGood
  extract_lets run a b
  have only : SenseOnly a b (LinkFields v k) := SenseOnly.refl.when fun _ _ => setLinkFail_only
  have all := only.any.trans (t := auxDeliver b v k chan inj r) auxDeliver_only.any
  have data {lo wd : Nat} : b.rd ⟨R.AUX_DATA v k, lo, wd⟩ = s.rd ⟨R.AUX_DATA v k, lo, wd⟩ :=
    (only.unit (apart_linkFields (by omega) (unit_apart (by simp)))).trans rd_modAux
  have done := auxDeliver_delivered (s := b) (v := v) (k := k) (inj := inj) (r := r) hch
  refine ⟨⟨done.result, done.chan, done.inj, done.full, fun hf => ?_⟩, ?_, fun hc => all.calm (modAux_calm hc), ?_⟩
  · obtain ⟨flag, tag⟩ := done.lost ((is_of_rd data).trans hf)
    exact ⟨flag, tag.trans data⟩
  · rw [all.aux, getAux_modAux placed]
  · rw [all.aux_length, aux_length_modAux]

theorem auxFrame_good (hs : (getAux s v k).skip = false) (hcur : (getAux s v k).cur = some (e.toNat, inj)) :
    auxFrame s v k e 0 r = frameEnd (auxGood s v k e.toNat inj r) v k := by
  simp [auxFrame, hcur, hs, frameEnd]

theorem goodFrame_answers {k : Fin 4} (hc : Calm s) (hr : auxRuns s v k = true) (hs : (getAux s v k).skip = false)
    (hcur : (getAux s v k).cur = some (e.toNat, inj)) :
    Answers (.auxFrameComplete v k e 0 r) s (fun t => t.rd (R.AUX_DATA_RESULT v k) = r.toNat
      ∧ t.rd (R.AUX_DATA_CHAN v k) = e.toNat ∧ t.is (R.AUX_DATA_INJ v k) = inj ∧ t.is (R.AUX_DATA_FULL v k) = true
      ∧ (s.is (R.AUX_DATA_FULL v k) = true → t.is (R.AUX_STAT_OVR_F v k) = true
        ∧ t.rd (R.AUX_STAT_OVR_TAG v k) = s.rd (R.AUX_DATA_CHAN v k))
      ∧ (getAux t v k).badRun = 0) := by
  have placed := aux_placed_of_cur (by rw [hcur]; simp)
  have good := auxGood_goodFrame (inj := inj) (r := r) k.isLt placed e.isLt
  have shown {a lo wd : Nat} (ha : 0x04200000 ≤ a ∧ a < 0x04200020) :
      (settle (frameEnd (auxGood s v k e.toNat inj r) v k)).rd ⟨v.base + a + k * 0x400, lo, wd⟩
        = (auxGood s v k e.toNat inj r).rd ⟨v.base + a + k * 0x400, lo, wd⟩ := settle_frameEnd_rd (good.calm hc) (by omega) ha.1
  obtain ⟨result, chan, inj, full, lost⟩ := good.delivered
  refine ⟨_, rfl, ?_⟩
  rw [if_pos hr, auxFrame_good hs hcur]
  refine ⟨(shown (by decide)).trans result, (shown (by decide)).trans chan, (is_of_rd (shown (by decide))).trans inj,
    is_one ((shown (by decide)).trans full), fun hf => ?_,
    (settle_frameEnd_link (good.calm hc) (good.length ▸ placed)).1.trans good.run⟩
  exact ⟨is_one ((shown (by decide)).trans (lost hf).1), (shown (by decide)).trans (lost hf).2⟩

/-- What a bad frame of link `k` leaves of `r`. -/
structure BadFrame (r s : State) (v : Vat) (k : Nat) : Prop where
  count : s.rd (R.AUX_STAT_ERRCNT v k) = min (r.rd (R.AUX_STAT_ERRCNT v k) + 1) 65535
  data : s.rd (whole (R.AUX_DATA v k)) = r.rd (whole (R.AUX_DATA v k))
  run : (getAux s v k).badRun = min ((getAux r v k).badRun + 1) 3
  failed : (getAux r v k).badRun = 2 → r.is (R.AUX_STAT_LINK_FAIL v k) = false → s.rd (R.AUX_STAT_LINK_FAIL v k) = 1
    ∧ ∀ j < 16, EntryFailed s v (16 * k + j)
  calm : Calm r → Calm s
  length : (s.vat v).aux.length = (r.vat v).aux.length

theorem auxBad_badFrame (hk : k < 4) (placed : k < (s.vat v).aux.length) : BadFrame s (auxBad s v k) v k := by
  unfold auxBad
  extract_lets a run b
  have flagged : SenseOnly s a (· ∈ [R.AUX_STAT_LINK_ERR_F v k, R.AUX_STAT_ERRCNT v k]) :=
    (SenseOnly.refl.vatFlag (.of (by simp) rfl)).incSat (.of (by simp) rfl)
  have count : a.rd (R.AUX_STAT_ERRCNT v k) = min (s.rd (R.AUX_STAT_ERRCNT v k) + 1) 65535 := by
    have before : (s.vatFlag v uAUX (R.AUX_STAT_LINK_ERR_F v k)).rd (R.AUX_STAT_ERRCNT v k) = s.rd (R.AUX_STAT_ERRCNT v k) :=
      ((SenseOnly.refl (W := (· = R.AUX_STAT_LINK_ERR_F v k))).vatFlag (.of rfl rfl)).unit fun _ hg => hg ▸ unit_apart
    refine (State.rd_wr_self _ _ _ rfl).trans ?_
    rw [before]
    exact Nat.mod_eq_of_lt (Nat.lt_succ_of_le (Nat.min_le_right ..))
  have hrun : run = (getAux s v k).badRun + 1 := congrArg (·.badRun + 1) flagged.aux
  have link : (getAux b v k).badRun = min ((getAux s v k).badRun + 1) 3 := by
    rw [getAux_modAux (by rwa [flagged.aux_length]), hrun]
  have only : SenseOnly b (if run = 3 && !b.is (R.AUX_STAT_LINK_FAIL v k) then
      (setLinkFail b v k true).vatEvent v uAUX 0x0800 0 else b) (LinkFields v k) :=
    SenseOnly.refl.when fun _ _ => setLinkFail_only.vatEvent
  refine ⟨?_, ?_, (congrArg AuxSt.badRun only.aux).trans link, fun h2 hf => ?_,
    fun hc => only.calm (modAux_calm (flagged.calm hc)), ?_⟩
  · exact (only.unit (apart_linkFields (by omega) unit_apart)).trans (rd_modAux.trans count)
  · exact (only.unit (apart_linkFields (by omega) unit_apart)).trans (rd_modAux.trans
      (flagged.unit (apart_cons unit_apart (apart_cons unit_apart apart_nil))))
  · have fail : b.is (R.AUX_STAT_LINK_FAIL v k) = false := by
      refine is_modAux.trans ((is_of_rd ?_).trans hf)
      exact flagged.unit (apart_cons unit_apart (apart_cons unit_apart apart_nil))
    rw [if_pos (by simp [hrun, h2, fail])]
    refine ⟨(rd_vatEvent unit_ge).trans (setLinkFail_fail hk), fun j hj => ?_⟩
    have entry := setLinkFail_entry (s := b) (v := v) hk hj
    exact ⟨(rd_vatEvent unit_ge).trans entry.1, (rd_vatEvent unit_ge).trans entry.2⟩
  · rw [only.aux_length, aux_length_modAux, flagged.aux_length]

theorem auxFrame_bad (hs : (getAux s v k).skip = false) (hcur : (getAux s v k).cur = some (chan, inj))
    (hb : e.toNat ≠ chan ∨ st ≠ 0) : auxFrame s v k e st r = frameEnd (auxBad s v k) v k := by
  have hn : ¬ (e.toNat = chan ∧ st = 0) := fun h => hb.elim (· h.1) (· h.2)
  simp only [auxFrame, hcur, hs, hn, frameEnd, Bool.false_eq_true, Bool.and_eq_true, decide_eq_true_eq, ↓reduceIte]

theorem badFrame_answers {k : Fin 4} (hc : Calm s) (hr : auxRuns s v k = true) (hs : (getAux s v k).skip = false)
    (hcur : (getAux s v k).cur = some (chan, inj)) (hb : e.toNat ≠ chan ∨ st ≠ 0) :
    Answers (.auxFrameComplete v k e st r) s (fun t => t.rd (R.AUX_STAT_ERRCNT v k) = min (s.rd (R.AUX_STAT_ERRCNT v k) + 1) 65535
      ∧ t.rd (whole (R.AUX_DATA v k)) = s.rd (whole (R.AUX_DATA v k))
      ∧ (getAux t v k).badRun = min ((getAux s v k).badRun + 1) 3
      ∧ ((getAux s v k).badRun = 2 → s.is (R.AUX_STAT_LINK_FAIL v k) = false → t.is (R.AUX_STAT_LINK_FAIL v k) = true
        ∧ ∀ j : Fin 16, t.is (R.AX_VALID v (16 * k + j)) = false ∧ t.is (R.AX_LINKF v (16 * k + j)) = true)) := by
  have hk := k.isLt
  have placed := aux_placed_of_cur (by rw [hcur]; simp)
  have bad := auxBad_badFrame hk placed
  have calm := bad.calm hc
  refine ⟨_, rfl, ?_⟩
  rw [if_pos hr, auxFrame_bad hs hcur hb]
  refine ⟨(settle_frameEnd_rd calm (by omega)).trans bad.count, (settle_frameEnd_rd calm (by omega)).trans bad.data,
    (settle_frameEnd_link calm (bad.length ▸ placed)).1.trans bad.run, fun h2 hf => ?_⟩
  obtain ⟨fail, entries⟩ := bad.failed h2 hf
  refine ⟨is_one ((settle_frameEnd_rd calm (by omega)).trans fail), fun j => ?_⟩
  obtain ⟨linkf, valid⟩ := entries j j.isLt
  have hj := j.isLt
  exact ⟨is_zero ((settle_frameEnd_rd calm (by omega)).trans valid), is_one ((settle_frameEnd_rd calm (by omega)).trans linkf)⟩

theorem auxFrame_skipped (hs : (getAux s v k).skip = true) (hcur : (getAux s v k).cur ≠ none) :
    auxFrame s v k e st r = frameEnd s v k := by
  obtain ⟨⟨c, i⟩, hcur⟩ := Option.ne_none_iff_exists'.mp hcur
  simp [auxFrame, hcur, hs, frameEnd]

theorem noResult_answers {k : Fin 4} (hc : Calm s)
    (h : auxRuns s v k = false ∨ (getAux s v k).cur = none ∨ (getAux s v k).skip = true) :
    Answers (.auxFrameComplete v k e st r) s (fun t => Frame s t [] ∧ (getAux t v k).badRun = (getAux s v k).badRun
      ∧ (auxRuns s v k = true → (getAux t v k).skip = true → (getAux t v k).cur = none)) := by
  refine ⟨_, rfl, ?_⟩
  split
  · next hr =>
    by_cases hcur : (getAux s v k).cur = none
    · rw [show auxFrame s v k e st r = s by simp [auxFrame, hcur], settle_aux hc]
      exact ⟨SenseOnly.refl.frame hc, rfl, fun _ _ => hcur⟩
    · have hs : (getAux s v k).skip = true := by simpa [hr, hcur] using h
      rw [auxFrame_skipped hs hcur]
      obtain ⟨run, skip⟩ := settle_frameEnd_link hc (aux_placed_of_skip hs)
      exact ⟨settle_frameEnd_frame hc, run, fun _ h => absurd (skip.symm.trans h) (by decide)⟩
  · next hr =>
    rw [settle_aux hc]
    exact ⟨SenseOnly.refl.frame hc, rfl, fun h => absurd h hr⟩

end Frames

/-! ## The transfer engine's read and the age of an entry (R86-R88) -/

section Table

variable {c : Nat}

theorem bitOf_setBit_true {x i : Nat} : bitOf (setBit x i true) i = true := by
  unfold setBit
  split
  · assumption
  · next h =>
    rw [bitOf_eq_testBit] at h
    rw [if_pos rfl, bitOf_eq_testBit, Nat.add_comm, Nat.testBit_two_pow_add_eq]
    simpa using h

/-- What the read of a result of channel `c` writes. -/
def readFields (v : Vat) (k c : Nat) : List Field := [whole (R.AX v (16 * k + c)), R.AUX_DATA_FULL v k]

/-- What the read of a result of channel `c` of link `k` leaves of `r`. -/
structure Consumed (r s : State) (v : Vat) (k c : Nat) : Prop where
  value : s.rd (R.AX_VALUE v (16 * k + c)) = if r.rdBit (R.AUX_CODING_CODING v k) c
    then (r.rd (R.AUX_DATA_RESULT v k) + 2 ^ 15) % 2 ^ 16 else r.rd (R.AUX_DATA_RESULT v k)
  valid : s.is (R.AX_VALID v (16 * k + c)) = !r.is (R.AUX_STAT_LINK_FAIL v k)
  stale : s.rd (R.AX_STALE v (16 * k + c)) = 0
  full : s.rd (R.AUX_DATA_FULL v k) = 0
  updates : s.rd (R.AX_UPD v (16 * k + c)) = (r.rd (R.AX_UPD v (16 * k + c)) + 1) % 256
  only : SenseOnly (modAux r v k fun a => { a with got := setBit a.got c true }) s
    (· ∈ readFields v k c)

theorem auxRead_consumed (hk : k < 4) (hf : s.is (R.AUX_DATA_FULL v k) = true) (hz : s.rdBit (R.FW_FROZEN_FROZEN v) 9 = false)
    (hc : s.rd (R.AUX_DATA_CHAN v k) = c) : Consumed s (auxRead s v k) v k c := by
  have hn : c < 16 := hc ▸ State.rd_lt _ _
  rw [auxRead, if_pos (by rw [hf, hz]; rfl), hc]
  extract_lets d n x a y b
  subst d n
  have entry {lo wd : Nat} (h : lo + wd ≤ 32 := by decide) : Covered ⟨R.AX v (16 * k + c), lo, wd⟩ (· ∈ readFields v k c) :=
    .part (by simp [readFields]) (decide_eq_true h)
  have written : SenseOnly a b (· ∈ readFields v k c) := ((SenseOnly.refl.wr entry).incWrap entry).clr entry
  have full {lo wd lo' wd' : Nat} : Field.apart ⟨R.AX v (16 * k + c), lo, wd⟩ ⟨R.AUX_DATA v k, lo', wd'⟩ = true :=
    apart_comm (apart_entry (by omega))
  have hy : y < 2 ^ 16 := by
    have hx : x < 2 ^ 16 := State.rd_lt _ _
    subst y
    split
    · exact Nat.mod_lt _ (by decide)
    · exact hx
  have fail : b.is (R.AUX_STAT_LINK_FAIL v k) = s.is (R.AUX_STAT_LINK_FAIL v k) :=
    is_of_rd ((written.unit (apart_cons (apart_entry (by omega)) (apart_cons unit_apart apart_nil))).trans rd_modAux)
  have bit : a.rdBit (R.AUX_CODING_CODING v k) c = s.rdBit (R.AUX_CODING_CODING v k) c := congrArg (bitOf · c) rd_modAux
  have coded : y = if s.rdBit (R.AUX_CODING_CODING v k) c then (x + 2 ^ 15) % 2 ^ 16 else x := by simp only [y, bit]
  refine ⟨?_, ?_, ?_, State.rd_wr_self _ _ _ rfl, ?_, (written.wr entry).clr (.of (by simp [readFields]) rfl)⟩
  · exact (State.rd_wr_apart _ _ _ _ rfl full).trans ((State.rd_wr_apart _ _ _ _ rfl unit_apart).trans
      ((State.rd_wr_apart _ _ _ _ rfl unit_apart).trans ((State.rd_wr_apart _ _ _ _ rfl unit_apart).trans
        ((State.rd_wr_self _ _ _ rfl).trans ((Nat.mod_eq_of_lt hy).trans coded)))))
  · exact (congrArg (· != 0) ((State.rd_wr_apart _ _ _ _ rfl full).trans (State.rd_wr_self _ _ _ rfl))).trans
      ((boolNat_ne_zero _).trans (congrArg (!·) fail))
  · exact (State.rd_wr_apart _ _ _ _ rfl full).trans
      ((State.rd_wr_apart _ _ _ _ rfl unit_apart).trans (State.rd_wr_self _ _ _ rfl))
  · have before : (a.wr (R.AX_VALUE v (16 * k + c)) y).rd (R.AX_UPD v (16 * k + c)) = s.rd (R.AX_UPD v (16 * k + c)) :=
      (State.rd_wr_apart _ _ _ _ rfl unit_apart).trans rd_modAux
    refine (State.rd_wr_apart _ _ _ _ rfl full).trans ((State.rd_wr_apart _ _ _ _ rfl unit_apart).trans
      ((State.rd_wr_apart _ _ _ _ rfl unit_apart).trans ((State.rd_wr_self _ _ _ rfl).trans ?_)))
    exact congrArg (fun x => (x + 1) % 256) before

theorem auxkDataRead_answers {k : Fin 4} (hc : Calm s) (hl : s.vatLive v = true) (hf : s.is (R.AUX_DATA_FULL v k) = true)
    (hz : s.rdBit (R.FW_FROZEN_FROZEN v) 9 = false) (h4 : (s.vat v).aux.length = 4) (hch : s.rd (R.AUX_DATA_CHAN v k) = c) :
    Answers (.auxkDataRead v k) s (fun t => t.rd (R.AX_VALUE v (16 * k + c)) = (if s.rdBit (R.AUX_CODING_CODING v k) c
        then (s.rd (R.AUX_DATA_RESULT v k) + 2 ^ 15) % 2 ^ 16 else s.rd (R.AUX_DATA_RESULT v k))
      ∧ t.is (R.AX_VALID v (16 * k + c)) = !s.is (R.AUX_STAT_LINK_FAIL v k)
      ∧ t.is (R.AX_STALE v (16 * k + c)) = false ∧ t.is (R.AUX_DATA_FULL v k) = false ∧ bitOf (getAux t v k).got c = true
      ∧ t.rd (R.AX_UPD v (16 * k + c)) = (s.rd (R.AX_UPD v (16 * k + c)) + 1) % 256
      ∧ Frame s t [whole (R.AX v (16 * k + c)), R.AUX_DATA_FULL v k]) := by
  have hk := k.isLt
  have hn : c < 16 := hch ▸ State.rd_lt _ _
  obtain ⟨value, valid, stale, full, updates, only⟩ := auxRead_consumed hk hf hz hch
  have calm := only.calm (modAux_calm hc)
  refine ⟨_, rfl, ?_⟩
  rw [if_pos hl]
  refine ⟨(settle_aux_rd calm (by omega)).trans value, (is_of_rd (settle_aux_rd calm (by omega))).trans valid,
    is_zero ((settle_aux_rd calm (by omega)).trans stale), is_zero ((settle_aux_rd calm (by omega)).trans full), ?_,
    (settle_aux_rd calm (by omega)).trans updates, (only.frame (modAux_calm hc)).of_modAux⟩
  rw [settle_aux calm, only.aux, getAux_modAux (by omega)]
  exact bitOf_setBit_true

theorem auxAgeLimit_answers {n : Fin 64} (hc : Calm s) (hl : s.vatLive v = true)
    (ha : s.is (R.AUX_CODING_AGE_LIMIT v (n / 16)) = true) (hg : bitOf (getAux s v (n / 16)).got (n % 16) = true)
    (hs : s.is (R.AX_STALE v n) = false) :
    Answers (.auxAgeLimit v n) s (fun t => t.is (R.AX_STALE v n) = true ∧ t.is (R.AX_VALID v n) = false
      ∧ Frame s t [R.AX_STALE v n, R.AX_VALID v n]) := by
  have hn := n.isLt
  refine ⟨_, rfl, ?_⟩
  rw [if_pos hl, auxAge, if_pos (by simp [ha, hg, hs])]
  have only : SenseOnly s ((s.set1 (R.AX_STALE v n)).clr (R.AX_VALID v n)) (· ∈ [R.AX_STALE v n, R.AX_VALID v n]) :=
    (SenseOnly.refl.set1 (.of (by simp) rfl)).clr (.of (by simp) rfl)
  refine ⟨is_one ((settle_aux_rd (only.calm hc) (by omega)).trans ?_),
    is_zero ((settle_aux_rd (only.calm hc) (by omega)).trans ?_), only.frame hc⟩
  · exact (State.rd_wr_apart _ _ _ _ rfl unit_apart).trans (rd_set1 rfl rfl)
  · exact State.rd_wr_self _ _ _ rfl

theorem auxAgeLimit_idle {n : Fin 64} (hc : Calm s) (h : s.vatLive v = false ∨ s.is (R.AUX_CODING_AGE_LIMIT v (n / 16)) = false
    ∨ bitOf (getAux s v (n / 16)).got (n % 16) = false ∨ s.is (R.AX_STALE v n) = true) :
    Answers (.auxAgeLimit v n) s (fun t => CycleOnly s t) := by
  refine ⟨_, rfl, ?_⟩
  obtain hl | h := h
  · rw [if_neg (by simp [hl])]
    exact settle_cycle hc
  · have idle : auxAge s v n = s := if_neg (by rcases h with h | h | h <;> simp [h])
    rw [idle, ite_self]
    exact settle_cycle hc

end Table

/-! ## Injected triggers (R83-R85) -/

section Injected

variable {e : TrigEvent} {p : Nat}

/-- The link's sequencer runs, and its settings select the event. -/
def takesTrigger (s : State) (v : Vat) (j : Nat) (e : TrigEvent) (p : Nat) : Bool := auxRuns s v j && injSelected s v j e p

theorem auxRuns_modAux : auxRuns (modAux s v k g) v j = auxRuns s v j := by cases v <;> rfl

theorem injSelected_congr (h : t.regs = s.regs) : injSelected t v j e p = injSelected s v j e p := by
  cases e <;> simp [injSelected, State.is, State.rd, h]

theorem takesTrigger_modAux : takesTrigger (modAux s v k g) v j e p = takesTrigger s v j e p := by
  rw [takesTrigger, auxRuns_modAux, injSelected_congr (t := modAux s v k g) (State.modVat_regs s v _), takesTrigger]

theorem SenseOnly.takesTrigger (h : SenseOnly s u (· = R.AUX_STAT_INJ_LOST_F v k)) (hj : j < 4) (hk : k < 4) :
    takesTrigger u v j e p = takesTrigger s v j e p := by
  have kept {a lo wd : Nat} (ha : a < 0x04200018 ∧ 0x04200000 ≤ a := by decide) :
      u.rd ⟨v.base + a + j * 0x400, lo, wd⟩ = s.rd ⟨v.base + a + j * 0x400, lo, wd⟩ :=
    h.unit fun _ e => e ▸ aside
  have trig : u.rd (R.AUX_INJ_TRIG v j) = s.rd (R.AUX_INJ_TRIG v j) := kept
  have evt : u.rd (R.AUX_INJ_EVT v j) = s.rd (R.AUX_INJ_EVT v j) := kept
  have port : u.rd (R.AUX_INJ_IPORT v j) = s.rd (R.AUX_INJ_IPORT v j) := kept
  have en : u.rd (R.AUX_CFG_EN v j) = s.rd (R.AUX_CFG_EN v j) := kept
  simp only [Machine.takesTrigger, auxRuns, injSelected, h.live, h.pulseHeld, State.is, trig, evt, port, en]

/-- An injected sequence begins by a change of the link alone. -/
theorem injStart_eq : ∃ g, injStart s v k = modAux s v k g := by
  obtain ⟨g, hg, -⟩ := auxNext_eq (v := v) (k := k)
  exact ⟨_, hg.trans modAux_modAux⟩

/-- What an injected trigger can do to a link that runs. -/
theorem injTrigger_cases (hr : auxRuns s v k = true) :
    ((s.is (R.AUX_INJ_ILEN v k) = false ∨ (getAux s v k).inj ≠ none ∧ (getAux s v k).trigPt = some s.pt)
      ∧ injTrigger s v k = s)
    ∨ (s.is (R.AUX_INJ_ILEN v k) = true ∧ (getAux s v k).inj ≠ none ∧ (getAux s v k).trigPt ≠ some s.pt
      ∧ injTrigger s v k = s.vatFlagEdge v uAUX (R.AUX_STAT_INJ_LOST_F v k))
    ∨ (s.is (R.AUX_INJ_ILEN v k) = true ∧ (getAux s v k).inj = none ∧ injTrigger s v k = injStart s v k) := by
  by_cases hl : s.is (R.AUX_INJ_ILEN v k) = true
  · by_cases hi : (getAux s v k).inj = none
    · exact .inr (.inr ⟨hl, hi, by simp [injTrigger, hr, hl, hi]⟩)
    · by_cases hp : (getAux s v k).trigPt = some s.pt
      · exact .inl ⟨.inr ⟨hi, hp⟩, by simp [injTrigger, hi, hp]⟩
      · exact .inr (.inl ⟨hl, hi, hp, by simp [injTrigger, hr, hl, hi, hp]⟩)
  · exact .inl ⟨.inl (by simpa using hl), by simp [injTrigger, hl]⟩

theorem injTrigger_takesTrigger (hj : j < 4) (hk : k < 4) (hr : auxRuns s v k = true) :
    takesTrigger (injTrigger s v k) v j e p = takesTrigger s v j e p := by
  obtain ⟨-, h⟩ | ⟨-, -, -, h⟩ | ⟨-, -, h⟩ := injTrigger_cases hr
  · rw [h]
  · have only : SenseOnly s (s.vatFlagEdge v uAUX (R.AUX_STAT_INJ_LOST_F v k)) (· = R.AUX_STAT_INJ_LOST_F v k) :=
      SenseOnly.refl.vatFlagEdge (.of rfl rfl)
    rw [h, only.takesTrigger hj hk]
  · obtain ⟨g, hg⟩ := injStart_eq (s := s) (v := v) (k := k)
    rw [h, hg, takesTrigger_modAux]

/-- A link that does not take the trigger lets it pass. -/
theorem trigger_passes (h : takesTrigger s v j e p = false) : (if injSelected s v j e p then injTrigger s v j else s) = s := by
  split
  · next hs =>
    have hr : auxRuns s v j = false := by simpa [takesTrigger, hs] using h
    simp [injTrigger, hr]
  · rfl

theorem injEvent_idle (h : ∀ j < 4, takesTrigger s v j e p = false) : injEvent s v e p = s :=
  forN_keep (P := (· = s)) rfl fun t j hj ht => by rw [ht, trigger_passes (h j hj)]

/-- An event that one link takes is that link's trigger. -/
theorem injEvent_lone (hk : k < 4) (hr : auxRuns s v k = true) (hs : injSelected s v k e p = true)
    (h : ∀ j < 4, j ≠ k → takesTrigger s v j e p = false) : injEvent s v e p = injTrigger s v k :=
  forN_reach (P := (· = s)) (Q := (· = injTrigger s v k)) hk rfl
    (fun _ j hj hn ht => by rw [ht, trigger_passes (h j hj hn)]) (fun _ ht => by rw [ht, if_pos hs])
    (fun _ j hj hn ht => by rw [ht, trigger_passes ((injTrigger_takesTrigger hj hk hr).trans (h j hj hn))])

/-- The next frame where an injected entry is due: that entry's, unless a frame is in progress. -/
theorem auxNext_injected {i : Nat} (hr : auxRuns s v k = true) (hk : k < (s.vat v).aux.length) (hi : (getAux s v k).inj = some i) :
    getAux (auxNext s v k) v k = if (getAux s v k).cur.isSome then getAux s v k else { getAux s v k with
      cur := some (getBits (BitVec.ofNat 32 (s.rd (R.AUX_INJ_ISEQ v k))) (4 * i) 4, true), inj := some (i + 1) } := by
  unfold auxNext
  extract_lets a
  by_cases hcur : (getAux s v k).cur.isSome = true
  · rw [if_pos hcur, if_pos (by simp [a, hcur])]
  · rw [if_neg hcur, if_neg (by simp [a, hcur, hr])]
    simp only [a, hi]
    exact getAux_modAux hk

/-- The link after a trigger that starts its injected sequence. -/
structure InjBegun (s : State) (v : Vat) (k : Nat) (a b : AuxSt) : Prop where
  pending : b.inj.isSome = true
  trigPt : b.trigPt = some s.pt
  reg : a.passPt = some s.pt → b.reg = some 0
  cur : a.cur = none ∨ a.passPt = some s.pt → b.cur = some (s.rd (R.AUX_INJ_ISEQ v k) % 16, true)

/-- The first entry of ISEQ. -/
theorem first_injected : getBits (BitVec.ofNat 32 (s.rd (R.AUX_INJ_ISEQ v k))) (4 * 0) 4 = s.rd (R.AUX_INJ_ISEQ v k) % 16 := by
  have h : s.rd (R.AUX_INJ_ISEQ v k) < 65536 := State.rd_lt _ _
  show (BitVec.ofNat 32 (s.rd (R.AUX_INJ_ISEQ v k))).toNat / 1 % 16 = s.rd (R.AUX_INJ_ISEQ v k) % 16
  rw [Nat.div_one, BitVec.toNat_ofNat, Nat.mod_eq_of_lt (h.trans (by decide))]

theorem injStart_begun (hr : auxRuns s v k = true) (hk : k < (s.vat v).aux.length) :
    InjBegun s v k (getAux s v k) (getAux (injStart s v k) v k) := by
  unfold injStart
  extract_lets undo
  rw [auxNext_injected (i := 0) (auxRuns_modAux.trans hr) (by rwa [aux_length_modAux]) (by rw [getAux_modAux hk]),
    getAux_modAux hk, rd_modAux, first_injected]
  by_cases hu : (getAux s v k).passPt = some s.pt
  · have hundo : undo = true := beq_iff_eq.mpr hu
    constructor <;> simp [hundo]
  · have hundo : undo = false := beq_eq_false_iff_ne.mpr hu
    cases hcur : (getAux s v k).cur <;> constructor <;> simp [hundo, hu, hcur]

theorem injectedTrigger_answers {k : Fin 4} {p : Fin 8} (hc : Calm s) (hs : injSelected s v k e p = true)
    (hr : auxRuns s v k = true) (hf : Fits s)
    (ho : (List.range 4).all (fun j => j == k.val || !(auxRuns s v j && injSelected s v j e p)) = true) :
    Answers (.injectedTrigger v ⟨e, p⟩) s (fun t =>
      (s.is (R.AUX_INJ_ILEN v k) = false ∨ (getAux s v k).inj.isSome = true → getAux t v k = getAux s v k)
      ∧ (s.is (R.AUX_INJ_ILEN v k) = true → (getAux s v k).inj.isSome = true → (getAux s v k).trigPt ≠ some s.pt →
        t.is (R.AUX_STAT_INJ_LOST_F v k) = true ∧ Frame s t [R.AUX_STAT_INJ_LOST_F v k])
      ∧ (s.is (R.AUX_INJ_ILEN v k) = false ∨ (getAux s v k).inj = none ∨ (getAux s v k).trigPt = some s.pt → Frame s t [])
      ∧ (s.is (R.AUX_INJ_ILEN v k) = true → (getAux s v k).inj = none → (getAux t v k).inj.isSome = true
        ∧ (getAux t v k).trigPt = some s.pt
        ∧ ((getAux s v k).passPt = some s.pt → (getAux t v k).reg = some 0)
        ∧ ((getAux s v k).cur = none ∨ (getAux s v k).passPt = some s.pt →
          (getAux t v k).cur = some (s.rd (R.AUX_INJ_ISEQ v k) % 16, true)))) := by
  have hk := k.isLt
  have others : ∀ j < 4, j ≠ k.val → takesTrigger s v j e p = false := fun j hj hn =>
    have passes := (Bool.or_eq_true _ _).mp (List.all_eq_true.mp ho j (List.mem_range.mpr hj))
    (Bool.not_eq_true' _).mp (passes.resolve_left (by simpa using hn))
  refine ⟨_, rfl, ?_⟩
  rw [injEvent_lone hk hr hs others]
  obtain ⟨hidle, h⟩ | ⟨hl, hi, hp, h⟩ | ⟨hl, hi, h⟩ := injTrigger_cases hr
  · rw [h, settle_aux hc]
    exact ⟨fun _ => rfl, fun hl _ hp => absurd hidle (by simp [hl, hp]), fun _ => SenseOnly.refl.frame hc,
      fun hl hi => absurd hidle (by simp [hl, hi])⟩
  · have only : SenseOnly s (s.vatFlagEdge v uAUX (R.AUX_STAT_INJ_LOST_F v k)) (· ∈ [R.AUX_STAT_INJ_LOST_F v k]) :=
      SenseOnly.refl.vatFlagEdge (.of (by simp) rfl)
    rw [h, settle_aux (only.calm hc), only.aux]
    refine ⟨fun _ => rfl, fun _ _ _ => ⟨is_one ?_, only.frame hc⟩, fun hn => ?_, fun _ hn => absurd hn hi⟩
    · exact (settle_aux_rd (only.calm hc) (by omega)).trans (rd_vatFlagEdge rfl rfl unit_ge)
    · simp [hl, hi, hp] at hn
  · obtain ⟨-, -, -, -, -, h4, -⟩ := vatFits_iff.mp (hf.vat (v := v))
    obtain ⟨pending, trigPt, reg, cur⟩ := injStart_begun hr (k := k) (by omega)
    obtain ⟨g, hg⟩ := injStart_eq (s := s) (v := v) (k := k)
    rw [h, settle_aux (hg ▸ modAux_calm hc)]
    refine ⟨fun hn => ?_, fun _ hn => ?_, fun _ => hg ▸ settle_modAux_frame hc, fun _ _ => ⟨pending, trigPt, reg, cur⟩⟩
    · simp [hl, hi] at hn
    · simp [hi] at hn

theorem injectedTrigger_idle {p : Fin 8} (hc : Calm s)
    (h : (List.range 4).all (fun j => !(auxRuns s v j && injSelected s v j e p)) = true) :
    Answers (.injectedTrigger v ⟨e, p⟩) s (fun t => CycleOnly s t) := by
  have passed : ∀ j < 4, takesTrigger s v j e p = false := fun j hj =>
    (Bool.not_eq_true' _).mp (List.all_eq_true.mp h j (List.mem_range.mpr hj))
  refine ⟨_, rfl, ?_⟩
  rw [injEvent_idle passed]
  exact settle_cycle hc

end Injected

/-- Settles O36: a frame's end changes registers by its judgement (`auxGood_goodFrame`, `auxBad_badFrame`) and the link by
`frameEnd`, which no field shows; an event that one link takes is that link's trigger (`injEvent_lone`). -/
theorem auxLinksDeliver : Obligations.AuxLinksDeliver :=
  ⟨fun _ _ _ _ _ _ hc hr hs hcur => goodFrame_answers hc hr hs hcur,
    fun _ _ _ _ _ _ _ _ hc hr hs hcur hb => badFrame_answers hc hr hs hcur hb,
    fun _ _ _ _ _ _ hc h => noResult_answers hc h,
    fun _ _ _ hc hl hf hz h4 => auxkDataRead_answers hc hl hf hz h4 rfl,
    fun _ _ _ _ _ hc hs hr hf ho => injectedTrigger_answers hc hs hr hf ho,
    fun _ _ _ _ hc h => injectedTrigger_idle hc h,
    fun _ _ _ hc hl ha hg hs => auxAgeLimit_answers hc hl ha hg hs,
    fun _ _ _ hc h => auxAgeLimit_idle hc h⟩

end AuxLink

end Sys2Proof.Machine

namespace Sys2Proof.Machine

open Sys2Proof

/-! # The self-test that fails in the last vat (O40)

A self-test that fails in a joining vat retires the engine, and a graph that waits there without a place makes the join fail
(R256, R258). Where the other vat is HALTED and no vat owns, the VAT reset of the join leaves no vat, and a SYS reset follows in
the same cycle, as STO is in force already (R377): it ends the engine's retirement (R125) and clears STFAIL and DEG_CAUSE. -/

/-! ## Registers that a SYS reset does not keep (R13, R372) -/

section SysResetRegisters

variable {s : State} {f : Field} {row : RegRow} {is : List Nat} {a n : Nat}

theorem keepBits_none {por w : Word} : keepBits por w 0 = por := by
  simp only [keepBits, BitVec.and_zero, BitVec.zero_or]
  exact BitVec.and_allOnes

theorem RegFile.get_mapRegs_of_por {r : RegFile} {g : Nat → Word → Word} (h : ∀ w, g a w = porValue a) :
    (r.mapRegs g).get a = porValue a := by
  have hl : lookupKey a (r.mapRegs g) = none := by
    refine Option.eq_none_iff_forall_ne_some.mpr fun x hx => ?_
    obtain ⟨w, -, rfl, hw⟩ := RegFile.mem_mapRegs.mp (mem_of_lookupKey hx)
    exact hw (h w)
  simp [RegFile.get, getKey, hl]

/-- A register without kept bits reads as at POR. -/
theorem RegFile.get_resetBy {r : RegFile} {mask : RegRow → Nat} (hr : findReg a = some (row, is)) (hm : mask row = 0) :
    (r.resetBy mask).get a = porValue a := by
  refine RegFile.get_mapRegs_of_por fun w => ?_
  simp only [porValue, hr, hm, keepBits_none]

/-- A SYS reset is recorded in RST_CAUSE alone. -/
theorem recordSys_get {again : Bool} (ha : a ≠ R.RST_CAUSE) : (recordSys s n again).regs.get a = s.regs.get a := by
  unfold recordSys
  cases again <;> simp [recordCause, State.incSat, State.wr, RegFile.get_set_other ha, R.RST_CAUSE_CODE, R.RST_CAUSE_LEVEL,
    R.RST_CAUSE_VAT, R.RST_CAUSE_RESETS]

theorem sysReset_rd (hp : s.rst.phase ≠ .por) (hr : findReg f.addr = some (row, is)) (hk : row.keepSys = 0)
    (hc : f.addr ≠ R.RST_CAUSE) (hl : f.addr ≠ R.CLK_STAT) :
    (sysReset s n).rd f = getBits (porValue f.addr) f.lo f.width := by
  have cleared : (sysCleared s (n == 0x0A)).regs.get f.addr = porValue f.addr := by
    have kept := RegFile.get_resetBy (r := s.regs) (mask := fun row => row.keepSys) hr hk
    unfold sysCleared
    dsimp only
    split
    · exact kept
    · exact (RegFile.get_set_other hl ..).trans kept
  have recorded := (recordSys_get (n := n) (again := sysJustBegun s) hc).trans cleared
  rw [sysReset, if_neg hp]
  dsimp only
  split <;> exact congrArg (getBits · f.lo f.width) recorded

end SysResetRegisters

/-! ## A SYS reset that no stop delays (R377) -/

/-- The device state, the release sequence's phase, the variant and the two vats: what the VAT reset of the last vat goes by. -/
def resetView (s : State) : DevState × ResetPhase × Variant × VatSt × VatSt :=
  (s.dev, s.rst.phase, s.variant, s.vatA, s.vatB)

/-- A SYS reset waits for STO, which is in force, and no vat computes. -/
structure SysResetDue (s : State) : Prop where
  stopped : s.dev = .safeStop
  due : s.rst.sysAfterSto.isSome = true
  phase : s.rst.phase ≠ .por
  idle : ∀ v, s.vatLive v = false

section LastVat

variable {s t : State} {v w : Vat} {f : Field} {c k n : Nat} {code : Option Nat}

theorem resetView_ite {q : Prop} {_ : Decidable q} {u : State} (ht : resetView t = resetView s) (hu : resetView u = resetView s) :
    resetView (if q then t else u) = resetView s := by
  split <;> assumption

theorem resetView_wr : resetView (s.wr f n) = resetView s := rfl

theorem resetView_incSat {d : Nat} : resetView (s.incSat f d) = resetView s := rfl

theorem resetView_event {i j k : Nat} : resetView (s.event i j k) = resetView s := by simp [resetView]

theorem resetView_setRole : resetView (setRole s v n) = resetView s := resetView_ite rfl (resetView_event.trans resetView_wr)

theorem resetView_failVat : resetView (failVat s v) = resetView s :=
  (resetView_ite resetView_setRole rfl).trans resetView_incSat

theorem resetView_recordCause {level u : Nat} : resetView (recordCause s c level u) = resetView s :=
  resetView_ite (s := s) rfl resetView_incSat

theorem resetView_recordVatCause : resetView (recordVatCause s v code) = resetView s := by
  unfold recordVatCause
  extract_lets c s1 s2
  have h1 : resetView s1 = resetView s := resetView_ite rfl rfl
  exact (resetView_ite resetView_incSat resetView_recordCause : resetView s2 = resetView s1).trans h1

theorem resetView_setVat {x : VatSt} (h : resetView t = resetView s) : resetView (t.setVat v x) = resetView (s.setVat v x) := by
  simp only [resetView, Prod.mk.injEq] at h
  cases v <;> simp [resetView, State.setVat, h]

/-- A vat that enters VAT reset computes no more, and the other vat stays as it is. -/
theorem resetView_putInReset : ∃ x : VatSt, x.inReset = true ∧ resetView (putInReset s v) = resetView (s.setVat v x) := by
  unfold putInReset
  extract_lets d s1 s2 s3 s4
  have h1 : resetView s1 = resetView s := resetView_ite rfl resetView_setRole
  have h3 : resetView s3 = resetView s1 := resetView_wr.trans resetView_wr
  have h4 : resetView s4 = resetView (s.setVat v ((s3.vat v).afterReset d)) := resetView_setVat (h3.trans h1)
  refine ⟨(s3.vat v).afterReset d, ?_, h4⟩
  unfold VatSt.afterReset
  dsimp only
  split <;> rfl

theorem vatLive_of_inReset (h : (s.vat v).inReset = true) : s.vatLive v = false := by simp [State.vatLive, VatSt.live, h]

theorem vatLive_of_view (h : resetView t = resetView s) : t.vatLive v = s.vatLive v := by
  simp only [resetView, Prod.mk.injEq] at h
  obtain ⟨-, -, variant, vatA, vatB⟩ := h
  cases v <;> simp only [State.vatLive, State.hasVat, State.vat, variant, vatA, vatB]

theorem SysResetDue.of_view (hv : resetView t = resetView s) (hd : s.dev = .safeStop) (hp : s.rst.phase ≠ .por)
    (hi : ∀ v, s.vatLive v = false) (due : t.rst.sysAfterSto.isSome = true) : SysResetDue t where
  stopped := (congrArg Prod.fst hv).trans hd
  due := due
  phase := (congrArg (·.2.1) hv).trans_ne hp
  idle _ := (vatLive_of_view hv).trans (hi _)

/-- Vat `v`, which does not own, is the last that is neither HALTED nor RETIRED, in SAFE_STOP. -/
structure LastVat (s : State) (v : Vat) : Prop where
  stopped : s.dev = .safeStop
  phase : s.rst.phase ≠ .por
  present : s.hasVat v = true
  running : (s.vat v).inReset = false
  notOwner : s.owner ≠ some v
  alone : aloneVat s v = true
  others : ∀ w, w ≠ v → s.vatLive w = false

theorem LastVat.event (h : LastVat s v) {i j k : Nat} : LastVat (s.event i j k) v := by
  have view := resetView_event (s := s) (i := i) (j := j) (k := k)
  have role : ∀ w, role (s.event i j k) w = role s w := fun w =>
    have hl := apart_log (f := R.VAT_ROLE_ROLE w) (by cases w <;> decide)
    State.rd_event _ _ _ _ _ hl.1 hl.2
  have owner : (s.event i j k).owner = s.owner := by
    rw [State.owner, State.owner, State.rd_event _ _ _ _ _ (by decide) (by decide)]
  refine ⟨(State.event_dev ..).trans h.stopped, (congrArg (·.2.1) view).trans_ne h.phase, ?_,
    (congrArg VatSt.inReset vat_event).trans h.running, owner ▸ h.notOwner, ?_,
    fun w hw => (vatLive_of_view view).trans (h.others w hw)⟩
  · rw [State.hasVat, State.event_variant]
    exact h.present
  · simp only [aloneVat, State.vats, State.event_variant, role]
    exact h.alone

/-- The VAT reset of the last vat, which leaves none (R377). -/
theorem vatReset_last (h : LastVat s v) : SysResetDue (vatReset s v code c true) := by
  obtain ⟨x, hx, reset⟩ := resetView_putInReset (s := recordVatCause (failVat s v) v code) (v := v)
  have view := reset.trans (resetView_setVat (resetView_recordVatCause.trans resetView_failVat))
  have idle : ∀ w, (s.setVat v x).vatLive w = false := fun w => by
    by_cases hw : w = v
    case pos =>
      subst hw
      exact vatLive_of_inReset ((congrArg VatSt.inReset (State.vat_setVat_self s w x)).trans hx)
    case neg =>
      rw [← h.others w hw, State.vatLive, State.vatLive, State.vat_setVat_other s hw, State.hasVat, State.hasVat,
        State.setVat_variant]
  have ran : vatReset s v code c true =
      { putInReset (recordVatCause (failVat s v) v code) v with
        rst := { (putInReset (recordVatCause (failVat s v) v code) v).rst with
          sysAfterSto := some ((putInReset (recordVatCause (failVat s v) v code) v).rst.sysAfterSto.getD 0x0F) } } := by
    simp [vatReset, h.present, h.stopped, h.running, h.notOwner, h.alone]
  rw [ran]
  exact .of_view (s := s.setVat v x) view (by simpa using h.stopped) (by simpa using h.phase) idle rfl

theorem SysResetDue.wr (h : SysResetDue s) : SysResetDue (s.wr f n) := ⟨h.stopped, h.due, h.phase, h.idle⟩

theorem SysResetDue.set1 (h : SysResetDue s) : SysResetDue (s.set1 f) := ⟨h.stopped, h.due, h.phase, h.idle⟩

theorem SysResetDue.refreshLeft (h : SysResetDue s) : SysResetDue (refreshLeft s v) := h.wr.wr

theorem failJoin_last (h : LastVat s v) (hj : s.is (R.VAT_ROLE_JOINING v) = true) : SysResetDue (failJoin s v) := by
  rw [failJoin, if_neg (by simp [hj])]
  exact (vatReset_last h.event).set1

/-! ### The cycle's consequences -/

theorem ordersOnPorts_idle (h : ∀ v, s.vatLive v = false) : ordersOnPorts s = s := by
  unfold ordersOnPorts forVats State.vats
  split
  · rfl
  · split <;> simp [h]

theorem ss1End_stopped (h : s.dev = .safeStop) : (ss1End s).dev = .safeStop := by
  unfold ss1End
  split
  · exact h
  · split
    · split
      · exact h
      · exact enterSafeStop_dev
    · split
      · split
        · exact h
        · exact enterSafeStop_dev
      · exact enterSafeStop_dev

theorem refreshDeg_dev : (refreshDeg s).dev = s.dev := by
  unfold refreshDeg
  dsimp only
  split
  · rfl
  · split
    · rfl
    · exact State.event_dev ..

/-- The SYS reset that waits for STO is taken at once. -/
theorem settle_sysReset (h : SysResetDue s) : ∃ t n, t.rst.phase ≠ .por ∧ settle s = (sysReset t n).endLog := by
  have stopped : (refreshDeg (ss1End s)).dev = .safeStop := refreshDeg_dev.trans (ss1End_stopped h.stopped)
  have same : cycleRest (refreshDeg (ss1End s)) = cycleRest s := (refreshDeg_cycle (ss1End_cycle (CycleOnly.refl s))).rest
  have due : (refreshDeg (ss1End s)).rst.sysAfterSto = s.rst.sysAfterSto := by
    have h := congrArg (fun x : State => x.rst.sysAfterSto) same
    exact h
  have phase : (refreshDeg (ss1End s)).rst.phase = s.rst.phase := by
    have h := congrArg (fun x : State => x.rst.phase) same
    exact h
  obtain ⟨n, hn⟩ := Option.isSome_iff_exists.mp h.due
  refine ⟨refreshDeg (ss1End s), n, phase ▸ h.phase, ?_⟩
  have kept : refreshDev (refreshDeg (ss1End s)) = refreshDeg (ss1End s) := if_pos (by simp [stopped, DevState.operating])
  rw [settle, if_neg (by simp [h.stopped]), ordersOnPorts_idle h.idle, kept, dueSysReset, due, hn]
  exact congrArg State.endLog (if_neg (by simp [stopped, DevState.operating]))

/-- What a SYS reset does not keep reads as at POR. -/
theorem SysResetDue.settle_rd {row : RegRow} {is : List Nat} (h : SysResetDue s) (hr : findReg f.addr = some (row, is))
    (hk : row.keepSys = 0) (hc : f.addr ≠ R.RST_CAUSE) (hl : f.addr ≠ R.CLK_STAT) :
    (settle s).rd f = getBits (porValue f.addr) f.lo f.width := by
  obtain ⟨t, n, hp, ht⟩ := settle_sysReset h
  rw [ht]
  exact sysReset_rd hp hr hk hc hl

end LastVat

/-! ## The graphs that wait in a joining vat (R256) -/

section Waiting

variable {s : State} {v : Vat} {c k landed : Nat} {w : WheelGraph}

/-- The engine has retired; graphs that wait in it have not moved yet. -/
def engineDown (s : State) (v : Vat) (c landed : Nat) : State :=
  let s := forN 4 s (fun s k =>
    if !s.is (R.GS_BIND_BOUND v c k) then s else
      let s := cutBurst s v c k landed
      let s := closeXhat (modSlot s v c k (fun g => { g with evals := [], migrating := g.entered })) v c k
      refreshWhey s v c k)
  let s := modEng s v c (fun e => { e with testing := false })
  degSet ((s.wr (R.CE_STAT_STATE v c) 3).vatEvent v (uCE c) 0x0902 c) 0

theorem selfTestFailed_exec {c : Fin 8} (hr : engRuns s v c = true) (ht : (getEng s v c).testing = true) :
    exec (.selfTestComplete v c false landed) s = .next (settle (retireEngine (s.set1 (R.CE_STAT_STFAIL v c)) v c landed)) :=
  congrArg (fun s => Host.Outcome.next (settle s)) (if_pos (by rw [hr, ht]; rfl))

theorem retireEngine_joining (h : (engineDown s v c landed).is (R.VAT_ROLE_JOINING v) = true) :
    retireEngine s v c landed = refreshLeft (forN 4 (engineDown s v c landed) (fun s k => moveWaiting s v c k)) v := if_pos h

theorem moveWaiting_unbound (h : s.is (R.GS_BIND_BOUND v c k) = false) : moveWaiting s v c k = s := if_pos (by simp [h])

theorem moveWaiting_noPlace (hb : s.is (R.GS_BIND_BOUND v c k) = true) (he : (getSlot s v c k).entered = false)
    (hj : s.is (R.VAT_ROLE_JOINING v) = true) (hw : s.whl.graphs.find? (fun w => w.port == s.rd (R.GS_BIND_PORT v c k)) = some w)
    (hp : placeFor s v w = none) : moveWaiting s v c k = failJoin s v := by
  rw [moveWaiting, if_neg (by simp [hb, he, hj]), hw]
  dsimp only
  rw [hp]

/-- The graph in slot 3 waits, and no other slot is bound. -/
theorem moveWaiting_last (hu : ∀ k < 3, s.is (R.GS_BIND_BOUND v c k) = false) (hm : moveWaiting s v c 3 = failJoin s v) :
    forN 4 s (fun s k => moveWaiting s v c k) = failJoin s v := by
  change moveWaiting (moveWaiting (moveWaiting (moveWaiting s v c 0) v c 1) v c 2) v c 3 = _
  rw [moveWaiting_unbound (hu 0 (by decide)), moveWaiting_unbound (hu 1 (by decide)), moveWaiting_unbound (hu 2 (by decide)), hm]

end Waiting

/-! ## The counterexample -/

/-- The graph of port 0 in engine 0, slot 3, without a fallback. -/
def lonelyGraph : WheelGraph :=
  { engine := 0, slot := 3, port := 0, fallback := 1, fbEn := false, first := 0, defs := [], preds := [], hasPred := false
    base := 0, fbFirst := 0, fbDefs := [], fbBase := 0, wsz := 0, cycles := 0, loadN := 0, loadD := 1 }

/-- Engine 0 of Vat B tests itself, and its graph waits to enter. -/
def lonelyVat : VatSt :=
  { inReset := false, started := true
    engines := modNth (List.replicate 8 {}) 0 (fun _ => { slots := [{}, {}, {}, { entered := false }], testing := true }) }

/-- Vat B still joins when Vat A, the owner, has failed: no vat owns, Vat A is HALTED, and STO is in force (R254, R273). The
commands VAT_RELEASE of Vat B, CRITICAL_DOUBLE_BIT_ERROR in Vat A and SELF_TEST_DUE of engine 0 of Vat B lead to such a state. -/
def lonelyJoin : State :=
  let s : State :=
    { State.reset with dev := .safeStop, rst := { phase := .done }, vatB := lonelyVat, whl := { graphs := [lonelyGraph] } }
  let s := (s.wr (R.VAT_ROLE_ROLE .A) roleHALTED).wr (R.VAT_ROLE_ROLE .B) roleSTANDBY
  ((s.set1 (R.VAT_ROLE_JOINING .B)).set1 R.SAFE_STAT_STO).set1 (R.GS_BIND_BOUND .B 0 3)

/-- Its engine 0 has retired. -/
def lonelyDown : State := engineDown (lonelyJoin.set1 (R.CE_STAT_STFAIL .B 0)) .B 0 0

theorem lonelyJoin_fits : Fits lonelyJoin :=
  ⟨by unfold WheelFits; decide +kernel, by decide +kernel, by decide +kernel⟩

theorem lonelyDown_joining : lonelyDown.is (R.VAT_ROLE_JOINING .B) = true := by decide +kernel

theorem lonelyDown_last : LastVat lonelyDown .B :=
  ⟨by decide +kernel, by decide +kernel, by decide +kernel, by decide +kernel, by decide +kernel, by decide +kernel,
    fun w hw => by cases w with
      | A => decide +kernel
      | B => exact absurd rfl hw⟩

theorem lonelyDown_waits : moveWaiting lonelyDown .B 0 3 = failJoin lonelyDown .B :=
  moveWaiting_noPlace (w := lonelyGraph) (by decide +kernel) (by decide +kernel) lonelyDown_joining (by decide +kernel)
    (by decide +kernel)

theorem lonelyJoin_retire :
    SysResetDue (retireEngine (lonelyJoin.set1 (R.CE_STAT_STFAIL .B 0)) .B 0 0) := by
  rw [retireEngine_joining lonelyDown_joining]
  change SysResetDue (refreshLeft (forN 4 lonelyDown fun s k => moveWaiting s .B 0 k) .B)
  rw [moveWaiting_last (by decide +kernel) lonelyDown_waits]
  exact (failJoin_last lonelyDown_last lonelyDown_joining).refreshLeft

/-- Refutes O40: the failed self-test of a joining vat's engine makes the join fail where a graph that waits there has no place;
in `lonelyJoin` that vat is the last, the SYS reset that follows (R377) is taken in the same cycle, as STO is in force
(`settle_sysReset`), and the engine is not RETIRED after it. -/
theorem not_selfTestsRun : ¬ Obligations.SelfTestsRun := by
  unfold Obligations.SelfTestsRun
  rintro ⟨-, complete, -⟩
  have runs : engRuns lonelyJoin .B (0 : Fin 8) = true := by decide +kernel
  have tests : (getEng lonelyJoin .B (0 : Fin 8)).testing = true := by decide +kernel
  obtain ⟨-, t, ht, -, retired, -⟩ := complete .B 0 0 lonelyJoin rfl lonelyJoin_fits runs tests
  have answer : t = settle (retireEngine (lonelyJoin.set1 (R.CE_STAT_STFAIL .B 0)) .B 0 0) :=
    Host.Outcome.next.inj (ht.symm.trans (selfTestFailed_exec runs tests))
  have reset : t.rd (R.CE_STAT_STATE .B 0) = 0 :=
    (congrArg (·.rd (R.CE_STAT_STATE .B 0)) answer).trans
      (lonelyJoin_retire.settle_rd (f := R.CE_STAT_STATE .B 0) rfl rfl (by decide) (by decide))
  rw [engRetired, show t.rd (R.CE_STAT_STATE .B (0 : Fin 8)) = 0 from reset] at retired
  exact absurd retired (by decide)

end Sys2Proof.Machine

namespace Sys2Proof.Machine

open Sys2Proof

/-! # A port that stops by the commit that settles a doubt (O39) -/

/-- Vat B's commit of tick 9, which writes nothing. -/
def lateEval : EvalSt :=
  { tick := 9, mode := .plain, phase := .committing, began := .plain, squashed := false, bank := 0, tickPt := 0, deadline := 100
    ts := 0, period := 0, caps := [], xhat := [], reloads := 1, valids := [], events := [], invout := false, writes := [], landed := 0
    clamped := [], moves := [], dead := none, seen := [] }

/-- A vat that computes, with these evaluations in slot 0 of its engine 0. -/
def evaluatingVat (es : List EvalSt) : VatSt :=
  { inReset := false, started := true, engines := modNth (List.replicate 8 {}) 0 (fun _ => { slots := [{ evals := es }, {}, {}, {}] }) }

/-- Port 0 is a drive whose zero effort is awaited (ZR). Vat A, the owner, has committed tick 9, whose effort of 0 has taken its port
to FAULT_PATTERN (R198). At a reload since then the decisions differed by that tick. Vat B, whose port still runs, now commits
it too. -/
def lateCommit : State :=
  let s : State :=
    { State.reset with
      dev := .run, rst := { phase := .done }, vatA := evaluatingVat [], vatB := evaluatingVat [lateEval]
      arb := { seen := [⟨.A, 0, 9, 0, 0⟩], doubts := [(0, 9)] } }
  let s := ((s.wr R.OWN_STAT_OWNER 1).wr (R.VAT_ROLE_ROLE .A) roleACTIVE).wr (R.VAT_ROLE_ROLE .B) roleSTANDBY
  let s := [Vat.A, .B].foldl (fun s v => (s.set1 (R.GS_BIND_BOUND v 0 0)).wr (R.PORT_CFG_TYPE v 0) 2) s
  let s := (s.wr (R.PORT_STATE_STATE .A 0) FAULTPAT).wr (R.PORT_FPCFG_PATNOW .A 0) 1
  (s.wr (R.PORT_STATE_STATE .B 0) RUN).set1 (R.DRV_STAT_ZR .B 0)

theorem lateCommit_fits : Fits lateCommit := ⟨by unfold WheelFits; decide +kernel, by decide +kernel, by decide +kernel⟩

theorem lateCommit_committing : committing lateCommit .B 0 0 = some lateEval := by decide +kernel

/-- The guard takes Vat B's port out of RUN by the same effort, before the commits are compared: then neither vat's port runs. -/
theorem lateCommit_stops : portRuns (completeCommit lateCommit .B 0 0) 0 = false := by decide +kernel

theorem lateCommit_unflagged : (settle (completeCommit lateCommit .B 0 0)).is R.OWN_MMF_RELOAD_F = false := by decide +kernel

/-- Refutes O39: the comparator compares the reloads of a running port only (R246), and where the guard takes the port out of RUN
at the very commit that settles a doubt (`lateCommit_stops`), the difference is no mismatch. `lateCommit` meets the second clause's
premises, and RELOAD_F stays clear in it. -/
theorem not_commitsAndDeadlines : ¬ Obligations.CommitsAndDeadlines := by
  unfold Obligations.CommitsAndDeadlines
  rintro ⟨-, doubtSettled, -⟩
  have runs : engRuns lateCommit .B (0 : Fin 8) = true := by decide +kernel
  obtain ⟨t, answer, -, -, flagged, -⟩ := doubtSettled .B 0 0 lateEval lateCommit rfl lateCommit_fits runs lateCommit_committing
    (by decide +kernel) (by decide +kernel) (by decide +kernel) (by decide +kernel)
  have completed : exec (.commitComplete .B 0 0) lateCommit = .next (settle (completeCommit lateCommit .B 0 0)) :=
    congrArg (fun s => Host.Outcome.next (settle s)) (if_pos runs)
  rw [← Host.Outcome.next.inj (completed.symm.trans answer), lateCommit_unflagged] at flagged
  exact absurd flagged (by decide)

end Sys2Proof.Machine

namespace Sys2Proof.Machine

open Sys2Proof

/-! # The end of an evaluation (O38)

## Lists of evaluations and the slots that hold them -/

section Slots

variable {s t : State} {v w : Vat} {c d k j : Nat} {q P : EvalSt → Bool} {f : EvalSt → EvalSt} {es : List EvalSt} {e : EvalSt}
  {h : GraphSt → GraphSt}

theorem find_modFirst (hf : es.find? q = some e) (hq : q (f e) = true) : (modFirst q f es).find? q = some (f e) := by
  induction es with
  | nil => cases hf
  | cons a es ih =>
    rw [modFirst]
    split
    · next ha =>
      obtain rfl : a = e := by simpa [ha] using hf
      exact List.find?_cons_of_pos hq
    · next ha => rw [List.find?_cons_of_neg ha, ih (by simpa [ha] using hf)]

/-- What the change brings about, where it comes about. -/
theorem any_modFirst_changed (hf : es.find? q = some e) (hP : P (f e) = true) : (modFirst q f es).any P = true := by
  induction es with
  | nil => cases hf
  | cons a es ih =>
    rw [modFirst]
    split
    · next ha =>
      obtain rfl : a = e := by simpa [ha] using hf
      rw [List.any_cons, hP, Bool.true_or]
    · next ha => rw [List.any_cons, ih (by simpa [ha] using hf), Bool.or_true]

/-- What the change leaves. -/
theorem any_modFirst_kept (hP : ∀ e, q e = true → P e = true → P (f e) = true) (he : es.any P = true) :
    (modFirst q f es).any P = true := by
  induction es with
  | nil => cases he
  | cons a es ih =>
    rw [List.any_cons, Bool.or_eq_true] at he
    rw [modFirst]
    split
    · next ha =>
      rw [List.any_cons, Bool.or_eq_true]
      exact he.imp (hP a ha) id
    · rw [List.any_cons, Bool.or_eq_true]
      exact he.imp id ih

/-- As many evaluations have `P` after a change that does not touch `P`. -/
theorem filter_modFirst_kept (hP : ∀ e, P (f e) = P e) : ((modFirst q f es).filter P).length = (es.filter P).length := by
  induction es with
  | nil => rfl
  | cons a es ih =>
    rw [modFirst]
    split
    · rw [List.filter_cons, List.filter_cons, hP a]
      split <;> rfl
    · rw [List.filter_cons, List.filter_cons]
      split
      · exact congrArg (· + 1) ih
      · exact ih

/-- The first that has `P` loses it. -/
theorem filter_modFirst_lost (hP : ∀ e, P (f e) = false) (he : es.any P = true) :
    ((modFirst P f es).filter P).length + 1 = (es.filter P).length := by
  induction es with
  | nil => cases he
  | cons a es ih =>
    rw [modFirst]
    split
    · next ha => rw [List.filter_cons_of_neg (by simp [hP a]), List.filter_cons_of_pos ha, List.length_cons]
    · next ha =>
      rw [List.filter_cons_of_neg ha, List.filter_cons_of_neg ha, ih (by simpa [ha] using he)]

/-- Slot `k` of engine `c` has its place in the lists. -/
def SlotPlaced (s : State) (v : Vat) (c k : Nat) : Prop := c < (s.vat v).engines.length ∧ k < (getEng s v c).slots.length

/-- A slot that is not empty has its place. -/
theorem slot_placed (hs : getSlot s v c k ≠ {}) : SlotPlaced s v c k := by
  by_contra hn
  refine hs ?_
  by_cases hc : c < (s.vat v).engines.length
  · exact List.getD_eq_default _ _ (not_lt.mp fun hk => hn ⟨hc, hk⟩)
  · have absent : getEng s v c = {} := List.getD_eq_default _ _ (not_lt.mp hc)
    rw [getSlot, absent]
    rcases k with _ | _ | _ | _ | k <;> rfl

theorem slot_placed_of_find (he : (getSlot s v c k).evals.find? q = some e) : SlotPlaced s v c k :=
  slot_placed fun h => by simp [h] at he

theorem slot_placed_of_any (he : (getSlot s v c k).evals.any q = true) : SlotPlaced s v c k :=
  slot_placed fun h => by simp [h] at he

theorem getSlot_of_engines (he : (t.vat w).engines = (s.vat w).engines) : getSlot t w d j = getSlot s w d j := by
  rw [getSlot, getSlot, getEng, getEng, he]

theorem getSlot_modSlot (hp : SlotPlaced s v c k) : getSlot (modSlot s v c k h) v c k = h (getSlot s v c k) := by
  unfold getSlot getEng modSlot modEng
  rw [State.vat_modVat_self]
  dsimp only
  rw [nth_modNth_self hp.1]
  exact nth_modNth_self hp.2

theorem nth_modNth_cases {α : Type} (l : List α) (i : Nat) (f : α → α) (j : Nat) (a : α) :
    nth (modNth l i f) j a = nth l j a ∨ nth (modNth l i f) j a = f (nth l j a) := by
  by_cases h : i = j
  · subst h
    by_cases hi : i < l.length
    · exact .inr (nth_modNth_self hi)
    · exact .inl (by simp [nth, modNth, hi])
  · exact .inl (nth_modNth_other h)

/-- A slot after a change of one: as it was, or changed so. -/
theorem getSlot_modSlot_cases (s : State) (v : Vat) (c k : Nat) (h : GraphSt → GraphSt) (w : Vat) (d j : Nat) :
    getSlot (modSlot s v c k h) w d j = getSlot s w d j ∨ getSlot (modSlot s v c k h) w d j = h (getSlot s w d j) := by
  by_cases hv : v = w
  · subst hv
    unfold getSlot getEng modSlot modEng
    rw [State.vat_modVat_self]
    rcases nth_modNth_cases (s.vat v).engines c (fun x => { x with slots := modNth x.slots k h }) d {} with he | he <;>
      dsimp only at he ⊢ <;> rw [he]
    · exact .inl rfl
    · exact nth_modNth_cases _ k h j {}
  · exact .inl (getSlot_of_engines (congrArg VatSt.engines (modVat_other hv)))

end Slots

end Sys2Proof.Machine

namespace Sys2Proof.Machine

open Sys2Proof

/-! ## What engines write while they evaluate -/

/-- A state without the registers and the parts that evaluations change. -/
def evalRest (s : State) : State :=
  { s with regs := [], bus := {}, vatA := { s.vatA with engines := [] }, vatB := { s.vatB with engines := [] } }

/-- `s` differs from `r` at most in the fields that `W` names and in the engines. -/
structure EvalOnly (r s : State) (W : Field → Prop) : Prop where
  rd : ∀ f, (∀ g, W g → f.apart g = true) → s.rd f = r.rd f
  rest : evalRest s = evalRest r

section EvalOps

variable {r s t : State} {W W' : Field → Prop} {f g : Field} {v w : Vat} {c d k j p x : Nat} {q : EvalSt → Bool} {e : EvalSt}

theorem EvalOnly.refl : EvalOnly s s W := ⟨fun _ _ => rfl, rfl⟩

theorem EvalOnly.trans (h : EvalOnly r s W) (h' : EvalOnly s t W) : EvalOnly r t W :=
  ⟨fun f hf => (h'.rd f hf).trans (h.rd f hf), h'.rest.trans h.rest⟩

theorem EvalOnly.weaken (h : EvalOnly r s W) (hw : ∀ g, W g → W' g) : EvalOnly r s W' :=
  ⟨fun f hf => h.rd f fun g hg => hf g (hw g hg), h.rest⟩

theorem EvalOnly.wr (h : EvalOnly r s W) (hg : W g) (hf : g.fits = true := by rfl) : EvalOnly r (s.wr g x) W :=
  ⟨fun f ha => (State.rd_wr_apart _ _ _ _ hf (ha g hg)).trans (h.rd f ha), h.rest⟩

theorem EvalOnly.set1 (h : EvalOnly r s W) (hg : W g) (hf : g.fits = true := by rfl) : EvalOnly r (s.set1 g) W :=
  ⟨(h.wr (x := 1) hg hf).rd, h.rest⟩

theorem EvalOnly.modEng (h : EvalOnly r s W) {y : EngSt → EngSt} : EvalOnly r (modEng s v c y) W :=
  ⟨fun f hf => (State.rd_modVat ..).trans (h.rd f hf), Eq.trans (by cases v <;> rfl) h.rest⟩

theorem EvalOnly.modSlot (h : EvalOnly r s W) {y : GraphSt → GraphSt} : EvalOnly r (modSlot s v c k y) W := h.modEng

theorem EvalOnly.foldl {α : Type} {y : State → α → State} {l : List α} (h : EvalOnly r s W)
    (hy : ∀ {t a}, EvalOnly r t W → EvalOnly r (y t a) W) : EvalOnly r (l.foldl y s) W := by
  induction l generalizing s with
  | nil => exact h
  | cons a l ih => exact ih (hy h)

/-- A part of the state that evaluations do not touch. -/
theorem EvalOnly.part {α : Type} (h : EvalOnly r s W) (y : State → α) (hy : ∀ t, y (evalRest t) = y t := by exact fun _ => rfl) :
    y s = y r :=
  (hy s).symm.trans ((congrArg y h.rest).trans (hy r))

theorem EvalOnly.calm (h : EvalOnly r s W) (hc : Calm r) : Calm s := (h.part (·.rst.sysAfterSto)).trans hc

/-! ### The whey window and the schedule (R100, R150) -/

/-- The fields that show how engine `c`'s slots stand: STATE, and the whey window's STAT and TICK. -/
def ShownField (v : Vat) (c : Nat) (g : Field) : Prop :=
  g.addr = R.CE_STAT v c ∨ ∃ j < 4, g.addr = R.WHEY_STAT v c j ∨ g.addr = R.WHEY_TICK v c j

theorem refreshWhey_only (hk : k < 4) : EvalOnly s (refreshWhey s v c k) (ShownField v c) := by
  have stat {lo wd : Nat} : ShownField v c ⟨R.WHEY_STAT v c k, lo, wd⟩ := .inr ⟨k, hk, .inl rfl⟩
  have tick {lo wd : Nat} : ShownField v c ⟨R.WHEY_TICK v c k, lo, wd⟩ := .inr ⟨k, hk, .inr rfl⟩
  unfold refreshWhey
  extract_lets g a e b
  have hb : EvalOnly s b (ShownField v c) := (EvalOnly.refl.wr stat).wr stat
  clear_value b e
  split
  · exact ((hb.set1 stat).wr tick).set1 tick
  · exact ((hb.wr stat).wr tick).wr tick

theorem engines_refreshWhey : ((refreshWhey s v c k).vat w).engines = (s.vat w).engines := by
  unfold refreshWhey
  extract_lets g a e b
  have hb : (b.vat w).engines = (s.vat w).engines := by simp [b, a]
  clear_value b e
  split <;> simpa using hb

/-- An evaluation starts in bank `b`. -/
def startIn (b : Nat) (e : EvalSt) : EvalSt := { e with phase := .running, bank := b }

/-- The first ready evaluation of a slot starts. -/
def startFirst (b : Nat) (g : GraphSt) : GraphSt := { g with evals := modFirst (fun e => e.phase == .ready) (startIn b) g.evals }

theorem earliest_mem {l : List (Nat × Nat × Nat)} {a : Nat × Nat × Nat} (h : earliest l = some a) : a ∈ l := by
  induction l generalizing a with
  | nil => cases h
  | cons b l ih =>
    rw [earliest] at h
    split at h
    · next q hq =>
      split at h
      · exact .tail _ (Option.some.inj h ▸ ih hq)
      · exact Option.some.inj h ▸ .head _
    · exact Option.some.inj h ▸ .head _

theorem readyList_slot {a : Nat × Nat × Nat} (h : a ∈ readyList s v c) : a.2.1 < 4 := by
  obtain ⟨k, hk, ha⟩ := List.mem_filterMap.mp h
  dsimp only at ha
  split at ha
  · obtain ⟨b, -, rfl⟩ := Option.map_eq_some_iff.mp ha
    exact List.mem_range.mp hk
  · cases ha

/-- What the schedule can do: nothing, or start the first ready evaluation of one slot, or none;
and show in STATE whether one runs. -/
theorem schedule_cases : schedule s v c = s ∨ ∃ u x, schedule s v c = u.wr (R.CE_STAT_STATE v c) x
    ∧ (u = s ∨ ∃ j < 4, ∃ b, u = refreshWhey (modSlot s v c j (startFirst b)) v c j) := by
  unfold schedule
  split
  · exact .inl rfl
  · refine .inr ⟨_, _, rfl, ?_⟩
    split
    · exact .inl rfl
    · split
      · exact .inl rfl
      · next n k b hb => exact .inr ⟨k, readyList_slot (earliest_mem hb), b, rfl⟩

theorem schedule_only : EvalOnly s (schedule s v c) (ShownField v c) := by
  rcases schedule_cases (s := s) (v := v) (c := c) with h | ⟨u, x, h, rfl | ⟨j, hj, b, rfl⟩⟩ <;> rw [h]
  · exact .refl
  · exact EvalOnly.refl.wr (.inl rfl)
  · exact ((EvalOnly.refl.modSlot).trans (refreshWhey_only hj)).wr (.inl rfl)

/-- A slot after the schedule: as it was, or with its first ready evaluation started. -/
theorem schedule_slot : getSlot (schedule s v c) w d j = getSlot s w d j
    ∨ ∃ b, getSlot (schedule s v c) w d j = startFirst b (getSlot s w d j) := by
  rcases schedule_cases (s := s) (v := v) (c := c) with h | ⟨u, x, h, rfl | ⟨i, hi, b, rfl⟩⟩ <;> rw [h]
  · exact .inl rfl
  · exact .inl (getSlot_of_engines (by rw [vat_wr]))
  · rw [getSlot_of_engines (t := State.wr _ _ _) ((congrArg VatSt.engines vat_wr).trans engines_refreshWhey)]
    exact (getSlot_modSlot_cases s v c i (startFirst b) w d j).imp_right fun h => ⟨b, h⟩

/-- What the start of an evaluation leaves to a slot's evaluations, the schedule leaves. -/
theorem schedule_any {P : EvalSt → Bool} (hP : ∀ b e, e.phase = .ready → P e = true → P (startIn b e) = true)
    (h : (getSlot s w d j).evals.any P = true) : (getSlot (schedule s v c) w d j).evals.any P = true := by
  rcases schedule_slot (s := s) (v := v) (c := c) (w := w) (d := d) (j := j) with hs | ⟨b, hs⟩ <;> rw [hs]
  · exact h
  · exact any_modFirst_kept (fun e he => hP b e (eq_of_beq he)) h

/-! ### The verdict (R142) -/

/-- The fields in which slot `k`'s entries show their verdicts. -/
def JudgedField (v : Vat) (c k : Nat) (g : Field) : Prop :=
  ∃ p, g = R.WE_XHAT_SPEC v c k p ∨ g = R.WE_RESID_RESID v c k p ∨ g = R.WE_CFG_OUT v c k p ∨ g = R.WE_CFG_ABSENT v c k p

/-- Every entry of a slot has its verdict. -/
def judged (s : State) (v : Vat) (c k : Nat) (e : EvalSt) : State :=
  (entries (getSlot s v c k)).foldl (fun s p => judgeEntry s v c k e p) s

/-- An evaluation goes to its commit. -/
def toCommit (e : EvalSt) : EvalSt := { e with phase := .committing }

/-- What has become of slot `k`'s first evaluation of a kind is shown, and the engine goes on. -/
def concluded (s : State) (v : Vat) (c k : Nat) (q : EvalSt → Bool) (f : EvalSt → EvalSt) : State :=
  schedule (refreshWhey (modEvals s v c k (modFirst q f)) v c k) v c

theorem concluded_only {f : EvalSt → EvalSt} (hk : k < 4) : EvalOnly s (concluded s v c k q f) (ShownField v c) :=
  ((EvalOnly.refl.modSlot).trans (refreshWhey_only hk)).trans schedule_only

theorem concluded_any {f : EvalSt → EvalSt} {P : EvalSt → Bool} (h : (getSlot s v c k).evals.find? q = some e)
    (he : P (f e) = true)
    (hP : ∀ b e, e.phase = .ready → P e = true → P (startIn b e) = true) :
    (getSlot (concluded s v c k q f) v c k).evals.any P = true := by
  refine schedule_any hP ?_
  rw [getSlot_of_engines engines_refreshWhey, modEvals, getSlot_modSlot (slot_placed_of_find h)]
  exact any_modFirst_changed h he

theorem judgeEntry_only {y : Nat × PredDef} : EvalOnly s (judgeEntry s v c k e y) (JudgedField v c k) := by
  unfold judgeEntry
  extract_lets p a
  have ha : EvalOnly s a (JudgedField v c k) := EvalOnly.refl.wr ⟨p, .inl rfl⟩
  have out : JudgedField v c k (R.WE_CFG_OUT v c k p) := ⟨p, .inr (.inr (.inl rfl))⟩
  have absent : JudgedField v c k (R.WE_CFG_ABSENT v c k p) := ⟨p, .inr (.inr (.inr rfl))⟩
  have resid : JudgedField v c k (R.WE_RESID_RESID v c k p) := ⟨p, .inr (.inl rfl)⟩
  clear_value a
  split
  · exact ((ha.wr resid).wr out).set1 absent
  · exact ((ha.wr resid).wr out).wr absent

theorem judged_only : EvalOnly s (judged s v c k e) (JudgedField v c k) := EvalOnly.refl.foldl (·.trans judgeEntry_only)

theorem engines_judgeEntry {y : Nat × PredDef} : ((judgeEntry s v c k e y).vat w).engines = (s.vat w).engines := by
  unfold judgeEntry
  extract_lets p a
  have ha : (a.vat w).engines = (s.vat w).engines := by simp [a]
  clear_value a
  split <;> simpa using ha

theorem engines_judged : ((judged s v c k e).vat w).engines = (s.vat w).engines := by
  unfold judged
  generalize entries (getSlot s v c k) = l
  induction l generalizing s with
  | nil => rfl
  | cons y l ih => exact ih.trans engines_judgeEntry

theorem verdict_none (h : (getSlot s v c k).evals.find? q = none) : verdict s v c k q = s := by
  rw [verdict]
  dsimp only
  rw [h]

/-- A plain evaluation, or a speculative one with every residual in its band, goes to its commit. -/
theorem verdict_commits (h : (getSlot s v c k).evals.find? q = some e)
    (hm : e.mode ≠ .spec ∨ (entries (getSlot s v c k)).any (entrySquashes e) = false) :
    ∃ u, (u = s ∨ u = judged s v c k e)
      ∧ verdict s v c k q = concluded u v c k q toCommit := by
  by_cases hs : e.mode = .spec
  · refine ⟨_, .inr rfl, ?_⟩
    rw [verdict]
    dsimp only
    rw [h]
    simp only [hs, beq_self_eq_true, if_true, hm.resolve_left (not_not.mpr hs)]
    rfl
  · refine ⟨_, .inl rfl, ?_⟩
    rw [verdict]
    dsimp only
    rw [h]
    exact if_neg (by simpa using hs)

/-- A speculative evaluation with a residual outside its band counts a squash and runs again. -/
theorem verdict_squashes (h : (getSlot s v c k).evals.find? q = some e) (hm : e.mode = .spec)
    (hs : (entries (getSlot s v c k)).any (entrySquashes e) = true) :
    verdict s v c k q = concluded ((judged s v c k e).incSat (R.WHEY_NSQUASH_NSQUASH v c k)) v c k q rerunOf := by
  rw [verdict]
  dsimp only
  rw [h]
  simp only [hm, hs, beq_self_eq_true, if_true]
  rfl

end EvalOps

end Sys2Proof.Machine

namespace Sys2Proof.Machine

open Sys2Proof

/-! ## The end of an evaluation -/

section EndEval

variable {s t u : State} {f g : Field} {W : Field → Prop} {v w : Vat} {c d k j p x lo wd : Nat}
  {q : EvalSt → Bool} {e e' : EvalSt}

/-- `e'` is `e` with results. -/
structure HasResults (e e' : EvalSt) : Prop where
  tick : e'.tick = e.tick
  mode : e'.mode = e.mode
  phase : e'.phase = e.phase
  caps : e'.caps = e.caps
  xhat : e'.xhat = e.xhat

/-- `t` holds the results of slot `k`'s running evaluation, `e` in `s`. -/
structure Stored (s t : State) (v : Vat) (c k : Nat) (e : EvalSt) : Prop where
  only : EvalOnly s t (fun _ => False)
  preds : (getSlot t v c k).preds = (getSlot s v c k).preds
  running : ∃ e', (getSlot t v c k).evals.find? (fun e => e.phase == .running) = some e' ∧ HasResults e e'

/-- The results change what the engine's whey buffer holds, and the evaluation. -/
theorem storeResults_eq : ∃ (y : EngSt → List (Nat × Word)) (f : EvalSt → EvalSt), (∀ a, HasResults a (f a))
    ∧ storeResults s v c k e
      = modEvals (modEng s v c (fun q => { q with whey := y q })) v c k (modFirst (fun q => q.phase == .running) f) := by
  refine ⟨_, _, ?_, rfl⟩
  exact fun _ => ⟨rfl, rfl, rfl, rfl, rfl⟩

theorem getSlot_whey {y : EngSt → List (Nat × Word)} :
    getSlot (modEng s v c (fun q => { q with whey := y q })) w d j = getSlot s w d j := by
  by_cases hv : v = w
  · subst hv
    unfold getSlot getEng modEng
    rw [State.vat_modVat_self]
    rcases nth_modNth_cases (s.vat v).engines c (fun q => { q with whey := y q }) d {} with he | he <;>
      dsimp only at he ⊢ <;> rw [he]
  · exact getSlot_of_engines (congrArg VatSt.engines (modVat_other hv))

theorem storeResults_stored (h : (getSlot s v c k).evals.find? (fun e => e.phase == .running) = some e) :
    Stored s (storeResults s v c k e) v c k e := by
  obtain ⟨y, f, hf, eq⟩ := storeResults_eq (s := s) (v := v) (c := c) (k := k) (e := e)
  have placed : SlotPlaced (modEng s v c (fun q => { q with whey := y q })) v c k :=
    slot_placed_of_find (getSlot_whey.symm ▸ h)
  have slot : getSlot (storeResults s v c k e) v c k
      = { getSlot s v c k with evals := modFirst (fun q => q.phase == .running) f (getSlot s v c k).evals } := by
    rw [eq, modEvals, getSlot_modSlot placed, getSlot_whey]
  have runs : (f e).phase = .running := (hf e).phase.trans (by simpa using List.find?_some h)
  exact {
    only := eq ▸ EvalOnly.refl.modEng.modSlot
    preds := by rw [slot]
    running := ⟨f e, by rw [slot]; exact find_modFirst h (by simp [runs]), hf e⟩ }

/-- The verdict of an evaluation with results is that without. -/
theorem HasResults.squashes (h : HasResults e e') {g g' : GraphSt} (hg : g'.preds = g.preds) :
    (entries g').any (entrySquashes e') = (entries g).any (entrySquashes e) := by
  have same : entrySquashes e' = entrySquashes e := by
    funext y
    rw [entrySquashes, entrySquashes, arrivalOf, arrivalOf, h.caps, h.xhat]
  rw [entries, entries, hg, same]

/-- An ended evaluation waits for the verdict. -/
def toWait (e : EvalSt) : EvalSt := { e with phase := .ended }

theorem endEval_waits (hr : runningSlot s v c = some k)
    (h : (getSlot s v c k).evals.find? (fun e => e.phase == .running) = some e)
    (hm : e.mode = .spec) (hj : e.judgeable (getSlot s v c k) = false) :
    ∃ t, Stored s t v c k e ∧ endEval s v c = concluded t v c k (fun e => e.phase == .running) toWait := by
  have stored := storeResults_stored h
  have waits : e.judgeable (getSlot (storeResults s v c k e) v c k) = false := by
    rwa [EvalSt.judgeable, stored.preds]
  refine ⟨_, stored, ?_⟩
  rw [endEval, hr]
  dsimp only
  rw [h]
  exact if_pos (by simp [hm, waits])

theorem endEval_judges (hr : runningSlot s v c = some k)
    (h : (getSlot s v c k).evals.find? (fun e => e.phase == .running) = some e)
    (hj : e.mode ≠ .spec ∨ e.judgeable (getSlot s v c k) = true) :
    ∃ t, Stored s t v c k e ∧ endEval s v c = verdict t v c k (fun e => e.phase == .running) := by
  have stored := storeResults_stored h
  have due : e.mode ≠ .spec ∨ e.judgeable (getSlot (storeResults s v c k e) v c k) = true := by
    rwa [EvalSt.judgeable, stored.preds]
  refine ⟨_, stored, ?_⟩
  rw [endEval, hr]
  dsimp only
  rw [h]
  exact if_neg (by simpa [imp_iff_not_or] using due)

theorem runningSlot_lt (h : runningSlot s v c = some k) : k < 4 := List.mem_range.mp (List.mem_of_find?_eq_some h)

theorem rd_incSat_self (hf : f.fits = true) : (s.incSat f).rd f = min (s.rd f + 1) (2 ^ f.width - 1) := by
  have := Nat.two_pow_pos f.width
  rw [State.incSat, State.rd_wr_self _ _ _ hf, Nat.mod_eq_of_lt (by omega)]

theorem rd_incSat_squashes : (s.incSat (R.WHEY_NSQUASH_NSQUASH v c k)).rd (R.WHEY_NSQUASH_NSQUASH v c k)
    = min (s.rd (R.WHEY_NSQUASH_NSQUASH v c k) + 1) (2 ^ 31 - 1) := rd_incSat_self rfl

/-! ### After the cycle's consequences -/

theorem cycleFields_outside_engines : cycleFields.all (fun g => decide (g.addr < 0x50000000)
    || decide (g.addr % 0x10000000 < 0x04300000) || decide (0x04500000 ≤ g.addr % 0x10000000)) = true := by decide +kernel

theorem engine_free (h0 : v.base + 0x04300000 ≤ f.addr) (h1 : f.addr < v.base + 0x04500000) : cycleFree f = true := by
  refine List.all_eq_true.mpr fun g hg => apart_of_addr fun e => ?_
  have ho := List.all_eq_true.mp cycleFields_outside_engines g hg
  simp only [Bool.or_eq_true, decide_eq_true_eq, ← e] at ho
  cases v <;> simp only [Vat.base] at h0 h1 <;> omega

theorem settle_slot (hc : Calm s) : getSlot (settle s) w d j = getSlot s w d j := getSlot_of_engines (settle_vat_engines hc w)

theorem ShownField.le (h : ShownField v c g) : v.base + 0x04300000 ≤ g.addr := by
  rcases h with h | ⟨j, -, h | h⟩ <;> rw [h] <;> simp only [R.CE_STAT, R.WHEY_STAT, R.WHEY_TICK] <;> omega

theorem JudgedField.le (h : JudgedField v c k g) : v.base + 0x04380040 + c * 0x1000 + k * 0x200 ≤ g.addr := by
  obtain ⟨p, rfl | rfl | rfl | rfl⟩ := h <;>
    simp only [R.WE_XHAT_SPEC, R.WE_XHAT, R.WE_RESID_RESID, R.WE_RESID, R.WE_CFG_OUT, R.WE_CFG_ABSENT, R.WE_CFG] <;> omega

/-- What an engine writes at the end of an evaluation of slot `k`. -/
inductive EngineField (v : Vat) (c k : Nat) (g : Field) : Prop where
  | shown (h : ShownField v c g)
  | judged (h : JudgedField v c k g)
  | squashes (h : g = R.WHEY_NSQUASH_NSQUASH v c k)

theorem EngineField.le : EngineField v c k g → v.base + 0x04300000 ≤ g.addr
  | .shown h => h.le
  | .judged h => by have := h.le; omega
  | .squashes h => by rw [h]; simp only [R.WHEY_NSQUASH_NSQUASH, R.WHEY_NSQUASH]; omega

/-- What an evaluation leaves: the owner and memory. -/
theorem EvalOnly.settled_owner (h : EvalOnly s u W) (hc : Calm s) (hW : ∀ g, W g → v.base ≤ g.addr) :
    (settle u).owner = s.owner ∧ (settle u).mem = s.mem := by
  have owner : (settle u).rd R.OWN_STAT_OWNER = s.rd R.OWN_STAT_OWNER := by
    rw [settle_rd (h.calm hc) _ (by decide +kernel)]
    refine h.rd _ fun g hg => apart_of_addr fun e => ?_
    have := hW g hg
    have := base_ge v
    have : R.OWN_STAT_OWNER.addr < 0x50000000 := by decide
    omega
  exact ⟨by rw [State.owner, owner, State.owner], (settle_mem (h.calm hc)).trans (h.part State.mem)⟩

theorem squashes_apart_shown (h : ShownField v c g) : (R.WHEY_NSQUASH_NSQUASH v c k).apart g = true := by
  refine apart_of_addr ?_
  simp only [R.WHEY_NSQUASH_NSQUASH, R.WHEY_NSQUASH]
  rcases h with h | ⟨j, hj, h | h⟩ <;> rw [h] <;> simp only [R.CE_STAT, R.WHEY_STAT, R.WHEY_TICK] <;> omega

theorem squashes_apart_judged (h : JudgedField v c k g) : (R.WHEY_NSQUASH_NSQUASH v c k).apart g = true := by
  refine apart_of_addr ?_
  have := h.le
  simp only [R.WHEY_NSQUASH_NSQUASH, R.WHEY_NSQUASH]
  omega

theorem settle_squashes (hc : Calm s) (hn : c < 8) (hk : k < 4) :
    (settle s).rd (R.WHEY_NSQUASH_NSQUASH v c k) = s.rd (R.WHEY_NSQUASH_NSQUASH v c k) := by
  refine settle_rd hc _ (engine_free (v := v) ?_ ?_) <;> simp only [R.WHEY_NSQUASH_NSQUASH, R.WHEY_NSQUASH] <;> omega

theorem execEvaluationEnd_eq {c : Fin 8} (h : engRuns s v c = true) :
    exec (.evaluationEnd v c) s = .next (settle (endEval s v c)) :=
  congrArg (fun s => Host.Outcome.next (settle s)) (if_pos h)

/-- A slot whose evaluation has gone to its commit is committing. -/
theorem concluded_commits (hc : Calm (concluded s v c k q toCommit)) (h : (getSlot s v c k).evals.find? q = some e) :
    (committing (settle (concluded s v c k q toCommit)) v c k).isSome = true := by
  rw [committing, settle_slot hc, List.find?_isSome, ← List.any_eq_true]
  exact concluded_any h rfl fun b a ready committing => by simp [ready] at committing

/-- A plain evaluation, or one whose residuals all lie in their bands, ends: it commits, and no squash is counted. -/
theorem evaluationEnd_commits {c : Fin 8} (hc : Calm s) (hr : engRuns s v c = true) (hs : runningSlot s v c = some k)
    (h : (getSlot s v c k).evals.find? (fun e => e.phase == .running) = some e)
    (hm : e.mode ≠ .spec ∨ (e.judgeable (getSlot s v c k) = true ∧ (entries (getSlot s v c k)).any (entrySquashes e) = false)) :
    Answers (.evaluationEnd v c) s (fun t => (committing t v c k).isSome = true
      ∧ t.rd (R.WHEY_NSQUASH_NSQUASH v c k) = s.rd (R.WHEY_NSQUASH_NSQUASH v c k) ∧ t.owner = s.owner ∧ t.mem = s.mem) := by
  have hk := runningSlot_lt hs
  obtain ⟨r, stored, ended⟩ := endEval_judges hs h (hm.imp_right And.left)
  obtain ⟨e', running, results⟩ := stored.running
  obtain ⟨u, hu, verdict⟩ := verdict_commits running
    (hm.imp (results.mode ▸ ·) fun hm => (results.squashes stored.preds).trans hm.2)
  have engines : (getSlot u v c k).evals = (getSlot r v c k).evals := by
    rcases hu with rfl | rfl
    · rfl
    · rw [getSlot_of_engines engines_judged]
  have judged : EvalOnly s u (fun g => ShownField v c g ∨ JudgedField v c k g) := by
    refine (stored.only.weaken fun _ => False.elim).trans ?_
    rcases hu with rfl | rfl
    · exact .refl
    · exact judged_only.weaken fun _ => .inr
  have only : EvalOnly s (endEval s v c) (fun g => ShownField v c g ∨ JudgedField v c k g) := by
    rw [ended, verdict]
    exact judged.trans ((concluded_only hk).weaken fun _ => .inl)
  have calm := only.calm hc
  obtain ⟨owner, mem⟩ := only.settled_owner (v := v) hc fun g hg =>
    hg.elim (fun hg => by have := hg.le; omega) fun hg => by have := hg.le; omega
  refine ⟨_, execEvaluationEnd_eq hr, ?_, ?_, owner, mem⟩
  · rw [ended, verdict] at calm ⊢
    exact concluded_commits calm (engines ▸ running)
  · rw [settle_squashes calm c.isLt hk]
    exact only.rd _ fun g hg => hg.elim squashes_apart_shown squashes_apart_judged

/-- A speculative evaluation that lacks an arrival sample ends, and waits for it. -/
theorem evaluationEnd_waits {c : Fin 8} (hc : Calm s) (hr : engRuns s v c = true) (hs : runningSlot s v c = some k)
    (h : (getSlot s v c k).evals.find? (fun e => e.phase == .running) = some e) (hm : e.mode = .spec)
    (hj : e.judgeable (getSlot s v c k) = false) :
    Answers (.evaluationEnd v c) s (fun t =>
      (getSlot t v c k).evals.any (fun x => x.phase == .ended && x.mode == .spec && x.tick == e.tick) = true
        ∧ t.mem = s.mem) := by
  obtain ⟨r, stored, ended⟩ := endEval_waits hs h hm hj
  obtain ⟨e', running, results⟩ := stored.running
  have only : EvalOnly s (endEval s v c) (ShownField v c) := by
    rw [ended]
    exact (stored.only.weaken fun _ => False.elim).trans (concluded_only (runningSlot_lt hs))
  refine ⟨_, execEvaluationEnd_eq hr, ?_, (only.settled_owner (v := v) hc fun g hg => by have := hg.le; omega).2⟩
  rw [settle_slot (only.calm hc), ended]
  refine concluded_any running (by simp [toWait, results.mode, results.tick, hm]) fun b a ready ended => ?_
  simp [ready] at ended

/-- A speculative evaluation with a residual outside its band ends: it is squashed, and runs again plainly. -/
theorem evaluationEnd_squashes {c : Fin 8} (hc : Calm s) (hr : engRuns s v c = true) (hs : runningSlot s v c = some k)
    (h : (getSlot s v c k).evals.find? (fun e => e.phase == .running) = some e) (hm : e.mode = .spec)
    (hj : e.judgeable (getSlot s v c k) = true) (hq : (entries (getSlot s v c k)).any (entrySquashes e) = true) :
    Answers (.evaluationEnd v c) s (fun t =>
      t.rd (R.WHEY_NSQUASH_NSQUASH v c k) = min (s.rd (R.WHEY_NSQUASH_NSQUASH v c k) + 1) (2 ^ 31 - 1)
      ∧ (getSlot t v c k).evals.any (fun x => x.mode == .rerun && x.squashed && x.tick == e.tick) = true ∧ t.mem = s.mem) := by
  have hk := runningSlot_lt hs
  obtain ⟨r, stored, ended⟩ := endEval_judges hs h (.inr hj)
  obtain ⟨e', running, results⟩ := stored.running
  have verdict := verdict_squashes running (results.mode.trans hm) ((results.squashes stored.preds).trans hq)
  have judged : EvalOnly s (judged r v c k e') (JudgedField v c k) := (stored.only.weaken fun _ => False.elim).trans judged_only
  have engines : (getSlot ((Machine.judged r v c k e').incSat (R.WHEY_NSQUASH_NSQUASH v c k)) v c k).evals
    = (getSlot r v c k).evals := by
    rw [getSlot_of_engines (t := State.incSat _ _) ((congrArg VatSt.engines vat_wr).trans engines_judged)]
  have shown := concluded_only (s := (Machine.judged r v c k e').incSat (R.WHEY_NSQUASH_NSQUASH v c k)) (v := v) (c := c)
    (q := fun e => e.phase == .running) (f := rerunOf) hk
  have only : EvalOnly s (endEval s v c) (EngineField v c k) := by
    rw [ended, verdict]
    exact ((judged.weaken fun _ => .judged).wr (.squashes rfl)).trans (shown.weaken fun _ => .shown)
  have calm := only.calm hc
  refine ⟨_, execEvaluationEnd_eq hr, ?_, ?_, (only.settled_owner (v := v) hc fun g hg => by have := hg.le; omega).2⟩
  · rw [settle_squashes calm c.isLt hk, ended, verdict, shown.rd _ fun g hg => squashes_apart_shown hg, rd_incSat_squashes,
      judged.rd _ fun g hg => squashes_apart_judged hg]
  · rw [settle_slot calm, ended, verdict]
    exact concluded_any (engines ▸ running) (by simp [rerunOf, results.tick]) fun b a _ rerun => rerun

/-- Where no evaluation runs, nothing ends. -/
theorem evaluationEnd_idle {c : Fin 8} (hc : Calm s) (h : engRuns s v c = false ∨ runningSlot s v c = none) :
    Answers (.evaluationEnd v c) s (fun t => CycleOnly s t) := by
  refine ⟨settle s, congrArg (fun s => Host.Outcome.next (settle s)) ?_, settle_cycle hc⟩
  rcases h with h | h
  · exact if_neg (by simp [h])
  · split
    · rw [endEval, h]
    · rfl

end EndEval

end Sys2Proof.Machine

namespace Sys2Proof.Machine

open Sys2Proof

/-! ## What the transitions of ports change (R19-R21) -/

/-- The fields that a port's transition between states writes, but for DEGR. -/
def movedFields (v : Vat) (p : Nat) : List Field :=
  [R.PORT_STATE_STATE v p, R.PORT_PWMSTAT_TRIPLAT v p, R.PORT_FPCFG_FB v p, R.PORT_FPCFG_PATNOW v p, R.GRID_STAT_OL v p,
   R.GRID_STAT_OL_LEFT v p, R.DRV_STAT_OBS v p, R.DRV_STAT_ZR v p]

/-- The fields that show the pins of vat `v`'s legs. -/
def LegField (v : Vat) (g : Field) : Prop := ∃ n < 32, g ∈ cycleLegFields v n

def MovedField (v : Vat) (p : Nat) (g : Field) : Prop := g ∈ movedFields v p ∨ LegField v g

/-- The fields that an entry into FAULT_PATTERN writes too. -/
def EnteredField (v : Vat) (p : Nat) (g : Field) : Prop := g ∈ cyclePortFields v p ∨ LegField v g

/-- The fields that the ports of a vat write as the level orders act on them. -/
def OrderedField (v : Vat) (g : Field) : Prop := (∃ p < 8, EnteredField v p g) ∨ ∃ p < 8, g = ⟨R.PWM_COHERR v, 8 + p, 1⟩

/-- `s` differs from `r` at most in the fields that `W` names, in what an event writes, in vat `v`'s ports that `U` names, and in
legs and guards. -/
structure PortsOnly (v : Vat) (U : Nat → Prop) (W : Field → Prop) (r s : State) : Prop where
  rd : ∀ f, f.apart R.LOG_STAT_LOST = true → f.apart R.LOG_STAT_LOST_F = true → (∀ g, W g → f.apart g = true) → s.rd f = r.rd f
  rest : cycleRest s = cycleRest r
  dev : s.dev = r.dev
  ports : ∀ w q, (w = v → ¬ U q) → getPort s w q = getPort r w q

section PortOps

variable {r s t : State} {v w : Vat} {U U' : Nat → Prop} {W W' : Field → Prop} {f g : Field} {n p q x new cause : Nat}

theorem PortsOnly.refl : PortsOnly v U W s s := ⟨fun _ _ _ _ => rfl, rfl, rfl, fun _ _ _ => rfl⟩

theorem PortsOnly.trans (h : PortsOnly v U W r s) (h' : PortsOnly v U W s t) : PortsOnly v U W r t :=
  ⟨fun f ha hb hf => (h'.rd f ha hb hf).trans (h.rd f ha hb hf), h'.rest.trans h.rest, h'.dev.trans h.dev,
    fun w q hq => (h'.ports w q hq).trans (h.ports w q hq)⟩

/-- A field of a vat's unit that lies apart from `W`. -/
theorem PortsOnly.unit (h : PortsOnly v U W r s) {a i st lo wd : Nat}
    (ha : ∀ g, W g → Field.apart ⟨w.base + a + i * st, lo, wd⟩ g = true) :
    s.rd ⟨w.base + a + i * st, lo, wd⟩ = r.rd ⟨w.base + a + i * st, lo, wd⟩ :=
  have hl := apart_log (f := ⟨w.base + a + i * st, lo, wd⟩) unit_ge
  h.rd _ hl.1 hl.2 ha

theorem PortsOnly.mono (h : PortsOnly v U W r s) (hu : ∀ q, U q → U' q) (hw : ∀ g, W g → W' g) : PortsOnly v U' W' r s :=
  ⟨fun f ha hb hf => h.rd f ha hb fun g hg => hf g (hw g hg), h.rest, h.dev,
    fun w q hq => h.ports w q fun e hq' => hq e (hu q hq')⟩

theorem PortsOnly.ite {c : Prop} {_ : Decidable c} (hs : PortsOnly v U W r s) (ht : PortsOnly v U W r t) :
    PortsOnly v U W r (if c then s else t) := by
  split <;> assumption

theorem PortsOnly.when {c : Prop} {_ : Decidable c} (h : PortsOnly v U W r s) (ht : PortsOnly v U W r s → PortsOnly v U W r t) :
    PortsOnly v U W r (if c then t else s) := .ite (ht h) h

theorem PortsOnly.unless {c : Prop} {_ : Decidable c} (h : PortsOnly v U W r s) (ht : PortsOnly v U W r s → PortsOnly v U W r t) :
    PortsOnly v U W r (if c then s else t) := .ite h (ht h)

theorem PortsOnly.foldl {α : Type} {k : State → α → State} {l : List α} (h : PortsOnly v U W r s)
    (hk : ∀ {t a}, a ∈ l → PortsOnly v U W r t → PortsOnly v U W r (k t a)) : PortsOnly v U W r (l.foldl k s) :=
  List.foldlRecOn l k h fun _ ht _ ha => hk ha ht

theorem PortsOnly.wr (h : PortsOnly v U W r s) (hg : W g) (hf : g.fits = true := by rfl) : PortsOnly v U W r (s.wr g x) :=
  ⟨fun f ha hb hw => (State.rd_wr_apart _ _ _ _ hf (hw g hg)).trans (h.rd f ha hb hw), h.rest, h.dev, h.ports⟩

theorem PortsOnly.mark (h : PortsOnly v U W r s) {a i : Nat} : PortsOnly v U W r (s.mark a i) :=
  ⟨h.rd, ((CycleOnly.refl s).mark a i).rest.trans h.rest, h.dev, h.ports⟩

theorem PortsOnly.set1 (h : PortsOnly v U W r s) (hg : W g) (hf : g.fits = true := by rfl) : PortsOnly v U W r (s.set1 g) :=
  (h.wr hg hf).mark

theorem getPort_of_vat (h : t.vat w = s.vat w) : getPort t w q = getPort s w q := by rw [getPort, getPort, h]

theorem PortsOnly.event (h : PortsOnly v U W r s) {i j k : Nat} : PortsOnly v U W r (s.event i j k) :=
  ⟨fun f ha hb hw => (State.rd_event _ _ _ _ f ha hb).trans (h.rd f ha hb hw), (event_cycle (.refl s) i j k).rest.trans h.rest,
    (State.event_dev ..).trans h.dev, fun w q hq => (getPort_of_vat vat_event).trans (h.ports w q hq)⟩

theorem PortsOnly.vatEvent (h : PortsOnly v U W r s) {i j k : Nat} : PortsOnly v U W r (s.vatEvent w i j k) := h.unless (·.event)

theorem PortsOnly.vatFlagEdge (h : PortsOnly v U W r s) {i : Nat} (hg : W g) (hf : g.fits = true := by rfl) :
    PortsOnly v U W r (s.vatFlagEdge w i g) := (h.set1 hg hf).vatEvent

theorem PortsOnly.modVat (h : PortsOnly v U W r s) {k : VatSt → VatSt} (hk : vatRest (k (s.vat w)) = vatRest (s.vat w))
    (hp : (k (s.vat w)).ports = (s.vat w).ports) : PortsOnly v U W r (s.modVat w k) where
  rd f ha hb hw := (State.rd_modVat ..).trans (h.rd f ha hb hw)
  rest := ((CycleOnly.refl s).setVat w _ hk).rest.trans h.rest
  dev := (State.modVat_dev ..).trans h.dev
  ports x q hq := by
    refine Eq.trans ?_ (h.ports x q hq)
    by_cases hx : w = x
    · subst hx
      rw [getPort, getPort, State.vat_modVat_self, hp]
    · exact getPort_of_vat (modVat_other hx)

theorem PortsOnly.modLeg (h : PortsOnly v U W r s) {k : LegSt → LegSt} : PortsOnly v U W r (modLeg s w n k) := h.modVat rfl rfl

theorem PortsOnly.modGuard (h : PortsOnly v U W r s) {k : GuardSt → GuardSt} : PortsOnly v U W r (modGuard s w p k) :=
  h.modVat rfl rfl

theorem PortsOnly.modPort (h : PortsOnly v U W r s) {k : PortSt → PortSt} (hp : U p) : PortsOnly v U W r (modPort s v p k) where
  rd f ha hb hw := (State.rd_modVat ..).trans (h.rd f ha hb hw)
  rest := (modPort_cycle (.refl s) v p k).rest.trans h.rest
  dev := (State.modVat_dev ..).trans h.dev
  ports x q hq := by
    refine Eq.trans ?_ (h.ports x q hq)
    by_cases hx : v = x
    · subst hx
      rw [getPort, getPort, Machine.modPort, State.vat_modVat_self]
      exact nth_modNth_other fun e => hq rfl (e ▸ hp)
    · exact getPort_of_vat (modVat_other hx)

/-! ### One transition -/

theorem PortsOnly.setPins (h : PortsOnly v U W r s) (hW : ∀ g ∈ cycleLegFields v n, W g) {x y : Bool} :
    PortsOnly v U W r (setPins s v n x y) :=
  ((PortsOnly.modLeg (h.when fun h => h.when fun h => h.modLeg.set1 (hW _ (by simp [cycleLegFields])))).wr
    (hW _ (by simp [cycleLegFields]))).wr (hW _ (by simp [cycleLegFields]))

theorem PortsOnly.setPortPins (h : PortsOnly v U W r s) (hW : ∀ g, LegField v g → W g) {x y : Bool} :
    PortsOnly v U W r (setPortPins s v p x y) := h.foldl fun hn h => h.setPins fun g hg => hW g ⟨_, portLegs_lt hn, hg⟩

theorem PortsOnly.drivePattern (h : PortsOnly v U W r s) (hn : W (R.PORT_FPCFG_PATNOW v p)) (hW : ∀ g, LegField v g → W g) :
    PortsOnly v U W r (drivePattern s v p x) := (h.wr hn).setPortPins hW

theorem PortsOnly.toAllOff (h : PortsOnly v U W r s) (hn : W (R.PORT_FPCFG_PATNOW v p)) (hf : W (R.PORT_FPCFG_FB v p))
    (hW : ∀ g, LegField v g → W g) : PortsOnly v U W r (toAllOff s v p) := ((h.drivePattern hn hW).set1 hf).vatEvent

theorem PortsOnly.restoreOl (h : PortsOnly v U W r s) (hW : ∀ g, MovedField v p g → W g) : PortsOnly v U W r (restoreOl s v p) :=
  (h.wr (hW _ (.inl (by simp [movedFields])))).modGuard

/-- What leaves with RUN, once DEGR is clear. -/
theorem PortsOnly.leaveRun (h : PortsOnly v U W r (s.clr (R.PORT_STATE_DEGR v p))) (hp : U p) (hW : ∀ g, MovedField v p g → W g) :
    PortsOnly v U W r (leaveRun s v p) := by
  unfold Machine.leaveRun
  extract_lets a b c
  have hb : PortsOnly v U W r b := (h.modPort hp).foldl fun _ h => h.modLeg
  have hc : PortsOnly v U W r c := hb.when fun h => h.restoreOl hW
  exact ((hc.wr (hW _ (.inl (by simp [movedFields])))).wr (hW _ (.inl (by simp [movedFields])))).wr
    (hW _ (.inl (by simp [movedFields])))

/-- A transition, once the port has left RUN. -/
theorem PortsOnly.movePort (h : PortsOnly v U W r (if portState s v p = RUN then Machine.leaveRun s v p else s))
    (hne : portState s v p ≠ new) (hp : U p) (hW : ∀ g, MovedField v p g → W g) :
    PortsOnly v U W r (setPortState s v p new cause) := by
  have moved {g : Field} (hg : g ∈ movedFields v p) : W g := hW g (.inl hg)
  unfold setPortState
  extract_lets old a b c d e f g k
  rw [if_neg (show ¬ old = new from hne)]
  have hb : PortsOnly v U W r b := PortsOnly.when h fun h => h.modPort hp
  have hc : PortsOnly v U W r c := hb.when fun h => h.modPort hp
  have hd : PortsOnly v U W r d := hc.when fun h => h.wr (moved (by simp [movedFields]))
  have he : PortsOnly v U W r e := hd.when fun h => h.wr (moved (by simp [movedFields]))
  have hf : PortsOnly v U W r f := he.unless fun h => h.wr (moved (by simp [movedFields]))
  have hg : PortsOnly v U W r g := hf.when fun h => h.setPortPins fun g hg => hW g (.inr hg)
  have hk : PortsOnly v U W r k := hg.when fun h => h.foldl fun _ h => h.modLeg
  exact (hk.wr (moved (by simp [movedFields]))).vatEvent

theorem PortsOnly.setPortState (h : PortsOnly v U W r s) (hp : U p) (hd : W (R.PORT_STATE_DEGR v p))
    (hW : ∀ g, MovedField v p g → W g) :
    PortsOnly v U W r (setPortState s v p new cause) := by
  by_cases hne : portState s v p = new
  · rwa [Machine.setPortState, if_pos hne]
  · exact PortsOnly.movePort (h.when fun h => (h.wr hd).leaveRun hp hW) hne hp hW

theorem MovedField.entered (h : MovedField v p g) : EnteredField v p g :=
  h.imp_left fun h => by
    simp only [movedFields, List.mem_cons, List.not_mem_nil, or_false] at h
    rcases h with h | h | h | h | h | h | h | h <;> simp [h, cyclePortFields]

theorem PortsOnly.moveEntered (h : PortsOnly v U W r s) (hp : U p) (hW : ∀ g, EnteredField v p g → W g) :
    PortsOnly v U W r (Machine.setPortState s v p new cause) :=
  h.setPortState hp (hW _ (.inl (by simp [cyclePortFields]))) fun g hg => hW g hg.entered

theorem PortsOnly.enterPattern1 (h : PortsOnly v U W r s) (hp : U p) (hW : ∀ g, EnteredField v p g → W g) {y : Bool} :
    PortsOnly v U W r (enterPattern1 s v p cause x y) := by
  have port {g : Field} (hg : g ∈ cyclePortFields v p) : W g := hW g (.inl hg)
  have leg (g : Field) (hg : LegField v g) : W g := hW g (.inr hg)
  unfold Machine.enterPattern1
  extract_lets a b
  have hb : PortsOnly v U W r b :=
    ((h.moveEntered hp hW).wr (port (by simp [cyclePortFields]))).wr (port (by simp [cyclePortFields]))
  exact PortsOnly.ite (hb.toAllOff (port (by simp [cyclePortFields])) (port (by simp [cyclePortFields])) leg)
    (hb.drivePattern (port (by simp [cyclePortFields])) leg)

/-! ### Units and orders -/

abbrev VatPortsOnly (v : Vat) (r s : State) : Prop := PortsOnly v (· < 8) (OrderedField v) r s

theorem entered_ordered (hp : p < 8) (g : Field) (h : EnteredField v p g) : OrderedField v g := .inl ⟨p, hp, h⟩

theorem PortsOnly.unitState (h : VatPortsOnly v r s) (hp : p < 8) {y : Nat → Nat} :
    VatPortsOnly v r ((portUnit t v p).foldl (fun s q => Machine.setPortState s v q new (y q)) s) :=
  h.foldl fun hq h => h.moveEntered (portUnit_lt hp hq) (entered_ordered (portUnit_lt hp hq))

theorem PortsOnly.enterUnitPattern (h : VatPortsOnly v r s) (hp : p < 8) {y : Nat → Nat} :
    VatPortsOnly v r (enterUnitPattern s v p y) :=
  h.unless fun h => PortsOnly.when
    (h.foldl fun hq h => h.enterPattern1 (portUnit_lt hp hq) (entered_ordered (portUnit_lt hp hq)))
    fun h => h.unitState (t := s) hp

theorem PortsOnly.armEffects (h : VatPortsOnly v r s) (hq : q < 8) : VatPortsOnly v r (armEffects s v q) := by
  unfold Machine.armEffects
  split
  · exact h.foldl fun _ h => h.wr (entered_ordered hq _ (.inl (by simp [cyclePortFields])))
  · refine PortsOnly.ite (h.unless fun h => PortsOnly.ite h.mark (h.set1 (.inr ⟨q, hq, rfl⟩) ?_).event) (h.when fun h => ?_)
    · exact decide_eq_true (show 8 + q + 1 ≤ 32 by omega)
    · refine h.foldl fun hn h => h.vatFlagEdge (entered_ordered hq _ (.inr ⟨_, portLegs_lt (List.mem_filter.mp hn).1, ?_⟩))
      simp [cycleLegFields]

theorem PortsOnly.actOnCauses (h : VatPortsOnly v r s) (hp : p < 8) : VatPortsOnly v r (actOnCauses s v p) :=
  PortsOnly.when (h.foldl fun hq h => h.armEffects (portUnit_lt hp hq)) fun h => h.enterUnitPattern hp

theorem PortsOnly.setUnitState (h : VatPortsOnly v r s) (hp : p < 8) : VatPortsOnly v r (setUnitState s v p new) := h.unitState hp

theorem PortsOnly.ordersOnUnit (h : VatPortsOnly v r s) (hp : p < 8) : VatPortsOnly v r (ordersOnUnit s v p) :=
  (((h.when fun h => h.setUnitState hp).when fun h => h.setUnitState hp).when
    fun h => PortsOnly.when (h.setUnitState hp) fun h => h.actOnCauses hp).when fun h => h.setUnitState hp

end PortOps

end Sys2Proof.Machine

namespace Sys2Proof.Machine

open Sys2Proof

/-! ## What the level orders depend on (R20) -/

/-- The fields that the level orders on vat `v`'s ports depend on, but for the ports' own states. -/
inductive OrderField (v : Vat) : Field → Prop
  | owner : OrderField v R.OWN_STAT_OWNER
  | ss1 : OrderField v R.SAFE_STAT_SS1_ACT
  | cfg {p lo wd : Nat} (hp : p < 8) : OrderField v ⟨R.PORT_CFG v p, lo, wd⟩
  | bind {w : Vat} {c k lo wd : Nat} (hc : c < 8) (hk : k < 4) (hw : lo + wd ≤ 4) : OrderField v ⟨R.GS_BIND w c k, lo, wd⟩
  | pos {w : Vat} {i : Nat} (hi : i < 8) : OrderField v (R.POS_STAT_VALID w i)
  | slice {w : Vat} {i : Nat} (hi : i < 64) : OrderField v (R.SLICE_DATA_VALID w i)
  | aux {w : Vat} {i : Nat} (hi : i < 64) : OrderField v (R.AX_VALID w i)

/-- The level orders find in `t` what they find in `s`, but for the states of ports. -/
structure OrdersAlike (v : Vat) (s t : State) : Prop where
  dev : t.dev = s.dev
  ord : t.ord = s.ord
  rd : ∀ f, OrderField v f → t.rd f = s.rd f
  defs : ∀ w c k, (getSlot t w c k).defs = (getSlot s w c k).defs

section Alike

variable {r s t : State} {v w : Vat} {U : Nat → Prop} {W : Field → Prop} {f g : Field} {c k n p q o : Nat}

theorem any_congr_mem {α : Type} {l : List α} {a b : α → Bool} (h : ∀ x ∈ l, a x = b x) : l.any a = l.any b := by
  rw [Bool.eq_iff_iff, List.any_eq_true, List.any_eq_true]
  exact exists_congr fun x => and_congr_right fun hx => by rw [h x hx]

theorem OrdersAlike.trans (h : OrdersAlike v r s) (h' : OrdersAlike v s t) : OrdersAlike v r t :=
  ⟨h'.dev.trans h.dev, h'.ord.trans h.ord, fun f hf => (h'.rd f hf).trans (h.rd f hf),
    fun w c k => (h'.defs w c k).trans (h.defs w c k)⟩

theorem OrdersAlike.is (h : OrdersAlike v s t) (hf : OrderField v f) : t.is f = s.is f := is_of_rd (h.rd f hf)

theorem OrdersAlike.bound (h : OrdersAlike v s t) (hc : c < 8) (hk : k < 4) :
    (t.is (R.GS_BIND_BOUND w c k) && t.rd (R.GS_BIND_PORT w c k) == p)
      = (s.is (R.GS_BIND_BOUND w c k) && s.rd (R.GS_BIND_PORT w c k) == p) := by
  have bound : t.is (R.GS_BIND_BOUND w c k) = s.is (R.GS_BIND_BOUND w c k) := h.is (.bind hc hk (by omega))
  have port : t.rd (R.GS_BIND_PORT w c k) = s.rd (R.GS_BIND_PORT w c k) := h.rd _ (.bind hc hk (by omega))
  rw [bound, port]

theorem OrdersAlike.portGraph (h : OrdersAlike v s t) : portGraph t w p = portGraph s w p :=
  congrArg (Option.map _) (List.find?_congr fun i hi => by
    rw [List.mem_range] at hi
    exact h.bound (by omega) (by omega))

theorem OrdersAlike.portHasGraph (h : OrdersAlike v s t) : portHasGraph t w p = portHasGraph s w p :=
  any_congr_mem fun _ hc => any_congr_mem fun _ hk => h.bound (List.mem_range.mp hc) (List.mem_range.mp hk)

theorem OrdersAlike.sourceValid (h : OrdersAlike v s t) (d : InstDef) : sourceValid t w d = sourceValid s w d := by
  have pos (i : Nat) : t.is (R.POS_STAT_VALID w (i % 8)) = s.is (R.POS_STAT_VALID w (i % 8)) := h.is (.pos (by omega))
  have slice (i : Nat) : t.is (R.SLICE_DATA_VALID w (i % 64)) = s.is (R.SLICE_DATA_VALID w (i % 64)) := h.is (.slice (by omega))
  have aux (i : Nat) : t.is (R.AX_VALID w (i % 64)) = s.is (R.AX_VALID w (i % 64)) := h.is (.aux (by omega))
  unfold Machine.sourceValid
  simp only [pos, slice, aux]

theorem OrdersAlike.inputsValid (h : OrdersAlike v s t) : inputsValid t v p = inputsValid s v p := by
  have owner : t.owner = s.owner := by rw [State.owner, State.owner, h.rd _ .owner]
  unfold Machine.inputsValid
  simp only [owner, h.portGraph, h.defs, funext (h.sourceValid (w := s.owner.getD v))]

theorem OrdersAlike.portUnit (h : OrdersAlike v s t) (hp : p < 8) : portUnit t v p = portUnit s v p := by
  have linked : t.is (R.PORT_CFG_LNK_EN v p) = s.is (R.PORT_CFG_LNK_EN v p) := h.is (.cfg hp)
  have link : t.rd (R.PORT_CFG_LINK v p) = s.rd (R.PORT_CFG_LINK v p) := h.rd _ (.cfg hp)
  rw [Machine.portUnit, Machine.portUnit, partner, partner, linked, link]

theorem OrdersAlike.isSecondary (h : OrdersAlike v s t) (hp : p < 8) : isSecondary t v p = isSecondary s v p := by
  have linked : t.is (R.PORT_CFG_LNK_EN v p) = s.is (R.PORT_CFG_LNK_EN v p) := h.is (.cfg hp)
  have role : t.is (R.PORT_CFG_ROLE v p) = s.is (R.PORT_CFG_ROLE v p) := h.is (.cfg hp)
  rw [Machine.isSecondary, Machine.isSecondary, linked, role]

theorem OrdersAlike.ordered (h : OrdersAlike v s t) : ordered t o = ordered s o := by
  funext p
  rw [Machine.ordered, Machine.ordered, orderValue, orderValue, h.ord]

/-- A port unit on which no order waits to act is still one while its port keeps its state. -/
theorem OrdersAlike.unitSteady (h : OrdersAlike v s t) (hp : p < 8) (hs : portState t v p = portState s v p)
    (hd : getPort t v p = getPort s v p) : unitSteady t v p = unitSteady s v p := by
  have run : runOrdered t v p = runOrdered s v p := by
    rw [runOrdered, runOrdered, h.portUnit hp, h.ordered, h.ordered, h.is .ss1]
  have arm : armOrdered t v p = armOrdered s v p := by
    rw [armOrdered, armOrdered, h.portUnit hp, h.ordered, h.ordered, h.is .ss1]
  have ramp : rampDone t v p = rampDone s v p := by rw [rampDone, rampDone, h.portHasGraph, hd]
  have type : t.is (R.PORT_CFG_TYPE v p) = s.is (R.PORT_CFG_TYPE v p) := h.is (.cfg hp)
  rw [Machine.unitSteady, Machine.unitSteady, hs, run, arm, ramp, type, h.inputsValid, h.dev]

/-- On a steady unit the level orders do nothing. -/
theorem ordersOnUnit_steady (h : unitSteady s v p = true) : ordersOnUnit s v p = s := by
  unfold Machine.unitSteady at h
  unfold ordersOnUnit
  extract_lets a b c
  have ha : a = s := if_neg fun hc => by simp_all
  have hb : b = s := by
    refine Eq.trans (if_neg fun hc => ?_) ha
    rw [ha] at hc
    simp_all
  have hc : c = s := by
    refine Eq.trans (if_neg fun hc => ?_) hb
    rw [hb] at hc
    simp_all
  refine Eq.trans (if_neg fun hd => ?_) hc
  rw [hc] at hd
  simp_all

end Alike
end Sys2Proof.Machine

namespace Sys2Proof.Machine

open Sys2Proof

/-! ## The level orders leave the ports on which none waits to act -/

section Settled

variable {r s t : State} {v w : Vat} {U : Nat → Prop} {W : Field → Prop} {f g : Field} {c k n p q x : Nat}

theorem cycleFields_places : cycleFields.all (fun g => decide (g.addr < 0x50000000)
    || decide (g.addr % 0x10000000 < 0x04002000 ∧ g.addr % 0x400 ≠ 0)
    || decide (0x04002000 ≤ g.addr % 0x10000000 ∧ g.addr % 0x10000000 < 0x04100000)
    || decide (0x04600000 ≤ g.addr % 0x10000000)) = true := by decide +kernel

theorem OrderField.free (h : OrderField v f) (hf : f ≠ R.SAFE_STAT_SS1_ACT) : cycleFree f = true := by
  have place (ha : 0x50000000 ≤ f.addr) (h : (f.addr % 0x10000000 < 0x04002000 ∧ f.addr % 0x400 = 0)
      ∨ (0x04100000 ≤ f.addr % 0x10000000 ∧ f.addr % 0x10000000 < 0x04600000)) : cycleFree f = true := by
    refine List.all_eq_true.mpr fun g hg => apart_of_addr fun e => ?_
    have hp := List.all_eq_true.mp cycleFields_places g hg
    simp only [Bool.or_eq_true, decide_eq_true_eq, ← e] at hp
    omega
  cases h with
  | owner => decide +kernel
  | ss1 => exact absurd rfl hf
  | cfg hp => cases v <;> simp only [R.PORT_CFG, Vat.base] at place <;> exact place (by omega) (.inl (by omega))
  | @bind w c k lo wd hc hk hw =>
    cases w <;> simp only [R.GS_BIND, Vat.base] at place <;> exact place (by omega) (.inr (by omega))
  | @pos w i hi =>
    cases w <;> simp only [R.POS_STAT_VALID, R.POS_STAT, Vat.base] at place <;> exact place (by omega) (.inr (by omega))
  | @slice w i hi =>
    cases w <;> simp only [R.SLICE_DATA_VALID, R.SLICE_DATA, Vat.base] at place <;> exact place (by omega) (.inr (by omega))
  | @aux w i hi => cases w <;> simp only [R.AX_VALID, R.AX, Vat.base] at place <;> exact place (by omega) (.inr (by omega))

/-- What the level orders write lies in the window of their vat. -/
theorem OrderedField.inVat (h : OrderedField w g) : InVat w g := by
  unfold InVat
  rcases h with ⟨p, hp, hg | ⟨n, hn, hg⟩⟩ | ⟨p, hp, rfl⟩
  · simp only [cyclePortFields, List.mem_cons, List.not_mem_nil, or_false] at hg
    rcases hg with rfl | rfl | rfl | rfl | rfl | rfl | rfl | rfl | rfl | rfl | rfl <;>
      simp only [R.PORT_STATE_STATE, R.PORT_STATE_DEGR, R.PORT_STATE_CAUSE, R.PORT_STATE_ENTRIES, R.PORT_STATE,
        R.PORT_PWMSTAT_TRIPLAT, R.PORT_PWMSTAT, R.PORT_FPCFG_FB, R.PORT_FPCFG_PATNOW, R.PORT_FPCFG, R.GRID_STAT_OL,
        R.GRID_STAT_OL_LEFT, R.GRID_STAT, R.DRV_STAT_OBS, R.DRV_STAT_ZR, R.DRV_STAT] <;> omega
  · simp only [cycleLegFields, List.mem_cons, List.not_mem_nil, or_false] at hg
    rcases hg with rfl | rfl | rfl | rfl <;>
      simp only [R.LEG_PIN_PULSE, R.LEG_PIN_EN, R.LEG_PIN, R.DLR_STAT_HUVMASK, R.DLR_STAT_DRVF_F, R.DLR_STAT] <;> omega
  · simp only [R.PWM_COHERR]
    omega

theorem EnteredField.cycle (hp : p < 8) (h : EnteredField w p g) : g ∈ cycleFields :=
  h.elim (mem_cyclePort hp) fun ⟨_, hn, hg⟩ => mem_cycleLeg hn hg

/-- What the cycle's consequences leave, the level orders leave. -/
theorem OrderedField.apart_free (h : OrderedField w g) (hf : cycleFree f = true) : f.apart g = true := by
  have free {g : Field} (hg : g ∈ cycleFields) := List.all_eq_true.mp hf g hg
  rcases h with ⟨p, hp, hg⟩ | ⟨p, hp, rfl⟩
  · exact free (hg.cycle hp)
  · exact apart_of_part (free (mem_cycleCohesc w)) rfl (show 8 ≤ 8 + p by omega) (show 8 + p + 1 ≤ 8 + 8 by omega)

theorem OrderedField.apart_order (h : OrderedField w g) (hf : OrderField v f) : f.apart g = true := by
  by_cases hs : f = R.SAFE_STAT_SS1_ACT
  · refine apart_of_addr fun e => ?_
    have := h.inVat.1
    have := base_ge w
    have : f.addr < 0x50000000 := hs ▸ by decide
    omega
  · exact h.apart_free (hf.free hs)

theorem OrderField.apart_event (h : OrderField v f) : f.apart R.LOG_STAT_LOST = true ∧ f.apart R.LOG_STAT_LOST_F = true := by
  by_cases hs : f = R.SAFE_STAT_SS1_ACT
  · subst hs; decide
  · exact apart_log_of_cycleFree (h.free hs)

theorem engines_of_cycleRest (h : cycleRest t = cycleRest s) : (t.vat v).engines = (s.vat v).engines := by
  cases v
  · have hv := congrArg (fun x : State => x.vatA.engines) h
    exact hv
  · have hv := congrArg (fun x : State => x.vatB.engines) h
    exact hv

theorem ord_of_cycleRest (h : cycleRest t = cycleRest s) : t.ord = s.ord := by
  have ho := congrArg State.ord h
  exact ho

/-- What changes ports alone leaves what the orders depend on. -/
theorem PortsOnly.alike (h : PortsOnly w U W s t) (hW : ∀ f g, OrderField v f → W g → f.apart g = true) : OrdersAlike v s t where
  dev := h.dev
  ord := ord_of_cycleRest h.rest
  rd f hf := h.rd f hf.apart_event.1 hf.apart_event.2 fun g hg => hW f g hf hg
  defs _ _ _ := congrArg GraphSt.defs (getSlot_of_engines (engines_of_cycleRest h.rest))

/-- The orders on one vat's ports leave what those on the other's depend on. -/
theorem VatPortsOnly.alike (h : VatPortsOnly w s t) : OrdersAlike v s t := PortsOnly.alike h fun _ _ hf hg => hg.apart_order hf

/-- `t` is `s` but for what the orders on the ports of the vats other than `v` write. -/
structure PortsApart (v : Vat) (s t : State) : Prop where
  alike : OrdersAlike v s t
  ports : ∀ q, getPort t v q = getPort s v q
  rd : ∀ f, InVat v f → t.rd f = s.rd f

theorem PortsApart.refl : PortsApart v s s := ⟨⟨rfl, rfl, fun _ _ => rfl, fun _ _ _ => rfl⟩, fun _ => rfl, fun _ _ => rfl⟩

theorem PortsApart.orders (h : PortsApart v s t) (hw : w ≠ v) (hp : p < 8) : PortsApart v s (ordersOnUnit t w p) := by
  have orders : VatPortsOnly w t (ordersOnUnit t w p) := PortsOnly.refl.ordersOnUnit hp
  refine ⟨h.alike.trans orders.alike, fun q => (orders.ports v q fun e => absurd e.symm hw).trans (h.ports q), fun f hf =>
    (orders.rd f ?_ ?_ fun g hg => ?_).trans (h.rd f hf)⟩
  · exact (apart_log ((base_ge v).trans hf.1)).1
  · exact (apart_log ((base_ge v).trans hf.1)).2
  · refine apart_of_addr fun e => hg.inVat.other hw ?_
    unfold InVat at hf ⊢
    rwa [← e]

/-- On the steady vat's own ports the orders do nothing. -/
theorem PortsApart.steady (h : PortsApart v s t) (hs : Steady s v) (hp : p < 8) (hn : isSecondary t v p = false) :
    ordersOnUnit t v p = t := by
  have unit := List.all_eq_true.mp hs.units p (List.mem_range.mpr hp)
  rw [← h.alike.isSecondary hp, hn, Bool.false_or] at unit
  refine ordersOnUnit_steady ((h.alike.unitSteady hp (h.rd _ ?_) (h.ports p)).trans unit)
  simp only [InVat, R.PORT_STATE_STATE, R.PORT_STATE]
  omega

theorem PortsApart.ordersOnPorts (hs : Steady s v) : PortsApart v s (ordersOnPorts s) := by
  unfold Machine.ordersOnPorts
  split
  · exact .refl
  · refine forVats_keep .refl fun t w ht => ?_
    split
    · refine forN_keep ht fun t p hp ht => ?_
      split
      · exact ht
      · next hn =>
        by_cases hw : w = v
        · subst hw
          rwa [ht.steady hs hp (Bool.not_eq_true _ ▸ hn)]
        · exact ht.orders hw hp
    · exact ht

/-! ### DEG_CAUSE and the device state lie outside the vats -/

theorem rd_deg (h : 0x50000000 ≤ f.addr) : (refreshDeg s).rd f = s.rd f := by
  unfold refreshDeg
  extract_lets old new
  split
  · rfl
  · split
    · rfl
    · have : f.addr ≠ R.OWN_DEG := fun e => absurd (e ▸ h) (by decide)
      exact (State.rd_event _ _ _ _ f (apart_log h).1 (apart_log h).2).trans
        (State.rd_wr_apart _ _ _ _ (by decide) (apart_of_addr this))

theorem rd_setDev (h : 0x50000000 ≤ f.addr) {d : DevState} : (setDev s d).rd f = s.rd f := by
  unfold setDev
  split
  · rfl
  · extract_lets old a
    split
    · rfl
    · exact State.rd_event _ _ _ _ f (apart_log h).1 (apart_log h).2

theorem rd_refreshDev (h : 0x50000000 ≤ f.addr) : (refreshDev s).rd f = s.rd f := by
  unfold refreshDev
  split
  · rfl
  · split
    · exact rd_setDev h
    · split <;> exact rd_setDev h

/-- Where no order waits to act on a vat's ports, the cycle's consequences leave its registers. -/
theorem settle_steady (hs : Steady s v) (hf : InVat v f) : (settle s).rd f = s.rd f := by
  have orders := PortsApart.ordersOnPorts hs
  have ss1 : ss1End (ordersOnPorts s) = ordersOnPorts s :=
    if_pos (by rw [orders.alike.is .ss1, hs.noSs1]; rfl)
  have high := (base_ge v).trans hf.1
  change State.rd (if s.dev = .off then s else _) f = _
  split
  · rfl
  · have calm : (refreshDev (refreshDeg (ss1End (ordersOnPorts s)))).rst.sysAfterSto = none :=
      (refreshDev_cycle (refreshDeg_cycle (ss1End_cycle (ordersOnPorts_cycle (CycleOnly.refl s))))).calm hs.calm
    rw [dueSysReset, calm]
    dsimp only
    rw [rd_refreshDev high, rd_deg high, ss1, orders.rd f hf]

end Settled

end Sys2Proof.Machine

namespace Sys2Proof.Machine

open Sys2Proof

/-! ## What a guard changes as an arrival sample comes or is absent (R97, R166) -/

section Guard

variable {r s t : State} {v w : Vat} {U : Nat → Prop} {W : Field → Prop} {f g : Field} {c k d j n p q x : Nat} {ok : Bool}

/-- The fields that port `p`'s guard writes, with what an entry into FAULT_PATTERN writes. -/
def GuardedField (v : Vat) (p : Nat) (g : Field) : Prop := OrderedField v g ∨ g.addr = R.GRID_STAT v p ∨ g.addr = R.DRV_STAT v p

abbrev GuardOnly (v : Vat) (p : Nat) (r s : State) : Prop := PortsOnly v (· < 8) (GuardedField v p) r s

theorem PortsOnly.enterFaultPattern (h : GuardOnly v p r s) (hp : p < 8) : GuardOnly v p r (enterFaultPattern s v p x) :=
  h.trans ((PortsOnly.enterUnitPattern .refl hp).mono (fun _ => id) fun _ => .inl)

theorem PortsOnly.currentLoss (h : GuardOnly v p r s) (hp : p < 8) : GuardOnly v p r (currentLoss s v p) := by
  unfold Machine.currentLoss
  split
  · exact (h.vatFlagEdge (.inr (.inl rfl))).enterFaultPattern hp
  · exact (h.vatFlagEdge (.inr (.inr rfl))).enterFaultPattern hp

theorem PortsOnly.voltageLoss (h : GuardOnly v p r s) (hp : p < 8) : GuardOnly v p r (voltageLoss s v p) :=
  PortsOnly.ite ((h.vatFlagEdge (.inr (.inr rfl))).enterFaultPattern hp)
    (PortsOnly.ite ((h.vatFlagEdge (.inr (.inl rfl))).enterFaultPattern hp)
      (h.unless fun h => (((h.set1 (.inr (.inl rfl))).vatFlagEdge (.inr (.inl rfl))).wr (.inr (.inl rfl))).modGuard))

/-- A guard writes the flags and rides of its port, and, with its unit, what an entry into FAULT_PATTERN does. -/
theorem guardArrival_only (hp : p < 8) : GuardOnly v p s (guardArrival s v p n ok) :=
  PortsOnly.refl.unless fun h => (h.modPort hp).unless fun h => (h.when fun h => h.modGuard).unless fun h =>
    PortsOnly.ite (h.currentLoss hp) (h.when fun h => h.voltageLoss hp)

theorem GuardedField.apart (hp : p < 8) (h : GuardedField v p g) (hf : ∀ g, OrderedField v g → f.apart g = true)
    (ha : f.addr % 0x10000000 < 0x04000000 ∨ 0x04002000 ≤ f.addr % 0x10000000 ∨ f.addr % 0x400 = 0) : f.apart g = true := by
  rcases h with h | h | h
  · exact hf g h
  all_goals
    refine apart_of_addr fun e => ?_
    rw [e, h] at ha
    cases v <;> simp only [R.GRID_STAT, R.DRV_STAT, Vat.base] at ha <;> omega

/-- What the orders depend on lies outside the ports, but for their CFG. -/
theorem OrderField.place (h : OrderField w f) :
    f.addr % 0x10000000 < 0x04000000 ∨ 0x04002000 ≤ f.addr % 0x10000000 ∨ f.addr % 0x400 = 0 := by
  cases h with
  | owner => decide
  | ss1 => decide
  | cfg hp => cases w <;> simp only [R.PORT_CFG, Vat.base] <;> omega
  | @bind w c k lo wd hc hk hw => cases w <;> simp only [R.GS_BIND, Vat.base] <;> omega
  | @pos w i hi => cases w <;> simp only [R.POS_STAT_VALID, R.POS_STAT, Vat.base] <;> omega
  | @slice w i hi => cases w <;> simp only [R.SLICE_DATA_VALID, R.SLICE_DATA, Vat.base] <;> omega
  | @aux w i hi => cases w <;> simp only [R.AX_VALID, R.AX, Vat.base] <;> omega

theorem guardArrival_alike (hp : p < 8) : OrdersAlike v s (guardArrival s v p n ok) :=
  (guardArrival_only hp).alike fun _ _ hf hg => hg.apart hp (fun _ ho => ho.apart_order hf) hf.place

theorem guardArrival_calm (hp : p < 8) (hc : Calm s) : Calm (guardArrival s v p n ok) := by
  have due := congrArg (fun x : State => x.rst.sysAfterSto) (guardArrival_only (s := s) (v := v) (n := n) (ok := ok) hp).rest
  exact Eq.trans due hc

theorem guardArrival_slot (hp : p < 8) : getSlot (guardArrival s v p n ok) w d j = getSlot s w d j :=
  getSlot_of_engines (engines_of_cycleRest (guardArrival_only hp).rest)

theorem guardArrival_frozen (hp : p < 8) : engFrozen (guardArrival s v p n ok) v c = engFrozen s v c := by
  have free : cycleFree (R.FW_FROZEN_FROZEN v) = true := by cases v <;> decide +kernel
  refine congrArg (bitOf · c) ((guardArrival_only hp).rd _ (apart_log_of_cycleFree free).1 (apart_log_of_cycleFree free).2
    fun g hg => hg.apart hp (fun _ ho => ho.apart_free free) ?_)
  cases v <;> decide

end Guard

/-! ## What an arrival sample changes in the engines (R97, R98, R142) -/

section Deliver

variable {α : Type} {s t : State} {v w : Vat} {f g : Field} {c k d j n p : Nat} {x : Int} {ok : Bool} {q : EvalSt → Bool}
  {y : EvalSt → EvalSt} {Q : GraphSt → α} {z : GraphSt → GraphSt}

/-- What a verdict can do: nothing, or judge the entries and send the evaluation on with its captures. -/
theorem verdict_cases : verdict s v c k q = s ∨ ∃ u y, verdict s v c k q = concluded u v c k q y ∧ (∀ e, (y e).caps = e.caps)
    ∧ EvalOnly s u (EngineField v c k) ∧ ∀ w, (u.vat w).engines = (s.vat w).engines := by
  have judged {e : EvalSt} : EvalOnly s (judged s v c k e) (EngineField v c k) := judged_only.weaken fun _ => .judged
  cases he : (getSlot s v c k).evals.find? q with
  | none => exact .inl (verdict_none he)
  | some e =>
    refine .inr ?_
    by_cases hm : e.mode ≠ .spec ∨ (entries (getSlot s v c k)).any (entrySquashes e) = false
    · obtain ⟨u, hu, eq⟩ := verdict_commits he hm
      refine ⟨u, _, eq, fun _ => rfl, ?_⟩
      rcases hu with rfl | rfl
      · exact ⟨.refl, fun _ => rfl⟩
      · exact ⟨judged, fun _ => engines_judged⟩
    · simp only [not_or, not_not, Bool.not_eq_false] at hm
      exact ⟨_, _, verdict_squashes he hm.1 hm.2, fun _ => rfl, judged.wr (.squashes rfl),
        fun _ => (congrArg VatSt.engines vat_wr).trans engines_judged⟩

theorem verdict_only (hk : k < 4) : EvalOnly s (verdict s v c k q) (EngineField v c k) := by
  rcases verdict_cases (s := s) (v := v) (c := c) (k := k) (q := q) with e | ⟨u, y, e, -, hu, -⟩ <;> rw [e]
  · exact .refl
  · exact hu.trans ((concluded_only hk).weaken fun _ => .shown)

/-- What `Q` says of a slot stays as long as every evaluation keeps its captures. -/
def SaysOfCaps (Q : GraphSt → α) : Prop :=
  ∀ (g : GraphSt) (q : EvalSt → Bool) (y : EvalSt → EvalSt), (∀ e, (y e).caps = e.caps) →
    Q { g with evals := modFirst q y g.evals } = Q g

theorem SaysOfCaps.defs : SaysOfCaps GraphSt.defs := fun _ _ _ _ => rfl

/-- How many evaluations have a capture of a kind. -/
theorem SaysOfCaps.count (a : Cap → Bool) : SaysOfCaps fun g => (g.evals.filter fun e => e.caps.any a).length :=
  fun _ _ _ hy => filter_modFirst_kept fun e => congrArg (List.any · a) (hy e)

theorem getSlot_modSlot_says (hz : ∀ g, Q (z g) = Q g) : Q (getSlot (modSlot s v c k z) w d j) = Q (getSlot s w d j) := by
  rcases getSlot_modSlot_cases s v c k z w d j with h | h <;> rw [h]
  exact hz _

theorem SaysOfCaps.schedule (hQ : SaysOfCaps Q) : Q (getSlot (schedule s v c) w d j) = Q (getSlot s w d j) := by
  rcases schedule_slot (s := s) (v := v) (c := c) (w := w) (d := d) (j := j) with h | ⟨b, h⟩ <;> rw [h]
  exact hQ _ _ _ fun _ => rfl

theorem SaysOfCaps.concluded (hQ : SaysOfCaps Q) (hy : ∀ e, (y e).caps = e.caps) :
    Q (getSlot (concluded s v c k q y) w d j) = Q (getSlot s w d j) := by
  rw [Machine.concluded, hQ.schedule, getSlot_of_engines engines_refreshWhey]
  exact getSlot_modSlot_says fun g => hQ g q y hy

theorem SaysOfCaps.verdict (hQ : SaysOfCaps Q) : Q (getSlot (verdict s v c k q) w d j) = Q (getSlot s w d j) := by
  rcases verdict_cases (s := s) (v := v) (c := c) (k := k) (q := q) with e | ⟨u, y, e, hy, -, hu⟩ <;> rw [e]
  rw [hQ.concluded hy, getSlot_of_engines (hu w)]

/-- The sample goes to the engines. -/
def deliver (s : State) (v : Vat) (p n : Nat) (x : Int) (ok : Bool) : State :=
  match portGraph s v p with
  | none => s
  | some (c, k) =>
    let g := getSlot s v c k
    let q (e : EvalSt) : Bool := e.caps.any (awaits g n)
    if g.migCaps.any (awaits g n) then modSlot s v c k (fun g => { g with migCaps := fillCaps g n x ok g.migCaps })
    else if !g.evals.any q || engFrozen s v c then s
    else
      let s := modEvals s v c k (modFirst q (fun e =>
        let e := { e with caps := fillCaps g n x ok e.caps }
        if e.phase == .waiting && e.arrived then { e with phase := .ready } else e))
      let due (e : EvalSt) : Bool := e.phase == .ended && e.judgeable g
      if (getSlot s v c k).evals.any due then verdict s v c k due else schedule s v c

theorem arrive_eq : arrive s v p n x ok = deliver (guardArrival s v p n ok) v p n x ok := rfl

/-- An evaluation with the sample; a waiting one that lacks no other is ready. -/
def filled (g : GraphSt) (n : Nat) (x : Int) (ok : Bool) (e : EvalSt) : EvalSt :=
  let e := { e with caps := fillCaps g n x ok e.caps }
  if e.phase == .waiting && e.arrived then { e with phase := .ready } else e

theorem awaits_fillCaps (g : GraphSt) (l : List Cap) : (fillCaps g n x ok l).any (awaits g n) = false := by
  simp only [fillCaps, List.any_map, List.any_eq_false, Function.comp_apply, Bool.not_eq_true]
  intro a _
  by_cases ha : awaits g n a = true
  · rw [if_pos ha]; rfl
  · rwa [if_neg ha, ← Bool.not_eq_true]

theorem filled_caps {g : GraphSt} {e : EvalSt} : (filled g n x ok e).caps = fillCaps g n x ok e.caps := by
  unfold filled
  extract_lets e
  split <;> rfl

theorem portGraph_lt (h : portGraph s v p = some (c, k)) : c < 8 ∧ k < 4 := by
  obtain ⟨i, hi, e⟩ := Option.map_eq_some_iff.mp h
  have := List.mem_range.mp (List.mem_of_find?_eq_some hi)
  cases e
  omega

/-- The first evaluation that awaits the sample has it. -/
def taken (s : State) (v : Vat) (c k n : Nat) (x : Int) (ok : Bool) : State :=
  modEvals s v c k (modFirst (fun e => e.caps.any (awaits (getSlot s v c k) n)) (filled (getSlot s v c k) n x ok))

/-- The captures of a MIGRATE tick have the sample. -/
def migrated (s : State) (v : Vat) (c k n : Nat) (x : Int) (ok : Bool) : State :=
  modSlot s v c k (fun g => { g with migCaps := fillCaps g n x ok g.migCaps })

/-- What becomes of a sample: nothing, or it goes to the MIGRATE tick's captures, or to an evaluation, for which the verdict may
be due then. -/
theorem deliver_cases (h : portGraph s v p = some (c, k)) :
    ((getSlot s v c k).migCaps.any (awaits (getSlot s v c k) n) = true ∧ deliver s v p n x ok = migrated s v c k n x ok)
    ∨ ((getSlot s v c k).migCaps.any (awaits (getSlot s v c k) n) = false
      ∧ (((getSlot s v c k).evals.any (fun e => e.caps.any (awaits (getSlot s v c k) n)) = false ∨ engFrozen s v c = true)
          ∧ deliver s v p n x ok = s
        ∨ ((∃ q, deliver s v p n x ok = verdict (taken s v c k n x ok) v c k q)
          ∨ deliver s v p n x ok = schedule (taken s v c k n x ok) v c))) := by
  unfold deliver
  rw [h]
  dsimp only
  split
  · next hm => exact .inl ⟨hm, rfl⟩
  · next hm =>
    refine .inr ⟨by simpa using hm, ?_⟩
    split
    · next hi => exact .inl ⟨by simpa using hi, rfl⟩
    · refine .inr ?_
      split
      · exact .inl ⟨_, rfl⟩
      · exact .inr rfl

theorem deliver_only : EvalOnly s (deliver s v p n x ok) (fun g => ∃ c < 8, ∃ k < 4, EngineField v c k g) := by
  cases h : portGraph s v p with
  | none => rw [deliver, h]; exact .refl
  | some i =>
    obtain ⟨c, k⟩ := i
    obtain ⟨hc, hk⟩ := portGraph_lt h
    refine EvalOnly.weaken (W := EngineField v c k) ?_ fun g hg => ⟨c, hc, k, hk, hg⟩
    rcases deliver_cases (n := n) (x := x) (ok := ok) h with ⟨-, e⟩ | ⟨-, ⟨-, e⟩ | ⟨q, e⟩ | e⟩ <;> rw [e]
    · exact EvalOnly.refl.modSlot
    · exact .refl
    · exact EvalOnly.refl.modSlot.trans (verdict_only hk)
    · exact EvalOnly.refl.modSlot.trans (schedule_only.weaken fun _ => .shown)

theorem deliver_defs : (getSlot (deliver s v p n x ok) w d j).defs = (getSlot s w d j).defs := by
  cases h : portGraph s v p with
  | none => rw [deliver, h]
  | some i =>
    have taken : (getSlot (taken s v i.1 i.2 n x ok) w d j).defs = (getSlot s w d j).defs := getSlot_modSlot_says fun _ => rfl
    rcases deliver_cases (n := n) (x := x) (ok := ok) h with ⟨-, e⟩ | ⟨-, ⟨-, e⟩ | ⟨q, e⟩ | e⟩ <;> rw [e]
    · exact getSlot_modSlot_says fun _ => rfl
    · exact SaysOfCaps.defs.verdict.trans taken
    · exact SaysOfCaps.defs.schedule.trans taken

/-! ### The answers that say so -/

theorem execArrivalTimeout_eq {p : Fin 8} {n : Fin 64} (h : s.vatLive v = true) :
    exec (.arrivalTimeout v p n) s = .next (settle (deliver (guardArrival s v p n false) v p n 0 false)) :=
  congrArg (fun s => Host.Outcome.next (settle s)) (if_pos h)

theorem deliver_calm (hp : p < 8) (hc : Calm s) : Calm (deliver (guardArrival s v p n ok) v p n x ok) :=
  deliver_only.calm (guardArrival_calm hp hc)

/-- The slot of the port's graph awaits after its guard what it awaited before. -/
theorem guarded_graph (hp : p < 8) (h : portGraph s v p = some (c, k)) : portGraph (guardArrival s v p n ok) v p = some (c, k) :=
  (guardArrival_alike hp).portGraph.trans h

/-- The first evaluation that awaits an absent sample awaits it no longer. -/
theorem arrivalTimeout_found {p : Fin 8} {n : Fin 64} (hc : Calm s) (hl : s.vatLive v = true) (hg : portGraph s v p = some (c, k))
    (hf : engFrozen s v c = false) (hm : (getSlot s v c k).migCaps.any (awaits (getSlot s v c k) n) = false)
    (he : (getSlot s v c k).evals.any (fun e => e.caps.any (awaits (getSlot s v c k) n)) = true) :
    Answers (.arrivalTimeout v p n) s (fun t =>
      ((getSlot t v c k).evals.filter (fun e => e.caps.any (awaits (getSlot s v c k) n))).length + 1
      = ((getSlot s v c k).evals.filter (fun e => e.caps.any (awaits (getSlot s v c k) n))).length) := by
  have slot : getSlot (guardArrival s v p n false) v c k = getSlot s v c k := guardArrival_slot p.isLt
  have count := SaysOfCaps.count (awaits (getSlot s v c k) n)
  have lost : ((getSlot (taken (guardArrival s v p n false) v c k n 0 false) v c k).evals.filter
        (fun e => e.caps.any (awaits (getSlot s v c k) n))).length + 1
      = ((getSlot s v c k).evals.filter (fun e => e.caps.any (awaits (getSlot s v c k) n))).length := by
    rw [taken, modEvals, getSlot_modSlot (slot_placed_of_any (slot.symm ▸ he)), slot]
    exact filter_modFirst_lost (fun e => filled_caps ▸ awaits_fillCaps ..) he
  refine ⟨_, execArrivalTimeout_eq hl, ?_⟩
  beta_reduce
  rw [settle_slot (deliver_calm p.isLt hc)]
  rcases deliver_cases (n := n) (x := 0) (ok := false) (guarded_graph (n := n) (ok := false) p.isLt hg) with
    ⟨hm', -⟩ | ⟨-, ⟨hi, -⟩ | ⟨q, e⟩ | e⟩
  · rw [slot, hm] at hm'
    cases hm'
  · rw [slot, he, guardArrival_frozen p.isLt, hf] at hi
    simp at hi
  · rw [e, ← lost]
    exact congrArg (· + 1) count.verdict
  · rw [e, ← lost]
    exact congrArg (· + 1) count.schedule

/-- The captures of a MIGRATE tick that await an absent sample await it no longer. -/
theorem arrivalTimeout_migrates {p : Fin 8} {n : Fin 64} (hc : Calm s) (hl : s.vatLive v = true)
    (hg : portGraph s v p = some (c, k))
    (hm : (getSlot s v c k).migCaps.any (awaits (getSlot s v c k) n) = true) :
    Answers (.arrivalTimeout v p n) s (fun t => (getSlot t v c k).migCaps.any (awaits (getSlot s v c k) n) = false
      ∧ (getSlot t v c k).migCaps.length = (getSlot s v c k).migCaps.length
      ∧ (getSlot t v c k).evals = (getSlot s v c k).evals) := by
  have slot : getSlot (guardArrival s v p n false) v c k = getSlot s v c k := guardArrival_slot p.isLt
  have placed : SlotPlaced (guardArrival s v p n false) v c k := slot_placed (slot.symm ▸ fun h => by simp [h] at hm)
  refine ⟨_, execArrivalTimeout_eq hl, ?_⟩
  beta_reduce
  rw [settle_slot (deliver_calm p.isLt hc)]
  rcases deliver_cases (n := n) (x := 0) (ok := false) (guarded_graph (n := n) (ok := false) p.isLt hg) with ⟨-, e⟩ | ⟨hm', -⟩
  · rw [e, migrated, getSlot_modSlot placed, slot]
    exact ⟨awaits_fillCaps .., List.length_map .., rfl⟩
  · rw [slot, hm] at hm'
    cases hm'

/-- Where nothing awaits the sample, nothing changes. -/
theorem arrivalTimeout_idle {p : Fin 8} {n : Fin 64} (hc : Calm s)
    (h : s.vatLive v = false ∨ ((getPort s v p).await.contains n.val = false ∧ portGraph s v p = none)) :
    Answers (.arrivalTimeout v p n) s (fun t => CycleOnly s t) := by
  refine ⟨settle s, congrArg (fun s => Host.Outcome.next (settle s)) ?_, settle_cycle hc⟩
  rcases h with h | ⟨h, hg⟩
  · exact if_neg (by simp [h])
  · have guard : guardArrival s v p n false = s := if_pos (by rw [h]; rfl)
    split
    · rw [arrive_eq, guard, deliver, hg]
    · rfl

end Deliver

end Sys2Proof.Machine

namespace Sys2Proof.Machine

open Sys2Proof

/-! ## A port's entry into FAULT_PATTERN (R20, R236, R237) -/

section Entry

variable {r s t : State} {v w : Vat} {f g : Field} {n m p q new cause fp pat : Nat} {x y fb : Bool}

/-- A field of a port lies apart from what shows the pins. -/
theorem port_apart_leg (hf : f.addr < v.base + 0x04002000) (h : LegField v g) : f.apart g = true := by
  obtain ⟨n, -, hg⟩ := h
  refine apart_of_addr ?_
  simp only [cycleLegFields, List.mem_cons, List.not_mem_nil, or_false] at hg
  rcases hg with rfl | rfl | rfl | rfl <;>
    simp only [R.LEG_PIN_PULSE, R.LEG_PIN_EN, R.LEG_PIN, R.DLR_STAT_HUVMASK, R.DLR_STAT_DRVF_F, R.DLR_STAT] <;> omega

theorem port_low {a lo wd : Nat} (hp : p < 8) (ha : a < 0x04000400 := by decide) :
    (⟨v.base + a + p * 0x400, lo, wd⟩ : Field).addr < v.base + 0x04002000 := by
  dsimp only
  omega

/-- A transition writes no ENTRIES, and DEGR only as it leaves RUN. -/
theorem entries_apart_moved (hp : p < 8) (h : MovedField v p g) :
    (R.PORT_STATE_ENTRIES v p).apart g = true ∧ (R.PORT_STATE_DEGR v p).apart g = true := by
  rcases h with h | h
  · simp only [movedFields, List.mem_cons, List.not_mem_nil, or_false] at h
    rcases h with rfl | rfl | rfl | rfl | rfl | rfl | rfl | rfl <;> exact ⟨unit_apart, unit_apart⟩
  · exact ⟨port_apart_leg (port_low hp) h, port_apart_leg (port_low hp) h⟩

theorem portState_setPortState (hn : new < 8) : portState (setPortState s v p new cause) v p = new := by
  by_cases h : portState s v p = new
  · rwa [setPortState, if_pos h]
  · unfold setPortState
    extract_lets old a b c d e f g k
    rw [if_neg (show ¬ old = new from h)]
    exact (rd_vatEvent unit_ge).trans ((State.rd_wr_self _ _ _ rfl).trans (Nat.mod_eq_of_lt hn))

theorem entries_setPortState (hp : p < 8) :
    (setPortState s v p new cause).rd (R.PORT_STATE_ENTRIES v p) = s.rd (R.PORT_STATE_ENTRIES v p) := by
  have moved : PortsOnly v (· = p) (fun g => MovedField v p g ∨ g = R.PORT_STATE_DEGR v p) s (setPortState s v p new cause) :=
    PortsOnly.refl.setPortState rfl (.inr rfl) fun _ => .inl
  refine moved.unit fun g hg => ?_
  rcases hg with hg | rfl
  · exact (entries_apart_moved hp hg).1
  · exact unit_apart

theorem degr_setPortState (hp : p < 8) (hs : portState s v p = RUN) (hn : new ≠ RUN) :
    (setPortState s v p new cause).is (R.PORT_STATE_DEGR v p) = false := by
  have moved : PortsOnly v (· = p) (MovedField v p) (s.clr (R.PORT_STATE_DEGR v p)) (setPortState s v p new cause) := by
    refine PortsOnly.movePort ?_ (by rw [hs]; exact hn.symm) rfl fun _ => id
    rw [if_pos hs]
    exact PortsOnly.refl.leaveRun rfl fun _ => id
  refine is_zero ((moved.unit fun g hg => (entries_apart_moved hp hg).2).trans ?_)
  exact State.rd_wr_self _ _ _ rfl

/-! ### The pattern at the pins -/

/-- Leg `n` shows a pair of levels. -/
def LegShows (s : State) (v : Vat) (x y : Bool) (n : Nat) : Prop :=
  s.is (R.LEG_PIN_EN v n) = y ∧ s.is (R.LEG_PIN_PULSE v n) = x

theorem is_boolNat (hf : f.fits = true) (hw : f.width = 1) : (s.wr f (boolNat x)).is f = x := by
  rw [State.is, State.rd_wr_self _ _ _ hf, hw]
  cases x <;> rfl

theorem setPins_shows : LegShows (setPins s v n x y) v x y n :=
  ⟨is_boolNat rfl rfl, (is_of_rd (State.rd_wr_apart _ _ _ _ rfl unit_apart)).trans (is_boolNat rfl rfl)⟩

theorem setPins_keeps (_ : m < 32) (h : LegShows s v x y m) : LegShows (setPins s v n x y) v x y m := by
  by_cases hn : m = n
  · exact hn ▸ setPins_shows
  · have legs : PortsOnly v (fun _ => False) (· ∈ cycleLegFields v n) s (setPins s v n x y) := PortsOnly.refl.setPins fun _ => id
    have pin {lo wd : Nat} : (setPins s v n x y).rd ⟨R.LEG_PIN v m, lo, wd⟩ = s.rd ⟨R.LEG_PIN v m, lo, wd⟩ := by
      refine legs.unit fun g hg => apart_of_addr ?_
      simp only [cycleLegFields, List.mem_cons, List.not_mem_nil, or_false] at hg
      rcases hg with rfl | rfl | rfl | rfl <;>
        simp only [R.LEG_PIN_PULSE, R.LEG_PIN_EN, R.LEG_PIN, R.DLR_STAT_HUVMASK, R.DLR_STAT_DRVF_F, R.DLR_STAT] <;> omega
    exact ⟨(is_of_rd pin).trans h.1, (is_of_rd pin).trans h.2⟩

theorem setPortPins_shows (hn : n ∈ portLegs s v p) : LegShows (setPortPins s v p x y) v x y n := by
  have hm := portLegs_lt hn
  obtain ⟨a, b, e⟩ := List.append_of_mem hn
  rw [setPortPins, e, List.foldl_append, List.foldl_cons]
  exact List.foldlRecOn (motive := fun t => LegShows t v x y n) b _ setPins_shows fun t ht l _ => setPins_keeps hm ht

theorem cycleFields_legs : cycleFields.all (fun g => decide (g.addr < 0x50000000) || decide (0x04002000 ≤ g.addr % 0x10000000)
    || decide (g.addr % 0x400 ≠ 0 ∧ g.addr % 0x400 ≠ 4)) = true := by decide +kernel

/-- Neither CFG nor LEGS of a port is written by the cycle's consequences. -/
theorem cfg_free (hp : p < 8) {a lo wd : Nat} (ha : a = 0x04000000 ∨ a = 0x04000004) :
    cycleFree ⟨v.base + a + p * 0x400, lo, wd⟩ = true := by
  refine List.all_eq_true.mpr fun g hg => apart_of_addr fun e => ?_
  have hp := List.all_eq_true.mp cycleFields_legs g hg
  simp only [Bool.or_eq_true, decide_eq_true_eq, ← e] at hp
  cases v <;> simp only [Vat.base] at hp <;> omega

/-- A port's legs are where its CFG and LEGS are. -/
theorem portLegs_congr (h : ∀ a lo wd, a = 0x04000000 ∨ a = 0x04000004 →
    t.rd ⟨v.base + a + p * 0x400, lo, wd⟩ = s.rd ⟨v.base + a + p * 0x400, lo, wd⟩) : portLegs t v p = portLegs s v p := by
  have type : t.is (R.PORT_CFG_TYPE v p) = s.is (R.PORT_CFG_TYPE v p) := is_of_rd (h _ _ _ (.inl rfl))
  have leg (lo wd : Nat) : t.rd ⟨R.PORT_LEGS v p, lo, wd⟩ = s.rd ⟨R.PORT_LEGS v p, lo, wd⟩ := h _ _ _ (.inr rfl)
  have named (lo wd : Nat) : t.is ⟨R.PORT_LEGS v p, lo, wd⟩ = s.is ⟨R.PORT_LEGS v p, lo, wd⟩ := is_of_rd (leg lo wd)
  have slot (k : Nat) : slotLeg t v p k = slotLeg s v p k := by
    unfold slotLeg
    simp only [type, named, leg]
  rw [portLegs, portLegs, funext slot]

theorem CycleOnly.portLegs (h : CycleOnly s t) (hp : p < 8) : portLegs t v p = portLegs s v p :=
  portLegs_congr fun _ _ _ ha => h.rd _ (cfg_free hp ha)

/-- A port shows the pattern with PATNOW `pat` (R236). -/
structure PatternShown (t : State) (v : Vat) (p pat : Nat) : Prop where
  patnow : t.rd (R.PORT_FPCFG_PATNOW v p) = pat
  pins : ∀ n ∈ portLegs t v p, LegShows t v (decide (pat = 3)) (decide (2 ≤ pat)) n

theorem drivePattern_shown (hp : p < 8) (hf : fp ≤ 2) : PatternShown (drivePattern s v p fp) v p (fp + 1) where
  patnow := by
    have pins : PortsOnly v (· = p) (LegField v) (s.wr (R.PORT_FPCFG_PATNOW v p) (fp + 1)) (drivePattern s v p fp) :=
      PortsOnly.refl.setPortPins fun _ => id
    refine (pins.unit fun g hg => port_apart_leg (port_low hp) hg).trans ?_
    exact (State.rd_wr_self _ _ _ rfl).trans (Nat.mod_eq_of_lt (show fp + 1 < 2 ^ 2 by omega))
  pins n hn := by
    have legs : portLegs (drivePattern s v p fp) v p = portLegs (s.wr (R.PORT_FPCFG_PATNOW v p) (fp + 1)) v p :=
      (setPortPins_cycle (.refl _) v p _ _).portLegs hp
    have high : decide (fp + 1 = 3) = (fp == 2) := by rw [Bool.eq_iff_iff, decide_eq_true_eq, beq_iff_eq]; omega
    have on : decide (2 ≤ fp + 1) = (fp != 0) := by rw [Bool.eq_iff_iff, decide_eq_true_eq, bne_iff_ne]; omega
    rw [high, on]
    exact setPortPins_shows (legs ▸ hn)

theorem toAllOff_shown (hp : p < 8) : PatternShown (toAllOff s v p) v p 1 := by
  have driven : PatternShown (drivePattern s v p 0) v p 1 := drivePattern_shown hp (Nat.zero_le 2)
  have flag : PortsOnly v (· = p) (· = R.PORT_FPCFG_FB v p) (drivePattern s v p 0) (toAllOff s v p) :=
    PortsOnly.vatEvent (PortsOnly.set1 (W := (· = R.PORT_FPCFG_FB v p)) .refl rfl)
  have pin {n lo wd : Nat} : (toAllOff s v p).rd ⟨R.LEG_PIN v n, lo, wd⟩ = (drivePattern s v p 0).rd ⟨R.LEG_PIN v n, lo, wd⟩ :=
    flag.unit fun g hg => hg ▸ apart_of_addr (by
      simp only [R.PORT_FPCFG_FB, R.PORT_FPCFG]
      omega)
  have legs : portLegs (toAllOff s v p) v p = portLegs (drivePattern s v p 0) v p :=
    portLegs_congr fun a lo wd ha => flag.unit fun g hg => hg ▸ apart_of_addr (by
      simp only [R.PORT_FPCFG_FB, R.PORT_FPCFG]
      omega)
  refine ⟨(flag.unit fun g hg => hg ▸ unit_apart).trans driven.patnow, fun n hn => ?_⟩
  obtain ⟨en, pulse⟩ := driven.pins n (legs ▸ hn)
  exact ⟨(is_of_rd pin).trans en, (is_of_rd pin).trans pulse⟩

/-- What shows a pattern. -/
def DrivenField (v : Vat) (p : Nat) (g : Field) : Prop := g = R.PORT_FPCFG_PATNOW v p ∨ g = R.PORT_FPCFG_FB v p ∨ LegField v g

theorem state_apart_driven {lo wd : Nat} (hp : p < 8) (h : DrivenField v p g) :
    Field.apart ⟨R.PORT_STATE v p, lo, wd⟩ g = true := by
  have ne : R.PORT_STATE v p ≠ R.PORT_FPCFG v p := by
    simp only [R.PORT_STATE, R.PORT_FPCFG]
    omega
  rcases h with rfl | rfl | h
  · exact apart_of_addr ne
  · exact apart_of_addr ne
  · exact port_apart_leg (port_low hp) h

theorem rd_incSat_apart (hf : f.fits = true) (h : g.apart f = true) : (s.incSat f).rd g = s.rd g := State.rd_wr_apart _ _ _ _ hf h

/-- A port is in FAULT_PATTERN, with its CAUSE and ENTRIES; no pattern is driven yet. -/
def recorded (s : State) (v : Vat) (p cause : Nat) : State :=
  ((setPortState s v p FAULTPAT cause).wr (R.PORT_STATE_CAUSE v p) cause).incSat (R.PORT_STATE_ENTRIES v p)

theorem recorded_state : portState (recorded s v p cause) v p = FAULTPAT :=
  (rd_incSat_apart rfl unit_apart).trans ((State.rd_wr_apart _ _ _ _ rfl unit_apart).trans (portState_setPortState (by decide)))

theorem recorded_cause (hc : cause < 256) : (recorded s v p cause).rd (R.PORT_STATE_CAUSE v p) = cause :=
  (rd_incSat_apart rfl unit_apart).trans ((State.rd_wr_self _ _ _ rfl).trans (Nat.mod_eq_of_lt hc))

theorem recorded_entries (hp : p < 8) :
    (recorded s v p cause).rd (R.PORT_STATE_ENTRIES v p) = min (s.rd (R.PORT_STATE_ENTRIES v p) + 1) 15 := by
  have entries : ((setPortState s v p FAULTPAT cause).wr (R.PORT_STATE_CAUSE v p) cause).rd (R.PORT_STATE_ENTRIES v p)
      = s.rd (R.PORT_STATE_ENTRIES v p) := (State.rd_wr_apart _ _ _ _ rfl unit_apart).trans (entries_setPortState hp)
  rw [← entries]
  exact rd_incSat_self rfl

theorem recorded_degr (hp : p < 8) (hs : portState s v p = RUN) : (recorded s v p cause).is (R.PORT_STATE_DEGR v p) = false :=
  (is_of_rd (rd_incSat_apart rfl unit_apart)).trans
    ((is_of_rd (State.rd_wr_apart _ _ _ _ rfl unit_apart)).trans (degr_setPortState hp hs (by decide)))

theorem enterPattern1_eq : enterPattern1 s v p cause fp fb
    = if fb then toAllOff (recorded s v p cause) v p else drivePattern (recorded s v p cause) v p fp := rfl

/-- What an entry into FAULT_PATTERN leaves of one port (R20). -/
theorem enterPattern1_entered (hp : p < 8) (hc : cause < 256) (hf : fp ≤ 2) :
    PatternEntered s (enterPattern1 s v p cause fp fb) v p cause (if fb then 1 else fp + 1) := by
  have driven : PortsOnly v (· = p) (DrivenField v p) (recorded s v p cause) (enterPattern1 s v p cause fp fb)
      ∧ PatternShown (enterPattern1 s v p cause fp fb) v p (if fb then 1 else fp + 1) := by
    rw [enterPattern1_eq]
    split
    · exact ⟨PortsOnly.refl.toAllOff (.inl rfl) (.inr (.inl rfl)) fun _ h => .inr (.inr h), toAllOff_shown hp⟩
    · exact ⟨PortsOnly.refl.drivePattern (.inl rfl) fun _ h => .inr (.inr h), drivePattern_shown hp hf⟩
  obtain ⟨only, shown⟩ := driven
  have kept {lo wd : Nat} : (enterPattern1 s v p cause fp fb).rd ⟨R.PORT_STATE v p, lo, wd⟩
      = (recorded s v p cause).rd ⟨R.PORT_STATE v p, lo, wd⟩ :=
    only.unit fun _ => state_apart_driven hp
  refine ⟨kept.trans recorded_state, kept.trans (recorded_cause hc), kept.trans (recorded_entries hp),
    fun run => (is_of_rd kept).trans (recorded_degr hp run), shown.patnow, List.all_eq_true.mpr fun n hn => ?_⟩
  obtain ⟨en, pulse⟩ := shown.pins n hn
  rw [en, pulse]
  simp

end Entry

end Sys2Proof.Machine

namespace Sys2Proof.Machine

open Sys2Proof

/-! ## A port without a partner enters FAULT_PATTERN -/

section Lone

variable {r s t u : State} {v w : Vat} {f g : Field} {c k n p q cause pat : Nat}

/-- What `loneActive` says. -/
structure Lone (s : State) (v : Vat) (p : Nat) : Prop where
  active : portActive s v p = true
  unlinked : s.is (R.PORT_CFG_LNK_EN v p) = false
  pattern : s.rd (R.PORT_FPCFG_FP v p) ≤ 2
  limit : s.rd (R.PORT_CFG_FAULT_LIMIT v p) = 0 ∨ s.rd (R.PORT_STATE_ENTRIES v p) + 1 < s.rd (R.PORT_CFG_FAULT_LIMIT v p)

theorem loneActive_iff : loneActive s v p = true ↔ Lone s v p := by
  simp only [loneActive, Bool.and_eq_true, Bool.or_eq_true, decide_eq_true_eq, beq_iff_eq, Bool.not_eq_true', and_assoc]
  exact ⟨fun ⟨a, b, c, d⟩ => ⟨a, b, c, d⟩, fun ⟨a, b, c, d⟩ => ⟨a, b, c, d⟩⟩

theorem Lone.unit (h : Lone s v p) : portUnit s v p = [p] := by rw [portUnit, partner, h.unlinked]; rfl

/-- A lone port takes its own pattern, and does not retire. -/
theorem Lone.enterFaultPattern_eq (h : Lone s v p) (hp : p < 8) (hc : cause < 256) : enterFaultPattern s v p cause
    = enterPattern1 s v p cause (s.rd (R.PORT_FPCFG_FP v p)) (patternFaulted s v [p] (s.rd (R.PORT_FPCFG_FP v p))) := by
  generalize hb : patternFaulted s v [p] (s.rd (R.PORT_FPCFG_FP v p)) = fb
  have entered : PatternEntered s (enterPattern1 s v p cause (s.rd (R.PORT_FPCFG_FP v p)) fb) v p cause _ :=
    enterPattern1_entered hp hc h.pattern
  have limit : (enterPattern1 s v p cause (s.rd (R.PORT_FPCFG_FP v p)) fb).rd (R.PORT_CFG_FAULT_LIMIT v p)
      = s.rd (R.PORT_CFG_FAULT_LIMIT v p) := (enterPattern1_cycle (.refl s) v hp _ _ _).rd _ (cfg_free hp (.inl rfl))
  have below : limitReached (enterPattern1 s v p cause (s.rd (R.PORT_FPCFG_FP v p)) fb) v [p] = false := by
    have := h.limit
    simp only [limitReached, List.any_cons, List.any_nil, Bool.or_false, limit, entered.entries,
      Bool.and_eq_false_iff, bne_eq_false_iff_eq, decide_eq_false_iff_not]
    omega
  rw [enterFaultPattern, enterUnitPattern, if_neg (by simp [h.active])]
  dsimp only
  rw [h.unit, hb]
  simp only [List.foldl_cons, List.foldl_nil, if_true, below, Bool.false_eq_true, if_false]

theorem Lone.entered (h : Lone s v p) (hp : p < 8) (hc : cause < 256) :
    PatternEntered s (enterFaultPattern s v p cause) v p cause (nextPattern s v p) := by
  rw [h.enterFaultPattern_eq hp hc]
  exact enterPattern1_entered hp hc h.pattern

theorem Lone.only (h : Lone s v p) (hp : p < 8) (hc : cause < 256) :
    PortsOnly v (· = p) (EnteredField v p) s (enterFaultPattern s v p cause) := by
  rw [h.enterFaultPattern_eq hp hc]
  exact PortsOnly.enterPattern1 (U := (· = p)) .refl rfl fun _ => id

/-! ### Its guard's flag -/

/-- The guard of port `p` has shown a loss of current. -/
structure Flagged (s t : State) (v : Vat) (p : Nat) : Prop where
  only : PortsOnly v (· = p) (· = R.GRID_STAT_ILOSS_F v p) s t
  flag : t.rd (R.GRID_STAT_ILOSS_F v p) = 1

theorem Flagged.rd (h : Flagged s t v p) (hf : 0x50000000 ≤ f.addr) (hg : f.apart (R.GRID_STAT_ILOSS_F v p) = true) :
    t.rd f = s.rd f :=
  h.only.rd f (apart_log hf).1 (apart_log hf).2 fun _ e => e ▸ hg

theorem Flagged.leg (h : Flagged s t v p) {a st lo wd : Nat} (ha : 0x04002000 ≤ a) (hp : p < 8) :
    t.rd ⟨v.base + a + n * st, lo, wd⟩ = s.rd ⟨v.base + a + n * st, lo, wd⟩ :=
  h.rd unit_ge (apart_of_addr (by simp only [R.GRID_STAT_ILOSS_F, R.GRID_STAT]; omega))

theorem Flagged.lone (h : Flagged s t v p) (hl : Lone s v p) : Lone t v p := by
  have state : portState t v p = portState s v p := h.rd unit_ge unit_apart
  have linked : t.is (R.PORT_CFG_LNK_EN v p) = s.is (R.PORT_CFG_LNK_EN v p) := is_of_rd (h.rd unit_ge unit_apart)
  have pattern : t.rd (R.PORT_FPCFG_FP v p) = s.rd (R.PORT_FPCFG_FP v p) := h.rd unit_ge unit_apart
  have entries : t.rd (R.PORT_STATE_ENTRIES v p) = s.rd (R.PORT_STATE_ENTRIES v p) := h.rd unit_ge unit_apart
  have limit : t.rd (R.PORT_CFG_FAULT_LIMIT v p) = s.rd (R.PORT_CFG_FAULT_LIMIT v p) := h.rd unit_ge unit_apart
  obtain ⟨active, unlinked, ha, hb⟩ := hl
  exact ⟨by rwa [portActive, state], linked.trans unlinked, pattern ▸ ha, by rwa [limit, entries]⟩

theorem Flagged.nextPattern (h : Flagged s t v p) (hp : p < 8) : nextPattern t v p = nextPattern s v p := by
  have pattern : t.rd (R.PORT_FPCFG_FP v p) = s.rd (R.PORT_FPCFG_FP v p) := h.rd unit_ge unit_apart
  have legs : portLegs t v p = portLegs s v p := portLegs_congr fun a lo wd ha => h.rd unit_ge (apart_of_addr (by
    simp only [R.GRID_STAT_ILOSS_F, R.GRID_STAT]
    omega))
  have frame (n : Nat) : t.rd (R.DLR_FRAME_FRAME v n) = s.rd (R.DLR_FRAME_FRAME v n) := h.leg (by decide) hp
  have broken (n : Nat) : t.is (R.DLR_STAT_BREAK v n) = s.is (R.DLR_STAT_BREAK v n) := is_of_rd (h.leg (by decide) hp)
  have linked (n : Nat) : t.is (R.DLR_STAT_LINKOK v n) = s.is (R.DLR_STAT_LINKOK v n) := is_of_rd (h.leg (by decide) hp)
  have faulted : switchFaulted t v = switchFaulted s v := by
    funext n high
    simp only [switchFaulted, frame, broken, linked]
  have same (fp : Nat) : patternFaulted t v [p] fp = patternFaulted s v [p] fp := by
    simp only [patternFaulted, legs, faulted, List.any_cons, List.any_nil]
  rw [Machine.nextPattern, Machine.nextPattern, pattern, same]

/-- A current channel of a grid port in RUN lacks its sample: the guard flags the loss, and the port enters its pattern. -/
theorem guardArrival_loss (hg : gridPort s v p = true) (hs : portState s v p = RUN) (ha : (getPort s v p).await.contains n = true)
    (hi : (currChans s v p).contains n = true) :
    ∃ t, Flagged s t v p ∧ guardArrival s v p n false = enterFaultPattern t v p causeIFBLOSS := by
  have tested {t : State} (h : PortsOnly v (· = p) (· = R.GRID_STAT_ILOSS_F v p) s t) (hr : t.regs = s.regs) :
      ∃ u, Flagged s u v p ∧ feedbackTest t v p (fun m => m == n) = enterFaultPattern u v p causeIFBLOSS := by
    have grid : gridPort t v p = true := by rw [← hg, gridPort, gridPort, State.rd, State.rd, hr]
    have run : portState t v p = RUN := by rw [← hs, portState, portState, State.rd, State.rd, hr]
    have curr : currChans t v p = currChans s v p := by
      rw [currChans, currChans, if_pos grid, if_pos hg]
      refine congrArg (List.filterMap · _) (funext fun i => ?_)
      have same (f : Field) : t.rd f = s.rd f := by rw [State.rd, State.rd, hr]
      rw [State.is, State.is, same, same]
    refine ⟨t.vatFlagEdge v uGUARD (R.GRID_STAT_ILOSS_F v p), ⟨h.vatFlagEdge rfl, rd_vatFlagEdge rfl rfl unit_ge⟩, ?_⟩
    have lost : (currChans t v p).any (fun m => m == n) = true := by
      rw [curr, List.any_eq_true]
      exact ⟨n, List.contains_iff_mem.mp hi, beq_self_eq_true n⟩
    rw [feedbackTest, if_neg (by simp [run]), if_pos lost, currentLoss, if_pos grid]
  have awaited : PortsOnly v (· = p) (· = R.GRID_STAT_ILOSS_F v p) s
      (modPort s v p (fun q => { q with await := q.await.erase n })) :=
    PortsOnly.refl.modPort rfl
  rw [guardArrival, if_neg (by rw [ha]; decide)]
  dsimp only
  rw [if_neg Bool.false_ne_true, arrivalLoss]
  refine tested (awaited.when fun h => h.modGuard) ?_
  split
  · rw [modGuard, State.modVat_regs, modPort, State.modVat_regs]
  · rw [modPort, State.modVat_regs]

/-! ### The engines go on, and nothing else moves the port -/

/-- Where entries show their verdicts: beyond the slots' own registers, and in which bits. -/
theorem JudgedField.bits (h : JudgedField v c k g) : v.base + 0x04380040 ≤ g.addr
    ∧ ((g.addr % 16 = 8 ∧ 31 ≤ g.lo) ∨ (g.addr % 16 = 12 ∧ g.lo + g.width ≤ 16) ∨ (g.addr % 16 = 0 ∧ 18 ≤ g.lo)) := by
  have : v.base % 16 = 0 := by cases v <;> decide
  obtain ⟨q, rfl | rfl | rfl | rfl⟩ := h <;>
    simp only [R.WE_XHAT_SPEC, R.WE_XHAT, R.WE_RESID_RESID, R.WE_RESID, R.WE_CFG_OUT, R.WE_CFG_ABSENT, R.WE_CFG] <;> omega

/-- Entries without end can reach any register beyond the first; what the orders depend on there lies in other bits. -/
theorem OrderField.apart_judged (hf : OrderField v f) (hg : JudgedField v c k g) : f.apart g = true := by
  have base (x : Vat) : x.base % 16 = 0 := by cases x <;> decide
  have hv := base_ge v
  obtain ⟨beyond, bits⟩ := hg.bits
  simp only [Field.apart, Bool.or_eq_true, bne_iff_ne, ne_eq, decide_eq_true_eq]
  cases hf with
  | owner => simp only [R.OWN_STAT_OWNER, R.OWN_STAT]; omega
  | ss1 => simp only [R.SAFE_STAT_SS1_ACT, R.SAFE_STAT]; omega
  | cfg hp => simp only [R.PORT_CFG]; omega
  | @bind w => have := base w; simp only [R.GS_BIND]; omega
  | @pos w => have := base w; simp only [R.POS_STAT_VALID, R.POS_STAT]; omega
  | @slice w => have := base w; simp only [R.SLICE_DATA_VALID, R.SLICE_DATA]; omega
  | aux => simp only [R.AX_VALID, R.AX]; omega

theorem OrderField.outside_engines (h : OrderField v f) :
    f.addr % 0x10000000 < 0x04300000 ∨ (f.addr % 0x10000000 < 0x04308000 ∧ f.addr % 0x1000 ≠ 0) := by
  cases h with
  | owner => decide
  | ss1 => decide
  | cfg hp => cases v <;> simp only [R.PORT_CFG, Vat.base] <;> omega
  | @bind w => cases w <;> simp only [R.GS_BIND, Vat.base] <;> omega
  | @pos w => cases w <;> simp only [R.POS_STAT_VALID, R.POS_STAT, Vat.base] <;> omega
  | @slice w => cases w <;> simp only [R.SLICE_DATA_VALID, R.SLICE_DATA, Vat.base] <;> omega
  | @aux w => cases w <;> simp only [R.AX_VALID, R.AX, Vat.base] <;> omega

theorem OrderField.apart_engine (hf : OrderField v f) (hc : c < 8) (hk : k < 4) (hg : EngineField v c k g) :
    f.apart g = true := by
  have place (h : 0x04300000 ≤ g.addr % 0x10000000 ∧ (g.addr % 0x1000 = 0 ∨ 0x04380000 ≤ g.addr % 0x10000000)) :
      f.apart g = true := by
    have := hf.outside_engines
    exact apart_of_addr fun e => by rw [e] at this; omega
  cases hg with
  | judged h => exact hf.apart_judged h
  | shown h =>
    refine place ?_
    rcases h with h | ⟨j, hj, h | h⟩ <;> rw [h] <;> cases v <;>
      simp only [R.CE_STAT, R.WHEY_STAT, R.WHEY_TICK, Vat.base] <;> omega
  | squashes h =>
    refine place ?_
    cases v <;> simp only [h, R.WHEY_NSQUASH_NSQUASH, R.WHEY_NSQUASH, Vat.base] <;> omega

theorem deliver_alike {x : Int} {ok : Bool} : OrdersAlike v s (deliver s v p n x ok) where
  dev := deliver_only.part State.dev
  ord := deliver_only.part State.ord
  rd f hf := deliver_only.rd f fun _ ⟨_, hc, _, hk, hg⟩ => hf.apart_engine hc hk hg
  defs _ _ _ := deliver_defs

theorem deliver_port {x : Int} {ok : Bool} : getPort (deliver s v p n x ok) w q = getPort s w q := by
  have ports : ((deliver s v p n x ok).vat w).ports = (s.vat w).ports := by
    cases w
    · exact deliver_only.part (·.vatA.ports)
    · exact deliver_only.part (·.vatB.ports)
  rw [getPort, getPort, ports]

theorem deliver_rd {x : Int} {ok : Bool} (hf : f.addr < v.base + 0x04300000) : (deliver s v p n x ok).rd f = s.rd f :=
  deliver_only.rd f fun _ ⟨_, _, _, _, hg⟩ => apart_of_addr fun e => by have := hg.le; omega

/-! ### What a sample found absent leaves of the port -/

/-- What shows an entry into FAULT_PATTERN are registers of ports and legs. -/
theorem PatternEntered.of_rd (h : PatternEntered s t v p cause pat) (hp : p < 8)
    (hr : ∀ f, v.base ≤ f.addr → f.addr < v.base + 0x04100000 → u.rd f = t.rd f) : PatternEntered s u v p cause pat := by
  have port {a lo wd : Nat} (ha : a < 0x04000400) : u.rd ⟨v.base + a + p * 0x400, lo, wd⟩
      = t.rd ⟨v.base + a + p * 0x400, lo, wd⟩ :=
    hr _ (by dsimp only; omega) (by dsimp only; omega)
  have legs : portLegs u v p = portLegs t v p := portLegs_congr fun a lo wd ha => port (by omega)
  have pin {m lo wd : Nat} (hm : m < 32) : u.rd ⟨R.LEG_PIN v m, lo, wd⟩ = t.rd ⟨R.LEG_PIN v m, lo, wd⟩ :=
    hr _ (by simp only [R.LEG_PIN]; omega) (by simp only [R.LEG_PIN]; omega)
  obtain ⟨state, cause, entries, degr, patnow, pins⟩ := h
  refine ⟨(port (by decide)).trans state, (port (by decide)).trans cause, (port (by decide)).trans entries,
    fun run => (is_of_rd (port (by decide))).trans (degr run), (port (by decide)).trans patnow,
    List.all_eq_true.mpr fun m hm => ?_⟩
  have en : u.is (R.LEG_PIN_EN v m) = t.is (R.LEG_PIN_EN v m) := is_of_rd (pin (portLegs_lt hm))
  have pulse : u.is (R.LEG_PIN_PULSE v m) = t.is (R.LEG_PIN_PULSE v m) := is_of_rd (pin (portLegs_lt hm))
  rw [en, pulse]
  exact List.all_eq_true.mp pins m (legs ▸ hm)

end Lone

end Sys2Proof.Machine

namespace Sys2Proof.Machine

open Sys2Proof

/-! ## A current channel of a grid port lacks its arrival sample (R166) -/

section CurrentLost

variable {s t u : State} {v : Vat} {g : Field} {n p q : Nat}

/-- An entry into FAULT_PATTERN leaves the flags of the port's guard, and the states of other ports. -/
theorem EnteredField.apart_loss (hp : p < 8) (h : EnteredField v p g) : (R.GRID_STAT_ILOSS_F v p).apart g = true := by
  rcases h with h | h
  · simp only [cyclePortFields, List.mem_cons, List.not_mem_nil, or_false] at h
    rcases h with rfl | rfl | rfl | rfl | rfl | rfl | rfl | rfl | rfl | rfl | rfl <;> exact unit_apart
  · exact port_apart_leg (port_low hp) h

theorem EnteredField.apart_state (hq : q < 8) (hn : q ≠ p) (h : EnteredField v p g) :
    (R.PORT_STATE_STATE v q).apart g = true := by
  rcases h with h | h
  · have block : ∃ a, g.addr = v.base + a + p * 0x400 ∧ 0x04000000 ≤ a ∧ a < 0x04000400 := by
      simp only [cyclePortFields, List.mem_cons, List.not_mem_nil, or_false] at h
      rcases h with rfl | rfl | rfl | rfl | rfl | rfl | rfl | rfl | rfl | rfl | rfl <;> exact ⟨_, rfl, by decide, by decide⟩
    obtain ⟨a, ha, h0, h1⟩ := block
    refine apart_of_addr ?_
    rw [ha]
    simp only [R.PORT_STATE_STATE, R.PORT_STATE]
    omega
  · exact port_apart_leg (port_low hq) h

/-- What the loss of a current channel leaves of its port, and of the others. -/
structure CurrentLost (s t : State) (v : Vat) (p : Nat) : Prop where
  entered : PatternEntered s t v p causeIFBLOSS (nextPattern s v p)
  flag : t.rd (R.GRID_STAT_ILOSS_F v p) = 1
  states : ∀ q < 8, q ≠ p → portState t v q = portState s v q
  ports : ∀ q, q ≠ p → getPort t v q = getPort s v q

theorem Flagged.lost (h : Flagged s t v p) (hl : Lone s v p) (hp : p < 8) :
    CurrentLost s (enterFaultPattern t v p causeIFBLOSS) v p := by
  have lone := h.lone hl
  have entered := lone.entered hp (cause := causeIFBLOSS) (by decide)
  have only := lone.only hp (cause := causeIFBLOSS) (by decide)
  have state : portState t v p = portState s v p := h.rd unit_ge unit_apart
  have entries : t.rd (R.PORT_STATE_ENTRIES v p) = s.rd (R.PORT_STATE_ENTRIES v p) := h.rd unit_ge unit_apart
  refine ⟨⟨entered.state, entered.cause, entries ▸ entered.entries, fun run => entered.degr (state.trans run), ?_, ?_⟩,
    ?_, fun q hq hn => ?_,
    fun q hn => ?_⟩
  · rw [← h.nextPattern hp]
    exact entered.patnow
  · rw [← h.nextPattern hp]
    exact entered.pins
  · exact (only.unit fun _ hg => hg.apart_loss hp).trans h.flag
  · refine (only.unit fun _ hg => hg.apart_state hq hn).trans (h.rd unit_ge (apart_of_addr ?_))
    simp only [R.GRID_STAT_ILOSS_F, R.GRID_STAT]
    omega
  · exact (only.ports v q fun _ => hn).trans (h.only.ports v q fun _ => hn)

/-- A port in FAULT_PATTERN awaits no level order; the others are as steady as before. -/
theorem CurrentLost.steady (h : CurrentLost s t v p) (hs : Steady s v) (ha : OrdersAlike v s t) (hc : Calm t) : Steady t v := by
  refine ⟨hc, (ha.is .ss1).trans hs.noSs1, List.all_eq_true.mpr fun q hq => ?_⟩
  have unit := List.all_eq_true.mp hs.units q hq
  have hq := List.mem_range.mp hq
  by_cases hn : q = p
  · rw [Bool.or_eq_true]
    right
    rw [unitSteady, hn, h.entered.state]
    rfl
  · rwa [ha.isSecondary hq, ha.unitSteady hq (h.states q hq hn) (h.ports q hn)]

/-- What the engines make of the sample changes nothing of it. -/
theorem CurrentLost.deliver (h : CurrentLost s t v p) (hp : p < 8) {x : Int} {ok : Bool} :
    CurrentLost s (Machine.deliver t v p n x ok) v p where
  entered := h.entered.of_rd hp fun f _ hf => deliver_rd (by omega)
  flag := (deliver_rd (by simp only [R.GRID_STAT_ILOSS_F, R.GRID_STAT]; omega)).trans h.flag
  states q hq hn := Eq.trans (deliver_rd (by simp only [R.PORT_STATE_STATE, R.PORT_STATE]; omega)) (h.states q hq hn)
  ports q hn := deliver_port.trans (h.ports q hn)

/-- Where a current channel of a grid port in RUN lacks its sample, the port enters its pattern. -/
theorem arrivalTimeout_pattern {p : Fin 8} {n : Fin 64} (hs : Steady s v) (hl : s.vatLive v = true) (hg : gridPort s v p = true)
    (hr : portState s v p = RUN) (ha : loneActive s v p = true) (hw : (getPort s v p).await.contains n.val = true)
    (hi : (currChans s v p).contains n.val = true) :
    Answers (.arrivalTimeout v p n) s (fun t => PatternEntered s t v p causeIFBLOSS (nextPattern s v p)
      ∧ t.is (R.GRID_STAT_ILOSS_F v p) = true) := by
  obtain ⟨t, flagged, guard⟩ := guardArrival_loss hg hr hw hi
  have lost : CurrentLost s (deliver (guardArrival s v p n false) v p n 0 false) v p := by
    rw [guard]
    exact (flagged.lost (loneActive_iff.mp ha) p.isLt).deliver p.isLt
  have steady := lost.steady hs ((guardArrival_alike p.isLt).trans deliver_alike) (deliver_calm p.isLt hs.calm)
  refine ⟨_, execArrivalTimeout_eq hl, ?_, ?_⟩
  · refine lost.entered.of_rd p.isLt fun f h0 h1 => settle_steady steady ⟨h0, by omega⟩
  · refine is_one ((settle_steady steady ⟨?_, ?_⟩).trans lost.flag) <;> simp only [R.GRID_STAT_ILOSS_F, R.GRID_STAT] <;> omega

end CurrentLost

/-! ## The obligation -/

/-- Settles O38: an evaluation that ends goes to its commit, waits for its arrivals or is squashed, and a sample found absent is
awaited no longer. -/
theorem evaluationsEnd : Obligations.EvaluationsEnd := by
  unfold Obligations.EvaluationsEnd
  refine ⟨fun _ _ _ _ _ => evaluationEnd_commits, fun _ _ _ _ _ => evaluationEnd_waits,
    fun _ _ _ _ _ hc _ => evaluationEnd_squashes hc,
    fun _ _ _ => evaluationEnd_idle, fun _ _ _ _ _ _ => arrivalTimeout_found, fun _ _ _ _ _ _ => arrivalTimeout_migrates,
    fun _ _ _ _ => arrivalTimeout_pattern, fun _ _ _ _ => arrivalTimeout_idle⟩

end Sys2Proof.Machine

namespace Sys2Proof.Machine

open Sys2Proof

/-! # The rides of the guards and their ends (O41)

## What the cycle's consequences leave of the guards

They restore what is left of an open-loop ride as a port leaves RUN (R164); the rest of a guard, the offsets of restoration
among it (R177, R179), stays as it is. -/

/-- Every guard of `s` is as in `r`, but for what is left of an open-loop ride. -/
def GuardsKept (r s : State) : Prop := ∀ v p, { getGuard s v p with olPt := 0 } = { getGuard r v p with olPt := 0 }

section GuardsKept

variable {r s t a b : State} {v : Vat} {f : Field} {n p q x y : Nat}

theorem GuardsKept.refl : GuardsKept s s := fun _ _ => rfl

theorem GuardsKept.of_guards (h : GuardsKept r s) (e : ∀ v, (t.vat v).guards = (s.vat v).guards) : GuardsKept r t := fun v p => by
  rw [getGuard, e v]
  exact h v p

/-- Only the vats have guards. -/
theorem GuardsKept.update (h : GuardsKept r s) {pending : List Instr} {variant : Variant} {dev : DevState} {regs : RegFile}
    {mem : List Host.Cell} {time : TimeSt} {rst : ResetSt} {clk : ClockSt} {arb : ArbSt} {harp : HarpSt} {ord : OrderSt} {log : LogSt}
    {whl : WheelSt} {trust : TrustSt} {rind : RindSt} {nv : NvSt} {rcd : RecSt} {can : CanSt} {net : NetSt} {bus : BusSt} {free : Nat} :
    GuardsKept r ⟨pending, variant, dev, regs, mem, time, rst, clk, s.vatA, s.vatB, arb, harp, ord, log, whl, trust, rind, nv, rcd,
      can, net, bus, free⟩ := h.of_guards fun v => by cases v <;> rfl

theorem GuardsKept.modVat (h : GuardsKept r s) {k : VatSt → VatSt} (hk : (k (s.vat v)).guards = (s.vat v).guards) :
    GuardsKept r (s.modVat v k) := h.of_guards fun w => by
  by_cases hw : v = w
  · rw [← hw, State.vat_modVat_self, hk]
  · rw [modVat_other hw]

theorem GuardsKept.modPort (h : GuardsKept r s) {k : PortSt → PortSt} : GuardsKept r (modPort s v p k) := h.modVat rfl

theorem GuardsKept.modLeg (h : GuardsKept r s) {k : LegSt → LegSt} : GuardsKept r (modLeg s v n k) := h.modVat rfl

theorem GuardsKept.clearOlPt (h : GuardsKept r s) : GuardsKept r (modGuard s v p fun g => { g with olPt := 0 }) := fun w q => by
  refine Eq.trans ?_ (h w q)
  by_cases hw : v = w
  · subst hw
    rw [getGuard, modGuard, State.vat_modVat_self]
    rcases nth_modNth_cases (s.vat v).guards p (fun g : GuardSt => { g with olPt := 0 }) q {} with e | e <;> rw [e] <;> rfl
  · rw [getGuard, modGuard, modVat_other hw, getGuard]

theorem GuardsKept.ite {c : Prop} {_ : Decidable c} (ha : GuardsKept r a) (hb : GuardsKept r b) :
    GuardsKept r (if c then a else b) := by
  split <;> assumption

theorem GuardsKept.when {c : Prop} {_ : Decidable c} (h : GuardsKept r s) (ha : GuardsKept r s → GuardsKept r a) :
    GuardsKept r (if c then a else s) := .ite (ha h) h

theorem GuardsKept.unless {c : Prop} {_ : Decidable c} (h : GuardsKept r s) (ha : GuardsKept r s → GuardsKept r a) :
    GuardsKept r (if c then s else a) := .ite h (ha h)

theorem GuardsKept.foldl {α : Type} {k : State → α → State} {l : List α} (h : GuardsKept r s)
    (hk : ∀ {t i}, GuardsKept r t → GuardsKept r (k t i)) : GuardsKept r (l.foldl k s) :=
  List.foldlRecOn l k h fun _ ht _ _ => hk ht

theorem GuardsKept.forN {k : State → Nat → State} (h : GuardsKept r s) (hk : ∀ {t i}, GuardsKept r t → GuardsKept r (k t i)) :
    GuardsKept r (forN n s k) := h.foldl hk

theorem GuardsKept.forVats {k : State → Vat → State} (h : GuardsKept r s) (hk : ∀ {t i}, GuardsKept r t → GuardsKept r (k t i)) :
    GuardsKept r (forVats s k) := h.foldl hk

theorem GuardsKept.wr (h : GuardsKept r s) : GuardsKept r (s.wr f n) := h.update

theorem GuardsKept.set1 (h : GuardsKept r s) : GuardsKept r (s.set1 f) := h.update

theorem GuardsKept.event (h : GuardsKept r s) {i j k : Nat} : GuardsKept r (s.event i j k) := h.of_guards fun _ => by rw [vat_event]

theorem GuardsKept.vatEvent (h : GuardsKept r s) {i j k : Nat} : GuardsKept r (s.vatEvent v i j k) := h.unless (·.event)

/-! ### Ports -/

theorem GuardsKept.setPins (h : GuardsKept r s) {i j : Bool} : GuardsKept r (setPins s v n i j) :=
  (h.when fun h => h.when (·.modLeg.set1)).modLeg.wr.wr

theorem GuardsKept.setPortPins (h : GuardsKept r s) {i j : Bool} : GuardsKept r (setPortPins s v p i j) := h.foldl (·.setPins)

theorem GuardsKept.drivePattern (h : GuardsKept r s) : GuardsKept r (drivePattern s v p x) := h.wr.setPortPins

theorem GuardsKept.leaveRun (h : GuardsKept r s) : GuardsKept r (leaveRun s v p) :=
  (((h.wr.modPort.foldl (·.modLeg)).when (·.wr.clearOlPt)).wr.wr).wr

theorem GuardsKept.setPortState (h : GuardsKept r s) : GuardsKept r (setPortState s v p x y) :=
  .ite h ((((((((h.when (·.leaveRun)).when (·.modPort)).when (·.modPort)).when (·.wr)).when (·.wr)).unless (·.wr)).when
    (·.setPortPins)).when (·.foldl (·.modLeg))).wr.vatEvent

theorem GuardsKept.enterPattern1 (h : GuardsKept r s) {i : Bool} : GuardsKept r (enterPattern1 s v p x y i) :=
  .ite h.setPortState.wr.wr.drivePattern.set1.vatEvent h.setPortState.wr.wr.drivePattern

theorem GuardsKept.enterUnitPattern (h : GuardsKept r s) {k : Nat → Nat} : GuardsKept r (enterUnitPattern s v p k) :=
  .ite h ((h.foldl (·.enterPattern1)).when (·.foldl (·.setPortState)))

theorem GuardsKept.armEffects (h : GuardsKept r s) : GuardsKept r (armEffects s v q) := by
  unfold Machine.armEffects
  split
  · exact h.foldl (·.wr)
  · exact .ite (h.unless fun h => .ite h.update h.set1.event) (h.when (·.foldl (·.set1.vatEvent)))

theorem GuardsKept.setUnitState (h : GuardsKept r s) : GuardsKept r (setUnitState s v p x) := h.foldl (·.setPortState)

theorem GuardsKept.armUnit (h : GuardsKept r s) : GuardsKept r (armUnit s v p) :=
  h.setUnitState.when fun h => (h.foldl (·.armEffects)).when (·.enterUnitPattern)

theorem GuardsKept.ordersOnUnit (h : GuardsKept r s) : GuardsKept r (ordersOnUnit s v p) :=
  (((h.when (·.setUnitState)).when (·.setUnitState)).when (·.armUnit)).when (·.setUnitState)

theorem GuardsKept.ordersOnPorts (h : GuardsKept r s) : GuardsKept r (ordersOnPorts s) :=
  .ite h (h.forVats fun h => h.when fun h => h.forN fun h => h.unless (·.ordersOnUnit))

/-! ### The device -/

theorem GuardsKept.setDev (h : GuardsKept r s) {d : DevState} : GuardsKept r (setDev s d) := .ite h (h.update.unless (·.event))

theorem GuardsKept.abandonTest (h : GuardsKept r s) : GuardsKept r (abandonTest s n) := by
  refine .ite h.wr.set1.wr.event ?_
  split
  · exact (h.wr.wr.wr.wr.when (·.wr)).update.set1.wr.event
  · exact h

theorem GuardsKept.gateOff (h : GuardsKept r s) : GuardsKept r (gateOff s) :=
  .ite h ((h.forN (·.abandonTest)).update.forN fun h => .ite h.wr h.update).wr

theorem GuardsKept.enterSafeStop (h : GuardsKept r s) : GuardsKept r (enterSafeStop s x) :=
  (h.gateOff.set1.wr.wr.set1.event.wr.wr.update.update.forVats fun h => h.forN fun h => h.unless (·.setPortState)).setDev

theorem GuardsKept.ss1End (h : GuardsKept r s) : GuardsKept r (ss1End s) := by
  refine .ite h ?_
  split
  · exact h.unless (·.enterSafeStop)
  · split
    · exact h.unless (·.enterSafeStop)
    · exact h.enterSafeStop

theorem GuardsKept.refreshDeg (h : GuardsKept r s) : GuardsKept r (refreshDeg s) := .ite h (h.unless (·.wr.event))

theorem GuardsKept.refreshDev (h : GuardsKept r s) : GuardsKept r (refreshDev s) :=
  .ite h (.ite h.setDev (.ite h.setDev h.setDev))

/-- The cycle's consequences keep the guards. -/
theorem settle_guards (hc : Calm s) : GuardsKept s (settle s) := by
  have kept : GuardsKept s (Machine.refreshDev (Machine.refreshDeg (Machine.ss1End (Machine.ordersOnPorts s)))) :=
    GuardsKept.refl.ordersOnPorts.ss1End.refreshDeg.refreshDev
  have calm : (Machine.refreshDev (Machine.refreshDeg (Machine.ss1End (Machine.ordersOnPorts s)))).rst.sysAfterSto = none :=
    (refreshDev_cycle (refreshDeg_cycle (ss1End_cycle (ordersOnPorts_cycle (CycleOnly.refl s))))).calm hc
  refine GuardsKept.update (.ite .refl ?_)
  rwa [dueSysReset, calm]

theorem settle_pend (hc : Calm s) : (getGuard (settle s) v p).pend = (getGuard s v p).pend := by
  have pend := congrArg GuardSt.pend (settle_guards hc v p)
  exact pend

end GuardsKept

end Sys2Proof.Machine

namespace Sys2Proof.Machine

open Sys2Proof

/-! ## A guard's status registers

GRID_STAT and DRV_STAT of a port show the rides of its guards (R164, R197, R198). Nothing that an entry into FAULT_PATTERN or the
level orders go by lies in them: what `Flagged` says of one flag, `StatusOnly` says of all that these registers show. -/

/-- The field lies in a status register of port `p`'s guards. -/
def StatusField (v : Vat) (p : Nat) (g : Field) : Prop := g.addr = R.GRID_STAT v p ∨ g.addr = R.DRV_STAT v p

/-- `t` differs from `s` at most in the status of port `p`'s guards, in what an event writes, and in legs and guards. -/
abbrev StatusOnly (v : Vat) (p : Nat) (s t : State) : Prop := PortsOnly v (fun _ => False) (StatusField v p) s t

section Status

variable {r s t u : State} {v w : Vat} {U : Nat → Prop} {W : Field → Prop} {f g : Field} {fs ws : List Field}
  {a i st lo wd n p q cause pat : Nat}

theorem PortsOnly.vatFlag (h : PortsOnly v U W r s) (hg : W g) (hf : g.fits = true := by rfl) :
    PortsOnly v U W r (s.vatFlag w n g) :=
  h.unless fun h => PortsOnly.ite h.mark (h.set1 hg hf).event

theorem PortsOnly.calm (h : PortsOnly v U W s t) (hc : Calm s) : Calm t := by
  have due := congrArg (fun x : State => x.rst.sysAfterSto) h.rest
  exact Eq.trans due hc

/-- The frame of a claim, after the cycle's consequences. -/
theorem PortsOnly.frame (h : PortsOnly v U (· ∈ ws) s t) (hc : Calm s) (hw : ∀ g ∈ ws, g ∈ cycleFields ∨ g ∈ fs) :
    Frame s (settle t) fs := by
  have part {α : Type} (k : State → α) (hk : ∀ x, k (cycleRest x) = k x) : k t = k s :=
    (hk t).symm.trans ((congrArg k h.rest).trans (hk s))
  have calm := h.calm hc
  refine ⟨fun f hf ha => (settle_rd calm f hf).trans ?_, (settle_mem calm).trans (part (·.mem) fun _ => rfl),
    (settle_nv calm).trans (part (·.nv) fun _ => rfl), (settle_trust calm).trans (part (·.trust) fun _ => rfl),
    (settle_rind calm).trans (part (·.rind) fun _ => rfl), (settle_time calm).trans (part (·.time) fun _ => rfl)⟩
  obtain ⟨lost, flag⟩ := apart_log_of_cycleFree hf
  exact h.rd f lost flag fun g hg => (hw g hg).elim (List.all_eq_true.mp hf g) (ha g)

/-- The status of a guard lies apart from every other register of a vat. -/
theorem StatusOnly.rd (h : StatusOnly v p s t) (hf : 0x50000000 ≤ f.addr) (hg : f.addr ≠ R.GRID_STAT v p)
    (hd : f.addr ≠ R.DRV_STAT v p) : t.rd f = s.rd f := by
  refine PortsOnly.rd h f (apart_log hf).1 (apart_log hf).2 fun g hs => apart_of_addr ?_
  rcases hs with e | e <;> rw [e]
  · exact hg
  · exact hd

/-- A register of a port beside them. -/
theorem StatusOnly.port (h : StatusOnly v p s t) (ha : (a % 0x400 != 0x318 && a % 0x400 != 0x3A8) = true := by decide) :
    t.rd ⟨v.base + a + q * 0x400, lo, wd⟩ = s.rd ⟨v.base + a + q * 0x400, lo, wd⟩ := by
  simp only [Bool.and_eq_true, bne_iff_ne, ne_eq] at ha
  have := base_ge v
  refine h.rd ?_ ?_ ?_ <;> simp only [R.GRID_STAT, R.DRV_STAT] <;> omega

/-- A register of a leg. -/
theorem StatusOnly.leg (h : StatusOnly v p s t) (hp : p < 8) (ha : 0x04002000 ≤ a := by decide) :
    t.rd ⟨v.base + a + i * st, lo, wd⟩ = s.rd ⟨v.base + a + i * st, lo, wd⟩ := by
  refine h.rd unit_ge ?_ ?_ <;> simp only [R.GRID_STAT, R.DRV_STAT] <;> omega

theorem StatusOnly.portState (h : StatusOnly v p s t) : portState t v q = portState s v q := h.port

theorem StatusOnly.portLegs (h : StatusOnly v p s t) : portLegs t v q = portLegs s v q :=
  portLegs_congr fun a lo wd ha => by rcases ha with rfl | rfl <;> exact h.port

theorem PortsOnly.ordersAlike (h : GuardOnly v p s t) (hp : p < 8) : OrdersAlike v s t :=
  h.alike fun _ _ hf hg => hg.apart hp (fun _ ho => ho.apart_order hf) hf.place

/-- What only shows in a guard's status leaves the ports as steady. -/
theorem StatusOnly.steady (h : StatusOnly v p s t) (hs : Steady s v) (hp : p < 8) : Steady t v := by
  have alike : OrdersAlike v s t := (PortsOnly.mono h (fun _ => False.elim) fun _ => .inr).ordersAlike hp
  refine ⟨h.calm hs.calm, (alike.is .ss1).trans hs.noSs1, List.all_eq_true.mpr fun q hq => ?_⟩
  have unit := List.all_eq_true.mp hs.units q hq
  have hq := List.mem_range.mp hq
  rwa [alike.isSecondary hq, alike.unitSteady hq h.portState (h.ports v q fun _ => id)]

/-! ### An entry into FAULT_PATTERN -/

theorem StatusOnly.lone (h : StatusOnly v p s t) (hl : Lone s v p) : Lone t v p := by
  have state : Machine.portState t v p = Machine.portState s v p := h.portState
  have linked : t.is (R.PORT_CFG_LNK_EN v p) = s.is (R.PORT_CFG_LNK_EN v p) := is_of_rd h.port
  have pattern : t.rd (R.PORT_FPCFG_FP v p) = s.rd (R.PORT_FPCFG_FP v p) := h.port
  have entries : t.rd (R.PORT_STATE_ENTRIES v p) = s.rd (R.PORT_STATE_ENTRIES v p) := h.port
  have limit : t.rd (R.PORT_CFG_FAULT_LIMIT v p) = s.rd (R.PORT_CFG_FAULT_LIMIT v p) := h.port
  obtain ⟨active, unlinked, ha, hb⟩ := hl
  exact ⟨by rwa [portActive, state], linked.trans unlinked, pattern ▸ ha, by rwa [limit, entries]⟩

theorem StatusOnly.nextPattern (h : StatusOnly v p s t) (hp : p < 8) : nextPattern t v p = nextPattern s v p := by
  have pattern : t.rd (R.PORT_FPCFG_FP v p) = s.rd (R.PORT_FPCFG_FP v p) := h.port
  have frame (n : Nat) : t.rd (R.DLR_FRAME_FRAME v n) = s.rd (R.DLR_FRAME_FRAME v n) := h.leg hp
  have broken (n : Nat) : t.is (R.DLR_STAT_BREAK v n) = s.is (R.DLR_STAT_BREAK v n) := is_of_rd (h.leg hp)
  have linked (n : Nat) : t.is (R.DLR_STAT_LINKOK v n) = s.is (R.DLR_STAT_LINKOK v n) := is_of_rd (h.leg hp)
  have faulted : switchFaulted t v = switchFaulted s v := by
    funext n high
    simp only [switchFaulted, frame, broken, linked]
  have same (fp : Nat) : patternFaulted t v [p] fp = patternFaulted s v [p] fp := by
    simp only [patternFaulted, faulted, h.portLegs, List.any_cons, List.any_nil]
  rw [Machine.nextPattern, Machine.nextPattern, pattern, same]

/-- An entry shows beside the guard's status. -/
theorem PatternEntered.shown (h : PatternEntered s t v p cause pat) (hp : p < 8)
    (hr : ∀ f, InVat v f → f.addr ≠ R.GRID_STAT v p → f.addr ≠ R.DRV_STAT v p → u.rd f = t.rd f) :
    PatternEntered s u v p cause pat := by
  have port {a lo wd : Nat} (ha : a < 0x04000400 := by decide)
      (hn : (a % 0x400 != 0x318 && a % 0x400 != 0x3A8) = true := by decide) :
      u.rd ⟨v.base + a + p * 0x400, lo, wd⟩ = t.rd ⟨v.base + a + p * 0x400, lo, wd⟩ := by
    simp only [Bool.and_eq_true, bne_iff_ne, ne_eq] at hn
    refine hr _ (inVat_unit (by omega)) ?_ ?_ <;> simp only [R.GRID_STAT, R.DRV_STAT] <;> omega
  have legs : Machine.portLegs u v p = Machine.portLegs t v p :=
    portLegs_congr fun a lo wd ha => by rcases ha with rfl | rfl <;> exact port
  have pin {m lo wd : Nat} (hm : m < 32) : u.rd ⟨R.LEG_PIN v m, lo, wd⟩ = t.rd ⟨R.LEG_PIN v m, lo, wd⟩ := by
    refine hr _ (inVat_unit (by omega)) ?_ ?_ <;> simp only [R.LEG_PIN, R.GRID_STAT, R.DRV_STAT] <;> omega
  obtain ⟨state, cause, entries, degr, patnow, pins⟩ := h
  refine ⟨Eq.trans port state, Eq.trans port cause, Eq.trans port entries, fun run => (is_of_rd port).trans (degr run),
    Eq.trans port patnow, List.all_eq_true.mpr fun m hm => ?_⟩
  have en : u.is (R.LEG_PIN_EN v m) = t.is (R.LEG_PIN_EN v m) := is_of_rd (pin (portLegs_lt hm))
  have pulse : u.is (R.LEG_PIN_PULSE v m) = t.is (R.LEG_PIN_PULSE v m) := is_of_rd (pin (portLegs_lt hm))
  rw [en, pulse]
  exact List.all_eq_true.mp pins m (legs ▸ hm)

/-- The level orders do not act on a port in FAULT_PATTERN, nor on those that a lone entry leaves. -/
theorem Steady.entered (hs : Steady s v) (hc : Calm t) (ha : OrdersAlike v s t) (hp : Machine.portState t v p = FAULTPAT)
    (hq : ∀ q < 8, q ≠ p → Machine.portState t v q = Machine.portState s v q ∧ getPort t v q = getPort s v q) : Steady t v := by
  refine ⟨hc, (ha.is .ss1).trans hs.noSs1, List.all_eq_true.mpr fun q hm => ?_⟩
  have unit := List.all_eq_true.mp hs.units q hm
  have hm := List.mem_range.mp hm
  by_cases hn : q = p
  · rw [Bool.or_eq_true]
    right
    rw [unitSteady, hn, hp]
    rfl
  · obtain ⟨state, port⟩ := hq q hm hn
    rwa [ha.isSecondary hm, ha.unitSteady hm state port]

theorem StatusOnly.entered (h : StatusOnly v p s t) (hl : Lone s v p) (hp : p < 8) (hc : cause < 256) :
    PatternEntered s (enterFaultPattern t v p cause) v p cause (Machine.nextPattern s v p) := by
  have entered := (h.lone hl).entered hp hc
  have entries : t.rd (R.PORT_STATE_ENTRIES v p) = s.rd (R.PORT_STATE_ENTRIES v p) := h.port
  rw [h.nextPattern hp] at entered
  exact ⟨entered.state, entered.cause, entries ▸ entered.entries, fun run => entered.degr (h.portState.trans run),
    entered.patnow, entered.pins⟩

/-- No level order waits to act after it. -/
theorem StatusOnly.steady_entered (h : StatusOnly v p s t) (hs : Steady s v) (hl : Lone s v p) (hp : p < 8) (hc : cause < 256) :
    Steady (enterFaultPattern t v p cause) v := by
  have guard : GuardOnly v p s (enterFaultPattern t v p cause) :=
    (PortsOnly.mono h (fun _ => False.elim) fun _ => .inr).enterFaultPattern hp
  have only := (h.lone hl).only hp hc
  refine hs.entered (guard.calm hs.calm) (guard.ordersAlike hp) (h.entered hl hp hc).state fun q hq hn => ⟨?_, ?_⟩
  · exact (only.unit fun _ hg => hg.apart_state hq hn).trans h.portState
  · exact (only.ports v q fun _ => hn).trans (h.ports v q fun _ => id)

/-- An entry with changes of the guard's status before and after it, as the cycle's end shows it. -/
theorem settle_entered (hs : Steady s v) (hl : Lone s v p) (hp : p < 8) (hc : cause < 256) (h : StatusOnly v p s t)
    (hu : StatusOnly v p (enterFaultPattern t v p cause) u) :
    PatternEntered s (settle u) v p cause (Machine.nextPattern s v p) ∧ ∀ f, InVat v f → (settle u).rd f = u.rd f := by
  have steady : Steady u v := hu.steady (h.steady_entered hs hl hp hc) hp
  refine ⟨(h.entered hl hp hc).shown hp fun f hf hg hd => ?_, fun f => settle_steady steady⟩
  exact (settle_steady steady hf).trans (hu.rd ((base_ge v).trans hf.1) hg hd)

/-! ### Leaving RUN ends the rides (R164, R197, R198) -/

/-- Any field that is not in a guard's status. -/
def Beside (v : Vat) (p : Nat) (g : Field) : Prop := ¬ StatusField v p g

theorem beside_port (ha : (a % 0x400 != 0x318 && a % 0x400 != 0x3A8) = true := by decide) :
    Beside v p ⟨v.base + a + p * 0x400, lo, wd⟩ := by
  simp only [Bool.and_eq_true, bne_iff_ne, ne_eq] at ha
  simp only [Beside, StatusField, R.GRID_STAT, R.DRV_STAT, not_or]
  omega

theorem LegField.beside (hp : p < 8) (h : LegField v g) : Beside v p g := by
  obtain ⟨n, -, hg⟩ := h
  simp only [cycleLegFields, List.mem_cons, List.not_mem_nil, or_false] at hg
  rcases hg with rfl | rfl | rfl | rfl <;>
    simp only [Beside, StatusField, R.GRID_STAT, R.DRV_STAT, R.LEG_PIN_PULSE, R.LEG_PIN_EN, R.LEG_PIN, R.DLR_STAT_HUVMASK,
      R.DLR_STAT_DRVF_F, R.DLR_STAT] <;> omega

/-- A port that leaves RUN for FAULT_PATTERN. -/
theorem setPortState_faulted (hs : Machine.portState s v p = RUN) : setPortState s v p FAULTPAT cause
    = (((leaveRun s v p).clr (R.PORT_PWMSTAT_TRIPLAT v p)).wr (R.PORT_STATE_STATE v p) FAULTPAT).vatEvent v 0x10 0x0501
      (p + FAULTPAT * 16 + cause * 256) := by
  simp [setPortState, hs]

/-- What follows the end of RUN in an entry leaves the guard's status. -/
theorem Lone.leaveRun_beside (h : Lone s v p) (hs : Machine.portState s v p = RUN) (hp : p < 8) (hc : cause < 256) :
    PortsOnly v (· = p) (Beside v p) (leaveRun s v p) (enterFaultPattern s v p cause) := by
  have recorded : PortsOnly v (· = p) (Beside v p) (leaveRun s v p) (recorded s v p cause) := by
    rw [Machine.recorded, setPortState_faulted hs]
    exact (((PortsOnly.refl.wr beside_port).wr beside_port).vatEvent.wr beside_port).wr beside_port
  have legs (g : Field) (hg : LegField v g) : Beside v p g := LegField.beside hp hg
  rw [h.enterFaultPattern_eq hp hc, enterPattern1_eq]
  exact .ite (recorded.toAllOff beside_port beside_port legs) (recorded.drivePattern beside_port legs)

theorem Lone.rideOver (h : Lone s v p) (hs : Machine.portState s v p = RUN) (hp : p < 8) (hc : cause < 256) :
    (enterFaultPattern s v p cause).rd (R.GRID_STAT_OL v p) = 0 ∧ (enterFaultPattern s v p cause).rd (R.DRV_STAT_ZR v p) = 0 := by
  have beside := h.leaveRun_beside hs hp hc
  have ol : (leaveRun s v p).rd (R.GRID_STAT_OL v p) = 0 :=
    (State.rd_wr_apart _ _ _ _ rfl unit_apart).trans ((State.rd_wr_apart _ _ _ _ rfl unit_apart).trans (State.rd_wr_self _ _ _ rfl))
  have zr : (leaveRun s v p).rd (R.DRV_STAT_ZR v p) = 0 := State.rd_wr_self _ _ _ rfl
  exact ⟨(beside.unit fun g hg => apart_of_addr fun e => hg (.inl e.symm)).trans ol,
    (beside.unit fun g hg => apart_of_addr fun e => hg (.inr e.symm)).trans zr⟩

end Status

end Sys2Proof.Machine

namespace Sys2Proof.Machine

open Sys2Proof

/-! ## The ends of the rides (R164, R165, R197, R198) -/

section RideEnds

variable {s t : State} {v : Vat} {g : Field} {n q cause : Nat} {p : Fin 8}

/-- An entry into FAULT_PATTERN leaves the flags of expired rides. -/
theorem EnteredField.apart_expired (hn : n < 8) (h : EnteredField v n g) :
    (R.GRID_STAT_OLEXP_F v n).apart g = true ∧ (R.DRV_STAT_ZRTO_F v n).apart g = true := by
  rcases h with h | h
  · simp only [cyclePortFields, List.mem_cons, List.not_mem_nil, or_false] at h
    rcases h with rfl | rfl | rfl | rfl | rfl | rfl | rfl | rfl | rfl | rfl | rfl <;> exact ⟨unit_apart, unit_apart⟩
  · exact ⟨port_apart_leg (port_low hn) h, port_apart_leg (port_low hn) h⟩

theorem status_restoreOl : StatusOnly v n s (restoreOl s v n) := (PortsOnly.refl.wr (.inl rfl)).modGuard

theorem rd_restoreOl (hg : g.apart (R.GRID_STAT_OL_LEFT v n) = true) : (restoreOl s v n).rd g = s.rd g :=
  (State.rd_modVat ..).trans (State.rd_wr_apart _ _ _ _ rfl hg)

/-- A ride at its limit sets its flag `f` and takes its port into FAULT_PATTERN, whereby its rides are over: `e` is the state after
the entry, and `u`, which ends the cycle, differs from it in the guard's status alone. -/
structure RideExpired (s e u : State) (v : Vat) (p cause : Nat) (f : Field) : Prop where
  pattern : PatternEntered s (settle u) v p cause (nextPattern s v p)
  settled : ∀ g, InVat v g → (settle u).rd g = u.rd g
  flag : e.rd f ≠ 0
  ol : e.rd (R.GRID_STAT_OL v p) = 0
  zr : e.rd (R.DRV_STAT_ZR v p) = 0

theorem rideExpired {u : State} {f : Field} (hs : Steady s v) (hl : s.vatLive v = true) (hr : portState s v p = RUN)
    (ha : loneActive s v p = true) (hc : cause < 256) (hf : f = R.GRID_STAT_OLEXP_F v p ∨ f = R.DRV_STAT_ZRTO_F v p)
    (hu : StatusOnly v p (enterFaultPattern (s.vatFlag v uGUARD f) v p cause) u) :
    RideExpired s (enterFaultPattern (s.vatFlag v uGUARD f) v p cause) u v p cause f := by
  have status : StatusField v p f := by rcases hf with rfl | rfl <;> simp [StatusField, R.GRID_STAT_OLEXP_F, R.DRV_STAT_ZRTO_F]
  have one : f.fits = true ∧ f.width = 1 := by rcases hf with rfl | rfl <;> exact ⟨rfl, rfl⟩
  have high : 0x50000000 ≤ f.addr := by rcases hf with rfl | rfl <;> exact unit_ge
  have apart (g : Field) (hg : EnteredField v p g) : f.apart g = true := by
    obtain ⟨ol, zr⟩ := hg.apart_expired p.isLt
    rcases hf with rfl | rfl <;> assumption
  have flagged : StatusOnly v p s (s.vatFlag v uGUARD f) := PortsOnly.refl.vatFlag status one.1
  have lone := loneActive_iff.mp ha
  obtain ⟨pattern, settled⟩ := settle_entered hs lone p.isLt hc flagged hu
  obtain ⟨ol, zr⟩ := (flagged.lone lone).rideOver (flagged.portState.trans hr) p.isLt hc
  have flag := ((flagged.lone lone).only p.isLt hc).rd f (apart_log high).1 (apart_log high).2 apart
  exact ⟨pattern, settled, flag.trans_ne (vatFlag_set hl one.1 one.2 high), ol, zr⟩

/-- An open-loop ride at its limit ends in FAULT_PATTERN. -/
theorem openLoopTimeout_pattern (hs : Steady s v) (hl : s.vatLive v = true) (ho : s.is (R.GRID_STAT_OL v p) = true)
    (hr : portState s v p = RUN) (ha : loneActive s v p = true) :
    Answers (.openLoopTimeout v p) s (fun t => PatternEntered s t v p causeVFBTIMEOUT (nextPattern s v p)
      ∧ t.is (R.GRID_STAT_OLEXP_F v p) = true ∧ t.is (R.GRID_STAT_OL v p) = false) := by
  have expired := rideExpired hs hl hr ha (cause := causeVFBTIMEOUT) (by decide) (.inl rfl) status_restoreOl
  refine ⟨_, congrArg (fun s => Host.Outcome.next (settle s)) (if_pos (by rw [hl, ho]; rfl)), expired.pattern, ?_, ?_⟩
  · exact is_iff.mpr ((expired.settled _ (inVat_unit (by omega))).trans_ne ((rd_restoreOl unit_apart).trans_ne expired.flag))
  · exact is_zero ((expired.settled _ (inVat_unit (by omega))).trans ((rd_restoreOl unit_apart).trans expired.ol))

/-- A zero-effort ramp at its limit ends in FAULT_PATTERN. -/
theorem zeroEffortTimeout_pattern (hs : Steady s v) (hl : s.vatLive v = true) (hz : s.is (R.DRV_STAT_ZR v p) = true)
    (hr : portState s v p = RUN) (ha : loneActive s v p = true) :
    Answers (.zeroEffortTimeout v p) s (fun t => PatternEntered s t v p causePFBLOSS (nextPattern s v p)
      ∧ t.is (R.DRV_STAT_ZRTO_F v p) = true ∧ t.is (R.DRV_STAT_ZR v p) = false) := by
  have expired := rideExpired hs hl hr ha (cause := causePFBLOSS) (by decide) (.inr rfl) .refl
  refine ⟨_, congrArg (fun s => Host.Outcome.next (settle s)) (if_pos (by rw [hl, hz]; rfl)), expired.pattern, ?_, ?_⟩
  · exact is_iff.mpr ((expired.settled _ (inVat_unit (by omega))).trans_ne expired.flag)
  · exact is_zero ((expired.settled _ (inVat_unit (by omega))).trans expired.zr)

/-! ### A ride that ends without an entry -/

/-- A change of a guard's status alone: the port keeps its state, and the cycle's consequences leave the vat's registers. -/
structure RideChanged (s u : State) (v : Vat) (p : Nat) (fs : List Field) : Prop where
  state : portState (settle u) v p = portState s v p
  settled : ∀ g, InVat v g → (settle u).rd g = u.rd g
  frame : Frame s (settle u) fs

theorem rideChanged {u : State} {fs ws : List Field} (hs : Steady s v) (h : PortsOnly v (fun _ => False) (· ∈ ws) s u)
    (hw : ∀ g ∈ ws, StatusField v p g ∧ (g ∈ cyclePortFields v p ∨ g ∈ fs)) : RideChanged s u v p fs := by
  have status : StatusOnly v p s u := h.mono (fun _ => id) fun g hg => (hw g hg).1
  have steady := status.steady hs p.isLt
  exact ⟨(settle_steady steady (inVat_unit (by omega))).trans status.portState, fun _ => settle_steady steady,
    h.frame hs.calm fun g hg => (hw g hg).2.imp_left (mem_cyclePort p.isLt)⟩

theorem olAllowance_clr (hg : StatusField v p g) (hf : g.fits = true) : olAllowance (s.clr g) v p = olAllowance s v p := by
  have hv := base_ge v
  have apart {f : Field} (hs : f.addr ≠ R.GRID_STAT v p) (hd : f.addr ≠ R.DRV_STAT v p) : (s.clr g).rd f = s.rd f :=
    State.rd_wr_apart _ _ _ _ hf (apart_of_addr (by rcases hg with e | e <;> rw [e] <;> assumption))
  have time : (s.clr g).rd (R.GRID_OLT_OLTIME v p) = s.rd (R.GRID_OLT_OLTIME v p) := by
    apply apart <;> simp only [R.GRID_OLT_OLTIME, R.GRID_OLT, R.GRID_STAT, R.DRV_STAT] <;> omega
  have degrade : (s.clr g).rd R.SAFE_CFG_DEGRADE_TIME = s.rd R.SAFE_CFG_DEGRADE_TIME := by
    apply apart <;> simp only [R.SAFE_CFG_DEGRADE_TIME, R.SAFE_CFG, R.GRID_STAT, R.DRV_STAT] <;> omega
  rw [olAllowance, olAllowance, rideSeconds, rideSeconds, time, degrade]

/-- The voltages return: the open-loop ride is over, with its allowance restored. -/
theorem openLoopRecovery_ends (hs : Steady s v) (hl : s.vatLive v = true) (ho : s.is (R.GRID_STAT_OL v p) = true)
    (hk : (getGuard s v p).okTick = true) :
    Answers (.openLoopRecovery v p) s (fun t => t.is (R.GRID_STAT_OL v p) = false ∧ portState t v p = portState s v p
      ∧ t.rd (R.GRID_STAT_OL_LEFT v p) = olAllowance s v p * 10 % 2 ^ (R.GRID_STAT_OL_LEFT v p).width ∧ Frame s t []) := by
  have only : PortsOnly v (fun _ => False) (· ∈ [R.GRID_STAT_OL v p, R.GRID_STAT_OL_LEFT v p]) s
      (restoreOl (s.clr (R.GRID_STAT_OL v p)) v p) := PortsOnly.modGuard ((PortsOnly.refl.wr (by simp)).wr (by simp))
  have changed : RideChanged s (restoreOl (s.clr (R.GRID_STAT_OL v p)) v p) v p [] := rideChanged hs only fun g hg => by
    simp only [List.mem_cons, List.not_mem_nil, or_false] at hg
    rcases hg with rfl | rfl <;> exact ⟨.inl rfl, .inl (by simp [cyclePortFields])⟩
  refine ⟨_, congrArg (fun s => Host.Outcome.next (settle s)) (if_pos (by rw [hl, ho, hk]; rfl)), ?_, changed.state, ?_,
    changed.frame⟩
  · exact is_zero ((changed.settled _ (inVat_unit (by omega))).trans ((rd_restoreOl unit_apart).trans (State.rd_wr_self _ _ _ rfl)))
  · rw [← olAllowance_clr (g := R.GRID_STAT_OL v p) (.inl rfl) rfl]
    exact (changed.settled _ (inVat_unit (by omega))).trans ((State.rd_modVat ..).trans (State.rd_wr_self _ _ _ rfl))

/-- An observer ride at its limit becomes the zero-effort ramp. -/
theorem observerRideTimeout_ramps (hs : Steady s v) (hl : s.vatLive v = true) (ho : s.is (R.DRV_STAT_OBS v p) = true) :
    Answers (.observerRideTimeout v p) s (fun t => t.is (R.DRV_STAT_OBS v p) = false ∧ t.is (R.DRV_STAT_ZR v p) = true
      ∧ t.is (R.DRV_STAT_OBSEXP_F v p) = true ∧ t.rd (R.DRV_STAT_OBS_LEFT v p) = 0 ∧ portState t v p = portState s v p
      ∧ Frame s t [R.DRV_STAT_OBSEXP_F v p, R.DRV_STAT_OBS_LEFT v p]) := by
  have set := vatFlag_set (c := uGUARD) (f := R.DRV_STAT_OBSEXP_F v p) hl rfl rfl unit_ge
  have only : PortsOnly v (fun _ => False)
      (· ∈ [R.DRV_STAT_OBS v p, R.DRV_STAT_ZR v p, R.DRV_STAT_OBSEXP_F v p, R.DRV_STAT_OBS_LEFT v p]) s
      (modGuard ((startZr (s.vatFlag v uGUARD (R.DRV_STAT_OBSEXP_F v p)) v p).wr (R.DRV_STAT_OBS_LEFT v p) 0) v p
        (fun g => { g with obsPt := 0 })) :=
    PortsOnly.modGuard ((((PortsOnly.refl.vatFlag (by simp)).wr (by simp)).set1 (by simp)).wr (by simp))
  have changed := rideChanged (fs := [R.DRV_STAT_OBSEXP_F v p, R.DRV_STAT_OBS_LEFT v p]) hs only fun g hg => by
    simp only [List.mem_cons, List.not_mem_nil, or_false] at hg
    rcases hg with rfl | rfl | rfl | rfl
    · exact ⟨.inr rfl, .inl (by simp [cyclePortFields])⟩
    · exact ⟨.inr rfl, .inl (by simp [cyclePortFields])⟩
    · exact ⟨.inr rfl, .inr (by simp)⟩
    · exact ⟨.inr rfl, .inr (by simp)⟩
  have settled {lo wd : Nat} (ha : Field.apart ⟨R.DRV_STAT v p, lo, wd⟩ (R.DRV_STAT_OBS_LEFT v p) = true) :=
    (changed.settled ⟨R.DRV_STAT v p, lo, wd⟩ (inVat_unit (by omega))).trans
      ((State.rd_modVat ..).trans (State.rd_wr_apart _ _ _ _ rfl ha))
  refine ⟨_, congrArg (fun s => Host.Outcome.next (settle s)) (if_pos (by rw [hl, ho]; rfl)), ?_, ?_, ?_, ?_, changed.state,
    changed.frame⟩
  · exact is_zero ((settled unit_apart).trans ((rd_set1_apart rfl unit_apart).trans (State.rd_wr_self _ _ _ rfl)))
  · exact is_one ((settled unit_apart).trans (rd_set1 rfl rfl))
  · exact is_iff.mpr ((settled unit_apart).trans_ne ((rd_set1_apart rfl unit_apart).trans_ne
      ((State.rd_wr_apart _ _ _ _ rfl unit_apart).trans_ne set)))
  · exact (changed.settled _ (inVat_unit (by omega))).trans ((State.rd_modVat ..).trans (State.rd_wr_self _ _ _ rfl))

/-- The position returns: the observer ride is over. -/
theorem observerRideRecovery_ends (hs : Steady s v) (hl : s.vatLive v = true) (ho : s.is (R.DRV_STAT_OBS v p) = true)
    (hk : (getGuard s v p).okTick = true) :
    Answers (.observerRideRecovery v p) s (fun t => t.is (R.DRV_STAT_OBS v p) = false
      ∧ t.is (R.DRV_STAT_ZR v p) = s.is (R.DRV_STAT_ZR v p) ∧ portState t v p = portState s v p ∧ Frame s t []) := by
  have only : PortsOnly v (fun _ => False) (· ∈ [R.DRV_STAT_OBS v p]) s
      (modGuard (s.clr (R.DRV_STAT_OBS v p)) v p (fun g => { g with obsPt := 0 })) :=
    PortsOnly.modGuard (PortsOnly.refl.wr (by simp))
  have changed := rideChanged (fs := []) hs only fun g hg => by
    obtain rfl := List.mem_singleton.mp hg
    exact ⟨.inr rfl, .inl (by simp [cyclePortFields])⟩
  refine ⟨_, congrArg (fun s => Host.Outcome.next (settle s)) (if_pos (by rw [hl, ho, hk]; rfl)), ?_, ?_, changed.state,
    changed.frame⟩
  · exact is_zero ((changed.settled _ (inVat_unit (by omega))).trans ((State.rd_modVat ..).trans (State.rd_wr_self _ _ _ rfl)))
  · exact is_of_rd ((changed.settled _ (inVat_unit (by omega))).trans
      ((State.rd_modVat ..).trans (State.rd_wr_apart _ _ _ _ rfl unit_apart)))

end RideEnds

end Sys2Proof.Machine

namespace Sys2Proof.Machine

open Sys2Proof

/-! ## Lost restoration (R179) -/

section Restoration

variable {s t : State} {v w : Vat} {n : Nat}

/-- The loss at port `n` comes to one vat. -/
def loseRestIn (n : Nat) (s : State) (v : Vat) : State := if s.vatLive v then loseRest s v n else s

theorem loseRestIn_only :
    PortsOnly v (fun _ => False) (· ∈ [R.GRID_RSTAT_RLIVE v n, R.GRID_RSTAT_RLOSS_F v n]) s (loseRestIn n s v) :=
  PortsOnly.when .refl fun h => h.when fun h => PortsOnly.modGuard ((h.wr (by simp)).vatFlagEdge (by simp))

/-- What the loss goes by in vat `v` is in `t` as in `s`: whether the vat is there and computes, its guards, and GRID_RSTAT. -/
structure RestAlike (s t : State) (v : Vat) (n : Nat) : Prop where
  vat : t.vat v = s.vat v
  variant : t.variant = s.variant
  rd : ∀ lo wd, t.rd ⟨R.GRID_RSTAT v n, lo, wd⟩ = s.rd ⟨R.GRID_RSTAT v n, lo, wd⟩

/-- The loss in the other vat leaves this one. -/
theorem loseRestIn_other (h : w ≠ v) (hn : n < 8) : RestAlike s (loseRestIn n s w) v n where
  vat := by
    unfold loseRestIn loseRest
    split
    · split
      · exact (modVat_other h).trans (vat_vatEvent.trans (vat_mark.trans (vat_wr.trans vat_wr)))
      · rfl
    · rfl
  variant := by
    have variant := congrArg State.variant (loseRestIn_only (s := s) (v := w) (n := n)).rest
    exact variant
  rd lo wd := by
    refine loseRestIn_only.unit fun g hg => apart_of_addr ?_
    have ne : R.GRID_RSTAT v n ≠ R.GRID_RSTAT w n := place_ne (by omega) (by omega) (.inl h.symm)
    simp only [List.mem_cons, List.not_mem_nil, or_false] at hg
    rcases hg with rfl | rfl <;> exact ne

/-- Restoration is lost at port `n`: where its guard has its place, no offset waits to be applied. -/
structure RestLost (s t : State) (v : Vat) (n : Nat) : Prop where
  live : t.rd (R.GRID_RSTAT_RLIVE v n) = 0
  flag : t.rd (R.GRID_RSTAT_RLOSS_F v n) = 1
  pend : n < (s.vat v).guards.length → (getGuard t v n).pend = []

theorem loseRest_lost (hr : s.is (R.GRID_RSTAT_RLIVE v n) = true) : RestLost s (loseRest s v n) v n := by
  rw [loseRest, if_pos hr]
  have flagged : ((s.clr (R.GRID_RSTAT_RLIVE v n)).vatFlagEdge v uGUARD (R.GRID_RSTAT_RLOSS_F v n)).vat v = s.vat v :=
    vat_vatEvent.trans (vat_mark.trans (vat_wr.trans vat_wr))
  refine ⟨(State.rd_modVat ..).trans ?_, (State.rd_modVat ..).trans (rd_vatFlagEdge rfl rfl unit_ge), fun hn => ?_⟩
  · exact (rd_vatFlagEdge_apart rfl unit_apart unit_ge).trans (State.rd_wr_self _ _ _ rfl)
  · rw [getGuard, modGuard, State.vat_modVat_self]
    dsimp only
    rw [flagged, nth_modNth_self hn]

/-- Every vat that computes loses it (R177, R179). -/
theorem forVats_loseRestIn (hn : n < 8) (hl : s.vatLive v = true) (hr : s.is (R.GRID_RSTAT_RLIVE v n) = true) :
    RestLost s (forVats s (loseRestIn n)) v n := by
  refine forVats_reach (P := fun t => RestAlike s t v n) (Q := fun t => RestLost s t v n) hl ⟨rfl, rfl, fun _ _ => rfl⟩
    (fun t w hw before => ?_) (fun t before => ?_) fun t w hw lost => ?_
  · have other := loseRestIn_other (s := t) hw hn
    exact ⟨other.vat.trans before.vat, other.variant.trans before.variant, fun lo wd => (other.rd lo wd).trans (before.rd lo wd)⟩
  · have computes : t.vatLive v = true := by
      rw [← hl, State.vatLive, State.vatLive, State.hasVat, State.hasVat, before.vat, before.variant]
    have lost := loseRest_lost (s := t) ((is_of_rd (before.rd 0 1)).trans hr)
    rw [loseRestIn, if_pos computes]
    exact ⟨lost.live, lost.flag, before.vat ▸ lost.pend⟩
  · have other := loseRestIn_other (s := t) hw hn
    refine ⟨(other.rd 0 1).trans lost.live, (other.rd 1 1).trans lost.flag, fun hn => ?_⟩
    rw [getGuard, other.vat]
    exact lost.pend hn

theorem cycleFields_rstat : cycleFields.all (fun g => decide (g.addr < 0x50000000)
    || decide (0x04002000 ≤ g.addr % 0x10000000) || decide (g.addr % 0x400 ≠ 0x330)) = true := by decide +kernel

theorem rstat_free {lo wd : Nat} (hn : n < 8) : cycleFree ⟨R.GRID_RSTAT v n, lo, wd⟩ = true := by
  refine List.all_eq_true.mpr fun g hg => apart_of_addr fun e => ?_
  have place := List.all_eq_true.mp cycleFields_rstat g hg
  simp only [Bool.or_eq_true, decide_eq_true_eq, ← e] at place
  cases v <;> simp only [R.GRID_RSTAT, Vat.base] at place <;> omega

/-- A loss of restoration is one of every computing vat, and lasts beyond the cycle's consequences. -/
theorem restorationLoss_lost {p : Fin 8} (hc : Calm s) :
    Answers (.restorationLoss p) s (fun t => ∀ v : Vat, s.vatLive v = true → s.is (R.GRID_RSTAT_RLIVE v p) = true →
      t.is (R.GRID_RSTAT_RLIVE v p) = false ∧ t.is (R.GRID_RSTAT_RLOSS_F v p) = true ∧ (Fits s → (getGuard t v p).pend = [])) := by
  have calm : Calm (forVats s (loseRestIn p)) := forVats_keep hc fun t w ht => loseRestIn_only.calm ht
  refine ⟨settle (forVats s (loseRestIn p)), rfl, fun v hl hr => ?_⟩
  have lost := forVats_loseRestIn p.isLt hl hr
  refine ⟨is_zero ((settle_rd calm _ (rstat_free p.isLt)).trans lost.live),
    is_one ((settle_rd calm _ (rstat_free p.isLt)).trans lost.flag), fun hf => (settle_pend calm).trans (lost.pend ?_)⟩
  obtain ⟨-, -, -, -, -, -, -, -, guards, -⟩ := vatFits_iff.mp (hf.vat (v := v))
  omega

end Restoration

/-! ## The obligation -/

/-- Settles O41: a ride at its limit enters FAULT_PATTERN with its port's next pattern (`rideExpired`) or goes on as the
zero-effort ramp, one that ends before changes its guard's status alone (`rideChanged`), and lost restoration leaves no offset in
any vat, whatever follows in the cycle (`settle_guards`). -/
theorem ridesEnd : Obligations.RidesEnd := by
  unfold Obligations.RidesEnd
  exact ⟨fun _ _ _ => openLoopTimeout_pattern, fun _ _ _ => openLoopRecovery_ends,
    fun _ _ _ hs hl ho => ⟨observerRideTimeout_ramps hs hl ho, observerRideRecovery_ends hs hl ho⟩,
    fun _ _ _ => zeroEffortTimeout_pattern, fun _ _ => restorationLoss_lost⟩

end Sys2Proof.Machine

namespace Sys2Proof.Machine

open Sys2Proof

/-! # Position inputs and set-point pins (O37)

A command to a position input writes registers, which is `SenseOnly` of what it names, or changes what the vat holds of the
input beside them, which is `modPos`; `InVats` says what a chain of both may change, and gives the frame of a claim. -/

/-! ## Changes inside the vats -/

/-- A state without the registers, the log and the vats. -/
def outsideVats (s : State) : State := { s with regs := [], log := {}, bus := {}, vatA := {}, vatB := {} }

/-- `s` differs from `r` at most in the fields that `W` names, in what an event writes, and in what the vats hold beside registers. -/
structure InVats (r s : State) (W : Field → Prop) : Prop where
  rd : ∀ f, f.apart R.LOG_STAT_LOST = true → f.apart R.LOG_STAT_LOST_F = true → (∀ g, W g → f.apart g = true) → s.rd f = r.rd f
  rest : outsideVats s = outsideVats r

section Changes

variable {r s t u : State} {W : Field → Prop} {f : Field} {fs : List Field} {v : Vat} {i c : Nat}

theorem SenseOnly.inVats (h : SenseOnly r s W) : InVats r s W :=
  ⟨h.rd, congrArg (fun x => { x with vatA := {}, vatB := {} : State }) h.rest⟩

theorem InVats.refl : InVats s s W := SenseOnly.refl.inVats

theorem InVats.trans (h : InVats r s W) (h' : InVats s t W) : InVats r t W :=
  ⟨fun f ha hb hf => (h'.rd f ha hb hf).trans (h.rd f ha hb hf), h'.rest.trans h.rest⟩

theorem InVats.write (h : InVats r s W) (h' : SenseOnly s t W) : InVats r t W := h.trans h'.inVats

theorem InVats.modVat (h : InVats r s W) {k : VatSt → VatSt} : InVats r (s.modVat v k) W :=
  ⟨fun f ha hb hf => (State.rd_modVat ..).trans (h.rd f ha hb hf), Eq.trans (by cases v <;> rfl) h.rest⟩

theorem InVats.modPos (h : InVats r s W) {k : PosSt → PosSt} : InVats r (modPos s v i k) W := h.modVat

/-- A part of the state outside the vats, the log and the registers. -/
theorem InVats.part {α : Type} (h : InVats s u W) (k : State → α) (hk : ∀ t, k (outsideVats t) = k t := by exact fun _ => rfl) :
    k u = k s :=
  (hk u).symm.trans ((congrArg k h.rest).trans (hk s))

theorem InVats.calm (h : InVats s u W) (hc : Calm s) : Calm u := (h.part (·.rst.sysAfterSto)).trans hc

/-- The frame of a claim, after the cycle's consequences. -/
theorem InVats.frame (h : InVats s u (· ∈ fs)) (hc : Calm s) : Frame s (settle u) fs where
  regs f hf ha := (settle_rd (h.calm hc) f hf).trans (h.rd f (apart_log_of_cycleFree hf).1 (apart_log_of_cycleFree hf).2 ha)
  mem := (settle_mem (h.calm hc)).trans (h.part State.mem)
  nv := (settle_nv (h.calm hc)).trans (h.part State.nv)
  trust := (settle_trust (h.calm hc)).trans (h.part State.trust)
  rind := (settle_rind (h.calm hc)).trans (h.part State.rind)
  time := (settle_time (h.calm hc)).trans (h.part State.time)

/-- A flag of a vat that is out of reset is set, whether or not it was set before. -/
theorem is_vatFlag (hl : s.vatLive v = true) (hf : f.fits = true) (hw : f.width = 1) (ha : 0x50000000 ≤ f.addr) :
    (s.vatFlag v c f).is f = true := by
  have hr : ¬ (s.vat v).inReset = true := fun h => Bool.false_ne_true ((vatLive_of_inReset h).symm.trans hl)
  rw [State.vatFlag, if_neg hr, State.flag]
  split
  · assumption
  · exact is_one ((State.rd_event _ _ _ _ f (apart_log ha).1 (apart_log ha).2).trans (rd_set1 hf hw))

end Changes

/-! ## A position input outside its registers -/

section PositionInputs

variable {r s t u : State} {W : Field → Prop} {f : Field} {fs : List Field} {v : Vat} {i at_ word : Nat} {k : PosSt → PosSt}

@[simp] theorem rd_modPos : (modPos s v i k).rd f = s.rd f := State.rd_modVat ..

@[simp] theorem is_modPos : (modPos s v i k).is f = s.is f := is_of_rd rd_modPos

@[simp] theorem vatLive_modPos : (modPos s v i k).vatLive v = s.vatLive v := by cases v <;> rfl

theorem getPos_of_vat (h : (t.vat v).pos = (s.vat v).pos) : getPos t v i = getPos s v i := by rw [getPos, getPos, h]

theorem getPos_modPos (hi : i < (s.vat v).pos.length) : getPos (modPos s v i k) v i = k (getPos s v i) := by
  rw [getPos, modPos, State.vat_modVat_self]
  exact nth_modNth_self hi

@[simp] theorem pos_length_modPos : ((modPos s v i k).vat v).pos.length = (s.vat v).pos.length := by
  rw [modPos, State.vat_modVat_self]
  exact length_modNth ..

/-- What a change of an input leaves of it, wherever its place is. -/
theorem frame_modPos (hk : ∀ x, (k x).frame = x.frame) : (getPos (modPos s v i k) v i).frame = (getPos s v i).frame := by
  by_cases hi : i < (s.vat v).pos.length
  · rw [getPos_modPos hi, hk]
  · rw [getPos, getPos, nth, nth, List.getD_eq_default _ _ (by simpa using hi), List.getD_eq_default _ _ (by simpa using hi)]

/-- An input with a frame in progress has its place in the list. -/
theorem pos_placed_of_frame (h : (getPos s v i).frame = some at_) : i < (s.vat v).pos.length := by
  by_contra hn
  rw [getPos, nth, List.getD_eq_default _ _ (not_lt.mp hn)] at h
  cases h

theorem Fits.pos_length (h : Fits s) : (s.vat v).pos.length = 8 := by
  obtain ⟨-, -, -, -, -, -, length, -⟩ := vatFits_iff.mp (h.vat (v := v))
  exact length

theorem Fits.setps_length (h : Fits s) : (s.vat v).setps.length = 8 := by
  obtain ⟨-, -, -, -, -, -, -, length, -⟩ := vatFits_iff.mp (h.vat (v := v))
  exact length

theorem settle_pos (hc : Calm s) : getPos (settle s) v i = getPos s v i := getPos_of_vat (settle_vat_pos hc v)

/-- Writes of registers leave every input. -/
theorem SenseOnly.pos (h : SenseOnly s u W) : getPos u v i = getPos s v i :=
  getPos_of_vat (congrArg VatSt.pos h.senseVat :)

/-! ## Registers of the position inputs -/

/-- The cycle's consequences write no register of the position inputs. -/
theorem cycleFields_outside_pos : cycleFields.all (fun g => decide (g.addr < 0x50000000)
    || decide (g.addr % 0x10000000 < 0x04202000) || decide (0x04202200 ≤ g.addr % 0x10000000)) = true := by decide +kernel

/-- A field of POSi_STAT after the cycle's consequences. -/
theorem settle_stat (hc : Calm s) (hi : i < 8) {lo wd : Nat} :
    (settle s).rd ⟨R.POS_STAT v i, lo, wd⟩ = s.rd ⟨R.POS_STAT v i, lo, wd⟩ := by
  refine settle_rd hc _ (List.all_eq_true.mpr fun g hg => apart_of_addr fun e => ?_)
  have ho := List.all_eq_true.mp cycleFields_outside_pos g hg
  simp only [Bool.or_eq_true, decide_eq_true_eq, ← e] at ho
  cases v <;> simp only [R.POS_STAT, Vat.base] at ho <;> omega

/-- Writes inside POSi_STAT. -/
theorem SenseOnly.inStat (h : SenseOnly r s (· ∈ fs)) (hf : ∀ g ∈ fs, g.addr = R.POS_STAT v i ∧ g.fits = true) :
    SenseOnly r s (· ∈ [whole (R.POS_STAT v i)]) :=
  h.mono fun g hg => .part (by rw [(hf g hg).1]; exact .head _) (hf g hg).2

/-! ## Errors and the reference (R182, R183, R185) -/

/-- An error of an input: a flag of its own, and one more in ERRCNT. -/
def countError (s : State) (v : Vat) (i : Nat) (f : Field) : State := (s.vatFlag v uGUARD f).incSat (R.POS_STAT_ERRCNT v i)

/-- The error of flag `f` has been counted. -/
structure ErrorCounted (r s : State) (v : Vat) (i : Nat) (f : Field) : Prop where
  flag : s.is f = true
  count : s.rd (R.POS_STAT_ERRCNT v i) = min (r.rd (R.POS_STAT_ERRCNT v i) + 1) 65535
  only : SenseOnly r s (· ∈ [f, R.POS_STAT_ERRCNT v i])

theorem ErrorCounted.inStat {lo wd : Nat} (h : ErrorCounted r s v i ⟨R.POS_STAT v i, lo, wd⟩) (hf : lo + wd ≤ 32 := by decide) :
    SenseOnly r s (· ∈ [whole (R.POS_STAT v i)]) :=
  h.only.inStat (by simp [R.POS_STAT_ERRCNT, Field.fits, hf])

theorem countError_counted (hl : s.vatLive v = true) {lo : Nat} (hlo : lo < 16 := by decide) :
    ErrorCounted s (countError s v i ⟨R.POS_STAT v i, lo, 1⟩) v i ⟨R.POS_STAT v i, lo, 1⟩ := by
  have fits : Field.fits ⟨R.POS_STAT v i, lo, 1⟩ = true := decide_eq_true (show lo + 1 ≤ 32 by omega)
  have flagged : SenseOnly s (s.vatFlag v uGUARD ⟨R.POS_STAT v i, lo, 1⟩) (· ∈ [⟨R.POS_STAT v i, lo, 1⟩, R.POS_STAT_ERRCNT v i]) :=
    SenseOnly.refl.vatFlag (.of (by simp) fits)
  have beside : Field.apart ⟨R.POS_STAT v i, lo, 1⟩ (R.POS_STAT_ERRCNT v i) = true := unit_apart (by simp; omega)
  refine ⟨?_, ?_, flagged.incSat (.of (by simp) rfl)⟩
  · exact (is_of_rd (rd_incSat_apart rfl beside)).trans (is_vatFlag hl fits rfl unit_ge)
  · refine (rd_incSat_self rfl).trans (congrArg (fun n => min (n + 1) 65535) ?_)
    have alone : SenseOnly s (s.vatFlag v uGUARD ⟨R.POS_STAT v i, lo, 1⟩) (· = ⟨R.POS_STAT v i, lo, 1⟩) :=
      SenseOnly.refl.vatFlag (.of rfl fits)
    exact alone.unit fun _ hg => hg ▸ apart_comm beside

/-- The fields that show whether an input's position counts. -/
def refFields (v : Vat) (i : Nat) : List Field := [R.POS_STAT_REF v i, R.POS_STAT_VALID v i, R.POS_STAT_STALE v i]

theorem refFields_inStat : ∀ g ∈ refFields v i, g.addr = R.POS_STAT v i ∧ g.fits = true := by
  intro g hg
  simp only [refFields, List.mem_cons, List.not_mem_nil, or_false] at hg
  rcases hg with rfl | rfl | rfl <;> exact ⟨rfl, rfl⟩

/-- The rest of POSi_STAT. -/
theorem stat_apart_refFields {lo wd : Nat} (h : 4 ≤ lo) : ∀ g ∈ refFields v i, Field.apart ⟨R.POS_STAT v i, lo, wd⟩ g = true := by
  have beside {lo' : Nat} (h' : lo' < 4) : Field.apart ⟨R.POS_STAT v i, lo, wd⟩ ⟨R.POS_STAT v i, lo', 1⟩ = true :=
    unit_apart (by simp; omega)
  exact apart_cons (beside (by decide)) (apart_cons (beside (by decide)) (apart_cons (beside (by decide)) apart_nil))

theorem stat_beside_ref (h : SenseOnly r s (· ∈ refFields v i)) {lo wd : Nat} (hlo : 4 ≤ lo) :
    s.rd ⟨R.POS_STAT v i, lo, wd⟩ = r.rd ⟨R.POS_STAT v i, lo, wd⟩ := h.unit (stat_apart_refFields hlo)

theorem encInvalid_only : SenseOnly s (encInvalid s v i) (· ∈ refFields v i) :=
  (SenseOnly.refl.clr (.of (by simp [refFields]) rfl)).set1 (.of (by simp [refFields]) rfl)

/-- An error clears the reference (R183). -/
def dropReference (s : State) (v : Vat) (i : Nat) : State := encInvalid (s.clr (R.POS_STAT_REF v i)) v i

/-- The reference is gone, and the position does not count. -/
structure RefDropped (r s : State) (v : Vat) (i : Nat) : Prop where
  ref : s.rd (R.POS_STAT_REF v i) = 0
  valid : s.rd (R.POS_STAT_VALID v i) = 0
  stale : s.rd (R.POS_STAT_STALE v i) = 1
  only : SenseOnly r s (· ∈ refFields v i)

theorem dropReference_dropped : RefDropped s (dropReference s v i) v i := by
  refine ⟨?_, ?_, rd_set1 rfl rfl, (SenseOnly.refl.clr (.of (by simp [refFields]) rfl)).trans encInvalid_only⟩
  · exact (rd_set1_apart rfl unit_apart).trans ((State.rd_wr_apart _ _ _ _ rfl unit_apart).trans (State.rd_wr_self _ _ _ rfl))
  · exact (rd_set1_apart rfl unit_apart).trans (State.rd_wr_self _ _ _ rfl)

/-- An index sets the reference (R183). -/
def holdReference (s : State) (v : Vat) (i : Nat) : State :=
  let u := (s.set1 (R.POS_STAT_REF v i)).clr (R.POS_STAT_STALE v i)
  u.wr (R.POS_STAT_VALID v i) (boolNat (!u.is (R.POS_STAT_FROZEN v i)))

/-- The reference is held, and the position counts unless it is frozen. -/
structure RefHeld (r s : State) (v : Vat) (i : Nat) : Prop where
  ref : s.rd (R.POS_STAT_REF v i) = 1
  stale : s.rd (R.POS_STAT_STALE v i) = 0
  valid : s.is (R.POS_STAT_VALID v i) = !r.is (R.POS_STAT_FROZEN v i)
  only : SenseOnly r s (· ∈ refFields v i)

theorem holdReference_held : RefHeld s (holdReference s v i) v i := by
  refine ⟨?_, ?_, ?_, ((SenseOnly.refl.set1 (.of (by simp [refFields]) rfl)).clr (.of (by simp [refFields]) rfl)).wr
    (.of (by simp [refFields]) rfl)⟩
  · exact (State.rd_wr_apart _ _ _ _ rfl unit_apart).trans ((State.rd_wr_apart _ _ _ _ rfl unit_apart).trans (rd_set1 rfl rfl))
  · exact (State.rd_wr_apart _ _ _ _ rfl unit_apart).trans (State.rd_wr_self _ _ _ rfl)
  · have frozen : ((s.set1 (R.POS_STAT_REF v i)).clr (R.POS_STAT_STALE v i)).is (R.POS_STAT_FROZEN v i)
        = s.is (R.POS_STAT_FROZEN v i) :=
      is_of_rd ((State.rd_wr_apart _ _ _ _ rfl unit_apart).trans (rd_set1_apart rfl unit_apart))
    exact (congrArg (· != 0) (State.rd_wr_self _ _ _ rfl)).trans ((boolNat_ne_zero _).trans (congrArg (!·) frozen))

/-! ## Encoders (R182, R183) -/

section Encoders

variable {i : Fin 4} {e : EncEvent} {b : Bool}

/-- What an edge of a running encoder brings. -/
def encEvent (s : State) (v : Vat) (i : Nat) : EncEvent → State
  | .up => encStep s v i true
  | .down => encStep s v i false
  | .phaseError => encPhaseError s v i
  | .index => encIndex s v i

theorem execEncoderEdge_eq (hl : s.vatLive v = true) (he : s.is (R.POS_CFG_EN v i) = true) :
    exec (.encoderEdge v i e) s = .next (settle (encEvent s v i e)) := by
  show Host.Outcome.next (settle (if (!s.vatLive v || !s.is (R.POS_CFG_EN v i)) = true then s else _)) = _
  rw [if_neg (by simp [hl, he])]
  cases e <;> rfl

theorem encoderEdge_idle (hc : Calm s) (h : s.vatLive v = false ∨ s.is (R.POS_CFG_EN v i) = false) :
    Answers (.encoderEdge v i e) s (fun t => CycleOnly s t) := by
  refine ⟨_, rfl, ?_⟩
  rw [if_pos (by rcases h with h | h <;> simp [h])]
  exact settle_cycle hc

/-- An accepted edge is counted within COUNTS, and its time taken. -/
theorem settle_encStep (hc : Calm s) (hf : Fits s) :
    (getPos (settle (encStep s v i b)) v i).cnt
        = ((getPos s v i).cnt + (if b then 1 else s.rd (R.POS_COUNTS_COUNTS v i) - 1)) % s.rd (R.POS_COUNTS_COUNTS v i)
      ∧ (getPos (settle (encStep s v i b)) v i).tedge = s.pt % 2 ^ 32 ∧ Frame s (settle (encStep s v i b)) [] := by
  have only : InVats s (encStep s v i b) (· ∈ []) := InVats.refl.modPos
  have step : getPos (encStep s v i b) v i = _ := getPos_modPos (by rw [hf.pos_length]; omega)
  rw [settle_pos (only.calm hc), step]
  exact ⟨rfl, rfl, only.frame hc⟩

theorem encoderStep_answers (hc : Calm s) (hl : s.vatLive v = true) (he : s.is (R.POS_CFG_EN v i) = true) (hf : Fits s) :
    Answers (.encoderEdge v i .up) s (fun t => (getPos t v i).cnt = ((getPos s v i).cnt + 1) % s.rd (R.POS_COUNTS_COUNTS v i)
      ∧ (getPos t v i).tedge = s.pt % 2 ^ 32 ∧ Frame s t [])
    ∧ Answers (.encoderEdge v i .down) s (fun t =>
      (getPos t v i).cnt = ((getPos s v i).cnt + (s.rd (R.POS_COUNTS_COUNTS v i) - 1)) % s.rd (R.POS_COUNTS_COUNTS v i)
      ∧ (getPos t v i).tedge = s.pt % 2 ^ 32 ∧ Frame s t []) :=
  ⟨⟨_, execEncoderEdge_eq hl he, settle_encStep hc hf⟩, ⟨_, execEncoderEdge_eq hl he, settle_encStep hc hf⟩⟩

theorem encPhaseError_eq {i : Nat} : ∃ k, encPhaseError s v i
    = dropReference (modPos (countError s v i (R.POS_STAT_PHERR_F v i)) v i k) v i := ⟨_, rfl⟩

theorem phaseError_answers (hc : Calm s) (hl : s.vatLive v = true) (he : s.is (R.POS_CFG_EN v i) = true) :
    Answers (.encoderEdge v i .phaseError) s (fun t => t.is (R.POS_STAT_PHERR_F v i) = true ∧ t.is (R.POS_STAT_REF v i) = false
      ∧ t.is (R.POS_STAT_VALID v i) = false ∧ t.is (R.POS_STAT_STALE v i) = true
      ∧ t.rd (R.POS_STAT_ERRCNT v i) = min (s.rd (R.POS_STAT_ERRCNT v i) + 1) 65535 ∧ Frame s t [whole (R.POS_STAT v i)]) := by
  have hi : i.val < 8 := by omega
  obtain ⟨k, h⟩ := encPhaseError_eq (s := s) (v := v) (i := i)
  have counted : ErrorCounted s (countError s v i (R.POS_STAT_PHERR_F v i)) v i (R.POS_STAT_PHERR_F v i) := countError_counted hl
  obtain ⟨ref, valid, stale, only⟩ := dropReference_dropped (s := modPos (countError s v i (R.POS_STAT_PHERR_F v i)) v i k)
    (v := v) (i := i)
  have inStat := counted.inStat.inVats.modPos.write (only.inStat refFields_inStat)
  have calm := inStat.calm hc
  have kept {lo wd : Nat} (hlo : 4 ≤ lo) := (settle_stat calm hi).trans ((stat_beside_ref only hlo (wd := wd)).trans rd_modPos)
  refine ⟨_, execEncoderEdge_eq hl he, ?_⟩
  rw [encEvent, h]
  exact ⟨(is_of_rd (kept (by decide))).trans counted.flag, is_zero ((settle_stat calm hi).trans ref),
    is_zero ((settle_stat calm hi).trans valid), is_one ((settle_stat calm hi).trans stale),
    (kept (by decide)).trans counted.count, inStat.frame hc⟩

/-! ### The index -/

/-- The index is a later one, outside the tolerance (R183). -/
def indexFar (s : State) (v : Vat) (i : Nat) : Bool := (getPos s v i).indexed
  && decide (s.rd (R.POS_COUNTS_ZTOL v i) < circDist (s.rd (R.POS_COUNTS_COUNTS v i)) (getPos s v i).cnt (s.rd (R.POS_ZPOS_ZPOS v i)))

theorem indexFar_iff {i : Nat} : indexFar s v i = true ↔ (getPos s v i).indexed = true ∧ s.rd (R.POS_COUNTS_ZTOL v i)
    < circDist (s.rd (R.POS_COUNTS_COUNTS v i)) (getPos s v i).cnt (s.rd (R.POS_ZPOS_ZPOS v i)) := by simp [indexFar]

/-- The index sets the count. -/
def indexCount (s : State) (v : Vat) (i : Nat) : State :=
  modPos s v i (fun x => { x with cnt := s.rd (R.POS_ZPOS_ZPOS v i), indexed := true })

@[simp] theorem rd_indexCount {i : Nat} : (indexCount s v i).rd f = s.rd f := rd_modPos

/-- What an index does before the reference follows. -/
def indexTaken (s : State) (v : Vat) (i : Nat) : State :=
  if indexFar s v i then countError (indexCount s v i) v i (R.POS_STAT_IDXERR_F v i) else indexCount s v i

/-- An index drops the reference that is held where it is far, and sets it otherwise. -/
theorem encIndex_cases {i : Nat} (hz : s.rd (R.POS_CFG_ZMODE v i) = 1) :
    indexFar s v i = true ∧ s.is (R.POS_STAT_REF v i) = true ∧ RefDropped (indexTaken s v i) (encIndex s v i) v i
      ∨ ¬ (indexFar s v i = true ∧ s.is (R.POS_STAT_REF v i) = true) ∧ RefHeld (indexTaken s v i) (encIndex s v i) v i := by
  have h : encIndex s v i = if (indexFar s v i && s.is (R.POS_STAT_REF v i)) = true then dropReference (indexTaken s v i) v i
      else holdReference (indexTaken s v i) v i := by
    rw [encIndex, if_neg (by simp [hz])]
    rfl
  rw [h]
  split
  · next hd =>
    obtain ⟨far, held⟩ := Bool.and_eq_true_iff.mp hd
    exact .inl ⟨far, held, dropReference_dropped⟩
  · next hd => exact .inr ⟨fun both => hd (Bool.and_eq_true_iff.mpr both), holdReference_held⟩

/-- The index has set the count, and an error has been counted where it is far. -/
structure IndexTaken (r s : State) (v : Vat) (i : Nat) : Prop where
  pos : getPos s v i = { getPos r v i with cnt := r.rd (R.POS_ZPOS_ZPOS v i), indexed := true }
  frozen : s.is (R.POS_STAT_FROZEN v i) = r.is (R.POS_STAT_FROZEN v i)
  error : indexFar r v i = true → s.is (R.POS_STAT_IDXERR_F v i) = true
    ∧ s.rd (R.POS_STAT_ERRCNT v i) = min (r.rd (R.POS_STAT_ERRCNT v i) + 1) 65535
  inStat : InVats r s (· ∈ [whole (R.POS_STAT v i)])

theorem indexTaken_taken {i : Nat} (hl : s.vatLive v = true) (hi : i < (s.vat v).pos.length) :
    IndexTaken s (indexTaken s v i) v i := by
  have pos : getPos (indexCount s v i) v i = _ := getPos_modPos hi
  have count : InVats s (indexCount s v i) (· ∈ [whole (R.POS_STAT v i)]) := InVats.refl.modPos
  unfold indexTaken
  split
  · have counted : ErrorCounted (indexCount s v i) (countError (indexCount s v i) v i (R.POS_STAT_IDXERR_F v i)) v i
        (R.POS_STAT_IDXERR_F v i) := countError_counted (vatLive_modPos.trans hl)
    refine ⟨counted.only.pos.trans pos, is_of_rd ?_, fun _ => ⟨counted.flag, by rw [counted.count, rd_indexCount]⟩,
      count.write counted.inStat⟩
    exact (counted.only.unit (apart_cons unit_apart (apart_cons unit_apart apart_nil))).trans rd_indexCount
  · next far => exact ⟨pos, is_modPos, fun h => absurd h far, count⟩

/-- What follows for the reference leaves it so. -/
theorem IndexTaken.judged {i : Nat} (h : IndexTaken r s v i) (only : SenseOnly s u (· ∈ refFields v i)) : IndexTaken r u v i where
  pos := only.pos.trans h.pos
  frozen := (is_of_rd (only.unit (apart_cons unit_apart (apart_cons unit_apart (apart_cons unit_apart apart_nil))))).trans h.frozen
  error hf := ⟨(is_of_rd (stat_beside_ref only (by decide))).trans (h.error hf).1,
    (stat_beside_ref only (by decide)).trans (h.error hf).2⟩
  inStat := h.inStat.write (only.inStat refFields_inStat)

theorem encIndex_taken {i : Nat} (hz : s.rd (R.POS_CFG_ZMODE v i) = 1) (h : IndexTaken s (indexTaken s v i) v i) :
    IndexTaken s (encIndex s v i) v i := by
  obtain ⟨-, -, dropped⟩ | ⟨-, held⟩ := encIndex_cases hz
  · exact h.judged dropped.only
  · exact h.judged held.only

theorem encoderIndex_answers (hc : Calm s) (hl : s.vatLive v = true) (he : s.is (R.POS_CFG_EN v i) = true) (hf : Fits s)
    (hz : s.rd (R.POS_CFG_ZMODE v i) = 1) :
    Answers (.encoderEdge v i .index) s (fun t => (getPos t v i).cnt = s.rd (R.POS_ZPOS_ZPOS v i)
        ∧ (getPos t v i).indexed = true ∧ Frame s t [whole (R.POS_STAT v i)]
        ∧ ((getPos s v i).indexed = false ∨ circDist (s.rd (R.POS_COUNTS_COUNTS v i)) (getPos s v i).cnt (s.rd (R.POS_ZPOS_ZPOS v i))
            ≤ s.rd (R.POS_COUNTS_ZTOL v i) ∨ s.is (R.POS_STAT_REF v i) = false →
          t.is (R.POS_STAT_REF v i) = true ∧ t.is (R.POS_STAT_STALE v i) = false
          ∧ t.is (R.POS_STAT_VALID v i) = (!s.is (R.POS_STAT_FROZEN v i)))
        ∧ ((getPos s v i).indexed = true → s.rd (R.POS_COUNTS_ZTOL v i)
            < circDist (s.rd (R.POS_COUNTS_COUNTS v i)) (getPos s v i).cnt (s.rd (R.POS_ZPOS_ZPOS v i)) →
          t.is (R.POS_STAT_IDXERR_F v i) = true ∧ t.rd (R.POS_STAT_ERRCNT v i) = min (s.rd (R.POS_STAT_ERRCNT v i) + 1) 65535
          ∧ (s.is (R.POS_STAT_REF v i) = true → t.is (R.POS_STAT_REF v i) = false ∧ t.is (R.POS_STAT_VALID v i) = false
            ∧ t.is (R.POS_STAT_STALE v i) = true))) := by
  have hi : i.val < 8 := by omega
  have taken := indexTaken_taken hl (i := i) (by rw [hf.pos_length]; exact hi)
  obtain ⟨pos, -, error, inStat⟩ := encIndex_taken hz taken
  have after {lo wd : Nat} := settle_stat (v := v) (inStat.calm hc) hi (lo := lo) (wd := wd)
  refine ⟨_, execEncoderEdge_eq hl he, ?_⟩
  have settled := (settle_pos (inStat.calm hc)).trans pos
  refine ⟨congrArg PosSt.cnt settled, congrArg PosSt.indexed settled, inStat.frame hc, fun near => ?_, fun hx hd => ?_⟩
  · obtain ⟨far, held, -⟩ | ⟨-, ref, stale, valid, -⟩ := encIndex_cases hz
    · obtain ⟨hx, hd⟩ := indexFar_iff.mp far
      simp [hx, held, not_le.mpr hd] at near
    · exact ⟨is_one (after.trans ref), is_zero (after.trans stale),
        (is_of_rd after).trans (valid.trans (congrArg (!·) taken.frozen))⟩
  · have far := indexFar_iff.mpr ⟨hx, hd⟩
    obtain ⟨flag, count⟩ := error far
    refine ⟨(is_of_rd after).trans flag, after.trans count, fun held => ?_⟩
    obtain ⟨-, -, ref, valid, stale, -⟩ | ⟨kept, -⟩ := encIndex_cases hz
    · exact ⟨is_zero (after.trans ref), is_zero (after.trans valid), is_one (after.trans stale)⟩
    · exact absurd ⟨far, held⟩ kept

theorem indexUnused_answers (hc : Calm s) (hl : s.vatLive v = true) (he : s.is (R.POS_CFG_EN v i) = true)
    (hz : s.rd (R.POS_CFG_ZMODE v i) ≠ 1) : Answers (.encoderEdge v i .index) s (fun t => CycleOnly s t) := by
  refine ⟨_, execEncoderEdge_eq hl he, ?_⟩
  rw [encEvent, encIndex, if_pos (by simpa using hz)]
  exact settle_cycle hc

end Encoders

/-! ## SSI channels (R184, R185) -/

section SsiChannels

/-- A bad frame that makes BADRUN reach BADMAX takes VALID away (R185). -/
def ssiLapse (s : State) (v : Vat) (i : Nat) : State :=
  if s.rd (R.POS_STAT_BADRUN v i) = s.rd (R.POS_CFG_BADMAX v i) then
    encInvalid (modPos s v i (fun x => { x with ssiLost := true })) v i
  else s

/-- What the end of validity leaves of the other fields, and of the frame in progress. -/
structure Lapsed (r s : State) (v : Vat) (i : Nat) : Prop where
  rd : ∀ lo wd, 4 ≤ lo → s.rd ⟨R.POS_STAT v i, lo, wd⟩ = r.rd ⟨R.POS_STAT v i, lo, wd⟩
  frame : (getPos s v i).frame = (getPos r v i).frame
  inStat : InVats r s (· ∈ [whole (R.POS_STAT v i)])

theorem ssiLapse_lapsed : Lapsed s (ssiLapse s v i) v i := by
  unfold ssiLapse
  split
  · exact ⟨fun _ _ h => (stat_beside_ref encInvalid_only h).trans rd_modPos,
      (congrArg PosSt.frame encInvalid_only.pos).trans (frame_modPos fun _ => rfl),
      InVats.refl.modPos.write (encInvalid_only.inStat refFields_inStat)⟩
  · exact ⟨fun _ _ _ => rfl, rfl, .refl⟩

theorem ssiBad_eq : ∃ k, ssiBad s v i = ssiLapse (modPos ((countError s v i (R.POS_STAT_PHERR_F v i)).incSat
    (R.POS_STAT_BADRUN v i)) v i k) v i ∧ ∀ x, (k x).frame = x.frame := ⟨_, rfl, fun _ => rfl⟩

/-- A bad frame has been counted. -/
structure BadCounted (r s : State) (v : Vat) (i : Nat) : Prop where
  count : s.rd (R.POS_STAT_ERRCNT v i) = min (r.rd (R.POS_STAT_ERRCNT v i) + 1) 65535
  run : s.rd (R.POS_STAT_BADRUN v i) = min (r.rd (R.POS_STAT_BADRUN v i) + 1) 7
  noresp : s.is (R.POS_STAT_NORESP_F v i) = r.is (R.POS_STAT_NORESP_F v i)
  frame : (getPos s v i).frame = (getPos r v i).frame
  inStat : InVats r s (· ∈ [whole (R.POS_STAT v i)])

theorem ssiBad_counted (hl : s.vatLive v = true) : BadCounted s (ssiBad s v i) v i := by
  obtain ⟨k, h, frame⟩ := ssiBad_eq (s := s) (v := v) (i := i)
  rw [h]
  have counted : ErrorCounted s (countError s v i (R.POS_STAT_PHERR_F v i)) v i (R.POS_STAT_PHERR_F v i) := countError_counted hl
  have lapsed := ssiLapse_lapsed (s := modPos ((countError s v i (R.POS_STAT_PHERR_F v i)).incSat (R.POS_STAT_BADRUN v i)) v i k)
    (v := v) (i := i)
  have run : SenseOnly (countError s v i (R.POS_STAT_PHERR_F v i)) ((countError s v i (R.POS_STAT_PHERR_F v i)).incSat
      (R.POS_STAT_BADRUN v i)) (· ∈ [R.POS_STAT_BADRUN v i]) := SenseOnly.refl.incSat (.of (by simp) rfl)
  refine ⟨?_, ?_, is_of_rd ?_, ?_, ?_⟩
  · exact (lapsed.rd _ _ (by decide)).trans (rd_modPos.trans ((rd_incSat_apart rfl unit_apart).trans counted.count))
  · refine (lapsed.rd _ _ (by decide)).trans (rd_modPos.trans ((rd_incSat_self rfl).trans ?_))
    exact congrArg (fun n => min (n + 1) 7) (counted.only.unit (apart_cons unit_apart (apart_cons unit_apart apart_nil)))
  · exact (lapsed.rd _ _ (by decide)).trans (rd_modPos.trans ((rd_incSat_apart rfl unit_apart).trans
      (counted.only.unit (apart_cons unit_apart (apart_cons unit_apart apart_nil)))))
  · rw [lapsed.frame, frame_modPos frame, run.pos, counted.only.pos]
  · exact ((counted.inStat.trans (run.inStat (by simp [R.POS_STAT_BADRUN, Field.fits]))).inVats.modPos).trans lapsed.inStat

/-- The frame in progress ends, and the monoflop time begins (R184). -/
def endFrame (s : State) (v : Vat) (i : Nat) : State :=
  modPos s v i (fun x => { x with frame := none, monoEnd := s.pt + 500 * s.rd (R.POS_CFG_TMONO v i) })

theorem ssiFrame_noresp (h : (getPos s v i).frame = some at_) :
    ssiFrame s v i true word = ssiBad ((endFrame s v i).vatFlag v uGUARD (R.POS_STAT_NORESP_F v i)) v i := by
  simp [ssiFrame, h, endFrame]

/-- Without a parity bit, an error bit or a limit to jumps every frame that is answered is good. -/
theorem ssiFrame_good (h : (getPos s v i).frame = some at_) (hp : s.is (R.POS_CFG_PAR v i) = false)
    (he : s.is (R.POS_CFG_ERREN v i) = false) (hj : s.rd (R.POS_ZPOS_JUMP v i) = 0) :
    ssiFrame s v i false word
      = ssiGood (endFrame s v i) v i (ssiPosition s v i (word % 2 ^ (s.rd (R.POS_CFG_NBITS1 v i) + 1))) at_ := by
  have jump {x : Nat} : ssiJump s v i x = false := by
    unfold ssiJump
    split <;> simp [State.is, hj]
  simp [ssiFrame, h, hp, he, jump, endFrame, boolNat]

section Frames

variable {i : Fin 4} {word : BitVec 33} {b : Bool}

theorem execSsiFrameComplete_eq (hl : s.vatLive v = true) (he : s.is (R.POS_CFG_EN v (4 + i)) = true) :
    exec (.ssiFrameComplete v i b word) s = .next (settle (ssiFrame s v (4 + i) b word.toNat)) := by
  show Host.Outcome.next (settle (if (!s.is (R.POS_CFG_EN v (4 + i))) = true then s else _)) = _
  rw [if_neg (by simp [he]), if_pos hl]

theorem noResponse_answers (hc : Calm s) (hl : s.vatLive v = true) (he : s.is (R.POS_CFG_EN v (4 + i)) = true)
    (hfr : (getPos s v (4 + i)).frame = some at_) :
    Answers (.ssiFrameComplete v i true word) s (fun t => t.is (R.POS_STAT_NORESP_F v (4 + i)) = true
      ∧ t.rd (R.POS_STAT_ERRCNT v (4 + i)) = min (s.rd (R.POS_STAT_ERRCNT v (4 + i)) + 1) 65535
      ∧ t.rd (R.POS_STAT_BADRUN v (4 + i)) = min (s.rd (R.POS_STAT_BADRUN v (4 + i)) + 1) 7
      ∧ (getPos t v (4 + i)).frame = none ∧ Frame s t [whole (R.POS_STAT v (4 + i))]) := by
  have hi : 4 + i.val < 8 := by omega
  have live : (endFrame s v (4 + i)).vatLive v = true := vatLive_modPos.trans hl
  have flagged : SenseOnly (endFrame s v (4 + i)) ((endFrame s v (4 + i)).vatFlag v uGUARD (R.POS_STAT_NORESP_F v (4 + i)))
      (· ∈ [R.POS_STAT_NORESP_F v (4 + i)]) := SenseOnly.refl.vatFlag (.of (by simp) rfl)
  have bad := ssiBad_counted (i := 4 + i) (flagged.live.trans live)
  have inStat := (InVats.refl.modPos.write (flagged.inStat (by simp [R.POS_STAT_NORESP_F, Field.fits]))).trans bad.inStat
  have calm := inStat.calm hc
  have before {lo wd : Nat} (h : 7 ≤ lo) : ((endFrame s v (4 + i)).vatFlag v uGUARD (R.POS_STAT_NORESP_F v (4 + i))).rd
      ⟨R.POS_STAT v (4 + i), lo, wd⟩ = s.rd ⟨R.POS_STAT v (4 + i), lo, wd⟩ :=
    (flagged.unit (apart_cons (unit_apart (by simp; omega)) apart_nil)).trans rd_modPos
  refine ⟨_, execSsiFrameComplete_eq hl he, ?_⟩
  rw [ssiFrame_noresp hfr]
  refine ⟨?_, ((settle_stat calm hi).trans bad.count).trans ?_, ((settle_stat calm hi).trans bad.run).trans ?_, ?_,
    inStat.frame hc⟩
  · exact ((is_of_rd (settle_stat calm hi)).trans bad.noresp).trans (is_vatFlag live rfl rfl unit_ge)
  · exact congrArg (fun n => min (n + 1) 65535) (before (by decide))
  · exact congrArg (fun n => min (n + 1) 7) (before (by decide))
  · rw [settle_pos calm, bad.frame, flagged.pos, endFrame, getPos_modPos (pos_placed_of_frame hfr)]

theorem goodFrame_counts (hc : Calm s) (hl : s.vatLive v = true) (he : s.is (R.POS_CFG_EN v (4 + i)) = true)
    (hfr : (getPos s v (4 + i)).frame = some at_) (hp : s.is (R.POS_CFG_PAR v (4 + i)) = false)
    (hn : s.is (R.POS_CFG_ERREN v (4 + i)) = false) (hj : s.rd (R.POS_ZPOS_JUMP v (4 + i)) = 0) :
    Answers (.ssiFrameComplete v i false word) s (fun t =>
      (getPos t v (4 + i)).cnt = ssiPosition s v (4 + i) (word.toNat % 2 ^ (s.rd (R.POS_CFG_NBITS1 v (4 + i)) + 1))
      ∧ (getPos t v (4 + i)).tedge = at_ % 2 ^ 32 ∧ t.rd (R.POS_STAT_BADRUN v (4 + i)) = 0
      ∧ (getPos t v (4 + i)).frame = none ∧ Frame s t [R.POS_STAT_BADRUN v (4 + i)]) := by
  have placed := pos_placed_of_frame hfr
  refine ⟨_, execSsiFrameComplete_eq hl he, ?_⟩
  rw [ssiFrame_good hfr hp hn hj]
  unfold ssiGood
  extract_lets n
  beta_reduce
  have run : SenseOnly (endFrame s v (4 + i)) ((endFrame s v (4 + i)).wr (R.POS_STAT_BADRUN v (4 + i)) 0)
      (· ∈ [R.POS_STAT_BADRUN v (4 + i)]) := SenseOnly.refl.wr (.of (by simp) rfl)
  have only := (InVats.refl.modPos (s := s)).write run
  have length : 4 + i.val < (((endFrame s v (4 + i)).wr (R.POS_STAT_BADRUN v (4 + i)) 0).vat v).pos.length := by
    rwa [vat_wr, endFrame, pos_length_modPos]
  rw [settle_pos (only.modPos.calm hc), getPos_modPos length, run.pos, endFrame, getPos_modPos placed]
  exact ⟨rfl, rfl, (settle_stat (only.modPos.calm hc) (by omega)).trans (rd_modPos.trans (State.rd_wr_self _ _ _ rfl)), rfl,
    only.modPos.frame hc⟩

end Frames

end SsiChannels

/-! ## Set-point pins (R112) -/

section SetPoints

variable {i : Fin 8} {b : Bool}

/-- An edge changes the vat's measurement at that pin alone. -/
theorem setpEdge_answers (hc : Calm s) (hl : s.vatLive v = true) (hf : Fits s) :
    Answers (.setpEdge v i b) s (fun t => nth (t.vat v).setps i {} = setpEdge (nth (s.vat v).setps i {}) s.pt b ∧ Frame s t []) := by
  have only : InVats s (s.modVat v fun x => { x with setps := modNth x.setps i.val (fun y => setpEdge y s.pt b) }) (· ∈ []) :=
    InVats.refl.modVat
  refine ⟨_, rfl, ?_⟩
  beta_reduce
  rw [if_pos hl, settle_vat_setps (only.calm hc), State.vat_modVat_self]
  exact ⟨nth_modNth_self (by rw [hf.setps_length]; exact i.isLt), only.frame hc⟩

theorem setpEdges_answer (hc : Calm s) (hl : s.vatLive v = true) (hf : Fits s) :
    Answers (.setpEdge v i true) s (fun t => nth (t.vat v).setps i {} = setpEdge (nth (s.vat v).setps i {}) s.pt true
      ∧ (nth (t.vat v).setps i {}).rise = some s.pt ∧ Frame s t [])
    ∧ Answers (.setpEdge v i false) s (fun t => (nth (t.vat v).setps i {}).fall = some s.pt
      ∧ (nth (t.vat v).setps i {}).period = (nth (s.vat v).setps i {}).period ∧ Frame s t []) := by
  obtain ⟨t, ht, rises, rising⟩ := setpEdge_answers (b := true) (i := i) hc hl hf
  obtain ⟨u, hu, falls, falling⟩ := setpEdge_answers (b := false) (i := i) hc hl hf
  refine ⟨⟨t, ht, rises, ?_, rising⟩, ⟨u, hu, ?_, ?_, falling⟩⟩
  · rw [rises]; rfl
  · rw [falls]; rfl
  · rw [falls]; rfl

end SetPoints

end PositionInputs

/-! ## The obligation -/

/-- Settles O37: an edge or a frame that is accepted changes the input beside its registers (`settle_encStep`, `endFrame`), an error
is counted with its flag (`countError_counted`), and POSi_STAT shows the reference dropped or held (`RefDropped`, `RefHeld`). -/
theorem positionInputs : Obligations.PositionInputs := by
  unfold Obligations.PositionInputs
  refine ⟨fun v i s hc hl he hf => ?_, fun v i word at_ s hc hl he hfr => ?_, fun _ _ _ _ => encoderEdge_idle,
    fun _ _ _ => setpEdges_answer⟩
  · obtain ⟨up, down⟩ := encoderStep_answers hc hl he hf
    exact ⟨up, down, phaseError_answers hc hl he, indexUnused_answers hc hl he, encoderIndex_answers hc hl he hf⟩
  · exact ⟨noResponse_answers hc hl he hfr, goodFrame_counts hc hl he hfr⟩

end Sys2Proof.Machine

namespace Sys2Proof.Machine

open Sys2Proof

/-! # A join that completes at a reload or at a tick (O28, O29)

## A VAT reset leaves the vat's registers at their values at POR -/

section Unlisted

variable {s t : State} {v : Vat} {f : Field} {a b n : Nat} {x : Word}

/-- No entry of the register list is for the register at `a`, which reads as at POR. -/
def Unlisted (s : State) (a : Nat) : Prop := ∀ x, (a, x) ∉ s.regs

theorem Unlisted.rd (h : Unlisted s f.addr) : s.rd f = getBits (porValue f.addr) f.lo f.width := by
  have none : lookupKey f.addr s.regs = none := Option.eq_none_iff_forall_ne_some.mpr fun x hx => h x (mem_of_lookupKey hx)
  simp [State.rd, RegFile.get, getKey, none]

theorem Unlisted.update (h : Unlisted s a) (e : t.regs = s.regs) : Unlisted t a := fun x => e ▸ h x

theorem Unlisted.set (h : Unlisted s a) (hb : a ≠ b) (e : t.regs = s.regs.set b x) : Unlisted t a := fun y hy => by
  rw [e] at hy
  have hm : (a, y) ∈ (if x = porValue b then eraseKey b s.regs else insertKey b x (eraseKey b s.regs)) := hy
  split at hm
  · exact h y (mem_of_mem_eraseKey hm).1
  · rcases mem_of_mem_insertKey hm with e | e
    · cases e
      exact hb rfl
    · exact h y (mem_of_mem_eraseKey e).1

theorem Unlisted.wr (h : Unlisted s a) (ha : a ≠ f.addr) : Unlisted (s.wr f n) a := h.set ha rfl

theorem Unlisted.vatRegsReset (h : Unlisted s a) {pick : Nat → Bool} : Unlisted (vatRegsReset s v pick) a := fun x hx => by
  unfold Machine.vatRegsReset at hx
  dsimp only at hx
  obtain ⟨y, hy, -⟩ := RegFile.mem_mapRegs.mp hx
  exact h y hy

/-- A VAT reset keeps no bit of the register at `a`, which lies in the window of `v`. -/
def vatResetClears (v : Vat) (a : Nat) : Bool :=
  inWindow v a && a != R.VAT_ROLE v
    && (findReg a).any (fun x => Nat.lor x.1.lk x.1.keepVat == 0 && x.1.base != 0x04300000)

/-- Such a register, if no RETIRED port holds it, is unlisted after the vat's reset. -/
theorem vatRegsReset_unlisted {pick : Nat → Bool} (hc : vatResetClears v a = true) (hp : pick a = true)
    (hh : retiredHolds s v a = false) : Unlisted (vatRegsReset s v pick) a := fun x hx => by
  simp only [vatResetClears, Bool.and_eq_true, Option.any_eq_true, beq_iff_eq, bne_iff_ne, ne_eq] at hc
  obtain ⟨⟨hw, hr⟩, ⟨row, is⟩, hf, hk, hb⟩ := hc
  unfold vatRegsReset at hx
  dsimp only at hx
  obtain ⟨y, -, rfl, ne⟩ := RegFile.mem_mapRegs.mp hx
  refine ne ?_
  have plain {y : Word} : ¬ (decide (row.base = 0x04300000) && decide (getBits y 0 2 = 3)) = true := by simp [hb]
  rw [if_pos (by simp [hw, hr, hp, hh]), hf]
  dsimp only
  rw [if_neg plain, hk, keepBits_none, porValue, hf]

theorem Unlisted.resetPulse (h : Unlisted s a) : Unlisted (resetPulse s v) a := h.vatRegsReset.update (State.modVat_regs _ _ _)

theorem Unlisted.finishHandover (h : Unlisted s a) (ha : a ≠ R.OWN_STAT) : Unlisted (finishHandover s) a := by
  have cleared : Unlisted (s.clr R.OWN_STAT_HANDOVER) a := h.wr ha
  unfold Machine.finishHandover
  split
  · dsimp only
    split
    · split
      · exact Unlisted.resetPulse (cleared.update rfl)
      · exact cleared.update rfl
    · exact cleared.update rfl
  · exact h

theorem Unlisted.passPending (h : Unlisted s a) (ha : a ≠ R.OWN_STAT) (hl : a ≠ R.OWN_LEGPEND) : Unlisted (passPending s) a := by
  unfold Machine.passPending
  split
  · exact h
  · exact Unlisted.finishHandover ((h.wr (f := R.OWN_LEGPEND_VAL) hl).update rfl) ha

/-- A vat enters VAT reset while no handover goes on and none of its ports is RETIRED. -/
theorem putInReset_unlisted (hc : vatResetClears v a = true) (hh : s.is R.OWN_STAT_HANDOVER = false)
    (hp : ∀ p < 8, portState s v p ≠ RETIRED) : Unlisted (putInReset s v) a := by
  have role {t : State} (ht : t = s ∨ t = setRole s v roleHALTED) (p : Nat) : portState t v p = portState s v p := by
    rcases ht with rfl | rfl
    · rfl
    · unfold setRole
      split
      · rfl
      · refine (State.rd_event _ _ _ _ _ (apart_log unit_ge).1 (apart_log unit_ge).2).trans
          (State.rd_wr_apart _ _ _ _ rfl (apart_of_addr ?_))
        simp only [R.VAT_ROLE_ROLE, R.VAT_ROLE]
        omega
  unfold putInReset
  extract_lets d s1 s2 s3 s4
  have h1 : s1 = s ∨ s1 = setRole s v roleHALTED := by
    unfold s1
    split
    · exact .inl rfl
    · exact .inr rfl
  have held : retiredHolds s1 v a = false := List.any_eq_false.mpr fun p hm => by
    have := hp p (List.mem_range.mp hm)
    simp [role h1, this]
  have picked : (!d || !pulseBlock v a) = true := by simp [d, hh]
  have h2 : Unlisted s2 a := vatRegsReset_unlisted hc picked held
  have hr : a ≠ R.VAT_ROLE v := by
    simp only [vatResetClears, Bool.and_eq_true, bne_iff_ne] at hc
    exact hc.1.2
  have h3 : Unlisted s3 a := (h2.wr (f := R.VAT_ROLE_SYNCOK v) hr).wr (f := R.VAT_ROLE_JOINING v) hr
  exact (h3.update (State.setVat_regs _ _ _)).update rfl

end Unlisted

/-! ## What an owner's VAT reset does, in steps -/

section OwnerReset

variable {s : State} {v : Vat} {f : Field} {a c : Nat}

theorem RegFile.single_of_all {l : RegFile} (h : l.all (fun e => e.1 != a || (e.2 == l.get a && e.2 != porValue a)) = true) :
    l.Single a := fun w hw => by simpa using List.all_eq_true.mp h _ hw

/-- The cause of the reset lies in RST_CAUSE alone. -/
theorem recordVatCause_rd (hf : f.addr ≠ R.RST_CAUSE) : (recordVatCause s v none).rd f = s.rd f := by
  have cause {t : State} {c k u : Nat} : (recordCause t c k u).rd f = t.rd f := by
    unfold recordCause
    split <;> simp [State.incSat, State.rd, State.wr, RegFile.get_set_other hf, R.RST_CAUSE_CODE, R.RST_CAUSE_LEVEL,
      R.RST_CAUSE_VAT, R.RST_CAUSE_RESETS]
  unfold recordVatCause
  extract_lets c t u
  have hu : u.rd f = s.rd f := by
    unfold u
    split
    · exact State.rd_wr_apart _ _ _ _ rfl (apart_of_addr hf)
    · exact cause
  exact hu

/-- The owner `v` hands over and enters VAT reset. -/
theorem vatReset_handsOver (hv : s.hasVat v = true) (hd : s.dev = .ready) (hr : (s.vat v).inReset = false) (ho : s.owner = some v)
    (he : eligible (failVat s v) v.other = true) (ha : aloneVat s v = false)
    (hk : (putInReset (recordVatCause (takeover (abortDrill (failVat s v)) v.other c) v none) v).owner ≠ none) :
    vatReset s v none c true = putInReset (recordVatCause (takeover (abortDrill (failVat s v)) v.other c) v none) v := by
  simp [vatReset, hv, hd, hr, ho, he, ha, hk]

end OwnerReset

/-! ## The two states -/

section JoinCompletes

/-- A vat that computes. -/
def computingVat : VatSt := { inReset := false, started := true, ports := List.replicate 8 { ticked := true } }

/-- Vat A owns, ACTIVE, with a critical fault of its own (FLT, R243). Vat B, a standby, has joined but for the last check of R257: its
copy has come, and no graph and no running port is left to wait for. -/
def joinEnding (d : DevState) : State :=
  let s : State :=
    { State.reset with dev := d, rst := { phase := .done }, vatA := computingVat, vatB := { computingVat with copied := true } }
  let s := ((s.wr R.OWN_STAT_OWNER 1).wr (R.VAT_ROLE_ROLE .A) roleACTIVE).wr (R.VAT_ROLE_ROLE .B) roleSTANDBY
  ((s.set1 (R.VAT_ROLE_JOINING .B)).wrBit (R.VAT_ROLE_FLTSRC .A) 3 true).set1 (R.VAT_ROLE_FLT .A)

/-- Port 0 of Vat A reloads at valleys, and each of its shadows has tag 5. -/
def taggedReload : State :=
  let s := ((joinEnding .ready).wr (R.PORT_CFG_TYPE .A 0) 1).wr (R.PORT_CARCFG_RELSEL .A 0) 1
  forN 4 (s.wr (R.PORT_PERTAG_VAL .A 0) 5) (fun s n => s.wr (R.LEG_SHTAG_VAL .A n) 5)

/-- The reload itself. -/
def reloaded : State := injEvent (reloadAt taggedReload .A 0 true 0) .A .valley 0

/-- Then Vat B's join completes. -/
def joinedReload : State :=
  (((reloaded.set1 (R.VAT_ROLE_SYNCOK .B)).clr (R.VAT_ROLE_JOINING .B)).incSat (R.VAT_JOIN_JOINS .B)).event 0x04 0x0405 Vat.B.code

/-- Vat B, which claims, has taken the pins. -/
def claimedReload : State := takeover (abortDrill (failVat joinedReload .A)) .B 4

theorem taggedReload_steady : Steady taggedReload .A := ⟨rfl, by decide +kernel, by decide +kernel⟩

/-- The cause of Vat A's reset has been recorded. -/
def recordedReload : State := recordVatCause claimedReload .A none

theorem claimedReload_kept : LoadKept (some .B) claimedReload (putInReset recordedReload .A) := by
  have single : (watched (some .B)).all (fun a => claimedReload.regs.all (fun e =>
      e.1 != a || (e.2 == claimedReload.regs.get a && e.2 != porValue a))) = true := by decide +kernel
  have refl : LoadKept (some .B) claimedReload claimedReload :=
    ⟨fun _ _ => rfl, fun a ha => RegFile.single_of_all (List.all_eq_true.mp single a ha), rfl, rfl, rfl⟩
  exact refl.recordVatCause.putInReset (by decide)

theorem reloaded_joins : forVats reloaded joinCheck = claimAgainst joinedReload .B := by
  have vats : reloaded.vats = [.A, .B] := by decide +kernel
  have idle : joinCheck reloaded .A = reloaded := if_neg (by decide +kernel)
  rw [forVats, vats, List.foldl_cons, List.foldl_cons, List.foldl_nil, idle]
  exact if_pos (by decide +kernel)

theorem joinedReload_claims : claimAgainst joinedReload .B = vatReset joinedReload .A none 4 true := by
  have cause : fltOwnCause (((List.range 8).find? (fun i => joinedReload.rdBit (R.VAT_ROLE_FLTSRC .A) i)).getD 5) = 4 := by decide +kernel
  exact (if_pos (by decide +kernel)).trans (congrArg (vatReset joinedReload .A none · true) cause)

theorem claimedReload_resets : vatReset joinedReload .A none 4 true = putInReset recordedReload .A := by
  have owner : (putInReset recordedReload .A).owner = some .B := by
    refine owner_eq ((claimedReload_kept.reads _ (by decide)).trans ?_)
    decide +kernel
  exact vatReset_handsOver (by decide +kernel) (by decide +kernel) (by decide +kernel) (by decide +kernel) (by decide +kernel)
    (by decide +kernel) fun e => nomatch owner.symm.trans e

theorem reload_hands_over : reload taggedReload .A 0 true 0 = passPending (putInReset recordedReload .A) := by
  rw [← claimedReload_resets, ← joinedReload_claims, ← reloaded_joins]
  exact if_neg (by decide +kernel)

theorem taggedReload_reset : (settle (reload taggedReload .A 0 true 0)).rd (R.PORT_SETTAG_VAL .A 0) = 0 := by
  have due : claimedReload.rst.sysAfterSto = none := by decide +kernel
  have calm : Calm (passPending (putInReset recordedReload .A)) := claimedReload_kept.passPending.due.trans due
  have settled : (claimedReload.is R.OWN_STAT_HANDOVER = false) ∧ ∀ p < 8, portState claimedReload .A p ≠ RETIRED := by decide +kernel
  have unlisted : Unlisted (putInReset recordedReload .A) (R.PORT_SETTAG .A 0) := by
    refine putInReset_unlisted (by decide +kernel) ((is_of_rd (recordVatCause_rd (by decide))).trans settled.1) fun p hp => ?_
    refine (recordVatCause_rd ?_).trans_ne (settled.2 p hp)
    simp only [R.PORT_STATE_STATE, R.PORT_STATE, R.RST_CAUSE, Vat.base]
    omega
  rw [reload_hands_over, settle_rd calm _ (by decide +kernel)]
  exact (unlisted.passPending (by decide) (by decide)).rd.trans (by decide +kernel)

/-- Refutes O28: the owner's reload can be the event at which a standby's join completes (`reloaded_joins`, R257), the standby then
claims against an owner whose FLT is set (`joinedReload_claims`, R249), and the owner is reset (R245) with its SETTAG. `taggedReload`,
in READY, meets the first clause's premises with the tag 5. -/
theorem not_reloads : ¬ Obligations.Reloads := by
  unfold Obligations.Reloads
  rintro ⟨coherent, -⟩
  obtain ⟨t, answer, tag, -⟩ :=
    coherent .A 0 true 0 5 taggedReload taggedReload_steady (by decide +kernel) (.inl rfl) (by decide +kernel)
  rw [← Host.Outcome.next.inj (show exec (.reload .A 0 true 0) taggedReload = _ from answer)] at tag
  exact absurd (taggedReload_reset.symm.trans tag) (by decide)

/-- Port 0 of Vat B ticks while the device is LOADING, after tick 7. -/
def loadingTick : State :=
  ((joinEnding .loading).wr (R.PORT_CFG_TYPE .B 0) 1).wr (R.PORT_TICKNUM_VAL .B 0) 7

theorem loadingTick_reset : (settle (portTick loadingTick .B 0)).rd (R.PORT_TICKNUM_VAL .B 0) = 0 := by decide +kernel

/-- Refutes O29: the tick at which a join completes lets the vat claim against an owner whose FLT is set (R249), and in LOADING the
reset of that owner is a SYS reset, which clears the tick counters. `loadingTick`, which no run reaches (no vat joins before
READY), meets the first clause's premises: they say nothing of the device state. -/
theorem not_portTicks : ¬ Obligations.PortTicks := by
  unfold Obligations.PortTicks
  rintro ⟨counts, -⟩
  obtain ⟨t, answer, number, -⟩ := counts .B 0 loadingTick rfl (by decide +kernel) (by decide +kernel) rfl
  rw [← Host.Outcome.next.inj (show exec (.portTick .B 0) loadingTick = _ from answer)] at number
  exact absurd (loadingTick_reset.symm.trans number) (by decide +kernel)

end JoinCompletes
end Sys2Proof.Machine

namespace Sys2Proof.Machine

open Sys2Proof

/-! # A register that is listed twice (O27) -/

section ListedTwice

variable {s : State} {v : Vat} {n : Fin 32} {p : Nat} {e : GenEdge}

theorem generatorEdge_exec (port : legPort s v n = some p) (runs : pulseRuns s v = true) :
    exec (.generatorEdge v n e) s = .next (settle (passPending (generatorEdge s v p n e))) := by
  change execGeneratorEdge v n e s = _
  rw [execGeneratorEdge, port]
  exact congrArg (fun s => Host.Outcome.next (settle s)) (if_pos runs)

/-- Vat A has taken over, and HANDOVER clears with the next command: nothing is pending, and the reset of Vat B's pulse generator was
deferred until then (R251). Port 0 of Vat A is IDLE with the legs of POR and reloads at peaks. -/
def handoverEnding : State :=
  let s : State :=
    { State.reset with
      dev := .ready, rst := { phase := .done }, arb := { prevOwner := some .B }
      vatA := { inReset := false, started := true }, vatB := { pulseHeld := true } }
  let s := ((s.wr R.OWN_STAT_OWNER 1).wr (R.VAT_ROLE_ROLE .A) roleACTIVE).wr (R.VAT_ROLE_ROLE .B) roleHALTED
  ((s.set1 R.OWN_STAT_HANDOVER).wr (R.PORT_CFG_TYPE .A 0) 1).wr (R.PORT_CARCFG_RELSEL .A 0) 2

/-- The pins of leg 0 are listed twice, first with their value at POR, then with PULSE high. -/
def pinsTwice : State :=
  { handoverEnding with regs := (R.LEG_PIN .A 0, 0) :: (handoverEnding.set1 (R.LEG_PIN_PULSE .A 0)).regs }

theorem pinsTwice_steady : Steady pinsTwice .A := ⟨rfl, by decide +kernel, by decide +kernel⟩

/-- The reset goes through the list and keeps no entry that holds its value at POR: what is listed later now shows. -/
theorem pinsTwice_shows :
    (settle (passPending (generatorEdge pinsTwice .A 0 (0 : Fin 32) .valley))).is (R.LEG_PIN_PULSE .A 0) = true := by decide +kernel

/-- Refutes O27: the statement is also about register lists with a key listed twice, which no run reaches (O4), and there the reset of a
register block (`RegFile.mapRegs`) can uncover another value of a register outside the block. `pinsTwice` meets the premises of the
eighth clause, whose valley ends the handover: PULSE of leg 0 reads 0 before it and 1 after it. -/
theorem not_edgesPlaced : ¬ Obligations.EdgesPlaced := by
  unfold Obligations.EdgesPlaced
  rintro ⟨-, -, -, -, -, -, -, valleys, -⟩
  have port : legPort pinsTwice .A (0 : Fin 32) = some 0 := by decide +kernel
  have runs : pulseRuns pinsTwice .A = true := by decide +kernel
  obtain ⟨t, answer, -, -, pulses⟩ := valleys .A 0 0 pinsTwice pinsTwice_steady port runs (.inl rfl) (by decide +kernel)
    (by decide +kernel) (by decide +kernel)
  have same := List.all_eq_true.mp (pulses (by decide +kernel)) 0 (by decide +kernel)
  rw [← Host.Outcome.next.inj ((generatorEdge_exec port runs).symm.trans answer), pinsTwice_shows] at same
  exact absurd same (by decide +kernel)

end ListedTwice

end Sys2Proof.Machine

namespace Sys2Proof.Machine

open Sys2Proof

/-! # Trips (O25, O26)

## What trips and blanking write beside an entry into FAULT_PATTERN -/

/-- A vat without its channels, groups and AUX sequencers. -/
def tripVat (x : VatSt) : VatSt := { senseVat x with aux := [] }

/-- The status of blanking windows, of trip inputs, and of AUX links, which trips start (R83). -/
def TripField (v : Vat) (g : Field) : Prop :=
  (∃ p < 8, g.addr = R.PORT_PWMSTAT v p) ∨ (∃ i < 8, g.addr = R.TRIP_STAT v i ∨ g.addr = R.TRIP_COUNT v i)
    ∨ ∃ k < 4, g.addr = R.AUX_STAT v k

/-- `t` differs from `s` at most in fields that trips write, in what an event writes, and in the sense path and AUX sequencers. -/
structure TripOnly (v : Vat) (s t : State) : Prop where
  only : InVats s t (TripField v)
  vats : ∀ w, tripVat (t.vat w) = tripVat (s.vat w)

section TripOnly

variable {r s t : State} {v w : Vat} {W : Field → Prop} {f g : Field} {a c d i k lo n p q st wd cause : Nat}

theorem TripOnly.refl : TripOnly v s s := ⟨.refl, fun _ => rfl⟩

theorem TripOnly.write (h : TripOnly v r s) (h' : SenseOnly s t W) (hW : ∀ g, W g → TripField v g) : TripOnly v r t :=
  ⟨h.only.write (h'.weaken hW), fun w => (congrArg (fun x : VatSt => { x with aux := [] }) (h'.senseVat (v := w))).trans (h.vats w)⟩

theorem TripOnly.modAux (h : TripOnly v r s) {y : AuxSt → AuxSt} : TripOnly v r (modAux s w k y) := by
  refine ⟨h.only.modVat, fun x => Eq.trans ?_ (h.vats x)⟩
  by_cases hx : w = x
  · subst hx
    rw [Machine.modAux, State.vat_modVat_self]
    rfl
  · rw [Machine.modAux, modVat_other hx]

theorem TripField.apart (h : TripField v g) (hf : f.addr < v.base + 0x04000000 ∨ v.base + 0x04202000 ≤ f.addr) :
    f.apart g = true := by
  refine apart_of_addr fun e => ?_
  simp only [TripField, ← e, R.PORT_PWMSTAT, R.TRIP_STAT, R.TRIP_COUNT, R.AUX_STAT] at h
  rcases h with ⟨p, hp, h⟩ | ⟨i, hi, h⟩ | ⟨k, hk, h⟩ <;> omega

/-- Other registers of ports. -/
theorem TripField.apart_port (h : TripField v g) (hp : p < 8)
    (ha : (decide (0x04000000 ≤ a ∧ a < 0x04000400) && a != 0x04000034) = true := by decide) :
    Field.apart ⟨v.base + a + p * 0x400, lo, wd⟩ g = true := by
  simp only [Bool.and_eq_true, decide_eq_true_eq, bne_iff_ne, ne_eq] at ha
  refine apart_of_addr fun e => ?_
  simp only [TripField, ← e, R.PORT_PWMSTAT, R.TRIP_STAT, R.TRIP_COUNT, R.AUX_STAT] at h
  rcases h with ⟨q, hq, h⟩ | ⟨i, hi, h⟩ | ⟨k, hk, h⟩ <;> omega

theorem OrderField.apart_trip (hf : OrderField w f) (h : TripField v g) : f.apart g = true := by
  refine apart_of_addr fun e => ?_
  simp only [TripField, ← e] at h
  have place : f.addr < 0x50000000 ∨ f.addr % 0x10000000 % 0x400 = 0 ∧ f.addr % 0x10000000 < 0x04002000
      ∨ 0x04100000 ≤ f.addr % 0x10000000 ∧ f.addr % 0x10000000 < 0x04200000 ∨ 0x04201000 ≤ f.addr % 0x10000000 := by
    cases hf with
    | owner => exact .inl (by decide)
    | ss1 => exact .inl (by decide)
    | cfg hp => cases w <;> simp only [R.PORT_CFG, Vat.base] <;> omega
    | @bind x => cases x <;> simp only [R.GS_BIND, Vat.base] <;> omega
    | @pos x => cases x <;> simp only [R.POS_STAT_VALID, R.POS_STAT, Vat.base] <;> omega
    | @slice x => cases x <;> simp only [R.SLICE_DATA_VALID, R.SLICE_DATA, Vat.base] <;> omega
    | @aux x => cases x <;> simp only [R.AX_VALID, R.AX, Vat.base] <;> omega
  cases v <;> simp only [R.PORT_PWMSTAT, R.TRIP_STAT, R.TRIP_COUNT, R.AUX_STAT, Vat.base] at h <;>
    rcases h with ⟨q, hq, h⟩ | ⟨i, hi, h⟩ | ⟨k, hk, h⟩ <;> omega

/-! ### What follows from it -/

theorem TripOnly.rd (h : TripOnly v s t) (hf : 0x50000000 ≤ f.addr) (ha : ∀ g, TripField v g → f.apart g = true) :
    t.rd f = s.rd f :=
  h.only.rd f (apart_log hf).1 (apart_log hf).2 ha

theorem TripOnly.port (h : TripOnly v s t) (hp : p < 8)
    (ha : (decide (0x04000000 ≤ a ∧ a < 0x04000400) && a != 0x04000034) = true := by decide) :
    t.rd ⟨v.base + a + p * 0x400, lo, wd⟩ = s.rd ⟨v.base + a + p * 0x400, lo, wd⟩ := h.rd unit_ge fun _ hg => hg.apart_port hp ha

/-- A register of a driver link. -/
theorem TripOnly.driver (h : TripOnly v s t) (ha : 0x04600000 ≤ a := by decide) :
    t.rd ⟨v.base + a + i * st, lo, wd⟩ = s.rd ⟨v.base + a + i * st, lo, wd⟩ :=
  h.rd unit_ge fun _ hg => hg.apart (.inr (show _ ≤ v.base + a + i * st by omega))

theorem TripOnly.getPort (h : TripOnly v s t) : getPort t w q = getPort s w q := by
  have ports : (t.vat w).ports = (s.vat w).ports := (congrArg VatSt.ports (h.vats w) :)
  rw [Machine.getPort, Machine.getPort, ports]

theorem TripOnly.alike (h : TripOnly v s t) : OrdersAlike v s t where
  dev := h.only.part State.dev
  ord := h.only.part State.ord
  rd f hf := h.only.rd f hf.apart_event.1 hf.apart_event.2 fun _ => hf.apart_trip
  defs w c d := congrArg GraphSt.defs (getSlot_of_engines (congrArg VatSt.engines (h.vats w) :))

theorem TripOnly.portState (h : TripOnly v s t) (hp : p < 8) : portState t v p = portState s v p := h.port hp

theorem TripOnly.steady (h : TripOnly v s t) (hs : Steady s v) : Steady t v := by
  refine ⟨h.only.calm hs.calm, (h.alike.is .ss1).trans hs.noSs1, List.all_eq_true.mpr fun q hq => ?_⟩
  have unit := List.all_eq_true.mp hs.units q hq
  have hq := List.mem_range.mp hq
  rwa [h.alike.isSecondary hq, h.alike.unitSteady hq (h.portState hq) h.getPort]

theorem TripOnly.lone (h : TripOnly v s t) (hl : Lone s v p) (hp : p < 8) : Lone t v p := by
  have linked : t.is (R.PORT_CFG_LNK_EN v p) = s.is (R.PORT_CFG_LNK_EN v p) := is_of_rd (h.port hp)
  have pattern : t.rd (R.PORT_FPCFG_FP v p) = s.rd (R.PORT_FPCFG_FP v p) := h.port hp
  have entries : t.rd (R.PORT_STATE_ENTRIES v p) = s.rd (R.PORT_STATE_ENTRIES v p) := h.port hp
  have limit : t.rd (R.PORT_CFG_FAULT_LIMIT v p) = s.rd (R.PORT_CFG_FAULT_LIMIT v p) := h.port hp
  obtain ⟨active, unlinked, ha, hb⟩ := hl
  exact ⟨by rwa [portActive, h.portState hp], linked.trans unlinked, pattern ▸ ha, by rwa [limit, entries]⟩

theorem TripOnly.nextPattern (h : TripOnly v s t) (hp : p < 8) : nextPattern t v p = nextPattern s v p := by
  have pattern : t.rd (R.PORT_FPCFG_FP v p) = s.rd (R.PORT_FPCFG_FP v p) := h.port hp
  have legs : portLegs t v p = portLegs s v p :=
    portLegs_congr fun a lo wd ha => by rcases ha with rfl | rfl <;> exact h.port hp
  have frame (n : Nat) : t.rd (R.DLR_FRAME_FRAME v n) = s.rd (R.DLR_FRAME_FRAME v n) := h.driver
  have broken (n : Nat) : t.is (R.DLR_STAT_BREAK v n) = s.is (R.DLR_STAT_BREAK v n) := is_of_rd h.driver
  have linked (n : Nat) : t.is (R.DLR_STAT_LINKOK v n) = s.is (R.DLR_STAT_LINKOK v n) := is_of_rd h.driver
  have faulted : switchFaulted t v = switchFaulted s v := by
    funext n high
    simp only [switchFaulted, frame, broken, linked]
  have same (fp : Nat) : patternFaulted t v [p] fp = patternFaulted s v [p] fp := by
    simp only [patternFaulted, faulted, legs, List.any_cons, List.any_nil]
  rw [Machine.nextPattern, Machine.nextPattern, pattern, same]

/-! ### An entry into FAULT_PATTERN after it -/

theorem TripOnly.entered (h : TripOnly v s t) (hl : Lone s v p) (hp : p < 8) (hc : cause < 256) :
    PatternEntered s (enterFaultPattern t v p cause) v p cause (Machine.nextPattern s v p) := by
  have entered := (h.lone hl hp).entered hp hc
  have entries : t.rd (R.PORT_STATE_ENTRIES v p) = s.rd (R.PORT_STATE_ENTRIES v p) := h.port hp
  rw [h.nextPattern hp] at entered
  exact ⟨entered.state, entered.cause, entries ▸ entered.entries, fun run => entered.degr ((h.portState hp).trans run),
    entered.patnow, entered.pins⟩

theorem TripOnly.steady_entered (h : TripOnly v s t) (hs : Steady s v) (hl : Lone s v p) (hp : p < 8) (hc : cause < 256) :
    Steady (enterFaultPattern t v p cause) v := by
  have only := (h.lone hl hp).only hp hc
  have orders : VatPortsOnly v t (enterFaultPattern t v p cause) := only.mono (fun _ e => e ▸ hp) (entered_ordered hp)
  refine hs.entered (orders.calm (h.only.calm hs.calm)) (h.alike.trans orders.alike) (h.entered hl hp hc).state
    fun q hq hn => ⟨?_, ?_⟩
  · exact (only.unit fun _ hg => hg.apart_state hq hn).trans (h.portState hq)
  · exact (only.ports v q fun _ => hn).trans h.getPort

/-- The entry as the cycle's end shows it. -/
theorem TripOnly.settle_entered (h : TripOnly v s t) (hs : Steady s v) (hl : Lone s v p) (hp : p < 8) (hc : cause < 256) :
    PatternEntered s (settle (enterFaultPattern t v p cause)) v p cause (Machine.nextPattern s v p)
      ∧ ∀ f, InVat v f → (settle (enterFaultPattern t v p cause)).rd f = (enterFaultPattern t v p cause).rd f := by
  have steady := h.steady_entered hs hl hp hc
  exact ⟨(h.entered hl hp hc).of_rd hp fun f h0 h1 => settle_steady steady ⟨h0, by omega⟩, fun f => settle_steady steady⟩

/-- An entry leaves the registers of the trip inputs. -/
theorem EnteredField.apart_trip (h : EnteredField v p g) (_ : p < 8) (hi : i < 8)
    (ha : (decide (0x04020900 ≤ a ∧ a < 0x04020910)) = true := by decide) :
    Field.apart ⟨v.base + a + i * 0x10, lo, wd⟩ g = true := by
  simp only [decide_eq_true_eq] at ha
  refine apart_of_addr ?_
  rcases h with h | ⟨n, hn, h⟩
  · simp only [cyclePortFields, List.mem_cons, List.not_mem_nil, or_false] at h
    rcases h with rfl | rfl | rfl | rfl | rfl | rfl | rfl | rfl | rfl | rfl | rfl <;>
      simp only [R.PORT_STATE_STATE, R.PORT_STATE_DEGR, R.PORT_STATE_CAUSE, R.PORT_STATE_ENTRIES, R.PORT_STATE,
        R.PORT_PWMSTAT_TRIPLAT, R.PORT_PWMSTAT, R.PORT_FPCFG_FB, R.PORT_FPCFG_PATNOW, R.PORT_FPCFG, R.GRID_STAT_OL,
        R.GRID_STAT_OL_LEFT, R.GRID_STAT, R.DRV_STAT_OBS, R.DRV_STAT_ZR, R.DRV_STAT] <;> omega
  · simp only [cycleLegFields, List.mem_cons, List.not_mem_nil, or_false] at h
    rcases h with rfl | rfl | rfl | rfl <;>
      simp only [R.LEG_PIN_PULSE, R.LEG_PIN_EN, R.LEG_PIN, R.DLR_STAT_HUVMASK, R.DLR_STAT_DRVF_F, R.DLR_STAT] <;> omega

theorem Lone.trip (h : Lone s v p) (hp : p < 8) (hi : i < 8) (hc : cause < 256)
    (ha : (decide (0x04020900 ≤ a ∧ a < 0x04020910)) = true := by decide) :
    (enterFaultPattern s v p cause).rd ⟨v.base + a + i * 0x10, lo, wd⟩ = s.rd ⟨v.base + a + i * 0x10, lo, wd⟩ :=
  (h.only hp hc).unit fun _ hg => hg.apart_trip hp hi ha

/-- What leaves RUN and ARMED drops its latched trips (R223). -/
theorem setPortState_triplat (h : Machine.portState s v p ≠ FAULTPAT) :
    (setPortState s v p FAULTPAT cause).rd (R.PORT_PWMSTAT_TRIPLAT v p) = 0 := by
  unfold setPortState
  extract_lets old a b c d e f g k
  rw [if_neg (show ¬ old = FAULTPAT from h)]
  exact (rd_vatEvent unit_ge).trans ((State.rd_wr_apart _ _ _ _ rfl unit_apart).trans (State.rd_wr_self _ _ _ rfl))

theorem enterPattern1_triplat {x : Nat} {y : Bool} (hp : p < 8) (h : Machine.portState s v p ≠ FAULTPAT) :
    (enterPattern1 s v p cause x y).rd (R.PORT_PWMSTAT_TRIPLAT v p) = 0 := by
  have recorded : (recorded s v p cause).rd (R.PORT_PWMSTAT_TRIPLAT v p) = 0 :=
    (rd_incSat_apart rfl unit_apart).trans ((State.rd_wr_apart _ _ _ _ rfl unit_apart).trans (setPortState_triplat h))
  have driven : PortsOnly v (· = p) (DrivenField v p) (Machine.recorded s v p cause) (enterPattern1 s v p cause x y) := by
    rw [enterPattern1_eq]
    exact .ite (PortsOnly.refl.toAllOff (.inl rfl) (.inr (.inl rfl)) fun _ h => .inr (.inr h))
      (PortsOnly.refl.drivePattern (.inl rfl) fun _ h => .inr (.inr h))
  refine (driven.unit fun g hg => ?_).trans recorded
  rcases hg with rfl | rfl | hg
  · exact unit_apart
  · exact unit_apart
  · exact port_apart_leg (port_low hp) hg

theorem Lone.triplat (h : Lone s v p) (hp : p < 8) (hc : cause < 256) :
    (enterFaultPattern s v p cause).rd (R.PORT_PWMSTAT_TRIPLAT v p) = 0 := by
  rw [h.enterFaultPattern_eq hp hc]
  refine enterPattern1_triplat hp fun e => ?_
  have active := h.active
  rw [portActive, e] at active
  exact absurd active (by decide)

end TripOnly

end Sys2Proof.Machine

namespace Sys2Proof.Machine

open Sys2Proof

/-! ## Latched soft trips (R222, R223) -/

/-- One latched soft trip is resolved: where its input has gone it is discarded. -/
def unlatch (s : State) (v : Vat) (p i : Nat) : State :=
  let s := s.wrBit (R.PORT_PWMSTAT_TRIPLAT v p) i false
  if s.is (R.TRIP_STAT_LEVEL v i) then s
  else ((s.set1 (R.TRIP_STAT_BLKD_F v i)).incSat (R.TRIP_STAT_BLKD v i)).vatEvent v uPULSE 0x0A02 (i + p * 256)

/-- Those of the trips that are latched. -/
def latched (s : State) (v : Vat) (p : Nat) (is : List Nat) : List Nat := is.filter (fun i => s.rdBit (R.PORT_PWMSTAT_TRIPLAT v p) i)

def unlatchAll (s : State) (v : Vat) (p : Nat) (is : List Nat) : State := (latched s v p is).foldl (fun s i => unlatch s v p i) s

/-- What a resolution writes of the port's window and of the trip inputs. -/
def UnlatchField (v : Vat) (p : Nat) (g : Field) : Prop :=
  g = R.PORT_PWMSTAT_TRIPLAT v p ∨ ∃ i < 8, g = R.TRIP_STAT_BLKD_F v i ∨ g = R.TRIP_STAT_BLKD v i

section Latched

variable {s t u : State} {v : Vat} {f g : Field} {i j n p x : Nat} {is l : List Nat}

theorem resolveTrips_eq : resolveTrips s v p is
    = if (latched s v p is).any (fun i => s.is (R.TRIP_STAT_LEVEL v i)) then enterFaultPattern (unlatchAll s v p is) v p causeTRIP
      else unlatchAll s v p is := rfl

theorem mem_latched : i ∈ latched s v p is ↔ i ∈ is ∧ s.rdBit (R.PORT_PWMSTAT_TRIPLAT v p) i = true := List.mem_filter

/-! ### Bits of a mask -/

theorem testBit_setBit_false : (setBit x i false).testBit j = (x.testBit j && decide (j ≠ i)) := by
  unfold setBit
  split
  · next h =>
    rw [bitOf_eq_testBit] at h
    by_cases hj : j = i
    · rw [hj, h]; rfl
    · simp [hj]
  · next h =>
    rw [if_neg Bool.false_ne_true]
    have odd : x / 2 ^ i % 2 = 1 := by simpa [bitOf] using h
    obtain ⟨q, hq⟩ : ∃ q, x / 2 ^ i = 2 * q + 1 := ⟨x / 2 ^ i / 2, by omega⟩
    have low := Nat.mod_lt x (Nat.two_pow_pos i)
    have whole : x = 2 ^ i * (2 * q + 1) + x % 2 ^ i := hq ▸ (Nat.div_add_mod x _).symm
    have rest : x - 2 ^ i = 2 ^ i * (2 * q) + x % 2 ^ i := Nat.sub_eq_of_eq_add (whole.trans (by ring))
    have bit : x.testBit j = (2 ^ i * (2 * q + 1) + x % 2 ^ i).testBit j := congrArg (Nat.testBit · j) whole
    rw [rest, bit, Nat.testBit_two_pow_mul_add _ low, Nat.testBit_two_pow_mul_add _ low]
    split
    · next hj => simp [hj.ne]
    · next hj =>
      obtain hj | ⟨k, hk⟩ : j = i ∨ ∃ k, j - i = k + 1 := by
        rcases Nat.eq_or_lt_of_le (Nat.le_of_not_lt hj) with e | e
        · exact .inl e.symm
        · exact .inr ⟨j - i - 1, by omega⟩
      · simp [hj]
      · have hn : j ≠ i := by omega
        simp only [hk, Nat.testBit_succ, hn, ne_eq, not_false_eq_true, decide_true, Bool.and_true]
        congr 1
        omega

theorem eq_zero_of_bits {w : Nat} (hx : x < 2 ^ w) (h : ∀ j < w, bitOf x j = false) : x = 0 := by
  refine Nat.eq_of_testBit_eq fun j => ?_
  rw [Nat.zero_testBit]
  by_cases hj : j < w
  · rw [← bitOf_eq_testBit, h j hj]
  · exact Nat.testBit_lt_two_pow (hx.trans_le (Nat.pow_le_pow_right Nat.two_pos (by omega)))

/-! ### One trip, and all of them -/

theorem setBit_false_le : setBit x i false ≤ x := by
  unfold setBit
  split
  · exact Nat.le_refl x
  · exact Nat.sub_le x _

theorem rd_wrBit_false (hf : f.fits = true) : (s.wrBit f i false).rd f = setBit (s.rd f) i false :=
  (State.rd_wr_self _ _ _ hf).trans (Nat.mod_eq_of_lt (setBit_false_le.trans_lt (State.rd_lt _ _)))

theorem window_apart_input {lo wd lo' wd' : Nat} (_ : p < 8) :
    Field.apart ⟨R.PORT_PWMSTAT v p, lo, wd⟩ ⟨R.TRIP_STAT v i, lo', wd'⟩ = true := by
  refine apart_of_addr ?_
  simp only [R.PORT_PWMSTAT, R.TRIP_STAT]
  omega

theorem inputs_apart {lo wd lo' wd' : Nat} (_ : i ≠ j) :
    Field.apart ⟨R.TRIP_STAT v j, lo, wd⟩ ⟨R.TRIP_STAT v i, lo', wd'⟩ = true := by
  refine apart_of_addr ?_
  simp only [R.TRIP_STAT]
  omega

/-- LEVEL of an input is beside what a resolution writes. -/
theorem UnlatchField.apart_level (h : UnlatchField v p g) (hp : p < 8) : (R.TRIP_STAT_LEVEL v j).apart g = true := by
  rcases h with rfl | ⟨i, -, rfl | rfl⟩
  · exact apart_comm (window_apart_input hp)
  all_goals
    by_cases h : i = j
    · exact h ▸ unit_apart
    · exact inputs_apart h

theorem UnlatchField.trip (h : UnlatchField v p g) (hp : p < 8) : TripField v g := by
  rcases h with rfl | ⟨i, hi, rfl | rfl⟩
  · exact .inl ⟨p, hp, rfl⟩
  all_goals exact .inr (.inl ⟨i, hi, .inl rfl⟩)

theorem unlatch_writes : SenseOnly s (unlatch s v p i)
    (· ∈ [R.PORT_PWMSTAT_TRIPLAT v p, R.TRIP_STAT_BLKD_F v i, R.TRIP_STAT_BLKD v i]) :=
  (SenseOnly.refl.wr (.of (by simp) rfl)).unless fun _ h => ((h.set1 (.of (by simp) rfl)).incSat (.of (by simp) rfl)).vatEvent

theorem unlatch_only (hi : i < 8) : SenseOnly s (unlatch s v p i) (UnlatchField v p) :=
  unlatch_writes.weaken fun g hg => by
    simp only [List.mem_cons, List.not_mem_nil, or_false] at hg
    exact hg.imp_right fun hg => ⟨i, hi, hg⟩

theorem unlatch_triplat (hp : p < 8) :
    (unlatch s v p i).rd (R.PORT_PWMSTAT_TRIPLAT v p) = setBit (s.rd (R.PORT_PWMSTAT_TRIPLAT v p)) i false := by
  have cleared := rd_wrBit_false (s := s) (i := i) (f := R.PORT_PWMSTAT_TRIPLAT v p) rfl
  unfold unlatch
  dsimp only
  split
  · exact cleared
  · exact (rd_vatEvent unit_ge).trans ((rd_incSat_apart rfl (window_apart_input hp)).trans
      ((rd_set1_apart rfl (window_apart_input hp)).trans cleared))

theorem unlatch_bit (hp : p < 8) : (unlatch s v p i).rdBit (R.PORT_PWMSTAT_TRIPLAT v p) j
    = (s.rdBit (R.PORT_PWMSTAT_TRIPLAT v p) j && decide (j ≠ i)) := by
  rw [State.rdBit, unlatch_triplat hp, State.rdBit, bitOf_eq_testBit, testBit_setBit_false, bitOf_eq_testBit]

/-- The trip of an input that has gone is discarded. -/
structure Discarded (s t : State) (v : Vat) (i : Nat) : Prop where
  flag : t.rd (R.TRIP_STAT_BLKD_F v i) = 1
  count : t.rd (R.TRIP_STAT_BLKD v i) = min (s.rd (R.TRIP_STAT_BLKD v i) + 1) 65535

theorem unlatch_discards (hp : p < 8) (h : s.is (R.TRIP_STAT_LEVEL v i) = false) : Discarded s (unlatch s v p i) v i := by
  have beside {lo wd : Nat} : (s.wrBit (R.PORT_PWMSTAT_TRIPLAT v p) i false).rd ⟨R.TRIP_STAT v i, lo, wd⟩
      = s.rd ⟨R.TRIP_STAT v i, lo, wd⟩ :=
    State.rd_wr_apart _ _ _ _ rfl (apart_comm (window_apart_input hp))
  have level : (s.wrBit (R.PORT_PWMSTAT_TRIPLAT v p) i false).is (R.TRIP_STAT_LEVEL v i) = false := (is_of_rd beside).trans h
  have count : ((s.wrBit (R.PORT_PWMSTAT_TRIPLAT v p) i false).set1 (R.TRIP_STAT_BLKD_F v i)).rd (R.TRIP_STAT_BLKD v i)
      = s.rd (R.TRIP_STAT_BLKD v i) := (rd_set1_apart rfl unit_apart).trans beside
  rw [unlatch, if_neg (by simp [level])]
  exact ⟨(rd_vatEvent unit_ge).trans ((rd_incSat_apart rfl unit_apart).trans (rd_set1 rfl rfl)),
    (rd_vatEvent unit_ge).trans ((rd_incSat_self rfl).trans (by rw [count]; rfl))⟩

theorem unlatchAll_only (hl : ∀ i ∈ is, i < 8) : SenseOnly s (unlatchAll s v p is) (UnlatchField v p) :=
  SenseOnly.refl.foldl fun _ i hi h => h.trans (unlatch_only (hl i (mem_latched.mp hi).1))

theorem unlatchAll_trip (hp : p < 8) (hl : ∀ i ∈ is, i < 8) : TripOnly v s (unlatchAll s v p is) :=
  TripOnly.refl.write (unlatchAll_only hl) fun _ hg => hg.trip hp

theorem unlatched_bits (hp : p < 8) : (l.foldl (fun s i => unlatch s v p i) s).rdBit (R.PORT_PWMSTAT_TRIPLAT v p) j
    = (s.rdBit (R.PORT_PWMSTAT_TRIPLAT v p) j && decide (j ∉ l)) := by
  induction l generalizing s with
  | nil => simp
  | cons i l ih =>
    rw [List.foldl_cons, ih, unlatch_bit hp]
    simp [Bool.and_assoc]

/-- No trip of those stays latched. -/
theorem unlatchAll_bit (hp : p < 8) (hj : j ∈ is) : (unlatchAll s v p is).rdBit (R.PORT_PWMSTAT_TRIPLAT v p) j = false := by
  rw [unlatchAll, unlatched_bits hp]
  cases h : s.rdBit (R.PORT_PWMSTAT_TRIPLAT v p) j with
  | false => rfl
  | true => simp [mem_latched, hj, h]

theorem unlatchAll_triplat (hp : p < 8) : (unlatchAll s v p (List.range 8)).rd (R.PORT_PWMSTAT_TRIPLAT v p) = 0 :=
  eq_zero_of_bits (State.rd_lt _ _) fun _ hj => unlatchAll_bit hp (List.mem_range.mpr hj)

theorem unlatchAll_level (hp : p < 8) (hl : ∀ i ∈ is, i < 8) :
    (unlatchAll s v p is).rd (R.TRIP_STAT_LEVEL v j) = s.rd (R.TRIP_STAT_LEVEL v j) :=
  (unlatchAll_only hl).unit fun _ hg => hg.apart_level hp

/-- The resolution of one trip leaves the other inputs. -/
theorem unlatch_other {lo wd : Nat} (hp : p < 8) (h : i ≠ j) :
    (unlatch s v p i).rd ⟨R.TRIP_STAT v j, lo, wd⟩ = s.rd ⟨R.TRIP_STAT v j, lo, wd⟩ :=
  unlatch_writes.unit (apart_cons (apart_comm (window_apart_input hp))
    (apart_cons (inputs_apart h) (apart_cons (inputs_apart h) apart_nil)))

theorem unlatchAll_discards (hp : p < 8) (hn : is.Nodup) (hj : j ∈ latched s v p is)
    (h : s.is (R.TRIP_STAT_LEVEL v j) = false) : Discarded s (unlatchAll s v p is) v j := by
  refine foldl_reach (Q := fun t => Discarded s t v j) (P := fun t => t.rd (R.TRIP_STAT_LEVEL v j) = s.rd (R.TRIP_STAT_LEVEL v j)
      ∧ t.rd (R.TRIP_STAT_BLKD v j) = s.rd (R.TRIP_STAT_BLKD v j)) hj (hn.filter _) ⟨rfl, rfl⟩ (fun t i _ hne before => ?_)
    (fun t before => ?_) fun t i _ hne done => ?_
  · exact ⟨(unlatch_other hp hne).trans before.1, (unlatch_other hp hne).trans before.2⟩
  · obtain ⟨flag, count⟩ := unlatch_discards (s := t) hp ((is_of_rd before.1).trans h)
    exact ⟨flag, before.2 ▸ count⟩
  · exact ⟨(unlatch_other hp hne).trans done.flag, (unlatch_other hp hne).trans done.count⟩

end Latched
end Sys2Proof.Machine

namespace Sys2Proof.Machine

open Sys2Proof

/-! ### The commands that resolve them -/

section Resolved

variable {s t u : State} {v : Vat} {g : Field} {j n q : Nat} {is : List Nat} {p i : Fin 8}

/-- What the frame leaves open anyway need not be listed. -/
theorem Frame.drop {fs : List Field} (h : Frame s t (g :: fs)) (hg : g ∈ cycleFields) : Frame s t fs :=
  { h with regs := fun f hf ha => h.regs f hf (apart_cons (List.all_eq_true.mp hf g hg) ha) }

theorem softTripResolution_exec (hr : pulseRuns s v = true) :
    exec (.softTripResolution v p i) s = .next (settle (resolveTrips s v p [i])) :=
  congrArg (fun s => Host.Outcome.next (settle s)) (if_pos hr)

theorem blankingWindowClose_exec (hr : pulseRuns s v = true) (hb : s.is (R.PORT_PWMSTAT_BLK v p) = true) :
    exec (.blankingWindowClose v p) s = .next (settle (resolveTrips (s.clr (R.PORT_PWMSTAT_BLK v p)) v p (List.range 8))) :=
  congrArg (fun s => Host.Outcome.next (settle s)) ((if_pos hr).trans (if_neg (by rw [hb]; decide)))

theorem resolveTrips_discards (h : ∀ j ∈ latched s v p is, s.is (R.TRIP_STAT_LEVEL v j) = false) :
    resolveTrips s v p is = unlatchAll s v p is :=
  resolveTrips_eq.trans (if_neg (by simpa using h))

theorem resolveTrips_pattern (hj : j ∈ latched s v p is) (h : s.is (R.TRIP_STAT_LEVEL v j) = true) :
    resolveTrips s v p is = enterFaultPattern (unlatchAll s v p is) v p causeTRIP :=
  resolveTrips_eq.trans (if_pos (List.any_eq_true.mpr ⟨j, hj, h⟩))

/-- A latched trip whose input has gone is discarded. -/
theorem softTripResolution_discards (hs : Steady s v) (hr : pulseRuns s v = true)
    (hb : s.rdBit (R.PORT_PWMSTAT_TRIPLAT v p) i = true) (hl : s.is (R.TRIP_STAT_LEVEL v i) = false) :
    Answers (.softTripResolution v p i) s (fun t => t.rdBit (R.PORT_PWMSTAT_TRIPLAT v p) i = false
      ∧ t.is (R.TRIP_STAT_BLKD_F v i) = true ∧ t.rd (R.TRIP_STAT_BLKD v i) = min (s.rd (R.TRIP_STAT_BLKD v i) + 1) 65535
      ∧ portState t v p = portState s v p ∧ Frame s t [R.TRIP_STAT_BLKD_F v i, R.TRIP_STAT_BLKD v i]) := by
  have one : unlatchAll s v p [i] = unlatch s v p i := by
    rw [unlatchAll, latched, List.filter_cons_of_pos hb, List.filter_nil, List.foldl_cons, List.foldl_nil]
  have gone : resolveTrips s v p [i] = unlatch s v p i :=
    (resolveTrips_discards fun j hj => by rw [List.mem_singleton.mp (mem_latched.mp hj).1, hl]).trans one
  have only : TripOnly v s (unlatch s v p i) := one ▸ unlatchAll_trip p.isLt (by simp)
  have settled {a st m lo wd : Nat} (hm : a + m * st < 0x10000000) : (settle (unlatch s v p i)).rd ⟨v.base + a + m * st, lo, wd⟩
      = (unlatch s v p i).rd ⟨v.base + a + m * st, lo, wd⟩ := settle_steady (only.steady hs) (inVat_unit hm)
  obtain ⟨flag, count⟩ := unlatch_discards (p := p) p.isLt hl
  refine ⟨_, softTripResolution_exec hr, ?_⟩
  rw [gone]
  refine ⟨?_, is_one ((settled (by omega)).trans flag), (settled (by omega)).trans count,
    (settled (by omega)).trans (only.portState p.isLt), (unlatch_writes.frame hs.calm).drop ?_⟩
  · refine (congrArg (bitOf · i) (settled (by omega))).trans ((unlatch_bit p.isLt).trans ?_)
    simp
  · exact mem_cyclePort (v := v) p.isLt (by simp [cyclePortFields])

/-- One whose input is still asserted takes the port into FAULT_PATTERN. -/
theorem softTripResolution_pattern (hs : Steady s v) (hr : pulseRuns s v = true)
    (hb : s.rdBit (R.PORT_PWMSTAT_TRIPLAT v p) i = true) (hl : s.is (R.TRIP_STAT_LEVEL v i) = true) (ha : loneActive s v p = true) :
    Answers (.softTripResolution v p i) s (fun t => PatternEntered s t v p causeTRIP (nextPattern s v p)
      ∧ t.rd (R.PORT_PWMSTAT_TRIPLAT v p) = 0) := by
  have only : TripOnly v s (unlatchAll s v p [i]) := unlatchAll_trip p.isLt (by simp)
  have lone := loneActive_iff.mp ha
  obtain ⟨entered, settled⟩ := only.settle_entered hs lone p.isLt (cause := causeTRIP) (by decide)
  have pattern : resolveTrips s v p [i] = _ := resolveTrips_pattern (mem_latched.mpr ⟨.head _, hb⟩) hl
  refine ⟨_, softTripResolution_exec hr, ?_⟩
  rw [pattern]
  exact ⟨entered, (settled _ (inVat_unit (by omega))).trans ((only.lone lone p.isLt).triplat p.isLt (by decide))⟩

/-! ### The end of the window -/

/-- The state after the end of port `p`'s window but for an entry into FAULT_PATTERN. -/
def windowEnded (s : State) (v : Vat) (p : Nat) : State := unlatchAll (s.clr (R.PORT_PWMSTAT_BLK v p)) v p (List.range 8)

theorem windowEnded_trip : TripOnly v s (windowEnded s v p) :=
  have closed : SenseOnly s (s.clr (R.PORT_PWMSTAT_BLK v p)) (· = R.PORT_PWMSTAT_BLK v p) := SenseOnly.refl.clr (.of rfl rfl)
  (TripOnly.refl.write closed fun _ hg => .inl ⟨p, p.isLt, hg ▸ rfl⟩).write (unlatchAll_only fun _ => List.mem_range.mp)
    fun _ hg => hg.trip p.isLt

theorem windowEnded_closed : (windowEnded s v p).rd (R.PORT_PWMSTAT_BLK v p) = 0 := by
  have kept : (windowEnded s v p).rd (R.PORT_PWMSTAT_BLK v p) = (s.clr (R.PORT_PWMSTAT_BLK v p)).rd (R.PORT_PWMSTAT_BLK v p) := by
    refine (unlatchAll_only fun _ => List.mem_range.mp).unit fun g hg => ?_
    rcases hg with rfl | ⟨i, -, rfl | rfl⟩
    · exact unit_apart
    · exact window_apart_input p.isLt
    · exact window_apart_input p.isLt
  exact kept.trans (State.rd_wr_self _ _ _ rfl)

theorem input_after_close {lo wd : Nat} :
    (s.clr (R.PORT_PWMSTAT_BLK v p)).rd ⟨R.TRIP_STAT v j, lo, wd⟩ = s.rd ⟨R.TRIP_STAT v j, lo, wd⟩ :=
  State.rd_wr_apart _ _ _ _ rfl (apart_comm (window_apart_input p.isLt))

theorem mem_latched_close : j ∈ latched (s.clr (R.PORT_PWMSTAT_BLK v p)) v p (List.range 8)
    ↔ j < 8 ∧ s.rdBit (R.PORT_PWMSTAT_TRIPLAT v p) j = true := by
  have kept : (s.clr (R.PORT_PWMSTAT_BLK v p)).rd (R.PORT_PWMSTAT_TRIPLAT v p) = s.rd (R.PORT_PWMSTAT_TRIPLAT v p) :=
    State.rd_wr_apart _ _ _ _ rfl unit_apart
  rw [mem_latched, List.mem_range, State.rdBit, kept, State.rdBit]

/-- Where no input is asserted, what is latched is discarded. -/
theorem blankingWindowClose_discards (hs : Steady s v) (hr : pulseRuns s v = true) (hb : s.is (R.PORT_PWMSTAT_BLK v p) = true)
    (hl : (List.range 8).all (fun i => !s.is (R.TRIP_STAT_LEVEL v i)) = true) :
    Answers (.blankingWindowClose v p) s (fun t => t.is (R.PORT_PWMSTAT_BLK v p) = false ∧ t.rd (R.PORT_PWMSTAT_TRIPLAT v p) = 0
      ∧ portState t v p = portState s v p) := by
  have gone : resolveTrips (s.clr (R.PORT_PWMSTAT_BLK v p)) v p (List.range 8) = windowEnded s v p :=
    resolveTrips_discards fun j hj => by
      have gone : s.is (R.TRIP_STAT_LEVEL v j) = false := by simpa using List.all_eq_true.mp hl j (mem_latched.mp hj).1
      exact (is_of_rd input_after_close).trans gone
  have settled {a m lo wd : Nat} (hm : a + m * 0x400 < 0x10000000) : (settle (windowEnded s v p)).rd ⟨v.base + a + m * 0x400, lo, wd⟩
      = (windowEnded s v p).rd ⟨v.base + a + m * 0x400, lo, wd⟩ := settle_steady (windowEnded_trip.steady hs) (inVat_unit hm)
  refine ⟨_, blankingWindowClose_exec hr hb, ?_⟩
  rw [gone]
  exact ⟨is_zero ((settled (by omega)).trans windowEnded_closed), (settled (by omega)).trans (unlatchAll_triplat p.isLt),
    (settled (by omega)).trans (windowEnded_trip.portState p.isLt)⟩

/-- An entry into FAULT_PATTERN leaves BLK. -/
theorem EnteredField.apart_blk (h : EnteredField v n g) (hn : n < 8) : (R.PORT_PWMSTAT_BLK v n).apart g = true := by
  rcases h with h | h
  · simp only [cyclePortFields, List.mem_cons, List.not_mem_nil, or_false] at h
    rcases h with rfl | rfl | rfl | rfl | rfl | rfl | rfl | rfl | rfl | rfl | rfl <;> exact unit_apart
  · exact port_apart_leg (port_low hn) h

/-- Where a latched trip's input is still asserted, the port takes its pattern, and the trips whose inputs have gone are discarded. -/
theorem blankingWindowClose_pattern (hs : Steady s v) (hr : pulseRuns s v = true) (hb : s.is (R.PORT_PWMSTAT_BLK v p) = true)
    (hi : s.rdBit (R.PORT_PWMSTAT_TRIPLAT v p) i = true) (hl : s.is (R.TRIP_STAT_LEVEL v i) = true) (ha : loneActive s v p = true) :
    Answers (.blankingWindowClose v p) s (fun t => t.is (R.PORT_PWMSTAT_BLK v p) = false
      ∧ PatternEntered s t v p causeTRIP (nextPattern s v p) ∧ t.rd (R.PORT_PWMSTAT_TRIPLAT v p) = 0
      ∧ ∀ j : Fin 8, s.rdBit (R.PORT_PWMSTAT_TRIPLAT v p) j = true → s.is (R.TRIP_STAT_LEVEL v j) = false →
        t.is (R.TRIP_STAT_BLKD_F v j) = true ∧ t.rd (R.TRIP_STAT_BLKD v j) = min (s.rd (R.TRIP_STAT_BLKD v j) + 1) 65535) := by
  have lone := loneActive_iff.mp ha
  have ended : Lone (windowEnded s v p) v p := windowEnded_trip.lone lone p.isLt
  obtain ⟨entered, settled⟩ := windowEnded_trip.settle_entered hs lone p.isLt (cause := causeTRIP) (by decide)
  have pattern : resolveTrips (s.clr (R.PORT_PWMSTAT_BLK v p)) v p (List.range 8)
      = enterFaultPattern (windowEnded s v p) v p causeTRIP :=
    resolveTrips_pattern (mem_latched_close.mpr ⟨i.isLt, hi⟩) ((is_of_rd input_after_close).trans hl)
  refine ⟨_, blankingWindowClose_exec hr hb, ?_⟩
  rw [pattern]
  refine ⟨is_zero ((settled _ (inVat_unit (by omega))).trans ?_), entered,
    (settled _ (inVat_unit (by omega))).trans (ended.triplat p.isLt (by decide)), fun j hj hn => ?_⟩
  · exact ((ended.only p.isLt (by decide)).unit fun g hg => hg.apart_blk p.isLt).trans windowEnded_closed
  · obtain ⟨flag, count⟩ := unlatchAll_discards (s := s.clr (R.PORT_PWMSTAT_BLK v p)) (is := List.range 8) p.isLt List.nodup_range
      (mem_latched_close.mpr ⟨j.isLt, hj⟩) ((is_of_rd input_after_close).trans hn)
    have before : (s.clr (R.PORT_PWMSTAT_BLK v p)).rd (R.TRIP_STAT_BLKD v j) = s.rd (R.TRIP_STAT_BLKD v j) := input_after_close
    rw [before] at count
    exact ⟨is_one ((settled _ (inVat_unit (by omega))).trans ((ended.trip p.isLt j.isLt (by decide)).trans flag)),
      (settled _ (inVat_unit (by omega))).trans ((ended.trip p.isLt j.isLt (by decide)).trans count)⟩

end Resolved

/-- Settles O26: the resolution of latched trips discards those whose inputs have gone (`unlatchAll_discards`), and the entry into
FAULT_PATTERN for one that is still asserted drops what is latched (`Lone.triplat`). -/
theorem softTripsResolved : Obligations.SoftTripsResolved := by
  unfold Obligations.SoftTripsResolved
  exact ⟨fun _ _ _ _ => softTripResolution_discards, fun _ _ _ _ => softTripResolution_pattern,
    fun _ _ _ => blankingWindowClose_discards, fun _ _ _ _ => blankingWindowClose_pattern⟩

end Sys2Proof.Machine

namespace Sys2Proof.Machine

open Sys2Proof

/-! ## A trip input rises, and is released (R220, R221) -/

section Rises

variable {s t : State} {v : Vat} {f g : Field} {k n q : Nat} {p i : Fin 8}

/-! ### The AUX sequences that a trip starts (R83) -/

theorem injTrigger_idle (h : auxRuns s v k = false) : injTrigger s v k = s := if_pos (by rw [h]; rfl)

theorem TripOnly.injTrigger (h : TripOnly v s t) (hk : k < 4) : TripOnly v s (injTrigger t v k) := by
  by_cases hr : auxRuns t v k = true
  · obtain ⟨-, e⟩ | ⟨-, -, -, e⟩ | ⟨-, -, e⟩ := injTrigger_cases hr <;> rw [e]
    · exact h
    · exact h.write (W := (· = R.AUX_STAT_INJ_LOST_F v k)) (SenseOnly.refl.vatFlagEdge (.of rfl rfl))
        fun _ hg => .inr (.inr ⟨k, hk, hg ▸ rfl⟩)
    · obtain ⟨y, hy⟩ := injStart_eq (s := t) (v := v) (k := k)
      rw [hy]
      exact h.modAux
  · rwa [injTrigger_idle (by simpa using hr)]

theorem injTrigger_rd (hf : 0x50000000 ≤ f.addr) (ha : f.apart (R.AUX_STAT_INJ_LOST_F v k) = true) :
    (injTrigger s v k).rd f = s.rd f := by
  by_cases hr : auxRuns s v k = true
  · obtain ⟨-, e⟩ | ⟨-, -, -, e⟩ | ⟨-, -, e⟩ := injTrigger_cases hr <;> rw [e]
    · exact rd_vatFlagEdge_apart rfl ha hf
    · obtain ⟨y, hy⟩ := injStart_eq (s := s) (v := v) (k := k)
      rw [hy]
      exact rd_modAux
  · rw [injTrigger_idle (by simpa using hr)]

theorem TripOnly.injTrip (h : TripOnly v s t) : TripOnly v s (injTrip t v n) :=
  forN_keep (P := fun t => TripOnly v s t) h fun t k hk h => by
    split
    · exact h.injTrigger hk
    · exact h

/-- A register below those of the AUX links. -/
theorem injTrip_rd (h0 : 0x50000000 ≤ f.addr) (h1 : f.addr < v.base + 0x04200000) : (injTrip s v n).rd f = s.rd f :=
  forN_keep (P := fun t => t.rd f = s.rd f) rfl fun t k hk e => by
    split
    · refine (injTrigger_rd h0 (apart_of_addr ?_)).trans e
      simp only [R.AUX_STAT_INJ_LOST_F, R.AUX_STAT]
      omega
    · exact e

/-! ### What registers -/

/-- A trip registers; no port has acted yet. -/
def tripShown (s : State) (v : Vat) (i : Nat) : State :=
  injTrip ((((s.set1 (R.TRIP_STAT_LEVEL v i)).set1 (R.TRIP_STAT_TRIP_F v i)).incSat (R.TRIP_COUNT_VAL v i)).vatEvent
    v uPULSE 0x0A01 i) v i

theorem tripShown_only : TripOnly v s (tripShown s v i) := by
  have writes : SenseOnly s ((((s.set1 (R.TRIP_STAT_LEVEL v i)).set1 (R.TRIP_STAT_TRIP_F v i)).incSat (R.TRIP_COUNT_VAL v i)).vatEvent
      v uPULSE 0x0A01 i) (fun g => g.addr = R.TRIP_STAT v i ∨ g.addr = R.TRIP_COUNT v i) :=
    (((SenseOnly.refl.set1 (.of (.inl rfl) rfl)).set1 (.of (.inl rfl) rfl)).incSat (.of (.inr rfl) rfl)).vatEvent
  exact (TripOnly.refl.write writes fun _ hg => .inr (.inl ⟨i, i.isLt, hg⟩)).injTrip

/-- A register of ports, legs or trip inputs beside TRIP_STAT and TRIP_COUNT. -/
theorem tripShown_rd {a st m lo wd : Nat} (hs : a + m * st ≠ 0x04020904 + i.val * 0x10) (hc : a + m * st ≠ 0x04020908 + i.val * 0x10)
    (ha : a + m * st < 0x04200000) :
    (tripShown s v i).rd ⟨v.base + a + m * st, lo, wd⟩ = s.rd ⟨v.base + a + m * st, lo, wd⟩ := by
  have stat {lo' wd' : Nat} : Field.apart ⟨v.base + a + m * st, lo, wd⟩ ⟨R.TRIP_STAT v i, lo', wd'⟩ = true :=
    apart_of_addr (by simp only [R.TRIP_STAT]; omega)
  have count : Field.apart ⟨v.base + a + m * st, lo, wd⟩ (R.TRIP_COUNT_VAL v i) = true :=
    apart_of_addr (by simp only [R.TRIP_COUNT_VAL, R.TRIP_COUNT]; omega)
  exact (injTrip_rd unit_ge (show v.base + a + m * st < _ by omega)).trans ((rd_vatEvent unit_ge).trans ((rd_incSat_apart rfl count).trans
    ((rd_set1_apart rfl stat).trans (rd_set1_apart rfl stat))))

/-- LEVEL, TRIP_F and COUNT of a trip that has registered since `s`. -/
structure TripShown (s t : State) (v : Vat) (i : Nat) : Prop where
  level : t.rd (R.TRIP_STAT_LEVEL v i) = 1
  flag : t.rd (R.TRIP_STAT_TRIP_F v i) = 1
  count : t.rd (R.TRIP_COUNT_VAL v i) = min (s.rd (R.TRIP_COUNT_VAL v i) + 1) (2 ^ 32 - 1)

theorem tripShown_shows : TripShown s (tripShown s v i) v i := by
  have low {a lo wd : Nat} (ha : a < 0x04200000 - 8 * 0x10) : (⟨v.base + a + i * 0x10, lo, wd⟩ : Field).addr < v.base + 0x04200000 := by
    dsimp only
    omega
  have count : ((s.set1 (R.TRIP_STAT_LEVEL v i)).set1 (R.TRIP_STAT_TRIP_F v i)).rd (R.TRIP_COUNT_VAL v i) = s.rd (R.TRIP_COUNT_VAL v i) :=
    (rd_set1_apart rfl unit_apart).trans (rd_set1_apart rfl unit_apart)
  refine ⟨?_, ?_, ?_⟩ <;> refine (injTrip_rd unit_ge (low (by decide))).trans ((rd_vatEvent unit_ge).trans ?_)
  · exact (rd_incSat_apart rfl unit_apart).trans ((rd_set1_apart rfl unit_apart).trans (rd_set1 rfl rfl))
  · exact (rd_incSat_apart rfl unit_apart).trans (rd_set1 rfl rfl)
  · rw [← count]
    exact rd_incSat_self rfl

theorem TripShown.of_rd (h : TripShown s t v i) {u : State} (hu : ∀ a lo wd, a = 0x04020904 ∨ a = 0x04020908 →
    u.rd ⟨v.base + a + i * 0x10, lo, wd⟩ = t.rd ⟨v.base + a + i * 0x10, lo, wd⟩) : TripShown s u v i :=
  ⟨(hu _ _ _ (.inl rfl)).trans h.level, (hu _ _ _ (.inl rfl)).trans h.flag, (hu _ _ _ (.inr rfl)).trans h.count⟩

/-! ### The port of the mask -/

/-- A trip at the ports of its mask (R221). -/
def tripPorts (s : State) (v : Vat) (i : Nat) : State :=
  forN 8 s (fun s p => if s.rdBit (R.TRIP_CFG_PMASK v i) p then tripAtPort s v i p else s)

theorem registerTrip_eq (he : s.is (R.TRIP_CFG_EN v i) = true) (hl : s.is (R.TRIP_STAT_LEVEL v i) = false) :
    registerTrip s v i = tripPorts (tripShown s v i) v i := if_neg (by rw [he, hl]; decide)

theorem masked_bit (h : s.rd f = 2 ^ n) : s.rdBit f q = decide (n = q) := by
  rw [State.rdBit, h, bitOf_eq_testBit, Nat.testBit_two_pow]

/-- A mask of one port: the trip is one at that port. -/
theorem tripPorts_one (hm : s.rd (R.TRIP_CFG_PMASK v i) = 2 ^ p.val)
    (hk : (tripAtPort s v i p).rd (R.TRIP_CFG_PMASK v i) = s.rd (R.TRIP_CFG_PMASK v i)) : tripPorts s v i = tripAtPort s v i p := by
  refine forN_reach (P := (· = s)) (Q := (· = tripAtPort s v i p)) p.isLt rfl (fun t j _ hj before => ?_) (fun t before => ?_)
    fun t j _ hj after => ?_
  · subst before
    exact if_neg (by rw [masked_bit hm]; simpa using hj.symm)
  · subst before
    exact if_pos (by rw [masked_bit hm]; simp)
  · subst after
    exact if_neg (by rw [masked_bit (hk.trans hm)]; simpa using hj.symm)

theorem tripRegistration_exec (hr : pulseRuns s v = true) : exec (.tripRegistration v i) s = .next (settle (registerTrip s v i)) :=
  congrArg (fun s => Host.Outcome.next (settle s)) (if_pos hr)

/-- The cause that a lone port takes is its own. -/
theorem Lone.enterUnitPattern_eq (h : Lone s v n) {y : Nat → Nat} : enterUnitPattern s v n y = enterFaultPattern s v n (y n) := by
  simp only [enterFaultPattern, enterUnitPattern, h.unit, List.foldl_cons, List.foldl_nil, if_true]

theorem portActive_of_state (h : portState t v n = portState s v n) : portActive t v n = portActive s v n := by
  rw [portActive, h, portActive]

/-- The trip acts on a lone port. -/
theorem tripAtPort_pattern (h : Lone s v p) (hm : s.rd (R.TRIP_CFG_PMASK v i) = 2 ^ p.val) (ha : tripActs s v i p = true) :
    tripAtPort s v i p = enterFaultPattern s v p causeTRIP := by
  have mine : s.rdBit (R.TRIP_CFG_PMASK v i) p = true := by rw [masked_bit hm]; simp
  rw [tripAtPort, if_neg (by simp [h.active]), if_pos ha, h.enterUnitPattern_eq, mine, ha]
  rfl

/-- It is latched at an active one. -/
theorem tripAtPort_latch (h : portActive s v p = true) (ha : tripActs s v i p = false) :
    tripAtPort s v i p = s.wrBit (R.PORT_PWMSTAT_TRIPLAT v p) i true := by
  rw [tripAtPort, if_neg (by simp [h]), if_neg (by simp [ha])]

theorem tripShown_acts : tripActs (tripShown s v i) v i p = tripActs s v i p := by
  have cls : (tripShown s v i).is (R.TRIP_CFG_CLASS v i) = s.is (R.TRIP_CFG_CLASS v i) :=
    is_of_rd (tripShown_rd (by omega) (by omega) (by omega))
  have blk : (tripShown s v i).is (R.PORT_PWMSTAT_BLK v p) = s.is (R.PORT_PWMSTAT_BLK v p) :=
    is_of_rd (tripShown_rd (by omega) (by omega) (by omega))
  rw [tripActs, cls, blk, tripActs]

theorem tripShown_mask : (tripShown s v i).rd (R.TRIP_CFG_PMASK v i) = s.rd (R.TRIP_CFG_PMASK v i) :=
  tripShown_rd (by omega) (by omega) (by omega)

/-- A trip that acts on a lone port takes it into FAULT_PATTERN. -/
theorem tripRegistration_pattern (hs : Steady s v) (hr : pulseRuns s v = true) (he : s.is (R.TRIP_CFG_EN v i) = true)
    (hl : s.is (R.TRIP_STAT_LEVEL v i) = false) (hm : s.rd (R.TRIP_CFG_PMASK v i) = 2 ^ p.val) (ha : loneActive s v p = true)
    (hc : s.is (R.TRIP_CFG_CLASS v i) = true ∨ s.is (R.PORT_PWMSTAT_BLK v p) = false) :
    Answers (.tripRegistration v i) s (fun t => PatternEntered s t v p causeTRIP (nextPattern s v p)
      ∧ t.is (R.TRIP_STAT_LEVEL v i) = true ∧ t.is (R.TRIP_STAT_TRIP_F v i) = true
      ∧ t.rd (R.TRIP_COUNT_VAL v i) = min (s.rd (R.TRIP_COUNT_VAL v i) + 1) (2 ^ 32 - 1)) := by
  have lone := loneActive_iff.mp ha
  have shown : Lone (tripShown s v i) v p := tripShown_only.lone lone p.isLt
  have acts : tripActs (tripShown s v i) v i p = true := by
    rw [tripShown_acts, tripActs]
    rcases hc with h | h <;> simp [h]
  have pattern : tripAtPort (tripShown s v i) v i p = enterFaultPattern (tripShown s v i) v p causeTRIP :=
    tripAtPort_pattern shown (tripShown_mask.trans hm) acts
  have registered : registerTrip s v i = enterFaultPattern (tripShown s v i) v p causeTRIP := by
    rw [registerTrip_eq he hl, tripPorts_one (tripShown_mask.trans hm), pattern]
    rw [pattern]
    exact shown.trip p.isLt i.isLt (by decide)
  obtain ⟨entered, settled⟩ := (tripShown_only (i := i)).settle_entered hs lone p.isLt (cause := causeTRIP) (by decide)
  have shows : TripShown s (settle (enterFaultPattern (tripShown s v i) v p causeTRIP)) v i :=
    tripShown_shows.of_rd fun a lo wd h => by
      have h : 0x04020900 ≤ a ∧ a < 0x04020910 := by omega
      exact (settled _ (inVat_unit (by omega))).trans (shown.trip p.isLt i.isLt (by decide) (decide_eq_true h))
  refine ⟨_, tripRegistration_exec hr, ?_⟩
  rw [registered]
  exact ⟨entered, is_one shows.level, is_one shows.flag, shows.count⟩

/-- A soft trip inside the window is latched. -/
theorem tripRegistration_latch (hs : Steady s v) (hr : pulseRuns s v = true) (he : s.is (R.TRIP_CFG_EN v i) = true)
    (hl : s.is (R.TRIP_STAT_LEVEL v i) = false) (hm : s.rd (R.TRIP_CFG_PMASK v i) = 2 ^ p.val) (ha : portActive s v p = true)
    (hc : s.is (R.TRIP_CFG_CLASS v i) = false) (hb : s.is (R.PORT_PWMSTAT_BLK v p) = true) :
    Answers (.tripRegistration v i) s (fun t => t.rdBit (R.PORT_PWMSTAT_TRIPLAT v p) i = true ∧ portState t v p = portState s v p
      ∧ t.is (R.TRIP_STAT_LEVEL v i) = true ∧ t.is (R.TRIP_STAT_TRIP_F v i) = true) := by
  have latched : tripAtPort (tripShown s v i) v i p = (tripShown s v i).wrBit (R.PORT_PWMSTAT_TRIPLAT v p) i true :=
    tripAtPort_latch ((portActive_of_state (tripShown_only.portState p.isLt)).trans ha) (by rw [tripShown_acts, tripActs, hc, hb]; rfl)
  have input {a lo wd : Nat} (ha : 0x04002000 ≤ a) : ((tripShown s v i).wrBit (R.PORT_PWMSTAT_TRIPLAT v p) i true).rd
      ⟨v.base + a + i * 0x10, lo, wd⟩ = (tripShown s v i).rd ⟨v.base + a + i * 0x10, lo, wd⟩ := by
    refine State.rd_wr_apart _ _ _ _ rfl (apart_of_addr ?_)
    simp only [R.PORT_PWMSTAT_TRIPLAT, R.PORT_PWMSTAT]
    omega
  have registered : registerTrip s v i = (tripShown s v i).wrBit (R.PORT_PWMSTAT_TRIPLAT v p) i true := by
    rw [registerTrip_eq he hl, tripPorts_one (tripShown_mask.trans hm), latched]
    rw [latched]
    exact input (by decide)
  have only : TripOnly v s ((tripShown s v i).wrBit (R.PORT_PWMSTAT_TRIPLAT v p) i true) :=
    tripShown_only.write (W := (· = R.PORT_PWMSTAT_TRIPLAT v p)) (SenseOnly.refl.wr (.of rfl rfl))
      fun _ hg => .inl ⟨p, p.isLt, hg ▸ rfl⟩
  have settled {a st m lo wd : Nat} (hm : a + m * st < 0x10000000) :
      (settle ((tripShown s v i).wrBit (R.PORT_PWMSTAT_TRIPLAT v p) i true)).rd ⟨v.base + a + m * st, lo, wd⟩
      = ((tripShown s v i).wrBit (R.PORT_PWMSTAT_TRIPLAT v p) i true).rd ⟨v.base + a + m * st, lo, wd⟩ :=
    settle_steady (only.steady hs) (inVat_unit hm)
  have shows : TripShown s (settle ((tripShown s v i).wrBit (R.PORT_PWMSTAT_TRIPLAT v p) i true)) v i :=
    tripShown_shows.of_rd fun a lo wd h => (settled (by omega)).trans (input (by omega))
  refine ⟨_, tripRegistration_exec hr, ?_⟩
  rw [registered]
  refine ⟨?_, (settled (by omega)).trans (only.portState p.isLt), is_one shows.level, is_one shows.flag⟩
  refine (congrArg (bitOf · i) ((settled (by omega)).trans (State.rd_wr_self _ _ _ rfl))).trans ?_
  rw [bitOf_eq_testBit, Nat.testBit_mod_two_pow, ← bitOf_eq_testBit, bitOf_setBit_true]
  exact (Bool.and_true _).trans (decide_eq_true i.isLt)

theorem input_free : cycleFree (R.TRIP_STAT_LEVEL v i) = true := by
  cases v <;> revert i <;> decide +kernel

/-- The release of an input clears LEVEL. -/
theorem tripLevelRelease_clears (hc : Calm s) (hr : pulseRuns s v = true) :
    Answers (.tripLevelRelease v i) s (fun t => t.is (R.TRIP_STAT_LEVEL v i) = false ∧ Frame s t [R.TRIP_STAT_LEVEL v i]) := by
  have only : SenseOnly s (s.clr (R.TRIP_STAT_LEVEL v i)) (· ∈ [R.TRIP_STAT_LEVEL v i]) := SenseOnly.refl.clr (.of (.head _) rfl)
  refine ⟨_, congrArg (fun s => Host.Outcome.next (settle s)) (if_pos hr), is_zero ?_, only.frame hc⟩
  exact (settle_rd (only.calm hc) _ input_free).trans (State.rd_wr_self _ _ _ rfl)

end Rises

/-- Settles O25: what registers leaves the port as it was (`tripShown_only`), and a mask of one port makes the trip one at that
port (`tripPorts_one`). -/
theorem tripsAct : Obligations.TripsAct := by
  unfold Obligations.TripsAct
  exact ⟨fun _ _ _ _ => tripRegistration_pattern, fun _ _ _ _ => tripRegistration_latch, fun _ _ _ => tripLevelRelease_clears⟩

end Sys2Proof.Machine
